-- ==== Sys2Proof/Word.lean ====
section
/-! DEFINITION. Word types of the model: the widths in which the spec stores things. -/
namespace Sys2Proof

/-- A 32-bit register word (R28). -/
abbrev Word := BitVec 32
/-- A 64-bit register or host address (R29). -/
abbrev Long := BitVec 64
/-- A byte (R11). -/
abbrev Byte := BitVec 8
/-- A 32-byte ring entry or record, byte 0 in bits 7..0 (R570, little-endian by R11). -/
abbrev Entry := BitVec 256

end Sys2Proof
end

