-- ==== Sys2Proof/Config.lean ====
section
/-! DEFINITION. What the spec leaves to the implementation or does not give: constants without a body, so that
no proof can see a value of them (log entries 4, 5, 12, 22, 23 and 26). -/
namespace Sys2Proof

/-- The k-th free value of a run: the value the hardware produces where the spec gives none (log entry 4). -/
opaque Config.freeValue : Nat → Long

/-- DEV_SERIAL: the factory number of the device (R640), log entry 5. -/
opaque Config.serial : Long

/-- The SHA-384 hash of Skovaragen's public key that the boot ROM holds (R627), log entry 5. -/
opaque Config.romKeyHash : BitVec 384

/-- The record schema S that the firmware image in use supports before an image is loaded (R504, R506), log entry 5. -/
opaque Config.bootSchema : BitVec 8

/-- What a burst of DRAM holds after a training before anything writes it, by training and burst index (R536), log
entry 12. -/
opaque Config.dramStart : (training burst : Nat) → BitVec 512

/-- The 64-bit filter state that the servo engine keeps of an exact sum outside the format (R248), log entry 22. -/
opaque Config.filterOverflow : Int → Long

/-- The bytes over which DIGEST_STATE runs, from the numbers of R484 in their order: the spec gives the words but not
their widths, log entry 26. -/
opaque Config.digestBytes : List Int → List (BitVec 8)

/-- The words that a MIRROR record of each kind of state part takes: the spec lays none of them out (R501), log entry 27. -/
opaque Config.partWords : (kind : Nat) → Nat

/-- Factory base tables of the line head's segments, in 4 ns units (R364): by module, bring-up of its lane, segment
within the module and code, log entry 23. -/
opaque Config.baseWidth : (module bringUp segment code : Nat) → BitVec 18

end Sys2Proof
end

