-- ==== Sys2Proof/Machine/Registers.lean ====
section
/-! DEFINITION. The register space of BAR0: page map (R61), common header (R34) and the field table of every
page, with access code, application class, reset value and the values a field admits (R12, R33, R42). -/
namespace Sys2Proof.Machine

/-- Access codes of R33. -/
inductive Access where
  | ro | rw | w1c | wo | sl
  deriving DecidableEq, Repr

/-- Application classes of R42; `none` for a field that no write reaches. -/
inductive App where
  | live
  | commit (g : Nat)
  | heat (g : Nat)
  | locked
  | seal
  | none
  deriving DecidableEq, Repr

/-- One field of a register: its bits, access, class, reset value, the ranges of admitted values
(`[]`: every value) and the bits of it that must be written as 0 (R12). -/
structure Field where
  lo : Nat
  width : Nat
  acc : Access
  app : App
  reset : Nat
  ok : List (Nat × Nat)
  zero : Nat
  deriving DecidableEq, Repr

/-- A register, or a row of `count` registers `stride` bytes apart. -/
structure Reg where
  off : Nat
  stride : Nat
  count : Nat
  fields : List Field
  deriving DecidableEq, Repr

def ro (lo width reset : Nat) : Field := ⟨lo, width, .ro, .none, reset, [], 0⟩
def w1c (lo width : Nat) : Field := ⟨lo, width, .w1c, .live, 0, [], 0⟩
def rw (lo width : Nat) (app : App) (reset : Nat) (ok : List (Nat × Nat)) : Field :=
  ⟨lo, width, .rw, app, reset, ok, 0⟩
def wo (lo width : Nat) (app : App) (reset : Nat) (ok : List (Nat × Nat)) : Field :=
  ⟨lo, width, .wo, app, reset, ok, 0⟩
def sl (lo width : Nat) (app : App) (reset : Nat) (ok : List (Nat × Nat)) : Field :=
  ⟨lo, width, .sl, app, reset, ok, 0⟩
/-- A field some of whose bits are "reserved, 0" (R12). -/
def zeros (m : Nat) (f : Field) : Field := { f with zero := m }

/-- The registers of a SCH page besides the header of R34. -/
def schRegs : List Reg := [
  ⟨0x040, 0, 1, [rw 0 1 .live 0 [], wo 1 1 .live 0 []]⟩, -- SCH_RUN: DRAIN, ABANDON
  ⟨0x044, 0, 1, [rw 0 32 (.commit 0) 200000 []]⟩, -- SCH_AGE_LIMIT: LIMIT
  ⟨0x048, 0, 1, [rw 0 2 (.commit 1) 0 [], rw 2 1 (.commit 1) 0 [], rw 8 9 (.commit 1) 25 [], rw 17 6 (.commit 1) 3 []]⟩, -- SCH_PLUME: FLOW_DIR, REVERSE, LENGTH, HALF_WIDTH
  ⟨0x04C, 0, 1, [rw 0 8 (.commit 2) 20 [], rw 8 8 (.commit 2) 20 [], rw 16 8 (.commit 2) 40 []]⟩, -- SCH_BAND: REAR, FRONT, LEAD
  ⟨0x050, 0, 1, [rw 0 3 (.commit 0) 0 []]⟩, -- SCH_PATCH: COOLDOWN
  ⟨0x054, 0, 1, [rw 0 32 (.commit 0) 20000 []]⟩, -- SCH_STALL_LIMIT: LIMIT
  ⟨0x060, 0, 1, [ro 0 17 0]⟩, -- SCH_READY_COUNT: COUNT
  ⟨0x064, 0, 1, [ro 0 32 0]⟩, -- SCH_ACTIVE_MASK: MASK
  ⟨0x068, 0, 1, [ro 0 32 0]⟩, -- SCH_HELD_MASK: MASK
  ⟨0x06C, 0, 1, [ro 0 16 0, ro 16 1 0, ro 31 1 0]⟩, -- SCH_HEAD: ISLAND, PATCH, VALID
  ⟨0x070, 0, 1, [ro 0 16 0, ro 16 1 0, ro 24 5 0, ro 31 1 0]⟩, -- SCH_LAST: ISLAND, PATCH, STATION, VALID
  ⟨0x078, 0, 1, [ro 0 64 0]⟩, -- SCH_LAST_CYCLE: CYCLE
  ⟨0x080, 0, 1, [ro 0 32 0]⟩, -- SCH_DISPATCHED: COUNT
  ⟨0x084, 0, 1, [ro 0 32 0]⟩, -- SCH_PLUME_HOLDS: COUNT
  ⟨0x088, 0, 1, [ro 0 32 0]⟩, -- SCH_CARRIAGE_HOLDS: COUNT
  ⟨0x100, 0, 1, [rw 0 11 (.commit 0) 256 [(1, 1024)]]⟩, -- SCH_SCAN_DEPTH: DEPTH
  ⟨0x104, 0, 1, [ro 0 32 0]⟩, -- SCH_FAIL_MASK: COUNT
  ⟨0x108, 0, 1, [ro 0 32 0]⟩, -- SCH_FAIL_LADLE: COUNT
  ⟨0x10C, 0, 1, [ro 0 32 0]⟩, -- SCH_FAIL_HEAT: COUNT
  ⟨0x110, 0, 1, [ro 0 32 0]⟩, -- SCH_FAIL_PLUME: COUNT
  ⟨0x114, 0, 1, [ro 0 32 0]⟩, -- SCH_FAIL_BAND: COUNT
  ⟨0x118, 0, 1, [ro 0 32 0]⟩, -- SCH_FAIL_STITCH: COUNT
  ⟨0x11C, 0, 1, [ro 0 32 0]⟩] -- SCH_PROMOTIONS: COUNT

/-- The registers of a LDL page besides the header of R34. -/
def ldlRegs : List Reg := [
  ⟨0x040, 0, 1, [rw 0 24 (.commit 0) 0 []]⟩, -- LDL_BUDGET: POWER
  ⟨0x044, 0, 1, [rw 0 16 (.commit 0) 0 []]⟩, -- LDL_CAPACITY: CAPACITY
  ⟨0x048, 0, 1, [rw 0 16 (.commit 0) 0 [], rw 16 16 (.commit 0) 0 []]⟩, -- LDL_LEVELS: LOW, HIGH
  ⟨0x04C, 0, 1, [rw 0 16 (.commit 2) 8000 []]⟩, -- LDL_HEAD: EMITTER_MW
  ⟨0x060, 0, 1, [ro 0 32 0]⟩, -- LDL_LEVEL: LEVEL
  ⟨0x064, 0, 1, [ro 0 32 0]⟩, -- LDL_HELD: POWER
  ⟨0x068, 0, 1, [ro 0 32 0]⟩, -- LDL_FREE: POWER
  ⟨0x06C, 0, 1, [ro 0 32 0]⟩, -- LDL_DRAW: POWER
  ⟨0x070, 0, 1, [ro 0 32 0]⟩, -- LDL_SHORT_CYCLES: COUNT
  ⟨0x074, 0, 1, [ro 0 32 0]⟩, -- LDL_DEFICIT: ENERGY
  ⟨0x078, 0, 1, [ro 0 3 0]⟩, -- LDL_PASS: PASS
  ⟨0x07C, 0, 1, [ro 0 32 0]⟩, -- LDL_PASS_NEED: NEED
  ⟨0x100, 4, 32, [rw 0 10 (.commit 1) 250 [(1, 1000)], rw 16 16 (.commit 1) 300 []]⟩] -- LDL_EFFs: EFF, IDLE

/-- The registers of a TMP page besides the header of R34. -/
def tmpRegs : List Reg := [
  ⟨0x040, 0, 1, [rw 0 24 (.commit 0) 16750394 [(1, 16777215)]]⟩, -- TMP_DECAY: FACTOR
  ⟨0x044, 0, 1, [rw 0 16 (.commit 1) 1000 [], rw 16 16 (.commit 1) 1000 []]⟩, -- TMP_READY01: CLASS0, CLASS1
  ⟨0x048, 0, 1, [rw 0 16 (.commit 1) 1000 [], rw 16 16 (.commit 1) 1000 []]⟩, -- TMP_READY23: CLASS2, CLASS3
  ⟨0x04C, 0, 1, [rw 0 16 (.commit 1) 1000 [], rw 16 16 (.commit 1) 1000 []]⟩, -- TMP_READY45: CLASS4, CLASS5
  ⟨0x050, 0, 1, [rw 0 16 (.commit 1) 1000 [], rw 16 16 (.commit 1) 1000 []]⟩, -- TMP_READY67: CLASS6, CLASS7
  ⟨0x054, 0, 1, [rw 0 16 (.commit 2) 4000 []]⟩, -- TMP_HEAD: OPT_MW
  ⟨0x058, 0, 1, [wo 0 1 .locked 0 []]⟩, -- TMP_CLEAR: CLEAR
  ⟨0x060, 0, 1, [ro 0 16 0]⟩, -- TMP_NOW: NOW
  ⟨0x064, 0, 1, [ro 0 18 0]⟩, -- TMP_SWEEP: INDEX
  ⟨0x068, 0, 1, [rw 0 9 .live 0 [], rw 16 9 .live 0 []]⟩, -- TMP_PEEK: COL, ROW
  ⟨0x06C, 0, 1, [ro 0 16 0]⟩, -- TMP_PEEK_VALUE: ENERGY
  ⟨0x070, 0, 1, [ro 0 32 0]⟩] -- TMP_SATURATIONS: COUNT

/-- The registers of a STN page besides the header of R34. -/
def stnRegs : List Reg := [
  ⟨0x040, 0, 1, [rw 0 3 (.commit 0) 1 [(0, 3)], rw 8 1 (.commit 0) 1 []]⟩, -- STN_MOTION: PRESET, ENTRY
  ⟨0x044, 0, 1, [rw 0 1 (.commit 1) 0 []]⟩, -- STN_GATE: PASSED_MODE
  ⟨0x048, 0, 1, [rw 0 1 (.commit 2) 0 [], rw 1 1 (.commit 2) 1 []]⟩, -- STN_LOOP: ENABLE, STALE_ACTION
  ⟨0x04C, 0, 1, [ro 0 1 0]⟩, -- STN_FCT: BANK
  ⟨0x050, 0, 1, [rw 0 1 (.commit 4) 0 [], rw 1 1 (.commit 4) 0 [], rw 2 2 (.commit 4) 0 [(0, 2)], rw 4 1 (.commit 4) 0 []]⟩, -- STN_SPOT_CMP: ARM, AXIS, DIR, FIRE_IF_PASSED
  ⟨0x054, 0, 1, [rw 0 32 (.commit 4) 0 []]⟩, -- STN_SPOT_CMP_POS: POSITION
  ⟨0x060, 0, 1, [ro 0 16 0, ro 16 1 0, ro 31 1 0]⟩, -- STN_ISLAND: ISLAND, PATCH, VALID
  ⟨0x064, 0, 1, [ro 0 32 0]⟩, -- STN_POUR_BASE: FIRST_POUR
  ⟨0x068, 0, 1, [ro 0 12 0, ro 12 4 0, ro 31 1 0]⟩, -- STN_POUR: POUR, MOTION, GATE
  ⟨0x06C, 0, 1, [ro 0 9 0]⟩, -- STN_PREFETCH: COUNT
  ⟨0x070, 0, 1, [ro 0 32 0]⟩, -- STN_SPOT_X: X
  ⟨0x074, 0, 1, [ro 0 32 0]⟩, -- STN_SPOT_Y: Y
  ⟨0x078, 0, 1, [ro 0 32 0]⟩, -- STN_SPEED: SPEED
  ⟨0x07C, 0, 1, [ro 0 16 16384, ro 16 16 16384]⟩, -- STN_K: K, K_CAM
  ⟨0x080, 0, 1, [ro 0 16 0]⟩, -- STN_POWER_CMD: POWER
  ⟨0x084, 0, 1, [ro 0 32 0]⟩, -- STN_GATE_PASSED: COUNT
  ⟨0x088, 0, 1, [ro 0 32 0]⟩, -- STN_SHORT_POURS: COUNT
  ⟨0x08C, 0, 1, [ro 0 32 0]⟩, -- STN_LATERAL_GATES: COUNT
  ⟨0x100, 0, 1, [rw 0 16 (.commit 0) 20000 [(1, 20000)]]⟩, -- STN_JUMP_V: V_JUMP
  ⟨0x104, 0, 1, [rw 0 16 (.commit 0) 20000 [(1, 65535)], rw 16 16 (.commit 0) 50000 [(1, 65535)]]⟩, -- STN_JUMP_AJ: A_JUMP, J_JUMP
  ⟨0x108, 0, 1, [rw 0 16 (.commit 0) 10000 [(1, 65535)], rw 16 16 (.commit 0) 25000 [(1, 65535)]]⟩, -- STN_MARK_AJ: A_MARK, J_MARK
  ⟨0x10C, 0, 1, [rw 0 16 (.commit 0) 2000 []]⟩, -- STN_CORNER: TOL
  ⟨0x110, 0, 1, [rw 0 16 (.commit 0) 2000 [], rw 16 8 (.commit 0) 4 [(1, 255)]]⟩, -- STN_SETTLE: ERR, CYCLES
  ⟨0x114, 0, 1, [rw 0 16 (.commit 1) 5000 [], rw 16 16 (.commit 1) 2000 []]⟩, -- STN_TRACK: LATERAL, PASS_TOL
  ⟨0x118, 0, 1, [rw 0 16 (.commit 1) 18022 [(16384, 32767)]]⟩, -- STN_SPEED_LIM: RATIO_MAX
  ⟨0x11C, 0, 1, [rw 0 32 (.commit 0) 65536 []]⟩, -- STN_FOCUS: GAIN
  ⟨0x120, 0, 1, [rw 0 16 (.commit 0) 2000 [(1, 65535)], rw 16 16 (.commit 0) 5000 [(1, 65535)]]⟩, -- STN_FOCUS_LIM: V, A
  ⟨0x124, 0, 1, [rw 0 8 (.commit 2) 4 [(1, 255)]]⟩, -- STN_LOOP_STALE: FRAMES
  ⟨0x140, 16, 8, [rw 0 2 (.commit 2) 0 [(0, 2)], rw 16 16 (.commit 2) 2000 [(1, 65535)]]⟩, -- STN_PROFILEp: SOURCE, SETPOINT
  ⟨0x144, 16, 8, [rw 0 16 (.commit 2) 0 [], rw 16 16 (.commit 2) 0 []]⟩, -- STN_PROFILEp_GAIN: KI, KPD
  ⟨0x148, 16, 8, [rw 0 16 (.commit 2) 16384 [], rw 16 16 (.commit 2) 16384 []]⟩, -- STN_PROFILEp_LIM: K_MIN, K_MAX
  ⟨0x14C, 16, 8, [rw 0 16 (.commit 2) 16384 [], rw 16 16 (.commit 2) 1 [(1, 65535)]]⟩] -- STN_PROFILEp_INIT: K_INIT, PD_SET

/-- The registers of a SRV page besides the header of R34. -/
def srvRegs : List Reg := [
  ⟨0x040, 0, 1, [wo 0 16 .live 0 [], wo 16 16 .live 0 []]⟩, -- SRV_TRACE_CMD: ARM, FIRE
  ⟨0x044, 0, 1, [ro 0 16 0, ro 16 16 0]⟩, -- SRV_TRACE_STAT: ARMED, FIRED
  ⟨0x048, 0, 1, [ro 0 32 0]⟩, -- SRV_TRACE_LOST: COUNT
  ⟨0x04C, 0, 1, [ro 0 32 0]⟩, -- SRV_HOLDS: COUNT
  ⟨0x050, 0, 1, [ro 0 32 0]⟩, -- SRV_HOLD_MASK0: MASK
  ⟨0x054, 0, 1, [ro 0 32 0]⟩, -- SRV_HOLD_MASK1: MASK
  ⟨0x058, 0, 1, [ro 0 32 0]⟩, -- SRV_HOLD_MASK2: MASK
  ⟨0x05C, 0, 1, [ro 0 32 0]⟩, -- SRV_FAULT_MASK0: MASK
  ⟨0x060, 0, 1, [ro 0 32 0]⟩, -- SRV_FAULT_MASK1: MASK
  ⟨0x064, 0, 1, [ro 0 32 0]⟩, -- SRV_FAULT_MASK2: MASK
  ⟨0x100, 16, 16, [rw 0 16 (.commit 0) 0 [], rw 16 1 (.commit 0) 0 []]⟩, -- SRV_TRACEc_SRC: SIGNAL, MODE
  ⟨0x104, 16, 16, [rw 0 16 (.commit 0) 1 [(1, 65535)], rw 16 12 (.commit 0) 0 []]⟩, -- SRV_TRACEc_TIME: DECIM, PRE
  ⟨0x108, 16, 16, [rw 0 3 (.commit 0) 0 [(0, 4)], rw 4 4 (.commit 0) 0 [], rw 8 16 (.commit 0) 0 []]⟩, -- SRV_TRACEc_TRIG: TRIG_MODE, LINK, TRIG_SIGNAL
  ⟨0x10C, 16, 16, [rw 0 32 (.commit 0) 0 []]⟩] -- SRV_TRACEc_LEVEL: LEVEL

/-- The registers of a AXS page besides the header of R34. -/
def axsRegs : List Reg := [
  ⟨0x040, 0, 1, [rw 0 3 (.commit 0) 0 [], rw 3 1 (.commit 0) 0 []]⟩, -- AXS_BANK: FORCE_BANK, FORCE
  ⟨0x044, 0, 1, [rw 0 16 (.commit 0) 0 [], rw 16 8 (.commit 0) 1 [(1, 255)], rw 24 8 (.commit 0) 0 []]⟩, -- AXS_FAULT_LIM: FERR_LIMIT, FERR_CYCLES, SAT_CYCLES
  ⟨0x048, 0, 1, [ro 0 3 0, ro 3 4 0, ro 8 2 0, ro 12 4 0]⟩, -- AXS_STATUS: BANK, REGION, HOLD_RUN, FAULT_CAUSE
  ⟨0x04C, 0, 1, [ro 0 16 0]⟩, -- AXS_OUT: I_CMD
  ⟨0x050, 0, 1, [ro 0 32 0]⟩, -- AXS_POS_ERR: ERR
  ⟨0x054, 0, 1, [ro 0 32 0]⟩, -- AXS_HOLDS: COUNT
  ⟨0x058, 0, 1, [ro 0 32 0]⟩, -- AXS_BANK_SWITCHES: COUNT
  ⟨0x05C, 0, 1, [ro 0 8 0, ro 8 8 0, ro 16 4 0, ro 24 8 0]⟩, -- AXS_ADMIT: PRE_USED, POST_USED, RESULT, INSTR
  ⟨0x060, 0, 1, [ro 0 32 0]⟩, -- AXS_LOAD: PROG_ID
  ⟨0x100, 0, 1, [rw 0 32 (.commit 1) 0 []]⟩, -- AXS_REGION_PC: P_CENTER
  ⟨0x104, 0, 1, [rw 0 32 (.commit 1) 2147483647 []]⟩, -- AXS_REGION_PE: P_EDGE
  ⟨0x108, 0, 1, [rw 0 32 (.commit 1) 0 []]⟩, -- AXS_REGION_PH: P_HYST
  ⟨0x10C, 0, 1, [rw 0 16 (.commit 1) 65535 [], rw 16 16 (.commit 1) 65535 []]⟩, -- AXS_REGION_V12: V1, V2
  ⟨0x110, 0, 1, [rw 0 16 (.commit 1) 65535 [], rw 16 16 (.commit 1) 0 []]⟩, -- AXS_REGION_V3: V3, V_HYST
  ⟨0x114, 0, 1, [rw 0 16 (.commit 1) 32767 [], rw 16 16 (.commit 1) 0 []]⟩, -- AXS_REGION_T: T_EDGE, T_HYST
  ⟨0x118, 0, 1, [zeros 2290649224 (rw 0 32 (.commit 1) 0 [])]⟩, -- AXS_REGION_MAP0: MAP
  ⟨0x11C, 0, 1, [zeros 2290649224 (rw 0 32 (.commit 1) 0 [])]⟩, -- AXS_REGION_MAP1: MAP
  ⟨0x120, 0, 1, [rw 0 32 (.heat 3) 0 []]⟩, -- AXS_COMP_FRIC: FRIC_ORIGIN
  ⟨0x124, 0, 1, [rw 0 32 (.heat 3) 0 []]⟩, -- AXS_COMP_COG: COG_ORIGIN
  ⟨0x128, 0, 1, [rw 0 5 (.heat 3) 0 [(0, 24)], rw 8 5 (.heat 3) 0 [(0, 24)]]⟩] -- AXS_COMP_SHIFT: FRIC_SHIFT, COG_SHIFT

/-- The registers of a FBK page besides the header of R34. -/
def fbkRegs : List Reg := [
  ⟨0x040, 0, 1, [rw 0 16 (.commit 0) 64 []]⟩, -- FBK_PEER_TOL: TOL
  ⟨0x060, 4, 4, [ro 0 32 0]⟩, -- FBK_FAULT_MASKi: MASK
  ⟨0x070, 4, 4, [ro 0 32 0]⟩] -- FBK_HOMED_MASKi: MASK

/-- The registers of a FCH page besides the header of R34. -/
def fchRegs : List Reg := [
  ⟨0x040, 0, 1, [rw 0 4 (.commit 0) 4 [(1, 15)], rw 8 4 (.commit 0) 2 []]⟩, -- FCH_CFG: AMP_N, DIR_HYST
  ⟨0x044, 0, 1, [rw 0 16 (.commit 0) 400 [(1, 65535)], rw 16 12 (.commit 0) 256 [(1, 4095)]]⟩, -- FCH_SPEED: TIMEOUT, L0_WINDOW
  ⟨0x048, 0, 1, [rw 0 16 (.commit 0) 1800 []]⟩, -- FCH_OVERSPEED: LIMIT
  ⟨0x04C, 0, 1, [rw 0 20 (.commit 1) 0 [], rw 20 1 (.commit 1) 0 []]⟩, -- FCH_HOME: HOME_LINE, ARM
  ⟨0x060, 0, 1, [ro 0 32 0]⟩, -- FCH_POS: POS
  ⟨0x064, 0, 1, [ro 0 32 0]⟩, -- FCH_V1: V1
  ⟨0x068, 0, 1, [ro 0 32 0]⟩, -- FCH_V0: V0
  ⟨0x06C, 0, 1, [ro 0 1 0, ro 1 2 2, ro 3 1 0, ro 4 1 0, ro 8 4 0, ro 12 4 0]⟩, -- FCH_STATUS: DIR, LEVEL1, HOMED, STALE, FAULT_CAUSE, AMP_RUN
  ⟨0x070, 0, 1, [ro 0 32 0]⟩, -- FCH_INDEX_POS: POS
  ⟨0x074, 0, 1, [ro 0 16 0]⟩, -- FCH_AMP: M
  ⟨0x078, 0, 1, [ro 0 32 0]⟩, -- FCH_LATE: COUNT
  ⟨0x07C, 0, 1, [ro 0 32 0]⟩, -- FCH_AMP_VIOL: COUNT
  ⟨0x100, 0, 1, [rw 0 16 (.commit 2) 0 [], rw 16 16 (.commit 2) 0 []]⟩, -- FCH_CORR_OFFSET: SIN_OFFSET, COS_OFFSET
  ⟨0x104, 0, 1, [rw 0 16 (.commit 2) 16384 [(1, 65535)]]⟩, -- FCH_CORR_GAIN: COS_GAIN
  ⟨0x108, 0, 1, [rw 0 16 (.commit 2) 16384 [(1, 32767)]]⟩, -- FCH_AMP_NOM: NOMINAL
  ⟨0x10C, 0, 1, [rw 0 16 (.commit 2) 5898 [], rw 16 16 (.commit 2) 27689 []]⟩] -- FCH_AMP_WIN: LOW, HIGH

/-- The registers of a EMU page besides the header of R34. -/
def emuRegs : List Reg := [
  ⟨0x040, 0, 1, [rw 0 7 (.commit 0) 0 [(0, 103)], rw 8 1 (.commit 0) 0 []]⟩, -- EMU_SRC: CHANNEL, INVERT
  ⟨0x044, 0, 1, [rw 0 16 (.commit 0) 1 [(1, 65535)], rw 16 16 (.commit 0) 1 [(1, 65535)]]⟩, -- EMU_RATIO: NUM, DEN
  ⟨0x060, 0, 1, [ro 0 32 0]⟩, -- EMU_BACKLOG: EDGES
  ⟨0x064, 0, 1, [ro 0 32 0]⟩] -- EMU_EDGES: COUNT

/-- The registers of a IMG page besides the header of R34. -/
def imgRegs : List Reg := [
  ⟨0x040, 4, 2, [rw 0 2 (.heat 1) 2 [(0, 2)], rw 4 4 (.heat 1) 0 [], rw 8 8 (.heat 1) 228 [], rw 16 1 (.heat 1) 0 [], rw 24 8 (.heat 1) 20 [(1, 255)]]⟩, -- IMG_PORTp: LANES, LANE_POL, LANE_MAP, CLK_POL, HS_SETTLE
  ⟨0x060, 16, 2, [ro 0 1 0, ro 1 1 0]⟩, -- IMG_PORTp_STAT: CLK_ACTIVE, SYNC
  ⟨0x064, 16, 2, [ro 0 32 0]⟩, -- IMG_PORTp_ECC_CORR: COUNT
  ⟨0x068, 16, 2, [ro 0 32 0]⟩, -- IMG_PORTp_HDR_ERR: COUNT
  ⟨0x06C, 16, 2, [ro 0 32 0]⟩, -- IMG_PORTp_CRC_ERR: COUNT
  ⟨0x080, 4, 2, [ro 0 32 0]⟩] -- IMG_PORTp_DISCARD: COUNT

/-- The registers of a IPL page besides the header of R34. -/
def iplRegs : List Reg := [
  ⟨0x060, 0, 1, [ro 0 12 0]⟩, -- IPL_CLOCKS: BUSY
  ⟨0x064, 0, 1, [ro 0 12 0]⟩, -- IPL_PEAK: BUSY
  ⟨0x068, 0, 1, [ro 0 32 0]⟩] -- IPL_OVW_WAITS: COUNT

/-- The registers of a CTX page besides the header of R34. -/
def ctxRegs : List Reg := [
  ⟨0x040, 0, 1, [rw 0 1 .live 0 [], wo 1 1 .live 0 []]⟩, -- CTX_RUN: TEST, RECOVER
  ⟨0x044, 0, 1, [rw 0 13 (.commit 0) 3750 [(1, 6250)], rw 16 3 (.heat 2) 0 []]⟩, -- CTX_EXPOSE: EXPOSE_TICKS, FRAME_PHASE
  ⟨0x048, 0, 1, [rw 0 16 (.commit 0) 0 [], rw 16 16 (.commit 0) 0 []]⟩, -- CTX_BLACK01: BLACK0, BLACK1
  ⟨0x04C, 0, 1, [rw 0 16 (.commit 0) 0 []]⟩, -- CTX_BLACK2: BLACK2
  ⟨0x050, 0, 1, [rw 0 16 (.commit 0) 1800 [], rw 16 8 (.commit 0) 2 [(1, 255)]]⟩, -- CTX_STATS_CFG: T_THRESH, SPATTER_MIN
  ⟨0x054, 0, 1, [rw 0 3 (.commit 0) 1 [(0, 1), (3, 4), (6, 6)], rw 4 2 (.commit 0) 1 [], rw 8 1 (.commit 0) 1 [], rw 16 8 (.commit 0) 1 [(1, 255)]]⟩, -- CTX_ARCHIVE: TAP, RATIO, RECORDS, EVERY
  ⟨0x058, 0, 1, [rw 0 11 (.heat 2) 80 [], rw 16 11 (.heat 2) 80 []]⟩, -- CTX_GEOM: WIDTH, HEIGHT
  ⟨0x05C, 0, 1, [rw 0 2 (.heat 2) 0 [], rw 4 2 (.heat 2) 2 [(0, 2)], rw 8 2 (.heat 2) 0 [], rw 10 1 (.heat 2) 0 []]⟩, -- CTX_FORMAT: CFA, DATA_TYPE, ROT, FLIP
  ⟨0x060, 0, 1, [ro 0 16 0, ro 16 8 0, ro 24 7 0, ro 31 1 0]⟩, -- CTX_LAST: FRAME, FLAGS, ROWS, VALID
  ⟨0x064, 0, 1, [ro 0 16 0, ro 16 8 0, ro 24 8 0]⟩, -- CTX_STAT_AREA: AREA, LENGTH, SPATTER
  ⟨0x068, 0, 1, [ro 0 16 0, ro 16 16 0]⟩, -- CTX_STAT_TEMP: MEAN, PEAK
  ⟨0x06C, 0, 1, [ro 0 16 0, ro 16 16 0]⟩, -- CTX_STAT_CENTROID: CX, CY
  ⟨0x070, 0, 1, [ro 0 32 0]⟩, -- CTX_FRAMES: COUNT
  ⟨0x074, 0, 1, [ro 0 32 0]⟩, -- CTX_BAD_FRAMES: COUNT
  ⟨0x078, 0, 1, [ro 0 32 0]⟩, -- CTX_ARCHIVE_DROPS: COUNT
  ⟨0x07C, 0, 1, [ro 0 32 0]⟩, -- CTX_BAD_BLOCKS: COUNT
  ⟨0x100, 0, 1, [rw 0 16 (.commit 0) 4096 [], rw 16 16 (.commit 0) 0 []]⟩, -- CTX_MATRIX0: M(2i), M(2i+1)
  ⟨0x104, 0, 1, [rw 0 16 (.commit 0) 0 [], rw 16 16 (.commit 0) 0 []]⟩, -- CTX_MATRIX1: M(2i), M(2i+1)
  ⟨0x108, 0, 1, [rw 0 16 (.commit 0) 4096 [], rw 16 16 (.commit 0) 0 []]⟩, -- CTX_MATRIX2: M(2i), M(2i+1)
  ⟨0x10C, 0, 1, [rw 0 16 (.commit 0) 0 [], rw 16 16 (.commit 0) 0 []]⟩, -- CTX_MATRIX3: M(2i), M(2i+1)
  ⟨0x110, 0, 1, [rw 0 16 (.commit 0) 4096 []]⟩, -- CTX_MATRIX4: M8
  ⟨0x114, 0, 1, [rw 0 16 (.commit 0) 4096 [], rw 16 16 (.commit 0) 4096 []]⟩, -- CTX_WB01: G0, G1
  ⟨0x118, 0, 1, [rw 0 16 (.commit 0) 4096 []]⟩, -- CTX_WB2: G2
  ⟨0x11C, 0, 1, [rw 0 4 (.commit 0) 9 [], rw 16 16 (.commit 0) 64 []]⟩, -- CTX_RATIO: RATIO_SHIFT, SIGNAL_MIN
  ⟨0x120, 0, 1, [rw 0 1 (.commit 0) 0 []]⟩] -- CTX_DEFECT: ENABLE

/-- The registers of a LHD page besides the header of R34. -/
def lhdRegs : List Reg := [
  ⟨0x040, 0, 1, [rw 0 16 (.heat 0) 64 [(1, 65535)], rw 16 1 (.heat 0) 0 [], rw 17 1 (.heat 0) 0 [], rw 18 3 (.heat 0) 0 [], rw 21 1 (.heat 0) 0 []]⟩, -- LHD_PACE: STEPS_PER_LINE, AXIS, ENC_EN, ENC_LOCAL, ACTION
  ⟨0x044, 0, 1, [rw 0 32 (.heat 0) 50000 []]⟩, -- LHD_PACE_TOL: TOL
  ⟨0x048, 0, 1, [rw 0 32 (.heat 0) 65536 []]⟩, -- LHD_ENC_SCALE: SCALE
  ⟨0x04C, 0, 1, [rw 0 32 (.heat 0) 0 []]⟩, -- LHD_ENC_ORIGIN: ORIGIN
  ⟨0x050, 0, 1, [rw 0 1 (.heat 4) 1 [], rw 8 3 (.heat 4) 0 [], rw 16 16 (.heat 4) 1000 [(1, 4000)]]⟩, -- LHD_PATCH: AUTO, PROFILE, SPEED
  ⟨0x054, 0, 1, [rw 0 16 (.heat 4) 6400 [], rw 16 16 (.heat 4) 256 [(1, 65535)]]⟩, -- LHD_PATCH_POWER: POWER_MAX, EQ
  ⟨0x058, 0, 1, [rw 0 9 (.heat 4) 64 [(16, 256)], rw 16 16 (.heat 4) 2500 [(1, 65535)]]⟩, -- LHD_PATCH_LIM: LINES, MIN_TICKS
  ⟨0x05C, 0, 1, [rw 0 1 (.heat 3) 1 [], wo 1 1 (.heat 3) 0 []]⟩, -- LHD_TEST: AUTO, FORGET
  ⟨0x060, 0, 1, [ro 0 16 0, ro 16 16 0]⟩, -- LHD_LINE: NEXT_LINE, STROBE
  ⟨0x064, 0, 1, [ro 0 32 0]⟩, -- LHD_LATE_LINES: COUNT
  ⟨0x068, 0, 1, [ro 0 32 0]⟩, -- LHD_GAP_DOTS: COUNT
  ⟨0x06C, 0, 1, [ro 0 32 0]⟩, -- LHD_UNPATCHED_LINES: COUNT
  ⟨0x070, 0, 1, [ro 0 32 0]⟩, -- LHD_UNPATCHED_DOTS: COUNT
  ⟨0x074, 0, 1, [ro 0 32 0]⟩, -- LHD_PACE_DEVS: COUNT
  ⟨0x078, 0, 1, [ro 0 32 0]⟩, -- LHD_LATE_UPLINKS: COUNT
  ⟨0x07C, 0, 1, [ro 0 14 0]⟩, -- LHD_DEAD: COLUMNS
  ⟨0x080, 0, 1, [ro 0 11 0, ro 16 1 0]⟩, -- LHD_TEST_STAT: MEASURED, COMPLETE
  ⟨0x100, 0, 1, [rw 0 16 (.commit 1) 24000 [(1, 65535)], rw 16 16 (.commit 1) 21600 [(1, 65535)]]⟩, -- LHD_SUPPLY: V_NOM, V_MIN
  ⟨0x104, 0, 1, [rw 0 16 (.commit 1) 550 [], rw 16 16 (.commit 1) 20 []]⟩, -- LHD_DERATE: DERATE_T, DERATE_HYST
  ⟨0x108, 0, 1, [rw 0 17 (.commit 1) 57344 [(1, 65536)]]⟩, -- LHD_DERATE_FACTOR: FACTOR
  ⟨0x10C, 0, 1, [rw 0 16 (.commit 2) 600 [], rw 16 16 (.commit 2) 570 []]⟩, -- LHD_CUT: CUT_T, RESUME_T
  ⟨0x110, 0, 1, [rw 0 16 (.commit 1) 1250 []]⟩, -- LHD_GUARD: GUARD
  ⟨0x114, 0, 1, [rw 0 16 (.heat 3) 100 [], rw 16 16 (.heat 3) 600 []]⟩] -- LHD_TEST_WIN: R_MIN, R_MAX

/-- The registers of a SEG page besides the header of R34. -/
def segRegs : List Reg := [
  ⟨0x040, 0, 1, [rw 0 16 (.commit 0) 450 [], rw 16 16 (.commit 0) 0 []]⟩, -- SEG_THERM: T_NOM, K_T
  ⟨0x044, 0, 1, [rw 0 16 (.heat 1) 12000 []]⟩, -- SEG_KNEE: V_KNEE
  ⟨0x060, 0, 1, [ro 0 16 0, ro 16 16 0]⟩, -- SEG_TEMP: TEMP, V
  ⟨0x064, 0, 1, [ro 0 32 65536]⟩, -- SEG_FACTOR: FACTOR
  ⟨0x068, 0, 1, [ro 0 32 0]⟩, -- SEG_CUTS: COUNT
  ⟨0x06C, 0, 1, [ro 0 32 0]⟩, -- SEG_GAP_DOTS: COUNT
  ⟨0x070, 0, 1, [ro 0 18 0]⟩, -- SEG_LAST_CUT: OFFSET
  ⟨0x074, 0, 1, [ro 0 16 0]⟩, -- SEG_LAST_CUT_STROBE: STROBE
  ⟨0x100, 0, 1, [rw 0 8 .live 0 [(1, 255)]]⟩, -- SEG_BASE_SEL: CODE
  ⟨0x104, 0, 1, [ro 0 18 0]⟩] -- SEG_BASE_VALUE: WIDTH

/-- The registers of a STP page besides the header of R34. -/
def stpRegs : List Reg := [
  ⟨0x040, 0, 1, [wo 0 12 .live 0 [(1, 4095)], wo 12 2 .live 0 [(0, 2)]]⟩, -- STP_MOVE: MASK, KIND
  ⟨0x044, 0, 1, [ro 0 4 0, ro 16 12 0]⟩, -- STP_MOVE_RESULT: RESULT, MASK
  ⟨0x048, 0, 1, [rw 0 32 (.heat 0) 0 []]⟩, -- STP_PLATFORM_SET: Z
  ⟨0x060, 0, 1, [ro 0 32 0]⟩, -- STP_PLATFORM_Z: Z
  ⟨0x064, 0, 1, [ro 0 32 0]⟩, -- STP_CARRIAGE_Y: Y
  ⟨0x068, 0, 1, [ro 0 12 0]⟩] -- STP_MOVING: MASK

/-- The registers of a SAX page besides the header of R34. -/
def saxRegs : List Reg := [
  ⟨0x040, 0, 1, [rw 0 32 .live 0 []]⟩, -- SAX_TARGET: TARGET
  ⟨0x044, 0, 1, [rw 0 20 .live 1000 [(1, 500000)], rw 31 1 .live 0 []]⟩, -- SAX_SPEED: SPEED, VDIR
  ⟨0x048, 0, 1, [rw 0 32 (.commit 0) 2147483648 []]⟩, -- SAX_LIMIT_LO: LO
  ⟨0x04C, 0, 1, [rw 0 32 (.commit 0) 2147483647 []]⟩, -- SAX_LIMIT_HI: HI
  ⟨0x050, 0, 1, [rw 0 32 .live 0 []]⟩, -- SAX_CMP_POS: POSITION
  ⟨0x054, 0, 1, [rw 0 1 .live 0 [], rw 1 2 .live 0 [(0, 2)], rw 3 1 .live 0 []]⟩, -- SAX_CMP: ARM, DIR, FIRE_IF_PASSED
  ⟨0x058, 0, 1, [rw 0 2 (.commit 1) 2 [(0, 2)]]⟩, -- SAX_PROFILE: PRESET
  ⟨0x060, 0, 1, [ro 0 32 0]⟩, -- SAX_POS: POS
  ⟨0x064, 0, 1, [ro 0 32 0]⟩, -- SAX_VEL: VEL
  ⟨0x068, 0, 1, [ro 0 32 0]⟩, -- SAX_CMP_TICK: TICK
  ⟨0x100, 0, 1, [rw 0 16 (.commit 1) 1000 [(1, 65535)], rw 16 1 (.commit 1) 0 []]⟩, -- SAX_VSTART: V_START, SCURVE
  ⟨0x104, 0, 1, [rw 0 24 (.commit 1) 200000 [(1, 16777215)]]⟩, -- SAX_ACC: ACC
  ⟨0x108, 0, 1, [rw 0 24 (.commit 1) 200000 [(1, 16777215)]]⟩, -- SAX_DEC: DEC
  ⟨0x10C, 0, 1, [rw 0 32 (.commit 1) 10000000 [(1, 4294967295)]]⟩, -- SAX_JERK: JERK
  ⟨0x110, 0, 1, [rw 0 24 (.commit 1) 1000000 [(1, 16777215)]]⟩, -- SAX_ABORT_DEC: ABORT_DEC
  ⟨0x114, 0, 1, [rw 0 32 (.heat 2) 65536 [(1, 4294967295)]]⟩, -- SAX_SCALE: NM_PER_STEP
  ⟨0x118, 0, 1, [rw 0 32 (.heat 2) 0 []]⟩, -- SAX_ORIGIN: ORIGIN
  ⟨0x11C, 0, 1, [rw 0 4 .locked 4 [(0, 8)]]⟩, -- SAX_MICRO: MICRO
  ⟨0x120, 0, 1, [rw 0 11 .locked 200 [(50, 2000)], rw 16 4 .locked 4 [], rw 24 6 .locked 32 [(1, 63)]]⟩, -- SAX_CHOP: T_OFF, FAST_FRAC, DEAD
  ⟨0x124, 0, 1, [rw 0 9 .locked 50 [(10, 300)]]⟩, -- SAX_BLANK: BLANK
  ⟨0x128, 0, 1, [rw 0 10 (.commit 3) 0 [], rw 16 10 (.commit 3) 0 []]⟩, -- SAX_CURRENT: I_RUN, I_HOLD
  ⟨0x12C, 0, 1, [rw 0 16 (.commit 3) 20000 []]⟩] -- SAX_HOLD_DELAY: CYCLES

/-- The registers of a CAL page besides the header of R34. -/
def calRegs : List Reg := [
  ⟨0x040, 0, 1, [wo 0 1 .live 0 []]⟩, -- CAL_RUN: ABORT
  ⟨0x044, 0, 1, [rw 0 1 (.heat 0) 1 [], rw 16 16 (.heat 0) 20 [(1, 65535)]]⟩, -- CAL_DRIFT: AUTO, DT
  ⟨0x048, 0, 1, [rw 0 12 (.heat 0) 2048 [(16, 4095)], rw 16 8 (.heat 0) 4 [(1, 255)]]⟩, -- CAL_DRIFT_SCAN: SPAN, RATE
  ⟨0x04C, 0, 1, [rw 0 16 (.heat 0) 2000 []]⟩, -- CAL_DRIFT_PD: PD_THRESH
  ⟨0x050, 0, 1, [rw 0 32 (.heat 0) 20000 []]⟩, -- CAL_DRIFT_MAX: MAX
  ⟨0x060, 0, 1, [ro 0 32 0]⟩, -- CAL_DUE: MASK
  ⟨0x064, 0, 1, [ro 0 32 0]⟩, -- CAL_DRIFTING: MASK
  ⟨0x068, 0, 1, [ro 0 32 0]⟩, -- CAL_STAGED: MASK
  ⟨0x06C, 0, 1, [ro 0 32 0]⟩, -- CAL_REF_VALID: MASK
  ⟨0x070, 0, 1, [ro 0 32 0]⟩, -- CAL_RUNS: COUNT
  ⟨0x074, 0, 1, [rw 0 5 .live 0 []]⟩, -- CAL_SEL: STATION
  ⟨0x078, 0, 1, [ro 0 32 0]⟩, -- CAL_D_OFFX: OFF
  ⟨0x07C, 0, 1, [ro 0 32 16777216]⟩, -- CAL_D_GAINX: GAIN
  ⟨0x080, 0, 1, [ro 0 32 0]⟩, -- CAL_D_OFFY: OFF
  ⟨0x084, 0, 1, [ro 0 32 16777216]⟩, -- CAL_D_GAINY: GAIN
  ⟨0x088, 0, 1, [ro 0 16 0]⟩, -- CAL_D_TEMP: T_REF
  ⟨0x08C, 0, 1, [ro 0 16 16384, ro 16 16 16384]⟩] -- CAL_PTRIM: ACTIVE, STAGED

/-- The registers of a MLD page besides the header of R34. -/
def mldRegs : List Reg := [
  ⟨0x040, 0, 1, [sl 0 4 .seal 15 [], sl 8 8 .seal 8 [(1, 255)], wo 16 1 .live 0 []]⟩, -- MLD_ILK: MASK, FILTER, REARM
  ⟨0x044, 0, 1, [wo 0 2 .live 0 [(1, 2)], wo 16 12 .live 0 []]⟩, -- MLD_AUTH_CMD: CMD, OFFSET
  ⟨0x048, 0, 1, [rw 0 32 .live 0 []]⟩, -- MLD_AUTH_VALUE: VALUE
  ⟨0x04C, 0, 1, [ro 0 3 0]⟩, -- MLD_AUTH_RESULT: RESULT
  ⟨0x050, 4, 4, [ro 0 32 0]⟩, -- MLD_CHALLENGEi: CHALLENGE
  ⟨0x060, 4, 8, [wo 0 32 .live 0 []]⟩, -- MLD_RESPONSEi: RESPONSE
  ⟨0x080, 0, 1, [wo 0 1 .live 0 []]⟩, -- MLD_SEAL: SEAL
  ⟨0x084, 0, 1, [ro 0 5 0]⟩, -- MLD_PENDING: COUNT
  ⟨0x088, 0, 1, [sl 0 16 .seal 0 [], sl 16 16 .seal 20000 [(1, 65535)]]⟩, -- MLD_CELL: LIMIT, WINDOW
  ⟨0x08C, 0, 1, [sl 0 18 .seal 0 []]⟩, -- MLD_DOT: WIDTH
  ⟨0x090, 0, 1, [ro 0 32 0]⟩, -- MLD_POWER_CLAMPS: COUNT
  ⟨0x094, 0, 1, [ro 0 32 0]⟩, -- MLD_WIDTH_CLAMPS: COUNT
  ⟨0x098, 0, 1, [ro 0 32 0]⟩, -- MLD_DENIALS: COUNT
  ⟨0x100, 4, 8, [wo 0 32 .live 0 []]⟩, -- MLD_KEYi: KEY
  ⟨0x200, 32, 32, [sl 0 16 .seal 0 []]⟩, -- MLD_PWRs: POWER
  ⟨0x204, 32, 32, [sl 0 32 .seal 0 []]⟩, -- MLD_XMINs: X_MIN
  ⟨0x208, 32, 32, [sl 0 32 .seal 0 []]⟩, -- MLD_XMAXs: X_MAX
  ⟨0x20C, 32, 32, [sl 0 32 .seal 0 []]⟩, -- MLD_YMINs: Y_MIN
  ⟨0x210, 32, 32, [sl 0 32 .seal 0 []]⟩, -- MLD_YMAXs: Y_MAX
  ⟨0x214, 32, 32, [sl 0 16 .seal 0 [(0, 20000)]]⟩, -- MLD_VELs: VEL
  ⟨0x600, 4, 12, [sl 0 20 .seal 0 [(0, 500000)]]⟩] -- MLD_STEPx: RATE

/-- The registers of a PAR page besides the header of R34. -/
def parRegs : List Reg := [
  ⟨0x040, 0, 1, [wo 0 1 .live 0 [], wo 1 1 .live 0 [], wo 2 1 .live 0 [], wo 3 1 .live 0 []]⟩, -- PAR_CMD: JOIN, LEAVE, SWAP, CANCEL_SWAP
  ⟨0x044, 0, 1, [rw 0 1 (.commit 0) 1 [], rw 4 4 (.commit 0) 4 [(1, 15)], rw 16 16 (.commit 0) 1000 [(1, 65535)]]⟩, -- PAR_CFG: AUTO_JOIN, REJOIN_LIMIT, REJOIN_DELAY
  ⟨0x048, 0, 1, [ro 0 1 0]⟩, -- PAR_SWAP_STAT: REQUESTED
  ⟨0x060, 0, 1, [ro 0 16 0]⟩, -- PAR_EPOCH: EPOCH
  ⟨0x064, 0, 1, [ro 0 8 0, ro 8 8 0, ro 16 8 0, ro 24 8 0]⟩, -- PAR_SCHEMA: OWN, OWN_MIN, PEER, IN_USE
  ⟨0x068, 0, 1, [ro 0 64 0]⟩, -- PAR_PEER_ID: SERIAL
  ⟨0x070, 0, 1, [ro 0 3 0, ro 8 8 0, ro 16 16 0]⟩, -- PAR_JOIN_STAT: STAGE, REFUSE_CAUSE, ROUND
  ⟨0x074, 0, 1, [ro 0 6 0, ro 8 3 0]⟩, -- PAR_DIVERGE: PARTNER, CAUSE
  ⟨0x078, 0, 1, [ro 0 16 0]⟩, -- PAR_SKEW: SKEW
  ⟨0x07C, 0, 1, [ro 0 32 0]⟩, -- PAR_TAKEOVERS: COUNT
  ⟨0x080, 0, 1, [ro 0 32 0]⟩, -- PAR_DEPARTURES: COUNT
  ⟨0x084, 0, 1, [ro 0 32 0]⟩, -- PAR_NO_ENSIGN: COUNT
  ⟨0x088, 0, 1, [ro 0 32 0]⟩, -- PAR_MISMATCH_MASK0: MASK
  ⟨0x08C, 0, 1, [ro 0 16 0]⟩, -- PAR_MISMATCH_MASK1: MASK
  ⟨0x090, 0, 1, [ro 0 64 0]⟩] -- PAR_LAST_TAKEOVER: CYCLE

/-- The registers of a LNK page besides the header of R34. -/
def lnkRegs : List Reg := [
  ⟨0x040, 0, 1, [rw 0 1 (.commit 0) 1 [], rw 8 8 (.commit 0) 4 [(1, 255)]]⟩, -- LNK_CFG: AUTO_MAP, LOSS_CYCLES
  ⟨0x060, 0, 1, [ro 0 32 0]⟩, -- LNK_UP0: MASK
  ⟨0x064, 0, 1, [ro 0 24 0]⟩, -- LNK_UP1: MASK
  ⟨0x100, 0, 1, [rw 0 6 (.commit 1) 0 [(0, 47), (63, 63)], rw 8 6 (.commit 1) 1 [(0, 47), (63, 63)], rw 16 6 (.commit 1) 2 [(0, 47), (63, 63)], rw 24 6 (.commit 1) 3 [(0, 47), (63, 63)]]⟩, -- LNK_MAP0: LANE
  ⟨0x104, 0, 1, [rw 0 6 (.commit 1) 4 [(0, 47), (63, 63)], rw 8 6 (.commit 1) 5 [(0, 47), (63, 63)], rw 16 6 (.commit 1) 6 [(0, 47), (63, 63)], rw 24 6 (.commit 1) 7 [(0, 47), (63, 63)]]⟩, -- LNK_MAP1: LANE
  ⟨0x108, 0, 1, [rw 0 6 (.commit 1) 8 [(0, 47), (63, 63)], rw 8 6 (.commit 1) 9 [(0, 47), (63, 63)], rw 16 6 (.commit 1) 10 [(0, 47), (63, 63)], rw 24 6 (.commit 1) 11 [(0, 47), (63, 63)]]⟩, -- LNK_MAP2: LANE
  ⟨0x10C, 0, 1, [rw 0 6 (.commit 1) 12 [(0, 47), (63, 63)], rw 8 6 (.commit 1) 13 [(0, 47), (63, 63)], rw 16 6 (.commit 1) 14 [(0, 47), (63, 63)], rw 24 6 (.commit 1) 15 [(0, 47), (63, 63)]]⟩, -- LNK_MAP3: LANE
  ⟨0x110, 0, 1, [rw 0 6 (.commit 1) 16 [(0, 47), (63, 63)], rw 8 6 (.commit 1) 17 [(0, 47), (63, 63)], rw 16 6 (.commit 1) 18 [(0, 47), (63, 63)], rw 24 6 (.commit 1) 19 [(0, 47), (63, 63)]]⟩, -- LNK_MAP4: LANE
  ⟨0x114, 0, 1, [rw 0 6 (.commit 1) 20 [(0, 47), (63, 63)], rw 8 6 (.commit 1) 21 [(0, 47), (63, 63)], rw 16 6 (.commit 1) 22 [(0, 47), (63, 63)], rw 24 6 (.commit 1) 23 [(0, 47), (63, 63)]]⟩, -- LNK_MAP5: LANE
  ⟨0x118, 0, 1, [rw 0 6 (.commit 1) 24 [(0, 47), (63, 63)], rw 8 6 (.commit 1) 25 [(0, 47), (63, 63)], rw 16 6 (.commit 1) 26 [(0, 47), (63, 63)], rw 24 6 (.commit 1) 27 [(0, 47), (63, 63)]]⟩, -- LNK_MAP6: LANE
  ⟨0x11C, 0, 1, [rw 0 6 (.commit 1) 28 [(0, 47), (63, 63)], rw 8 6 (.commit 1) 29 [(0, 47), (63, 63)], rw 16 6 (.commit 1) 30 [(0, 47), (63, 63)], rw 24 6 (.commit 1) 31 [(0, 47), (63, 63)]]⟩, -- LNK_MAP7: LANE
  ⟨0x120, 0, 1, [rw 0 6 (.commit 1) 32 [(0, 47), (63, 63)], rw 8 6 (.commit 1) 33 [(0, 47), (63, 63)], rw 16 6 (.commit 1) 34 [(0, 47), (63, 63)], rw 24 6 (.commit 1) 35 [(0, 47), (63, 63)]]⟩, -- LNK_MAP8: LANE
  ⟨0x124, 0, 1, [rw 0 6 (.commit 1) 36 [(0, 47), (63, 63)], rw 8 6 (.commit 1) 37 [(0, 47), (63, 63)], rw 16 6 (.commit 1) 38 [(0, 47), (63, 63)], rw 24 6 (.commit 1) 39 [(0, 47), (63, 63)]]⟩, -- LNK_MAP9: LANE
  ⟨0x128, 0, 1, [rw 0 6 (.commit 1) 40 [(0, 47), (63, 63)], rw 8 6 (.commit 1) 41 [(0, 47), (63, 63)], rw 16 6 (.commit 1) 42 [(0, 47), (63, 63)], rw 24 6 (.commit 1) 43 [(0, 47), (63, 63)]]⟩, -- LNK_MAP10: LANE
  ⟨0x12C, 0, 1, [rw 0 6 (.commit 1) 44 [(0, 47), (63, 63)], rw 8 6 (.commit 1) 45 [(0, 47), (63, 63)], rw 16 6 (.commit 1) 46 [(0, 47), (63, 63)], rw 24 6 (.commit 1) 47 [(0, 47), (63, 63)]]⟩] -- LNK_MAP11: LANE

/-- The registers of a LAN page besides the header of R34. -/
def lanRegs : List Reg := [
  ⟨0x040, 0, 1, [wo 0 1 .live 0 [], rw 8 8 .live 16 [(1, 255)]]⟩, -- LAN_EYE_CMD: START, DWELL
  ⟨0x044, 0, 1, [rw 0 6 .live 0 [], rw 8 6 .live 0 [(0, 31), (33, 63)]]⟩, -- LAN_EYE_SEL: PHASE, VOLT
  ⟨0x048, 0, 1, [ro 0 32 0]⟩, -- LAN_EYE_ERR: COUNT
  ⟨0x04C, 0, 1, [ro 0 7 0, ro 8 7 0]⟩, -- LAN_EYE_OPEN: WIDTH, HEIGHT
  ⟨0x050, 0, 1, [ro 0 4 0]⟩, -- LAN_ID: CAUSE
  ⟨0x060, 0, 1, [ro 0 16 0]⟩, -- LAN_LATENCY: L
  ⟨0x064, 0, 1, [ro 0 32 0]⟩, -- LAN_SH_ERR: COUNT
  ⟨0x068, 0, 1, [ro 0 32 0]⟩, -- LAN_LOCK_LOSSES: COUNT
  ⟨0x06C, 0, 1, [ro 0 32 0]⟩, -- LAN_BAD_FRAMES: COUNT
  ⟨0x070, 0, 1, [ro 0 32 0]⟩, -- LAN_LATE_FRAMES: COUNT
  ⟨0x074, 0, 1, [ro 0 32 0]⟩, -- LAN_UNKNOWN: COUNT
  ⟨0x100, 0, 1, [rw 0 1 .locked 0 [], rw 4 4 .locked 2 [], rw 8 6 .locked 48 [(16, 63)], rw 16 5 .locked 6 []]⟩] -- LAN_CFG: TX_INV, PRE, MAIN, POST

/-- The registers of a MEM page besides the header of R34. -/
def memRegs : List Reg := [
  ⟨0x040, 0, 1, [rw 0 1 .locked 1 [], rw 1 1 .locked 0 [], rw 2 1 .locked 0 []]⟩, -- MEM_GEOM: SUBCH, RANKS, DENSITY
  ⟨0x044, 0, 1, [rw 0 2 .locked 2 []]⟩, -- MEM_BIN: PRESET
  ⟨0x048, 0, 1, [rw 0 16 (.commit 0) 24 [(1, 65535)], rw 16 1 (.commit 0) 1 []]⟩, -- MEM_SCRUB: PERIOD, ENABLE
  ⟨0x04C, 0, 1, [rw 0 16 (.commit 0) 100 [(1, 65535)]]⟩, -- MEM_RETRAIN: PERIOD
  ⟨0x050, 0, 1, [rw 0 3 .locked 4 [(1, 4)]]⟩, -- MEM_REFRESH: POSTPONE
  ⟨0x060, 0, 1, [ro 0 32 0]⟩, -- MEM_ECC_CORR: COUNT
  ⟨0x064, 0, 1, [ro 0 32 0]⟩, -- MEM_ECC_UNCORR: COUNT
  ⟨0x068, 0, 1, [ro 0 35 0, ro 35 1 0]⟩, -- MEM_ECC_ADDR: ADDR, REPAIRED
  ⟨0x070, 0, 1, [ro 0 32 0]⟩, -- MEM_REFAB: COUNT
  ⟨0x074, 0, 1, [ro 0 4 0]⟩, -- MEM_TRAIN: RESULT
  ⟨0x078, 0, 1, [ro 0 29 0]⟩, -- MEM_SCRUB_POS: LINE
  ⟨0x07C, 0, 1, [ro 0 32 0]⟩, -- MEM_DECODE_ERR: COUNT
  ⟨0x100, 0, 1, [rw 0 16 (.commit 1) 8000 [(1, 65535)], rw 16 16 (.commit 1) 0 []]⟩, -- MEM_PORT0: TARGET, AGE_LIMIT
  ⟨0x110, 0, 1, [rw 0 16 (.commit 1) 4000 [(1, 65535)], rw 16 16 (.commit 1) 0 []]⟩, -- MEM_PORT1: TARGET, AGE_LIMIT
  ⟨0x120, 0, 1, [rw 0 16 (.commit 1) 4000 [(1, 65535)], rw 16 16 (.commit 1) 0 []]⟩, -- MEM_PORT2: TARGET, AGE_LIMIT
  ⟨0x130, 0, 1, [rw 0 16 (.commit 1) 8000 [(1, 65535)], rw 16 16 (.commit 1) 0 []]⟩, -- MEM_PORT3: TARGET, AGE_LIMIT
  ⟨0x140, 0, 1, [rw 0 16 (.commit 1) 20000 [(1, 65535)], rw 16 16 (.commit 1) 500 [(1, 65535)]]⟩, -- MEM_PORT4: TARGET, AGE_LIMIT
  ⟨0x150, 0, 1, [rw 0 16 (.commit 1) 20000 [(1, 65535)], rw 16 16 (.commit 1) 500 [(1, 65535)]]⟩, -- MEM_PORT5: TARGET, AGE_LIMIT
  ⟨0x160, 0, 1, [rw 0 16 (.commit 1) 20000 [(1, 65535)], rw 16 16 (.commit 1) 500 [(1, 65535)]]⟩, -- MEM_PORT6: TARGET, AGE_LIMIT
  ⟨0x170, 0, 1, [rw 0 16 (.commit 1) 50000 [(1, 65535)], rw 16 16 (.commit 1) 1000 [(1, 65535)]]⟩, -- MEM_PORT7: TARGET, AGE_LIMIT
  ⟨0x180, 0, 1, [rw 0 16 (.commit 1) 50000 [(1, 65535)], rw 16 16 (.commit 1) 1000 [(1, 65535)]]⟩, -- MEM_PORT8: TARGET, AGE_LIMIT
  ⟨0x190, 0, 1, [rw 0 16 (.commit 1) 50000 [(1, 65535)], rw 16 16 (.commit 1) 1000 [(1, 65535)]]⟩, -- MEM_PORT9: TARGET, AGE_LIMIT
  ⟨0x104, 0, 1, [rw 0 16 (.commit 1) 0 []]⟩, -- MEM_PORT0_RATE: RATE
  ⟨0x114, 0, 1, [rw 0 16 (.commit 1) 0 []]⟩, -- MEM_PORT1_RATE: RATE
  ⟨0x124, 0, 1, [rw 0 16 (.commit 1) 0 []]⟩, -- MEM_PORT2_RATE: RATE
  ⟨0x134, 0, 1, [rw 0 16 (.commit 1) 0 []]⟩, -- MEM_PORT3_RATE: RATE
  ⟨0x144, 0, 1, [rw 0 16 (.commit 1) 0 []]⟩, -- MEM_PORT4_RATE: RATE
  ⟨0x154, 0, 1, [rw 0 16 (.commit 1) 0 []]⟩, -- MEM_PORT5_RATE: RATE
  ⟨0x164, 0, 1, [rw 0 16 (.commit 1) 128 []]⟩, -- MEM_PORT6_RATE: RATE
  ⟨0x174, 0, 1, [rw 0 16 (.commit 1) 64 []]⟩, -- MEM_PORT7_RATE: RATE
  ⟨0x184, 0, 1, [rw 0 16 (.commit 1) 256 []]⟩, -- MEM_PORT8_RATE: RATE
  ⟨0x194, 0, 1, [rw 0 16 (.commit 1) 16 []]⟩, -- MEM_PORT9_RATE: RATE
  ⟨0x108, 16, 10, [ro 0 32 0]⟩, -- MEM_PORTp_MISSES: COUNT
  ⟨0x10C, 16, 10, [ro 0 32 0]⟩, -- MEM_PORTp_PEAK: NS
  ⟨0x1A0, 0, 1, [rw 0 8 .locked 46 [], rw 8 8 .locked 46 [], rw 16 8 .locked 46 []]⟩, -- MEM_TIMING: CL, TRCD, TRP
  ⟨0x1B0, 0, 1, [rw 0 18 .locked 1057 []]⟩, -- MEM_BANK_XOR0: MASK
  ⟨0x1B4, 0, 1, [rw 0 18 .locked 2114 []]⟩, -- MEM_BANK_XOR1: MASK
  ⟨0x1B8, 0, 1, [rw 0 18 .locked 4228 []]⟩, -- MEM_BANK_XOR2: MASK
  ⟨0x1BC, 0, 1, [rw 0 18 .locked 8456 []]⟩, -- MEM_BANK_XOR3: MASK
  ⟨0x1C0, 0, 1, [rw 0 18 .locked 16912 []]⟩] -- MEM_BANK_XOR4: MASK

/-- The registers of a ICD page besides the header of R34. -/
def icdRegs : List Reg := [
  ⟨0x040, 0, 1, [wo 0 1 .live 0 [], wo 1 1 .live 0 []]⟩, -- ICD_JOB: ABANDON0, ABANDON1
  ⟨0x044, 0, 1, [rw 0 3 (.commit 0) 7 [(1, 7)]]⟩, -- ICD_PRED: PRED_EN
  ⟨0x060, 0, 1, [ro 0 24 0]⟩, -- ICD_JOB0_POS: INGOT
  ⟨0x064, 0, 1, [ro 0 24 0]⟩, -- ICD_JOB1_POS: INGOT
  ⟨0x068, 0, 1, [ro 0 32 0]⟩, -- ICD_ENC_INGOTS: COUNT
  ⟨0x06C, 0, 1, [ro 0 32 0]⟩, -- ICD_NOT_SHRUNK: COUNT
  ⟨0x070, 0, 1, [ro 0 32 0]⟩, -- ICD_DEC_INGOTS: COUNT
  ⟨0x074, 0, 1, [ro 0 32 0]⟩] -- ICD_DEC_FAULTS: COUNT

/-- The registers of a HIF page besides the header of R34. -/
def hifRegs : List Reg := [
  ⟨0x040, 0, 1, [zeros 134217727 (rw 0 64 (.commit 0) 0 [])]⟩, -- HIF_DRAM_WINDOW_BASE: BASE
  ⟨0x060, 0, 1, [ro 0 32 0]⟩, -- HIF_DMA_FAULTS: COUNT
  ⟨0x064, 0, 1, [ro 0 32 0]⟩, -- HIF_AER_CORR: COUNT
  ⟨0x068, 0, 1, [ro 0 32 0]⟩] -- HIF_AER_UNCORR: COUNT

/-- The registers of a EVQ page besides the header of R34. -/
def evqRegs : List Reg := [
  ⟨0x040, 0, 1, [rw 0 8 (.commit 0) 2 []]⟩, -- EVQ_WINDOW: CYCLES
  ⟨0x044, 0, 1, [rw 0 3 (.commit 0) 0 [(0, 4)], rw 3 3 (.commit 0) 0 [(0, 4)], rw 6 3 (.commit 0) 0 [(0, 4)], rw 9 3 (.commit 0) 0 [(0, 4)], rw 12 3 (.commit 0) 0 [(0, 4)], rw 15 3 (.commit 0) 0 [(0, 4)], rw 18 3 (.commit 0) 0 [(0, 4)], rw 21 3 (.commit 0) 0 [(0, 4)]]⟩, -- EVQ_FILTER: MIN_SEV
  ⟨0x060, 0, 1, [ro 0 7 0]⟩, -- EVQ_OPEN: WINDOWS
  ⟨0x064, 0, 1, [ro 0 32 0]⟩] -- EVQ_WINDOW_FULL: COUNT

/-- The registers of a RNG page besides the header of R34. -/
def rngRegs : List Reg := [
  ⟨0x040, 0, 1, [zeros 63 (rw 0 64 .locked 0 [])]⟩, -- RNG_BASE: BASE
  ⟨0x048, 0, 1, [rw 0 5 .locked 6 [(6, 16)]]⟩, -- RNG_SIZE: LOG2
  ⟨0x04C, 0, 1, [rw 0 17 .live 0 []]⟩, -- RNG_PROD: POS
  ⟨0x050, 0, 1, [rw 0 17 .live 0 []]⟩, -- RNG_CONS: POS
  ⟨0x054, 0, 1, [rw 0 6 .live 0 [], rw 8 1 .live 0 [], rw 16 8 .live 1 [(1, 255)]]⟩, -- RNG_INT: VECTOR, EN, MOD_COUNT
  ⟨0x058, 0, 1, [rw 0 16 .live 0 []]⟩, -- RNG_MOD: MOD_TIME
  ⟨0x060, 0, 1, [zeros 63 (rw 0 64 .locked 0 [])]⟩, -- RNG_AUX_BASE: BASE
  ⟨0x068, 0, 1, [rw 0 5 .locked 0 [(16, 30)]]⟩, -- RNG_AUX_SIZE: AUX_LOG2
  ⟨0x06C, 0, 1, [rw 0 31 .live 0 []]⟩, -- RNG_AUX_CONS: POS
  ⟨0x070, 0, 1, [ro 0 31 0]⟩, -- RNG_AUX_PROD: POS
  ⟨0x074, 0, 1, [ro 0 32 0]⟩] -- RNG_LOST: COUNT

/-- The registers of a REC page besides the header of R34. -/
def recRegs : List Reg := [
  ⟨0x040, 0, 1, [rw 0 1 .locked 0 []]⟩, -- REC_MODE: MODE
  ⟨0x044, 0, 1, [wo 0 1 .live 0 [], wo 1 1 .live 0 []]⟩, -- REC_MANUAL: HOIST, HIST_RESET
  ⟨0x048, 0, 1, [ro 0 14 0]⟩, -- REC_COUNT: COUNT
  ⟨0x04C, 0, 1, [ro 0 32 0]⟩, -- REC_MISSED_BURST: COUNT
  ⟨0x050, 0, 1, [ro 0 32 0]⟩, -- REC_MISSED_FULL: COUNT
  ⟨0x054, 0, 1, [wo 0 2 .live 0 [(1, 2)]]⟩, -- REC_AUTH_CMD: CMD
  ⟨0x058, 0, 1, [ro 0 2 0]⟩, -- REC_AUTH_RESULT: RESULT
  ⟨0x060, 4, 4, [ro 0 32 0]⟩, -- REC_CHALLENGEi: CHALLENGE
  ⟨0x070, 4, 8, [wo 0 32 .live 0 []]⟩, -- REC_RESPONSEi: RESPONSE
  ⟨0x090, 0, 1, [rw 0 64 .live 0 []]⟩, -- REC_REQUESTER: ID
  ⟨0x100, 8, 16, [rw 2 10 (.commit 0) 0 [], rw 12 10 (.commit 0) 0 [], rw 24 5 (.commit 0) 0 [], rw 29 1 (.commit 0) 0 [], rw 30 1 (.commit 0) 0 [], rw 31 1 (.commit 0) 0 []]⟩, -- REC_SELi: OFFSET, PAGE, SHIFT, SIGNED, REL, EN
  ⟨0x104, 8, 16, [rw 0 32 (.commit 0) 0 []]⟩, -- REC_HIST_LOi: LO
  ⟨0x180, 0, 1, [rw 0 16 (.commit 0) 200 [(1, 65535)]]⟩, -- REC_HIST_CFG: PERIOD
  ⟨0x1A0, 4, 8, [wo 0 32 .live 0 []]⟩] -- REC_KEYi: KEY

/-- The registers of a LGY page besides the header of R34. -/
def lgyRegs : List Reg := [
  ⟨0x040, 4, 12, [ro 0 1 0, ro 1 1 0, ro 2 1 0, ro 3 1 0, ro 4 4 0, ro 16 16 0]⟩, -- LGY_STATIONk: ENABLED, GATE, FAULT, HOLD, MOTION, POWER
  ⟨0x070, 0, 1, [ro 0 1 0, ro 1 1 0]⟩, -- LGY_DEVICE: ILK_CLOSED, HEAT
  ⟨0x074, 0, 1, [ro 0 32 0]⟩, -- LGY_HEAT: HEAT
  ⟨0x080, 0, 1, [rw 0 5 .live 0 [], rw 5 5 .live 1 [], rw 10 5 .live 2 [], rw 15 5 .live 3 [], rw 20 5 .live 4 [], rw 25 5 .live 5 []]⟩, -- LGY_MAP0: STATION
  ⟨0x084, 0, 1, [rw 0 5 .live 6 [], rw 5 5 .live 7 [], rw 10 5 .live 8 [], rw 15 5 .live 9 [], rw 20 5 .live 10 [], rw 25 5 .live 11 []]⟩] -- LGY_MAP1: STATION

/-- The registers of a TIM page besides the header of R34. -/
def timRegs : List Reg := [
  ⟨0x040, 0, 1, [rw 0 1 (.commit 0) 0 [], rw 1 1 (.commit 0) 1 [], rw 8 8 (.commit 0) 8 [(1, 255)]]⟩, -- TIM_PPS: MODE, OUT_EN, PHASE_TC
  ⟨0x044, 0, 1, [rw 0 28 (.commit 0) 25000000 [(1, 249999999)]]⟩, -- TIM_PPS_OUT: WIDTH
  ⟨0x048, 0, 1, [wo 0 48 .live 0 []]⟩, -- TIM_SET_SECONDS: SECONDS
  ⟨0x060, 0, 1, [ro 0 64 0]⟩, -- TIM_TICK: TICK
  ⟨0x068, 0, 1, [ro 0 64 0]⟩, -- TIM_CYCLE: CYCLE
  ⟨0x070, 0, 1, [ro 0 48 0]⟩, -- TIM_TOD_SEC: SECONDS
  ⟨0x078, 0, 1, [ro 0 30 0]⟩, -- TIM_TOD_NS: NS
  ⟨0x07C, 0, 1, [ro 0 32 0]⟩, -- TIM_SLEW: SLEW
  ⟨0x080, 0, 1, [ro 0 64 0]⟩, -- TIM_PPS_TICK: TICK
  ⟨0x088, 0, 1, [ro 0 32 0]⟩, -- TIM_PPS_ERR: E
  ⟨0x08C, 0, 1, [ro 0 32 0]⟩, -- TIM_PPS_PERIOD: N
  ⟨0x090, 0, 1, [ro 0 32 0]⟩] -- TIM_GLITCHES: COUNT

/-- The registers of a MON page besides the header of R34. -/
def monRegs : List Reg := [
  ⟨0x040, 0, 1, [rw 0 16 (.commit 0) 1000 [], rw 16 16 (.commit 0) 1100 []]⟩, -- MON_TEMP_LIM: WARN_T, CRIT_T
  ⟨0x044, 0, 1, [rw 0 16 (.commit 0) 1200 [(0, 1250), (32768, 65535)]]⟩, -- MON_HALT: HALT_T
  ⟨0x060, 4, 24, [ro 0 16 0]⟩, -- MON_TEMPi: TEMP
  ⟨0x0C0, 0, 1, [ro 0 16 0, ro 16 5 0]⟩, -- MON_TEMP_MAX: TEMP, SENSOR
  ⟨0x100, 4, 16, [ro 0 16 0]⟩, -- MON_SUPj: V
  ⟨0x140, 0, 1, [rw 0 16 (.commit 0) 713 [], rw 16 16 (.commit 0) 788 []]⟩, -- MON_SUP0_LIM: LO, HI
  ⟨0x144, 0, 1, [rw 0 16 (.commit 0) 713 [], rw 16 16 (.commit 0) 788 []]⟩, -- MON_SUP1_LIM: LO, HI
  ⟨0x148, 0, 1, [rw 0 16 (.commit 0) 713 [], rw 16 16 (.commit 0) 788 []]⟩, -- MON_SUP2_LIM: LO, HI
  ⟨0x14C, 0, 1, [rw 0 16 (.commit 0) 713 [], rw 16 16 (.commit 0) 788 []]⟩, -- MON_SUP3_LIM: LO, HI
  ⟨0x150, 0, 1, [rw 0 16 (.commit 0) 760 [], rw 16 16 (.commit 0) 840 []]⟩, -- MON_SUP4_LIM: LO, HI
  ⟨0x154, 0, 1, [rw 0 16 (.commit 0) 760 [], rw 16 16 (.commit 0) 840 []]⟩, -- MON_SUP5_LIM: LO, HI
  ⟨0x158, 0, 1, [rw 0 16 (.commit 0) 808 [], rw 16 16 (.commit 0) 893 []]⟩, -- MON_SUP6_LIM: LO, HI
  ⟨0x15C, 0, 1, [rw 0 16 (.commit 0) 808 [], rw 16 16 (.commit 0) 893 []]⟩, -- MON_SUP7_LIM: LO, HI
  ⟨0x160, 0, 1, [rw 0 16 (.commit 0) 1140 [], rw 16 16 (.commit 0) 1260 []]⟩, -- MON_SUP8_LIM: LO, HI
  ⟨0x164, 0, 1, [rw 0 16 (.commit 0) 1045 [], rw 16 16 (.commit 0) 1155 []]⟩, -- MON_SUP9_LIM: LO, HI
  ⟨0x168, 0, 1, [rw 0 16 (.commit 0) 1045 [], rw 16 16 (.commit 0) 1155 []]⟩, -- MON_SUP10_LIM: LO, HI
  ⟨0x16C, 0, 1, [rw 0 16 (.commit 0) 808 [], rw 16 16 (.commit 0) 893 []]⟩, -- MON_SUP11_LIM: LO, HI
  ⟨0x170, 0, 1, [rw 0 16 (.commit 0) 1140 [], rw 16 16 (.commit 0) 1260 []]⟩, -- MON_SUP12_LIM: LO, HI
  ⟨0x174, 0, 1, [rw 0 16 (.commit 0) 1710 [], rw 16 16 (.commit 0) 1890 []]⟩, -- MON_SUP13_LIM: LO, HI
  ⟨0x178, 0, 1, [rw 0 16 (.commit 0) 1710 [], rw 16 16 (.commit 0) 1890 []]⟩, -- MON_SUP14_LIM: LO, HI
  ⟨0x17C, 0, 1, [rw 0 16 (.commit 0) 3135 [], rw 16 16 (.commit 0) 3465 []]⟩, -- MON_SUP15_LIM: LO, HI
  ⟨0x180, 4, 8, [ro 0 24 0]⟩, -- MON_ROSCk: FREQ
  ⟨0x1A0, 0, 1, [rw 0 24 (.commit 0) 0 []]⟩] -- MON_ROSC_MIN: MIN

/-- The registers of a DEV page besides the header of R34. -/
def devRegs : List Reg := [
  ⟨0x040, 0, 1, [rw 0 1 .live 0 []]⟩, -- DEV_COMMIT_HOLD: HOLD (R53)
  ⟨0x060, 0, 1, [ro 0 3 1, ro 3 1 0, ro 4 1 0, ro 8 3 0]⟩, -- DEV_BOOT: STAGE, SLOT, FALLBACK, RESULT
  ⟨0x064, 0, 1, [ro 0 2 0, ro 2 1 0]⟩, -- DEV_RESET_CAUSE: CAUSE, WAS_HALTED
  ⟨0x068, 0, 1, [ro 0 32 0]⟩, -- DEV_FW_VERSION: VERSION
  ⟨0x070, 0, 1, [ro 0 64 0]⟩, -- DEV_SERIAL: SERIAL
  ⟨0x100, 0, 1, [wo 0 1 .live 0 []]⟩, -- DEV_RESET: WARM
  ⟨0x104, 0, 1, [zeros 3 (rw 0 28 .live 0 [])]⟩, -- DEV_FLASH_ADDR: ADDR
  ⟨0x108, 0, 1, [rw 0 32 .live 0 []]⟩, -- DEV_FLASH_DATA: DATA
  ⟨0x10C, 0, 1, [wo 0 1 .live 0 []]⟩, -- DEV_FLASH_CMD: ERASE
  ⟨0x110, 0, 1, [ro 0 1 0, ro 1 1 0]⟩] -- DEV_FLASH_STAT: BUSY, ERROR

/-- The page kinds of the page map (R61). -/
inductive PageKind where
  | dev | tim | mon | mld | hif | evq | recd | par | mem | icd | sch | ldl | tmp | cal | lnk | srv | fbk
  | img | lhd | stp | ipl | lgy | rng | stn | axs | fch | sax | lan | emu | seg | ctx
  deriving DecidableEq, Repr

/-- The page map: the kind and the first page of the range that holds page `p` (R61). -/
def pageOf (p : Nat) : Option (PageKind × Nat) :=
  if p = 0x000 then some (.dev, 0x000) else if p = 0x001 then some (.tim, 0x001)
  else if p = 0x002 then some (.mon, 0x002) else if p = 0x003 then some (.mld, 0x003)
  else if p = 0x004 then some (.hif, 0x004) else if p = 0x005 then some (.evq, 0x005)
  else if p = 0x006 then some (.recd, 0x006) else if p = 0x007 then some (.par, 0x007)
  else if p = 0x008 then some (.mem, 0x008) else if p = 0x009 then some (.icd, 0x009)
  else if p = 0x00A then some (.sch, 0x00A) else if p = 0x00B then some (.ldl, 0x00B)
  else if p = 0x00C then some (.tmp, 0x00C) else if p = 0x00D then some (.cal, 0x00D)
  else if p = 0x00E then some (.lnk, 0x00E) else if p = 0x00F then some (.srv, 0x00F)
  else if p = 0x010 then some (.fbk, 0x010) else if p = 0x011 then some (.img, 0x011)
  else if p = 0x012 then some (.lhd, 0x012) else if p = 0x013 then some (.stp, 0x013)
  else if p ≤ 0x017 then some (.ipl, 0x014) else if p = 0x01F then some (.lgy, 0x01F)
  else if p < 0x020 then none
  else if p ≤ 0x05F then some (.rng, 0x020) else if p < 0x080 then none
  else if p ≤ 0x09F then some (.stn, 0x080) else if p ≤ 0x0FF then some (.axs, 0x0A0)
  else if p ≤ 0x167 then some (.fch, 0x100) else if p < 0x170 then none
  else if p ≤ 0x17B then some (.sax, 0x170) else if p < 0x180 then none
  else if p ≤ 0x1B7 then some (.lan, 0x180) else if p < 0x1C0 then none
  else if p ≤ 0x1C7 then some (.emu, 0x1C0) else if p < 0x200 then none
  else if p ≤ 0x2FF then some (.seg, 0x200) else if p < 0x300 then none
  else if p ≤ 0x327 then some (.ctx, 0x300) else none

/-- Block codes of the page map (R61). -/
def PageKind.code : PageKind → Nat
  | .dev => 0x0001 | .tim => 0x0002 | .mon => 0x0003 | .mld => 0x0004 | .hif => 0x0005 | .evq => 0x0006
  | .recd => 0x0007 | .par => 0x0008 | .mem => 0x0009 | .icd => 0x000A | .sch => 0x000B | .ldl => 0x000C
  | .tmp => 0x000D | .cal => 0x000E | .lnk => 0x000F | .srv => 0x0010 | .fbk => 0x0011 | .img => 0x0012
  | .lhd => 0x0013 | .stp => 0x0014 | .ipl => 0x0015 | .lgy => 0x0016 | .rng => 0x0020 | .stn => 0x0021
  | .axs => 0x0022 | .fch => 0x0023 | .sax => 0x0024 | .lan => 0x0025 | .emu => 0x0026 | .seg => 0x0027
  | .ctx => 0x0028

/-- Whether the pages of a kind are mirrored in a pair (R61). -/
def PageKind.mirrored : PageKind → Bool
  | .mld | .sch | .ldl | .tmp | .cal | .srv | .fbk | .img | .lhd | .stp | .ipl | .stn | .axs | .fch | .sax
  | .emu | .seg | .ctx => true
  | .dev | .tim | .mon | .hif | .evq | .recd | .par | .mem | .icd | .lnk | .lgy | .rng | .lan => false

/-- Whether the range of a kind holds more than one page (R583). -/
def PageKind.many : PageKind → Bool
  | .ipl | .rng | .stn | .axs | .fch | .sax | .lan | .emu | .seg | .ctx => true
  | _ => false

/-- The registers of a kind besides the common header. -/
def PageKind.regs : PageKind → List Reg
  | .dev => devRegs | .tim => timRegs | .mon => monRegs | .mld => mldRegs | .hif => hifRegs | .evq => evqRegs
  | .recd => recRegs | .par => parRegs | .mem => memRegs | .icd => icdRegs | .sch => schRegs | .ldl => ldlRegs
  | .tmp => tmpRegs | .cal => calRegs | .lnk => lnkRegs | .srv => srvRegs | .fbk => fbkRegs | .img => imgRegs
  | .lhd => lhdRegs | .stp => stpRegs | .ipl => iplRegs | .lgy => lgyRegs | .rng => rngRegs | .stn => stnRegs
  | .axs => axsRegs | .fch => fchRegs | .sax => saxRegs | .lan => lanRegs | .emu => emuRegs | .seg => segRegs
  | .ctx => ctxRegs

/-- The block pennants that a kind defines, PEN[30:0] (the PEN rows of the chapters' tables). -/
def PageKind.pens : PageKind → Nat
  | .sch => 0x1FF | .ldl => 0x7 | .tmp => 0x3 | .stn => 0x3FF | .srv => 0x3 | .axs => 0xF | .fch => 0x3F
  | .emu => 0x1 | .img => 0x3F | .ctx => 0x3F | .lhd => 0x3F | .seg => 0x7F | .stp => 0x3 | .sax => 0xF
  | .cal => 0x1F | .mld => 0x3FF | .par => 0xFFF | .lnk => 0x7 | .lan => 0x7F | .mem => 0xFF | .icd => 0xF
  | .hif => 0x7 | .rng => 0x3 | .recd => 0xF | .tim => 0x1F | .mon => 0x1F
  | .dev | .evq | .fbk | .ipl | .lgy => 0

/-- The pennants for which the chapter of a kind lists an event code, PEN_EVT[30:0] at reset (R34). -/
def PageKind.evtReset : PageKind → Nat
  | .sch => 0x1FF | .ldl => 0x7 | .tmp => 0x3 | .stn => 0x3FF | .srv => 0x3 | .axs => 0xF | .fch => 0x3F
  | .emu => 0x1 | .img => 0x3F | .ctx => 0x3F | .lhd => 0x3F | .seg => 0x7F | .stp => 0x3 | .sax => 0xF
  | .cal => 0x1F | .mld => 0x3FF | .par => 0xFFF | .lnk => 0x3 | .lan => 0x7D | .mem => 0x7F | .icd => 0x7
  | .hif => 0x7 | .rng => 0x3 | .recd => 0xF | .tim => 0xB | .mon => 0x1F
  | .dev | .evq | .fbk | .ipl | .lgy => 0

/-- CTL.ENABLE at reset (R34). -/
def PageKind.enableReset : PageKind → Bool
  | .dev | .tim | .mon | .hif => true
  | _ => false

/-- A register's word count in bytes: 8 where a field reaches beyond bit 31 (R29). -/
def Reg.wide (r : Reg) : Bool := r.fields.any fun f => 32 < f.lo + f.width

/-- Whether `off` is the first byte of the register or of one of its row. -/
def Reg.holds (r : Reg) (off : Nat) : Bool :=
  decide (r.off ≤ off) && decide (off < r.off + max r.stride 1 * r.count) &&
    (if r.stride = 0 then off == r.off else (off - r.off) % r.stride == 0)

/-- The register of a kind that starts at offset `off`. -/
def PageKind.reg? (k : PageKind) (off : Nat) : Option Reg := k.regs.find? fun r => r.holds off

/-- The register whose word at `off` is its first or, for a 64-bit register, its second word. -/
def PageKind.regAt? (k : PageKind) (off : Nat) : Option (Reg × Bool) :=
  match k.reg? off with
  | some r => some (r, false)
  | none =>
    match k.reg? (off - 4) with
    | some r => if r.wide && decide (4 ≤ off) then some (r, true) else none
    | none => none

/-- A field's reset value in place. -/
def Field.resetBits (f : Field) : Nat := (f.reset % 2 ^ f.width) <<< f.lo

/-- Whether the page of a kind has an expert region: a register at 0x100 or above (R34, R39). -/
def PageKind.hasExpert (k : PageKind) : Bool := k.regs.any fun r => decide (0x100 ≤ r.off)

/-- CAP.BLOCK_CAP as the chapters give it (R277, R303, R304, R347, R348, R531, R565); 0 elsewhere. -/
def PageKind.blockCap (k : PageKind) (inst : Nat) : Nat :=
  match k with
  | .srv => 78 ||| (117 <<< 8) ||| (24 <<< 16)
  | .fbk => 96 ||| (8 <<< 8)
  | .fch => if 96 ≤ inst then 1 else 0
  | .ipl => 10 ||| (2 <<< 8)
  | .ctx => if 32 ≤ inst then 1 else 0
  | .lnk => 2 ||| (1 <<< 4)
  | .icd => 7
  | _ => 0

/-- The reset value of the header word at `off` (R34). -/
def headerReset (k : PageKind) (inst off : Nat) : Nat :=
  if off = 0x000 then (k.code <<< 16) ||| (inst <<< 8) ||| 1
  else if off = 0x004 then
    ((if k.hasExpert then 1 else 0) <<< 31) ||| ((if k = .mld then 1 else 0) <<< 30) |||
      ((if k.mirrored then 1 else 0) <<< 29) ||| k.blockCap inst
  else if off = 0x008 then (if k.enableReset then 1 else 0)
  else if off = 0x014 then 0x80000000 ||| k.evtReset
  else 0

/-- The reset value of the register word at `off` of instance `inst`: FRAME_PHASE resets to the context
number modulo 8, RNG_AUX_SIZE of an archive ring to 16, and the rest stands in the field tables. -/
def blockReset (k : PageKind) (inst off : Nat) : Nat :=
  match k.regAt? off with
  | none => 0
  | some (r, high) =>
    let v := r.fields.foldl (fun a f => a ||| f.resetBits) 0
    let v := if k = .ctx ∧ off = 0x044 then v ||| ((inst % 8) <<< 16) else v
    let v := if k = .rng ∧ off = 0x068 ∧ 32 ≤ inst ∧ inst ≤ 39 then 16 else v
    if high then v >>> 32 else v % 2 ^ 32

/-- BAR0 byte address of the word at `off` of page `p` (R27). -/
def wordAddr (p off : Nat) : Nat := p * 4096 + off

/-- What the register word at BAR0 address `a` holds at reset. -/
def resetWord (a : Nat) : Word :=
  match pageOf (a / 4096) with
  | none => 0
  | some (k, first) =>
    let off := a % 4096
    if off < 0x040 then BitVec.ofNat 32 (headerReset k (a / 4096 - first) off)
    else BitVec.ofNat 32 (blockReset k (a / 4096 - first) off)

end Sys2Proof.Machine
end

