-- ==== Sys2Proof/Machine/Table.lean ====
section
/-! DEFINITION. Sparse tables: the one canonical form in which the model keeps register files, memories and
per-unit state. A table lists (key, value) pairs, keys strictly rising, and lists no value equal to the default
`d k` that an unlisted key reads as. -/
namespace Sys2Proof.Machine

abbrev Tab (α : Type) := List (Nat × α)

/-- The value at key `k`; an unlisted key reads as `d k`. -/
def Tab.get {α : Type} (d : Nat → α) : Tab α → Nat → α
  | [], k => d k
  | (j, v) :: t, k => if k = j then v else Tab.get d t k

/-- The table with key `k` unlisted. -/
def Tab.without {α : Type} : Tab α → Nat → Tab α
  | [], _ => []
  | (j, w) :: t, k => if k = j then Tab.without t k else (j, w) :: Tab.without t k

/-- `v`, not the default, listed at key `k` before the first greater key. -/
def Tab.list {α : Type} : Tab α → Nat → α → Tab α
  | [], k, v => [(k, v)]
  | (j, w) :: t, k, v =>
    if k = j then (k, v) :: t else if k < j then (k, v) :: (j, w) :: t else (j, w) :: Tab.list t k v

/-- `v` stored at key `k`, in canonical form. -/
def Tab.set {α : Type} [DecidableEq α] (d : Nat → α) (t : Tab α) (k : Nat) (v : α) : Tab α :=
  if v = d k then t.without k else t.list k v

/-- Every key is above `b`, keys rise strictly, and no entry equals the default. -/
def Tab.wfFrom {α : Type} [DecidableEq α] (d : Nat → α) : Tab α → Nat → Bool
  | [], _ => true
  | (j, v) :: t, b => decide (b ≤ j) && decide (v ≠ d j) && Tab.wfFrom d t (j + 1)

/-- The canonical form. -/
def Tab.wf {α : Type} [DecidableEq α] (d : Nat → α) (t : Tab α) : Bool := Tab.wfFrom d t 0

/-- The default of a table of units that all start alike. -/
def same {α : Type} (x : α) : Nat → α := fun _ => x

/-- The value at `k` changed by `f`. -/
def Tab.upd {α : Type} [DecidableEq α] (d : Nat → α) (t : Tab α) (k : Nat) (f : α → α) : Tab α :=
  t.set d k (f (t.get d k))

end Sys2Proof.Machine
end

