-- ==== Sys2Proof/Machine/Parts.lean ====
section
/-! DEFINITION. The parts of the state, block by block: every register, buffer, queue, counter, mode and pin the
spec gives the device, as plain data. A field's default value is its value at reset. -/
namespace Sys2Proof.Machine

/-! ### Register file (chapter 02) -/

/-- A Live write to a mirrored page that takes effect at the start of cycle `cycle + 3` (R45). -/
structure LiveWrite where
  addr : Nat
  data : Long
  wide : Bool
  cycle : Nat
  deriving DecidableEq, Repr

/-- A pending commit group and the cycle that accepted its COMMIT write (R43, R47). -/
structure PendGroup where
  page : Nat
  group : Nat
  cycle : Nat
  /-- It was committed before the first heat after reset started (R50). -/
  early : Bool := false
  deriving DecidableEq, Repr

/-- The register words by BAR0 address: what was last accepted (the value a read returns) and what the device
uses (R33, R46), with the writes and groups that wait. -/
structure RegFile where
  acc : Tab Word := []
  act : Tab Word := []
  pend : List PendGroup := []
  live : List LiveWrite := []
  /-- Per page: offset of the low word read last (0 none) and the high word it latched (R29). -/
  rdHold : Tab (Nat × Word) := []
  /-- Per page: offset of the low word written last (0 none) and that word (R29). -/
  wrHold : Tab (Option Word) := []
  /-- Per pennant, keyed `32 * page + bit`: 1 + the tick of its last cause (R36). -/
  penAt : Tab Nat := []
  /-- Cycle in which DEV_COMMIT_HOLD.HOLD last returned to 0 (R52). -/
  released : Nat := 0
  /-- Whether HOLD ever returned to 0. -/
  everHeld : Bool := false
  /-- HOLD stood at 1 when the last heat boundary was declared, or has stood at 1 since (R52). -/
  boundaryHeld : Bool := false
  deriving DecidableEq, Repr

/-! ### Rings and events (chapter 18) -/

/-- How a queued record stands under R585. -/
inductive RecKind where
  | plain | islandDone | heatDone | event
  deriving DecidableEq, Repr

/-- A record in the on-chip queue of a device-written ring, with the bitmap written before it (R579, R585). -/
structure QRec where
  data : Entry
  bitmap : BitVec 512
  withMap : Bool
  kind : RecKind
  deriving DecidableEq, Repr

/-- An open coalescing window (R583). -/
structure Window where
  block : Nat
  cls : Nat
  code : Nat
  first : Nat
  payload : Nat
  tick : Nat
  severity : Nat
  page : Nat
  count : Nat
  bitmap : BitVec 512
  /-- The first cycle after it. -/
  upTo : Nat
  deriving DecidableEq, Repr

/-- A record of a shared ring that a standby keeps, as the holder may not have written it when the ensign passes (R495): an
event record without its SEQUENCE and STATE, with its bitmap and with 1 + the cycle of this device's first CYCLE record after
it (0: none yet), or another record without its byte 30. -/
inductive Kept where
  | event (ring body : Nat) (bitmap : BitVec 512) (withMap : Bool) (sent : Nat)
  | record (ring : Nat) (kind : RecKind) (data : Nat)
  deriving DecidableEq, Repr

/-- The MSI-X table and PBA of the HIF page (R566): 64 entries of 16 bytes by word index, and 64 pending bits. -/
structure Hif where
  msix : Tab Word := []
  pba : Long := 0
  linkUp : Bool := false
  speed : BitVec 3 := 0
  width : BitVec 4 := 0
  /-- Per MSI-X vector: tick + 1 of its last message, 0 before any (R586). -/
  lastMsg : Tab Nat := []
  /-- Per MSI-X vector: 1 + the ring that its last message was for (R586). -/
  lastRing : Tab Nat := []
  windows : List Window := []
  /-- On a standby: what its holder writes into shared rings and it does not, oldest first (R495). -/
  kept : List Kept := []
  /-- Results of table loads that wait for the standby's confirmation, oldest first: ring, entry, status and detail (R587). -/
  loads : List (Nat × Entry × Nat × Option Nat) := []
  deriving DecidableEq, Repr

/-! ### Recorder (chapter 19) -/

/-- A trigger that the recorder has not hoisted yet (R592, R594). -/
structure Trigger where
  page : Nat
  bit : Nat
  kind : Nat
  tick : Nat
  deriving DecidableEq, Repr

/-- A histogram block (R605); `used` is false while it stands in its empty state, whose MIN and MAX are those of a
signed quantity where `sgn` holds. -/
structure Hist where
  used : Bool := false
  sgn : Bool := false
  min : Word := 0
  max : Word := 0
  samples : Word := 0
  bins : Tab Word := []
  deriving DecidableEq, Repr

/-- MIN and MAX of a block, in its empty state those of its sign (R605). -/
def Hist.low (h : Hist) : Word := if h.used then h.min else if h.sgn then 0x7FFFFFFF#32 else 0xFFFFFFFF#32
def Hist.high (h : Hist) : Word := if h.used then h.max else if h.sgn then 0x80000000#32 else 0

/-- The recorder. -/
structure Recorder where
  /-- The log, newest hoist first; REC_COUNT is its length (R598). -/
  log : List (BitVec 768) := []
  missedBurst : Word := 0
  missedFull : Word := 0
  serial : BitVec 32 := 0
  clears : Nat := 0
  hist : Tab Hist := []
  /-- The cycle of the last histogram sample (R604). -/
  sampledAt : Option Nat := none
  triggers : List Trigger := []
  /-- Triggers captured in the clock `clock` (R595). -/
  clock : Nat := 0
  captured : Nat := 0
  /-- 1 + the cycle of the last HOIST_MISSED event (R595). -/
  missedEvent : Nat := 0
  challenge : BitVec 128 := 0
  response : BitVec 256 := 0
  /-- The clear key (R601). -/
  key : BitVec 256 := 0
  result : BitVec 2 := 0
  deriving DecidableEq, Repr

/-! ### Timebase and monitors (chapter 20) -/

/-- The timebase besides TIM_TICK: time of day and slew from tick `base` on, the PPS servo and PPS_OUT. -/
structure Timebase where
  /-- The present tick or an earlier one; the tick after an edge of PPS_IN at the present tick, whose result holds from
  then on (R616). -/
  base : Nat := 0
  sec : Nat := 0
  /-- Nanoseconds of the second in 2⁻³² ns (R610). -/
  frac : Nat := 0
  slew : Int := 0
  /-- Seconds, fraction and slew that held at the tick before `base` (R616). -/
  prior : Nat × Nat × Int := (0, 0, 0)
  freq : Int := 0
  secondsValid : Bool := false
  setSeconds : Option Nat := none
  holdover : Bool := true
  /-- The loss of PPS has been declared since the last accepted edge or since reset (R617). -/
  lost : Bool := false
  /-- Tick of the last accepted edge on the present count; before 0 where a join has lowered the count. -/
  lastEdge : Option Int := none
  /-- The pulse of PPS_OUT is high, and the tick at which it ends (R618). -/
  ppsOut : Bool := false
  ppsFall : Nat := 0
  /-- The words that a read of TIM_TICK's low word latched, if any (R612). -/
  latch : Option (Nat × Nat × Nat) := none
  deriving DecidableEq, Repr

/-- The monitors' memory: which warnings are armed (R621, R622). -/
structure Monitors where
  warned : BitVec 24 := 0
  supBad : BitVec 16 := 0
  slow : BitVec 8 := 0
  crit : Bool := false
  /-- The cycle from which each ring oscillator's next count can complete (R620). -/
  oscDue : Tab Nat := []
  deriving DecidableEq, Repr

/-! ### Start-up (chapter 21) -/

/-- Start-up, reset and the pins that show it. -/
structure Boot where
  /-- The boot step, 1 to 5 (R629). -/
  stage : Nat := 1
  slot : Bool := false
  fallback : Bool := false
  result : Nat := 0
  cause : Nat := 0
  wasHalted : Bool := false
  fwVersion : Word := 0
  schema : BitVec 8 := Config.bootSchema
  /-- The boot record's PAIR bit, GEOM and BIN (R626). -/
  pair : Bool := false
  geom : Nat := 0
  bin : Nat := 0
  /-- The cycle engine and the watchdog run (R629 step 4). -/
  engine : Bool := false
  /-- A warm reset is requested for tick 1,125 of this cycle, with its cause (R635). -/
  warm : Option (Nat × Nat) := none
  sealLoaded : Bool := false
  /-- PORESET_N is low. -/
  poreset : Bool := true
  /-- TEST_EN stood high when PORESET_N rose: the device stays in step 1 (R644). -/
  held : Bool := false
  /-- Cycle at whose start the partner lanes are enabled (R629 step 4). -/
  lanesAt : Option Nat := none
  healthOut : Bool := false
  /-- Cycle at whose start the device becomes HALTED (R622). -/
  haltAt : Option Nat := none
  /-- 1 + the cycle whose uplink deadline has passed, and 1 + that whose command frames are sent (R23). -/
  deadlineOf : Nat := 0
  sentOf : Nat := 0
  deriving DecidableEq, Repr

/-- An erase or program operation of the flash (R641). -/
inductive FlashOp where
  | erase (sector : Nat)
  | program (addr : Nat) (value : Word)
  deriving DecidableEq, Repr

/-- The seal store (R469, R601): what the mould and the recorder keep without power. -/
structure SealStore where
  limits : Tab Word := []
  sealed : Bool := false
  key : BitVec 256 := 0
  clearKey : BitVec 256 := 0
  deriving DecidableEq, Repr

/-- What keeps its value without power: the QSPI flash and the seal store. -/
structure NonVolatile where
  /-- Flash bytes by address; an erased byte reads 0xFF (R641). -/
  flash : Tab Byte := []
  op : Option FlashOp := none
  sealStore : SealStore := {}
  deriving DecidableEq, Repr

/-! ### Pair operation (chapter 14) -/

/-- A host write that the host link holds (R481). -/
structure HeldWrite where
  bar2 : Bool
  addr : Nat
  bytes : Nat
  value : Nat
  deriving DecidableEq, Repr

/-- A sample that a standby expects from the holder, or has had before it took its own (R486): an edge of input `index`
(kind 1) or a challenge (kind 3). -/
structure SampleNote where
  kind : Nat
  index : Nat := 0
  rising : Bool := false
  tick : Nat
  /-- The standby's own. -/
  own : Bool
  deriving DecidableEq, Repr

/-- Role, ensign, records of the cycle and joining (R473 to R507). -/
structure Par where
  /-- R473: 0 ALONE, 1 SEEKING, 2 HOLDER, 3 JOINING, 4 STANDBY, 5 OUT, 6 HALTED. -/
  role : Nat := 1
  sideB : Bool := false
  epoch : BitVec 16 := 0
  /-- ENSIGN_OUT is 1 from this tick on while the device is ALONE or HOLDER (R475, R495). -/
  ensignFrom : Nat := 0
  /-- PEER_HEALTH_IN as sampled in the last two cycles, newest first (R475). -/
  health : Bool := false
  healthBefore : Bool := false
  peerEnsign : Bool := false
  /-- Consecutive cycles in which PEER_ENSIGN_IN read 0, counted to 4,000 (R477). -/
  ensignLow : Nat := 0
  /-- Consecutive cycles in which the peer was not healthy, counted to 4,000 (R477). -/
  unhealthy : Nat := 0
  /-- The device's own CYCLE records of the current and the previous cycle (R479). -/
  own : Option (BitVec 4800) := none
  ownBefore : Option (BitVec 4800) := none
  /-- The peer's CYCLE record received in the current cycle. -/
  peer : Option (BitVec 4800) := none
  /-- The last CYCLE record received from a holder (R495). -/
  lastHolder : Option (BitVec 4800) := none
  /-- The digests of the cycle before matched (R494). -/
  matched : Bool := false
  /-- A holder counts a standby in lockstep (R487). -/
  withStandby : Bool := false
  /-- The holder's records carry SOLO (R487). -/
  solo : Bool := false
  swapRequested : Bool := false
  /-- The CYCLE record of this cycle carries SWAP (R497). -/
  swapMark : Bool := false
  /-- The reason of a yield whose CYCLE record is to carry YIELD, and of one whose record did (R498). -/
  yieldDue : Option Nat := none
  /-- A critical temperature asks for a yield in the record of the next cycle (R622). -/
  yieldAfter : Bool := false
  yieldMark : Option Nat := none
  /-- WRITE records received in the current cycle, and whether a SAMPLE record came late (R486). -/
  writes : Nat := 0
  sampleLate : Bool := false
  /-- On a standby: edges and challenges of its own, or forwarded ones, without their counterpart (R486). -/
  notes : List SampleNote := []
  /-- The last cycle whose WRITE record slots have been used, and how many of them (R478, R481). -/
  slotCycle : Nat := 0
  writesSent : Nat := 0
  /-- Host writes that wait for a slot of a later cycle, oldest first (R481). -/
  heldWrites : List HeldWrite := []
  /-- PAR_CMD.LEAVE has been written to this standby (R486 cause 6). -/
  leaveAsked : Bool := false
  /-- The role from which the join under way began (R502). -/
  joinFrom : Nat := 1
  joinStage : Nat := 0
  joinRound : Nat := 0
  refuseCause : Nat := 0
  outSince : Nat := 0
  schemaInUse : BitVec 8 := 0
  peerSchema : BitVec 8 := 0
  /-- Partner reports of the current cycle (R492). -/
  mismatch : BitVec 48 := 0
  conflict : BitVec 48 := 0
  noEnsign : BitVec 48 := 0
  /-- Cycles in a row in MIRROR with every partner lane up (R501). -/
  mirrorClean : Nat := 0
  /-- Words made dirty in the current cycle and in the last whole one; MIRROR words received in this one (R501). -/
  dirtyNow : Nat := 0
  dirty : Nat := 0
  mirrored : Nat := 0
  /-- FRAME_CRC of the frames sent in this cycle, per partner; none for idle fill (R479). -/
  frameCrc : Tab (BitVec 32) := []
  deriving DecidableEq, Repr

/-! ### Lanes (chapter 15) -/

/-- One physical lane besides its registers. -/
structure Lane where
  /-- Bring-up stage, 0 while disabled (R524). -/
  stage : Nat := 0
  /-- Tick at which the stage was entered. -/
  since : Nat := 0
  /-- Tick at which a refused lane may restart (R526). -/
  retryAt : Option Nat := none
  polInv : Bool := false
  kind : Nat := 0
  id : Nat := 0
  rev : Nat := 0
  /-- Logical partner, 0x3F none. -/
  logical : Nat := 0x3F
  reversed : Bool := false
  lastMarker : Option Long := none
  agree : Nat := 0
  cause : Nat := 0
  /-- Latency L and the advance in use, in 1/16 tick (R512). -/
  latency : Nat := 0
  advance : Nat := 0
  superframe : BitVec 16 := 0
  markersMissed : Nat := 0
  startsMissed : Nat := 0
  startSeen : Bool := false
  markerSeen : Bool := false
  badInSuper : Nat := 0
  /-- Eye-margin scan: running with this DWELL, and the counts of the last finished scan (R530). -/
  eyeDwell : Option Nat := none
  eye : Tab Word := []
  deriving DecidableEq, Repr

/-! ### Steppers (chapter 11) -/

/-- State of a coil's regulation and of its four gate outputs H1, L1, H2, L2 (R412 to R414). -/
inductive CoilMode where
  | off
  | drive (negative : Bool)
  | fast (negative : Bool)
  | slow
  deriving DecidableEq, Repr

structure Coil where
  mode : CoilMode := .off
  /-- The comparator is ignored: the blanking time runs. -/
  blank : Bool := false
  /-- At SLOW because the threshold is 0. -/
  waiting : Bool := false
  /-- DAC threshold in codes, and the sign of the reference (R411). -/
  thr : Nat := 0
  negative : Bool := false
  /-- Outputs at 1 now: H1, L1, H2, L2 in bits 0 to 3; and those that wait for the dead time (R414). -/
  gates : BitVec 4 := 0
  rising : BitVec 4 := 0
  deriving DecidableEq, Repr

/-- One stepper axis besides its registers. -/
structure StepAxis where
  pos : Int := 0
  /-- Start and travel of the running move's plan (R402). -/
  start : Int := 0
  travel : Int := 0
  /-- Target to travel to after a stop (R406, R408), and SAX_SPEED in millisteps/s as the command that set it found it
  (R395). -/
  next : Option Int := none
  nextSpeed : Nat := 0
  lastStep : Option Nat := none
  /-- Earliest tick of its next step, by the mould's step-rate limit as that step was placed (R400, R458). -/
  soonest : Nat := 0
  armed : Bool := false
  cmpPos : Int := 0
  cmpDir : Nat := 0
  /-- The coil currents stand at I_HOLD (R411); from reset no move has run. -/
  holding : Bool := true
  coilA : Coil := {}
  coilB : Coil := {}
  deriving DecidableEq, Repr

/-- A heat move (R397, R398): group (0 gantry, 1 platform, 2 dosing), targets per axis, speed in millisteps/s, phase,
the tick from which it waits, whether its wait has been told. -/
structure HeatMove where
  group : Nat
  targets : List (Nat × Int)
  speed : Nat
  phase : Nat
  since : Nat
  told : Bool := false
  deriving DecidableEq, Repr

/-- A move in progress; its lead runs the profile (R399). -/
structure Move where
  mask : BitVec 12
  lead : Nat
  /-- 0 POSITION, 1 VELOCITY; a heat move is a POSITION move. -/
  kind : Nat
  heat : Option HeatMove
  negative : Bool
  /-- Steps of the plan, steps the lead has issued, and the step number of the planned end. -/
  total : Nat
  issued : Nat
  last : Nat
  v : Nat
  a : Nat
  iv : Nat
  /-- Time of the next step, in 2⁻¹⁶ ticks. -/
  time : Nat
  vmax : Nat
  vs : Nat
  acc : Nat
  dec : Nat
  jerk : Nat
  scurve : Bool
  abortDec : Nat
  /-- A stop under R406 or R407 is in progress; it is one under R407. -/
  stopping : Bool
  aborted : Bool
  /-- VELOCITY in a new direction waits for the stop: its speed and direction. -/
  nextVel : Option (Nat × Bool)
  clamped : Bool
  /-- Tick from which the move is in progress (R393). -/
  began : Nat
  /-- Tick at which the command applied that stops the move; no new move of its axes begins before it (R406). -/
  stopFrom : Nat := 0
  deriving DecidableEq, Repr

/-- The stepper block. -/
structure Stp where
  axes : Tab StepAxis := []
  moves : List Move := []
  waiting : List HeatMove := []
  /-- Platform target Z_p in nm (R394). -/
  platformZ : Int := 0
  /-- Position of axis 0 at the start of the cycle, and the direction of its gantry move then: 0 none (R132). -/
  carriage0 : Int := 0
  carriageDir : Int := 0
  /-- STP_PLATFORM_SET applied and not yet taken by a heat. -/
  platformSet : Bool := false
  deriving DecidableEq, Repr

/-! ### Mould (chapter 13) -/

/-- A pending raise of a limit register: the bits it raises, the cycle that accepted it, and whether that was before the
first heat after reset started (R465). -/
structure PendRaise where
  off : Nat
  value : Word
  mask : Word
  cycle : Nat
  early : Bool
  deriving DecidableEq, Repr

/-- A lowering write that takes effect at the start of cycle `cycle + 3`: the bits it lowers (R464). -/
structure PendLower where
  off : Nat
  value : Word
  mask : Word
  cycle : Nat
  deriving DecidableEq, Repr

/-- Windowed energy of a cell: window number of `cur`, counts of that window and of the one before, mJ (R457). -/
structure MouldCell where
  window : Nat := 0
  cur : Nat := 0
  prev : Nat := 0
  deriving DecidableEq, Repr

/-- The mould besides its limit registers. -/
structure Mould where
  locked : Bool := false
  key : BitVec 256 := 0
  challenge : BitVec 128 := 0
  response : BitVec 256 := 0
  result : Nat := 0
  raises : List PendRaise := []
  lowers : List PendLower := []
  latched : Bool := true
  /-- Per input: tick of the first of its consecutive open samples, none while it reads closed (R460). -/
  openSince : Tab (Option Nat) := []
  /-- Accumulators of the stations in 1/8 nJ and the cells by row * 512 + column (R457). -/
  acc : Tab Nat := []
  cells : Tab MouldCell := []
  /-- First denials and clamps of the running heat that wrote their event (R459). -/
  fieldTold : BitVec 32 := 0
  speedTold : BitVec 32 := 0
  cellTold : BitVec 32 := 0
  powerTold : BitVec 32 := 0
  widthTold : BitVec 256 := 0
  /-- An applied change that the seal store does not hold yet (R469). -/
  storeDirty : Bool := false
  /-- 1 + the cycle in which the interlock latched last, 0 before (the ILK flag of R479). -/
  latchedAt : Nat := 0
  deriving DecidableEq, Repr

end Sys2Proof.Machine
end

