-- ==== Sys2Proof/Machine/Blocks.lean ====
section
/-! DEFINITION. The parts of the state of the blocks that carry a layer: memory, coder, dispatcher, stations, servo,
feedback, imaging, line head and calibration. A field's default value is its value at reset. -/
namespace Sys2Proof.Machine

/-! ### DRAM (chapter 16) -/

/-- What a burst request is for: a request given from outside; a write that nobody waits for, among them one of the ingress
buffer of a pipeline (R545); the write-back of a corrected burst (R546); a read of the patrol scrub, with what its ECC finds
(R548); one burst of a transfer, by the transfer's number. -/
inductive DramClient where
  | outside
  | posted
  | ingress (pipeline : Nat)
  | writeBack
  | scrub (ecc : Nat)
  | transfer (id : Nat)
  deriving DecidableEq, Repr

/-- A burst request. `cls` is 0 RT, 1 ST, 2 BE; `at0` the tick in which its port accepted it (R541). `data` is what a write
carries, in the bytes of `mask`, or what a read in flight brings. -/
structure DramReq where
  port : Nat
  addr : Nat
  write : Bool
  data : BitVec 512
  mask : BitVec 64 := BitVec.allOnes 64
  cls : Nat
  promoted : Bool
  at0 : Nat
  client : DramClient := .outside
  deriving DecidableEq, Repr

/-- What a read of several bursts is for: an access through the BAR2 aperture (R569), the next ingot of the job of ring
`12 + ring` (R558), an archived frame's coded data with its record (R332), a trace record with its count of samples (R274).
A frame's record is without GAP and STATE. -/
inductive TransferUse where
  | aperture
  | ingot (ring : Nat)
  | archive (ctx number : Nat) (record : Nat)
  | trace (channel samples : Nat)
  deriving DecidableEq, Repr

/-- A read of `len` bytes from `addr` under way: bursts still to come, bursts that have come, by index, and whether one of them
failed. -/
structure Transfer where
  id : Nat
  use : TransferUse
  addr : Nat
  len : Nat
  left : Nat
  got : List (Nat × BitVec 512) := []
  failed : Bool := false
  deriving DecidableEq, Repr

/-- Refresh of one rank (R538): debt, bank indices of the open unit still to refresh (all four: none open). -/
structure RankRefresh where
  debt : Nat := 0
  left : BitVec 4 := 15
  /-- Refreshed at 975 ns, and the part reports a temperature above its rated range (R538, R539). -/
  hot : Bool := false
  above : Bool := false
  deriving DecidableEq, Repr

/-- The DRAM controller. Ranks are keyed `2 * subchannel + rank`, banks `32 * that + bank`. -/
structure Dram where
  training : Bool := false
  trained : Bool := false
  fault : Bool := false
  /-- Consecutive failed attempts of the boot (R634). -/
  attempts : Nat := 0
  ranks : Tab RankRefresh := []
  /-- The row open in a bank. -/
  rows : Tab (Option Nat) := []
  /-- Requests that their ports hold, and those accepted, oldest first. -/
  held : List DramReq := []
  queue : List DramReq := []
  inflight : List DramReq := []
  /-- Reads that wait for a burst of the peer (R547). -/
  repairs : List DramReq := []
  drain : BitVec 2 := 0
  /-- Per port: tick of the last filling, and what its bucket lacks then, in thousandths of a byte (R543). -/
  buckets : Tab (Nat × Nat) := []
  /-- Bursts by address / 64; none: not written since training. -/
  mem : Tab (Option (BitVec 512)) := []
  /-- The run's count of free values when training began, which tells one training from the next (log entry 12). -/
  start : Nat := 0
  /-- Ports and the forced refresh that have written their event in this heat (R538, R541). -/
  missTold : BitVec 10 := 0
  forcedTold : Bool := false
  /-- Reads of several bursts under way, and the number of the next one. -/
  transfers : List Transfer := []
  transferCount : Nat := 0
  /-- Where the next archived frame and the next trace record are staged, from the start of their places (R536). -/
  cameraAt : Nat := 0
  traceAt : Nat := 0
  deriving DecidableEq, Repr

/-! ### Ingot coder (chapter 17) -/

/-- A job of ring `12 + r` (R558 to R561). -/
structure CoderJob where
  entry : Entry
  /-- Paused as OUT_STARVED. -/
  starved : Bool
  decode : Bool
  /-- Next ingot, ingots coded, bytes written, descriptors moved to. -/
  next : Nat
  coded : Nat
  bytes : Nat
  moved : Nat
  /-- The chain in use: its host address, its count of descriptors, and how many the job has moved to. -/
  chainAddr : Nat
  chainCount : Nat
  taken : Nat
  outDev : Bool
  /-- The buffer in use: address, bytes left, bytes written. -/
  buffer : Option (Nat × Nat × Nat)
  /-- The stream's samples, newest first, up to 4,096 (R553). -/
  history : List Word
  /-- The ingot coded, or the bytes of the samples decoded, that found no buffer. -/
  held : List Byte
  /-- The next descriptor is being read, in the middle of an ingot (R559). -/
  reading : Bool := false
  /-- The transfer that brings the next ingot's input from DRAM. -/
  input : Option Nat := none
  /-- ABANDON waits for the ingot boundary (R561). -/
  ending : Bool := false
  deriving DecidableEq, Repr

structure Coder where
  jobs : Tab (Option CoderJob) := []
  /-- The ring whose turn it is on E5, 0 for ring 12. -/
  turn : Nat := 0
  deriving DecidableEq, Repr

/-! ### Heats (chapters 01, 03, 04, 05) -/

/-- A heat as its entries stage it. Lines are keyed `8192 * pass + line`. -/
structure Heat where
  number : BitVec 32 := 0
  ring : Nat := 0
  report : Bool := false
  thickness : BitVec 32 := 0
  passCount : Nat := 0
  /-- Its staging slot (R91). -/
  slot : Nat := 0
  islands : List (BitVec 512) := []
  pours : List (BitVec 256) := []
  recoat : Option (BitVec 512) := none
  /-- The PASS entries, in order. -/
  passes : List Entry := []
  lines : Tab (List Byte) := []
  deriving DecidableEq, Repr

/-- What a heat submission ring is doing (R87, R94, R95): 0 no heat open, 1 heat open, 2 entries of a rejected heat
are consumed, 3 of a cancelled one, 4 the close waits for the standby. -/
structure Submission where
  mode : Nat := 0
  number : BitVec 32 := 0
  /-- Index of the HEAT_CLOSE entry that waits (mode 4). -/
  closeIndex : Nat := 0
  deriving DecidableEq, Repr

/-- An island of the running heat (R110): 0 STAGED, 1 READY, 2 COMMITTED, 3 ACTIVE, 4 DONE, 5 STRANDED, 6 ABANDONED,
7 INTERRUPTED. Patch islands are keyed `65536 + patch index`. -/
structure IslandRun where
  state : Nat := 0
  blockedSince : Option Nat := none
  promoted : Bool := false
  station : Nat := 0
  /-- Decision cycle, reservation in W, cycle of the first pour, optical energy delivered in 1/8 nJ. -/
  decided : Nat := 0
  reserved : Nat := 0
  began : Nat := 0
  energy : Nat := 0
  deriving DecidableEq, Repr

/-- A decision of a cycle that applies at the start of the next (R140): cycle, island key, station, reservation, whether
promoted. -/
structure Decision where
  cycle : Nat
  key : Nat
  station : Nat
  reserved : Nat
  promoted : Bool
  deriving DecidableEq, Repr

/-- The running heat. `stroke`: 0 lowering and dosing, 1 forward stroke, 2 carriage at FAR_Y, 3 return stroke,
4 parked. -/
structure Run where
  heat : Heat
  started : Nat
  stroke : Nat := 0
  spread : Bool := false
  isl : Tab IslandRun := []
  /-- Patch islands: descriptor and pours. -/
  patches : List (BitVec 512 × List (BitVec 256)) := []
  /-- Pass whose turn it is, whether its reservation is pending, held, refused; passes fired. -/
  pass : Nat := 0
  passPending : Bool := false
  passHeld : Bool := false
  passRefused : Bool := false
  /-- The cycle at whose start the reservation of a pass that has ended is released (R167, R354). -/
  passFreeAt : Option Nat := none
  /-- The last return stroke to begin is a pass's (R19, R387). -/
  passStroke : Bool := false
  /-- The pass test succeeded or the pass was refused: the return stroke begins at the start of this cycle. -/
  strokeAt : Option Nat := none
  /-- The carriage has stopped at FAR_Y in this cycle (R16, R169). -/
  arrived : Bool := false
  fired : Nat := 0
  abandon : Bool := false
  completed : Nat := 0
  stranded : Nat := 0
  decisions : Nat := 0
  deriving DecidableEq, Repr

/-- Heats, staged and running (R89 to R91). -/
structure Heats where
  sub : Tab Submission := []
  opening : Option Heat := none
  staged : List Heat := []
  running : Option Run := none
  /-- Number of the last heat accepted, if any since reset, and of the running or last heat. -/
  accepted : Option (BitVec 32) := none
  /-- Number of the first HEAT_OPEN accepted since reset (R89). -/
  first : Option (BitVec 32) := none
  current : BitVec 32 := 0
  everStarted : Bool := false
  /-- Cycle in which the last boundary was declared, and the one whose settings wait for the next heat's start (R21). -/
  boundaryAt : Option Nat := none
  settingsOf : Option Nat := none
  deriving DecidableEq, Repr

/-- The dispatcher besides the heat (R112, R119, R140, R159). -/
structure Sched where
  /-- Per station: first cycle of its idle spell. -/
  idleSince : Tab Nat := []
  decision : Option Decision := none
  /-- Stations held for the head promoted island in the last cycle. -/
  heldMask : BitVec 32 := 0
  /-- Cycles without a decision, and the SCH_FAIL counts when they began (R159). -/
  stall : Nat := 0
  failBase : List Nat := [0, 0, 0, 0, 0, 0]
  deriving DecidableEq, Repr

/-- The ladle (R161): level in µJ, short state, held power by holder (station, or 32 for the pass). -/
structure Ladle where
  level : Nat := 0
  short : Bool := false
  held : Tab Nat := []
  lastDraw : Nat := 0
  deriving DecidableEq, Repr

/-- A cell of the thermal map (R177). -/
structure MapCell where
  energy : Nat := 0
  stamp : Nat := 0
  deriving DecidableEq, Repr

/-- The thermal map: cells by row * 512 + column, accumulators of stations (1/8 nJ) and cell columns (pJ). -/
structure Map where
  cells : Tab MapCell := []
  stations : Tab Nat := []
  columns : Tab Nat := []
  /-- Cells as the updates of this cycle leave them, from the start of the next (R177, R181). -/
  updates : List (Nat × MapCell) := []
  /-- The sum of the deposits of the cycle in mJ (R484). -/
  deposited : Nat := 0
  told : Bool := false
  deriving DecidableEq, Repr

/-! ### Stations (chapter 06) -/

/-- The firing and camera fields of a station's command frame (R219, R518); an offset of 0x7FF is no edge. -/
structure Frame where
  gate0 : Bool := false
  on : Nat := 0x7FF
  off : Nat := 0x7FF
  power : Nat := 0
  expose : Bool := false
  expTicks : Nat := 0
  deriving DecidableEq, Repr

/-- A commanded point: position in 2⁻¹⁶ nm, velocity and acceleration in 2⁻¹²⁸ nm per tick and tick²; focus count, and its
own velocity and acceleration in 2⁻⁴⁸ counts per tick and tick². -/
structure Setpoint where
  x : Int := 0
  y : Int := 0
  vx : Int := 0
  vy : Int := 0
  ax : Int := 0
  ay : Int := 0
  along : Int := 0
  focus : Int := 0
  vf : Int := 0
  af : Int := 0
  /-- The focus follows the table along a pour (R205). -/
  onPour : Bool := false
  deriving DecidableEq, Repr

/-- Segments of constant jerk, each with its duration in 2⁻³² ticks, from a position in 2⁻¹²⁸ nm, a velocity and an
acceleration in 2⁻¹²⁸ nm per tick and tick²; the jerks in 2⁻¹²⁸ nm per tick³. -/
structure Profile where
  p : Int
  v : Int
  a : Int
  segs : List (Nat × Int)
  deriving DecidableEq, Repr

/-- A planned motion from `start` to `finish` (absolute, in 2⁻³² ticks). A jump has a profile per axis; a run along a
pour has one along its length (`px`), from arc length `px.p` on. -/
structure Path where
  onPour : Bool
  pour : BitVec 256
  /-- Index of the pour within its island; for a jump, of the pour that it leads to. -/
  index : Nat
  start : Nat
  finish : Nat
  px : Profile
  py : Profile
  /-- End point in 2⁻¹⁶ nm and velocity there in 2⁻¹²⁸ nm per tick. -/
  ex : Int
  ey : Int
  evx : Int
  evy : Int
  /-- Run dark: a DARK pour, the rest after a yield, or a PASSED pour. -/
  dark : Bool
  /-- Focus at its start and end, counts; for a run along a pour, the pour's focus offset. -/
  f0 : Int
  f1 : Int
  /-- The focus speed in 2⁻³² counts per tick and acceleration in 2⁻⁴⁸ per tick² that it was planned with (R206). -/
  flim : Nat × Nat
  /-- The focus of a stop: its deceleration from `f0`, in 2⁻¹²⁸ nm, and the counts per µm in Q16.16 (R266). -/
  fstop : Option (Profile × Int)
  deriving DecidableEq, Repr

/-- Why a station holds (R150, R196, R229, R456). -/
inductive HoldCause where
  | plume | carriage | starved | permission | speed
  deriving DecidableEq, Repr

/-- One station besides its registers. -/
structure Station where
  fault : Bool := false
  /-- Island on the station, the cycle in which its trajectory takes the first pour, and whether it is ACTIVE. -/
  island : Option Nat := none
  execAt : Nat := 0
  active : Bool := false
  /-- The first pour has been taken. -/
  begun : Bool := false
  /-- The setpoint has reached the island's end; the island completes at the next cycle start (R111). -/
  ended : Bool := false
  completeNow : Bool := false
  /-- Pour within the island, pours fetched so far; both at the start of this and of the last cycle (R195). -/
  pour : Nat := 0
  loaded : Nat := 0
  loadedNow : Nat := 0
  loadedBefore : Nat := 0
  pourNow : Nat := 0
  pourBefore : Nat := 0
  /-- The peer's count of the last cycle, while a peer is in lockstep (R195). -/
  peerHeld : Option Nat := none
  /-- R198. -/
  motion : Nat := 0
  path : Option Path := none
  /-- Setpoint that applied at the start of this cycle, and the one computed for the next. -/
  cmd : Setpoint := {}
  next : Setpoint := {}
  /-- The held point is known (R633), and the station has moved since. -/
  placed : Bool := false
  moved : Bool := false
  hold : Option HoldCause := none
  /-- The station rests at its hold point, and it did so as the cycle began (R146). -/
  holding : Bool := false
  heldCell : Bool := false
  /-- Resume point (2⁻¹⁶ nm), and its arc length where a marked pour was left (R150). -/
  resume : Int × Int := (0, 0)
  /-- Where the station holds. -/
  holdAt : Int × Int := (0, 0)
  resumeAt : Option Int := none
  /-- POUR_STARVED has been raised for this wait: the current pour ends at rest (R196). -/
  starvedTold : Bool := false
  settleRun : Nat := 0
  /-- The open compare: the pour whose compare was armed last, whether it waits to fire, was PASSED; FIRE_IF_PASSED acts
  at the next frame; the gate as the compares leave it (R216, R217). -/
  armedPour : Option Nat := none
  armed : Bool := false
  passed : Bool := false
  fireNext : Bool := false
  gateEnd : Bool := false
  /-- The pour on which the gate opened. -/
  gatePour : Nat := 0
  /-- The pour counted last in STN_SHORT_POURS (R220). -/
  shortPour : Option Nat := none
  /-- The power of the last frame sent (R234). -/
  powerSent : Nat := 0
  /-- The run along a pour under way as this computation begins, and those that begin in it: start instant and pour (R224). -/
  runs : List (Nat × Nat) := []
  /-- Frame fields applied at the start of this cycle, and those computed for the next. -/
  applied : Frame := {}
  sent : Frame := {}
  k : Nat := 16384
  kCam : Nat := 16384
  openCycles : Nat := 0
  /-- Tick since which the gate has been open without a break (R224). -/
  openSince : Option Nat := none
  /-- The same as it stood when the cycle began. -/
  openBefore : Option Nat := none
  /-- Measured spot (2⁻¹⁶ nm) and velocity (2⁻³² nm per tick); speed in µm/s (R212). -/
  spotX : Int := 0
  spotY : Int := 0
  spotVx : Int := 0
  spotVy : Int := 0
  speed : Nat := 0
  /-- Spot compare: armed, armed in this cycle, coordinate of the last cycle in nm (R232). -/
  cmpArmed : Bool := false
  cmpNew : Bool := false
  cmpLast : Int := 0
  /-- Active field-correction bank (R210). -/
  bank : Bool := false
  /-- Counts of the held point before a table or drift change, whose move is due (R211, R442). -/
  remap : Option (Nat × Nat) := none
  /-- The uplink payload that arrived in time in this cycle, and the last photodiode sample. -/
  uplink : Option (BitVec 256) := none
  pd : Nat := 0
  /-- Statistics of a usable frame that became ready for this cycle: mean, peak, area. -/
  stats : Option (Nat × Nat × Nat) := none
  arcTold : Bool := false
  /-- A calibration run holds the station (R425, R438); the gate that its step asks for, with the power level; raw
  references in place of the table's: counts and velocities in Q16.16 (R439). -/
  service : Bool := false
  serviceGate : Option Nat := none
  /-- The mould denied the service step its emission in this cycle (R430). -/
  denied : Bool := false
  raw : Option (Int × Int × Int × Int) := none
  deriving DecidableEq, Repr

/-! ### Calibration (chapter 12) -/

/-- In-head references of a station: counts of marks M0 and M1 on X and Y, temperature in 0.1 °C (R435). -/
structure MarkRefs where
  x0 : Nat
  y0 : Nat
  x1 : Nat
  y1 : Nat
  temp : Int
  deriving DecidableEq, Repr

/-- A drift term: offsets in counts, gains in 2⁻²⁴ (R440). -/
structure DriftTerm where
  offX : Int := 0
  gainX : Nat := 16777216
  offY : Int := 0
  gainY : Nat := 16777216
  temp : Int := 0
  deriving DecidableEq, Repr

/-- Corrections of one station; staged results with the cycle in which they were staged. -/
structure CalStation where
  refs : Option MarkRefs := none
  refsStaged : Option MarkRefs := none
  term : DriftTerm := {}
  termStaged : Option (DriftTerm × Nat) := none
  /-- T_last of R437. -/
  lastTemp : Option Int := none
  ptrim : Nat := 16384
  ptrimStaged : Option (Nat × Nat) := none
  /-- A DRIFT entry has named the station: its ring and tag (R437). -/
  due : Option (Nat × Nat) := none
  deriving DecidableEq, Repr

/-- A calibration run. `step` is byte 21 of its record (target, level, frame or converter); `phase` and `wait` count
within the step. -/
structure CalRun where
  type : Nat
  target : Nat
  tag : Nat
  ring : Nat
  addr : Nat
  number : Nat := 0
  /-- Cycle at whose start it starts. -/
  startAt : Nat
  started : Bool := false
  /-- The checks made before the run are past. -/
  checked : Bool := false
  /-- The motion state that the station had as the run started (R425). -/
  motion : Nat := 0
  /-- The parameter buffer, or the entry's own bytes. -/
  buffer : List Byte := []
  step : Nat := 0
  phase : Nat := 0
  wait : Nat := 0
  /-- Sums of the measurement under way and their number: codes of the power head, or S, L and pixels of frames. -/
  sumA : Int := 0
  sumB : Int := 0
  count : Nat := 0
  /-- First and last position of a scan with the mark in sight (R439). -/
  first : Option Int := none
  last : Option Int := none
  /-- First rising and last falling edge of a scan (R434). -/
  rise : Option Nat := none
  fall : Option Nat := none
  /-- First and last tick of the scan (R434). -/
  scan : Nat × Nat := (0, 0)
  /-- Positions of the X and Y channel since the scan began, newest first, each with its cycle (R434). -/
  trail : List (Nat × Nat × Nat) := []
  /-- Raw count space (R439): bed point in 2⁻¹⁶ nm from which it is reckoned, counts there, counts now, the service jump
  under way. -/
  base : Int × Int := (0, 0)
  baseCounts : Int × Int := (0, 0)
  counts : Int × Int := (0, 0)
  path : Option Path := none
  /-- Centres measured, oldest first; readings of the levels in mW; cells selected by converter. -/
  marks : List Nat := []
  zero : Int := 0
  readings : List Int := []
  cells : List (BitVec 33) := []
  temp : Int := 0
  /-- Tick from which the station stands at the bed point (R446). -/
  settled : Option Nat := none
  /-- The run has done all its work: a host run ends OK at CAL_RUN_END. -/
  done : Bool := false
  detail : Nat := 0
  deriving DecidableEq, Repr

/-- Calibration besides its registers. -/
structure Cal where
  stations : Tab CalStation := []
  run : Option CalRun := none
  drifts : Tab (Option CalRun) := []
  runs : Nat := 0
  /-- Axis-0 position of PARK_Y of the last recoat record, 0 before the first heat (R428). -/
  park : Int := 0
  /-- Converter cells in use, by converter, as masks of 33 (R450), and those that wait for the next enable. -/
  cells : Tab (BitVec 33) := []
  cellsStaged : Tab (Option (BitVec 33)) := []
  /-- Threshold codes of the PLT_IN comparators (R421). -/
  dac : Tab Nat := []
  /-- PLT_IN levels and their last edges of this cycle: input, tick, rising; used from the next cycle (R427). -/
  levels : BitVec 16 := 0
  edges : List (Nat × Nat × Bool) := []
  edgesNext : List (Nat × Nat × Bool) := []
  /-- Power-head code in use, if any (R443). -/
  code : Option Int := none
  codeNext : Option Int := none
  deriving DecidableEq, Repr

/-! ### Position feedback (chapter 08) -/

/-- One feedback channel besides its registers. Positions are counts modulo 2³². -/
structure Channel where
  pos : Nat := 0
  phi : Nat := 0
  /-- A sample has been used since the enable, and samples since that one. -/
  started : Bool := false
  gap : Nat := 0
  negative : Bool := false
  ext : Nat := 0
  /-- Tick of the last used sample. -/
  time : Nat := 0
  /-- Latest edges: count and tick. -/
  e1 : Option (Nat × Nat) := none
  e2 : Option (Nat × Nat) := none
  /-- Edges of the longest level-0 window, newest first: cycle and direction. -/
  edges : List (Nat × Bool) := []
  /-- 0 NORMAL, 1 FALLBACK, 2 STANDSTILL. -/
  level : Nat := 2
  v0 : Int := 0
  v1 : Int := 0
  /-- Cycle of the last edge, the last reversal or the enable. -/
  since : Nat := 0
  index : Bool := false
  indexPos : Nat := 0
  homed : Bool := false
  stale : Bool := false
  fault : Bool := false
  /-- Enabled again after a fault, and no sample used since (R639). -/
  idle : Bool := false
  cause : Nat := 0
  ampRun : Nat := 0
  amp : Nat := 0
  /-- What the cycle reports: position and speeds (R282). -/
  repPos : Nat := 0
  repV0 : Int := 0
  repV1 : Int := 0
  /-- The shift that homing made in this cycle (R299). -/
  shift : Nat := 0
  /-- On a standby: the phase of its own last local sample, and its tick; position, phase and prediction from which R285
  takes the step of the last used sample (R283). -/
  ownPhi : Nat := 0
  ownTick : Nat := 0
  base : Nat × Nat × Int := (0, 0, 0)
  /-- On a local channel: the last samples used, newest first: tick and position (R358). -/
  trail : List (Nat × Nat) := []
  deriving DecidableEq, Repr

/-- One emulation output besides its registers. `ab` is the place in the quadrature sequence 00, 10, 11, 01. -/
structure Emu where
  acc : Int := 0
  backlog : Int := 0
  ab : Nat := 0
  lag : Bool := false
  /-- 1 + the tick at which its last window began. -/
  last : Nat := 0
  /-- The steps of the newest sample, and the tick from which they may be emitted (R301). -/
  newSteps : Int := 0
  newFrom : Nat := 0
  deriving DecidableEq, Repr

/-! ### Servo engine (chapter 07) -/

/-- A program with its banks and tables (R243, R259), by 32-bit word: header and instructions as the window lays them
out (words 0 to 527), coefficients by 256 · bank + index, friction and cogging entries. -/
structure Program where
  words : Tab Word := []
  coefs : Tab Word := []
  fric : Tab Word := []
  cog : Tab Word := []
  deriving DecidableEq, Repr

/-- One servo axis besides its registers. -/
structure Axis where
  active : Program := {}
  staged : Program := {}
  /-- Work words, accumulators of INTEG instructions (by place, Q16.48), filter states (by filter, Q16.48), and the
  input and output that a filter's deferred update waits with. -/
  work : Tab Int := []
  acc : Tab Int := []
  filt : Tab (Int × Int) := []
  deferred : Tab (Int × Int) := []
  /-- Operands of the bump chain as used in the last cycle, by instruction. -/
  used : Tab (Int × Int) := []
  pb : Nat := 0
  vb : Nat := 0
  tb : Nat := 0
  region : Nat := 0
  bank : Nat := 0
  /-- The bands are set without hysteresis at the next evaluation. -/
  fresh : Bool := true
  holdRun : Nat := 0
  fault : Bool := false
  /-- Enabled again after a fault, and not computed since (R639). -/
  idle : Bool := false
  cause : Nat := 0
  /-- The fault was declared in this cycle by the third hold: this cycle's frame still repeats I_CMD (R264). -/
  lastHold : Bool := false
  iCmd : Int := 0
  held : Bool := false
  disabled : Bool := true
  satRun : Nat := 0
  ferrRun : Nat := 0
  posErr : Int := 0
  /-- Inputs as last sampled: REF_POS, REF_VEL, REF_ACC, MEAS_POS, MEAS_VEL, direction sign, temperature, current. -/
  refPos : Nat := 0
  refVel : Int := 0
  refAcc : Int := 0
  measPos : Nat := 0
  measVel : Int := 0
  sign : Int := 0
  temp : Int := 0
  ampI : Int := 0
  ampFault : Bool := false
  /-- A hold, a fault or a bank change in this cycle (R272). -/
  event : Bool := false
  /-- The station's lane has been lost since the last computation (R265). -/
  laneLost : Bool := false
  /-- I_CMD of the previous cycle (R246), and the one that the last frame sent carries (R278). -/
  prevOut : Int := 0
  sentOut : Int := 0
  /-- The bank before the last change, and the cycle from which the bank applies (R256). -/
  bankBefore : Nat := 0
  bankFrom : Nat := 0
  /-- A program without KEEP_STATE begins: every state is 0 for its first PRE window (R252). -/
  zeroDue : Bool := false
  /-- The reference has been set at the first enable after reset (R633); it is held there until then. -/
  placed : Bool := false
  /-- Work words, accumulators and filter states before the PRE window of the cycle (R263). -/
  savedWork : Tab Int := []
  savedAcc : Tab Int := []
  savedFilt : Tab (Int × Int) := []
  deriving DecidableEq, Repr

/-- A trace channel: samples newest first, each with its cycle. -/
structure Trace where
  armed : Bool := false
  armedAt : Nat := 0
  fired : Bool := false
  /-- A manual fire that takes effect in this cycle. -/
  fireNow : Bool := false
  samples : List (Nat × Word) := []
  /-- The last value of the trigger signal. -/
  last : Option Int := none
  /-- Cycle of the trigger sample; samples that a snapshot still takes. -/
  fireCycle : Nat := 0
  left : Nat := 0
  /-- Samples of the record that a stream is filling, oldest first, with the place of the trigger among them. -/
  pack : List (Nat × Word) := []
  trigAt : Option Nat := none
  /-- Samples were lost before the next record (R275, R276), and the gap has been told. -/
  gap : Bool := false
  told : Bool := false
  deriving DecidableEq, Repr

/-! ### Imaging (chapter 09) -/

/-- An open frame of a context. -/
structure CamFrame where
  /-- SOF tick, and the frame's number (R311; of an overview frame, that of its Frame Start packet). -/
  sof : Nat
  number : Nat
  /-- Coaxial: exposure start cycle, exposure length in ticks. -/
  start : Nat := 0
  exposure : Nat := 0
  /-- The context's registers and tables in force at its SOF (R339), by offset. -/
  regs : Tab Word
  tables : Tab Word
  /-- Pixel codes of the accepted rows, and the rows that wait in the FIFO. -/
  lines : Tab (List (BitVec 12)) := []
  waiting : List Nat := []
  /-- Lines of the right shape that have arrived in an overview frame (R319). -/
  arrived : Nat := 0
  long : Bool := false
  overflow : Bool := false
  sat : Bool := false
  /-- Travel direction in Q1.14 (R328). -/
  ux : Int := 16384
  uy : Int := 0
  /-- The gate was open during the whole exposure and the pour marked at its end has LOOP_HOLD clear (R224). -/
  gated : Bool := false
  deriving DecidableEq, Repr

/-- One context besides its registers. `mode`: 0 in service, 1 TEST, 2 RECOVERY. -/
structure Ctx where
  frames : List CamFrame := []
  mode : Nat := 0
  /-- 1 + the tick of its last SOF. -/
  sofAt : Nat := 0
  /-- No exposure under a new FRAME_PHASE has been commanded yet (R340). -/
  newPhase : Bool := false
  /-- The context's station lane was lost and has not come UP since (R342). -/
  laneLost : Bool := false
  /-- f₀ of R334, and the frames closed so far. -/
  first : Option Nat := none
  closed : Nat := 0
  /-- The next record carries GAP (R335, R336). -/
  gap : Bool := false
  /-- Tables of R344, by word of their 3 KiB. -/
  staged : Tab Word := []
  active : Tab Word := []
  deriving DecidableEq, Repr

/-- One image pipeline: the IMG clock at which it is free, clocks spent in this cycle, whether an overview line has
started in it. -/
structure Pipeline where
  free : Nat := 0
  clocks : Nat := 0
  overview : Bool := false
  deriving DecidableEq, Repr

/-- The pipelines, and whether an overview port counts as lost. -/
structure Imaging where
  pipes : Tab Pipeline := []
  lost : BitVec 2 := 0
  deriving DecidableEq, Repr

/-! ### Line head (chapter 10) -/

/-- One line-head module: its last in-time uplink, and its share of the gaps. -/
structure LineModule where
  v : Nat := 0
  temps : List Int := []
  cut : BitVec 16 := 0
  /-- The uplink payload that arrived in time in this cycle; uplinks missed in a row. -/
  up : Option (BitVec 960) := none
  late : Nat := 0
  /-- Bring-ups of its lane, and the segments whose base table failed its CRC (R364). -/
  bringUps : Nat := 0
  badTables : BitVec 16 := 0
  deriving DecidableEq, Repr

/-- What a strobe's frames carried: index, tick, per segment FACTOR, CLAMP and OFF, blank rows; the modules that
reported a row missing (R363). -/
structure Strobe where
  index : Nat
  tick : Nat
  factors : List Nat
  clamps : List Nat
  off : BitVec 256
  blankA : Bool
  blankB : Bool
  missA : BitVec 16 := 0
  missB : BitVec 16 := 0
  deriving DecidableEq, Repr

/-- A strobe that the next cycle applies, or this one: its tick, the sum of the widths that fire (R172), and fired
widths in 4 ns by row and cell column (R185). -/
structure StrobeOut where
  index : Nat
  tick : Nat
  widths : Nat
  columns : List (Nat × Nat × Nat)
  fired : Bool := false
  deriving DecidableEq, Repr

/-- A gap: line, column, undelivered width. -/
structure Gap where
  line : Nat
  col : Nat
  u : Nat
  deriving DecidableEq, Repr

/-- A gap accumulator of a module (R378), with the header of its pass. -/
structure Accum where
  header : Entry
  first : Nat
  gaps : List Gap
  deriving DecidableEq, Repr

/-- The pass whose return stroke has begun (R351 to R358). -/
structure Firing where
  header : Entry
  refused : Bool
  /-- The next strobe to compute. -/
  next : Nat := 0
  /-- Tick of strobe 0; strobes planned by issued pacing steps; steps of the pacing axis since that of strobe 0. -/
  t0 : Option Nat := none
  ticks : List (Nat × Nat) := []
  steps : Option Nat := none
  /-- The return stroke has issued its last step. -/
  done : Bool := false
  last : Option Nat := none
  /-- R358 blanks the rest of the pass; its event is written. -/
  blank : Bool := false
  told : Bool := false
  /-- Late lines whose gaps are not taken yet, and all late lines of the last strobes. -/
  unpatched : List Nat := []
  late : List Nat := []
  deriving DecidableEq, Repr

/-- The line head. Lines on chip are keyed by slot: line and the cycle of its fetch. Emitters are numbered
2 * column + row. -/
structure LineHead where
  modules : Tab LineModule := []
  slots : Tab (Option (Nat × Nat)) := []
  firing : Option Firing := none
  history : List Strobe := []
  /-- The last strobe latched, of whatever pass (R389). -/
  latched : Option Strobe := none
  out : Option StrobeOut := none
  applied : Option StrobeOut := none
  /-- Cycle in which a strobe applied last. -/
  lastApplied : Option Nat := none
  derated : BitVec 256 := 0
  accums : Tab (List Accum) := []
  /-- LINES of the peer's record of the last cycle, while two devices compute (R105, R360). -/
  peerLines : Option Nat := none
  /-- Cycle in which the running test started; the frames carry an abort; a test completed since the last strobe. -/
  testing : Option Nat := none
  aborting : Bool := false
  tested : Bool := false
  results : Tab (BitVec 16) := []
  outside : BitVec 16384 := 0
  failed : BitVec 16384 := 0
  selection : BitVec 16384 := 0
  prefStaged : BitVec 8192 := 0
  prefActive : BitVec 8192 := 0
  deriving DecidableEq, Repr

/-! ### What a MIRROR record writes (R501) -/

/-- A part of the holder's on-chip state as a write of its leaves it: what a cycle-critical computation reads besides
registers, tables and the thermal map. -/
inductive MirrorPart where
  | groups (pend : List PendGroup) (live : List LiveWrite)
  | heats (x : Heats)
  | sched (x : Sched)
  | ladle (x : Ladle)
  | station (s : Fin 32) (x : Station)
  | axis (j : Fin 96) (x : Axis)
  | channel (c : Fin 104) (x : Channel)
  | emu (e : Fin 8) (x : Emu)
  | ctx (c : Fin 40) (x : Ctx)
  | imaging (x : Imaging)
  | lineHead (x : LineHead)
  | steppers (x : Stp)
  | mould (x : Mould)
  | calibration (x : Cal)
  | trace (c : Fin 16) (x : Trace)
  /-- TOD: seconds and fraction at a tick (R613). -/
  | timeOfDay (sec frac tick : Nat)
  /-- What DEV_COMMIT_HOLD has left (R52). -/
  | hold (released : Nat) (everHeld boundaryHeld : Bool)
  /-- The thermal map besides its cells. -/
  | map (x : Map)
  /-- Every word of the mirrored pages, as accepted and in use; of the field corrections; every cell of the thermal map. -/
  | registers (acc act : Tab Word)
  | corrections (fct : Tab Word)
  | cells (x : Tab MapCell)
  deriving DecidableEq, Repr

/-- The data of a MIRROR record: one word, or a part of the state with the count of words that carry it. -/
inductive MirrorData where
  | word (w : Word)
  | part (words : Nat) (p : MirrorPart)
  deriving DecidableEq, Repr

/-- State as a holder last sent it to a joining device: the parts, and the tables that it sends by word. -/
structure Mirror where
  parts : List MirrorPart
  acc : Tab Word
  act : Tab Word
  fct : Tab Word
  cells : Tab MapCell
  deriving DecidableEq, Repr

end Sys2Proof.Machine
end

