-- ==== Sys2Proof/Syntax.lean ====
section
/-! DEFINITION. The commands of the block, one constructor per row of spec/opcode_table.json.
The table gives no row any bits; the operands are the ones the rule of each row speaks of. `t` is the
offset in ticks of a command's arrival from the start of the current station cycle (R22, log entry 2);
`r` is the number of a ring within its range (R571). -/
namespace Sys2Proof

/-- How a read of host memory that an entry needs comes back (R567): the bytes read, a failed read, or no
answer yet (the entry then waits for HOST_READ_COMPLETION). -/
inductive HostRead where
  | ok (bytes : List Byte)
  | failed
  | waiting
  deriving DecidableEq, Repr

/-- A raw feedback sample as a partner or a local converter delivers it (R281, R282): sine, cosine, index bit. -/
structure RawSample where
  sin : BitVec 16
  cos : BitVec 16
  index : Bool
  deriving DecidableEq, Repr

/-- A host read of `bytes` bytes at offset `addr` of BAR0 or BAR2 (R28, R62). -/
structure ReadRequest where
  bar2 : Bool := false
  addr : BitVec 28
  bytes : Nat := 4
  deriving DecidableEq, Repr

/-- A read of MR4 (R539): the rate code, and what it reports: a refresh rate above 1x, a temperature above the rated range. -/
structure Mr4Report where
  code : BitVec 8
  fast : Bool
  above : Bool
  deriving DecidableEq, Repr

/-- How a training ends (R549): step 0 on success, else the failing step with its subchannel and rank. -/
structure TrainingEnd where
  step : BitVec 4
  sc : Fin 2 := 0
  rank : Fin 2 := 0
  deriving DecidableEq, Repr

/-- The header of a packet that a CSI-2 port discards (R317): its virtual channel where it can be decoded, and whether it has
been corrected. -/
structure PacketHeader where
  vc : Option (Fin 16)
  corrected : Bool := false
  deriving DecidableEq, Repr

/-- A record of the halyard link arrives (R527): the offset `tick` from the start of the cycle, the lane that carried its first
byte, and whether its TYPE and CRC are right. -/
structure Arrival where
  tick : Nat
  lane : Fin 8 := 0
  intact : Bool := true
  deriving DecidableEq, Repr

/-- A block that a receiver discards (R513, R530): of a reserved type, or with an invalid sync header. -/
inductive BadBlock where
  | reserved (type : BitVec 8)
  | syncHeader
  deriving DecidableEq, Repr

/-- Why a lane is declared lost (R528). -/
inductive LossCause where
  | lockLost
  | markers
  | cycleStarts
  deriving DecidableEq, Repr

/-- The commands the block takes from outside and the events that come about in it, as the table lists them. -/
inductive Instr where
  /-- R629: PORESET_N rises; the strap, the seal store check and TEST_EN as they stand at boot step 2. -/
  | powerOnReset (strapB sealOk testEn : Bool)
  /-- R627: the flash reads are complete; `readsOk`: the SPI flash answered its reads. -/
  | bootRomVerify (sfdpOk : Bool)
  /-- R631: the stage reaches READY. -/
  | bootReady
  /-- R635: the level of RESET_N at tick 1,100. -/
  | resetNSample (low : Bool)
  /-- R635: a write of DEV_RESET. -/
  | devResetWarm (t : Nat) (value : Word)
  /-- R636: the warm reset of tick 1,125. -/
  | warmReset
  /-- R656: the root PLL loses lock. -/
  | rootPllLockLoss
  /-- R42: a BAR0 write of `bytes` bytes (4 or 8 are the accepted widths) at BAR0 offset `addr`. -/
  | registerWrite (t : Nat) (addr : BitVec 22) (bytes : Nat) (data : Long)
  /-- R28, R29, R62: a host read; the row's own is the 32-bit read of the low word of a 64-bit register. -/
  | lowWordRead (t : Nat) (request : ReadRequest)
  /-- R48: a write of `value` to COMMIT of page `page`. -/
  | commitWrite (t : Nat) (page : Fin 1024) (value : Word)
  /-- R44: the boundary of a pending group of a page. -/
  | commitApply (page : Fin 1024) (group : Fin 32)
  /-- R45: the Live writes accepted three cycles ago take effect. -/
  | liveWriteApply
  /-- R52: a write of DEV_COMMIT_HOLD. -/
  | devCommitHold (t : Nat) (value : Word)
  /-- R63: a 32-bit write at BAR2 offset `addr`. -/
  | bar2TableWrite (t : Nat) (addr : BitVec 28) (data : Word)
  /-- R89: HEAT_OPEN on heat ring `r`. -/
  | heatOpen (t : Nat) (r : Fin 4) (e : Entry)
  /-- R92: ISLANDS on heat ring `r`. -/
  | islands (t : Nat) (r : Fin 4) (e : Entry) (rd : HostRead)
  /-- R92: POURS on heat ring `r`. -/
  | pours (t : Nat) (r : Fin 4) (e : Entry) (rd : HostRead)
  /-- R82: RECOAT on heat ring `r`. -/
  | recoat (t : Nat) (r : Fin 4) (e : Entry) (rd : HostRead)
  /-- R84: PASS on heat ring `r`. -/
  | pass (t : Nat) (r : Fin 4) (e : Entry)
  /-- R93: HEAT_CLOSE on heat ring `r`. -/
  | heatClose (t : Nat) (r : Fin 4) (e : Entry)
  /-- R93: the standby confirms the staged heat of ring `r`. -/
  | standbyHeatConfirm (t : Nat) (r : Fin 4)
  /-- R95: HEAT_CANCEL on heat ring `r`. -/
  | heatCancel (t : Nat) (r : Fin 4) (e : Entry)
  /-- R90: heat ring `r` resumes reading. -/
  | heatRingResume (t : Nat) (r : Fin 4)
  /-- R102: LINES on line-data ring `4 + r`. -/
  | lines (t : Nat) (r : Fin 4) (e : Entry) (rd : HostRead)
  /-- R14: the heat starts. -/
  | heatStart
  /-- R398: the heat moves that wait start. -/
  | heatMoveStart
  /-- R399: the move of `axis` has issued its last step. -/
  | stepperMoveEnd (t : Nat) (axis : Fin 12)
  /-- R170: the pending pass reservation is tested. -/
  | passTest
  /-- R354: the pass ends. -/
  | passEnd (t : Nat)
  /-- R20: the heat boundary is declared. -/
  | heatBoundary
  /-- R22: a station cycle begins; the 16 supply monitor readings of R621 and the power-head code of offset 0 (R421). -/
  | cycleStart (supplies : Vector (BitVec 16) 16) (head : BitVec 24)
  /-- R262: tick 300. -/
  | uplinkDeadline
  /-- R23: tick 800. -/
  | commandFrameSend
  /-- R476: tick 1,100; whether every frame was sent and whether an uncorrectable SRAM error was found. -/
  | watchdogCheck (framesSent sramError : Bool)
  /-- R475: tick 1,150; the two peer pins. -/
  | peerPinSample (health ensign : Bool)
  /-- R159: the stall limit is reached. -/
  | dispatchStalled
  /-- R151: the holding station `s` resumes. -/
  | holdResume (s : Fin 32)
  /-- R226: the power loop of station `s` went stale. -/
  | loopStale (s : Fin 32)
  /-- R158: a write of SCH_RUN takes effect with ABANDON set. -/
  | schRunAbandon
  /-- R194: a pour record reaches the prefetch buffer of station `s`. -/
  | pourPrefetch (s : Fin 32)
  /-- R271: a write of SRV_TRACE_ARM takes effect. -/
  | srvTraceArm (mask : Word)
  /-- R272: a write of SRV_TRACE_FIRE takes effect. -/
  | srvTraceFire (mask : Word)
  /-- R520: an uplink frame of station `s`: header, 32-byte payload, check. -/
  | stationUplinkFrame (t : Nat) (s : Fin 32) (hdr : BitVec 56) (payload : BitVec 256) (chk : Long)
  /-- R368: an uplink frame of line-head module `m`: header, 120-byte payload, check. -/
  | lineHeadUplinkFrame (t : Nat) (m : Fin 16) (hdr : BitVec 56) (payload : BitVec 960) (chk : Long)
  /-- R282: a sample of local channel `96 + ch`. -/
  | localChannelSample (t : Nat) (ch : Fin 8) (smp : RawSample)
  /-- R296: channel `ch` saw no edge for TIMEOUT cycles. -/
  | standstillTimeout (ch : Fin 104)
  /-- R301: an emission window of emulation output `e`. -/
  | emuEmission (t : Nat) (e : Fin 8)
  /-- R314: a camera block on the lane of station `s`: header, data blocks, whether a sync header in it was invalid. -/
  | cameraBlock (t : Nat) (s : Fin 32) (hdr : BitVec 56) (data : List Long) (broken : Bool)
  /-- R309: pipeline `p` is free and starts a line. -/
  | pipelineLineStart (p : Fin 4)
  /-- R315: the oldest open coaxial frame of context `c` closes. -/
  | coaxialFrameClose (c : Fin 32)
  /-- R319: a Frame Start packet on overview port `p`, virtual channel `vc`; `corrected`: its header needed a correction
  (R317), as in the next two. -/
  | csi2FrameStart (t : Nat) (p : Fin 2) (vc : Fin 16) (frameNo : BitVec 16) (corrected : Bool)
  /-- R318: a long packet of data type `dt` with the unpacked pixels it carries. -/
  | csi2Line (t : Nat) (p : Fin 2) (vc : Fin 16) (dt : BitVec 6) (pixels : List (BitVec 16)) (corrected : Bool)
  /-- R319: a Frame End packet. -/
  | csi2FrameEnd (t : Nat) (p : Fin 2) (vc : Fin 16) (frameNo : BitVec 16) (corrected : Bool)
  /-- R317: a packet of port `p` that is discarded; its virtual channel, if the header still tells it. -/
  | csi2PacketError (t : Nat) (p : Fin 2) (kind : BitVec 2) (header : PacketHeader)
  /-- R341: a write of CTX_RUN.TEST takes effect on context `c`. -/
  | ctxRunTest (c : Fin 40) (on : Bool)
  /-- R342: a write of CTX_RUN.RECOVER takes effect on context `c`. -/
  | ctxRunRecover (c : Fin 40)
  /-- R359: the next staged line is fetched. -/
  | lineFetch
  /-- R351: the strobe of the next line fires. -/
  | lineStrobe
  /-- R378: the oldest gap accumulator of module `m` that is due closes. -/
  | accumulatorClose (m : Fin 16)
  /-- R382: the idle emitter test starts. -/
  | emitterTestStart
  /-- R384: the emitter test completes. -/
  | emitterTestDone
  /-- R395: STP_MOVE with kind POSITION takes effect for the axes of `mask`. -/
  | stpMovePosition (mask : BitVec 12)
  /-- R395: STP_MOVE with kind VELOCITY takes effect. -/
  | stpMoveVelocity (mask : BitVec 12)
  /-- R395: STP_MOVE with kind STOP takes effect. -/
  | stpMoveStop (mask : BitVec 12)
  /-- R399: the step timer of `axis` expires. -/
  | stepIssue (t : Nat) (axis : Fin 12)
  /-- R410: a write of SAX_CMP takes effect on `axis`. -/
  | saxCmpArm (axis : Fin 12) (value : Word)
  /-- R412: the sense of a coil reaches its threshold. -/
  | chopperSenseTrip (t : Nat) (axis : Fin 12) (coil : Fin 2)
  /-- R412: the blanking time of a coil expires; whether the sense stands at or above the threshold. -/
  | chopperBlankEnd (t : Nat) (axis : Fin 12) (coil : Fin 2) (above : Bool)
  /-- R412: a decay time of a coil expires. -/
  | chopperOffTimeEnd (t : Nat) (axis : Fin 12) (coil : Fin 2)
  /-- R414: the dead time of a coil expires. -/
  | gateDeadTimeEnd (t : Nat) (axis : Fin 12) (coil : Fin 2)
  /-- R411: HOLD_DELAY cycles have passed since the last step of `axis`. -/
  | holdCurrentTimeout (axis : Fin 12)
  /-- R460: interlock input `i` is sampled open. -/
  | ilkInputOpen (t : Nat) (i : Fin 4)
  /-- R461: an input in use has been open for FILTER ticks. -/
  | interlockLatch (t : Nat)
  /-- R462: a REARM takes effect. -/
  | mldIlkRearm
  /-- R464: a write to a mould limit at offset `off`. -/
  | mldLimitWrite (t : Nat) (off : BitVec 12) (value : Word)
  /-- R468: a RAISE operation is written to MLD_AUTH. -/
  | mldAuthRaise (t : Nat)
  /-- R467: an UNSEAL operation is written to MLD_AUTH. -/
  | mldAuthUnseal (t : Nat)
  /-- R467: SEAL is written to MLD_AUTH. -/
  | mldSeal (t : Nat)
  /-- R467: word `i` of the seal key is written. -/
  | mldKeyWrite (t : Nat) (i : Fin 8) (value : Word)
  /-- R469: the changed mould state is committed to the seal store. -/
  | sealStoreWrite
  /-- R477: the take condition of a SEEKING device holds. -/
  | ensignTake
  /-- R501: JOIN is written to PAR_CMD. -/
  | parCmdJoin (t : Nat)
  /-- R486: LEAVE is written to PAR_CMD. -/
  | parCmdLeave (t : Nat)
  /-- R497: SWAP is written to PAR_CMD. -/
  | parCmdSwap (t : Nat)
  /-- R497: CANCEL_SWAP is written to PAR_CMD. -/
  | parCmdCancelSwap (t : Nat)
  /-- R498: the holder must yield, for the cause given. -/
  | yield (cause : BitVec 8)
  /-- R479: the peer's CYCLE record arrives: 600 bytes, byte 0 in bits 7..0; the offset of the cycle starts in ticks as
  the link measures it (R483). -/
  | cycleRecord (t : Arrival) (rec : BitVec 4800) (skew : BitVec 16)
  /-- R59: a forwarded write arrives: the write's cycle, BAR, address and data. -/
  | writeRecord (t : Arrival) (cycle : Nat) (bar2 : Bool) (addr : BitVec 28) (data : Word)
  /-- R283: a forwarded local sample, edge, power-head code or challenge arrives. -/
  | sampleRecord (t : Arrival) (kind : BitVec 8) (index : BitVec 8) (tick : Long) (data : BitVec 128)
  /-- R478: a BULK record arrives: DRAM bytes at `addr` (`entry` none), or an entry of heat submission ring `addr` (0 to
  3), of line-data ring `addr` (4 to 7) or of load ring `addr` (8, 9) that the holder took, with its data. -/
  | bulkRecord (t : Arrival) (entry : Option Entry) (addr : Long) (bytes : List Byte)
  /-- R501: a MIRROR record writes the word at `addr` of the holder's on-chip state, or a part of it. -/
  | mirrorRecord (t : Arrival) (addr : Nat) (data : Machine.MirrorData)
  /-- R502: a HELLO record arrives: its 27 bytes, and whether seal state, key and active limits agree (R470) and the
  revisions in use are supported, which the record does not carry. -/
  | hello (t : Arrival) (rec : BitVec 216) (sealSame revOk : Bool)
  /-- R501: every word of the DRAM copy has been copied once. -/
  | joinCopyDone
  /-- R501: a clean cycle in MIRROR with every lane up. -/
  | joinLockstep
  /-- R488: REJOIN_DELAY cycles have passed since the device left lockstep. -/
  | autoRejoin
  /-- R524: a lane meets the pass condition of its bring-up stage; of a line-head module coming UP, the segments whose
  base table failed its CRC (R364). -/
  | laneStagePass (t : Nat) (lane : Fin 56) (badTables : BitVec 16)
  /-- R526: a refused lane restarts. -/
  | laneIdRetry (t : Nat) (lane : Fin 56)
  /-- R524: a stage took longer than 10 ms. -/
  | laneStageTimeout (t : Nat) (lane : Fin 56)
  /-- R528: a lane is lost. -/
  | laneLost (t : Nat) (lane : Fin 56) (cause : LossCause)
  /-- R514: a MARKER block as the receiver sees it: bits 55..0 its payload, bit 56 set where it arrives complemented (R525). -/
  | marker (t : Nat) (lane : Fin 56) (block : Long)
  /-- R513: a CYCLE_START block in slot 0, with the round trip measured on it in 1/16 tick (R512). -/
  | cycleStartBlock (t : Nat) (lane : Fin 56) (block : Long) (roundTrip : Nat)
  /-- R513, R530: a block of a reserved type, or one whose sync header is invalid so that it has none. -/
  | unknownBlock (t : Nat) (lane : Fin 56) (block : BadBlock)
  /-- R530: START is written to LAN_EYE. -/
  | lanEyeStart (t : Nat) (lane : Fin 56) (value : Word)
  /-- R530: the scan ends with its table of error counts. -/
  | eyeScanDone (t : Nat) (lane : Fin 56) (table : List Word)
  /-- R549: DRAM training ends; `failStep` 0 where it completed. -/
  | memTrainingDone (t : Nat) (result : TrainingEnd)
  /-- R543: a port asks for a burst of DRAM. -/
  | dramRequest (t : Nat) (port : Fin 10) (addr : BitVec 36) (write : Bool) (data : BitVec 512)
  /-- R541: the requests that reached AGE_LIMIT are promoted. -/
  | dramAgePromotion (t : Nat)
  /-- R542: subchannel `sc` issues a column command. -/
  | dramColumnCommand (t : Nat) (sc : Fin 2)
  /-- R546: the oldest read in flight of `sc` completes, with what its ECC found. -/
  | dramReadComplete (t : Nat) (sc : Fin 2) (ecc : BitVec 2)
  /-- R547: the burst fetched from the peer for the open repair. -/
  | eccPeerRepair (t : Nat) (data : BitVec 512) (ok : Bool)
  /-- R538: a refresh interval of rank `k` of subchannel `sc` passes. -/
  | refreshDebtTick (t : Nat) (sc : Fin 2) (k : Fin 2)
  /-- R539: MR4 of rank `k` of subchannel `sc` is read. -/
  | mr4Read (t : Nat) (sc : Fin 2) (k : Fin 2) (report : Mr4Report)
  /-- R549: the retraining window of rank `k` of subchannel `sc`. -/
  | retrainWindow (t : Nat) (sc : Fin 2) (k : Fin 2)
  /-- R548: the patrol scrub reads its next burst, with what its ECC found. -/
  | patrolScrubRead (t : Nat) (ecc : BitVec 2)
  /-- R558: an ENCODE job entry on ring `12 + r`. -/
  | encode (t : Nat) (r : Fin 2) (e : Entry) (rd : HostRead)
  /-- R558: a DECODE job entry on ring `12 + r`. -/
  | decode (t : Nat) (r : Fin 2) (e : Entry) (rd : HostRead)
  /-- R561: a RESUME entry on ring `12 + r`. -/
  | resume (t : Nat) (r : Fin 2) (e : Entry) (rd : HostRead)
  /-- R556: the next ingot of the encode job of ring `12 + r`. -/
  | ingotEncode (t : Nat) (r : Fin 2) (rd : HostRead)
  /-- R557: the next ingot of the decode job of ring `12 + r`. -/
  | ingotDecode (t : Nat) (r : Fin 2) (rd : HostRead)
  /-- R561: ABANDON is written to ICD_RUN. -/
  | icdJobAbandon (t : Nat) (value : Word)
  /-- R575: a write of RNG_PROD of ring `ring`. -/
  | rngProdDoorbell (t : Nat) (ring : Fin 64) (value : Word)
  /-- R575: a write of RNG_CONS of ring `ring`. -/
  | rngConsDoorbell (t : Nat) (ring : Fin 64) (value : Word)
  /-- R578: a write of RNG_AUX_CONS of ring `ring`. -/
  | rngAuxCons (t : Nat) (ring : Fin 64) (value : Word)
  /-- R577: a queued record of ring `ring` is written. -/
  | ringRecordWrite (t : Nat) (ring : Fin 64)
  /-- R583: the oldest coalescing window ends. -/
  | coalesceWindowEnd
  /-- R586: MOD_TIME of ring `ring` expires. -/
  | msixModerationTimer (t : Nat) (ring : Fin 64)
  /-- R567: the host read on which ring `ring` waits completes or fails. -/
  | hostReadCompletion (t : Nat) (ring : Fin 64) (rd : HostRead)
  /-- R568: the link retrains lower. -/
  | linkDegraded (t : Nat) (speed : BitVec 3) (width : BitVec 4)
  /-- R568: the link goes down. -/
  | linkDown (t : Nat)
  /-- R587: a LOAD entry on ring `8 + r`. -/
  | load (t : Nat) (r : Fin 2) (e : Entry) (rd : HostRead)
  /-- R588: IDENTIFY on mailbox ring `20 + r`. -/
  | identify (t : Nat) (r : Fin 4) (e : Entry)
  /-- R588: ECHO on mailbox ring `20 + r`. -/
  | echo (t : Nat) (r : Fin 4) (e : Entry)
  /-- R588: any other opcode on mailbox ring `20 + r`. -/
  | mailboxUnsupported (t : Nat) (r : Fin 4) (e : Entry)
  /-- R433: PLATE on calibration ring `16 + r`. -/
  | plate (t : Nat) (r : Fin 2) (e : Entry) (rd : HostRead)
  /-- R444: POWER on calibration ring `16 + r`. -/
  | power (t : Nat) (r : Fin 2) (e : Entry) (rd : HostRead)
  /-- R446: BLACKBODY on calibration ring `16 + r`. -/
  | blackbody (t : Nat) (r : Fin 2) (e : Entry) (rd : HostRead)
  /-- R450: TRIM on calibration ring `16 + r`. -/
  | trim (t : Nat) (r : Fin 2) (e : Entry) (rd : HostRead)
  /-- R437: DRIFT on calibration ring `16 + r`. -/
  | drift (t : Nat) (r : Fin 2) (e : Entry) (rd : HostRead)
  /-- R425: the next host run starts. -/
  | calRunStart
  /-- R438: the due drift run of station `s` starts. -/
  | driftRunStart (s : Fin 32)
  /-- R431: the host run ends. -/
  | calRunEnd
  /-- R430: a write of CAL_RUN with ABORT takes effect. -/
  | calRunAbort
  /-- R444: the staged results that are due apply. -/
  | calResultApply
  /-- R421: an edge of plate comparator `i`. -/
  | pltInEdge (t : Nat) (i : Fin 16) (rising : Bool)
  /-- R615: a rising edge of PPS_IN. -/
  | ppsEdge (t : Nat)
  /-- R617: 1.5 s without an accepted edge. -/
  | ppsLoss (t : Nat)
  /-- R610: the TOD nanoseconds wrap. -/
  | wholeSecondCrossing (t : Nat)
  /-- R618: WIDTH ticks after the rise of PPS_OUT. -/
  | ppsOutFall (t : Nat)
  /-- R611: a write of TIM_SET_SECONDS. -/
  | timSetSeconds (t : Nat) (value : Long)
  /-- R612: a read of the low word of TIM_TICK. -/
  | timTickLowRead (t : Nat)
  /-- R620: the 24 die sensors are sampled. -/
  | temperatureSample (readings : Vector (BitVec 16) 24)
  /-- R621: ring oscillator `k` completes its count. -/
  | ringOscCount (t : Nat) (k : Fin 8) (count : Word)
  /-- R592: HOIST is written to REC_CMD. -/
  | recManualHoist (t : Nat)
  /-- R605: HIST_RESET is written to REC_CMD. -/
  | recHistReset (t : Nat)
  /-- R603: CLEAR is written to REC_CMD. -/
  | recClear (t : Nat)
  /-- R603: CLEAR_AND_UNKEY is written to REC_CMD. -/
  | recClearAndUnkey (t : Nat)
  /-- R601: word `i` of the clear key is written. -/
  | recKeyWrite (t : Nat) (i : Fin 8) (value : Word)
  /-- R604: the histogram period passes. -/
  | histogramSample
  /-- R640: a read of DEV_FLASH_DATA. -/
  | devFlashDataRead (t : Nat)
  /-- R641: a write of DEV_FLASH_DATA. -/
  | devFlashDataWrite (t : Nat) (value : Word)
  /-- R641: a write of DEV_FLASH_CTL with ERASE set. -/
  | devFlashErase (t : Nat) (value : Word)
  /-- R641: the erase or program under way completes. -/
  | flashOperationDone (t : Nat) (ok : Bool)
  /-- R650: PORESET_N falls. -/
  | poresetNLow
  /-- R568: the link trains. -/
  | pcieLinkUp (t : Nat) (speed : BitVec 3) (width : BitVec 4)
  /-- R460: interlock input `i` is sampled closed. -/
  | ilkInputClosed (t : Nat) (i : Fin 4)
  /-- R345: overview port `p` loses HS sync. -/
  | csiSyncLost (t : Nat) (p : Fin 2)
  /-- R342: overview port `p` regains synchronisation. -/
  | csiPortReturn (t : Nat) (p : Fin 2)
  /-- R566: the endpoint logs an error. -/
  | pcieErrorLogged (t : Nat) (correctable : Bool)
  deriving DecidableEq, Repr

end Sys2Proof
end

