-- ==== Sys2Proof/Machine/State.lean ====
section
/-! DEFINITION. The whole state, the ways a step can stop, and the state after reset. -/
namespace Sys2Proof.Machine

/-- What the device sent out during the last command. -/
inductive Out where
  /-- A record written to entry `index` of a ring, which lies at host address `addr` (R570). -/
  | record (ring index addr : Nat) (data : Entry)
  /-- The bitmap of an event record of that entry, written before it, by its host address (R579). -/
  | bitmap (ring index addr : Nat) (data : BitVec 512)
  /-- Data written to the host: tap data in a ring's data area (R578), coder output (R558), by address. -/
  | host (addr : Nat) (bytes : List Byte)
  /-- An MSI-X message (R586). -/
  | msix (vector : Nat)
  /-- A frame on a physical lane: the type and payload of its header block, the check block and the payload blocks (R513,
  R515). -/
  | frame (lane type hdr check payload : Nat)
  /-- A control block on a physical lane (R513). -/
  | block (lane type payload : Nat)
  /-- A record on the halyard link: its TYPE, and all its bytes from TYPE to the CRC-32 (R527). -/
  | halyard (type : Nat) (bytes : List Byte)
  /-- State that a holder copies to a joining device: in BULK records, or in MIRROR records (R501; log entry 27). -/
  | mirror (bulk : Bool) (addr : Nat) (data : MirrorData)
  /-- A step of a stepper axis, with its direction (R399). -/
  | step (axis : Nat) (negative : Bool)
  /-- Edges of an emulation output in the coming window: ticks, and the direction (R301). -/
  | edges (output : Nat) (ticks : List Nat) (negative : Bool)
  /-- A burst request of a DRAM port is done: its data, and whether the read failed (R547). -/
  | dram (port addr : Nat) (data : BitVec 512) (failed : Bool)
  /-- A completion of a BAR2 read of so many bytes with the poisoned (EP) bit set (R547). -/
  | poisoned (bytes : Nat)
  /-- The word that a 32-bit read of a register returned. -/
  | read (data : Word)
  /-- The bytes that a read of another width or of BAR2 returned, lowest address first (R28, R62). -/
  | bytes (data : List Byte)
  deriving DecidableEq, Repr

/-- The state of one ring besides its registers. -/
structure Ring where
  queue : List QRec := []
  seq : BitVec 32 := 0
  fault : Bool := false
  /-- Enabled again after a fault, and no entry taken since (R639). -/
  idle : Bool := false
  unsignalled : Nat := 0
  oldest : Nat := 0
  /-- The entry command that waits at CONS: for a host read (R567), or, with `begun` false, for its turn. -/
  parked : Option Instr := none
  /-- The device has begun to act on that entry: it is consumed whole, whatever becomes of the ring (R576). `at0` is its
  position, `stale` that the ring has been enabled anew since. -/
  begun : Bool := false
  at0 : Nat := 0
  stale : Bool := false
  deriving DecidableEq, Repr

/-- The device without its queue of commands and its non-volatile stores. -/
structure Dev where
  /-- TIM_TICK (R608). -/
  tick : Nat := 0
  regs : RegFile := {}
  rings : Tab Ring := []
  hif : Hif := {}
  recorder : Recorder := {}
  tim : Timebase := {}
  mon : Monitors := {}
  boot : Boot := {}
  par : Par := {}
  lanes : Tab Lane := []
  stp : Stp := {}
  mould : Mould := {}
  dram : Dram := {}
  coder : Coder := {}
  heats : Heats := {}
  sched : Sched := {}
  ladle : Ladle := {}
  map : Map := {}
  stations : Tab Station := []
  /-- Field-correction banks: words keyed 16384 * (2 s + bank) + word (R208). -/
  fct : Tab Word := []
  cal : Cal := {}
  channels : Tab Channel := []
  emus : Tab Emu := []
  axes : Tab Axis := []
  traces : Tab Trace := []
  ctxs : Tab Ctx := []
  img : Imaging := {}
  lhd : LineHead := {}
  /-- What a holder has copied to a joining device (R501). -/
  mirror : Option Mirror := none
  /-- What the device sent out during the last command. -/
  out : List Out := []
  /-- How many free values the run has taken (log entry 4). -/
  free : Nat := 0
  deriving DecidableEq, Repr

/-- The state: the waiting commands, oldest first; the non-volatile stores; the rest of the device. -/
structure State where
  pending : List Instr := []
  nv : NonVolatile := {}
  dev : Dev := {}
  deriving DecidableEq, Repr

/-- Faults of a step. No command of the block ends in one: every effect is a next state. -/
inductive Fault where
  deriving DecidableEq, Repr

/-- Refusals of a step. -/
inductive Refusal where
  /-- Raised by the dispatcher for a command whose meaning is not written yet; safe. -/
  | notModelled (mnemonic : String)
  deriving DecidableEq, Repr

/-- The machine right after reset: step 1 of R629, PORESET_N low. -/
def State.reset : State := {}

end Sys2Proof.Machine
end

