-- ==== Sys2Proof/Machine/Ops.lean ====
section
/-! DEFINITION. Named operations shared by every block: bit fields, register words, time, roles, free values. -/
namespace Sys2Proof.Machine

/-! ### Numbers -/

/-- Bits `lo` to `lo + w - 1` of `v`. -/
def bits (v lo w : Nat) : Nat := (v >>> lo) % 2 ^ w
/-- Bit `i` of `v`. -/
def bit (v i : Nat) : Bool := v.testBit i
/-- `v` read as a signed number of `w` bits. -/
def signed (w v : Nat) : Int := if v < 2 ^ (w - 1) then (v : Int) else (v : Int) - (2 ^ w : Nat)
/-- The `w` bits of a signed number. -/
def unsigned (w : Nat) (i : Int) : Nat := (i % (2 ^ w : Nat)).toNat
def clampInt (lo hi x : Int) : Int := if x < lo then lo else if hi < x then hi else x
def clampNat (lo hi x : Nat) : Nat := if x < lo then lo else if hi < x then hi else x
/-- Division rounded to nearest, ties away from zero (`b` positive). -/
def divRound (a b : Int) : Int := if 0 ≤ a then (2 * a + b) / (2 * b) else -((2 * (-a) + b) / (2 * b))
def boolNat (b : Bool) : Nat := if b then 1 else 0
def word (n : Nat) : Word := BitVec.ofNat 32 n
/-- Bytes to a number, first byte lowest (R9, R11). -/
def leNat : List Byte → Nat
  | [] => 0
  | b :: t => b.toNat + 256 * leNat t
/-- `n` bytes of a number, lowest first. -/
def leBytes : Nat → Nat → List Byte
  | 0, _ => []
  | n + 1, v => BitVec.ofNat 8 v :: leBytes n (v / 256)
/-- Byte field of an entry or record: `n` bytes from byte `off`. -/
def byteField {w : Nat} (e : BitVec w) (off n : Nat) : Nat := bits e.toNat (8 * off) (8 * n)
/-- A number placed at byte `off`. -/
def atByte (off v : Nat) : Nat := v <<< (8 * off)
/-- Ceiling and floor of a quotient of a signed and a positive number. -/
def floorDiv (a : Int) (b : Nat) : Int := a / (b : Int)
/-- Applies `f` to 0, 1, … , n - 1 in turn. -/
def upto {α : Type} (n : Nat) (f : α → Nat → α) (x : α) : α := (List.range n).foldl f x

/-! ### CRC-32 of R88: reflected, polynomial 0xEDB88320, initial and final all ones -/

def crcBit : Nat → Nat := fun c => if c % 2 = 1 then (c / 2) ^^^ 0xEDB88320 else c / 2
def crcByte (c : Nat) (b : Byte) : Nat :=
  crcBit (crcBit (crcBit (crcBit (crcBit (crcBit (crcBit (crcBit (c ^^^ b.toNat))))))))
/-- The running CRC after more bytes; `crcStart` before the first. -/
def crcFeed (c : Nat) (bs : List Byte) : Nat := bs.foldl crcByte c
def crcStart : Nat := 0xFFFFFFFF
def crcEnd (c : Nat) : Nat := c ^^^ 0xFFFFFFFF
def crc32 (bs : List Byte) : Nat := crcEnd (crcFeed crcStart bs)

/-! ### Registers -/

/-- The word last accepted at BAR0 address `a`, which a read returns (R33). -/
def RegFile.read (f : RegFile) (a : Nat) : Word := f.acc.get resetWord a
/-- The word at `a` that the device uses. -/
def RegFile.inUse (f : RegFile) (a : Nat) : Word := f.act.get resetWord a
def RegFile.setRead (f : RegFile) (a : Nat) (w : Word) : RegFile := { f with acc := f.acc.set resetWord a w }
def RegFile.setInUse (f : RegFile) (a : Nat) (w : Word) : RegFile := { f with act := f.act.set resetWord a w }

/-- Active value of a field of page `p` at offset `off`. -/
def Dev.fld (d : Dev) (p off lo w : Nat) : Nat := bits (d.regs.inUse (wordAddr p off)).toNat lo w
/-- Active value of a signed field. -/
def Dev.sfld (d : Dev) (p off lo w : Nat) : Int := signed w (d.fld p off lo w)
/-- Active value of a one-bit field. -/
def Dev.flag (d : Dev) (p off lo : Nat) : Bool := bit (d.regs.inUse (wordAddr p off)).toNat lo
/-- The readable value of a field (staged for Commit fields). -/
def Dev.rfld (d : Dev) (p off lo w : Nat) : Nat := bits (d.regs.read (wordAddr p off)).toNat lo w
/-- The device writes a word of its own register. -/
def Dev.setReg (d : Dev) (p off v : Nat) : Dev :=
  { d with regs := (d.regs.setRead (wordAddr p off) (word v)).setInUse (wordAddr p off) (word v) }
/-- The device writes one field of its own register, on both copies. -/
def setBits (w : Word) (lo n v : Nat) : Word :=
  word (w.toNat - (bits w.toNat lo n <<< lo) + ((v % 2 ^ n) <<< lo))
def Dev.setFld (d : Dev) (p off lo w v : Nat) : Dev :=
  let a := wordAddr p off
  { d with regs := (d.regs.setRead a (setBits (d.regs.read a) lo w v)).setInUse a (setBits (d.regs.inUse a) lo w v) }
/-- A 64-bit register of the device, low word first (R29). -/
def Dev.setReg64 (d : Dev) (p off v : Nat) : Dev := (d.setReg p off (v % 2 ^ 32)).setReg p (off + 4) (v >>> 32)
/-- A count that saturates at 0xFFFF_FFFF, increased by `n`. -/
def Dev.addCount (d : Dev) (p off n : Nat) : Dev :=
  d.setReg p off (min (d.rfld p off 0 32 + n) 0xFFFFFFFF)
def Dev.count (d : Dev) (p off : Nat) : Dev := d.addCount p off 1
/-- CTL.ENABLE in use. -/
def Dev.enabled (d : Dev) (p : Nat) : Bool := d.flag p 0x008 0

/-- Pages by block (R61). -/
def pageDev : Nat := 0x000
def pageTim : Nat := 0x001
def pageMon : Nat := 0x002
def pageMld : Nat := 0x003
def pageHif : Nat := 0x004
def pageEvq : Nat := 0x005
def pageRec : Nat := 0x006
def pagePar : Nat := 0x007
def pageMem : Nat := 0x008
def pageIcd : Nat := 0x009
def pageSch : Nat := 0x00A
def pageLdl : Nat := 0x00B
def pageTmp : Nat := 0x00C
def pageCal : Nat := 0x00D
def pageLnk : Nat := 0x00E
def pageSrv : Nat := 0x00F
def pageFbk : Nat := 0x010
def pageImg : Nat := 0x011
def pageLhd : Nat := 0x012
def pageStp : Nat := 0x013
def pageIpl (i : Nat) : Nat := 0x014 + i
def pageLgy : Nat := 0x01F
def pageRng (r : Nat) : Nat := 0x020 + r
def pageStn (s : Nat) : Nat := 0x080 + s
def pageAxs (j : Nat) : Nat := 0x0A0 + j
def pageFch (c : Nat) : Nat := 0x100 + c
def pageSax (x : Nat) : Nat := 0x170 + x
def pageLan (l : Nat) : Nat := 0x180 + l
def pageEmu (e : Nat) : Nat := 0x1C0 + e
def pageSeg (g : Nat) : Nat := 0x200 + g
def pageCtx (c : Nat) : Nat := 0x300 + c

def kindOf (p : Nat) : Option PageKind := (pageOf p).map Prod.fst
def instOf (p : Nat) : Nat := match pageOf p with | some (_, f) => p - f | none => 0
def isMirrored (p : Nat) : Bool := match kindOf p with | some k => k.mirrored | none => false

/-! ### Time (R22, R608) -/

def Dev.cycle (d : Dev) : Nat := d.tick / 1250

/-! ### Roles and running (R473, R629) -/

def roleAlone : Nat := 0
def roleSeeking : Nat := 1
def roleHolder : Nat := 2
def roleJoining : Nat := 3
def roleStandby : Nat := 4
def roleOut : Nat := 5
def roleHalted : Nat := 6

/-- The device holds the ensign: ALONE or HOLDER (R473). -/
def Dev.holds (d : Dev) : Bool := d.par.role == roleAlone || d.par.role == roleHolder
/-- The cycle engine runs: boot step 4 on and not HALTED. -/
def Dev.running (d : Dev) : Bool := d.boot.engine && d.par.role != roleHalted
/-- The device computes the cycle: it holds the ensign or is in lockstep. -/
def Dev.computes (d : Dev) : Bool := d.running && (d.holds || d.par.role == roleStandby)
/-- The CYCLE record of the current cycle has been sent. -/
def Dev.recordSent (d : Dev) : Bool :=
  match d.par.own with | some r => r.toNat % 2 ^ 64 == d.cycle % 2 ^ 64 | none => false
/-- Writes go to the other device: a standby in lockstep, or one that is receiving a join copy (R59, R501). -/
def Dev.forwards (d : Dev) : Bool := d.holds && (d.par.withStandby || decide (2 ≤ d.par.joinStage))
/-- WRITE records that this device has sent in the current cycle (R478). -/
def Dev.slotsUsed (d : Dev) : Nat := if d.par.slotCycle = d.cycle then d.par.writesSent else 0
/-- The host link holds a further write of a mirrored page or window until a later cycle has a WRITE record for it: the
256 of this cycle are used, its CYCLE record has gone, or an earlier write is still held (R478, R480, R481). -/
def Dev.writeHeld (d : Dev) : Bool :=
  d.forwards && (d.recordSent || decide (256 ≤ d.slotsUsed) || !d.par.heldWrites.isEmpty)
/-- Byte 30 of records (R474). -/
def Dev.stateByte (d : Dev) : Nat := boolNat d.par.sideB + 2 * d.par.role

/-! ### Free values (log entry 4) -/

/-- The next free value of the run, and the device after taking it. -/
def Dev.fresh (d : Dev) : Long × Dev := (Config.freeValue d.free, { d with free := d.free + 1 })

def Dev.send (d : Dev) (o : Out) : Dev := { d with out := d.out ++ [o] }

end Sys2Proof.Machine
end

