-- ==== Sys2Proof/Machine/Units.lean ====
section
/-! DEFINITION. One accessor per kind of unit (rings, lanes, channels, axes, stations …), and what a register read needs
of the blocks: reservations, the thermal map's decay, the islands of the running heat, drift runs and carriage. -/
namespace Sys2Proof.Machine

def ringOf (d : Dev) (r : Nat) : Ring := d.rings.get (same {}) r
def setRing (d : Dev) (r : Nat) (x : Ring) : Dev := { d with rings := d.rings.set (same {}) r x }
def laneOf (d : Dev) (l : Nat) : Lane := d.lanes.get (same {}) l
def setLane (d : Dev) (l : Nat) (x : Lane) : Dev := { d with lanes := d.lanes.set (same {}) l x }
def channelOf (d : Dev) (c : Nat) : Channel := d.channels.get (same {}) c
def setChannel (d : Dev) (c : Nat) (x : Channel) : Dev := { d with channels := d.channels.set (same {}) c x }
def emuOf (d : Dev) (e : Nat) : Emu := d.emus.get (same {}) e
def setEmu (d : Dev) (e : Nat) (x : Emu) : Dev := { d with emus := d.emus.set (same {}) e x }
def axisOfServo (d : Dev) (j : Nat) : Axis := d.axes.get (same {}) j
def setServo (d : Dev) (j : Nat) (x : Axis) : Dev := { d with axes := d.axes.set (same {}) j x }
def traceOf (d : Dev) (c : Nat) : Trace := d.traces.get (same {}) c
def setTrace (d : Dev) (c : Nat) (x : Trace) : Dev := { d with traces := d.traces.set (same {}) c x }
def axisRuns (d : Dev) (j : Nat) : Bool := d.enabled pageSrv && d.enabled (pageAxs j)
def ctxOf (d : Dev) (c : Nat) : Ctx := d.ctxs.get (same {}) c
def setCtx (d : Dev) (c : Nat) (x : Ctx) : Dev := { d with ctxs := d.ctxs.set (same {}) c x }
def pipeOf (d : Dev) (p : Nat) : Pipeline := d.img.pipes.get (same {}) p
def setPipe (d : Dev) (p : Nat) (x : Pipeline) : Dev := { d with img := { d.img with pipes := d.img.pipes.set (same {}) p x } }
def ladleBudget (d : Dev) : Nat := d.fld pageLdl 0x040 0 24
/-- Held power in W (R161). -/
def ladleHeld (d : Dev) : Nat := d.ladle.held.foldl (fun a x => a + x.2) 0
/-- Free power (R163). -/
def ladleFree (d : Dev) : Nat := ladleBudget d - ladleHeld d
/-- The holder key of the line-head pass beside stations 0 to 31. -/
def passHolder : Nat := 32
def stationOf (d : Dev) (s : Nat) : Station := d.stations.get (same {}) s
def setStation (d : Dev) (s : Nat) (x : Station) : Dev := { d with stations := d.stations.set (same {}) s x }
def mapStampAt (cycle : Nat) : Nat := cycle / 256 % 65536
def mapNow (d : Dev) : Nat := mapStampAt d.cycle
def mapSweep (d : Dev) : Nat := d.cycle % 262144
def decayFactor (d : Dev) : Nat := d.fld pageTmp 0x040 0 24
/-- The loop of R179 over the 16 bits of the age. -/
def decayLoop : Nat → Nat → Nat → Nat → Nat
  | 0, _, f, _ => f
  | n + 1, age, f, p =>
    decayLoop n (age / 2) (if age % 2 = 1 then f * p / 16777216 else f) (p * p / 16777216)
def decayed (factor : Nat) (c : MapCell) (now : Nat) : Nat :=
  c.energy * decayLoop 16 ((now + 65536 - c.stamp) % 65536) 16777216 factor / 16777216
def mapCell (d : Dev) (i : Nat) : MapCell := d.map.cells.get (same {}) i
/-- The energy of a cell decayed to the current cycle (R181, R183). -/
def cellEnergy (d : Dev) (i : Nat) : Nat := decayed (decayFactor d) (mapCell d i) (mapNow d)
def calStation (d : Dev) (s : Nat) : CalStation := d.cal.stations.get (same {}) s
def setCalStation (d : Dev) (s : Nat) (x : CalStation) : Dev :=
  { d with cal := { d.cal with stations := d.cal.stations.set (same {}) s x } }
def islFirst (i : BitVec 512) : Nat := byteField i 0 4
/-- Keys of islands: the host's by index, patch islands from 65,536 on. -/
def patchKey (k : Nat) : Nat := 65536 + k
def isPatch (key : Nat) : Bool := decide (65536 ≤ key)
def Run.descriptor (x : Run) (key : Nat) : BitVec 512 :=
  if isPatch key then ((x.patches[key - 65536]?).map Prod.fst).getD 0 else (x.heat.islands[key]?).getD 0
def Run.island (x : Run) (key : Nat) : IslandRun := x.isl.get (same {}) key
/-- Every island of the heat in submission order (R67). -/
def Run.keys (x : Run) : List Nat := List.range x.heat.islands.length ++ (List.range x.patches.length).map patchKey
def Run.ready (x : Run) : List Nat := x.keys.filter fun k => (x.island k).state == 1
/-- States COMMITTED and ACTIVE. -/
def Run.busy (x : Run) (key : Nat) : Bool := (x.island key).state == 2 || (x.island key).state == 3
/-- The head promoted island (R137). -/
def Run.head (x : Run) : Option Nat := x.ready.find? fun k => (x.island k).promoted
def moduleOf (d : Dev) (m : Nat) : LineModule := d.lhd.modules.get (same {}) m
def setModule (d : Dev) (m : Nat) (x : LineModule) : Dev :=
  { d with lhd := { d.lhd with modules := d.lhd.modules.set (same {}) m x } }
/-- Base width of code `q` in segment `g`; code 0 fires nothing. -/
def baseWidthOf (d : Dev) (g q : Nat) : Nat :=
  let m := moduleOf d (g / 16)
  if q = 0 ∨ m.bringUps = 0 then 0 else (Config.baseWidth (g / 16) m.bringUps (g % 16) q).toNat
def getRun (d : Dev) : Option Nat → Option CalRun
  | none => d.cal.run
  | some s => d.cal.drifts.get (same none) s
def putRun (d : Dev) (h : Option Nat) (r : Option CalRun) : Dev :=
  match h with
  | none => { d with cal := { d.cal with run := r } }
  | some s => { d with cal := { d.cal with drifts := d.cal.drifts.set (same none) s r } }
/-- Whether a drift run holds station `s`. -/
def drifting (d : Dev) (s : Nat) : Bool := (getRun d (some s)).isSome
/-- The station temperature of the cycle (R437). -/
def stationTemp (d : Dev) (s : Nat) : Int :=
  let t (k : Nat) : Int := (d.axes.get (same {}) (3 * s + k)).temp * 10 / 65536
  (t 0 + t 1) / 2
/-- A drift run of station `s` is due (R437). -/
def driftDue (d : Dev) (s : Nat) : Bool :=
  let c := calStation d s
  c.due.isSome ||
    (d.flag pageCal 0x044 0 &&
      (match c.lastTemp with
       | some t => decide (d.fld pageCal 0x044 16 16 ≤ (stationTemp d s - t).natAbs)
       | none => false))
def axisOf (d : Dev) (x : Nat) : StepAxis := d.stp.axes.get (same {}) x
def setAxis (d : Dev) (x : Nat) (a : StepAxis) : Dev := { d with stp := { d.stp with axes := d.stp.axes.set (same {}) x a } }
def axisScale (d : Dev) (x : Nat) : Nat := d.fld (pageSax x) 0x114 0 32
def axisOrigin (d : Dev) (x : Nat) : Int := d.sfld (pageSax x) 0x118 0 32
/-- Position to bed coordinate in nm. -/
def stepsToBed (d : Dev) (x : Nat) (pos : Int) : Int := axisOrigin d x + pos * axisScale d x / 65536
/-- The carriage reference position Y_c (R393). -/
def carriageY (d : Dev) : Int := stepsToBed d 0 (axisOf d 0).pos
def Move.finished (m : Move) : Bool := decide (m.last ≤ m.issued)
/-- The move of an axis that has steps left. -/
def moveOf (d : Dev) (x : Nat) : Option Move := d.stp.moves.find? fun m => m.mask.getLsbD x && !m.finished
def axisMoving (d : Dev) (x : Nat) : Bool := (moveOf d x).isSome

end Sys2Proof.Machine
end

