-- ==== Sys2Proof/Machine/ReadReg.lean ====
section
/-! DEFINITION. What a read of a register word returns: the stored word, or for status registers the value that
the state of the block gives (R33, R34, R35). -/
namespace Sys2Proof.Machine

/-! ### Rings (R571 to R573, R591) -/

/-- Rings that the device writes (R571). -/
def deviceWrites (r : Nat) : Bool :=
  r == 10 || r == 11 || r == 14 || r == 15 || r == 18 || r == 19 || decide (24 ≤ r)
/-- Rings of shared pair scope (R571). -/
def sharedRing (r : Nat) : Bool :=
  !(decide (12 ≤ r ∧ r ≤ 15) || decide (20 ≤ r ∧ r ≤ 23) || r == 38 || r == 39 || decide (56 ≤ r))
def ringLog2 (d : Dev) (r : Nat) : Nat := d.fld (pageRng r) 0x048 0 5
def ringProd (d : Dev) (r : Nat) : Nat := d.rfld (pageRng r) 0x04C 0 17
def ringCons (d : Dev) (r : Nat) : Nat := d.rfld (pageRng r) 0x050 0 17
/-- A 17-bit position as a count modulo twice the ring's size (R573). -/
def posLinear (log2 pos : Nat) : Nat := bits pos 16 1 * 2 ^ log2 + bits pos 0 16
/-- Entries from position `c` to position `p` (R573). -/
def posDist (log2 c p : Nat) : Nat :=
  (posLinear log2 p + 2 * 2 ^ log2 - posLinear log2 c % (2 * 2 ^ log2)) % (2 * 2 ^ log2)
/-- The position after `pos` (R573). -/
def posNext (log2 pos : Nat) : Nat :=
  if bits pos 0 16 + 1 = 2 ^ log2 then (1 - bits pos 16 1) <<< 16 else (bits pos 16 1 <<< 16) + bits pos 0 16 + 1
def ringUsed (d : Dev) (r : Nat) : Nat := posDist (ringLog2 d r) (ringCons d r) (ringProd d r)
def ringFull (d : Dev) (r : Nat) : Bool := ringUsed d r == 2 ^ ringLog2 d r

/-! ### Time of day (R610) -/

/-- What each tick adds to the nanoseconds in 2⁻³² ns (R610). -/
def todInc (slew : Int) : Int := 4 * 4294967296 + (4 * 4294967296 * slew + 500000000) / 1000000000
def nsPerSec : Nat := 1000000000
def fracPerSec : Nat := nsPerSec * 4294967296
/-- 2⁻³² ns since the start of second `m.sec` at tick `t`, from the base on (R610). -/
def fracAt (m : Timebase) (t : Nat) : Nat := (m.frac + ((t - m.base : Nat) : Int) * todInc m.slew).toNat
/-- Seconds and 2⁻³² ns at tick `t`, with every crossing since `base` counted (R610). -/
def todAt (m : Timebase) (t : Nat) : Nat × Nat :=
  let x := if t < m.base then (m.prior.1, m.prior.2.1) else (m.sec, fracAt m t)
  ((x.1 + x.2 / fracPerSec) % 2 ^ 48, x.2 % fracPerSec)
/-- SLEW at tick `t`. -/
def slewAt (m : Timebase) (t : Nat) : Int := if t < m.base then m.prior.2.2 else m.slew

def log2Cap (d : Dev) : Nat := if d.flag pageRec 0x040 0 then 8144 else 8192

/-! ### Lanes -/

/-- Place of an eye-scan point in the table of 63 × 64 counts: voltage −31 to +31, phase −32 to +31 (R530). -/
def eyeIndex (phase volt : Nat) : Nat := ((volt + 31) % 64) * 64 + (phase + 32) % 64

/-- The halyard link is up: its 8 lanes are UP with one SUPERFRAME (R527). -/
def halyardUp (d : Dev) : Bool :=
  (List.range 8).all fun q =>
    (laneOf d (48 + q)).stage == 5 && (laneOf d (48 + q)).superframe == (laneOf d 48).superframe

/-- MSI-X table words at reset: every vector masked, as the MSI-X capability starts (PRESUMED, log entry 10). -/
def msixReset (k : Nat) : Word := if k % 4 = 3 then 1 else 0

/-- The level of EMIT_PERMIT[1:0] (R463, R469). -/
def permit (d : Dev) : Bool := d.enabled pageMld && !d.mould.latched && d.boot.sealLoaded

/-! ### What the blocks' status registers show -/

/-- Bit `i` of the result is `f i`, for `n` bits. -/
def maskOf (n : Nat) (f : Nat → Bool) : Nat := (List.range n).foldl (fun m i => if f i then m + 2 ^ i else m) 0

/-- An island as SCH and STN registers show it: index, PATCH in bit 16, VALID in bit 31. -/
def shownIsland (key : Nat) : Nat := key % 65536 + boolNat (isPatch key) <<< 16 + 1 <<< 31

def running (d : Dev) : Bool := d.heats.running.isSome

def schReg (d : Dev) (off : Nat) : Option Nat :=
  if off = 0x060 then some (match d.heats.running with | some x => x.ready.length | none => 0)
  else if off = 0x064 then some (maskOf 32 fun s => (stationOf d s).island.isSome)
  else if off = 0x068 then some d.sched.heldMask.toNat
  else if off = 0x06C then
    some (match d.heats.running.bind Run.head with | some k => shownIsland k | none => 0)
  else none

def ldlReg (d : Dev) (off : Nat) : Option Nat :=
  if off = 0x060 then some (d.ladle.level / 1000) else if off = 0x064 then some (ladleHeld d)
  else if off = 0x068 then some (ladleFree d) else if off = 0x06C then some (d.ladle.lastDraw / 5) else none

def tmpReg (d : Dev) (off : Nat) : Option Nat :=
  if off = 0x060 then some (mapNow d) else if off = 0x064 then some (mapSweep d)
  else if off = 0x06C then some (cellEnergy d (d.fld pageTmp 0x068 16 9 * 512 + d.fld pageTmp 0x068 0 9)) else none

def stnReg (d : Dev) (s off : Nat) : Option Nat :=
  let st := stationOf d s
  if off = 0x060 then some (match st.island with | some k => shownIsland k | none => 0)
  else if off = 0x064 then
    some (match d.heats.running, st.island with | some x, some k => islFirst (x.descriptor k) | _, _ => 0)
  else if off = 0x068 then some (st.pour % 4096 + st.motion <<< 12 + boolNat st.applied.gate0 <<< 31)
  else if off = 0x06C then some (min 256 (st.loaded - st.pour))
  else if off = 0x070 then some (unsigned 32 (st.spotX / 65536))
  else if off = 0x074 then some (unsigned 32 (st.spotY / 65536))
  else if off = 0x078 then some st.speed
  else if off = 0x07C then some (st.k + st.kCam <<< 16)
  else if off = 0x080 then some st.powerSent
  else none

def srvReg (d : Dev) (off : Nat) : Option Nat :=
  if off = 0x044 then some (maskOf 16 (fun c => (traceOf d c).armed) + maskOf 16 (fun c => (traceOf d c).fired) <<< 16)
  else if off = 0x050 ∨ off = 0x054 ∨ off = 0x058 then
    some (maskOf 32 fun i => (axisOfServo d (32 * ((off - 0x050) / 4) + i)).held)
  else if off = 0x05C ∨ off = 0x060 ∨ off = 0x064 then
    some (maskOf 32 fun i => (axisOfServo d (32 * ((off - 0x05C) / 4) + i)).fault)
  else none

def axsReg (d : Dev) (j off : Nat) : Option Nat :=
  let x := axisOfServo d j
  if off = 0x048 then some ((if d.cycle < x.bankFrom then x.bankBefore else x.bank) + x.region <<< 3 + x.holdRun <<< 8 + x.cause <<< 12)
  else if off = 0x04C then some (unsigned 16 x.sentOut) else if off = 0x050 then some (unsigned 32 x.posErr) else none

def fbkReg (d : Dev) (off : Nat) : Option Nat :=
  let one (base : Nat) (f : Channel → Bool) : Nat := maskOf 32 fun b =>
    let c := 32 * ((off - base) / 4) + b
    decide (c < 104) && f (channelOf d c)
  if 0x060 ≤ off ∧ off < 0x070 then some (one 0x060 Channel.fault)
  else if 0x070 ≤ off ∧ off < 0x080 then some (one 0x070 Channel.homed) else none

def fchReg (d : Dev) (c off : Nat) : Option Nat :=
  let x := channelOf d c
  if off = 0x060 then some x.repPos else if off = 0x064 then some (unsigned 32 x.repV1)
  else if off = 0x068 then some (unsigned 32 x.repV0)
  else if off = 0x06C then
    some (boolNat x.negative + x.level <<< 1 + boolNat x.homed <<< 3 + boolNat x.stale <<< 4 + x.cause <<< 8 + x.ampRun <<< 12)
  else if off = 0x070 then some x.indexPos else if off = 0x074 then some x.amp else none

def segReg (d : Dev) (g off : Nat) : Option Nat :=
  let m := moduleOf d (g / 16)
  if off = 0x060 then some (unsigned 16 (m.temps.getD (g % 16) 0) + m.v <<< 16)
  else if off = 0x064 then some (match d.lhd.latched with | some s => s.factors.getD g 65536 | none => 65536)
  else if off = 0x104 then some (baseWidthOf d g (d.fld (pageSeg g) 0x100 0 8)) else none

/-- Speed of an axis in a move, in steps/s: the lead's own, and of a follower its share of it (R399, R402). -/
def axisSpeed (d : Dev) (x : Nat) : Int :=
  match moveOf d x with
  | some m =>
    let a := axisOf d x
    let share : Nat := if m.kind = 0 ∧ x ≠ m.lead then m.v * a.travel.natAbs / max 1 m.total else m.v
    let neg := if m.kind = 0 then decide (a.travel < 0) else m.negative
    if neg then -((share / 1000 : Nat) : Int) else (share / 1000 : Nat)
  | none => 0

def stpReg (d : Dev) (off : Nat) : Option Nat :=
  if off = 0x060 then some (unsigned 32 d.stp.platformZ)
  else if off = 0x064 then some (unsigned 32 (stepsToBed d 0 d.stp.carriage0))
  else if off = 0x068 then some (maskOf 12 fun x => axisMoving d x) else none

def saxReg (d : Dev) (x off : Nat) : Option Nat :=
  if off = 0x060 then some (unsigned 32 (axisOf d x).pos) else if off = 0x064 then some (unsigned 32 (axisSpeed d x)) else none

def calReg (d : Dev) (off : Nat) : Option Nat :=
  let c := calStation d (d.fld pageCal 0x074 0 5)
  if off = 0x060 then some (maskOf 32 fun s => driftDue d s) else if off = 0x064 then some (maskOf 32 fun s => drifting d s)
  else if off = 0x068 then some (maskOf 32 fun s => (calStation d s).termStaged.isSome)
  else if off = 0x06C then some (maskOf 32 fun s => (calStation d s).refs.isSome)
  else if off = 0x070 then some d.cal.runs
  else if off = 0x078 then some (unsigned 32 c.term.offX) else if off = 0x07C then some c.term.gainX
  else if off = 0x080 then some (unsigned 32 c.term.offY) else if off = 0x084 then some c.term.gainY
  else if off = 0x088 then some (unsigned 16 c.term.temp)
  else if off = 0x08C then some (c.ptrim + (match c.ptrimStaged with | some (v, _) => v | none => c.ptrim) <<< 16)
  else none

/-- STATE 2 while work is in progress, 1 otherwise. -/
def workState (b : Bool) : Nat := if b then 2 else 1

/-- STATE and STAT[31:4] of the blocks that carry a layer (R35; which work counts is DEDUCED, log entry 32). -/
def layerStat (d : Dev) (k : PageKind) (i : Nat) : Nat × Nat :=
  match k with
  | .sch =>
    let run := d.heats.running
    (if running d && d.flag pageSch 0x040 0 then 3 else workState (running d),
      boolNat (d.flag pageSch 0x040 0) <<< 8 + boolNat (match run with | some x => x.passPending | none => false) <<< 9 +
        boolNat (run.bind Run.head).isSome <<< 10 + boolNat (match run with | some x => x.abandon | none => false) <<< 11)
  | .ldl =>
    let pend := match d.heats.running with | some x => x.passPending | none => false
    (workState (pend || ladleHeld d != 0),
      boolNat d.ladle.short <<< 8 + boolNat pend <<< 9 + boolNat (d.ladle.held.get (same 0) passHolder != 0) <<< 10)
  | .tmp | .srv | .fbk => (2, 0)
  | .stn =>
    let st := stationOf d i
    (if st.fault then 4 else if st.service then 6 else if st.motion = 5 then 3 else workState st.island.isSome, 0)
  | .axs => let x := axisOfServo d i; (if x.fault then 4 else if x.idle then 1 else if x.held then 3 else 2, 0)
  | .fch => let x := channelOf d i; (if x.fault then 4 else if x.idle then 1 else 2, 0)
  | .emu => (workState ((emuOf d i).backlog != 0), 0)
  | .img => (workState ((List.range 40).any fun c => !(ctxOf d c).frames.isEmpty), 0)
  | .ipl => (workState (decide (3 * d.tick < (pipeOf d i).free)), 0)
  | .ctx => let x := ctxOf d i; (if x.mode = 1 then 6 else if x.mode = 2 then 5 else workState (!x.frames.isEmpty), 0)
  | .lhd =>
    let pass := match d.heats.running with | some x => x.pass % 8 | none => 0
    let stroke := match d.heats.running with | some x => x.stroke == 3 && x.passStroke | none => false
    (if d.lhd.testing.isSome then 6 else workState d.lhd.firing.isSome,
      boolNat stroke <<< 8 + boolNat d.lhd.testing.isSome <<< 9 + pass <<< 10)
  | .seg =>
    let off := match d.lhd.latched with | some s => s.off.getLsbD i | none => false
    (workState d.lhd.firing.isSome, boolNat (d.lhd.derated.getLsbD i) <<< 8 +
      boolNat ((moduleOf d (i / 16)).cut.getLsbD (i % 16)) <<< 9 + boolNat off <<< 10)
  | .stp => (workState (!d.stp.moves.isEmpty || !d.stp.waiting.isEmpty), 0)
  | .sax =>
    let neg := match moveOf d i with
      | some m => if m.kind = 0 then decide ((axisOf d i).travel < 0) else m.negative
      | none => decide ((axisOf d i).travel < 0)
    (workState (axisMoving d i),
      boolNat neg <<< 8 + boolNat (match moveOf d i with | some m => m.stopping | none => false) <<< 9)
  | .cal =>
    let t := match d.cal.run with | some r => if r.started then r.type - 0x20 else 0 | none => 0
    (if t = 0 then 1 else 6, t <<< 8)
  | _ => (1, 0)

/-! ### Derived registers -/

/-- STAT[31:4] and STATE while enabled, of a kind whose block gives them (R35). -/
def statOf (d : Dev) (k : PageKind) (i : Nat) : Nat × Nat :=
  match k with
  | .rng =>
    (if (ringOf d i).fault then 4 else if (ringOf d i).idle then 1 else 2,
      (boolNat (ringFull d i) <<< 8) ||| (boolNat (deviceWrites i) <<< 9) ||| (boolNat (sharedRing i) <<< 10))
  | .hif => (1, (d.hif.speed.toNat <<< 8) ||| (d.hif.width.toNat <<< 11))
  | .recd => (1, boolNat (decide (log2Cap d ≤ d.recorder.log.length)) <<< 8)
  | .tim => (1, (boolNat d.tim.holdover <<< 8) ||| (boolNat d.tim.secondsValid <<< 9))
  | .mon => (1, boolNat d.mon.crit <<< 8)
  | .par =>
    (1, (d.par.role <<< 8) ||| (boolNat d.par.sideB <<< 11) |||
      (boolNat (d.par.health != d.par.healthBefore) <<< 12) ||| (boolNat (halyardUp d) <<< 13))
  | .lan =>
    let l := laneOf d i
    (if l.stage = 5 then 2 else 1,
      (l.stage <<< 8) ||| (boolNat l.polInv <<< 11) ||| (l.kind <<< 12) ||| (l.id <<< 14) ||| (l.rev <<< 20) |||
        (l.logical <<< 24) ||| (boolNat l.reversed <<< 30))
  | .lnk => (1, boolNat (halyardUp d) <<< 8)
  | .mld =>
    (1, (boolNat ((List.range 4).any fun i => bit (d.fld pageMld 0x040 0 4) i &&
        (d.mould.openSince.get (same none) i).isSome) <<< 8) |||
      (boolNat d.mould.latched <<< 9) ||| (boolNat (permit d) <<< 10))
  | .mem =>
    (if d.dram.fault then 4 else if d.dram.training || !d.dram.queue.isEmpty then 2 else 1,
      (boolNat d.dram.trained <<< 8) ||| (boolNat (d.dram.ranks.any fun x => x.2.hot) <<< 9))
  | .icd =>
    let job (r : Nat) : Nat := match d.coder.jobs.get (same none) r with
      | some j => if j.starved then 2 else 1 | none => 0
    (if job 0 + job 1 = 0 then 1 else 2, (job 0 <<< 8) ||| (job 1 <<< 10))
  | _ => layerStat d k i

/-- The other registers whose value the state gives, by kind, instance and offset. -/
def derivedReg (d : Dev) (k : PageKind) (i off : Nat) : Option Nat :=
  match k with
  | .rng =>
    if off = 0x068 ∧ (decide (24 ≤ i ∧ i ≤ 31) || i == 63) = true then some (ringLog2 d i + 6) else none
  | .evq => if off = 0x060 then some d.hif.windows.length else none
  | .recd =>
    if off = 0x048 then some d.recorder.log.length
    else if off = 0x04C then some d.recorder.missedBurst.toNat
    else if off = 0x050 then some d.recorder.missedFull.toNat
    else if off = 0x058 then some d.recorder.result.toNat
    else if 0x060 ≤ off ∧ off < 0x070 then some (bits d.recorder.challenge.toNat (8 * (off - 0x060)) 32)
    else none
  | .tim =>
    let now := todAt d.tim d.tick
    let hi := match d.tim.latch with | some (h, _, _) => h | none => d.tick >>> 32
    let sec := match d.tim.latch with | some (_, s, _) => s | none => now.1
    let ns := match d.tim.latch with | some (_, _, n) => n | none => now.2 / 4294967296
    if off = 0x060 then some (d.tick % 2 ^ 32) else if off = 0x064 then some (hi % 2 ^ 32)
    else if off = 0x068 then some (d.cycle % 2 ^ 32) else if off = 0x06C then some (d.cycle >>> 32)
    else if off = 0x070 then some (sec % 2 ^ 32) else if off = 0x074 then some (sec >>> 32)
    else if off = 0x078 then some ns
    else if off = 0x07C then some (unsigned 32 (slewAt d.tim d.tick))
    else none
  | .dev =>
    if off = 0x060 then
      some (d.boot.stage ||| (boolNat d.boot.slot <<< 3) ||| (boolNat d.boot.fallback <<< 4) ||| (d.boot.result <<< 8))
    else if off = 0x064 then some (d.boot.cause ||| (boolNat d.boot.wasHalted <<< 2))
    else if off = 0x068 then some d.boot.fwVersion.toNat
    else if off = 0x070 then some (bits Config.serial.toNat 0 32)
    else if off = 0x074 then some (bits Config.serial.toNat 32 32)
    else none
  | .par =>
    if off = 0x048 then some (boolNat d.par.swapRequested)
    else if off = 0x060 then some d.par.epoch.toNat
    else if off = 0x064 then
      some (d.boot.schema.toNat ||| ((d.boot.schema - 1).toNat <<< 8) ||| (d.par.peerSchema.toNat <<< 16) |||
        (d.par.schemaInUse.toNat <<< 24))
    else if off = 0x070 then some (d.par.joinStage ||| (d.par.refuseCause <<< 8) ||| (d.par.joinRound <<< 16))
    else none
  | .mld =>
    if off = 0x04C then some d.mould.result
    else if 0x050 ≤ off ∧ off < 0x060 then some (bits d.mould.challenge.toNat (8 * (off - 0x050)) 32)
    else if off = 0x084 then some d.mould.raises.length
    else if off = 0x020 then some (boolNat d.mould.locked ||| (boolNat (!d.mould.raises.isEmpty) <<< 1))
    else none
  | .lan =>
    let l := laneOf d i
    if off = 0x048 then
      some (l.eye.get (same 0) (eyeIndex (d.rfld (pageLan i) 0x044 0 6) (d.rfld (pageLan i) 0x044 8 6))).toNat
    else if off = 0x050 then some l.cause
    else if off = 0x060 then some l.latency else none
  | .lnk =>
    if off = 0x060 then some (maskOf 32 fun q => (laneOf d q).stage == 5)
    else if off = 0x064 then some (maskOf 24 fun q => (laneOf d (32 + q)).stage == 5) else none
  | .sch => schReg d off
  | .ldl => ldlReg d off
  | .tmp => tmpReg d off
  | .stn => stnReg d i off
  | .srv => srvReg d off
  | .axs => axsReg d i off
  | .fbk => fbkReg d off
  | .fch => fchReg d i off
  | .emu => if off = 0x060 then some (unsigned 32 (emuOf d i).backlog) else none
  | .seg => segReg d i off
  | .stp => stpReg d off
  | .sax => saxReg d i off
  | .cal => calReg d off
  | _ => none

/-- The bits of a word that read as 0 because their fields are write-only (R33). -/
def woMask (a : Nat) : Nat :=
  match pageOf (a / 4096) with
  | none => 0
  | some (k, _) =>
    match k.regAt? (a % 4096) with
    | none => 0
    | some (r, high) =>
      let m := r.fields.foldl (fun m f => if f.acc = .wo then m ||| ((2 ^ f.width - 1) <<< f.lo) else m) 0
      if high then m >>> 32 else m % 2 ^ 32

/-- What a read of the word at BAR0 address `a` returns, before the holding registers of R29 (R32, R33). -/
def readReg (d : Dev) (a : Nat) : Word :=
  let p := a / 4096
  let off := a % 4096
  let stored := d.regs.read a
  match pageOf p with
  | none => 0
  | some (k, first) =>
    let i := p - first
    if off = 0x00C then
      let s := statOf d k i
      word (s.2 ||| (if d.enabled p then s.1 else 0))
    else if off = 0x01C then
      word (d.regs.pend.foldl (fun m g => if g.page = p then m ||| 2 ^ g.group else m) 0)
    else
      match derivedReg d k i off with
      | some v => word v
      | none => if k = .hif ∧ 0x800 ≤ off ∧ off < 0xC00 then d.hif.msix.get msixReset ((off - 0x800) / 4)
        else if k = .hif ∧ off = 0xC00 then word d.hif.pba.toNat
        else if k = .hif ∧ off = 0xC04 then word (d.hif.pba.toNat >>> 32)
        else word (stored.toNat - (stored.toNat &&& woMask a))

end Sys2Proof.Machine
end

