-- ==== Sys2Proof/Machine/Events.lean ====
section
/-! DEFINITION. Pennants, event records, coalescing, record queues and recorder hoists: what every block uses to
report (R36 to R38, R56, R580 to R586, R592 to R599, R660). -/
namespace Sys2Proof.Machine

/-! ### Severities and classes (R580) -/

def sevInfo : Nat := 0
def sevNotice : Nat := 1
def sevWarning : Nat := 2
def sevFault : Nat := 3
def sevCritical : Nat := 4
def clsSafety : Nat := 0
def clsMotion : Nat := 1
def clsProcess : Nat := 2
def clsLink : Nat := 3
def clsMemory : Nat := 4
def clsPair : Nat := 5
def clsCal : Nat := 6
def clsHousekeeping : Nat := 7

/-- Payload bytes 20 to 27: byte 20, byte 21, bytes 22–23, bytes 24–27. -/
def pay (b20 b21 w22 d24 : Nat) : Nat :=
  b20 % 256 + (b21 % 256) * 256 + (w22 % 65536) * 65536 + (d24 % 4294967296) * 4294967296
/-- Payload with a 16-bit value in bytes 20–21. -/
def payW (w20 w22 d24 : Nat) : Nat := w20 % 65536 + (w22 % 65536) * 65536 + (d24 % 4294967296) * 4294967296

/-! ### Record queues (R585, R660) -/

/-- Records that the on-chip queue of a ring holds; archive and trace rings have none (R585). -/
def queueSize (r : Nat) : Nat :=
  if r = 24 then 256
  else if (25 ≤ r ∧ r ≤ 31) ∨ r = 63 then 64
  else if 56 ≤ r ∧ r ≤ 62 then 16
  else if 32 ≤ r ∧ r ≤ 47 then 0
  else 256

/-- Whether the device may write the ring now: a shared ring only while it holds the ensign (R572, R568). -/
def mayWriteRing (d : Dev) (r : Nat) : Bool :=
  d.enabled (pageRng r) && d.hif.linkUp && (!sharedRing r || d.holds)

def removeFirstIsland : List QRec → Option (List QRec)
  | [] => none
  | q :: t => if q.kind = .islandDone then some t else (removeFirstIsland t).map (q :: ·)

/-- Entries of the ring itself that a record may still take. -/
def ringFree (d : Dev) (r : Nat) : Nat := if mayWriteRing d r then 2 ^ ringLog2 d r - ringUsed d r else 0
/-- A further record finds room: the ring and its queue are not both full (R585). -/
def queueRoomFor (d : Dev) (r : Nat) : Bool := decide ((ringOf d r).queue.length < queueSize r + ringFree d r)

/-- A record joins its ring's queue; the answer says whether it was dropped (R585, R660). -/
def enqueue (d : Dev) (r : Nat) (q : QRec) : Dev × Bool :=
  let x := ringOf d r
  if queueRoomFor d r then (setRing d r { x with queue := x.queue ++ [q] }, false)
  else if 32 ≤ r ∧ r ≤ 47 then (d, true)
  else
    match q.kind with
    | .event | .islandDone => (d, true)
    | .heatDone | .plain =>
      if 56 ≤ r ∧ r ≤ 62 then (d, true)
      else
        match removeFirstIsland x.queue with
        | some t => (setRing d r { x with queue := t ++ [q] }, true)
        | none => (setRing d r { x with queue := x.queue ++ [q] }, false)

/-! ### Pennants -/

/-- The tick of a pennant's cause is noted (R36). -/
def stampPen (d : Dev) (p bitNo : Nat) : Dev :=
  { d with regs := { d.regs with penAt := d.regs.penAt.set (same 0) (32 * p + bitNo) (d.tick + 1) } }

/-- A pennant is set; a rise with its PEN_HOIST bit triggers the recorder while REC is enabled (R36, R38, R606). -/
def setPen (d : Dev) (p bitNo : Nat) : Dev :=
  let old := d.rfld p 0x010 bitNo 1
  let d1 := stampPen (d.setFld p 0x010 bitNo 1 1) p bitNo
  if old = 0 ∧ d.flag p 0x018 bitNo = true ∧ d.enabled pageRec = true then
    { d1 with recorder := { d1.recorder with triggers := d1.recorder.triggers ++ [⟨p, bitNo, 1, d.tick⟩] } }
  else d1

/-- RNG_LOST and LOST of a dropped record; the answer says whether RNG_LOST was 0 (R585). -/
def countDrop (d : Dev) (r : Nat) : Dev × Bool :=
  let first := d.rfld (pageRng r) 0x074 0 32 == 0
  (setPen (d.count (pageRng r) 0x074) (pageRng r) 1, first)

/-! ### Event records -/

/-- The event record of R580 without its SEQUENCE and its STATE, phase 0. -/
def eventBody (w : Window) : Nat :=
  atByte 0 (w.tick % 2 ^ 64) + atByte 8 w.page + atByte 10 w.cls + atByte 11 w.severity + atByte 12 w.code +
    atByte 14 (min w.count 65535) + atByte 20 w.payload + atByte 28 w.first
/-- The same with STATE taken now. -/
def eventRecord (d : Dev) (w : Window) : Nat := eventBody w + atByte 30 d.stateByte

/-- An event record takes its ring's next sequence number, and STATE, and joins its queue; a drop keeps the number while the
ring is enabled (R585, R660). -/
def pushBody (d : Dev) (r body : Nat) (bitmap : BitVec 512) (withMap : Bool) : Dev × Bool :=
  let x := ringOf d r
  let on := d.enabled (pageRng r)
  let rec0 := BitVec.ofNat 256 (body + atByte 30 d.stateByte + (if on then atByte 16 x.seq.toNat else 0))
  let d1 := if on then setRing d r { x with seq := x.seq + 1 } else d
  enqueue d1 r ⟨rec0, bitmap, withMap, .event⟩

def pushEvent (d : Dev) (r : Nat) (w : Window) : Dev × Bool := pushBody d r (eventBody w) w.bitmap (decide (2 ≤ w.count))

/-- The ring that takes an event of the device (R582); none where the holder reports it. -/
def eventRing (d : Dev) (p cls : Nat) : Option Nat :=
  if d.holds then some (24 + cls) else if isMirrored p then none else some 63

/-- A standby keeps what its holder writes to a shared ring (R495). -/
def keep (d : Dev) (k : Kept) : Dev :=
  if d.par.role = roleStandby then { d with hif := { d.hif with kept := d.hif.kept ++ [k] } } else d

/-- Routes a finished record to its ring; `deliver` puts it in the queue. -/
def routeEvent (deliver : Dev → Nat → Window → Dev) (d : Dev) (w : Window) : Dev :=
  match eventRing d w.page w.cls with
  | none => keep d (.event (24 + w.cls) (eventBody w) w.bitmap (decide (2 ≤ w.count)) 0)
  | some r => deliver d r w

/-- Whether an open window takes a report of this key now (R583). -/
def Window.takes (w : Window) (cyc block cls code : Nat) : Bool :=
  w.block == block && w.cls == cls && w.code == code && decide (cyc < w.upTo)

def foldInto (w : Window) (tick inst payload : Nat) : Window :=
  let w1 := { w with count := w.count + 1, bitmap := w.bitmap ||| BitVec.ofNat 512 (2 ^ inst) }
  if w.tick = tick ∧ inst < w.first then { w1 with first := inst, payload := payload, page := w.page - w.first + inst }
  else w1

def foldWindows (ws : List Window) (cyc tick block cls code inst payload : Nat) : Option (List Window) :=
  match ws with
  | [] => none
  | w :: t =>
    if w.takes cyc block cls code then some (foldInto w tick inst payload :: t)
    else (foldWindows t cyc tick block cls code inst payload).map (w :: ·)

/-- A report: filtered (R581), folded into a window or written at once (R583, R584). -/
def reportVia (deliver : Dev → Nat → Window → Dev) (d : Dev) (p cls sev code payload : Nat) : Dev :=
  if sev < d.fld pageEvq 0x044 (3 * cls) 3 then d
  else
    let inst := instOf p
    let block := match kindOf p with | some k => k.code | none => 0
    let multi := match kindOf p with | some k => k.many | none => false
    let span := d.fld pageEvq 0x040 0 8
    let w : Window := ⟨block, cls, code, inst, payload, d.tick, sev, p, 1, BitVec.ofNat 512 (2 ^ inst), d.cycle + span⟩
    if cls = clsSafety ∨ multi = false ∨ span = 0 then routeEvent deliver d w
    else
      match foldWindows d.hif.windows d.cycle d.tick block cls code inst payload with
      | some ws => { d with hif := { d.hif with windows := ws } }
      | none =>
        if d.hif.windows.length < 64 then { d with hif := { d.hif with windows := d.hif.windows ++ [w] } }
        else routeEvent deliver (d.count pageEvq 0x064) w

/-- Delivery of the RING_LOST event itself: a drop of it is counted only (R585). -/
def deliverPlain (d : Dev) (r : Nat) (w : Window) : Dev :=
  let (d1, lost) := pushEvent d r w
  if lost then (countDrop d1 r).1 else d1

/-- The event of the first drop of a ring (R585). -/
def ringLost (d : Dev) (r : Nat) : Dev :=
  let (d1, first) := countDrop d r
  if first ∧ d.flag (pageRng r) 0x014 1 = true then
    reportVia deliverPlain d1 (pageRng r) clsHousekeeping sevWarning 0x0A24
      (pay r 0 0 (d1.rfld (pageRng r) 0x074 0 32))
  else d1

/-- Delivery of an event record with the accounting of a drop. -/
def deliver (d : Dev) (r : Nat) (w : Window) : Dev :=
  let (d1, lost) := pushEvent d r w
  if lost then ringLost d1 r else d1

/-- An event that no pennant names (R37). -/
def report (d : Dev) (p cls sev code payload : Nat) : Dev := reportVia deliver d p cls sev code payload

/-- A pennant's cause occurs: the pennant is set and its event written while its PEN_EVT bit is set (R37). -/
def raise (d : Dev) (p bitNo cls sev code payload : Nat) : Dev :=
  let d1 := setPen d p bitNo
  if d.flag p 0x014 bitNo then report d1 p cls sev code payload else d1

/-- As `raise`, but the event of this occurrence is written only when `once` holds (a chapter's own limit, R37). -/
def raiseLimited (d : Dev) (once : Bool) (p bitNo cls sev code payload : Nat) : Dev :=
  if once then raise d p bitNo cls sev code payload else setPen d p bitNo

/-- A record other than an event joins the queue of its ring; STATE in byte 30 (R474), phase added when written. -/
def emit (d : Dev) (r : Nat) (kind : RecKind) (data : Nat) : Dev :=
  let (d1, lost) := enqueue d r ⟨BitVec.ofNat 256 (data + atByte 30 d.stateByte), 0, false, kind⟩
  if lost then ringLost d1 r else d1

/-- Only the holder writes shared rings; the other device of a pair writes no record of them (R572). -/
def emitShared (d : Dev) (r : Nat) (kind : RecKind) (data : Nat) : Dev :=
  if d.holds then emit d r kind data else keep d (.record r kind data)

/-- A ring takes sequence numbers from 0 at enable; events queued before take theirs in order (R573, R660). -/
def renumber : List QRec → Nat → List QRec × Nat
  | [], n => ([], n)
  | q :: t, n =>
    if q.kind = .event then
      let v := q.data.toNat
      let q1 := { q with data := BitVec.ofNat 256 (v - atByte 16 (byteField q.data 16 4) + atByte 16 (n % 2 ^ 32)) }
      let (t1, m) := renumber t (n + 1)
      (q1 :: t1, m)
    else
      let (t1, m) := renumber t n
      (q :: t1, m)

/-! ### Hoists (R593 to R599) -/

/-- The values of the selected registers for a trigger of page `p` (R593). -/
def hoistValues (d : Dev) (p : Nat) (manual : Bool) : List Nat :=
  (List.range 16).filterMap fun i =>
    let sel := (d.regs.inUse (wordAddr pageRec (0x100 + 8 * i))).toNat
    if bit sel 31 then
      let page := if bit sel 30 && !manual then p else bits sel 12 10
      some (readReg d (wordAddr page (bits sel 2 10 * 4))).toNat
    else none

/-- The 96 bytes of a hoist (R597). -/
def hoistRecord (d : Dev) (tick source bitNo kind : Nat) (vals : List Nat) : BitVec 768 :=
  let head := atByte 0 (tick % 2 ^ 64) + atByte 8 d.recorder.serial.toNat + atByte 12 source + atByte 14 bitNo +
    atByte 15 kind + atByte 16 vals.length + atByte 17 (d.fld pageRec 0x040 0 1) + atByte 18 d.stateByte
  BitVec.ofNat 768 (vals.foldl (fun (a : Nat × Nat) v => (a.1 + atByte (32 + 4 * a.2) v, a.2 + 1)) (head, 0)).1

/-- REC_MISSED_FULL counts a trigger that a full log cannot take (R599). -/
def missFull (d : Dev) : Dev :=
  let x := d.recorder
  { d with recorder := { x with missedFull := if x.missedFull = 0xFFFFFFFF#32 then x.missedFull else x.missedFull + 1 } }

/-- A hoist is written at index REC_COUNT, or counted as missed by a full log (R598, R599). -/
def writeHoist (d : Dev) (tick source bitNo kind : Nat) (vals : List Nat) : Dev :=
  let x := d.recorder
  if log2Cap d ≤ x.log.length then missFull d
  else
    let d1 := { d with recorder :=
      { x with log := hoistRecord d tick source bitNo kind vals :: x.log, serial := x.serial + 1 } }
    if x.log.length + 1 = log2Cap d then
      raise d1 pageRec 0 clsHousekeeping sevWarning 0x0E01 (pay 0 0 0 (x.log.length + 1))
    else d1

/-- The order in which triggers are captured: by clock, and in one clock by page and then by pennant bit ascending
(R595). -/
def Trigger.before (t u : Trigger) : Bool :=
  decide (List.Lex (· < ·) [t.tick, t.page, t.bit] [u.tick, u.page, u.bit])
def insertTrigger (t : Trigger) : List Trigger → List Trigger
  | [] => [t]
  | u :: l => if t.before u then t :: u :: l else u :: insertTrigger t l
def sortTriggers (l : List Trigger) : List Trigger := l.foldl (fun acc t => insertTrigger t acc) []

/-- One trigger is captured with the values of the clock after its own (R594), or missed when its clock has taken 8 (R595);
a full log counts every trigger (R599). -/
def captureTrigger (d0 : Dev) (t : Trigger) : Dev :=
  let d := { d0 with tick := t.tick + 1 }
  let x := d.recorder
  let n := if x.clock = t.tick then x.captured else 0
  if n < 8 then
    let d1 := { d with recorder := { x with clock := t.tick, captured := n + 1 } }
    writeHoist d1 t.tick t.page t.bit t.kind (hoistValues d t.page (t.kind == 2))
  else
    let d1 := { d with recorder :=
      { x with missedBurst := if x.missedBurst = 0xFFFFFFFF#32 then x.missedBurst else x.missedBurst + 1 } }
    let once := decide (x.missedEvent ≠ d.cycle + 1)
    let d2 := raiseLimited d1 once pageRec 1 clsHousekeeping sevNotice 0x0E04 (pay 0 0 0 (x.missedBurst.toNat + 1))
    let d3 := if once then { d2 with recorder := { d2.recorder with missedEvent := d.cycle + 1 } } else d2
    if log2Cap d3 ≤ d3.recorder.log.length then missFull d3 else d3

/-- One round: the triggers of the clocks before tick `t` are hoisted in order; those that the hoists themselves raise wait
for the next round or for their next clock. -/
def captureRound (t : Nat) (d : Dev) : Dev :=
  let due := d.recorder.triggers.filter fun x => decide (x.tick < t)
  let rest := d.recorder.triggers.filter fun x => !decide (x.tick < t)
  { (sortTriggers due).foldl captureTrigger { d with recorder := { d.recorder with triggers := rest } } with tick := d.tick }

/-- Time goes on to tick `t`: the triggers of the clocks before it are hoisted, each in the clock after its own (R594,
R595). A hoist may raise FULL or MISSED of the recorder's own page, and that one rise may be hoisted in turn: two more
rounds take every such rise. -/
def Dev.advance (d : Dev) (t : Nat) : Dev :=
  if d.tick < t then
    { (if d.recorder.triggers.isEmpty then d else captureRound t (captureRound t (captureRound t d))) with tick := t }
  else d

/-- The time of a command that arrives `t` ticks into the current cycle: time never runs back (log entry 2). -/
def Dev.arrive (d : Dev) (t : Nat) : Dev := d.advance (d.cycle * 1250 + min t 1249)

/-! ### MSI-X (R586) -/

/-- An MSI-X message for `ring` is sent on `vector`, or its PBA bit set while the vector is masked; one message serves two
rings that send within 1 µs (R586). `ring` is 64 for the message that unmasking a pending vector sends, which is no ring's. -/
def sendMsix (d : Dev) (vector ring : Nat) : Dev :=
  if bit (d.hif.msix.get msixReset (4 * vector + 3)).toNat 0 then
    { d with hif := { d.hif with pba := d.hif.pba ||| BitVec.ofNat 64 (2 ^ vector) } }
  else if ring = 64 then d.send (.msix vector)
  else
    let last := d.hif.lastMsg.get (same 0) vector
    if last ≠ 0 ∧ d.tick < last - 1 + 250 ∧ d.hif.lastRing.get (same 0) vector ≠ ring + 1 then d
    else
      ({ d with hif := { d.hif with
        lastMsg := d.hif.lastMsg.set (same 0) vector (d.tick + 1), lastRing := d.hif.lastRing.set (same 0) vector (ring + 1) } }).send
        (.msix vector)

/-! ### The shape of every meaning -/

/-- A command's effect on the device, with the outputs of that command. -/
def onDev (s : State) (f : Dev → Dev) : Host.Outcome State Fault Refusal :=
  .next { s with dev := f { s.dev with out := [] } }

/-- The same where the non-volatile stores take part. -/
def onBoth (s : State) (f : NonVolatile → Dev → NonVolatile × Dev) : Host.Outcome State Fault Refusal :=
  let r := f s.nv { s.dev with out := [] }
  .next { s with nv := r.1, dev := r.2 }

end Sys2Proof.Machine
end

