-- ==== Sys2Proof/Machine/Bus.lean ====
section
/-! DEFINITION. The checks of a BAR0 write and the storing of an accepted one (R28 to R33, R39, R41, R45 to R48,
R52 to R58, R630): everything but what a taken write sets off in its block. -/
namespace Sys2Proof.Machine

/-! ### Refusals (R55 to R57) -/

def refusedLocked : Nat := 0x01
def refusedSealed : Nat := 0x02
def refusedRange : Nat := 0x03
def refusedExpert : Nat := 0x04
def refusedPending : Nat := 0x05
def refusedStandby : Nat := 0x06

/-- A refused write: ERRW and PEN.REFUSED of the page, with the event of R56. An unassigned page is recorded on DEV. -/
def refuse (d : Dev) (p off reason : Nat) : Dev :=
  let q := match pageOf p with | some _ => p | none => pageDev
  let more := d.rfld q 0x024 31 1
  let d1 := d.setReg q 0x024 (off % 4096 + (p % 1024) <<< 12 + more <<< 22 + reason <<< 24 + 1 <<< 31)
  raise d1 q 31 clsHousekeeping sevNotice (0x0100 + reason) (payW off 0 0)

/-- A BAR2 write that is discarded and recorded with OFFSET 0x01C (R64). -/
def refuseTable (d : Dev) (p reason : Nat) : Dev := refuse d p 0x01C reason

/-! ### Masks of a register's fields -/

def Field.mask (f : Field) : Nat := (2 ^ f.width - 1) <<< f.lo
def maskWhere (r : Reg) (q : Field → Bool) : Nat := r.fields.foldl (fun m f => if q f then m ||| f.mask else m) 0
def Field.writable (f : Field) : Bool := f.acc == .rw || f.acc == .wo || f.acc == .sl
def Field.commitGroup (f : Field) : Option Nat :=
  match f.app with | .commit g => some g | .heat g => some g | _ => none
/-- `old` with the bits of `m` taken from `v`. -/
def mergeBits (old v m : Nat) : Nat := old - (old &&& m) + (v &&& m)

/-! ### Commit groups (R42 to R49) -/

/-- Where a page's groups apply (R44). -/
inductive Boundary where
  | cycle | frame | line | move | job | heat | commit
  deriving DecidableEq, Repr

def PageKind.boundary : PageKind → Boundary
  | .sch | .ldl | .tmp | .srv | .fbk | .stn | .axs | .fch | .emu => .cycle
  | .img | .ipl | .ctx => .frame
  | .lhd | .seg => .line
  | .stp | .sax => .move
  | .icd => .job
  | .cal => .heat
  | .mld => .cycle
  | .dev | .tim | .mon | .hif | .evq | .recd | .par | .mem | .lnk | .lan | .rng | .lgy => .commit

/-- The groups a kind defines: those of its fields, and the groups that hold tables only: the field-correction
banks of STN (R210) and the tables of CTX (R343, R344). -/
def PageKind.defines (k : PageKind) (g : Nat) : Bool :=
  (k == .stn && g == 3) || (k == .ctx && g == 1) ||
    k.regs.any fun r => r.fields.any fun f => f.commitGroup == some g

/-- Whether group `g` of a kind applies at a heat boundary (R44). -/
def PageKind.heatGroup (k : PageKind) (g : Nat) : Bool :=
  (k == .stn && g == 3) || (k == .ctx && g == 1) || k == .cal ||
    k.regs.any fun r => r.fields.any fun f => f.app == .heat g

def groupPending (d : Dev) (p g : Nat) : Bool := d.regs.pend.any fun x => x.page == p && x.group == g

/-! ### Checks -/

/-- Whether every writable field of the register admits its part of `v` (R12). -/
def valuesOk (r : Reg) (v : Nat) : Bool :=
  r.fields.all fun f =>
    !f.writable ||
      (let x := bits v f.lo f.width
       (f.ok.isEmpty || f.ok.any fun (a, b) => decide (a ≤ x ∧ x ≤ b)) && x &&& f.zero == 0)

/-- A trace signal: SOURCE and AXIS as R270 lists them, bit 15 zero. -/
def signalOk (x : Nat) : Bool :=
  (decide (bits x 0 8 ≤ 0x48) || decide (0x50 ≤ bits x 0 8 ∧ bits x 0 8 ≤ 0x52)) && decide (bits x 8 8 < 96)

/-- The further reserved values and registers that a kind's chapter names (R270, R348, R535, R591). -/
def kindRangeOk (k : PageKind) (i off v : Nat) : Bool :=
  match k with
  | .ctx =>
    if i < 32 then
      -- coaxial: CTX_GEOM is refused, DATA_TYPE and MOSAIC_PHASE bit 1 have no further value
      off != 0x058 && (off != 0x05C || bits v 1 1 == 0)
    else
      (off != 0x044 || (bits v 0 13 == 0 && bits v 16 3 == 0)) &&
        (off != 0x05C || (bits v 8 2 == 0 && bits v 10 1 == 0))
  | .rng =>
    if off = 0x04C then !deviceWrites i
    else if off = 0x050 then deviceWrites i
    else if off = 0x060 ∨ off = 0x064 ∨ off = 0x06C ∨ off = 0x070 then decide (24 ≤ i ∧ i ≤ 39) || i == 63
    else if off = 0x068 then decide (32 ≤ i ∧ i ≤ 39)
    else true
  | .mem => off != 0x040 || bits v 1 2 != 3
  | .srv =>
    if off < 0x100 then true
    else if off % 16 = 0 then signalOk (bits v 0 16)
    else if off % 16 = 8 then signalOk (bits v 8 16)
    else true
  | _ => true

/-- EXPOSE_TICKS of an overview context stays 0: the range of the field is that of coaxial contexts (R348). -/
def ctxExposeOk (k : PageKind) (i off v : Nat) : Bool :=
  k == .ctx && decide (32 ≤ i) && off == 0x044 && bits v 0 13 == 0 && bits v 16 3 == 0

/-- Order 1 of R57 for a register of a block, `v` its whole new value. -/
def rangeRefused (k : PageKind) (i : Nat) (r : Reg) (v : Nat) : Bool :=
  !(r.fields.any Field.writable) || !(valuesOk r v || ctxExposeOk k i r.off v) || !kindRangeOk k i r.off v

/-- Order 2 to 4 of R57 that hold for every register of a page (R39, R58, R630). -/
def pageRefused (d : Dev) (k : PageKind) (p off : Nat) : Option Nat :=
  if k.mirrored ∧ (d.par.role = roleStandby ∨ d.par.role = roleJoining ∨ d.par.role = roleOut) then
    some refusedStandby
  else if 0x100 ≤ off ∧ d.flag p 0x008 1 = false ∧ ¬(k = .hif ∧ 0x800 ≤ off ∧ off < 0xC08) then some refusedExpert
  else if d.boot.stage < 5 ∧ k ≠ .dev ∧ k ≠ .hif then some refusedLocked
  else none

/-- A Locked field would change while CTL.ENABLE is 1 (R54). -/
def lockedRefused (d : Dev) (p : Nat) (r : Reg) (old v : Nat) : Bool :=
  d.enabled p &&
    r.fields.any fun f =>
      f.app == .locked && f.writable &&
        (if f.acc = .wo then bits v f.lo f.width != 0 else bits v f.lo f.width != bits old f.lo f.width)

/-- A field of a pending group would be written (R47). -/
def pendingRefused (d : Dev) (p : Nat) (r : Reg) : Bool :=
  r.fields.any fun f => f.writable && (match f.commitGroup with | some g => groupPending d p g | none => false)

/-- The readable value of the whole register at offset `off` (64 bits where it is wide). -/
def regValue (d : Dev) (p : Nat) (r : Reg) (off : Nat) : Nat :=
  (d.regs.read (wordAddr p off)).toNat +
    (if r.wide then (d.regs.read (wordAddr p (off + 4))).toNat <<< 32 else 0)

/-- The reason for which a write of `v` to the register starting at `off` is refused, if any (R57 without SEALED,
which the mould and the recorder add themselves). -/
def blockRefused (d : Dev) (k : PageKind) (p off : Nat) (r : Reg) (v : Nat) : Option Nat :=
  if rangeRefused k (instOf p) r v then some refusedRange
  else
    match pageRefused d k p off with
    | some c => some c
    | none =>
      if lockedRefused d p r (regValue d p r off) v then some refusedLocked
      else if pendingRefused d p r then some refusedPending
      else none

/-! ### Presets (R41, R236, R419, R550) -/

/-- The fields that a preset value loads: offset, low bit, width, value. -/
def presetLoads (k : PageKind) (preset : Nat) : List (Nat × Nat × Nat × Nat) :=
  match k with
  | .stn =>
    if preset = 1 then [(0x100, 0, 16, 20000), (0x104, 0, 16, 20000), (0x104, 16, 16, 50000), (0x108, 0, 16, 10000), (0x108, 16, 16, 25000)]
    else if preset = 2 then [(0x100, 0, 16, 10000), (0x104, 0, 16, 10000), (0x104, 16, 16, 25000), (0x108, 0, 16, 5000), (0x108, 16, 16, 12500)]
    else if preset = 3 then [(0x100, 0, 16, 5000), (0x104, 0, 16, 5000), (0x104, 16, 16, 12500), (0x108, 0, 16, 2500), (0x108, 16, 16, 6250)]
    else []
  | .sax =>
    if preset = 1 then [(0x100, 0, 16, 500), (0x100, 16, 1, 1), (0x104, 0, 24, 50000), (0x108, 0, 24, 50000), (0x10C, 0, 32, 2000000), (0x110, 0, 24, 500000)]
    else if preset = 2 then [(0x100, 0, 16, 1000), (0x100, 16, 1, 0), (0x104, 0, 24, 200000), (0x108, 0, 24, 200000), (0x10C, 0, 32, 10000000), (0x110, 0, 24, 1000000)]
    else []
  | .mem =>
    let c := if preset = 1 then 42 else if preset = 2 then 46 else 50
    if 1 ≤ preset ∧ preset ≤ 3 then [(0x1A0, 0, 8, c), (0x1A0, 8, 8, c), (0x1A0, 16, 8, c)] else []
  | _ => []

/-- Where a kind's preset field stands: offset, low bit, width. -/
def presetField (k : PageKind) : Option (Nat × Nat × Nat) :=
  match k with
  | .stn => some (0x040, 0, 3)
  | .sax => some (0x058, 0, 2)
  | .mem => some (0x044, 0, 2)
  | _ => none

/-- Whether a preset of the kind covers the register at `off`. -/
def presetCovers (k : PageKind) (off : Nat) : Bool :=
  match k with
  | .stn => off == 0x100 || off == 0x104 || off == 0x108
  | .sax => decide (0x100 ≤ off ∧ off ≤ 0x110)
  | .mem => off == 0x1A0
  | _ => false

def Dev.setStaged (d : Dev) (p off lo w v : Nat) : Dev :=
  let a := wordAddr p off
  { d with regs := d.regs.setRead a (setBits (d.regs.read a) lo w v) }

/-- A written preset loads its fields; a later write of one of them makes the preset read CUSTOM (R41). -/
def applyPreset (d : Dev) (k : PageKind) (p off v : Nat) : Dev :=
  match presetField k with
  | none => d
  | some (po, plo, pw) =>
    if off = po then
      (presetLoads k (bits v plo pw)).foldl (fun d (f : Nat × Nat × Nat × Nat) => d.setStaged p f.1 f.2.1 f.2.2.1 f.2.2.2) d
    else if presetCovers k off then d.setStaged p po plo pw 0
    else d

/-! ### Storing an accepted write -/

def Dev.mergeRead (d : Dev) (p off v m : Nat) : Dev :=
  let a := wordAddr p off
  { d with regs := d.regs.setRead a (word (mergeBits (d.regs.read a).toNat v m)) }
def Dev.mergeInUse (d : Dev) (p off v m : Nat) : Dev :=
  let a := wordAddr p off
  { d with regs := d.regs.setInUse a (word (mergeBits (d.regs.inUse a).toNat v m)) }
def Dev.mergeWide (f : Dev → Nat → Nat → Nat → Nat → Dev) (d : Dev) (p off v m : Nat) (wide : Bool) : Dev :=
  let d1 := f d p off (v % 2 ^ 32) (m % 2 ^ 32)
  if wide then f d1 p (off + 4) (v >>> 32) (m >>> 32) else d1

/-- Bits of a register that a write stores: every writable field. -/
def storeMask (r : Reg) : Nat := maskWhere r fun f => f.writable && f.app != .seal
/-- Bits of its Live fields that hold a value. -/
def liveMask (r : Reg) : Nat := maskWhere r fun f => f.app == .live && f.acc == .rw
/-- Whether a write of the register has Live fields to apply. -/
def hasLive (r : Reg) : Bool := r.fields.any fun f => f.app == .live && f.writable

/-- An accepted write is stored: every writable field in the readable copy; Live fields of an unmirrored page in the
copy in use as well, those of a mirrored page after the start of cycle n + 3 (R42, R45, R46, R54). -/
def storeWrite (d : Dev) (k : PageKind) (p off : Nat) (r : Reg) (v : Nat) : Dev :=
  let d1 := Dev.mergeWide Dev.mergeRead d p off v (storeMask r) r.wide
  let d2 := applyPreset d1 k p off v
  if hasLive r then
    if k.mirrored then
      { d2 with regs := { d2.regs with live := d2.regs.live ++ [⟨wordAddr p off, BitVec.ofNat 64 v, r.wide, d.cycle⟩] } }
    else Dev.mergeWide Dev.mergeInUse d2 p off v (liveMask r) r.wide
  else d2

/-- The Locked fields of a page take their held values at a rise of CTL.ENABLE (R42, R54). -/
def takeLocked (d : Dev) (p : Nat) : Dev :=
  match kindOf p with
  | none => d
  | some k =>
    k.regs.foldl (fun d r =>
      let m := maskWhere r fun f => f.app == .locked
      if m = 0 then d
      else upto r.count (fun d j =>
        let off := r.off + j * r.stride
        let v := regValue d p r off
        let d1 := Dev.mergeWide Dev.mergeInUse d p off v m r.wide
        -- a write-only Locked field is taken once
        Dev.mergeWide Dev.mergeRead d1 p off 0 (maskWhere r fun f => f.app == .locked && f.acc == .wo) r.wide) d) d

/-- Group `g` of a page takes its staged values at once and is no longer pending (R46). -/
def takeGroup (d : Dev) (p g : Nat) : Dev :=
  match kindOf p with
  | none => d
  | some k =>
    let d1 := k.regs.foldl (fun d r =>
      let m := maskWhere r fun f => f.commitGroup == some g
      if m = 0 then d
      else upto r.count (fun d j =>
        let off := r.off + j * r.stride
        let v := regValue d p r off
        let d1 := Dev.mergeWide Dev.mergeInUse d p off v m r.wide
        Dev.mergeWide Dev.mergeRead d1 p off 0 (maskWhere r fun f => f.commitGroup == some g && f.acc == .wo) r.wide) d) d
    { d1 with regs := { d1.regs with pend := d1.regs.pend.filter fun x => !(x.page == p && x.group == g) } }

/-! ### Values that take effect with an event (R45, R49) -/

/-- The word at `a` in use at the start of cycle `k`, with the Live writes that take effect by then. -/
def inUseAt (d : Dev) (a k : Nat) : Nat :=
  d.regs.live.foldl (fun v l => if l.addr = a ∧ l.cycle + 3 ≤ k then l.data.toNat % 2 ^ 32 else v) (d.regs.inUse a).toNat
def enabledAt (d : Dev) (p k : Nat) : Bool := bit (inUseAt d (wordAddr p 0x008) k) 0

/-- DEV_COMMIT_HOLD lets groups that it held apply in cycle `k`: it is 0, and returned to 0 three cycles before (R52). A
group committed after the return is not ripe before that cycle either. -/
def holdAllows (d : Dev) (k : Nat) : Bool :=
  !d.flag pageDev 0x040 0 && (!d.regs.everHeld || decide (d.regs.released + 3 ≤ k))
/-- The group is pending and its cycle n + 3 has begun by cycle `k`. -/
def groupRipe (d : Dev) (p k g : Nat) : Bool :=
  holdAllows d k && d.regs.pend.any fun x => x.page == p && x.group == g && decide (x.cycle + 3 ≤ k)

/-- The pending group was committed before the first heat after reset started (R50). -/
def groupEarly (d : Dev) (p g : Nat) : Bool := d.regs.pend.any fun x => x.page == p && x.group == g && x.early

/-- A word of page `p` with the groups of `due` at their staged values. -/
def dueWord (d : Dev) (p off : Nat) (due : Nat → Bool) : Nat :=
  let a := wordAddr p off
  match (kindOf p).bind fun k => k.reg? off with
  | none => 0
  | some r => mergeBits (d.regs.inUse a).toNat (d.regs.read a).toNat
      (maskWhere r fun f => match f.commitGroup with | some g => due g | none => false)

/-! ### Header registers -/

/-- A write to CTL, PEN, PEN_EVT, PEN_HOIST or ERRW: the reason it is refused. COMMIT has its own command. -/
def headerRefused (d : Dev) (k : PageKind) (p off v : Nat) : Option Nat :=
  if off = 0x008 ∧ v >>> 16 ≠ 0 then some refusedRange
  else if off = 0x008 ∨ off = 0x010 ∨ off = 0x014 ∨ off = 0x018 ∨ off = 0x024 then pageRefused d k p off
  else some refusedRange

/-- The pennants of page `p` whose cause occurred in the present tick: a W1C write in the same clock leaves them set
(R36). -/
def pensNow (d : Dev) (p : Nat) : Nat := maskOf 32 fun b => d.regs.penAt.get (same 0) (32 * p + b) == d.tick + 1

/-- An accepted header write: PEN and ERRW clear at once, the others are Live (R34, R36, R45, R55). -/
def storeHeader (d : Dev) (k : PageKind) (p off v : Nat) : Dev :=
  if off = 0x010 then
    let old := d.rfld p 0x010 0 32
    d.setReg p 0x010 (old - (old &&& v) + (old &&& v &&& pensNow d p))
  else if off = 0x024 then (if bit v 31 then d.setReg p 0x024 0 else d)
  else
    let m := if off = 0x008 then 3 else 2 ^ 32 - 1
    let d1 := d.mergeRead p off v m
    if k.mirrored then
      { d1 with regs := { d1.regs with live := d1.regs.live ++ [⟨wordAddr p off, BitVec.ofNat 64 v, false, d.cycle⟩] } }
    else d1.mergeInUse p off v m

/-- Shared by the commands that write one named register: the write is checked against its register, and either
refused, or taken by `f`. -/
def withWrite (d : Dev) (p off v : Nat) (f : Dev → Dev) : Dev :=
  match kindOf p with
  | none => refuse d p off refusedRange
  | some k =>
    match k.reg? off with
    | none => refuse d p off refusedRange
    | some r =>
      match blockRefused d k p off r v with
      | some c => refuse d p off c
      | none => f (storeWrite d k p off r v)

/-! ### Counts that reset at the start of each heat -/

/-- The count registers of a kind that its chapter resets at the start of each heat, by offset (R160, R191, R193,
R234, R277, R278, R304, R345, R347, R348, R387, R389, R471, R506, R533, R550, R565, R589, R591, R619). -/
def PageKind.heatCounts : PageKind → List Nat
  | .sch => [0x080, 0x084, 0x088, 0x104, 0x108, 0x10C, 0x110, 0x114, 0x118, 0x11C]
  | .ldl => [0x070, 0x074]
  | .tmp => [0x070]
  | .stn => [0x084, 0x088, 0x08C]
  | .srv => [0x048, 0x04C]
  | .axs => [0x054, 0x058]
  | .fch => [0x078, 0x07C]
  | .img => [0x064, 0x068, 0x06C, 0x074, 0x078, 0x07C, 0x080, 0x084]
  | .ipl => [0x068]
  | .ctx => [0x070, 0x074, 0x078, 0x07C]
  | .lhd => [0x064, 0x068, 0x06C, 0x070, 0x074, 0x078]
  | .seg => [0x068, 0x06C]
  | .mld => [0x090, 0x094, 0x098]
  | .par => [0x07C, 0x080, 0x084, 0x088, 0x08C]
  | .lan => [0x064, 0x068, 0x06C, 0x070, 0x074]
  | .mem => [0x060, 0x064, 0x070, 0x07C, 0x108, 0x118, 0x128, 0x138, 0x148, 0x158, 0x168, 0x178, 0x188, 0x198,
      0x10C, 0x11C, 0x12C, 0x13C, 0x14C, 0x15C, 0x16C, 0x17C, 0x18C, 0x19C]
  | .icd => [0x068, 0x06C, 0x070, 0x074]
  | .hif => [0x060, 0x064, 0x068]
  | .rng => [0x074]
  | .tim => [0x090]
  | _ => []

/-- Whether the word at BAR0 address `a` is such a count. -/
def isHeatCount (a : Nat) : Bool :=
  match kindOf (a / 4096) with | some k => k.heatCounts.contains (a % 4096) | none => false

/-- The start of a heat: those counts return to 0. -/
def clearHeatCounts (d : Dev) : Dev :=
  { d with regs := { d.regs with
      acc := d.regs.acc.filter fun x => !isHeatCount x.1
      act := d.regs.act.filter fun x => !isHeatCount x.1 } }

end Sys2Proof.Machine
end

