-- ==== Sys2Proof/Machine/Host.lean ====
section
/-! DEFINITION. Host link and rings: doorbells, record writes, MSI-X, link events and the mailbox
(R566 to R588). -/
namespace Sys2Proof.Machine

/-! ### Taking an entry (R571 to R576, R585) -/

/-- The device-written ring that takes the records of a host-written ring's entries. -/
def answerRing (r : Nat) : Nat :=
  if r ≤ 7 then 48 + r else if r = 8 ∨ r = 9 then r + 2 else if r = 12 ∨ r = 13 then r + 2
  else if r = 16 ∨ r = 17 then r + 2 else r + 40

/-- The device may read the next entry of a host-written ring: enabled, not stopped, link up, entries waiting, no
entry of it under way, room for its records, and for a shared ring the ensign (R572, R576, R585). An entry that it has begun
to act on stands beyond all of that but the ensign (R576). -/
def canRead (d : Dev) (r : Nat) : Bool :=
  (!sharedRing r || d.holds) && (ringOf d r).parked.isNone && ((ringOf d r).begun ||
    (d.enabled (pageRng r) && !(ringOf d r).fault && d.hif.linkUp && ringCons d r != ringProd d r &&
      (decide (20 ≤ r ∧ r ≤ 23) || queueRoomFor d (answerRing r))))

/-- The position of the entry at hand: CONS, or where the entry begun stood. -/
def entryPos (d : Dev) (r : Nat) : Nat := if (ringOf d r).begun then (ringOf d r).at0 else ringCons d r

/-- The phase an entry must carry at position `pos` (R574). -/
def phaseAt (pos : Nat) : Nat := 1 - bits pos 16 1

/-- A wrong phase stops the ring (R576). -/
def phaseError (d : Dev) (r : Nat) : Dev :=
  let d1 := setRing d r { ringOf d r with fault := true }
  raise d1 (pageRng r) 0 clsHousekeeping sevFault 0x0A23 (pay r 0 (bits (ringCons d r) 0 16) 0)

/-- Reads the entry `e` at CONS: nothing where the ring cannot be read, the stop of R576 on a wrong phase, else
CONS advances and `f` acts on the entry; `f` is given the entry's index. -/
def takeEntry (d : Dev) (r : Nat) (e : Entry) (f : Dev → Nat → Dev) : Dev :=
  if canRead d r then
    let x := ringOf d r
    let c := entryPos d r
    if bits e.toNat 248 1 = phaseAt c then
      let d1 := setRing d r { x with begun := false, stale := false, idle := false }
      f (if x.stale then d1 else d1.setReg (pageRng r) 0x050 (posNext (ringLog2 d r) c)) (bits c 0 16)
    else phaseError d r
  else d

/-- An entry waits: for its host read, which the device has begun (R567), or for its turn. -/
def park (d : Dev) (r : Nat) (i : Instr) (begun : Bool) : Dev :=
  setRing d r { ringOf d r with parked := some i, begun := begun, at0 := ringCons d r, stale := false }
/-- Nothing of ring `r` is under way any more. -/
def unpark (d : Dev) (r : Nat) : Dev := setRing d r { ringOf d r with parked := none, begun := false, stale := false }

/-- The failed host read of an activity on ring `r` (R567): pennant, event and count. -/
def dmaFault (d : Dev) (r addr : Nat) : Dev :=
  raise (d.count pageHif 0x060) pageHif 0 clsLink sevWarning 0x0A22 (pay r 0 0 addr)

/-! ### Doorbells (R573, R575, R578) -/

/-- The device checks a doorbell against its positions: of a shared ring only where it reads or writes the ring; elsewhere it
records the doorbell (R572). -/
def checksDoorbell (d : Dev) (r : Nat) : Bool := !sharedRing r || d.holds

def prodMoveOk (d : Dev) (r v : Nat) : Bool :=
  let n := ringLog2 d r
  let used := posDist n (ringCons d r) v
  decide (bits v 0 16 < 2 ^ n) && (!checksDoorbell d r || (decide (ringUsed d r ≤ used) && decide (used ≤ 2 ^ n)))

def consMoveOk (d : Dev) (r v : Nat) : Bool :=
  let n := ringLog2 d r
  decide (bits v 0 16 < 2 ^ n) && (!checksDoorbell d r || decide (posDist n v (ringProd d r) ≤ ringUsed d r))

/-- RNG_PROD of a host-written ring announces entries; refused where it moves backwards or too far. -/
def prodDoorbell (d : Dev) (r v : Nat) : Dev :=
  if deviceWrites r || !prodMoveOk d r (bits v 0 17) then refuse d (pageRng r) 0x04C refusedRange
  else withWrite d (pageRng r) 0x04C v id

/-- RNG_CONS of a device-written ring releases records. -/
def consDoorbell (d : Dev) (r v : Nat) : Dev :=
  if !deviceWrites r || !consMoveOk d r (bits v 0 17) then refuse d (pageRng r) 0x050 refusedRange
  else withWrite d (pageRng r) 0x050 v id

/-- Positions of a data area: byte offset in [29:0], wrap in [30] (R578). -/
def auxLinear (log2 pos : Nat) : Nat := bits pos 30 1 * 2 ^ log2 + bits pos 0 30
def auxDist (log2 c p : Nat) : Nat :=
  (auxLinear log2 p + 2 * 2 ^ log2 - auxLinear log2 c % (2 * 2 ^ log2)) % (2 * 2 ^ log2)
def auxLog2 (d : Dev) (r : Nat) : Nat := d.fld (pageRng r) 0x068 0 5
def auxUsed (d : Dev) (r : Nat) : Nat :=
  auxDist (auxLog2 d r) (d.rfld (pageRng r) 0x06C 0 31) (d.rfld (pageRng r) 0x070 0 31)
def auxAdvance (log2 pos n : Nat) : Nat :=
  let x := (auxLinear log2 pos + n) % (2 * 2 ^ log2)
  (x / 2 ^ log2) <<< 30 + x % 2 ^ log2

/-- RNG_AUX_CONS of an archive ring releases data; the checks are those of R575. -/
def auxDoorbell (d : Dev) (r v : Nat) : Dev :=
  let n := auxLog2 d r
  let ok := decide (bits v 0 30 < 2 ^ n) && (!checksDoorbell d r ||
    decide (auxDist n (bits v 0 31) (d.rfld (pageRng r) 0x070 0 31) ≤ auxUsed d r))
  if !ok then refuse d (pageRng r) 0x06C refusedRange else withWrite d (pageRng r) 0x06C v id

/-! ### Writing records (R577, R579, R586) -/

/-- Whether the ring's message is due now (R586). -/
def msixDue (d : Dev) (r : Nat) : Bool :=
  d.flag (pageRng r) 0x054 8 &&
    (r == 24 || decide (d.fld (pageRng r) 0x054 16 8 ≤ (ringOf d r).unsignalled))

def signalRing (d : Dev) (r : Nat) : Dev :=
  sendMsix (setRing d r { ringOf d r with unsignalled := 0 }) (d.fld (pageRng r) 0x054 0 6) r

/-- Host addresses of entry `i` of a ring (R570) and of its bitmap (R579). -/
def entryAt (d : Dev) (r i : Nat) : Nat := d.fld (pageRng r) 0x040 0 32 + d.fld (pageRng r) 0x044 0 32 <<< 32 + 32 * i
def auxBase (d : Dev) (r : Nat) : Nat := d.fld (pageRng r) 0x060 0 32 + d.fld (pageRng r) 0x064 0 32 <<< 32
def bitmapAt (d : Dev) (r i : Nat) : Nat := auxBase d r + 64 * i

/-- The oldest queued record is written at PROD, its bitmap before it and its message after it. -/
def writeRecord (d : Dev) (r : Nat) : Dev :=
  match (ringOf d r).queue with
  | [] => d
  | q :: rest =>
    if mayWriteRing d r && !ringFull d r then
      let pos := ringProd d r
      let x := ringOf d r
      let data := BitVec.ofNat 256 (q.data.toNat + atByte 31 (phaseAt pos))
      let d1 := setRing d r
        { x with queue := rest, unsignalled := x.unsignalled + 1, oldest := if x.unsignalled = 0 then d.tick else x.oldest }
      let d2 := if q.withMap then d1.send (.bitmap r (bits pos 0 16) (bitmapAt d r (bits pos 0 16)) q.bitmap) else d1
      let d3 := (d2.setReg (pageRng r) 0x04C (posNext (ringLog2 d r) pos)).send (.record r (bits pos 0 16) (entryAt d r (bits pos 0 16)) data)
      if msixDue d3 r then signalRing d3 r else d3
    else d

/-- MOD_TIME µs have passed since the oldest unsignalled record (R586). -/
def moderationTimer (d : Dev) (r : Nat) : Dev :=
  let x := ringOf d r
  let time := d.fld (pageRng r) 0x058 0 16
  if d.flag (pageRng r) 0x054 8 && decide (0 < x.unsignalled) && time != 0 && decide (x.oldest + 250 * time ≤ d.tick)
      && (!sharedRing r || d.holds) then
    signalRing d r
  else d

/-- The oldest window whose last cycle has passed ends (R583). -/
def closeWindow (d : Dev) : Dev :=
  match d.hif.windows.find? fun w => decide (w.upTo ≤ d.cycle) with
  | none => d
  | some w =>
    let d1 := { d with hif := { d.hif with windows := d.hif.windows.erase w } }
    routeEvent (if w.code = 0x0A24 then deliverPlain else deliver) d1 { w with bitmap := if 2 ≤ w.count then w.bitmap else 0 }

/-! ### Link (R566, R568) -/

/-- The link stands at a speed and width. -/
def setLink (d : Dev) (up : Bool) (speed : BitVec 3) (width : BitVec 4) : Dev :=
  { d with hif := { d.hif with linkUp := up, speed := speed, width := width } }

def linkRetrained (d : Dev) (speed : BitVec 3) (width : BitVec 4) : Dev :=
  if d.hif.linkUp then
    let lower := decide (speed.toNat < d.hif.speed.toNat ∨ width.toNat < d.hif.width.toNat)
    let d1 := setLink d true speed width
    if lower then raise d1 pageHif 1 clsLink sevWarning 0x0A20 (pay speed.toNat width.toNat 0 0) else d1
  else d

def linkWentDown (d : Dev) : Dev :=
  if d.hif.linkUp then raise (setLink d false 0 0) pageHif 2 clsLink sevFault 0x0A21 0 else d

/-- The link trains: from boot step 2 on (R629). -/
def linkTrained (d : Dev) (speed : BitVec 3) (width : BitVec 4) : Dev :=
  if 2 ≤ d.boot.stage then setLink d true speed width else d

/-! ### Mailbox (R588) -/

/-- Bytes 8 to 29 of an answer: IDENTIFY and ECHO as R588 gives them; of an unsupported opcode the spec gives no
data, so they are free values (log entry 4). -/
def mailboxData (d : Dev) (e : Entry) : Nat × Dev :=
  let op := byteField e 0 2
  if op = 1 then
    (atByte 8 d.boot.fwVersion.toNat + atByte 12 d.boot.schema.toNat + atByte 13 (d.boot.schema - 1).toNat +
      atByte 16 Config.serial.toNat, d)
  else if op = 2 then (atByte 8 (byteField e 8 22), d)
  else
    let (a, d1) := d.fresh
    let (b, d2) := d1.fresh
    let (c, d3) := d2.fresh
    (atByte 8 a.toNat + atByte 16 b.toNat + atByte 24 (c.toNat % 2 ^ 48), d3)

/-- Firmware answers a request of ring `20 + k` on ring `60 + k`; requests of ring 23 need no answer. -/
def mailboxAnswer (d : Dev) (k : Nat) (e : Entry) : Dev :=
  if k < 3 then
    let op := byteField e 0 2
    let (data, d1) := mailboxData d e
    let status := if op = 1 ∨ op = 2 then 0 else 0xFFFF
    emit d1 (60 + k) .plain (atByte 0 op + atByte 2 status + atByte 4 (byteField e 4 4) + data)
  else d

/-- A mailbox entry is taken while firmware runs (R629 step 4 on). -/
def mailboxEntry (d : Dev) (k : Nat) (e : Entry) : Dev :=
  if 4 ≤ d.boot.stage then takeEntry d (20 + k) e fun d _ => mailboxAnswer d k e else d

/-! ### Meanings -/

/-- R575. -/
def execRngProdDoorbell (t : Nat) (ring : Fin 64) (value : Word) (s : State) : Host.Outcome State Fault Refusal :=
  onDev s fun d => prodDoorbell (d.arrive t) ring.val value.toNat
/-- R575. -/
def execRngConsDoorbell (t : Nat) (ring : Fin 64) (value : Word) (s : State) : Host.Outcome State Fault Refusal :=
  onDev s fun d => consDoorbell (d.arrive t) ring.val value.toNat
/-- R578. -/
def execRngAuxCons (t : Nat) (ring : Fin 64) (value : Word) (s : State) : Host.Outcome State Fault Refusal :=
  onDev s fun d => auxDoorbell (d.arrive t) ring.val value.toNat
/-- R577. -/
def execRingRecordWrite (t : Nat) (ring : Fin 64) (s : State) : Host.Outcome State Fault Refusal :=
  onDev s fun d => writeRecord (d.arrive t) ring.val
/-- R583. -/
def execCoalesceWindowEnd (s : State) : Host.Outcome State Fault Refusal := onDev s closeWindow
/-- R586. -/
def execMsixModerationTimer (t : Nat) (ring : Fin 64) (s : State) : Host.Outcome State Fault Refusal :=
  onDev s fun d => moderationTimer (d.arrive t) ring.val
/-- R568. -/
def execLinkDegraded (t : Nat) (speed : BitVec 3) (width : BitVec 4) (s : State) : Host.Outcome State Fault Refusal :=
  onDev s fun d => linkRetrained (d.arrive t) speed width
/-- R568. -/
def execLinkDown (t : Nat) (s : State) : Host.Outcome State Fault Refusal :=
  onDev s fun d => linkWentDown (d.arrive t)
/-- R568. -/
def execPcieLinkUp (t : Nat) (speed : BitVec 3) (width : BitVec 4) (s : State) : Host.Outcome State Fault Refusal :=
  onDev s fun d => linkTrained (d.arrive t) speed width
/-- R566. -/
def execPcieErrorLogged (t : Nat) (correctable : Bool) (s : State) : Host.Outcome State Fault Refusal :=
  onDev s fun d => (d.arrive t).count pageHif (if correctable then 0x064 else 0x068)
/-- R588. -/
def execIdentify (t : Nat) (r : Fin 4) (e : Entry) (s : State) : Host.Outcome State Fault Refusal :=
  onDev s fun d => mailboxEntry (d.arrive t) r.val e
/-- R588. -/
def execEcho (t : Nat) (r : Fin 4) (e : Entry) (s : State) : Host.Outcome State Fault Refusal :=
  onDev s fun d => mailboxEntry (d.arrive t) r.val e
/-- R588. -/
def execMailboxUnsupported (t : Nat) (r : Fin 4) (e : Entry) (s : State) : Host.Outcome State Fault Refusal :=
  onDev s fun d => mailboxEntry (d.arrive t) r.val e

end Sys2Proof.Machine
end

