-- ==== Sys2Proof/Machine/StepperOps.lean ====
section
/-! DEFINITION. The stepper block: conversions, step timing, moves, virtual limits, position compare and coil
current (R390 to R415), and what stops them. -/
namespace Sys2Proof.Machine

def maskAxes (m : Nat) : List Nat := (List.range 12).filter fun x => bit m x

/-! ### Conversions (R392) -/

/-- Bed coordinate in nm to microsteps, rounded half away from zero. -/
def bedToSteps (d : Dev) (x : Nat) (nm : Int) : Int := divRound ((nm - axisOrigin d x) * 65536) (max 1 (axisScale d x))
/-- mm/s to millisteps/s. -/
def speedToSteps (d : Dev) (x : Nat) (mmps : Nat) : Nat := mmps * 65536 * 1000000000 / max 1 (axisScale d x)

/-! ### Groups and motion (R391, R396) -/

def gantryMask : Nat := 0x003
def platformMask : Nat := 0x03C
def dosingMask : Nat := 0x0C0
def mouldStep (d : Dev) (x : Nat) : Nat := d.fld pageMld (0x600 + 4 * x) 0 20
def limitLo (d : Dev) (x : Nat) : Int := d.sfld (pageSax x) 0x048 0 32
def limitHi (d : Dev) (x : Nat) : Int := d.sfld (pageSax x) 0x04C 0 32
def insideLimits (d : Dev) (x : Nat) (p : Int) : Bool := decide (limitLo d x ≤ p ∧ p ≤ limitHi d x)

/-! ### Step timing (R399) -/

def ceilDiv (a b : Nat) : Nat := (a + b - 1) / b
/-- Steps to stop from `v` down to `vs` at `dec`. -/
def stopSteps (v vs dec acc jerk : Nat) (scurve : Bool) : Nat :=
  ceilDiv (v * v - vs * vs) (2 * dec * 1000000) + (if scurve then ceilDiv (v * acc) (2 * jerk * 1000) else 0)
def Move.nStop (m : Move) : Nat := stopSteps m.v m.vs m.dec m.acc m.jerk m.scurve

/-- The interval after a step (next_interval of R399); `m` already counts the step. -/
def Move.nextInterval (m : Move) : Move :=
  let r := m.last - m.issued
  let braking := decide (r ≤ m.nStop)
  let goal := if braking then m.vs else m.vmax
  let rate := if braking then m.dec else m.acc
  let gap := if m.v ≤ goal then goal - m.v else m.v - goal
  let ramp := m.jerk * m.iv / 16384000000000
  let a :=
    if gap = 0 then 0
    else if !m.scurve then rate
    else if gap * (2 * m.jerk) ≤ m.a * m.a * 1000 then max (m.a - ramp) (rate / 16)
    else min (m.a + ramp) rate
  let dv := min (a * m.iv / 16384000000) gap
  let v := if m.v ≤ goal then m.v + dv else m.v - dv
  let iv := 16384000000000000 / max 1 v
  { m with a := a, v := v, iv := iv, time := m.time + iv }

/-- The follower position of R402 after the lead's `i` steps of `n`. -/
def followerPos (start travel : Int) (i n : Nat) : Int :=
  let t := travel.natAbs
  let k := (2 * i * t + n) / (2 * max 1 n)
  if travel < 0 then start - k else start + k

/-! ### Coil current (R411 to R414) -/

/-- tab[k] = round(1,023 sin(2πk ÷ 1,024)): the first quadrant, read from a sine in 2⁻⁶⁴ units. -/
def sinScaled (num den : Nat) : Nat :=
  -- sine of the angle (num/den) quarter turns by its series in 2⁻¹²⁸ units, π/2 to 2⁻¹²⁸
  let one := 2 ^ 128
  let halfPi := 534514292032483373929840186580935391650
  let x := halfPi * num / den
  let x2 := x * x / one
  let t3 := x * x2 / one / 6
  let t5 := t3 * x2 / one / 20
  let t7 := t5 * x2 / one / 42
  let t9 := t7 * x2 / one / 72
  let t11 := t9 * x2 / one / 110
  let t13 := t11 * x2 / one / 156
  let t15 := t13 * x2 / one / 210
  let t17 := t15 * x2 / one / 272
  let t19 := t17 * x2 / one / 342
  let t21 := t19 * x2 / one / 420
  let t23 := t21 * x2 / one / 506
  (x + t5 + t9 + t13 + t17 + t21) - (t3 + t7 + t11 + t15 + t19 + t23)

def quarterSine (k : Nat) : Nat := (sinScaled k 256 * 1023 * 2 + 2 ^ 128) / 2 ^ 129
def sineTable (idx : Nat) : Int :=
  let k := idx % 1024
  if k ≤ 256 then quarterSine k else if k ≤ 512 then quarterSine (512 - k)
  else if k ≤ 768 then -(quarterSine (k - 512) : Int) else -(quarterSine (1024 - k) : Int)

/-- Gate outputs of a state: H1, L1, H2, L2 in bits 0 to 3 (R413). -/
def CoilMode.gates : CoilMode → BitVec 4
  | .off => 0b0000#4
  | .drive false => 0b1001#4
  | .drive true => 0b0110#4
  | .fast false => 0b0110#4
  | .fast true => 0b1001#4
  | .slow => 0b1010#4

/-- A coil changes state: outputs that turn off do so at once, the others after the dead time (R414). -/
def Coil.enter (c : Coil) (m : CoilMode) : Coil :=
  if c.mode = m then c
  else { c with mode := m, gates := c.gates &&& m.gates, rising := m.gates &&& ~~~c.gates }
/-- Every output off at once. -/
def Coil.stop (c : Coil) : Coil := { c with mode := .off, blank := false, waiting := false, gates := 0, rising := 0 }

/-- The top of the loop of R412: SLOW while the threshold is 0, else DRIVE in the sign of the reference, blanked. -/
def Coil.loop (c : Coil) : Coil :=
  if c.thr = 0 then { c.enter .slow with blank := false, waiting := true }
  else { c.enter (.drive c.negative) with blank := true, waiting := false }

/-- The coil takes a new threshold and sign (R411, R412). -/
def Coil.retarget (c : Coil) (thr : Nat) (negative : Bool) : Coil :=
  let turned := c.negative != negative
  let c1 := { c with thr := thr, negative := negative }
  match c.mode with
  | .slow => if c.waiting && thr != 0 then c1.loop else c1
  | .drive _ => if turned && !c.blank then c1.loop else c1
  | _ => c1

/-- Current I in force (R411). -/
def axisCurrent (d : Dev) (x : Nat) (a : StepAxis) : Nat :=
  if a.holding then d.fld (pageSax x) 0x128 16 10 else d.fld (pageSax x) 0x128 0 10

/-- The thresholds of both coils from the position (R411). -/
def coilThresholds (d : Dev) (x : Nat) (a : StepAxis) : StepAxis :=
  let micro := d.fld (pageSax x) 0x11C 0 4
  let idx := (a.pos * (2 ^ (8 - micro) : Nat) % 1024).toNat
  let i := axisCurrent d x a
  let sA := sineTable idx
  let sB := sineTable (idx + 256)
  { a with
    coilA := a.coilA.retarget (sA.natAbs * i / 1023) (decide (sA < 0))
    coilB := a.coilB.retarget (sB.natAbs * i / 1023) (decide (sB < 0)) }

/-- Gates of an axis OFF (R409, R414, R476). -/
def axisOff (a : StepAxis) : StepAxis := { a with coilA := a.coilA.stop, coilB := a.coilB.stop }

/-- Step generation stops and every gate output goes OFF (R476). -/
def stopSteppers (d : Dev) : Dev :=
  let d1 := upto 12 (fun d x => setAxis d x (axisOff (axisOf d x))) d
  { d1 with stp := { d1.stp with moves := [], waiting := [] } }

end Sys2Proof.Machine
end

