-- ==== Sys2Proof/Machine/Roles.lean ====
section
/-! DEFINITION. The role of the device, its pins, the pair status records, and the way into HALTED (R473 to R476,
R507). -/
namespace Sys2Proof.Machine

/-- ENSIGN_OUT (R475). -/
def Dev.ensignOut (d : Dev) : Bool := d.holds && decide (d.par.ensignFrom ≤ d.tick)

/-! ### Pins (R653) -/

/-- The level of an output that is high impedance, `none`, until PORESET_N has risen. -/
def Dev.pin (d : Dev) (level : Bool) : Option Bool := if d.boot.poreset then none else some level
/-- EMIT_PERMIT[1:0] (R462), ENSIGN_OUT and HEALTH_OUT (R475). -/
def Dev.emitPermitPin (d : Dev) : Option Bool := d.pin (permit d)
def Dev.ensignPin (d : Dev) : Option Bool := d.pin d.ensignOut
def Dev.healthPin (d : Dev) : Option Bool := d.pin d.boot.healthOut
/-- The gate output `i` of axis `x` (R413): AH1, AL1, AH2, AL2, BH1, BL1, BH2, BL2. -/
def Dev.gatePin (d : Dev) (x i : Nat) : Option Bool :=
  d.pin (if i < 4 then (axisOf d x).coilA.gates.getLsbD i else (axisOf d x).coilB.gates.getLsbD (i - 4))

/-- A number of `w` bits that the spec may not state: the given one, or a free value (log entry 4). -/
def orFree (d : Dev) (w : Nat) : Option Nat → Nat × Dev
  | some v => (v % 2 ^ w, d)
  | none => let r := d.fresh; (r.1.toNat % 2 ^ w, r.2)

/-- The pair status record of ring `56 + kind` (R507); a cause or partner that no rule names is a free value. -/
def pairRecord (d : Dev) (kind : Nat) (cause partner : Option Nat) : Dev :=
  let c := orFree d 16 cause
  let p := orFree c.2 16 partner
  emit p.2 (56 + kind) .plain
    (atByte 0 (d.tick % 2 ^ 64) + atByte 8 kind + atByte 9 d.par.role + atByte 10 d.par.epoch.toNat +
      atByte 12 (d.cycle % 2 ^ 64) + atByte 20 c.1 + atByte 22 p.1)

/-- The device enters a role: PAR_LAST_TAKEOVER and the record of ring 56. -/
def setRole (d : Dev) (role : Nat) (cause : Option Nat) : Dev :=
  if d.par.role = role then d
  else
    let d1 := { d with par := { d.par with role := role } }
    pairRecord (d1.setReg64 pagePar 0x090 d.cycle) 0 cause none

/-- The watchdog's outputs: ENSIGN_OUT 0 by the role, HEALTH_OUT stopped at 0, every gate OFF, no steps (R476). -/
def watchdogOutputs (d : Dev) : Dev :=
  let d1 := stopSteppers d
  { d1 with boot := { d1.boot with healthOut := false } }

/-- The device becomes HALTED (R476, R622, R623). -/
def halt (d : Dev) : Dev :=
  let d1 := watchdogOutputs d
  setRole { d1 with par := { d1.par with yieldDue := none, yieldAfter := false, yieldMark := none, swapMark := false } } roleHalted none

/-- A standby pairs its own edges and challenges with the holder's, whichever comes first (R486; log entry 91). -/
def noteSample (d : Dev) (n : SampleNote) : Dev :=
  let same (m : SampleNote) : Bool :=
    m.kind == n.kind && m.index == n.index && m.rising == n.rising && m.own != n.own && decide (n.tick ≤ m.tick + 250) &&
      decide (m.tick ≤ n.tick + 250)
  let l := d.par.notes
  { d with par := { d.par with notes := match l.find? same with | some m => l.erase m | none => l ++ [n] } }

/-- A standby is in lockstep with this holder of the ensign. -/
def Dev.pairHolder (d : Dev) : Bool := d.holds && d.par.withStandby

/-! ### Results of table loads (R587) -/

/-- LOAD_DONE on ring `10 + r`: the layout of R431, whose target, run number and step a load does not have, and whose
DETAIL R587 gives for PENDING only: free values. -/
def loadDone (d : Dev) (r : Nat) (e : Entry) (status : Nat) (detail : Option Nat) : Dev :=
  let f := d.fresh
  let x := orFree f.2 32 detail
  emitShared x.2 (10 + r) .plain
    (atByte 0 (d.tick % 2 ^ 64) + atByte 8 0x30 + atByte 9 status + atByte 10 (byteField e 0 1) +
      atByte 11 (f.1.toNat % 256) + atByte 12 (byteField e 4 4) + atByte 16 (f.1.toNat / 256 % 2 ^ 32) +
      atByte 21 (f.1.toNat / 2 ^ 40 % 256) + atByte 24 x.1)

/-- The result of data that were written: with a standby it waits for its confirmation. -/
def loadResult (d : Dev) (r : Nat) (e : Entry) (status : Nat) (detail : Option Nat) : Dev :=
  if d.pairHolder then { d with hif := { d.hif with loads := d.hif.loads ++ [(r, e, status, detail)] } }
  else loadDone d r e status detail

/-- The standby has confirmed the oldest load of ring `8 + r`. -/
def confirmLoad (d : Dev) (r : Nat) : Dev :=
  match d.hif.loads.find? fun x => x.1 == r with
  | some x => loadDone { d with hif := { d.hif with loads := d.hif.loads.erase x } } r x.2.1 x.2.2.1 x.2.2.2
  | none => d

/-- No standby is waited for any more. -/
def confirmAll (d : Dev) : Dev :=
  d.hif.loads.foldl (fun d x => loadDone d x.1 x.2.1 x.2.2.1 x.2.2.2) { d with hif := { d.hif with loads := [] } }

/-- The holder yields when a standby is in lockstep: its next CYCLE record carries YIELD (R498). -/
def requestYield (d : Dev) (reason : Nat) : Dev :=
  if d.pairHolder && d.par.yieldDue.isNone && d.par.yieldMark.isNone then
    { d with par := { d.par with yieldDue := some reason } }
  else d

end Sys2Proof.Machine
end

