-- ==== Sys2Proof/Machine/DramMap.lean ====
section
/-! DEFINITION. What lies where in DRAM: geometry, address decoding, the staging slots and the other contents (R91, R535 to
R537). -/
namespace Sys2Proof.Machine

/-! ### Geometry and address map (R535, R537) -/

def memBoth (d : Dev) : Bool := d.flag pageMem 0x040 0
def memTwoRanks (d : Dev) : Bool := d.flag pageMem 0x040 1
/-- Capacity in GiB (R535). -/
def memGiB (d : Dev) : Nat :=
  (if d.flag pageMem 0x040 2 then 12 else 8) * (if memTwoRanks d then 2 else 1) * (if memBoth d then 2 else 1)
def memBytes (d : Dev) : Nat := memGiB d * 2 ^ 30

/-- Where a burst lies. -/
structure DramPlace where
  sc : Nat
  rank : Nat
  bank : Nat
  row : Nat
  col : Nat
  deriving DecidableEq, Repr

/-- Parity of a word. -/
def parity (v : Nat) : Nat := ((List.range 36).filter fun i => bit v i).length % 2

/-- The address decoding of R537. -/
def memPlace (d : Dev) (a : Nat) : DramPlace :=
  let line := a >>> 6
  let sc := if memBoth d then line % 2 else 0
  let line := if memBoth d then line / 2 else line
  let col := line % 64
  let line := line / 64
  let braw := line % 32
  let u := line / 32
  let rank := if memTwoRanks d then u % 2 else 0
  let row := if memTwoRanks d then u / 2 else u
  let mask (k : Nat) : Nat := d.fld pageMem (0x1B0 + 4 * k) 0 18
  let x := (List.range 5).foldl (fun x k => x + parity (u &&& mask k) <<< k) 0
  ⟨sc, rank, braw ^^^ x, row, col⟩

/-- Bank group and bank index of a bank field: BA in [1:0], BG in [4:2]. -/
def DramPlace.ba (p : DramPlace) : Nat := p.bank % 4
def rankKey (sc rank : Nat) : Nat := 2 * sc + rank
def DramPlace.key (p : DramPlace) : Nat := 32 * rankKey p.sc p.rank + p.bank

/-! ### Places (R91, R536, log entry 88)

The spec gives the regions of a staging slot and their sizes, two slots, and which data lie below and above 4 GiB; the
addresses are the model's: slot 0 at 0, slot 1 after it, camera staging and trace staging in the third pair and the fourth
pair of GiB. -/

def mib : Nat := 1048576
/-- First byte of a slot's patch descriptors, patch pours, pour records and lines, and the slot's length. -/
def slotPatches : Nat := 4 * mib
def slotPatchPours : Nat := slotPatches + 262144
def slotPours : Nat := 8 * mib
def slotLines : Nat := 520 * mib
def slotBytes : Nat := 1032 * mib
/-- Camera ingress staging, and trace staging: 2 GiB each. -/
def stagingBytes : Nat := 2048 * mib
def cameraBase : Nat := 4096 * mib
def traceBase : Nat := 6144 * mib

/-- The heat of a staging slot, with the patch islands of the running one. -/
def slotHeat (d : Dev) (slot : Nat) : Option (Heat × List (BitVec 512 × List (BitVec 256))) :=
  let others := ((d.heats.staged ++ d.heats.opening.toList).find? fun h => h.slot == slot).map fun h => (h, [])
  match d.heats.running with
  | some x => if x.heat.slot = slot then some (x.heat, x.patches) else others
  | none => others

/-- The slot that a heat takes: one that no other heat has (R91). -/
def freeSlot (d : Dev) : Nat := if (slotHeat d 0).isSome then 1 else 0

/-! ### Contents -/

def lowHalf (v : BitVec 512) : BitVec 256 := v.extractLsb' 0 256
def highHalf (v : BitVec 512) : BitVec 256 := v.extractLsb' 256 256
/-- Records `k` and `k + 1` of a list of 32-byte records; where there is none, what `base` holds. -/
def recordPair (l : List (BitVec 256)) (k : Nat) (base : BitVec 512) : BitVec 512 :=
  (l[k + 1]?).getD (highHalf base) ++ (l[k]?).getD (lowHalf base)
def setRecordPair (l : List (BitVec 256)) (k : Nat) (v : BitVec 512) : List (BitVec 256) :=
  (l.set k (lowHalf v)).set (k + 1) (highHalf v)
/-- 64 bytes of a line from byte `o`. -/
def lineBurst (bs : List Byte) (o : Nat) : BitVec 512 := BitVec.ofNat 512 (leNat ((bs.drop o).take 64))
def setLineBurst (bs : List Byte) (o : Nat) (v : BitVec 512) : List Byte :=
  bs.take o ++ leBytes 64 v.toNat ++ bs.drop (o + 64)

/-- Patch islands with their pours taken from a flat list. -/
def refill : List (BitVec 512 × List (BitVec 256)) → List (BitVec 256) → List (BitVec 512 × List (BitVec 256))
  | [], _ => []
  | (i, ps) :: t, l => (i, l.take ps.length) :: refill t (l.drop ps.length)

/-- The burst at byte `o` of a slot, where the heat has data there; `base` is what stands there besides. -/
def heatBurst (h : Heat) (ps : List (BitVec 512 × List (BitVec 256))) (o : Nat) (base : BitVec 512) : BitVec 512 :=
  if o < slotPatches then (h.islands[o / 64]?).getD base
  else if o < slotPatchPours then ((ps[(o - slotPatches) / 64]?).map Prod.fst).getD base
  else if o < slotPours then recordPair (ps.flatMap Prod.snd) ((o - slotPatchPours) / 32) base
  else if o < slotLines then recordPair h.pours ((o - slotPours) / 32) base
  else
    let bs := h.lines.get (same []) ((o - slotLines) / 8192)
    if bs.isEmpty then base else lineBurst bs ((o - slotLines) % 8192)

def setHeatBurst (h : Heat) (o : Nat) (v : BitVec 512) : Heat :=
  if o < slotPatches then { h with islands := h.islands.set (o / 64) v }
  else if o < slotPours then h
  else if o < slotLines then { h with pours := setRecordPair h.pours ((o - slotPours) / 32) v }
  else
    let k := (o - slotLines) / 8192
    let bs := h.lines.get (same []) k
    if bs.isEmpty then h else { h with lines := h.lines.set (same []) k (setLineBurst bs ((o - slotLines) % 8192) v) }
def setPatchBurst (ps : List (BitVec 512 × List (BitVec 256))) (o : Nat) (v : BitVec 512) :
    List (BitVec 512 × List (BitVec 256)) :=
  if o < slotPatches then ps
  else if o < slotPatchPours then
    let i := (o - slotPatches) / 64
    match ps[i]? with | some p => ps.set i (v, p.2) | none => ps
  else if o < slotPours then refill ps (setRecordPair (ps.flatMap Prod.snd) ((o - slotPatchPours) / 32) v)
  else ps

/-- Every heat of a slot is changed. -/
def updSlot (d : Dev) (slot : Nat) (f : Heat → Heat)
    (g : List (BitVec 512 × List (BitVec 256)) → List (BitVec 512 × List (BitVec 256))) : Dev :=
  let on (h : Heat) : Heat := if h.slot = slot then f h else h
  { d with heats := { d.heats with
      running := d.heats.running.map fun x => if x.heat.slot = slot then { x with heat := f x.heat, patches := g x.patches } else x
      staged := d.heats.staged.map on, opening := d.heats.opening.map on } }

/-- Burst `b` of the DRAM. The bursts of a staged heat are the heat's own records. -/
def burstAt (d : Dev) (b : Nat) : BitVec 512 :=
  let base := match d.dram.mem.get (same none) b with | some v => v | none => Config.dramStart d.dram.start b
  let a := 64 * b
  if a < 2 * slotBytes then
    match slotHeat d (a / slotBytes) with
    | some h => heatBurst h.1 h.2 (a % slotBytes) base
    | none => base
  else base
def setBurst (d : Dev) (b : Nat) (v : BitVec 512) : Dev :=
  let d1 := { d with dram := { d.dram with mem := d.dram.mem.set (same none) b (some v) } }
  let a := 64 * b
  if a < 2 * slotBytes then
    updSlot d1 (a / slotBytes) (fun h => setHeatBurst h (a % slotBytes) v) fun ps => setPatchBurst ps (a % slotBytes) v
  else d1

/-- Bytes of a burst written under a mask, byte by byte (bit `i` for byte `i`). -/
def maskedBurst (old v : BitVec 512) (mask : BitVec 64) : BitVec 512 :=
  let on := (List.range 64).foldl (fun m i => if mask.getLsbD i then m ||| (BitVec.ofNat 512 0xFF) <<< (8 * i) else m) 0
  (old &&& ~~~on) ||| (v &&& on)

/-! ### Contents after a training (R536, R549) -/

/-- A heat's records as the DRAM holds them after a training; `stays` are the pours that prefetch buffers hold. -/
def reloadHeat (start : Nat) (stays : Nat → Bool) (h : Heat) : Heat :=
  let burst (o : Nat) : BitVec 512 := Config.dramStart start ((h.slot * slotBytes + o) / 64)
  let pour (k : Nat) : BitVec 256 :=
    let v := burst (slotPours + 32 * k)
    if k % 2 = 0 then lowHalf v else highHalf v
  { h with
    islands := h.islands.mapIdx fun i _ => burst (64 * i)
    pours := h.pours.mapIdx fun k p => if stays k then p else pour k
    lines := h.lines.map fun x =>
      (x.1, (List.range 128).flatMap fun i => leBytes 64 (burst (slotLines + 8192 * x.1 + 64 * i)).toNat) }
def reloadPatches (start slot : Nat) (ps : List (BitVec 512 × List (BitVec 256))) : List (BitVec 512 × List (BitVec 256)) :=
  let burst (o : Nat) : BitVec 512 := Config.dramStart start ((slot * slotBytes + o) / 64)
  let pour (k : Nat) : BitVec 256 :=
    let v := burst (slotPatchPours + 32 * k)
    if k % 2 = 0 then lowHalf v else highHalf v
  (refill ps ((ps.flatMap Prod.snd).mapIdx fun k _ => pour k)).mapIdx fun i p => (burst (slotPatches + 64 * i), p.2)

/-- Pour `k` of the running heat stands in a station's prefetch buffer (R194). -/
def inPrefetch (d : Dev) (x : Run) (k : Nat) : Bool :=
  (List.range 32).any fun s =>
    let st := stationOf d s
    match st.island with
    | some key => !isPatch key && decide (islFirst (x.descriptor key) + st.pour ≤ k ∧ k < islFirst (x.descriptor key) + st.loaded)
    | none => false

/-- The contents are not kept over a training (R536): what the heats hold in DRAM is what stands there then. -/
def reloadHeats (d : Dev) (start : Nat) : Dev :=
  let none' : Nat → Bool := fun _ => false
  { d with heats := { d.heats with
      running := d.heats.running.map fun x =>
        { x with heat := reloadHeat start (inPrefetch d x) x.heat, patches := reloadPatches start x.heat.slot x.patches }
      staged := d.heats.staged.map (reloadHeat start none')
      opening := d.heats.opening.map (reloadHeat start none') } }

end Sys2Proof.Machine
end

