-- ==== Sys2Proof/Machine/Dram.lean ====
section
/-! DEFINITION. The DRAM controller (R534 to R550): ports, choice of column commands, refresh, ECC, scrub and training. Every queued request of a subchannel counts as ready: the DRAM timings are outside the model. -/
namespace Sys2Proof.Machine

/-! ### Ports (R540, R541, R543) -/

/-- Class of a port: 0 RT, 1 ST, 2 BE. -/
def portClass (p : Nat) : Nat := if p < 4 then 0 else if p < 7 then 1 else 2
def portTarget (d : Dev) (p : Nat) : Nat := d.fld pageMem (0x100 + 16 * p) 0 16
def portAgeLimit (d : Dev) (p : Nat) : Nat := 100 * d.fld pageMem (0x100 + 16 * p) 16 16
def portRate (d : Dev) (p : Nat) : Nat := d.fld pageMem (0x104 + 16 * p) 0 16
/-- Age of a request in ns. -/
def reqAge (d : Dev) (q : DramReq) : Nat := 4 * (d.tick - q.at0)
/-- Urgency (R541). -/
def urgency (d : Dev) (q : DramReq) : Nat :=
  let age := reqAge d q
  let target := portTarget d q.port
  if 2 * age < target then 0 else if 4 * age < 3 * target then 1 else if age < target then 2 else 3

/-- What the bucket of port `p` lacks now, in thousandths of a byte: 4 KiB at most, filled at RATE × 16 MB/s. -/
def bucketLack (d : Dev) (p : Nat) : Nat :=
  let b := d.dram.buckets.get (same (0, 0)) p
  if portRate d p = 0 then 0 else b.2 - 64 * portRate d p * (d.tick - b.1)
/-- Whether the port's rate admits a burst now. -/
def rateAdmits (d : Dev) (p : Nat) : Bool :=
  portClass p == 0 || portRate d p == 0 || decide (bucketLack d p + 64000 ≤ 4096000)
def spend (d : Dev) (p : Nat) : Dev :=
  if portClass p = 0 ∨ portRate d p = 0 then d
  else { d with dram := { d.dram with buckets := d.dram.buckets.set (same (0, 0)) p (d.tick, bucketLack d p + 64000) } }
/-- Every bucket is filled to now at its present RATE, before a RATE changes. -/
def settleBuckets (d : Dev) : Dev :=
  upto 10 (fun d p => { d with dram := { d.dram with
    buckets := d.dram.buckets.set (same (0, 0)) p (if bucketLack d p = 0 then (0, 0) else (d.tick, bucketLack d p)) } }) d

def inSub (d : Dev) (sc : Nat) (q : DramReq) : Bool := (memPlace d q.addr).sc == sc
/-- Whether the subchannel's queue has room for the request (R544): a promoted read is one of class RT (R541). -/
def queueRoom (d : Dev) (q : DramReq) : Bool :=
  let sc := (memPlace d q.addr).sc
  let mine := d.dram.queue.filter (inSub d sc)
  if q.write then decide ((mine.filter (·.write)).length < 64)
  else if q.cls = 0 then decide ((mine.filter fun x => !x.write && x.cls == 0).length < 32)
  else decide ((mine.filter fun x => !x.write && x.cls != 0).length < 64)

/-- A request is accepted: an address beyond the capacity reaches no DRAM (R537). The controller's own write-back is no
client's traffic: it takes nothing of a port's bucket. -/
def acceptReq (d : Dev) (q : DramReq) : Dev :=
  if memBytes d ≤ q.addr then
    let d1 := d.count pageMem 0x07C
    if q.write then d1 else d1.send (.dram q.port q.addr 0 false)
  else
    let d1 := if q.client = .writeBack then d else spend d q.port
    { d1 with dram := { d1.dram with queue := d1.dram.queue ++ [{ q with at0 := d.tick }] } }

/-- The controller serves requests: enabled and trained (R549). -/
def memReady (d : Dev) : Bool := d.enabled pageMem && d.dram.trained

/-- A held request waits for an older one that is held: of its own port, or to the same burst. -/
def heldBack (older : List DramReq) (q : DramReq) : Bool :=
  older.any fun h => h.addr == q.addr || (q.client != .writeBack && h.client != .writeBack && h.port == q.port)

/-- Held requests enter in order, each port's own order kept. -/
def acceptHeld (d : Dev) : Dev :=
  if memReady d then
    let step (x : Dev × List DramReq) (q : DramReq) : Dev × List DramReq :=
      if !heldBack x.2 q && (decide (memBytes x.1 ≤ q.addr) ||
          ((q.client == .writeBack || rateAdmits x.1 q.port) && queueRoom x.1 q)) then
        (acceptReq x.1 q, x.2)
      else (x.1, x.2 ++ [q])
    let r := d.dram.held.foldl step ({ d with dram := { d.dram with held := [] } }, [])
    { r.1 with dram := { r.1.dram with held := r.2 } }
  else d

/-- Ports ask for bursts. -/
def requestBursts (d : Dev) (qs : List DramReq) : Dev :=
  acceptHeld { d with dram := { d.dram with held := d.dram.held ++ qs } }

/-- A port asks for a burst. -/
def requestBurst (d : Dev) (port addr : Nat) (write : Bool) (data : BitVec 512) : Dev :=
  requestBursts d [{ port := port, addr := addr / 64 * 64, write := write, data := data, cls := portClass port
                     promoted := false, at0 := d.tick }]

/-! ### Writes and reads of bytes -/

/-- Addresses of the bursts that hold the bytes from `a` on, up to the capacity. -/
def burstsOf (d : Dev) (a n : Nat) : List Nat :=
  let e := min (a + n) (memBytes d)
  if e ≤ a then [] else (List.range ((e + 63) / 64 - a / 64)).map fun i => 64 * (a / 64 + i)
/-- An access that reaches at or above the capacity counts (R537). -/
def countBeyond (d : Dev) (a n : Nat) : Dev := if a + n ≤ memBytes d then d else d.count pageMem 0x07C

/-- The part of the bytes `bs` at `a` that lies in the burst at `b`: data and mask. -/
def burstPart (a : Nat) (bs : List Byte) (b : Nat) : BitVec 512 × BitVec 64 :=
  let first := a - b
  let part := (bs.drop (b - a)).take (64 - first)
  (BitVec.ofNat 512 (leNat part <<< (8 * first)), BitVec.ofNat 64 ((2 ^ part.length - 1) <<< first))

/-- Bytes are written through a port. -/
def dramWrite (d : Dev) (port a : Nat) (bs : List Byte) (client : DramClient := .posted) : Dev :=
  requestBursts (countBeyond d a bs.length) ((burstsOf d a bs.length).map fun b =>
    { port := port, addr := b, write := true, data := (burstPart a bs b).1, mask := (burstPart a bs b).2
      cls := portClass port, promoted := false, at0 := d.tick, client := client })

/-- Bytes are read through a port: at once where no DRAM is reached, all 0; else the transfer's number and the reads under way. -/
def dramRead (d : Dev) (port a n : Nat) (use : TransferUse) : Option Nat × Dev :=
  let d1 := countBeyond d a n
  let bs := burstsOf d a n
  if bs.isEmpty then (none, d1)
  else
    let id := d1.dram.transferCount
    let x : Transfer := { id := id, use := use, addr := a, len := n, left := bs.length }
    let d2 := { d1 with dram := { d1.dram with transfers := d1.dram.transfers ++ [x], transferCount := id + 1 } }
    (some id, requestBursts d2 (bs.map fun b =>
      { port := port, addr := b, write := false, data := 0, cls := portClass port, promoted := false, at0 := d.tick
        client := .transfer id }))

/-- The bytes that a finished transfer brought; those beyond the capacity read 0. -/
def Transfer.bytes (x : Transfer) : List Byte :=
  (List.range x.len).map fun i =>
    let a := x.addr + i
    match x.got.find? fun g => g.1 == a / 64 with
    | some g => BitVec.ofNat 8 (g.2.toNat >>> (8 * (a % 64)))
    | none => 0

/-- Requests of ST and BE ports at their age limit become RT (R541). -/
def promote (d : Dev) : Dev :=
  let up (q : DramReq) : DramReq :=
    if portClass q.port ≠ 0 ∧ q.cls ≠ 0 ∧ portAgeLimit d q.port ≤ reqAge d q then { q with cls := 0, promoted := true }
    else q
  { d with dram := { d.dram with queue := d.dram.queue.map up } }

/-! ### Completion (R541, R546, R547) -/

/-- Latency of a completed request: the port's peak and misses. -/
def latencyDone (d : Dev) (q : DramReq) : Dev :=
  let ns := reqAge d q
  let peak := d.rfld pageMem (0x10C + 16 * q.port) 0 32
  let d1 := if peak < ns then d.setReg pageMem (0x10C + 16 * q.port) (min ns 0xFFFFFFFF) else d
  if portTarget d q.port < ns then
    let d2 := d1.count pageMem (0x108 + 16 * q.port)
    let once := !(d2.dram.missTold.getLsbD q.port)
    let d3 := { d2 with dram := { d2.dram with missTold := d2.dram.missTold ||| BitVec.ofNat 10 (2 ^ q.port) } }
    raiseLimited d3 once pageMem 3 clsMemory sevWarning 0x0B04 (pay q.port 0 0 ns)
  else d1

/-- Payload of the ECC events: port, address [34:3]. -/
def eccPay (q : DramReq) : Nat := pay q.port 0 0 (q.addr >>> 3)

/-- A corrected error: counted, and the burst written back in class ST. -/
def eccCorrected (d : Dev) (q : DramReq) : Dev :=
  requestBursts (raise (d.count pageMem 0x060) pageMem 0 clsMemory sevNotice 0x0B01 (eccPay q))
    [{ port := q.port, addr := q.addr, write := true, data := q.data, cls := 1, promoted := false, at0 := d.tick
       client := .writeBack }]

/-- Whether the peer can repair (R547). -/
def peerRepairs (d : Dev) : Bool := d.pairHolder || d.par.role == roleStandby

/-- An uncorrectable error: counted and recorded. -/
def eccUncorrectable (d : Dev) (q : DramReq) : Dev :=
  raise ((d.count pageMem 0x064).setReg64 pageMem 0x068 (q.addr % 2 ^ 35)) pageMem 1 clsMemory sevFault 0x0B02 (eccPay q)

/-- What a read brings: the burst with the older writes to it that are queued (log entry 89). -/
def readNow (d : Dev) (q : DramReq) : BitVec 512 :=
  ((d.dram.queue.takeWhile (· != q)).filter fun w => w.write && w.addr == q.addr && w.client != .writeBack).foldl
    (fun v w => maskedBurst v w.data w.mask) (burstAt d (q.addr / 64))

/-- The column command of a request: a write lands, a read is in flight; the row is open afterwards. A write-back leaves the
contents as they are: the read has corrected them. -/
def issueColumn (d : Dev) (q : DramReq) : Dev :=
  let p := memPlace d q.addr
  let m := d.dram
  let d1 := { d with dram := { m with
    queue := m.queue.erase q, rows := m.rows.set (same none) p.key (some p.row),
    inflight := if q.write then m.inflight else m.inflight ++ [{ q with data := readNow d q }] } }
  if q.client = .writeBack then d1
  else if q.write then latencyDone (setBurst d1 (q.addr / 64) (maskedBurst (burstAt d1 (q.addr / 64)) q.data q.mask)) q
  else d1

/-- A write goes after every older request to its burst (log entry 89). -/
def writeWaits (d : Dev) (q : DramReq) : Bool :=
  q.write && (d.dram.queue.takeWhile (· != q)).any fun x => x.addr == q.addr

def rowOpen (d : Dev) (q : DramReq) : Bool :=
  let p := memPlace d q.addr
  d.dram.rows.get (same none) p.key == some p.row

/-- The order of R542: `a` goes before `b`. -/
def reqBefore (d : Dev) (a b : DramReq) : Bool :=
  let key (q : DramReq) : List Nat :=
    [q.cls, boolNat q.promoted, 3 - urgency d q, boolNat (!rowOpen d q), q.at0, q.port]
  decide (List.Lex (· < ·) (key a) (key b))

def chooseReq (d : Dev) : List DramReq → Option DramReq
  | [] => none
  | q :: t => match chooseReq d t with
    | none => some q
    | some b => if reqBefore d b q then some b else some q

/-- Whether the subchannel drains writes at this command (R544): an end is tested first, then a begin. A promoted request
is one of class RT (R541). -/
def drainNow (d : Dev) (sc : Nat) : Bool :=
  let mine := d.dram.queue.filter (inSub d sc)
  let writes := mine.filter (·.write)
  let reads := mine.filter (!·.write)
  let readUrgent := reads.any fun q => q.cls == 0 && decide (2 ≤ urgency d q)
  let writeUrgent := writes.any fun q => q.cls == 0 && decide (2 ≤ urgency d q)
  let on := d.dram.drain.getLsbD sc && decide (16 < writes.length) && !readUrgent
  on || (!readUrgent && (decide (48 ≤ writes.length) || writeUrgent)) || reads.isEmpty

/-- Subchannel `sc` issues a column command (R542, R544). -/
def columnCommand (d0 : Dev) (sc : Nat) : Dev :=
  let d := acceptHeld d0
  if memReady d then
    let drain := drainNow d sc
    let d1 := { d with dram := { d.dram with
      drain := if drain then d.dram.drain ||| BitVec.ofNat 2 (2 ^ sc) else d.dram.drain &&& ~~~(BitVec.ofNat 2 (2 ^ sc)) } }
    let ready := d1.dram.queue.filter fun q => inSub d1 sc q && !writeWaits d1 q
    -- where every write of a drain waits for a read, the reads go on
    match (chooseReq d1 (ready.filter fun q => q.write == drain)).or (chooseReq d1 (ready.filter fun q => !q.write)) with
    | some q => issueColumn d1 q
    | none => d1
  else d

/-- Patrol scrub asks for its next burst in class BE, on port FW's budget (R548); it has one read under way at a time. -/
def patrolScrub (d : Dev) (ecc : Nat) : Dev :=
  let isScrub (q : DramReq) : Bool := match q.client with | .scrub _ => true | _ => false
  let m := d.dram
  if memReady d && d.flag pageMem 0x048 16 && !(m.held ++ m.queue ++ m.inflight ++ m.repairs).any isScrub then
    requestBursts d [{ port := 9, addr := 64 * d.rfld pageMem 0x078 0 29, write := false, data := 0, cls := 2
                       promoted := false, at0 := d.tick, client := .scrub ecc }]
  else d

/-- The scrub's burst has been read: the next one, or the end of a sweep. -/
def scrubOn (d : Dev) : Dev :=
  let pos := d.rfld pageMem 0x078 0 29
  if memBytes d ≤ 64 * (pos + 1) then setPen (d.setReg pageMem 0x078 0) pageMem 7 else d.setReg pageMem 0x078 (pos + 1)

/-! ### Refresh (R538, R539, R549) -/

def rankOf (d : Dev) (sc k : Nat) : RankRefresh := d.dram.ranks.get (same {}) (rankKey sc k)
def setRank (d : Dev) (sc k : Nat) (x : RankRefresh) : Dev :=
  { d with dram := { d.dram with ranks := d.dram.ranks.set (same {}) (rankKey sc k) x } }
/-- The rank is populated (R535). -/
def rankThere (d : Dev) (sc k : Nat) : Bool := (sc == 0 || memBoth d) && (k == 0 || memTwoRanks d)

/-- Rows of the banks with index `ba` of a rank close. -/
def closeBank (d : Dev) (sc k ba : Nat) : Dev :=
  upto 8 (fun d bg => { d with dram := { d.dram with
    rows := d.dram.rows.set (same none) (32 * rankKey sc k + 4 * bg + ba) none } }) d
def closeRank (d : Dev) (sc k : Nat) : Dev := upto 4 (fun d ba => closeBank d sc k ba) d

/-- Whether a request is queued to bank index `ba` of the rank. -/
def bankWanted (d : Dev) (sc k ba : Nat) : Bool :=
  d.dram.queue.any fun q => let p := memPlace d q.addr; p.sc == sc && p.rank == k && p.ba == ba

/-- REFsb to each remaining index that no request wants. -/
def refreshFree (d : Dev) (sc k : Nat) : Dev :=
  upto 4 (fun d b =>
    let x := rankOf d sc k
    if x.left.getLsbD b && !bankWanted d sc k b then
      closeBank (setRank d sc k { x with left := x.left &&& ~~~(BitVec.ofNat 4 (2 ^ b)) }) sc k b
    else d) d

/-- The loop of R538 while debt remains and units complete; `n` bounds the units. -/
def refreshUnits (sc k : Nat) : Nat → Dev → Dev
  | 0, d => d
  | n + 1, d =>
    if (rankOf d sc k).debt = 0 then d
    else
      let d1 := refreshFree d sc k
      let x := rankOf d1 sc k
      if x.left = 0 then refreshUnits sc k n (setRank d1 sc k { x with debt := x.debt - 1, left := 15 }) else d1

/-- A forced refresh where the debt has reached POSTPONE: REFsb to the indices that a unit partly done still has, else
REFab, before which all rows close (R538). -/
def forceRefresh (d : Dev) (sc k : Nat) : Dev :=
  let x := rankOf d sc k
  if d.fld pageMem 0x050 0 3 ≤ x.debt ∧ 0 < x.debt then
    let closed := upto 4 (fun d b => if x.left.getLsbD b then closeBank d sc k b else d) d
    let d1 := setRank closed sc k { x with debt := x.debt - 1, left := 15 }
    let d2 := d1.count pageMem 0x070
    let d3 := raiseLimited d2 (!d2.dram.forcedTold) pageMem 4 clsMemory sevInfo 0x0B05 (pay sc k 0 0)
    { d3 with dram := { d3.dram with forcedTold := true } }
  else d

/-- A refresh interval of the rank passes. -/
def refreshTick (d : Dev) (sc k : Nat) : Dev :=
  if memReady d && rankThere d sc k then
    let x := rankOf d sc k
    let d1 := setRank d sc k { x with debt := x.debt + 1 }
    forceRefresh (refreshUnits sc k (x.debt + 1) d1) sc k
  else d

/-- MR4 of a rank is read (R539): the rank is refreshed at 975 ns above 1x and above the rated range; HOT is set by every
report above the rated range, and its event marks the beginning of one. -/
def mr4 (d : Dev) (sc k : Nat) (x : Mr4Report) : Dev :=
  if memReady d && rankThere d sc k then
    let r := rankOf d sc k
    let d1 := setRank d sc k { r with hot := x.fast || x.above, above := x.above }
    if x.above then raiseLimited d1 (!r.above) pageMem 5 clsMemory sevWarning 0x0B06 (pay sc k x.code.toNat 0) else d1
  else d

/-- A retraining window counts as a refresh unit (R549). -/
def retrain (d : Dev) (sc k : Nat) : Dev :=
  if memReady d && rankThere d sc k then
    let x := rankOf d sc k
    setRank (closeRank d sc k) sc k { x with debt := x.debt - 1 }
  else d

/-! ### Training (R549) -/

/-- CTL.ENABLE goes from 0 to 1: training begins, every request is held, the contents are not kept. -/
def memEnable (d : Dev) : Dev :=
  let m := d.dram
  reloadHeats { d with free := d.free + 1, dram :=
      { held := m.inflight ++ m.repairs ++ m.queue ++ m.held, training := true, attempts := m.attempts, start := d.free
        missTold := m.missTold, forcedTold := m.forcedTold, buckets := m.buckets, transfers := m.transfers
        transferCount := m.transferCount, cameraAt := m.cameraAt, traceAt := m.traceAt } } d.free

/-! ### Meanings -/

/-- R537, R543. -/
def execDramRequest (t : Nat) (port : Fin 10) (addr : BitVec 36) (write : Bool) (data : BitVec 512) (s : State) :
    Host.Outcome State Fault Refusal :=
  onDev s fun d => requestBurst (d.arrive t) port.val addr.toNat write data
/-- R541. -/
def execDramAgePromotion (t : Nat) (s : State) : Host.Outcome State Fault Refusal :=
  onDev s fun d => promote (acceptHeld (d.arrive t))
/-- R542, R544. -/
def execDramColumnCommand (t : Nat) (sc : Fin 2) (s : State) : Host.Outcome State Fault Refusal :=
  onDev s fun d => columnCommand (d.arrive t) sc.val
/-- R538. -/
def execRefreshDebtTick (t : Nat) (sc k : Fin 2) (s : State) : Host.Outcome State Fault Refusal :=
  onDev s fun d => refreshTick (d.arrive t) sc.val k.val
/-- R539. -/
def execMr4Read (t : Nat) (sc k : Fin 2) (report : Mr4Report) (s : State) : Host.Outcome State Fault Refusal :=
  onDev s fun d => mr4 (d.arrive t) sc.val k.val report
/-- R549. -/
def execRetrainWindow (t : Nat) (sc k : Fin 2) (s : State) : Host.Outcome State Fault Refusal :=
  onDev s fun d => retrain (d.arrive t) sc.val k.val
/-- R548. -/
def execPatrolScrubRead (t : Nat) (ecc : BitVec 2) (s : State) : Host.Outcome State Fault Refusal :=
  onDev s fun d => patrolScrub (acceptHeld (d.arrive t)) ecc.toNat
end Sys2Proof.Machine
end

