-- ==== Sys2Proof/Machine/Ingot.lean ====
section
/-! DEFINITION. The ingot coder's arithmetic: predictor, tokens, encoding and decoding of one ingot (R552 to R557).
A stream's history is a list of its samples, newest first. -/
namespace Sys2Proof.Machine

/-- Ingot length B of a RATIO code; 0 for a reserved one (R552). -/
def ingotLength (ratio : Nat) : Nat := if ratio = 1 then 128 else if ratio = 2 then 84 else if ratio = 3 then 64 else 0

/-- The prediction of the next sample (R554). -/
def predict (pred : Nat) (history : List Word) : Word :=
  let a := history.getD 0 0
  let b := history.getD 1 0
  if pred = 0 then 0 else if pred = 1 then a else 2 * a - b

/-- The history after the samples `xs`, oldest first. -/
def pushHistory (history xs : List Word) : List Word := (xs.reverse ++ history).take 4096

/-- The smallest W in which the signed residual fits (R556). -/
def residualWidth (r : Word) : Nat :=
  let i := r.toInt
  let m := if i < 0 then (-i - 1).toNat else i.toNat
  if m = 0 then 1 else Nat.log2 m + 2

/-- Residuals of `xs` in order. -/
def residuals (pred : Nat) : List Word → List Word → List Word
  | _, [] => []
  | history, x :: t => (x - predict pred history) :: residuals pred (x :: history) t

/-- Length of the match at distance `d`: how many of `xs` repeat what stands `d` samples earlier. -/
def matchLength (d : Nat) : List Word → List Word → Nat
  | _, [] => 0
  | history, x :: t =>
    match history[d - 1]? with
    | some y => if x = y then 1 + matchLength d (x :: history) t else 0
    | none => 0

/-- The longest match and its smallest distance, as (d, l); l = 0 for none (R556). -/
def longestMatch (history xs : List Word) : Nat × Nat :=
  (List.range (min 4096 history.length)).foldl (fun (b : Nat × Nat) k =>
    let l := matchLength (k + 1) history xs
    if b.2 < l then (k + 1, l) else b) (1, 0)

/-- Tokens written so far: their value as a bit stream and its length in bits, the header's 8 included. -/
abbrev BitStream := Nat × Nat
def BitStream.put (s : BitStream) (v n : Nat) : BitStream := (s.1 + ((v % 2 ^ n) <<< s.2), s.2 + n)

/-- The samples of a literal, in order. -/
def putSamples (s : BitStream) (xs : List Word) : BitStream := xs.foldl (fun s x => BitStream.put s x.toNat 32) s

/-- How many of the leading residuals are wider than `w`. -/
def wideRun (w : Nat) : List Word → Nat
  | [] => 0
  | r :: t => if w < residualWidth r then 1 + wideRun w t else 0

/-- The tokens of the remaining samples `xs` with residuals `rs` (the while loop of R556); `fuel` counts tokens. -/
def encodeTokens (w : Nat) : Nat → BitStream → List Word → List Word → List Word → BitStream
  | 0, s, _, _, _ => s
  | fuel + 1, s, history, xs, rs =>
    match xs, rs with
    | x :: xt, r :: rt =>
      let m := longestMatch history (x :: xt)
      if 2 ≤ m.2 ∧ 21 < m.2 * (1 + w) then
        encodeTokens w fuel (((s.put 3 3).put (m.1 - 1) 12).put (m.2 - 1) 6) (((x :: xt).take m.2).reverse ++ history)
          ((x :: xt).drop m.2) ((r :: rt).drop m.2)
      else if residualWidth r ≤ w then encodeTokens w fuel ((s.put 0 1).put r.toNat w) (x :: history) xt rt
      else
        let n := wideRun w (r :: rt)
        encodeTokens w fuel (putSamples ((s.put 1 2).put (n - 1) 6) ((x :: xt).take n))
          (((x :: xt).take n).reverse ++ history) ((x :: xt).drop n) ((r :: rt).drop n)
    | _, _ => s

/-- One ingot of the 64 samples with predictor `pred`: its bytes as a number, and its bits. -/
def encodeWith (pred : Nat) (history xs : List Word) : BitStream :=
  let rs := residuals pred history xs
  let w := clampNat 1 31 (rs.foldl (fun m r => max m (residualWidth r)) 0)
  encodeTokens w 64 (w + pred <<< 5, 8) history xs rs

/-- The best encoding over the predictors of `en`, the first of equals (R556). -/
def bestEncoding (en : Nat) (history xs : List Word) : Option BitStream :=
  (List.range 3).foldl (fun best pred =>
    if bit en pred then
      let s := encodeWith pred history xs
      match best with
      | some b => if s.2 < b.2 then some s else some b
      | none => some s
    else best) none

/-- encode_ingot: the ingot's bytes, none for NOT_SHRUNK. -/
def encodeIngot (en ratio : Nat) (history xs : List Word) : Option (List Byte) :=
  let b := ingotLength ratio
  match bestEncoding en history xs with
  | some s => if (s.2 + 7) / 8 ≤ b then some (leBytes b s.1) else none
  | none => none

/-! ### Decoding (R557) -/

def illegalCode : Nat := 0x0202
def distBeyondHistory : Nat := 0x0203
def lengthOverrun : Nat := 0x0204

/-- `l` samples that each repeat the sample `d` before. -/
def repeatSamples (d : Nat) : Nat → List Word → List Word
  | 0, history => history
  | n + 1, history => repeatSamples d n (history.getD (d - 1) 0 :: history)

/-- The samples of a literal at bit `pos`, newest first on top of `history`. -/
def literalSamples (v : Nat) : Nat → Nat → List Word → List Word
  | 0, _, history => history
  | n + 1, pos, history => literalSamples v n (pos + 32) (word (bits v pos 32) :: history)

/-- The tokens from bit `pos` of the `size` bits of `v`; `got` samples stand so far on top of the history. The result
is the history with all 64, or the fault. -/
def decodeTokens (v size pred w : Nat) : Nat → Nat → Nat → List Word → Except Nat (List Word)
  | 0, _, _, _ => .error lengthOverrun
  | fuel + 1, pos, got, history =>
    if 64 ≤ got then (if v >>> pos = 0 then .ok history else .error illegalCode)
    else if size ≤ pos then .error lengthOverrun
    else if !bit v pos then
      if size < pos + 1 + w then .error lengthOverrun
      else
        let r := BitVec.ofInt 32 (signed w (bits v (pos + 1) w))
        decodeTokens v size pred w fuel (pos + 1 + w) (got + 1) ((predict pred history + r) :: history)
    else if size ≤ pos + 1 then .error lengthOverrun
    else if !bit v (pos + 1) then
      if size < pos + 8 then .error lengthOverrun
      else
        let n := bits v (pos + 2) 6 + 1
        if 64 < got + n ∨ size < pos + 8 + 32 * n then .error lengthOverrun
        else decodeTokens v size pred w fuel (pos + 8 + 32 * n) (got + n) (literalSamples v n (pos + 8) history)
    else if size ≤ pos + 2 then .error lengthOverrun
    else if bit v (pos + 2) then .error illegalCode
    else if size < pos + 15 then .error lengthOverrun
    else
      let dist := bits v (pos + 3) 12 + 1
      if min 4096 history.length < dist then .error distBeyondHistory
      else if size < pos + 21 then .error lengthOverrun
      else
        let l := bits v (pos + 15) 6 + 1
        if 64 < got + l then .error lengthOverrun
        else decodeTokens v size pred w fuel (pos + 21) (got + l) (repeatSamples dist l history)

/-- Decodes one ingot of bytes: its 64 samples in order, or the fault code. -/
def decodeIngot (history : List Word) (ingot : List Byte) : Except Nat (List Word) :=
  let v := leNat ingot
  let w := bits v 0 5
  let pred := bits v 5 2
  if w = 0 ∨ pred = 3 ∨ bit v 7 = true then .error illegalCode
  else
    match decodeTokens v (8 * ingot.length) pred w 65 8 0 history with
    | .ok all => .ok (all.take 64).reverse
    | .error c => .error c

end Sys2Proof.Machine
end

