-- ==== Sys2Proof/Machine/Icd.lean ====
section
/-! DEFINITION. Jobs of the ingot coder on rings 12 and 13 (R551, R558 to R565). `r` is 0 for ring 12, 1 for 13. -/
namespace Sys2Proof.Machine

def jobOf (d : Dev) (r : Nat) : Option CoderJob := d.coder.jobs.get (same none) r
def setJob (d : Dev) (r : Nat) (j : Option CoderJob) : Dev :=
  let d1 := { d with coder := { d.coder with jobs := d.coder.jobs.set (same none) r j } }
  match j with
  | some x => d1.setReg pageIcd (0x060 + 4 * r) (x.next % 2 ^ 24)
  | none => d1

def jobTag (e : Entry) : Nat := byteField e 4 4
def jobCount (e : Entry) : Nat := byteField e 16 4

/-! ### Records (R563) -/

def statusOk : Nat := 0x00
def statusFormat : Nat := 0x02
def statusIngot : Nat := 0x06
def statusFetch : Nat := 0x07
def statusAbandoned : Nat := 0x0D
def statusStarved : Nat := 0x10

def jobRecord (d : Dev) (r kind status code : Nat) (j : CoderJob) (ingot : Nat) : Dev :=
  emit d (14 + r) .plain
    (atByte 0 (d.tick % 2 ^ 64) + atByte 8 kind + atByte 9 status + atByte 10 code + atByte 12 (jobTag j.entry) +
      atByte 16 (ingot % 2 ^ 32) + atByte 20 (j.coded % 2 ^ 32) + atByte 24 (j.bytes % 2 ^ 32) + atByte 28 (j.moved % 256))

/-! ### Buffers (R559, R560) -/

/-- The coder writes bytes to a buffer of the job. -/
def jobWrite (d : Dev) (j : CoderJob) (addr : Nat) (bs : List Byte) : Dev :=
  if bs.isEmpty then d else if j.outDev then dramWrite d 7 addr bs else d.send (.host addr bs)

/-- The descriptor in use gets its USED. -/
def leaveBuffer (d : Dev) (j : CoderJob) : Dev × CoderJob :=
  match j.buffer with
  | some (_, _, used) =>
    (d.send (.host (j.chainAddr + 16 * (j.taken - 1) + 12) (leBytes 4 used)), { j with buffer := none })
  | none => (d, j)

/-! ### The life of a job (R561 to R563) -/

/-- The job ends with its JOB_DONE record. -/
def endJob (d : Dev) (r status code : Nat) (j : CoderJob) : Dev :=
  let l := leaveBuffer d j
  let d1 := jobRecord l.1 r 0x20 status code l.2 (jobCount j.entry)
  let d2 := setJob d1 r none
  if status = statusAbandoned then setPen d2 pageIcd 3 else d2

/-- The job pauses: its record, pennant and event; one that an abandon waits for then ends. -/
def starveJob (d : Dev) (r : Nat) (j : CoderJob) : Dev :=
  let j1 := { j with starved := true, reading := false }
  let d1 := setJob (jobRecord d r 0x22 statusStarved 0x0205 j1 j1.next) r (some j1)
  let d2 := raise d1 pageIcd 2 clsHousekeeping sevNotice 0x0205 (pay (12 + r) 0 0 j1.next)
  if j.ending then endJob d2 r statusAbandoned 0 j1 else d2

def chainCount (e : Entry) : Nat := byteField e 3 1

/-- An ingot boundary: the job goes on, or ends after its last ingot or where an abandon waits for it (R561). -/
def ingotBoundary (d : Dev) (r : Nat) (j : CoderJob) : Dev :=
  if jobCount j.entry ≤ j.next then endJob d r statusOk 0 j
  else if j.ending then endJob d r statusAbandoned 0 j
  else setJob d r (some j)

/-- An ingot is finished: counted, and the job ended after its last. -/
def ingotDone (d : Dev) (r : Nat) (j : CoderJob) (counter : Nat) : Dev :=
  ingotBoundary (d.count pageIcd counter) r { j with next := j.next + 1, coded := j.coded + 1, held := [], reading := false }

/-- Bytes go to the buffer in use. The encoder never splits an ingot; the decoder fills the buffer. Where bytes are left, the
job leaves the buffer and reads the next descriptor of its chain; with none left, it pauses (R559 to R561). -/
def placeHeld (d : Dev) (r : Nat) (j : CoderJob) (bs : List Byte) : Dev :=
  let room := match j.buffer with | some (_, left, _) => left | none => 0
  let take := if j.decode then min room bs.length else if bs.length ≤ room then bs.length else 0
  let d1 := match j.buffer with | some (a, _, _) => jobWrite d j a (bs.take take) | none => d
  let j1 := match j.buffer with
    | some (a, left, used) => { j with buffer := some (a + take, left - take, used + take), bytes := j.bytes + take }
    | none => j
  let rest := bs.drop take
  if rest.isEmpty then ingotDone d1 r j1 (if j.decode then 0x070 else 0x068)
  else
    let l := leaveBuffer d1 j1
    if l.2.chainCount ≤ l.2.taken then starveJob l.1 r { l.2 with held := rest }
    else setJob l.1 r (some { l.2 with held := rest, reading := true })

/-- The job moves to the descriptor whose 16 bytes have been read; none: the read failed. -/
def takeDescriptor (d : Dev) (r : Nat) (j : CoderJob) (raw : Option (List Byte)) (f : Dev → CoderJob → Dev) : Dev :=
  match raw with
  | none => endJob (dmaFault d (12 + r) ((j.chainAddr + 16 * j.taken) % 2 ^ 32)) r statusFetch 0 j
  | some bs =>
    let addr := leNat (bs.take 8)
    let len := leNat ((bs.drop 8).take 4)
    let j1 := { j with taken := j.taken + 1, moved := j.moved + 1 }
    if len < 4 ∨ len % 4 ≠ 0 then endJob d r statusFormat 0 j1
    else f d { j1 with buffer := some (addr, len, 0) }

/-- What the read of a descriptor brought: its 16 bytes, or none where it failed. -/
def descriptorBytes : HostRead → Option (List Byte)
  | .ok bs => if 16 ≤ bs.length then some bs else none
  | _ => none

/-- The read of the next descriptor has ended: the bytes that wait go on. -/
def descriptorRead (d : Dev) (r : Nat) (rd : HostRead) : Dev :=
  match jobOf d r with
  | some j => if j.reading then takeDescriptor d r j (descriptorBytes rd) fun d j => placeHeld d r j j.held else d
  | none => d

/-- Reserved values of an entry (R558). -/
def jobFormatOk (e : Entry) : Bool :=
  let type := byteField e 0 1
  let fixed := decide (byteField e 1 1 < 4) && chainCount e != 0 && byteField e 28 3 == 0
  if type = 0x33 then fixed && byteField e 8 8 == 0 && jobCount e == 0
  else (type == 0x31 || type == 0x32) && fixed && ingotLength (byteField e 2 1) != 0 &&
    decide (1 ≤ jobCount e ∧ jobCount e ≤ 16777216)

/-- A job as an entry starts it. -/
def newJob (e : Entry) : CoderJob :=
  { entry := e, starved := false, decode := byteField e 0 1 == 0x32, next := 0, coded := 0, bytes := 0, moved := 0
    chainAddr := byteField e 20 8, chainCount := chainCount e, taken := 0, outDev := bit (byteField e 1 1) 1
    buffer := none, history := [], held := [] }

/-- ICD_JOB.ABANDONr, or ICD CTL.ENABLE going to 0, ends a paused job at once and a running one at its next ingot boundary
(R561). -/
def abandonJob (d : Dev) (r : Nat) : Dev :=
  match jobOf d r with
  | some j =>
    if j.reading then setJob d r (some { j with ending := true })
    else endJob (if (ringOf d (12 + r)).parked.isSome then unpark d (12 + r) else d) r statusAbandoned 0 j
  | none => d

/-- E5 may take the next entry of the ring: enabled, and its job, if any, paused. -/
def jobRingFree (d : Dev) (r : Nat) : Bool :=
  (ringOf d (12 + r)).begun || d.enabled pageIcd && (match jobOf d r with | some j => j.starved | none => true)

/-- A job begins to run: where both rings then run one, ring 12 goes first (R551). -/
def firstTurn (d : Dev) : Dev := { d with coder := { d.coder with turn := 0 } }

/-- A job entry is taken; `first` are the bytes of its first descriptor, to which the job moves at once, none where their
read failed (R561, R563, log entry 19). -/
def takeJob (d : Dev) (r : Nat) (e : Entry) (first : Option (List Byte)) : Dev :=
  match jobOf d r with
  | some j =>
    if byteField e 0 1 = 0x33 then
      if !jobFormatOk e then endJob d r statusFormat 0 j
      else
        takeDescriptor d r { j with
          starved := false, chainAddr := byteField e 20 8, chainCount := chainCount e, taken := 0
          outDev := bit (byteField e 1 1) 1 } first fun d j => placeHeld (firstTurn d) r j j.held
    else start (endJob d r statusAbandoned 0 j)
  | none => if byteField e 0 1 = 0x33 then endJob d r statusFormat 0 (newJob e) else start d
where
  start (d : Dev) : Dev :=
    if !jobFormatOk e then endJob d r statusFormat 0 (newJob e)
    else
      takeDescriptor d r (newJob e) first fun d j =>
        -- a committed PRED_EN applies to the job (R44, R49)
        setJob (firstTurn (if groupRipe d pageIcd d.cycle 0 then takeGroup d pageIcd 0 else d)) r (some j)

/-- The entry names a descriptor to read: not one that its own reserved values end, nor a RESUME with nothing to resume. -/
def jobReads (d : Dev) (r : Nat) (e : Entry) : Bool := jobFormatOk e && (byteField e 0 1 != 0x33 || (jobOf d r).isSome)

/-- A job entry on ring `12 + r` with the read of its first descriptor. -/
def jobEntry (d : Dev) (r : Nat) (e : Entry) (rd : HostRead) (self : Instr) : Dev :=
  if canRead d (12 + r) && jobRingFree d r then
    if rd = .waiting ∧ jobReads d r e = true then
      (if bits e.toNat 248 1 = phaseAt (ringCons d (12 + r)) then park d (12 + r) self true else phaseError d (12 + r))
    else
      -- with ICD disabled since the entry was begun, its job is abandoned at once
      let off := !d.enabled pageIcd
      takeEntry d (12 + r) e fun d _ =>
        let d1 := takeJob d r e (descriptorBytes rd)
        if off then abandonJob d1 r else d1
  else d

/-- E5 alternates between two running jobs (R551). -/
def jobTurn (d : Dev) (r : Nat) : Bool :=
  match jobOf d (1 - r) with
  | some j => j.starved || d.coder.turn == r
  | none => true

/-- Bytes of the input of one ingot. -/
def inputLength (j : CoderJob) : Nat := if j.decode then ingotLength (byteField j.entry 2 1) else 256

def wordsOf : Nat → List Byte → List Word
  | 0, _ => []
  | n + 1, bs => word (leNat (bs.take 4)) :: wordsOf n (bs.drop 4)
def bytesOf (ws : List Word) : List Byte := ws.flatMap fun w => leBytes 4 w.toNat

/-- One ingot of an encode job (R556, R560, R562). -/
def encodeStep (d : Dev) (r : Nat) (j : CoderJob) (input : List Byte) : Dev :=
  let xs := wordsOf 64 input
  match encodeIngot (d.fld pageIcd 0x044 0 3) (byteField j.entry 2 1) j.history xs with
  | some bs => placeHeld d r { j with history := pushHistory j.history xs } bs
  | none =>
    let d1 := raise (d.count pageIcd 0x06C) pageIcd 0 clsHousekeeping sevInfo 0x0201 (pay 5 0 0 j.next)
    let d2 := jobRecord d1 r 0x21 statusOk 0x0201 j j.next
    ingotBoundary d2 r { j with next := j.next + 1, history := [] }

/-- A decoder's fault: counter, pennant and event of engine `engine` (R557). -/
def decodeFault (d : Dev) (engine code index : Nat) : Dev :=
  raise (d.count pageIcd 0x074) pageIcd 1 clsHousekeeping sevWarning code (pay engine 0 0 index)

/-- One ingot of a decode job. -/
def decodeStep (d : Dev) (r : Nat) (j : CoderJob) (input : List Byte) : Dev :=
  match decodeIngot j.history input with
  | .ok xs => placeHeld d r { j with history := pushHistory j.history xs } (bytesOf xs)
  | .error code => endJob (decodeFault d 5 code j.next) r statusIngot code j

/-- The input of the job's next ingot has come, or its read has failed. -/
def ingotInput (d : Dev) (r : Nat) (j : CoderJob) (bytes : Option (List Byte)) : Dev :=
  match bytes with
  | some bs => if j.decode then decodeStep d r j bs else encodeStep d r j bs
  | none => endJob d r statusFetch 0 j

/-- The next ingot of the ring's job: its input is read from host memory, or through port INGOT from the device's own DRAM
(IN_DEV). -/
def ingotStep (d : Dev) (r : Nat) (decode : Bool) (rd : HostRead) (self : Instr) : Dev :=
  match jobOf d r with
  | none => d
  | some j =>
    if j.starved || j.reading || j.input.isSome || j.decode != decode || !jobTurn d r || !(ringOf d (12 + r)).parked.isNone then d
    else
      let d0 := { d with coder := { d.coder with turn := 1 - r } }
      let n := inputLength j
      if bit (byteField j.entry 1 1) 0 then
        match dramRead d0 7 (byteField j.entry 8 8 + n * j.next) n (.ingot r) with
        | (none, d1) => ingotInput d1 r j (some (List.replicate n 0))
        | (id, d1) => setJob d1 r (some { j with input := id })
      else
        match rd with
        | .waiting => park d (12 + r) self true
        | .failed => ingotInput (dmaFault d0 (12 + r) (byteField j.entry 8 4)) r j none
        | .ok bs =>
          if n ≤ bs.length then ingotInput d0 r j (some (bs.take n))
          else ingotInput (dmaFault d0 (12 + r) (byteField j.entry 8 4)) r j none

def jobAbandonWrite (d : Dev) (v : Nat) : Dev :=
  let d1 := if bit v 0 then abandonJob d 0 else d
  if bit v 1 then abandonJob d1 1 else d1

/-! ### Meanings -/

/-- R558. -/
def execEncode (t : Nat) (r : Fin 2) (e : Entry) (rd : HostRead) (s : State) : Host.Outcome State Fault Refusal :=
  onDev s fun d => jobEntry (d.arrive t) r.val e rd (.encode 0 r e rd)
/-- R558. -/
def execDecode (t : Nat) (r : Fin 2) (e : Entry) (rd : HostRead) (s : State) : Host.Outcome State Fault Refusal :=
  onDev s fun d => jobEntry (d.arrive t) r.val e rd (.decode 0 r e rd)
/-- R561. -/
def execResume (t : Nat) (r : Fin 2) (e : Entry) (rd : HostRead) (s : State) : Host.Outcome State Fault Refusal :=
  onDev s fun d => jobEntry (d.arrive t) r.val e rd (.resume 0 r e rd)
/-- R556. -/
def execIngotEncode (t : Nat) (r : Fin 2) (rd : HostRead) (s : State) : Host.Outcome State Fault Refusal :=
  onDev s fun d => ingotStep (d.arrive t) r.val false rd (.ingotEncode 0 r rd)
/-- R557. -/
def execIngotDecode (t : Nat) (r : Fin 2) (rd : HostRead) (s : State) : Host.Outcome State Fault Refusal :=
  onDev s fun d => ingotStep (d.arrive t) r.val true rd (.ingotDecode 0 r rd)
/-- R561. -/
def execIcdJobAbandon (t : Nat) (value : Word) (s : State) : Host.Outcome State Fault Refusal :=
  onDev s fun d => withWrite (d.arrive t) pageIcd 0x040 value.toNat fun d => jobAbandonWrite d value.toNat

end Sys2Proof.Machine
end

