-- ==== Sys2Proof/Machine/ImageMath.lean ====
section
/-! DEFINITION. The stages of an image pipeline and the statistics of a frame (R321 to R331), as functions of a
frame's accepted rows and of the settings in force at its SOF. Rows that were not accepted hold no pixel: they take
part in no mean (log entry 30). -/
namespace Sys2Proof.Machine

/-- A field of a context's register in force for the frame. -/
def CamFrame.fld (f : CamFrame) (off lo w : Nat) : Nat := bits (f.regs.get (same 0) off).toNat lo w
/-- A coefficient of the matrix of R324, row-major, signed Q4.12. -/
def CamFrame.coef (f : CamFrame) (i : Nat) : Int := signed 16 (f.fld (0x100 + 4 * (i / 2)) (16 * (i % 2)) 16)
/-- Entry `q` of the tone curve (R344). -/
def toneAt (t : Tab Word) (q : Nat) : Nat := bits (t.get (same 0) (q / 2)).toNat (16 * (q % 2)) 16
/-- The listed defect pixels, as (column, row). -/
def defects (t : Tab Word) : List (Nat × Nat) :=
  (List.range (min 128 (bits (t.get (same 0) 512).toNat 0 16))).map fun i =>
    let e := (t.get (same 0) (516 + i)).toNat
    (bits e 0 11, bits e 16 11)

/-- The size of a frame's image and its kind. -/
structure Shape where
  coaxial : Bool
  width : Nat
  height : Nat
  /-- MOSAIC_PHASE of a coaxial context, CFA of an overview context. -/
  cfa : Nat
  deriving DecidableEq, Repr

def CamFrame.shape (f : CamFrame) (coaxial : Bool) : Shape :=
  if coaxial then ⟨true, 80, 80, f.fld 0x05C 0 1⟩ else ⟨false, f.fld 0x058 0 11, f.fld 0x058 16 11, f.fld 0x05C 0 2⟩

/-- A plane of values by row; none for a row that was not accepted. -/
abbrev Plane := Array (Option (Array Nat))
def Plane.at (p : Plane) (x y : Nat) : Option Nat :=
  match p.getD y none with | some r => some (r.getD x 0) | none => none

/-- Index reflection; a second one for images of 2 entries. -/
def reflect1 (n i : Int) : Int := if i < 0 then -i else if n ≤ i then 2 * n - 2 - i else i
def reflect (n : Nat) (i : Int) : Nat := (reflect1 n (reflect1 n i)).toNat

/-- The band or colour of a pixel (R321): 0 S or R, 1 L or G, 2 B. -/
def Shape.band (s : Shape) (x y : Nat) : Nat :=
  if s.coaxial then (x + y + s.cfa) % 2
  else
    let i := x % 2 + 2 * (y % 2)
    (match s.cfa with
      | 0 => [0, 1, 1, 2]
      | 1 => [1, 0, 2, 1]
      | 2 => [1, 2, 0, 1]
      | _ => [2, 1, 1, 0]).getD i 0

def roundMean (l : List Nat) : Nat := if l.isEmpty then 0 else (l.sum + l.length / 2) / l.length

def rawPlane (f : CamFrame) (s : Shape) : Plane :=
  (Array.range s.height).map fun y =>
    match f.lines.get (same []) y with
    | [] => none
    | l => some (l.map (·.toNat)).toArray

/-- Maps every pixel that is there. -/
def Plane.mapAt (p : Plane) (g : Nat → Nat → Nat → Nat) : Plane :=
  (Array.range p.size).map fun y =>
    (p.getD y none).map fun r => (Array.range r.size).map fun x => g x y (r.getD x 0)

/-- Stage 1: black level (R321). -/
def blackLevel (f : CamFrame) (s : Shape) (p : Plane) : Plane :=
  let b := #[f.fld 0x048 0 16, f.fld 0x048 16 16, f.fld 0x04C 0 16]
  p.mapAt fun x y v => v - b.getD (s.band x y) 0

/-- Stage 2: defect pixels (R322). -/
def replaceDefects (f : CamFrame) (s : Shape) (p : Plane) : Plane :=
  if f.fld 0x120 0 1 = 0 then p
  else
    let ds := defects f.tables
    let steps : List (Int × Int) := if s.coaxial then [(-1, -1), (1, -1), (-1, 1), (1, 1)] else [(-2, 0), (2, 0), (0, -2), (0, 2)]
    p.mapAt fun x y v =>
      if ds.contains (x, y) then
        roundMean (steps.filterMap fun st =>
          let u := reflect s.width ((x : Int) + st.1)
          let w := reflect s.height ((y : Int) + st.2)
          if ds.contains (u, w) then none else p.at u w)
      else v

/-- Stage 3: the value of band `b` at a pixel (R323). -/
def demosaic (s : Shape) (p : Plane) (b x y : Nat) : Nat :=
  if s.band x y = b then (p.at x y).getD 0
  else
    roundMean (([-1, 0, 1] : List Int).flatMap fun dy => ([-1, 0, 1] : List Int).filterMap fun dx =>
      let u := reflect s.width ((x : Int) + dx)
      let w := reflect s.height ((y : Int) + dy)
      if s.band u w = b then p.at u w else none)

def Shape.bands (s : Shape) : Nat := if s.coaxial then 2 else 3
def stage3 (s : Shape) (p : Plane) (x y : Nat) : List Nat := (List.range s.bands).map fun b => demosaic s p b x y

/-- Stage 4: matrix (R324). -/
def stage4 (f : CamFrame) (s : Shape) (u : List Nat) : List Nat :=
  (List.range s.bands).map fun i =>
    let third : Nat := if s.coaxial then 1024 else u.getD 2 0
    (clampInt 0 65535
      ((f.coef (3 * i) * (u.getD 0 0 : Nat) + f.coef (3 * i + 1) * (u.getD 1 0 : Nat) + f.coef (3 * i + 2) * third + 2048) / 4096)).toNat

/-- Stage 5: gains (R325). -/
def stage5 (f : CamFrame) (u : List Nat) : List Nat :=
  let g := [f.fld 0x114 0 16, f.fld 0x114 16 16, f.fld 0x118 0 16]
  (List.range u.length).map fun i => min ((u.getD i 0 * g.getD i 0 + 2048) / 4096) 65535

/-- Stage 6: temperature, 0 for an invalid pixel, or gamma (R326). -/
def stage6 (f : CamFrame) (s : Shape) (u : List Nat) : List Nat :=
  let shift := f.fld 0x11C 0 4
  if s.coaxial then
    let a := u.getD 0 0
    let b := u.getD 1 0
    if 0 < a ∧ 0 < b ∧ f.fld 0x11C 16 16 ≤ a + b then [toneAt f.tables (min (a * 2 ^ shift / b) 1023)] else [0]
  else u.map fun v => toneAt f.tables (min (v >>> shift) 1023)

/-- Stages 1 and 2 of a frame. -/
def planes (f : CamFrame) (s : Shape) : Plane × Plane :=
  let p1 := blackLevel f s (rawPlane f s)
  (p1, replaceDefects f s p1)

/-! ### Statistics (R327 to R329) -/

structure Stats where
  area : Nat := 0
  mean : Nat := 0
  peak : Nat := 0
  cx : Nat := 0
  cy : Nat := 0
  length : Nat := 0
  spatter : Nat := 0
  deriving DecidableEq, Repr

/-- The pixels 8-connected to those on the stack, taken out of the grid of hot pixels (by y * w + x); `fuel` bounds the
pixels looked at. -/
def flood (w h : Nat) : Nat → Array Bool → List Nat → List Nat → Array Bool × List Nat
  | 0, g, _, acc => (g, acc)
  | _ + 1, g, [], acc => (g, acc)
  | fuel + 1, g, i :: st, acc =>
    if g.getD i false then
      let x := i % w
      let y := i / w
      let next := ([0, 1, 2] : List Nat).flatMap fun dy => ([0, 1, 2] : List Nat).filterMap fun dx =>
        if 1 ≤ x + dx ∧ x + dx < w + 1 ∧ 1 ≤ y + dy ∧ y + dy < h + 1 then some ((y + dy - 1) * w + (x + dx - 1)) else none
      flood w h fuel (g.setIfInBounds i false) (next ++ st) (i :: acc)
    else flood w h fuel g st acc

/-- Statistics of a coaxial frame from its temperatures, by y * w + x (R327). -/
def meltPool (f : CamFrame) (w h : Nat) (t : Array Nat) : Stats :=
  let thresh := f.fld 0x050 0 16
  let hot : Array Bool := t.map fun v => decide (0 < v) && decide (thresh ≤ v)
  let n := w * h
  let best : Option Nat := (List.range n).foldl (fun b i =>
    if hot.getD i false then
      match b with
      | some j => if t.getD j 0 < t.getD i 0 then some i else b
      | none => some i
    else b) none
  match best with
  | none => {}
  | some b =>
    let pool := flood w h (10 * n + 2) hot [b] []
    let cells := pool.2
    let area := cells.length
    let sx := (cells.map (· % w)).sum
    let sy := (cells.map (· / w)).sum
    let st := (cells.map fun i => t.getD i 0).sum
    let proj := cells.map fun i => (((i % w : Nat) : Int) * f.ux + ((i / w : Nat) : Int) * f.uy) / 16384
    let hi := proj.foldl max (proj.headD 0)
    let lo := proj.foldl min (proj.headD 0)
    let least := f.fld 0x050 16 8
    let others := (List.range n).foldl (fun (a : Array Bool × Nat) i =>
      if a.1.getD i false then
        let c := flood w h (10 * n + 2) a.1 [i] []
        (c.1, if least ≤ c.2.length then a.2 + 1 else a.2)
      else a) (pool.1, 0)
    { area := area, mean := st / area, peak := t.getD b 0, cx := 256 * sx / area, cy := 256 * sy / area
      length := (hi - lo + 1).toNat, spatter := min others.2 255 }

/-- Stage 6 of every accepted pixel, in raster order, with its place. -/
def finalValues (f : CamFrame) (s : Shape) (p2 : Plane) : List (Nat × List Nat) :=
  (List.range s.height).flatMap fun y =>
    match p2.getD y none with
    | none => []
    | some _ => (List.range s.width).map fun x =>
      (y * s.width + x, stage6 f s (stage5 f (stage4 f s (stage3 s p2 x y))))

/-- The statistics of a frame from the rows it accepted (R330). -/
def statistics (f : CamFrame) (coaxial : Bool) : Stats :=
  let s := f.shape coaxial
  let vals := finalValues f s (planes f s).2
  if coaxial then
    let t := vals.foldl (fun (a : Array Nat) v => a.setIfInBounds v.1 (v.2.headD 0)) (Array.replicate (80 * 80) 0)
    meltPool f 80 80 t
  else
    let n := max 1 vals.length
    let mean (i : Nat) : Nat := (vals.map fun v => v.2.getD i 0).sum / n
    { area := min 65535 (vals.countP fun v => decide (f.fld 0x050 0 16 ≤ v.2.getD 1 0))
      mean := mean 0, peak := mean 1, cx := mean 2 }

/-! ### Tap data (R331, R332) -/

/-- A bit stream of `w`-bit values, first value lowest: its value. -/
def packBits (w : Nat) : List Nat → Nat
  | [] => 0
  | v :: t => v % 2 ^ w + (packBits w t) <<< w

/-- Packs in groups of 8 values, which fill `w` bytes; padded with 0 to a whole byte. -/
def packBytes (w : Nat) : Nat → List Nat → List Byte
  | 0, _ => []
  | fuel + 1, vs =>
    if vs.isEmpty then []
    else
      let g := vs.take 8
      leBytes ((w * g.length + 7) / 8) (packBits w g) ++ packBytes w fuel (vs.drop 8)

/-- The values that a tap takes of the accepted pixels, in raster order, and their width (R331). -/
def tapValues (f : CamFrame) (s : Shape) (tap : Nat) : Nat × List Nat :=
  let p := planes f s
  let pixels := (List.range s.height).flatMap fun y =>
    match p.1.getD y none with | none => [] | some _ => (List.range s.width).map fun x => (x, y)
  if tap = 1 then (if s.coaxial then 10 else 12, pixels.map fun q => (p.1.at q.1 q.2).getD 0)
  else if tap = 3 then (if s.coaxial then 10 else 12, pixels.flatMap fun q => stage3 s p.2 q.1 q.2)
  else if tap = 4 then (16, pixels.flatMap fun q => stage4 f s (stage3 s p.2 q.1 q.2))
  else if tap = 6 then (16, pixels.flatMap fun q => stage6 f s (stage5 f (stage4 f s (stage3 s p.2 q.1 q.2))))
  else (8, [])

end Sys2Proof.Machine
end

