-- ==== Sys2Proof/Machine/LaneOps.lean ====
section
/-! DEFINITION. What other blocks use of the lanes: the lane of a partner, frames and control blocks sent on it, the
check of a received frame and its counts (R508, R513, R515 to R517, R527). -/
namespace Sys2Proof.Machine

/-- A lane at the beginning of stage `stage`: its last refusal cause, its last eye scan and the bad frames of the superframe
stay as they are. -/
def freshLane (x : Lane) (stage since : Nat) : Lane :=
  { stage := stage, since := since, cause := x.cause, eye := x.eye, badInSuper := x.badInSuper }

/-- A lane that is not disabled starts again from stage 1. -/
def restartLane (d : Dev) (l : Nat) : Dev :=
  let x := laneOf d l
  if x.stage = 0 then d else setLane d l (freshLane x 1 d.tick)

/-- The physical lane that LNK_MAP gives partner `p`; 63 for none (R508). -/
def mapLane (d : Dev) (p : Nat) : Nat := d.fld pageLnk (0x100 + 4 * (p / 4)) (8 * (p % 4)) 6
/-- The lane of partner `p` when it is UP. -/
def partnerLane (d : Dev) (p : Nat) : Option Nat :=
  let l := mapLane d p
  if l < 48 ∧ (laneOf d l).stage = 5 ∧ (laneOf d l).logical = p then some l else none
/-- A header payload (R515). -/
def frameHeader (cycle role side epoch rev count pass : Nat) : Nat :=
  cycle % 65536 + role <<< 16 + side <<< 18 + (epoch % 65536) <<< 19 + rev <<< 35 + count <<< 39 + pass <<< 47

/-- The CRC-32 of a payload of `count` blocks (R515). -/
def payloadCrc (payload count : Nat) : Nat := crc32 (leBytes (8 * count) payload)

/-- Types of header blocks (R513). -/
def commandHdr : Nat := 0x4B
def codeHdr : Nat := 0x66
/-- Sends a frame on a lane. -/
def sendFrame (d : Dev) (lane type hdr check payload : Nat) : Dev := d.send (.frame lane type hdr check payload)

/-- A control block on every UP partner lane. -/
def blockAll (d : Dev) (type payload : Nat) : Dev :=
  upto 48 (fun d l => if (laneOf d l).stage = 5 then d.send (.block l type payload) else d) d

/-- A halyard record as it stands in the byte stream: TYPE, a reserved byte, LENGTH, the body, and the CRC-32 over all of
them (R527). -/
def halyardRecord (type : Nat) (body : List Byte) : List Byte :=
  let r := leBytes 1 type ++ leBytes 1 0 ++ leBytes 2 body.length ++ body
  r ++ leBytes 4 (crc32 r)
/-- Sends a halyard record; the link must be up. -/
def sendHalyard (d : Dev) (type : Nat) (body : List Byte) : Dev :=
  if halyardUp d then d.send (.halyard type (halyardRecord type body)) else d

/-- Sends data in records of TYPE `type`, BULK or MIRROR, from address `a` of the receiver on: 4,088 bytes to a record
(R527); `n` bounds the records. -/
def sendCopy (type : Nat) : Nat → Dev → Nat → List Byte → Dev
  | 0, d, _, _ => d
  | n + 1, d, a, bs =>
    let d1 := sendHalyard d type (leBytes 8 a ++ bs.take 4088)
    if bs.length ≤ 4088 then d1 else sendCopy type n d1 (a + 4088) (bs.drop 4088)

/-- A write to a mirrored page or window that this device accepted goes to the other device (R59, R481); while it joins,
the word counts as dirty (R501). -/
def forwardWrite (d : Dev) (bar2 : Bool) (addr value : Nat) : Dev :=
  if d.forwards then
    let p := d.par
    let d1 := { d with par := { p with
      slotCycle := d.cycle, writesSent := d.slotsUsed + 1
      dirtyNow := p.dirtyNow + (if 2 ≤ p.joinStage ∧ p.joinStage ≤ 3 then 1 else 0) } }
    sendHalyard d1 2 (leBytes 16 (atByte 0 (d.cycle % 2 ^ 64) + atByte 8 (addr % 2 ^ 28 + boolNat bar2 <<< 31) +
      atByte 12 (value % 2 ^ 32)))
  else d

/-- The host link keeps a write for a later cycle (R481). -/
def holdWrite (d : Dev) (w : HeldWrite) : Dev := { d with par := { d.par with heldWrites := d.par.heldWrites ++ [w] } }

/-- A bad frame on a lane: count and pennant (R516, R533). -/
def badFrame (d : Dev) (l : Nat) : Dev :=
  let x := laneOf d l
  setPen (setLane (d.count (pageLan l) 0x06C) l { x with badInSuper := x.badInSuper + 1 }) (pageLan l) 4

/-- A halyard record arrives: one that fails its CRC or holds a reserved TYPE is discarded and counted on the lane that
carried its first byte (R527). -/
def receive (d : Dev) (a : Arrival) (f : Dev → Dev) : Dev :=
  let e := d.arrive a.tick
  if a.intact then f e else if halyardUp e then badFrame e (48 + a.lane.val) else e

/-- The superframe has ended: the one event of a lane that had bad frames, with their count (R533; log entry 59). -/
def badFrameEvent (d : Dev) (l : Nat) : Dev :=
  let x := laneOf d l
  if x.badInSuper = 0 then d
  else
    let d1 := setLane d l { x with badInSuper := 0 }
    if d.flag (pageLan l) 0x014 4 then report d1 (pageLan l) clsLink sevNotice 0x0A04 (pay l 0 0 x.badInSuper) else d1

/-- A frame received whole after its deadline. -/
def lateFrame (d : Dev) (l : Nat) : Dev := d.count (pageLan l) 0x070

/-- Whether an uplink frame's header and check are right (R515, R516, R523). -/
def uplinkOk (d : Dev) (l count : Nat) (hdr : BitVec 56) (payload : Nat) (chk : Long) : Bool :=
  let h := hdr.toNat
  bits h 0 16 == d.cycle % 65536 && bits h 16 2 == 0 && bits h 18 1 == boolNat d.par.sideB && bits h 19 16 == 0 &&
    bits h 35 4 == (laneOf d l).rev && bits h 39 8 == count && bits h 47 9 == 0 &&
    chk.toNat == payloadCrc payload count

end Sys2Proof.Machine
end

