-- ==== Sys2Proof/Machine/FixedMath.lean ====
section
/-! DEFINITION. Fixed-point arithmetic on integers: roots, sine and cosine, arctangent, and jerk-limited profiles
(R199, R201 to R204). Angles and sines are in 2⁻⁹⁶ units. -/
namespace Sys2Proof.Machine

def one96 : Int := 2 ^ 96
/-- π in 2⁻⁹⁶ units. -/
def pi96 : Int := 248902613312231085230521944622

/-- A product, to the nearest. -/
def mul96 (a b : Int) : Int := (a * b + 2 ^ 95) / one96

/-- Terms of the sine and cosine series of an angle of at most π/2 in size: running term, sign alternates. -/
def seriesFrom (x2 : Int) : Nat → Nat → Int → Int → Int
  | 0, _, _, acc => acc
  | n + 1, k, term, acc =>
    let t := -(mul96 term x2) / (((k + 1) * (k + 2) : Nat) : Int)
    seriesFrom x2 n (k + 2) t (acc + t)

def sinSmall (x : Int) : Int := seriesFrom (mul96 x x) 16 1 x x
/-- Sine and cosine of any angle. -/
def sin96 (x : Int) : Int :=
  let y := x % (2 * pi96)
  if y ≤ pi96 / 2 then sinSmall y else if y ≤ pi96 + pi96 / 2 then sinSmall (pi96 - y) else sinSmall (y - 2 * pi96)
def cos96 (x : Int) : Int := sin96 (x + pi96 / 2)

/-- Arctangent series of a small x: x − x³/3 + x⁵/5 − … -/
def atanSeries (x2 : Int) : Nat → Nat → Int → Int → Int
  | 0, _, _, acc => acc
  | n + 1, k, p, acc =>
    let q := -(mul96 p x2)
    atanSeries x2 n (k + 2) q (acc + q / ((k + 2 : Nat) : Int))

/-- atan of x in 0 to 1: halved three times by atan x = 2 atan (x / (1 + √(1 + x²))). -/
def atanHalved : Nat → Int → Int
  | 0, x => atanSeries (mul96 x x) 26 1 x x
  | n + 1, x =>
    let r : Int := Nat.sqrt ((one96 * one96 + x * x).toNat)
    2 * atanHalved n (x * one96 / (one96 + r))

def atan96 (x : Int) : Int := atanHalved 3 x

/-- The angle of the vector (c, s) in 0 to 2π; 0 for the zero vector. -/
def angle96 (s c : Int) : Int :=
  if s = 0 ∧ c = 0 then 0
  else
    let a := s.natAbs
    let b := c.natAbs
    let base := if a ≤ b then atan96 ((a : Int) * one96 / b) else pi96 / 2 - atan96 ((b : Int) * one96 / a)
    if 0 ≤ c then (if 0 ≤ s then base else (2 * pi96 - base) % (2 * pi96))
    else (if 0 ≤ s then pi96 - base else pi96 + base)

/-! ### Profiles: positions in 2⁻¹²⁸ nm, velocities, accelerations and jerks in 2⁻¹²⁸ nm per tick, tick² and tick³, times
in 2⁻³² ticks -/

def fineUnit : Int := 2 ^ 128
/-- A quotient, to the nearest. -/
def nearDiv (a b : Int) : Int := (2 * a + b) / (2 * b)
/-- Change of position, velocity and acceleration over `t` with jerk `j`. -/
def advanceP (p v a j : Int) (t : Nat) : Int :=
  p + v * t / 2 ^ 32 + a * (t * t : Nat) / 2 ^ 65 + j * (t * t * t : Nat) / (6 * 2 ^ 96)
def advanceV (v a j : Int) (t : Nat) : Int := v + a * t / 2 ^ 32 + j * (t * t : Nat) / 2 ^ 65
def advanceA (a j : Int) (t : Nat) : Int := a + j * t / 2 ^ 32

/-- The profile after its first `t`: position, velocity, acceleration and what is left of it. -/
def Profile.after (x : Profile) : List (Nat × Int) → Int → Int → Int → Nat → Profile
  | [], p, v, a, t => ⟨advanceP p v 0 0 t, v, a * 0, []⟩
  | (d, j) :: rest, p, v, a, t =>
    if t < d then ⟨advanceP p v a j t, advanceV v a j t, advanceA a j t, (d - t, j) :: rest⟩
    else x.after rest (advanceP p v a j d) (advanceV v a j d) (advanceA a j d) (t - d)
/-- The state of a profile at time `t`. -/
def Profile.run (x : Profile) (t : Nat) : Profile := x.after x.segs x.p x.v x.a t
def Profile.duration (x : Profile) : Nat := x.segs.foldl (fun s d => s + d.1) 0

/-- The two or three segments that change the velocity by `dv` within acceleration `a` and jerk `j`. -/
def rampSegs (dv a j : Int) : List (Nat × Int) :=
  let n : Nat := dv.natAbs
  let s : Int := if dv < 0 then -1 else 1
  if n = 0 then []
  else if (n : Int) * j ≤ a * a then
    let t := (Nat.sqrt (((n : Int) * 2 ^ 66 / max 1 j).toNat) + 1) / 2
    [(t, s * j), (t, -(s * j))]
  else
    let tj := (nearDiv (a * 2 ^ 32) (max 1 j)).toNat
    let tc := (nearDiv ((n : Int) * 2 ^ 32) (max 1 a)).toNat - tj
    [(tj, s * j), (tc, 0), (tj, -(s * j))]

def segTime (l : List (Nat × Int)) : Nat := l.foldl (fun s d => s + d.1) 0
/-- Distance of a symmetric ramp: mean velocity times its time. -/
def rampDist (v0 v1 a j : Int) : Int := (v0 + v1) * segTime (rampSegs (v1 - v0) a j) / 2 ^ 33

/-- Distance covered through the intermediate velocity `w`. -/
def viaDist (v0 v1 w a j : Int) : Int := rampDist v0 w a j + rampDist w v1 a j

/-- Bisection of a velocity between `lo` (distance at most `dist`) and `hi` (distance at least it), or the reverse where
`up` is false; `n` halvings. -/
def bisectV (v0 v1 a j dist : Int) : Nat → Int → Int → Int
  | 0, lo, _ => lo
  | n + 1, lo, hi =>
    let m := (lo + hi) / 2
    if viaDist v0 v1 m a j ≤ dist then bisectV v0 v1 a j dist n m hi else bisectV v0 v1 a j dist n lo m

/-- The segments from velocity `v0` to `v1` over `dist` through the velocity `w`, with a cruise at it for what is left. -/
def throughSegs (v0 v1 dist w a j : Int) : List (Nat × Int) :=
  let left := dist - viaDist v0 v1 w a j
  let cruise := if w = 0 then 0 else (nearDiv (left * (if w < 0 then -1 else 1) * 2 ^ 32) w.natAbs).toNat
  rampSegs (w - v0) a j ++ (if cruise = 0 then [] else [(cruise, 0)]) ++ rampSegs (v1 - w) a j

/-- The minimum-time segments from velocity `v0` to `v1` over `dist` with zero acceleration at both ends (R199 step 1):
through a peak velocity, with a cruise at the limit `v`. -/
def minTimeSegs (v0 v1 dist v a j : Int) : List (Nat × Int) :=
  let top := max v (max v0.natAbs v1.natAbs)
  let direct := rampDist v0 v1 a j
  let w := if direct ≤ dist then (if viaDist v0 v1 top a j ≤ dist then top else bisectV v0 v1 a j dist 100 (max v0 v1) top)
    else (if dist ≤ viaDist v0 v1 (-top) a j then -top else bisectV v0 v1 a j dist 100 (-top) (min v0 v1))
  throughSegs v0 v1 dist w a j

/-- The segments of a run along a pour under the speed cap `v`: a run that begins above the cap comes down to it first,
as far as its length allows (R204, R453). -/
def markSegs (v0 v1 dist v a j : Int) : List (Nat × Int) :=
  if v0 ≤ v then minTimeSegs v0 v1 dist v a j
  else throughSegs v0 v1 dist (if viaDist v0 v1 v a j ≤ dist then v else bisectV v0 v1 a j dist 100 v0 v) a j

/-- Distance covered in exactly `t` through the cruise velocity `w`. -/
def timedDist (v0 v1 w a j : Int) (t : Nat) : Int :=
  viaDist v0 v1 w a j + w * ((t - (segTime (rampSegs (w - v0) a j) + segTime (rampSegs (v1 - w) a j)) : Nat) : Int) / 2 ^ 32

/-- Whether both ramps through `w` fit into `t`. -/
def rampsFit (v0 v1 w a j : Int) (t : Nat) : Bool :=
  decide (segTime (rampSegs (w - v0) a j) + segTime (rampSegs (v1 - w) a j) ≤ t)

/-- Bisection of the cruise velocity farthest from `near` towards `far` whose ramps fit. -/
def farCruise (v0 v1 a j : Int) (t : Nat) : Nat → Int → Int → Int
  | 0, near, _ => near
  | n + 1, near, far =>
    let m := (near + far) / 2
    if rampsFit v0 v1 m a j t then farCruise v0 v1 a j t n m far else farCruise v0 v1 a j t n near m

/-- The lowest and the highest cruise velocity that fit into `t`. -/
def cruiseRange (v0 v1 v a j : Int) (t : Nat) : Int × Int :=
  let top := max v (max v0.natAbs v1.natAbs)
  (farCruise v0 v1 a j t 90 (min v0 v1) (-top - 1), farCruise v0 v1 a j t 90 (max v0 v1) (top + 1))

/-- Whether an axis can cover `dist` in exactly `t` within acceleration `a`. -/
def axisReaches (v0 v1 dist v a j : Int) (t : Nat) : Bool :=
  let r := cruiseRange v0 v1 v a j t
  rampsFit v0 v1 v0 a j t && decide (timedDist v0 v1 r.1 a j t ≤ dist) && decide (dist ≤ timedDist v0 v1 r.2 a j t)

/-- Bisection of the acceleration bound: the lowest that covers the distance in exactly `t` (R199 step 4). -/
def bisectA (v0 v1 dist v j : Int) (t : Nat) : Nat → Int → Int → Int
  | 0, _, hi => hi
  | n + 1, lo, hi =>
    let m := (lo + hi) / 2
    if axisReaches v0 v1 dist v m j t then bisectA v0 v1 dist v j t n lo m else bisectA v0 v1 dist v j t n m hi

/-- Bisection of the cruise velocity that covers `dist` in exactly `t`. -/
def bisectCruise (v0 v1 dist a j : Int) (t : Nat) : Nat → Int → Int → Int
  | 0, lo, _ => lo
  | n + 1, lo, hi =>
    let m := (lo + hi) / 2
    if timedDist v0 v1 m a j t ≤ dist then bisectCruise v0 v1 dist a j t n m hi else bisectCruise v0 v1 dist a j t n lo m

/-- One axis of a jump that lasts exactly `t`. -/
def axisSegs (v0 v1 dist v a j : Int) (t : Nat) : List (Nat × Int) :=
  if v0 = 0 ∧ v1 = 0 ∧ dist = 0 then [(t, 0)]
  else
    let b := bisectA v0 v1 dist v j t 60 1 a
    let r := cruiseRange v0 v1 v b j t
    let hi := max v0 v1
    let lo := min v0 v1
    -- at the lowest bound the cruise lies outside the interval of the two end velocities
    let w := if timedDist v0 v1 hi b j t ≤ dist then bisectCruise v0 v1 dist b j t 100 hi r.2
      else if dist ≤ timedDist v0 v1 lo b j t then bisectCruise v0 v1 dist b j t 100 r.1 lo else hi
    let up := rampSegs (w - v0) b j
    let down := rampSegs (v1 - w) b j
    up ++ [(t - (segTime up + segTime down), 0)] ++ down

end Sys2Proof.Machine
end

