-- ==== Sys2Proof/Machine/Heats.lean ====
section
/-! DEFINITION. Heat submission and line data: entries, records and their checks, staging, closing, rejecting and
cancelling (R65 to R109, R659). -/
namespace Sys2Proof.Machine

/-! ### Statuses and completion records (R106 to R109) -/

def stOk : Nat := 0x00
def stSequence : Nat := 0x01
def stFormat : Nat := 0x02
def stRange : Nat := 0x03
def stCount : Nat := 0x04
def stCrc : Nat := 0x05
def stIngot : Nat := 0x06
def stFetch : Nat := 0x07
def stStranded : Nat := 0x08
def stCancelled : Nat := 0x09
def stRejected : Nat := 0x0A
def stStale : Nat := 0x0B
def stStalePart : Nat := 0x0C
def stAbandoned : Nat := 0x0D
def stInterrupted : Nat := 0x0E
def stEcc : Nat := 0x0F

/-- The event code of a status, if it has one (R107, R115, R547). -/
def statusEvent (st : Nat) : Option Nat :=
  if 1 ≤ st ∧ st ≤ 8 then some (0x0440 + st - 1)
  else if st = stRejected then some 0x0448 else if st = stAbandoned then some 0x0449
  else if st = stInterrupted then some 0x044A else if st = stEcc then some 0x044B else none

/-- The event of a completion record: class PROCESS, WARNING, source SCH; STRANDED and INTERRUPTED are pennants. -/
def statusReport (d : Dev) (st heat index : Nat) : Dev :=
  match statusEvent st with
  | none => d
  | some code =>
    let p := heat % 4294967296 + (index % 4294967296) * 4294967296
    if st = stStranded then raise d pageSch 2 clsProcess sevWarning code p
    else if st = stInterrupted then raise d pageSch 8 clsProcess sevWarning code p
    else report d pageSch clsProcess sevWarning code p

/-- ENTRY_DONE of ring `r`. -/
def entryDone (d : Dev) (r index status code heat detail dropped : Nat) : Dev :=
  let d1 := emitShared d (48 + r) .plain
    (atByte 0 (d.tick % 2 ^ 64) + atByte 8 1 + atByte 9 status + atByte 10 code + atByte 12 heat + atByte 16 index +
      atByte 20 (detail % 2 ^ 32) + atByte 24 dropped)
  statusReport d1 status heat (if status = stRejected then 0 else index)

/-- HEAT_DONE of a heat of ring `r`, stamped with tick `at0`. Bytes 28–29 hold 65,535 where more islands were stranded: the
spec does not say (DESIGN CHOICE, log entry 71). -/
def heatDone (d : Dev) (at0 r status heat duration patches completed stranded fired : Nat) : Dev :=
  let d1 := emitShared d (48 + r) .heatDone
    (atByte 0 (at0 % 2 ^ 64) + atByte 8 3 + atByte 9 status + atByte 10 fired + atByte 12 heat +
      atByte 16 (duration % 2 ^ 32) + atByte 20 patches + atByte 24 completed + atByte 28 (min stranded 65535))
  statusReport d1 status heat 0

/-! ### Fields of descriptors, pours, recoat records and pass headers -/

def islCount (i : BitVec 512) : Nat := byteField i 4 2
def islFlags (i : BitVec 512) : Nat := byteField i 6 2
def islC0 (i : BitVec 512) : Nat := byteField i 8 2
def islR0 (i : BitVec 512) : Nat := byteField i 10 2
def islC1 (i : BitVec 512) : Nat := byteField i 12 2
def islR1 (i : BitVec 512) : Nat := byteField i 14 2
def islMask (i : BitVec 512) : Nat := byteField i 16 4
def islPeak (i : BitVec 512) : Nat := byteField i 24 2
def islCool (i : BitVec 512) : Nat := byteField i 26 1
def islStitch (i : BitVec 512) : Nat := byteField i 28 2
def islTag (i : BitVec 512) : Nat := byteField i 36 4

def pourX0 (p : BitVec 256) : Int := signed 32 (byteField p 0 4)
def pourY0 (p : BitVec 256) : Int := signed 32 (byteField p 4 4)
def pourX1 (p : BitVec 256) : Int := signed 32 (byteField p 8 4)
def pourY1 (p : BitVec 256) : Int := signed 32 (byteField p 12 4)
def pourPower (p : BitVec 256) : Nat := byteField p 16 2
def pourSpeed (p : BitVec 256) : Nat := byteField p 18 2
def pourFocus (p : BitVec 256) : Int := signed 16 (byteField p 20 2)
def pourArc (p : BitVec 256) : Bool := byteField p 22 1 == 1
def pourChain (p : BitVec 256) : Bool := bit (byteField p 23 1) 0
def pourDark (p : BitVec 256) : Bool := bit (byteField p 23 1) 1
def pourLoopHold (p : BitVec 256) : Bool := bit (byteField p 23 1) 2
def pourBulge (p : BitVec 256) : Int := signed 32 (byteField p 24 4)
def pourProfile (p : BitVec 256) : Nat := byteField p 28 1

def rcLower (r : BitVec 512) : Nat := byteField r 0 4
def rcDose0 (r : BitVec 512) : Int := signed 32 (byteField r 4 4)
def rcDose1 (r : BitVec 512) : Int := signed 32 (byteField r 8 4)
def rcFarY (r : BitVec 512) : Int := signed 32 (byteField r 12 4)
def rcParkY (r : BitVec 512) : Int := signed 32 (byteField r 16 4)
def rcSpread (r : BitVec 512) : Nat := byteField r 20 2
def rcReturn (r : BitVec 512) : Nat := byteField r 22 2

def psStart (e : Entry) : Int := signed 32 (byteField e 8 4)
def psEnd (e : Entry) : Int := signed 32 (byteField e 12 4)
def psSpeed (e : Entry) : Nat := byteField e 16 2
def psIndex (e : Entry) : Nat := byteField e 18 1
def psMode (e : Entry) : Nat := byteField e 19 1
def psPacing (e : Entry) : Nat := byteField e 20 1
def psRing (e : Entry) : Nat := byteField e 21 1
def psNeed (e : Entry) : Nat := byteField e 24 4
/-- Lines of a pass (R84). -/
def psLines (e : Entry) : Nat := ((psStart e - psEnd e) / 125000).toNat

/-! ### Checks of single records (R70 to R77, R82 to R84) -/

/-- Square of the chord length. -/
def chordSq (p : BitVec 256) : Nat := ((pourX1 p - pourX0 p) ^ 2 + (pourY1 p - pourY0 p) ^ 2).toNat

/-- A valid pour record (R72). -/
def pourValid (p : BitVec 256) : Bool :=
  decide (byteField p 22 1 ≤ 1) && (pourX0 p != pourX1 p || pourY0 p != pourY1 p) &&
    decide (1 ≤ pourSpeed p ∧ pourSpeed p ≤ 4000) && decide (pourProfile p ≤ 7) && byteField p 29 3 == 0 &&
    decide (byteField p 23 1 < 8) &&
    (if pourArc p then decide (1 ≤ (pourBulge p).natAbs) && decide (4 * (pourBulge p).natAbs ^ 2 ≤ chordSq p)
     else pourBulge p == 0)

/-- A valid host island descriptor (R74); `none`, or the status it fails with (a count beyond R65 is RANGE). -/
def islandFault (i : BitVec 512) : Option Nat :=
  if 4096 < islCount i then some stRange
  else if islCount i = 0 ∨ islFlags i % 2 = 1 ∨ 4 ≤ islFlags i ∨ 511 < islC1 i ∨ 511 < islR1 i ∨ islC1 i < islC0 i ∨
      islR1 i < islR0 i ∨ 7 < islCool i ∨ byteField i 27 1 ≠ 0 ∨ byteField i 30 2 ≠ 0 ∨ byteField i 40 24 ≠ 0 then
    some stFormat
  else none

/-- A valid recoat record (R82). -/
def recoatValid (r : BitVec 512) : Bool :=
  decide (rcLower r ≤ 10000000) && decide (rcParkY r < rcFarY r) && decide (1 ≤ rcSpread r ∧ rcSpread r ≤ 1000) &&
    decide (1 ≤ rcReturn r ∧ rcReturn r ≤ 1000) && byteField r 24 40 == 0

/-- A valid pass header by itself (R83, R84). -/
def passValid (e : Entry) : Bool :=
  decide (psEnd e < psStart e) && (psStart e - psEnd e) % 125000 == 0 && decide (psLines e ≤ 8192) &&
    decide (1 ≤ psSpeed e ∧ psSpeed e ≤ 300) && decide (psMode e ≤ 1) && decide (psPacing e ≤ 1) &&
    decide (4 ≤ psRing e ∧ psRing e ≤ 7) && byteField e 22 2 == 0

/-- The bounds that join a pass header to the recoat record (R84). -/
def passFits (e : Entry) (r : BitVec 512) : Bool := decide (rcParkY r ≤ psEnd e) && decide (psStart e ≤ rcFarY r)

/-! ### The arc midpoint (R659) -/

/-- floor(a·√n / n + c/2 + 1/2) for the two coordinates: the nearest integer, ties toward +∞, of c/2 + a/√n, exactly.
With x = c/2 + a/√n and an integer k, k ≤ x + 1/2 is tested without roots. -/
def nearestSum (c a : Int) (n : Nat) : Int :=
  -- twice the value: c + 2a/√n; find the largest k with 2k ≤ c + 1 + 2a/√n
  let reach (k : Int) : Bool :=
    -- 2k - c - 1 ≤ 2a/√n
    let l := 2 * k - c - 1
    if l ≤ 0 then (if 0 ≤ a then true else decide ((2 * a) ^ 2 ≤ l ^ 2 * n))
    else (if a ≤ 0 then false else decide (l ^ 2 * n ≤ (2 * a) ^ 2))
  let approx := (c + 1) / 2 + (if 0 ≤ a then (Nat.sqrt (a.natAbs ^ 2 / max 1 n) : Int) else -(Nat.sqrt (a.natAbs ^ 2 / max 1 n) : Int))
  if reach (approx + 2) then approx + 2 else if reach (approx + 1) then approx + 1
  else if reach approx then approx else if reach (approx - 1) then approx - 1
  else if reach (approx - 2) then approx - 2 else approx - 3

def arcMid (p : BitVec 256) : Int × Int :=
  let n := chordSq p
  (nearestSum (pourX0 p + pourX1 p) (-(pourBulge p * (pourY1 p - pourY0 p))) n,
    nearestSum (pourY0 p + pourY1 p) (pourBulge p * (pourX1 p - pourX0 p)) n)

/-! ### Cells (R75) -/

def cellOf (nm : Int) : Int := nm / 2000000
/-- Column or row clipped to 0 to 511 (R128, R146). -/
def cellClip (nm : Int) : Nat := (clampInt 0 511 (cellOf nm)).toNat

/-- Whether a point lies inside the island's bounding box. -/
def pointInBox (i : BitVec 512) (x y : Int) : Bool :=
  decide ((islC0 i : Int) ≤ cellOf x ∧ cellOf x ≤ islC1 i ∧ (islR0 i : Int) ≤ cellOf y ∧ cellOf y ≤ islR1 i)
/-- R76. -/
def pourInBox (i : BitVec 512) (p : BitVec 256) : Bool :=
  pointInBox i (pourX0 p) (pourY0 p) && pointInBox i (pourX1 p) (pourY1 p) &&
    (!pourArc p || pointInBox i (arcMid p).1 (arcMid p).2)

/-! ### Checks at HEAT_CLOSE (R69, R73, R76, R77, R88, R92) -/

/-- The pours of an island, in order. -/
def islandPours (pours : List (BitVec 256)) (i : BitVec 512) : List (BitVec 256) := (pours.drop (islFirst i)).take (islCount i)

/-- R69: the first island whose pours begin before the previous island's end, or lie beyond those received. -/
def rangeFault (total : Nat) : List (BitVec 512) → Nat → Nat → Option (Nat × Nat)
  | [], _, _ => none
  | i :: t, k, low =>
    if total < islFirst i + islCount i then some (stRange, k)
    else if islFirst i < low then some (stFormat, k)
    else rangeFault total t (k + 1) (islFirst i + islCount i)

/-- R73 over one island's pours, `k` the index of the first in the heat. -/
def chainFault : List (BitVec 256) → Nat → Option Nat
  | [], _ => none
  | [p], k => if pourChain p then some k else none
  | p :: q :: t, k =>
    if pourChain p && (pourX0 q != pourX1 p || pourY0 q != pourY1 p) then some k else chainFault (q :: t) (k + 1)

def peakOf (ps : List (BitVec 256)) : Nat := ps.foldl (fun m p => if pourDark p then m else max m (pourPower p)) 0

/-- The first island, by index, that `bad` names. -/
def firstIsland (bad : BitVec 512 → Bool) : List (BitVec 512) → Nat → Option Nat
  | [], _ => none
  | i :: t, k => if bad i then some k else firstIsland bad t (k + 1)

/-- The CRC of a heat (R88). -/
def heatCrc (h : Heat) : Nat :=
  crcEnd (h.pours.foldl (fun c p => crcFeed c (leBytes 32 p.toNat))
    (h.islands.foldl (fun c i => crcFeed c (leBytes 64 i.toNat)) crcStart))

/-- What fails at the close of a heat: status and detail. The order: counts, entry order, ranges, chains, peak power,
boxes, CRC (log entry 16). R73 is checked here and not with the POURS, and of the pours that an island covers only: a CHAIN
pour that no island covers is never run and never fails (DESIGN CHOICE, log entry 16). A FORMAT of a pour outside its
island's box, or above its PEAK_POWER, names the island's index (DESIGN CHOICE, log entry 71). The spec does not say which index the detail of COUNT
names, nor that of a FORMAT fault of the entry as a whole: the model gives the number of records received, and 0 (DESIGN
CHOICE, log entry 71). -/
def closeFault (h : Heat) (islands pours crc : Nat) : Option (Nat × Nat) :=
  if islands ≠ h.islands.length then some (stCount, h.islands.length)
  else if pours ≠ h.pours.length then some (stCount, h.pours.length)
  else if h.recoat = none ∨ h.passes.length ≠ h.passCount then some (stFormat, 0)
  else
    match rangeFault h.pours.length h.islands 0 0 with
    | some f => some f
    | none =>
      match h.islands.findSome? fun i => chainFault (islandPours h.pours i) (islFirst i) with
      | some k => some (stFormat, k)
      | none =>
        match firstIsland (fun i => decide (islPeak i < peakOf (islandPours h.pours i))) h.islands 0 with
        | some k => some (stFormat, k)
        | none =>
          match firstIsland (fun i => (islandPours h.pours i).any fun p => !pourInBox i p) h.islands 0 with
          | some k => some (stFormat, k)
          | none => if crc ≠ heatCrc h then some (stCrc, heatCrc h) else none

/-! ### Rings of submission -/

def subOf (d : Dev) (r : Nat) : Submission := d.heats.sub.get (same {}) r
def setSub (d : Dev) (r : Nat) (x : Submission) : Dev := { d with heats := { d.heats with sub := d.heats.sub.set (same {}) r x } }

def enType (e : Entry) : Nat := byteField e 0 1
def enFlags (e : Entry) : Nat := byteField e 1 1
def enHeat (e : Entry) : Nat := byteField e 4 4
def enRatio (e : Entry) : Nat := byteField e 28 1
def enIngot (e : Entry) : Bool := bit (enFlags e) 0

/-- Reserved values of an entry that the type does not decide (R85, R86). -/
def entryShape (e : Entry) : Bool :=
  let ingotOk := enType e == 2 || enType e == 3
  byteField e 2 2 == 0 && byteField e 29 2 == 0 && decide (byteField e 31 1 < 2) &&
    (if enType e = 1 then decide (enFlags e < 4) && !enIngot e else decide (enFlags e < 2)) &&
    (if ingotOk && enIngot e then ingotLength (enRatio e) != 0 else enRatio e == 0 && !enIngot e)

/-- The heat that ring `r` builds. -/
def openOn (d : Dev) (r : Nat) : Option Heat := d.heats.opening.filter fun h => h.ring == r

/-- The heat of ring `r` is rejected because of this entry (R94): its record, everything staged discarded, and, where
the entry closes the heat, the HEAT_DONE of that heat. Where the ring builds none, the entry's own number stands for it. -/
def rejectHeat (d : Dev) (r index : Nat) (e : Entry) (status code detail : Nat) : Dev :=
  let d1 := entryDone d r index status code (enHeat e) detail 0
  let number := match openOn d r with | some h => h.number | none => BitVec.ofNat 32 (enHeat e)
  let d2 := if (openOn d r).isSome then { d1 with heats := { d1.heats with opening := none } } else d1
  if enType e = 6 then setSub (heatDone d2 d2.tick r stRejected number.toNat 0 0 0 0 0) r {}
  else setSub d2 r { mode := 2, number := number }

/-- The number that the next HEAT_OPEN must carry, if the spec fixes one (R89; log entry 15): one more than the last heat
closed, and before any is closed the number of the first HEAT_OPEN accepted, if it was rejected or cancelled since. -/
def nextHeat (d : Dev) : Option (BitVec 32) :=
  match d.heats.accepted with | some a => some (a + 1) | none => d.heats.first

/-- Heat `n` lies beyond the number that comes next. -/
def openAhead (d : Dev) (n : BitVec 32) : Bool :=
  match nextHeat d with | some m => n != m && decide ((n - m).toNat < 2 ^ 31) | none => false

/-- Whether a HEAT_OPEN numbered `n` waits at the head of its ring: another heat is open, no slot is free, or a heat before
it has not been opened yet, on whatever ring it comes (R89 to R91; log entry 15). -/
def openWaits (d : Dev) (n : BitVec 32) : Bool :=
  let slots := d.heats.staged.length + (if d.heats.running.isSome then 1 else 0)
  match d.heats.opening with
  | some h => n != h.number && decide ((n - h.number).toNat < 2 ^ 31)
  | none =>
    match nextHeat d with
    | none => false
    | some m => if n = m then decide (2 ≤ slots) else decide ((n - m).toNat < 2 ^ 31)

/-- Whether the entry at the head of ring `r` must wait (R90). -/
def submissionWaits (d : Dev) (r : Nat) (e : Entry) : Bool :=
  enType e == 1 && (subOf d r).mode != 1 && openWaits d (BitVec.ofNat 32 (enHeat e))

/-- HEAT_OPEN (R86, R89). Of several faults SEQUENCE comes first, then FORMAT, then RANGE (DESIGN CHOICE, log entry 16). -/
def openHeat (d : Dev) (r index : Nat) (e : Entry) : Dev :=
  let n := BitVec.ofNat 32 (enHeat e)
  let shape := entryShape e && byteField e 13 3 == 0 && byteField e 16 12 == 0
  if d.heats.opening.isSome || (match nextHeat d with | some m => n != m | none => false) then
    rejectHeat d r index e stSequence 0 0
  else if !shape then rejectHeat d r index e stFormat 0 0
  else if 8 < byteField e 12 1 then rejectHeat d r index e stRange 0 0
  else
    let h : Heat := { number := n, ring := r, report := bit (enFlags e) 1, thickness := BitVec.ofNat 32 (byteField e 8 4)
                      passCount := byteField e 12 1, slot := freeSlot d }
    let d1 := { d with heats := { d.heats with opening := some h, first := d.heats.first.or (some n) } }
    setSub (entryDone d1 r index stOk 0 (enHeat e) 0 0) r { mode := 1, number := n }

/-! ### Data of entries (R96 to R99) -/

/-- Bytes of an entry's buffer, uncompressed: the ingots of an INGOT entry are one stream; a fault gives its code and
the ingot's index. `n` ingots of `b` bytes. -/
def expandIngots (b : Nat) : Nat → Nat → List Word → List Byte → Except (Nat × Nat) (List Byte)
  | 0, _, _, _ => .ok []
  | n + 1, k, hist, bs =>
    match decodeIngot hist (bs.take b) with
    | .error c => .error (c, k)
    | .ok xs =>
      match expandIngots b n (k + 1) (pushHistory hist xs) (bs.drop b) with
      | .ok rest => .ok (bytesOf xs ++ rest)
      | .error f => .error f

/-- Cuts bytes into `n` records of `w` bytes. -/
def recordsOf (w : Nat) : Nat → List Byte → List Nat
  | 0, _ => []
  | n + 1, bs => leNat (bs.take w) :: recordsOf w n (bs.drop w)

/-- What reading and expanding a buffer of `count` records of `w` bytes gives. -/
inductive EntryData where
  | data (records : List Nat)
  | fault (status code detail : Nat)

def entryData (e : Entry) (w count : Nat) (rd : HostRead) : EntryData :=
  let len := byteField e 16 4
  let per := 256 / w
  let need := if enIngot e then count / per * ingotLength (enRatio e) else count * w
  if enIngot e ∧ count % per ≠ 0 then .fault stFormat 0 0
  else if len ≠ need then .fault stFormat 0 0
  else
    match rd with
    | .ok bs =>
      if bs.length < need then .fault stFetch 0 0
      else if enIngot e then
        match expandIngots (ingotLength (enRatio e)) (count / per) 0 [] bs with
        | .ok raw => .data (recordsOf w count raw)
        | .error f => .fault stIngot f.1 f.2
      else .data (recordsOf w count bs)
    | _ => .fault stFetch 0 0

/-- The decoder's accounting of an ingress entry (E4): ingots decoded whole, or the fault (R557, R565). -/
def ingressCount (d : Dev) (e : Entry) (count per : Nat) (x : EntryData) : Dev :=
  if !enIngot e then d
  else
    match x with
    | .data _ => d.addCount pageIcd 0x070 (count / per)
    | .fault st code k => if st = stIngot then decodeFault (d.addCount pageIcd 0x070 k) 4 code k else d

/-- The first record that fails, by index. -/
def firstFault (bad : Nat → Option Nat) : List Nat → Nat → Option (Nat × Nat)
  | [], _ => none
  | v :: t, k => match bad v with | some st => some (st, k) | none => firstFault bad t (k + 1)

def setOpening (d : Dev) (h : Heat) : Dev := { d with heats := { d.heats with opening := some h } }

/-- A failed read of an entry's buffer is also a DMA fault of its ring (R567). -/
def fetchFault (d : Dev) (r : Nat) (e : Entry) (rd : HostRead) : Dev :=
  match rd with | .failed => dmaFault d r (byteField e 8 4) | _ => d

/-- ISLANDS (R74, R87, R92). -/
def islandsEntry (d : Dev) (r index : Nat) (e : Entry) (h : Heat) (rd : HostRead) : Dev :=
  let first := byteField e 20 4
  let count := byteField e 24 4
  if first ≠ h.islands.length then rejectHeat d r index e stFormat 0 first
  else if 65536 < first + count then rejectHeat d r index e stRange 0 65536
  else
    let x := entryData e 64 count rd
    let d1 := ingressCount (fetchFault d r e rd) e count 4 x
    match x with
    | .fault st code detail => rejectHeat d1 r index e st code detail
    | .data recs =>
      match firstFault (fun v => islandFault (BitVec.ofNat 512 v)) recs first with
      | some (st, k) => rejectHeat d1 r index e st 0 k
      | none =>
        entryDone (setOpening d1 { h with islands := h.islands ++ recs.map (BitVec.ofNat 512) }) r index stOk 0 (enHeat e) 0 0

/-- POURS (R70 to R72, R87, R92). -/
def poursEntry (d : Dev) (r index : Nat) (e : Entry) (h : Heat) (rd : HostRead) : Dev :=
  let first := byteField e 20 4
  let count := byteField e 24 4
  if first ≠ h.pours.length then rejectHeat d r index e stFormat 0 first
  else if 16777216 < first + count then rejectHeat d r index e stRange 0 16777216
  else
    let x := entryData e 32 count rd
    let d1 := ingressCount (fetchFault d r e rd) e count 8 x
    match x with
    | .fault st code detail => rejectHeat d1 r index e st code detail
    | .data recs =>
      match firstFault (fun v => if pourValid (BitVec.ofNat 256 v) then none else some stFormat) recs first with
      | some (st, k) => rejectHeat d1 r index e st 0 k
      | none =>
        entryDone (setOpening d1 { h with pours := h.pours ++ recs.map (BitVec.ofNat 256) }) r index stOk 0 (enHeat e) 0 0

/-- RECOAT (R82, R84, R87). -/
def recoatEntry (d : Dev) (r index : Nat) (e : Entry) (h : Heat) (rd : HostRead) : Dev :=
  if h.recoat.isSome ∨ byteField e 16 4 ≠ 64 ∨ byteField e 20 8 ≠ 0 then rejectHeat d r index e stFormat 0 0
  else
    match rd with
    | .ok bs =>
      if bs.length < 64 then rejectHeat d r index e stFetch 0 0
      else
        let rc := BitVec.ofNat 512 (leNat (bs.take 64))
        if recoatValid rc && h.passes.all (fun p => passFits p rc) then
          entryDone (setOpening d { h with recoat := some rc }) r index stOk 0 (enHeat e) 0 0
        else rejectHeat d r index e stFormat 0 0
    | _ => rejectHeat (fetchFault d r e rd) r index e stFetch 0 0

/-- PASS (R68, R83, R84, R87). -/
def passEntry (d : Dev) (r index : Nat) (e : Entry) (h : Heat) : Dev :=
  if h.passCount ≤ psIndex e then rejectHeat d r index e stRange 0 (psIndex e)
  else if psIndex e != h.passes.length || !passValid e ||
      (match h.recoat with | some rc => !passFits e rc | none => false) then
    rejectHeat d r index e stFormat 0 (psIndex e)
  else entryDone (setOpening d { h with passes := h.passes ++ [e] }) r index stOk 0 (enHeat e) 0 0

/-- The heat is closed (R93): its record, and it waits to start. -/
def heatClosed (d : Dev) (r index : Nat) (h : Heat) : Dev :=
  let d1 := { d with heats := { d.heats with
    opening := none, staged := d.heats.staged ++ [h], accepted := some h.number } }
  setSub (entryDone d1 r index stOk 0 h.number.toNat 0 0) r {}

/-- HEAT_CLOSE (R88, R92, R93). -/
def closeEntry (d : Dev) (r index : Nat) (e : Entry) (h : Heat) : Dev :=
  if byteField e 20 8 ≠ 0 then rejectHeat d r index e stFormat 0 0
  else
    match closeFault h (byteField e 8 4) (byteField e 12 4) (byteField e 16 4) with
    | some (st, detail) => rejectHeat d r index e st 0 detail
    | none =>
      if d.pairHolder then setSub d r { mode := 4, number := h.number, closeIndex := index }
      else heatClosed d r index h

/-- HEAT_CANCEL of the open heat (R95). -/
def cancelEntry (d : Dev) (r index : Nat) (e : Entry) : Dev :=
  if byteField e 8 20 ≠ 0 then rejectHeat d r index e stFormat 0 0
  else
    let d1 := entryDone { d with heats := { d.heats with opening := none } } r index stOk 0 (enHeat e) 0 0
    setSub d1 r { mode := 3, number := BitVec.ofNat 32 (enHeat e) }

/-- An entry of a heat that is being discarded: consumed without effect; HEAT_CLOSE ends it with its HEAT_DONE
(R94, R95). A HEAT_OPEN ends it too and opens its own heat. R108 asks for an ENTRY_DONE of each entry consumed and names no
status for these: the model writes REJECTED, with its event, or CANCELLED (DESIGN CHOICE, log entry 17). -/
def discardEntry (d : Dev) (r index : Nat) (e : Entry) : Dev :=
  let s := subOf d r
  let st := if s.mode = 2 then stRejected else stCancelled
  if enType e = 1 then openHeat (setSub (heatDone d d.tick r st s.number.toNat 0 0 0 0 0) r {}) r index e
  else
    let d1 := entryDone d r index st 0 (enHeat e) 0 0
    if enType e = 6 then setSub (heatDone d1 d1.tick r st s.number.toNat 0 0 0 0 0) r {} else d1

/-- One entry of heat submission ring `r`, read at index `index` (R85 to R95). -/
def submissionEntry (d : Dev) (r index : Nat) (e : Entry) (rd : HostRead) : Dev :=
  let s := subOf d r
  if s.mode = 2 ∨ s.mode = 3 then discardEntry d r index e
  else if s.mode = 0 then
    if enType e = 1 then openHeat d r index e
    else entryDone d r index stFormat 0 (enHeat e) 0 0
  else
    match d.heats.opening with
    | none => rejectHeat d r index e stFormat 0 0
    | some h =>
      if enType e = 7 ∧ enHeat e ≠ h.number.toNat then entryDone d r index stFormat 0 (enHeat e) 0 0
      else if enHeat e ≠ h.number.toNat ∨ entryShape e = false then rejectHeat d r index e stFormat 0 0
      else if enType e = 2 then islandsEntry d r index e h rd
      else if enType e = 3 then poursEntry d r index e h rd
      else if enType e = 4 then recoatEntry d r index e h rd
      else if enType e = 5 then passEntry d r index e h
      else if enType e = 6 then closeEntry d r index e h
      else if enType e = 7 then cancelEntry d r index e
      else rejectHeat d r index e stFormat 0 0

/-- Whether the entry needs its buffer: only entries of an open heat act on data. -/
def needsData (d : Dev) (r : Nat) (e : Entry) : Bool :=
  (subOf d r).mode == 1 && decide (2 ≤ enType e ∧ enType e ≤ 4)

/-! ### Entries that go to the standby (R93, R478, R564) -/

/-- Bytes of a record of an entry's buffer. -/
def recordBytes (e : Entry) : Nat := if enType e = 2 then 64 else if enType e = 3 then 32 else 8192
/-- Records that the entry names. -/
def recordCount (e : Entry) : Nat := if enType e = 0x10 then byteField e 24 2 else byteField e 24 4

/-- The same entry for data that have been decoded: no INGOT flag, no RATIO, the LENGTH of the plain data. -/
def decodedEntry (e : Entry) : Entry :=
  if enIngot e then
    BitVec.ofNat 256 (e.toNat - atByte 1 1 - atByte 16 (byteField e 16 4) - atByte 28 (enRatio e) +
      atByte 16 (recordCount e * recordBytes e % 2 ^ 32))
  else e

/-- The data of an entry as the holder sends them on, decoded; or the status and code of a failed reading, and the ingot. -/
def decodedData (e : Entry) (rd : HostRead) : Except (Nat × Nat × Nat) (List Byte) :=
  match rd with
  | .ok bs =>
    if enIngot e then
      match expandIngots (ingotLength (enRatio e)) (recordCount e * recordBytes e / 256) 0 [] bs with
      | .ok raw => .ok raw
      | .error f => .error (stIngot, f.1, f.2)
    else .ok bs
  | _ => if 2 ≤ enType e ∧ enType e ≤ 4 ∨ enType e = 0x10 then .error (stFetch, 0, 0) else .ok []

/-- Address of a BULK record that carries an entry: the ring, the entry's index in it, and the status, code and detail of a
reading that failed (DESIGN CHOICE, log entry 27). -/
def entryAddr (ring index status code detail : Nat) : Nat :=
  ring + index % 2 ^ 16 <<< 4 + status <<< 20 + code <<< 28 + detail % 2 ^ 28 <<< 36

/-- A device that forwards writes sends an entry that it takes to the other one, with its data decoded (R93, R478, R564). -/
def forwardEntry (d : Dev) (ring index : Nat) (e : Entry) (rd : HostRead) : Dev :=
  if d.forwards then
    match decodedData e rd with
    | .ok bs => sendCopy 4 (bs.length / 4088 + 2) d (entryAddr ring index 0 0 0) (leBytes 32 e.toNat ++ bs)
    | .error f => sendHalyard d 4 (leBytes 8 (entryAddr ring index f.1 f.2.1 f.2.2) ++ leBytes 32 e.toNat)
  else d

/-- A command that reads an entry of heat submission ring `r`: an entry that must wait stays at the ring's head and the
ring reads no further (R90); so does one whose data have not come (R567). -/
def submissionCommand (d : Dev) (r : Nat) (e : Entry) (rd : HostRead) (self : Instr) : Dev :=
  if canRead d r && (subOf d r).mode != 4 then
    if submissionWaits d r e || (needsData d r e && rd == .waiting) then
      (if bits e.toNat 248 1 = phaseAt (entryPos d r) then park d r self (!submissionWaits d r e) else phaseError d r)
    else takeEntry d r e fun d index => submissionEntry (forwardEntry d r index e rd) r index e rd
  else d

/-- The standby confirms the staged heat (R93). -/
def standbyConfirm (d : Dev) (r : Nat) : Dev :=
  match d.heats.opening with
  | some h => if (subOf d r).mode = 4 ∧ h.ring = r then heatClosed d r (subOf d r).closeIndex h else d
  | none => d

/-- Ring `r` resumes reading: its waiting HEAT_OPEN is read once R90 no longer holds it back and the heat before it has
been opened. -/
def ringResume (d : Dev) (r : Nat) : Dev :=
  match (ringOf d r).parked with
  | some (.heatOpen _ _ e) =>
    if submissionWaits d r e || openAhead d (BitVec.ofNat 32 (enHeat e)) then d
    else submissionCommand (unpark d r) r e .failed (.heatOpen 0 0 e)
  | _ => d

/-! ### Lines (R100 to R105) -/

/-- The heat of a line-data entry among those opened. -/
def findHeat (d : Dev) (n : BitVec 32) : Option Heat :=
  match d.heats.running with
  | some x => if x.heat.number = n then some x.heat else other
  | none => other
where
  other : Option Heat :=
    match d.heats.staged.find? fun h => h.number == n with
    | some h => some h
    | none => match d.heats.opening with | some h => if h.number = n then some h else none | none => none

def updHeat (d : Dev) (n : BitVec 32) (f : Heat → Heat) : Dev :=
  let run := d.heats.running.map fun x => if x.heat.number = n then { x with heat := f x.heat } else x
  let staged := d.heats.staged.map fun h => if h.number = n then f h else h
  let opening := d.heats.opening.map fun h => if h.number = n then f h else h
  { d with heats := { d.heats with running := run, staged := staged, opening := opening } }

/-- Whether heat `n` has ended already: it is not ahead of the running or last heat. -/
def heatPast (d : Dev) (n : BitVec 32) : Bool :=
  d.heats.everStarted && decide ((d.heats.current - n).toNat < 2 ^ 31) && (findHeat d n).isNone

def linesShape (e : Entry) : Bool :=
  enType e == 0x10 && decide (enFlags e < 2) && byteField e 2 2 == 0 && byteField e 27 1 == 0 && byteField e 29 2 == 0 &&
    decide (byteField e 31 1 < 2) && decide (1 ≤ byteField e 24 2 ∧ byteField e 24 2 ≤ 8192) &&
    (if enIngot e then ingotLength (enRatio e) != 0 else enRatio e == 0)

def storeLines (h : Heat) (pass first : Nat) (data : List (List Byte)) : Heat :=
  { h with lines := (data.foldl (fun (x : Tab (List Byte) × Nat) l => (x.1.set (same []) (8192 * pass + x.2) l, x.2 + 1)) (h.lines, first)).1 }

def chunks (w : Nat) : Nat → List Byte → List (List Byte)
  | 0, _ => []
  | n + 1, bs => bs.take w :: chunks w n (bs.drop w)

def holdsLine (h : Heat) (pass line : Nat) : Bool := !(h.lines.get (same []) (8192 * pass + line)).isEmpty

/-- The lines of an entry that has been taken, for a pass of the heat; `next` is the pass's next line to fire. An entry with a
wrong LENGTH or ring fails with FORMAT also where its lines are all past (DESIGN CHOICE, log entry 73). -/
def linesData (d : Dev) (r index : Nat) (e : Entry) (h : Heat) (p : Entry) (next : Nat) (rd : HostRead) : Dev :=
  let first := byteField e 20 4
  let count := byteField e 24 2
  let n := enHeat e
  let need := if enIngot e then count * 32 * ingotLength (enRatio e) else count * 8192
  if psRing p ≠ 4 + r ∨ byteField e 16 4 ≠ need then entryDone d (4 + r) index stFormat 0 n 0 0
  else if first + count ≤ next then entryDone d (4 + r) index stStale 0 n 0 0
  else
    let dropped := next - first
    let from0 := max first next
    let left := first + count - from0
    let bad := (List.range left).find? fun k => decide (psLines p ≤ from0 + k) || holdsLine h (psIndex p) (from0 + k)
    match bad with
    | some k => entryDone d (4 + r) index stRange 0 n (from0 + k) 0
    | none =>
      match rd with
      | .ok bs =>
        if bs.length < need then entryDone d (4 + r) index stFetch 0 n 0 0
        else
          let raw : Except (Nat × Nat) (List Byte) :=
            if enIngot e then expandIngots (ingotLength (enRatio e)) (count * 32) 0 [] bs else .ok (bs.take need)
          match raw with
          | .error f => entryDone (decodeFault (d.addCount pageIcd 0x070 f.2) 4 f.1 f.2) (4 + r) index stIngot f.1 n f.2 0
          | .ok all =>
            let d0 := if enIngot e then d.addCount pageIcd 0x070 (count * 32) else d
            let d1 := updHeat d0 h.number fun h => storeLines h (psIndex p) from0 (chunks 8192 left (all.drop (8192 * (from0 - first))))
            if dropped = 0 then entryDone d1 (4 + r) index stOk 0 n 0 0
            else entryDone d1 (4 + r) index stStalePart 0 n 0 dropped
      | _ => entryDone (fetchFault d (4 + r) e rd) (4 + r) index stFetch 0 n 0 0

/-! ### Meanings of the entries -/

/-- R89. -/
def execHeatOpen (t : Nat) (r : Fin 4) (e : Entry) (s : State) : Host.Outcome State Fault Refusal :=
  onDev s fun d => submissionCommand (d.arrive t) r.val e .failed (.heatOpen 0 r e)
/-- R92. -/
def execIslands (t : Nat) (r : Fin 4) (e : Entry) (rd : HostRead) (s : State) : Host.Outcome State Fault Refusal :=
  onDev s fun d => submissionCommand (d.arrive t) r.val e rd (.islands 0 r e rd)
/-- R92. -/
def execPours (t : Nat) (r : Fin 4) (e : Entry) (rd : HostRead) (s : State) : Host.Outcome State Fault Refusal :=
  onDev s fun d => submissionCommand (d.arrive t) r.val e rd (.pours 0 r e rd)
/-- R82. -/
def execRecoat (t : Nat) (r : Fin 4) (e : Entry) (rd : HostRead) (s : State) : Host.Outcome State Fault Refusal :=
  onDev s fun d => submissionCommand (d.arrive t) r.val e rd (.recoat 0 r e rd)
/-- R84. -/
def execPass (t : Nat) (r : Fin 4) (e : Entry) (s : State) : Host.Outcome State Fault Refusal :=
  onDev s fun d => submissionCommand (d.arrive t) r.val e .failed (.pass 0 r e)
/-- R93. -/
def execHeatClose (t : Nat) (r : Fin 4) (e : Entry) (s : State) : Host.Outcome State Fault Refusal :=
  onDev s fun d => submissionCommand (d.arrive t) r.val e .failed (.heatClose 0 r e)
/-- R95. -/
def execHeatCancel (t : Nat) (r : Fin 4) (e : Entry) (s : State) : Host.Outcome State Fault Refusal :=
  onDev s fun d => submissionCommand (d.arrive t) r.val e .failed (.heatCancel 0 r e)
/-- R93. -/
def execStandbyHeatConfirm (t : Nat) (r : Fin 4) (s : State) : Host.Outcome State Fault Refusal :=
  onDev s fun d => standbyConfirm (d.arrive t) r.val
/-- R90. -/
def execHeatRingResume (t : Nat) (r : Fin 4) (s : State) : Host.Outcome State Fault Refusal :=
  onDev s fun d => ringResume (d.arrive t) r.val

end Sys2Proof.Machine
end

