-- ==== Sys2Proof/Machine/Ladle.lean ====
section
/-! DEFINITION. The ladle and the thermal map (R161 to R193). -/
namespace Sys2Proof.Machine

/-! ### Ladle settings and reservations (R163 to R168) -/

def ladleCapacity (d : Dev) : Nat := d.fld pageLdl 0x044 0 16 * 1000000
def ladleLow (d : Dev) : Nat := d.fld pageLdl 0x048 0 16 * 1000000
def ladleHigh (d : Dev) : Nat := d.fld pageLdl 0x048 16 16 * 1000000
def stationEff (d : Dev) (s : Nat) : Nat := max 1 (d.fld pageLdl (0x100 + 4 * s) 0 10)
def stationIdle (d : Dev) (s : Nat) : Nat := d.fld pageLdl (0x100 + 4 * s) 16 16

def holdPower (d : Dev) (k w : Nat) : Dev := { d with ladle := { d.ladle with held := d.ladle.held.set (same 0) k w } }
def releasePower (d : Dev) (k : Nat) : Dev := holdPower d k 0

/-- The reservation of an island of this peak power on station `s`, in W (R164). -/
def ladleReservation (d : Dev) (peak s : Nat) : Nat := ceilDiv (peak * 1000) (32 * stationEff d s) + stationIdle d s
/-- R166. -/
def ladleCanReserve (d : Dev) (need : Nat) : Bool :=
  !d.enabled pageLdl || (!d.ladle.short && decide (ladleHeld d + need ≤ ladleBudget d))

/-- CTL.ENABLE rises (R162). -/
def ladleEnable (d : Dev) : Dev := { d with ladle := { d.ladle with level := ladleCapacity d, short := false } }
/-- Group 0 applied: the level is cut to the capacity (R192). -/
def ladleCut (d : Dev) : Dev := { d with ladle := { d.ladle with level := min d.ladle.level (ladleCapacity d) } }

/-- The level update of R173 with the cycle's draw in µJ. -/
def ladleUpdate (d : Dev) (draw : Nat) : Dev :=
  let level : Int := d.ladle.level + ladleBudget d * 5 - draw
  let deficit := (-level).toNat / 1000
  let l := min level.toNat (ladleCapacity d)
  let d1 := { d with ladle := { d.ladle with level := l, lastDraw := draw } }
  let d2 := if level < 0 then
      raise (d1.addCount pageLdl 0x074 deficit) pageLdl 1 clsProcess sevWarning 0x0411 (deficit % 2 ^ 32)
    else d1
  if d2.ladle.short = false ∧ l < ladleLow d then
    raise { d2 with ladle := { d2.ladle with short := true } } pageLdl 0 clsProcess sevWarning 0x0410
      (pay 0 0 0 (ladleHeld d) + l / 1000 % 2 ^ 32)
  else if d2.ladle.short = true ∧ ladleHigh d ≤ l then { d2 with ladle := { d2.ladle with short := false } }
  else d2

/-! ### Draw (R172) -/

/-- Ticks of a cycle for which a frame holds the gate open (R219). -/
def Frame.openTicks (f : Frame) : Nat :=
  if f.gate0 then min f.off 1250 else if f.on < 1250 then min f.off 1250 - f.on else 0
/-- A frame that opens the gate at any offset (R147). -/
def Frame.emits (f : Frame) : Bool := f.gate0 || decide (f.on < 1250)

/-- The draw of a station. The station of a COMMITTED or ACTIVE island holds a reservation, be it one of 0 W. -/
def stationDraw (d : Dev) (s : Nat) : Nat :=
  let f := (stationOf d s).applied
  if d.ladle.held.get (same 0) s = 0 ∧ (stationOf d s).island.isNone = true then 0
  else f.power * f.openTicks / (8 * stationEff d s) + stationIdle d s * 5
/-- The draw of a strobe from the sum of the widths that its dots fire. -/
def strobeDraw (d : Dev) (widths : Nat) : Nat := widths * 4 * d.fld pageLdl 0x04C 0 16 / 1000000
def stationsDraw (d : Dev) : Nat := (List.range 32).foldl (fun a s => a + stationDraw d s) 0

/-! ### Thermal map (R177 to R186) -/

/-- The largest decayed energy of a box of cells (R181). -/
def thermalMax (d : Dev) (c0 r0 c1 r1 : Nat) : Nat :=
  (List.range (r1 + 1 - r0)).foldl (fun m r =>
    (List.range (c1 + 1 - c0)).foldl (fun m c => max m (cellEnergy d ((r0 + r) * 512 + c0 + c))) m) 0
def readyThreshold (d : Dev) (cls : Nat) : Nat := d.fld pageTmp (0x044 + 4 * (cls / 2)) (16 * (cls % 2)) 16
/-- Condition 3 of R121 (R126, R189). -/
def bedCooled (d : Dev) (i : BitVec 512) : Bool :=
  !d.enabled pageTmp || decide (thermalMax d (islC0 i) (islR0 i) (islC1 i) (islR1 i) < readyThreshold d (islCool i))

/-- Whole mJ that go into each cell in a cycle: cell and amount, kept by rising cell. -/
def addDeposit (l : Tab Nat) (cell mj : Nat) : Tab Nat := if mj = 0 then l else l.upd (same 0) cell (· + mj)

/-- The station's accumulator takes the cycle's energy in 1/8 nJ; whole mJ go to the spot cell (R184). -/
def stationDeposit (x : Tab Nat × Tab Nat) (s cell amount : Nat) : Tab Nat × Tab Nat :=
  let total := x.1.get (same 0) s + amount
  (x.1.set (same 0) s (total % 8000000), addDeposit x.2 cell (total / 8000000))

/-- A cell column takes the optical energy of its dot columns, in pJ (R185). -/
def columnDeposit (x : Tab Nat × Tab Nat) (row c pj : Nat) : Tab Nat × Tab Nat :=
  let total := x.1.get (same 0) c + pj
  (x.1.set (same 0) c (total % 1000000000), addDeposit x.2 (row * 512 + c) (total / 1000000000))

def saturate (d : Dev) (cell : Nat) : Dev :=
  let once := !d.map.told
  raiseLimited { d.count pageTmp 0x070 with map := { d.map with told := true } } once pageTmp 0 clsProcess sevNotice 0x0420
    (payW (cell % 512) (cell / 512) 0)

/-- The updates of one cycle: every cell with a deposit, and the swept one, in a single step each (R180, R186). Of several
cells that saturate first in the same cycle, CELL_SATURATED names the one of the lowest index (DESIGN CHOICE, log entry 78). -/
def mapUpdates (d : Dev) (deposits : Tab Nat) : Dev :=
  let all := deposits.filter (fun x => x.1 < mapSweep d) ++ [(mapSweep d, deposits.get (same 0) (mapSweep d))] ++
    deposits.filter (fun x => mapSweep d < x.1)
  all.foldl (fun d x =>
    let sum := cellEnergy d x.1 + x.2
    let d1 := if 65535 < sum then saturate d x.1 else d
    { d1 with map := { d1.map with updates := d1.map.updates ++ [(x.1, ⟨min sum 65535, mapNow d⟩)] } }) d

/-- Deposits and sweep of the cycle (R184 to R187). `spot s` is the station's spot cell; the strobe's optical pJ by row
and cell column. -/
def mapCycle (d : Dev) (spot : Nat → Nat) (columns : List (Nat × Nat × Nat)) : Dev :=
  if d.enabled pageTmp then
    let st := (List.range 32).foldl (fun x s =>
      let f := (stationOf d s).applied
      if f.openTicks = 0 then x else stationDeposit x s (spot s) (f.power * f.openTicks)) (d.map.stations, [])
    let co := columns.foldl (fun x c => columnDeposit x c.1 c.2.1 c.2.2) (d.map.columns, st.2)
    mapUpdates { d with map := { d.map with
      stations := st.1, columns := co.1, deposited := co.2.foldl (fun a x => a + x.2) 0 } } co.2
  else { d with map := { d.map with deposited := 0 } }

/-- The updates of the cycle that ends stand in the map (R26). -/
def mapCommit (d : Dev) : Dev :=
  { d with map := { d.map with
      cells := d.map.updates.foldl (fun t x => t.set (same {}) x.1 x.2) d.map.cells, updates := [] } }

/-- CTL.ENABLE rises (R189): every stamp is now; a clear that was asked for empties the map and its accumulators. -/
def mapEnable (d : Dev) : Dev :=
  let now := mapNow d
  let clear := d.flag pageTmp 0x058 0
  let energy (i : Nat) : Nat := if clear then 0 else (mapCell d i).energy
  let cells : Tab MapCell :=
    ((List.range 262144).map fun i => (i, (⟨energy i, now⟩ : MapCell))).filter fun x => x.2 != ({} : MapCell)
  let d1 := { d with map := { d.map with cells := cells } }
  if clear then
    let d2 := { d1.setReg pageTmp 0x058 0 with map := { d1.map with stations := [], columns := [] } }
    raise d2 pageTmp 1 clsProcess sevInfo 0x0421 0
  else d1

/-! ### The pass reservation (R169 to R171) -/

/-- The pass whose turn it is. -/
def Run.header (x : Run) : Option Entry := x.heat.passes.find? fun e => psIndex e == x.pass

/-- A pass reservation becomes pending: LDL_PASS and LDL_PASS_NEED show it. -/
def passBecomesPending (d : Dev) (e : Entry) : Dev :=
  (d.setReg pageLdl 0x078 (psIndex e)).setReg pageLdl 0x07C (psNeed e)

/-- The test of R170 in a cycle in which the pass is pending; its outcome applies at the start of the next. -/
def passTest (d : Dev) : Dev :=
  match d.heats.running with
  | some x =>
    match x.header with
    | some e =>
      if x.passPending && x.strokeAt.isNone then
        let budget := ladleBudget d
        let go (d : Dev) (y : Run) : Dev := { d with heats := { d.heats with running := some y } }
        if !d.enabled pageLdl then go d { x with strokeAt := some (d.cycle + 1) }
        else if budget < psNeed e then
          raise (go d { x with strokeAt := some (d.cycle + 1), passRefused := true }) pageLdl 2 clsProcess sevFault 0x0412
            (pay (psIndex e) 0 0 (psNeed e))
        else if !d.ladle.short && decide (ladleHeld d + psNeed e ≤ budget) then
          go d { x with strokeAt := some (d.cycle + 1) }
        else d
      else d
    | none => d
  | none => d

/-- The pass test of a cycle is made between 1.2 µs and 3.0 µs of it (R187). -/
def passTestNow (d : Dev) : Dev :=
  if d.computes && decide (d.tick % 1250 ≤ 750) then passTest (d.arrive 300) else d

/-- R170. -/
def execPassTest (s : State) : Host.Outcome State Fault Refusal := onDev s passTestNow

end Sys2Proof.Machine
end

