-- ==== Sys2Proof/Machine/Mould.lean ====
section
/-! DEFINITION. The mould: limits, energy cells, interlock, lowering, raising, the seal and its store
(R452 to R471). -/
namespace Sys2Proof.Machine

/-! ### Limits in use -/

def mouldPower (d : Dev) (s : Nat) : Nat := d.fld pageMld (0x200 + 32 * s) 0 16
def mouldXMin (d : Dev) (s : Nat) : Int := d.sfld pageMld (0x204 + 32 * s) 0 32
def mouldXMax (d : Dev) (s : Nat) : Int := d.sfld pageMld (0x208 + 32 * s) 0 32
def mouldYMin (d : Dev) (s : Nat) : Int := d.sfld pageMld (0x20C + 32 * s) 0 32
def mouldYMax (d : Dev) (s : Nat) : Int := d.sfld pageMld (0x210 + 32 * s) 0 32
def mouldSpeed (d : Dev) (s : Nat) : Nat := d.fld pageMld (0x214 + 32 * s) 0 16
def mouldWidth (d : Dev) : Nat := d.fld pageMld 0x08C 0 18
def cellLimit (d : Dev) : Nat := d.fld pageMld 0x088 0 16
def cellWindow (d : Dev) : Nat := max 1 (d.fld pageMld 0x088 16 16)

/-- Whether a point lies in the station's field rectangle, bounds inclusive (R454). -/
def insideField (d : Dev) (s : Nat) (x y : Int) : Bool :=
  decide (mouldXMin d s ≤ x ∧ x ≤ mouldXMax d s ∧ mouldYMin d s ≤ y ∧ y ≤ mouldYMax d s)
/-- Whether a box of cells lies in the rectangle (R454). -/
def boxInField (d : Dev) (s c0 r0 c1 r1 : Nat) : Bool :=
  decide (mouldXMin d s ≤ c0 * 2000000 ∧ ((c1 + 1 : Nat) : Int) * 2000000 ≤ mouldXMax d s ∧
    mouldYMin d s ≤ r0 * 2000000 ∧ ((r1 + 1 : Nat) : Int) * 2000000 ≤ mouldYMax d s)

/-! ### Cells (R457) -/

/-- The counts of a cell as they stand in window `k`. -/
def MouldCell.roll (c : MouldCell) (k : Nat) : MouldCell :=
  if c.window = k then c else if c.window + 1 = k then ⟨k, 0, c.cur⟩ else ⟨k, 0, 0⟩
def mouldCell (d : Dev) (i : Nat) : MouldCell := (d.mould.cells.get (same {}) i).roll (d.cycle / cellWindow d)
/-- A cell's windowed energy. -/
def windowedEnergy (d : Dev) (i : Nat) : Nat := min 65535 ((mouldCell d i).cur + (mouldCell d i).prev)
/-- The station's accumulator takes `amount` eighths of a nJ and deposits whole mJ into its spot cell. -/
def mouldDeposit (d : Dev) (s : Nat) (cell : Option Nat) (amount : Nat) : Dev :=
  let total := d.mould.acc.get (same 0) s + amount
  match cell with
  | some i =>
    let mj := total / 8000000
    let c := mouldCell d i
    let d1 := { d with mould := { d.mould with acc := d.mould.acc.set (same 0) s (total % 8000000) } }
    if mj = 0 then d1
    else { d1 with mould := { d1.mould with cells := d1.mould.cells.set (same {}) i { c with cur := c.cur + mj } } }
  | none => { d with mould := { d.mould with acc := d.mould.acc.set (same 0) s total } }
/-- A new WINDOW applies in this cycle: every cell keeps its counts of the cycle before under the new numbering. -/
def rewindow (d : Dev) (old : Nat) : Dev :=
  let k := (d.cycle - 1) / max 1 old
  let k1 := d.cycle / cellWindow d
  let cells := d.mould.cells.map fun x => let c := x.2.roll k; (x.1, { c with window := k1 })
  { d with mould := { d.mould with cells := cells.filter fun x => x.2 != ({} : MouldCell) } }

/-! ### Denials and clamps (R459) -/

def told (m : BitVec 32) (s : Nat) : Bool := m.getLsbD s
def denyField (d : Dev) (s : Nat) (x : Int) : Dev :=
  let once := !(told d.mould.fieldTold s)
  let d1 := { d with mould := { d.mould with fieldTold := d.mould.fieldTold ||| BitVec.ofNat 32 (2 ^ s) } }
  raiseLimited d1 once pageMld 1 clsProcess sevWarning 0x0D03 (pay s 0 0 (unsigned 32 x))
def denySpeed (d : Dev) (s speed : Nat) : Dev :=
  let once := !(told d.mould.speedTold s)
  let d1 := { d with mould := { d.mould with speedTold := d.mould.speedTold ||| BitVec.ofNat 32 (2 ^ s) } }
  raiseLimited d1 once pageMld 2 clsMotion sevWarning 0x0D04 (pay s 0 0 speed)
def denyCell (d : Dev) (s col row : Nat) : Dev :=
  let once := !(told d.mould.cellTold s)
  let d1 := { d with mould := { d.mould with cellTold := d.mould.cellTold ||| BitVec.ofNat 32 (2 ^ s) } }
  raiseLimited d1 once pageMld 3 clsProcess sevWarning 0x0D05 (pay s 0 col row)
def clampPower (d : Dev) (s cmd : Nat) : Dev :=
  let once := !(told d.mould.powerTold s)
  let d1 := { d.count pageMld 0x090 with mould := { d.mould with powerTold := d.mould.powerTold ||| BitVec.ofNat 32 (2 ^ s) } }
  raiseLimited d1 once pageMld 4 clsProcess sevNotice 0x0D06 (pay s 0 cmd 0)
def clampWidth (d : Dev) (g : Nat) : Dev :=
  let once := !(d.mould.widthTold.getLsbD g)
  let d1 := { d.count pageMld 0x094 with mould := { d.mould with widthTold := d.mould.widthTold ||| BitVec.ofNat 256 (2 ^ g) } }
  raiseLimited d1 once pageMld 5 clsProcess sevNotice 0x0D07 (payW g 0 0)

/-- One event per kind, station and segment in a heat: the marks return at its start. -/
def clearMouldTold (d : Dev) : Dev :=
  { d with mould := { d.mould with fieldTold := 0, speedTold := 0, cellTold := 0, powerTold := 0, widthTold := 0 } }

/-- The mould's condition on emission of station `s` in the next cycle, from its measured spot and velocity (nm, mm/s
as 2⁻¹⁶ fixed point is converted by the caller): denials under R454, R455 and R457 with their accounting. `p250`
is the displacement in 2,500 ticks. -/
def mouldDenies (d : Dev) (s : Nat) (x y px py : Int) (speedSq limitSq : Nat) (speed : Nat) (cell : Option Nat) : Bool × Dev :=
  let f := !(insideField d s x y && insideField d s px py)
  let v := decide (limitSq < speedSq)
  let c := match cell with | some i => decide (cellLimit d ≤ windowedEnergy d i) | none => false
  let d1 := if f then denyField d s x else d
  let d2 := if v then denySpeed d1 s speed else d1
  let d3 := match cell with | some i => if c then denyCell d2 s (i % 512) (i / 512) else d2 | none => d2
  let denied := f || v || c
  (denied, if denied then d3.count pageMld 0x098 else d3)

/-! ### Interlock (R460 to R463) -/

def ilkMask (d : Dev) : Nat := d.fld pageMld 0x040 0 4
def ilkFilter (d : Dev) : Nat := d.fld pageMld 0x040 8 8
def inputOpen (d : Dev) (i : Nat) : Bool := (d.mould.openSince.get (same none) i).isSome
def openInputs (d : Dev) : Nat := ((List.range 4).filter fun i => bit (ilkMask d) i && inputOpen d i).foldl (fun m i => m + 2 ^ i) 0
/-- An input in use has read 0 for FILTER consecutive ticks. -/
def interlockDue (d : Dev) : Bool :=
  (List.range 4).any fun i => bit (ilkMask d) i &&
    (match d.mould.openSince.get (same none) i with | some t0 => decide (t0 + ilkFilter d ≤ d.tick) | none => false)

/-- The interlock opens: latch, event, and a kill block on every partner lane (R461); HALTED sends nothing (R473). -/
def openInterlock (d : Dev) : Dev :=
  if d.mould.latched || !interlockDue d then d
  else
    let d1 := { d with mould := { d.mould with latched := true, latchedAt := d.cycle + 1 } }
    let d2 := raise d1 pageMld 0 clsSafety sevCritical 0x0D01 (pay (openInputs d1) 0 0 0)
    if d2.par.role = roleHalted then d2 else blockAll d2 0xC3 (d.cycle % 65536)

/-- Input `i` is sampled open or closed. -/
def sampleInput (d : Dev) (i : Nat) (isOpen : Bool) : Dev :=
  let old := d.mould.openSince.get (same none) i
  let new := if isOpen then (match old with | some t0 => some t0 | none => some d.tick) else none
  { d with mould := { d.mould with openSince := d.mould.openSince.set (same none) i new } }

/-- A REARM takes effect (R462). -/
def rearm (d : Dev) : Dev :=
  if d.mould.latched && openInputs d == 0 then
    report { d with mould := { d.mould with latched := false } } pageMld clsSafety sevNotice 0x0D02 0
  else d

/-! ### Lowering and raising (R452, R464 to R466) -/

/-- The fields of a limit register: low bit, width, signed, and whether a larger value is the higher one. -/
def limitFields (off : Nat) : List (Nat × Nat × Bool × Bool) :=
  if off = 0x040 then [(0, 1, false, false), (1, 1, false, false), (2, 1, false, false), (3, 1, false, false), (8, 8, false, true)]
  else if off = 0x088 then [(0, 16, false, true), (16, 16, false, false)]
  else if off = 0x08C then [(0, 18, false, true)]
  else if 0x200 ≤ off ∧ off < 0x600 then
    let k := off % 32
    if k = 0x00 then [(0, 16, false, true)] else if k = 0x04 then [(0, 32, true, false)]
    else if k = 0x08 then [(0, 32, true, true)] else if k = 0x0C then [(0, 32, true, false)]
    else if k = 0x10 then [(0, 32, true, true)] else if k = 0x14 then [(0, 16, false, true)] else []
  else if 0x600 ≤ off ∧ off < 0x630 ∧ off % 4 = 0 then [(0, 20, false, true)]
  else []

def isLimit (off : Nat) : Bool := !(limitFields off).isEmpty

/-- The bits of a register that `new` raises and lowers against `old`. -/
def splitLimit (off old new : Nat) : Nat × Nat :=
  (limitFields off).foldl (fun (m : Nat × Nat) (f : Nat × Nat × Bool × Bool) =>
    let (lo, w, sgn, up) := f
    let a : Int := if sgn then signed w (bits old lo w) else bits old lo w
    let b : Int := if sgn then signed w (bits new lo w) else bits new lo w
    let mask := (2 ^ w - 1) <<< lo
    if a = b then m
    else if (decide (a < b)) == up then (m.1 ||| mask, m.2) else (m.1, m.2 ||| mask)) (0, 0)

def pendingRaise (d : Dev) (off : Nat) : Bool := d.mould.raises.any fun x => x.off == off

/-- A raise becomes pending in place of one of the same register; false where it would be the seventeenth. -/
def addRaise (d : Dev) (off value mask : Nat) : Option Dev :=
  let rest := d.mould.raises.filter fun x => x.off != off
  if rest.length < 16 then
    some { d with mould := { d.mould with raises := rest ++ [⟨off, word value, word mask, d.cycle, !d.heats.everStarted⟩] } }
  else none

/-- The active value of a limit register, which is what it reads, changes in the bits of `mask` (R465). -/
def setLimit (d : Dev) (off value mask : Nat) : Dev :=
  let window := cellWindow d
  let d1 := (d.mergeInUse pageMld off value mask).mergeRead pageMld off value mask
  let d2 := { d1 with mould := { d1.mould with storeDirty := true } }
  if off = 0x088 ∧ cellWindow d2 ≠ window then rewindow d2 window
  else if off = 0x040 then openInterlock d2 else d2

/-- A lowering write acts, and reads back, from the start of cycle n + 3 (R45, R464, R465). -/
def lowerLimit (d : Dev) (off value mask : Nat) : Dev :=
  { d with mould := { d.mould with lowers := d.mould.lowers ++ [⟨off, word value, word mask, d.cycle⟩] } }

/-- The value of a limit register as it will stand when the lowering writes accepted so far have taken effect: what a
write raises or lowers is told against it (DESIGN CHOICE, log entry 83). -/
def acceptedLimit (d : Dev) (off : Nat) : Nat :=
  (d.mould.lowers.filter fun x => x.off == off).foldl
    (fun v x => v - (v &&& x.mask.toNat) + (x.value.toNat &&& x.mask.toNat)) (d.fld pageMld off 0 32)

def cancelRaise (d : Dev) (off : Nat) : Dev :=
  if pendingRaise d off then
    raise { d with mould := { d.mould with raises := d.mould.raises.filter fun x => x.off != off } } pageMld 8 clsSafety
      sevNotice 0x0D0A (payW off 0 0)
  else d

/-- The reason for which a write of a limit register is refused, if any: a sealed raise, or a seventeenth pending one. -/
def limitRefused (d : Dev) (off v : Nat) : Option Nat :=
  let m := splitLimit off (acceptedLimit d off) v
  if m.1 = 0 then none
  else if d.mould.locked then some refusedSealed
  else if (addRaise d off v m.1).isNone then some refusedPending
  else none

/-- An accepted write of a limit register (R464, R466); REARM of MLD_ILK goes the way of a Live write. -/
def limitWrite (d : Dev) (off v : Nat) : Dev :=
  let m := splitLimit off (acceptedLimit d off) v
  let d1 := if m.1 = 0 then (if m.2 = 0 then d else cancelRaise d off) else (addRaise d off v m.1).getD d
  let d2 := if m.2 = 0 then d1 else lowerLimit d1 off v m.2
  if off = 0x040 ∧ bit v 16 = true then
    { d2 with regs := { d2.regs with live := d2.regs.live ++ [⟨wordAddr pageMld off, BitVec.ofNat 64 v, false, d.cycle⟩] } }
  else d2

/-- Lowering writes accepted in cycle `n` apply at the start of cycle n + 3. -/
def applyLowers (d : Dev) : Dev :=
  let due := d.mould.lowers.filter fun x => decide (x.cycle + 3 ≤ d.cycle)
  let d1 := { d with mould := { d.mould with lowers := d.mould.lowers.filter fun x => !decide (x.cycle + 3 ≤ d.cycle) } }
  due.foldl (fun d x => setLimit d x.off x.value.toNat x.mask.toNat) d1

/-- A pending raise applies (R465). -/
def applyRaise (d : Dev) (x : PendRaise) : Dev :=
  let d0 := { d with mould := { d.mould with raises := d.mould.raises.filter fun y => y.off != x.off } }
  let d1 := setLimit d0 x.off x.value.toNat x.mask.toNat
  raise d1 pageMld 7 clsSafety sevNotice 0x0D09 (payW x.off 0 (d1.fld pageMld x.off 0 32))

/-- The raises accepted before cycle `limit` apply. -/
def applyRaises (d : Dev) (limit : Nat) : Dev :=
  (d.mould.raises.filter fun x => decide (x.cycle < limit)).foldl applyRaise d
/-- Raises accepted in cycle `n`, before the first heat after reset started, apply at the start of cycle n + 3 (R465). -/
def applyEarlyRaises (d : Dev) : Dev :=
  (d.mould.raises.filter fun x => x.early && decide (x.cycle + 3 ≤ d.cycle)).foldl applyRaise d

/-! ### Key, seal and authorised commands (R467, R468, R470) -/

/-- The key as last accepted. -/
def acceptedKey (d : Dev) : Nat := (List.range 8).foldl (fun k i => k + d.rfld pageMld (0x100 + 4 * i) 0 32 <<< (32 * i)) 0
def setKeyWord (d : Dev) (i v : Nat) : Dev :=
  let k := d.mould.key.toNat
  { d with mould := { d.mould with
      key := BitVec.ofNat 256 (k - bits k (32 * i) 32 <<< (32 * i) + (v % 2 ^ 32) <<< (32 * i)), storeDirty := true } }
def setResponseWord (d : Dev) (i v : Nat) : Dev :=
  let k := d.mould.response.toNat
  { d with mould := { d.mould with
      response := BitVec.ofNat 256 (k - bits k (32 * i) 32 <<< (32 * i) + (v % 2 ^ 32) <<< (32 * i)) } }
def setSeal (d : Dev) : Dev :=
  if d.mould.key = 0 then d else { d with mould := { d.mould with locked := true, storeDirty := true } }

/-- A new challenge: generated by the device, and forwarded by a holder; a standby waits for the holder's (R470). -/
def newChallenge (d : Dev) : Dev :=
  if d.par.role = roleStandby then noteSample d { kind := 3, tick := d.tick, own := true }
  else
    let a := d.fresh
    let b := a.2.fresh
    let c := BitVec.ofNat 128 (a.1.toNat + b.1.toNat <<< 64)
    let d1 := { b.2 with mould := { b.2.mould with challenge := c } }
    if d.par.role = roleHolder then
      sendHalyard d1 3 (leBytes 28 (atByte 0 (d.tick % 2 ^ 64) + atByte 8 3 + atByte 12 c.toNat))
    else d1

/-- The HMAC of an authorised command (R468). -/
def authMac (d : Dev) (cmd off value : Nat) : Nat :=
  leNat (hmacSha256 (leBytes 32 d.mould.key.toNat)
    (leBytes 16 d.mould.challenge.toNat ++ leBytes 1 cmd ++ leBytes 2 off ++ leBytes 4 value))

def authResult (d : Dev) (cmd result : Nat) : Dev :=
  let d1 := { d with mould := { d.mould with result := result } }
  newChallenge (if result = 1 then d1 else raise d1 pageMld 9 clsSafety sevWarning 0x0D0B (pay cmd result 0 0))

/-- An authorised RAISE of the register at `off` to `value`. -/
def authRaise (d : Dev) (off value : Nat) : Dev :=
  if !d.mould.locked then authResult d 1 4
  else if authMac d 1 off value ≠ d.mould.response.toNat then authResult d 1 2
  else if !isLimit off then authResult d 1 3
  else
    let m := splitLimit off (acceptedLimit d off) value
    let legal := match PageKind.mld.reg? off with | some r => valuesOk r value | none => false
    if m.1 = 0 ∨ legal = false then authResult d 1 5
    else
      -- the register's value, with the fields that it lowers (R468)
      match addRaise d off value (m.1 ||| m.2) with
      | some d1 => authResult d1 1 1
      | none => authResult d 1 6

/-- An authorised UNSEAL. -/
def authUnseal (d : Dev) : Dev :=
  if !d.mould.locked then authResult d 2 4
  else if authMac d 2 0 0 ≠ d.mould.response.toNat then authResult d 2 2
  else
    let d1 := upto 8 (fun d i => d.setReg pageMld (0x100 + 4 * i) 0) d
    authResult { d1 with mould := { d1.mould with locked := false, key := 0, storeDirty := true } } 2 1

/-- A write to MLD_AUTH_CMD takes effect. -/
def authCommand (d : Dev) (v : Nat) : Dev :=
  if bits v 0 2 = 1 then authRaise d (bits v 16 12) (d.fld pageMld 0x048 0 32)
  else if bits v 0 2 = 2 then authUnseal d else d

/-- The reason for which a write of a mould register is refused, if any, in the order of R57: with the checks of every
page those of the key, of SEAL and of the limits (R464, R466, R467). -/
def mouldRefused (d : Dev) (off : Nat) (r : Reg) (v : Nat) : Option Nat :=
  if rangeRefused .mld 0 r v || (off == 0x080 && bit v 0 && acceptedKey d == 0) then some refusedRange
  else
    match blockRefused d .mld pageMld off r v with
    | some c => some c
    | none =>
      if 0x100 ≤ off ∧ off < 0x120 ∧ d.mould.locked = true then some refusedSealed
      else if isLimit off then limitRefused d off v
      else none

/-- A write of a mould register: refused, or taken by `f`. -/
def mouldWrite (d : Dev) (off v : Nat) (f : Dev → Reg → Dev) : Dev :=
  match PageKind.mld.reg? off with
  | none => refuse d pageMld off refusedRange
  | some r =>
    match mouldRefused d off r v with
    | some c => refuse d pageMld off c
    | none => f d r

/-- The seal store takes the active limits, the seal and the keys (R469, R601). -/
def sealStoreOf (d : Dev) : SealStore :=
  let offs := [0x040, 0x088, 0x08C] ++ ((List.range 32).flatMap fun s => (List.range 6).map fun k => 0x200 + 32 * s + 4 * k) ++
    (List.range 12).map fun x => 0x600 + 4 * x
  { limits := offs.foldl (fun t o => t.set (fun o => resetWord (wordAddr pageMld o)) o (d.regs.inUse (wordAddr pageMld o))) []
    sealed := d.mould.locked
    key := d.mould.key
    clearKey := d.recorder.key }

/-- The store is read at a reset: the limits on both copies, the seal and the key (R469). -/
def loadSealStore (d : Dev) (x : SealStore) : Dev :=
  let d0 := x.limits.foldl (fun d (e : Nat × Word) => d.setReg pageMld e.1 e.2.toNat) d
  let d1 := upto 8 (fun d i => d.setReg pageMld (0x100 + 4 * i) (bits x.key.toNat (32 * i) 32)) d0
  { d1 with
    mould := { d1.mould with locked := x.sealed, key := x.key }
    recorder := { d1.recorder with key := x.clearKey }
    boot := { d1.boot with sealLoaded := true } }

/-! ### Meanings -/

/-- R460. -/
def execIlkInputOpen (t : Nat) (i : Fin 4) (s : State) : Host.Outcome State Fault Refusal :=
  onDev s fun d => sampleInput (d.arrive t) i.val true
/-- R460. -/
def execIlkInputClosed (t : Nat) (i : Fin 4) (s : State) : Host.Outcome State Fault Refusal :=
  onDev s fun d => sampleInput (d.arrive t) i.val false
/-- R461. -/
def execInterlockLatch (t : Nat) (s : State) : Host.Outcome State Fault Refusal :=
  onDev s fun d => openInterlock (d.arrive t)
/-- R462. -/
def execMldIlkRearm (s : State) : Host.Outcome State Fault Refusal := onDev s rearm
/-- R469. -/
def execSealStoreWrite (s : State) : Host.Outcome State Fault Refusal :=
  onBoth s fun nv d =>
    if d.mould.storeDirty then
      ({ nv with sealStore := sealStoreOf d }, { d with mould := { d.mould with storeDirty := false } })
    else (nv, d)

end Sys2Proof.Machine
end

