-- ==== Sys2Proof/Machine/Geometry.lean ====
section
/-! DEFINITION. Pours as paths, the field-correction tables, and the planning of jumps and marks
(R70, R197 to R210). Lengths and positions are in 2⁻¹⁶ nm, directions in 2⁻⁹⁶ units. -/
namespace Sys2Proof.Machine

def nm16 (nm : Int) : Int := nm * 65536
/-- Ticks in 2⁻³² ticks. -/
def subTicks (t : Nat) : Nat := t * 1048576
def cycleSub : Nat := 5368709120000
/-- Start of cycle `c` in 2⁻³² ticks. -/
def cycleAt (c : Nat) : Nat := c * cycleSub

/-! ### Limits as velocities per tick (R234) -/

/-- mm/s, m/s² and 4,000 m/s³ in 2⁻¹²⁸ nm per tick, tick² and tick³. -/
def speedFine (mmps : Nat) : Int := (mmps : Int) * 4 * fineUnit / 1000
def accelFine (mps2 : Nat) : Int := (mps2 : Int) * 16 * fineUnit / 1000000000
def jerkFine (n : Nat) : Int := (n : Int) * 256 * fineUnit / 1000000000000000

/-- V_JUMP, lowered to the mould's mirror speed limit (R199 step 2). -/
def jumpV (d : Dev) (s : Nat) : Int := speedFine (min (d.fld (pageStn s) 0x100 0 16) (mouldSpeed d s))
def jumpA (d : Dev) (s : Nat) : Int := accelFine (d.fld (pageStn s) 0x104 0 16)
def jumpJ (d : Dev) (s : Nat) : Int := jerkFine (d.fld (pageStn s) 0x104 16 16)
def markA (d : Dev) (s : Nat) : Int := accelFine (d.fld (pageStn s) 0x108 0 16)
def markJ (d : Dev) (s : Nat) : Int := jerkFine (d.fld (pageStn s) 0x108 16 16)
/-- STN_MOTION.ENTRY: FLYING. -/
def flying (d : Dev) (s : Nat) : Bool := d.flag (pageStn s) 0x040 8

/-! ### Pour geometry (R70, R204) -/

def pourDx (p : BitVec 256) : Int := pourX1 p - pourX0 p
def pourDy (p : BitVec 256) : Int := pourY1 p - pourY0 p
/-- Chord length, at least 1. -/
def chord16 (p : BitVec 256) : Nat := max 1 (Nat.sqrt (chordSq p * 2 ^ 32))
/-- Radius of an arc: (c²/4 + b²) / 2|b|. -/
def arcRadius (p : BitVec 256) : Nat :=
  let b := (pourBulge p).natAbs
  (chordSq p + 4 * b * b) * 65536 / max 1 (8 * b)
/-- Half the angle of an arc: 2 atan (2|b| / c). -/
def arcHalf (p : BitVec 256) : Int :=
  2 * atan96 (2 * (pourBulge p).natAbs * 65536 * one96 / chord16 p)
/-- The bulge lies left of the chord. -/
def bulgeSign (p : BitVec 256) : Int := if 0 ≤ pourBulge p then 1 else -1
def pourLength (p : BitVec 256) : Int := if pourArc p then 2 * arcHalf p * arcRadius p / one96 else chord16 p

def chordAngle (p : BitVec 256) : Int := angle96 (pourDy p) (pourDx p)
/-- Heading at arc length `s`, that of the nearer end beyond both ends. -/
def headingAt (p : BitVec 256) (s : Int) : Int :=
  if pourArc p then chordAngle p + bulgeSign p * (arcHalf p - clampInt 0 (pourLength p) s * one96 / max 1 (arcRadius p))
  else chordAngle p
/-- Unit tangent at arc length `s`. -/
def tangentAt (p : BitVec 256) (s : Int) : Int × Int :=
  if pourArc p then (cos96 (headingAt p s), sin96 (headingAt p s))
  else (pourDx p * 65536 * one96 / chord16 p, pourDy p * 65536 * one96 / chord16 p)
def pointAt (p : BitVec 256) (s : Int) : Int × Int :=
  if pourArc p then
    let r := bulgeSign p * arcRadius p
    let h0 := headingAt p 0
    let h := headingAt p s
    (nm16 (pourX0 p) + mul96 r (sin96 h0 - sin96 h), nm16 (pourY0 p) + mul96 r (cos96 h - cos96 h0))
  else (nm16 (pourX0 p) + divRound (pourDx p * 65536 * s) (chord16 p), nm16 (pourY0 p) + divRound (pourDy p * 65536 * s) (chord16 p))

/-- Arc length and lateral distance of a point on the line through `o` with the unit tangent `t`. -/
def projectLine (o t : Int × Int) (x y : Int) : Int × Nat :=
  (mul96 (x - o.1) t.1 + mul96 (y - o.2) t.2, (mul96 (x - o.1) t.2 - mul96 (y - o.2) t.1).natAbs)

/-- The nearest point of the path, which goes on along its tangents beyond both ends: arc length and lateral distance
(R197, R214; DEDUCED, log entry 49). -/
def projectOn (p : BitVec 256) (x y : Int) : Int × Nat :=
  if pourArc p then
    -- centre of the circle, angle around it from the start point in the direction of travel
    let r := bulgeSign p * arcRadius p
    let h0 := headingAt p 0
    let cx := nm16 (pourX0 p) + mul96 r (sin96 h0)
    let cy := nm16 (pourY0 p) - mul96 r (cos96 h0)
    let rx := x - cx
    let ry := y - cy
    let rho : Int := Nat.sqrt ((rx * rx + ry * ry).toNat)
    -- the radius vector at heading h is (-r sin h, r cos h)
    let a := angle96 (-(bulgeSign p) * rx) (bulgeSign p * ry)
    let turn := (bulgeSign p * (h0 - a)) % (2 * pi96)
    let turn1 := if pi96 + arcHalf p < turn then turn - 2 * pi96 else turn
    let len := pourLength p
    if turn1 < 0 then projectLine (pointAt p 0) (tangentAt p 0) x y
    else if 2 * arcHalf p < turn1 then
      let q := projectLine (pointAt p len) (tangentAt p len) x y
      (len + q.1, q.2)
    else (mul96 turn1 (arcRadius p), (rho - arcRadius p).natAbs)
  else
    let dx := x - nm16 (pourX0 p)
    let dy := y - nm16 (pourY0 p)
    let c : Int := chord16 p
    (divRound (dx * (pourDx p * 65536) + dy * (pourDy p * 65536)) c,
      (divRound (dx * (pourDy p * 65536) - dy * (pourDx p * 65536)) c).natAbs)

/-- The speed that an arc allows, √(A_MARK × ρ), and the capped speed of a pour (R204, R453). -/
def arcCap (d : Dev) (s : Nat) (p : BitVec 256) : Int :=
  let b := (pourBulge p).natAbs
  Nat.sqrt (d.fld (pageStn s) 0x108 0 16 * 2 ^ 257 * (chordSq p + 4 * b * b) / max 1 (b * 1000000000))
/-- The same in whole mm/s. -/
def arcCapMm (d : Dev) (s : Nat) (p : BitVec 256) : Nat :=
  let b := (pourBulge p).natAbs
  Nat.sqrt (d.fld (pageStn s) 0x108 0 16 * (chordSq p + 4 * b * b) / max 1 (8000 * b))
def pourCap (d : Dev) (s : Nat) (p : BitVec 256) : Int :=
  let v := speedFine (min (pourSpeed p) (mouldSpeed d s))
  if pourArc p then min v (arcCap d s p) else v
def arcCapped (d : Dev) (s : Nat) (p : BitVec 256) : Bool := pourArc p && decide (arcCap d s p < speedFine (pourSpeed p))

/-- Direction change between the end tangent of `p` and the start tangent of `q`, in 2⁻⁹⁶ rad (R203). -/
def turnAngle (p q : BitVec 256) : Int :=
  let a := tangentAt p (pourLength p)
  let b := tangentAt q 0
  let x := angle96 (mul96 a.1 b.2 - mul96 a.2 b.1) (mul96 a.1 b.1 + mul96 a.2 b.2)
  if pi96 < x then 2 * pi96 - x else x
/-- R203. -/
def junctionSpeed (d : Dev) (s : Nat) (p q : BitVec 256) : Int :=
  if turnAngle p q * 1000000 ≤ d.fld (pageStn s) 0x10C 0 16 * one96 then min (pourCap d s p) (pourCap d s q) else 0

/-! ### Cells of pours (R128, R152) -/

structure CellBox where
  c0 : Nat
  r0 : Nat
  c1 : Nat
  r1 : Nat
  deriving DecidableEq, Repr

def boxOf (pts : List (Int × Int)) : CellBox :=
  match pts with
  | [] => ⟨0, 0, 0, 0⟩
  | p :: t => t.foldl (fun b q => ⟨min b.c0 (cellClip q.1), min b.r0 (cellClip q.2), max b.c1 (cellClip q.1), max b.r1 (cellClip q.2)⟩)
      ⟨cellClip p.1, cellClip p.2, cellClip p.1, cellClip p.2⟩
/-- Cells of a pour, or of its remainder from arc length `s` (R128). -/
def pourCells (p : BitVec 256) (from0 : Option Int) : CellBox :=
  let first := match from0 with
    | none => (pourX0 p, pourY0 p)
    | some s => ((pointAt p s).1 / 65536, (pointAt p s).2 / 65536)
  let mid := if pourArc p && (match from0 with | none => true | some s => decide (2 * s ≤ pourLength p)) then [arcMid p] else []
  boxOf (first :: (pourX1 p, pourY1 p) :: mid)
def islandBox (i : BitVec 512) : CellBox := ⟨islC0 i, islR0 i, islC1 i, islR1 i⟩
def CellBox.overlaps (a b : CellBox) : Bool :=
  decide (a.c0 ≤ b.c1 ∧ b.c0 ≤ a.c1 ∧ a.r0 ≤ b.r1 ∧ b.r0 ≤ a.r1)
/-- The corridor of a cell rectangle (R129). -/
def corridor (d : Dev) (b : CellBox) : CellBox :=
  let l := d.fld pageSch 0x048 8 9
  let w := d.fld pageSch 0x048 17 6
  let up (n k : Nat) : Nat := min 511 (n + k)
  match d.fld pageSch 0x048 0 2 with
  | 0 => ⟨b.c0, b.r0 - w, up b.c1 l, up b.r1 w⟩
  | 1 => ⟨b.c0 - l, b.r0 - w, b.c1, up b.r1 w⟩
  | 2 => ⟨b.c0 - w, b.r0, up b.c1 w, up b.r1 l⟩
  | _ => ⟨b.c0 - w, b.r0 - l, up b.c1 w, b.r1⟩
/-- The carriage exclusion band: its lowest and highest row (R132). -/
def carriageBand (d : Dev) : Nat × Nat :=
  let row := cellClip (stepsToBed d 0 d.stp.carriage0)
  let rear := d.fld pageSch 0x04C 0 8
  let front := d.fld pageSch 0x04C 8 8
  let lead := d.fld pageSch 0x04C 16 8
  let towardMinus := decide (d.stp.carriageDir < 0)
  let towardPlus := decide (0 < d.stp.carriageDir)
  (row - rear - (if towardMinus then lead else 0), min 511 (row + front + (if towardPlus then lead else 0)))

/-! ### Field-correction tables (R208 to R210) -/

def fctWordAt (d : Dev) (s : Nat) (bank : Bool) (w : Nat) : Word := d.fct.get (same 0) (16384 * (2 * s + boolNat bank) + w)
def fctHeader (d : Dev) (s : Nat) (bank : Bool) (w : Nat) : Nat := (fctWordAt d s bank w).toNat
def fctOriginX (d : Dev) (s : Nat) (bank : Bool) : Int := signed 32 (fctHeader d s bank 0)
def fctOriginY (d : Dev) (s : Nat) (bank : Bool) : Int := signed 32 (fctHeader d s bank 1)
def fctPitch (d : Dev) (s : Nat) (bank : Bool) : Nat := fctHeader d s bank 2
/-- The header checks of R210. -/
def fctHeaderOk (d : Dev) (s : Nat) (bank : Bool) : Bool :=
  fctHeader d s bank 3 == 1 && decide (100000 ≤ fctPitch d s bank ∧ fctPitch d s bank ≤ 16000000) &&
    (List.range 11).all fun k => fctHeader d s bank (5 + k) == 0
/-- Count `k` (0 X, 1 Y, 2 focus) of point (i, j). -/
def fctPoint (d : Dev) (s : Nat) (bank : Bool) (k i j : Nat) : Nat := fctHeader d s bank (16 + (65 * j + i) * 3 + k)

/-- Catmull–Rom weights of the four neighbours at fraction `u` in 1/65,536, times 2 · 2⁴⁸ (a = −0.5). -/
def cubicWeights (u : Int) : List Int :=
  let o : Int := 65536
  [-(u * u * u) + 2 * u * u * o - u * o * o, 3 * u * u * u - 5 * u * u * o + 2 * o * o * o,
    -(3 * u * u * u) + 4 * u * u * o + u * o * o, u * u * u - u * u * o]
/-- Their derivatives with respect to `u` as a fraction of 1, times 2 · 2³². -/
def cubicSlopes (u : Int) : List Int :=
  let o : Int := 65536
  [-(3 * u * u) + 4 * u * o - o * o, 9 * u * u - 10 * u * o, -(9 * u * u) + 8 * u * o + o * o, 3 * u * u - 2 * u * o]

/-- Where a bed point (2⁻¹⁶ nm) lies in the grid: cell and fraction on one axis (R209 steps 1 and 2). -/
def gridPlace (x origin : Int) (pitch : Nat) : Nat × Int :=
  let off := x - nm16 origin
  let i := (clampInt 0 63 (off / (nm16 pitch))).toNat
  (i, (off - nm16 (pitch * i)) / pitch)

def weighted (d : Dev) (s : Nat) (bank : Bool) (k i j : Nat) (wu wv : List Int) : Int :=
  let base := fctPoint d s bank k i j
  let at4 (n m : Nat) : Nat := (clampInt 0 64 ((n : Int) + m - 1)).toNat
  (List.range 4).foldl (fun a n =>
    a + wv.getD n 0 * (List.range 4).foldl (fun b m =>
      b + wu.getD m 0 * signed 32 ((fctPoint d s bank k (at4 i m) (at4 j n) + 2 ^ 32 - base) % 2 ^ 32)) 0) 0

/-- Target counts of a bed point: X, Y and focus (R209). -/
def fctTarget (d : Dev) (s : Nat) (bank : Bool) (k : Nat) (x y : Int) : Nat :=
  let p := fctPitch d s bank
  if p = 0 then fctPoint d s bank k 0 0
  else
    let gx := gridPlace x (fctOriginX d s bank) p
    let gy := gridPlace y (fctOriginY d s bank) p
    let sum := weighted d s bank k gx.1 gy.1 (cubicWeights gx.2) (cubicWeights gy.2)
    unsigned 32 ((fctPoint d s bank k gx.1 gy.1 : Int) + divRound sum (4 * 2 ^ 96))

/-- The derivative of count `k` with respect to bed X and Y, in counts per nm times 4 · 2⁸⁰ · PITCH. -/
def fctSlope (d : Dev) (s : Nat) (bank : Bool) (k : Nat) (x y : Int) : Int × Int :=
  let p := fctPitch d s bank
  if p = 0 then (0, 0)
  else
    let gx := gridPlace x (fctOriginX d s bank) p
    let gy := gridPlace y (fctOriginY d s bank) p
    (weighted d s bank k gx.1 gy.1 (cubicSlopes gx.2) (cubicWeights gy.2),
      weighted d s bank k gx.1 gy.1 (cubicWeights gx.2) (cubicSlopes gy.2))

/-- J⁻¹ applied to a pair of counts: numerators and the common denominator, of nm per unit; none where J is singular. -/
def inverseSlope (d : Dev) (s : Nat) (bank : Bool) (x y cx cy : Int) : Option (Int × Int × Int) :=
  let a := fctSlope d s bank 0 x y
  let b := fctSlope d s bank 1 x y
  let det := a.1 * b.2 - a.2 * b.1
  let unit : Int := 4 * 2 ^ 80 * fctPitch d s bank
  if det = 0 then none
  else
    let sg : Int := if det < 0 then -1 else 1
    some (sg * unit * (b.2 * cx - a.2 * cy), sg * unit * (a.1 * cy - b.1 * cx), det.natAbs)

/-! ### Planning (R199, R201 to R205) -/

/-- Where a motion is at an instant: position in 2⁻¹⁶ nm, velocity and acceleration in 2⁻¹²⁸ nm per tick and tick², and
the acceleration along the pour. -/
structure Kin where
  x : Int
  y : Int
  vx : Int
  vy : Int
  ax : Int
  ay : Int
  along : Int
  deriving DecidableEq, Repr

def toFine (x : Int) : Int := x * 2 ^ 112
/-- To the nearest 2⁻¹⁶ nm. -/
def ofFine (x : Int) : Int := (x + 2 ^ 111) / 2 ^ 112

/-- A path at the instant `t`; after its end the point goes on from the end at the end velocity (R197). -/
def Path.kin (p : Path) (t : Nat) : Kin :=
  if p.finish ≤ t then
    let dt := t - p.finish
    ⟨p.ex + ofFine (p.evx * dt / 2 ^ 32), p.ey + ofFine (p.evy * dt / 2 ^ 32), p.evx, p.evy, 0, 0, 0⟩
  else if p.onPour then
    let r := p.px.run (t - p.start)
    let s := ofFine r.p
    let pt := pointAt p.pour s
    let tg := tangentAt p.pour s
    -- centripetal: v² / ρ towards the centre of the arc
    let n : Int := if pourArc p.pour then bulgeSign p.pour * (r.v * r.v / (max 1 (arcRadius p.pour) * 2 ^ 112)) else 0
    ⟨pt.1, pt.2, mul96 r.v tg.1, mul96 r.v tg.2, mul96 r.a tg.1 + mul96 n tg.2, mul96 r.a tg.2 - mul96 n tg.1, r.a⟩
  else
    let rx := p.px.run (t - p.start)
    let ry := p.py.run (t - p.start)
    ⟨ofFine rx.p, ofFine ry.p, rx.v, ry.v, rx.a, ry.a, 0⟩

/-- Focus counts per µm in Q16.16, without sign. -/
def focusGain (d : Dev) (s : Nat) : Nat := (d.sfld (pageStn s) 0x11C 0 32).natAbs
/-- Speed and acceleration of STN_FOCUS_LIM in 2⁻³² counts per tick and 2⁻⁴⁸ counts per tick². -/
def focusLimits (d : Dev) (s : Nat) : Nat × Nat :=
  let gain := focusGain d s
  -- 1 mm/s is 4 · 10⁻⁶ µm per tick, 1 m/s² is 1.6 · 10⁻¹¹ µm per tick²
  (max 1 (d.fld (pageStn s) 0x120 0 16 * gain * 2 ^ 32 * 4 / 65536 / 1000000),
    max 1 (d.fld (pageStn s) 0x120 16 16 * gain * 2 ^ 48 * 16 / 65536 / 1000000000000))
/-- The time that a focus move of `dist` counts takes on its trapezoid (R205), in 2⁻³² ticks. -/
def focusTime (lim : Nat × Nat) (dist : Nat) : Nat :=
  let v := lim.1
  let a := lim.2
  let n := dist * 2 ^ 32
  -- v in 2⁻³², a in 2⁻⁴⁸
  if dist = 0 then 0
  else if v * v * 65536 ≤ n * a then (n * 2 ^ 32 / v) + v * 2 ^ 48 / a
  else 2 * Nat.sqrt (n * 2 ^ 80 / a)
/-- Focus of a motion: count, velocity and acceleration in 2⁻⁴⁸ counts per tick and tick². -/
structure FocusKin where
  pos : Int
  vel : Int
  acc : Int
  deriving DecidableEq, Repr

/-- The focus `t` after the start of a move from `f0` to `f1` under the limits `lim`, rounded to the nearest count. -/
def focusAt (lim : Nat × Nat) (f0 f1 : Int) (t : Nat) : FocusKin :=
  let dist := (f1 - f0).natAbs
  let total := focusTime lim dist
  let v := lim.1
  let a := lim.2
  let ramp := min (total / 2) (v * 2 ^ 48 / a)
  -- distance in 2⁻³² counts after `u` of acceleration
  let acc (u : Nat) : Nat := a * u * u / 2 ^ 81
  let done : Nat :=
    if total ≤ t then dist * 2 ^ 32
    else if t < ramp then acc t
    else if total - t < ramp then dist * 2 ^ 32 - acc (total - t)
    else acc ramp + (t - ramp) * (a * ramp / 2 ^ 48) / 2 ^ 32
  let c : Nat := (2 * min done (dist * 2 ^ 32) + 2 ^ 32) / 2 ^ 33
  let sign : Int := if f0 ≤ f1 then 1 else -1
  let vel : Nat := if total ≤ t then 0 else a * min ramp (min t (total - t)) / 2 ^ 32
  let acc : Int := if total ≤ t then 0 else if t < ramp then a else if total - t < ramp then -a else 0
  ⟨f0 + sign * c, sign * vel, sign * acc⟩

/-- The focus offset of a pour (R205). -/
def focusOffset (d : Dev) (s : Nat) (p : BitVec 256) : Int :=
  divRound (pourFocus p * d.sfld (pageStn s) 0x11C 0 32) 65536

/-- A jump from a state to an end point with a velocity, from the instant `t` on (R199, R205). `v` is the speed limit in
2⁻¹²⁸ nm per tick; `minimum` is a least duration in 2⁻³² ticks. -/
def planJump (d : Dev) (s : Nat) (k : Kin) (t : Nat) (ex ey evx evy : Int) (index : Nat) (pour : BitVec 256)
    (f0 f1 : Int) (v : Int) (minimum : Nat) : Path :=
  let a := jumpA d s
  let j := jumpJ d s
  let dx := toFine (ex - k.x)
  let dy := toFine (ey - k.y)
  let tmin := max minimum (max (segTime (minTimeSegs k.vx evx dx v a j)) (segTime (minTimeSegs k.vy evy dy v a j)))
  let whole := ceilDiv (max tmin (focusTime (focusLimits d s) (f1 - f0).natAbs)) cycleSub * cycleSub
  { onPour := false, pour := pour, index := index, start := t, finish := t + whole
    px := ⟨toFine k.x, k.vx, 0, axisSegs k.vx evx dx v a j whole⟩
    py := ⟨toFine k.y, k.vy, 0, axisSegs k.vy evy dy v a j whole⟩
    ex := ex, ey := ey, evx := evx, evy := evy, dark := true, f0 := f0, f1 := f1, flim := focusLimits d s, fstop := none }

/-- A run along a pour from arc length `s0` at speed `v0` from the instant `t`, with the speed `v1` at its end; `f` is the
focus offset of the pour. -/
def planMark (d : Dev) (s : Nat) (p : BitVec 256) (index : Nat) (t : Nat) (s0 v0 v1 : Int) (dark : Bool) (f : Int) : Path :=
  let len := pourLength p
  let dist := toFine (len - s0)
  let cap := pourCap d s p
  let short := decide (dist < rampDist v0 v1 (markA d s) (markJ d s))
  -- a run too short to change its speed within the limits changes it evenly over its length (log entry 20)
  let prof : Profile :=
    if short then
      let dur : Nat := (dist * 2 ^ 33 / max 1 (v0 + v1)).toNat
      ⟨toFine s0, v0, (v1 - v0) * 2 ^ 32 / ((max 1 dur : Nat) : Int), [(dur, 0)]⟩
    else ⟨toFine s0, v0, 0, markSegs v0 v1 dist cap (markA d s) (markJ d s)⟩
  let e := pointAt p len
  let tg := tangentAt p len
  { onPour := true, pour := p, index := index, start := t, finish := t + prof.duration
    px := prof, py := ⟨0, 0, 0, []⟩
    ex := e.1, ey := e.2, evx := mul96 v1 tg.1, evy := mul96 v1 tg.2, dark := dark, f0 := f, f1 := f
    flim := focusLimits d s, fstop := none }

end Sys2Proof.Machine
end

