-- ==== Sys2Proof/Machine/Feedback.lean ====
section
/-! DEFINITION. Position and speed feedback and the emulation outputs (R280 to R306). -/
namespace Sys2Proof.Machine

def remoteChannel (c : Nat) : Bool := decide (c < 96)
def wrap32 (x : Int) : Nat := unsigned 32 x
/-- The signed difference of two counts. -/
def countDiff (a b : Nat) : Int := signed 32 (wrap32 ((a : Int) - b))

/-! ### Interpolation (R284, R289) -/

/-- The corrected sine and cosine. -/
def correctSample (d : Dev) (c : Nat) (x : RawSample) : Int × Int :=
  let p := pageFch c
  (x.sin.toInt - d.sfld p 0x100 0 16, (x.cos.toInt - d.sfld p 0x100 16 16) * d.fld p 0x104 0 16 / 16384)
/-- The phase of a corrected sample; the previous one where both are 0. -/
def phaseOf (s c : Int) (before : Nat) : Nat :=
  if s = 0 ∧ c = 0 then before else ((angle96 s c * 8192 + 2 * pi96) / (4 * pi96) % 4096).toNat
def amplitudeOf (d : Dev) (c : Nat) (s k : Int) : Nat :=
  let n := max 1 (d.fld (pageFch c) 0x108 0 16)
  16384 * (s * s + k * k).toNat / (n * n)

/-! ### Faults (R290, R294) -/

def channelFault (d : Dev) (c cause : Nat) : Dev :=
  let x := channelOf d c
  raise (setChannel d c { x with fault := true, cause := cause, v0 := 0, v1 := 0, repV0 := 0, repV1 := 0, homed := false })
    (pageFch c) 2 clsMotion sevFault 0x0608 (pay c cause 0 0)

/-! ### Edges, direction and speed (R291 to R296) -/

/-- The multiples of 4,096 that the extreme passes on its way from `a` by `step` (signed), nearest first. -/
def passedLines (a : Nat) (step : Int) : List Int :=
  let n := step.natAbs
  let first : Nat := if 0 ≤ step then 4096 - a % 4096 else (if a % 4096 = 0 then 4096 else a % 4096)
  if n < first then []
  else (List.range ((n - first) / 4096 + 1)).map fun k => if 0 ≤ step then ((first + 4096 * k : Nat) : Int) else -((first + 4096 * k : Nat) : Int)

/-- The edges of one step of the extreme, recorded in order (R292). -/
def recordEdges (x : Channel) (a : Nat) (step : Int) (now cycle : Nat) : Channel :=
  (passedLines a step).foldl (fun x e =>
    let t := x.time + (now - x.time) * e.natAbs / max 1 step.natAbs
    { x with e2 := x.e1, e1 := some (wrap32 (a + e), t), edges := (cycle, x.negative) :: x.edges, since := cycle
             level := if x.e1.isSome then 0 else 1 }) x

/-- DIR and the extreme after a sample; edges are recorded where the extreme moves on (R291). -/
def followDirection (x : Channel) (hyst now cycle : Nat) : Channel :=
  let ahead := if x.negative then countDiff x.ext x.pos else countDiff x.pos x.ext
  if 0 < ahead then
    let step := if x.negative then -ahead else ahead
    recordEdges { x with ext := x.pos } x.ext step now cycle
  else if (hyst : Int) < -ahead then
    { x with negative := !x.negative, ext := x.pos, e1 := none, e2 := none, since := cycle, level := 1 }
  else x

/-- Level 0 over the cycles that end with the sample's (R293). -/
def levelZero (d : Dev) (c : Nat) (x : Channel) (cycle : Nat) : Channel :=
  let w := max 1 (d.fld (pageFch c) 0x044 16 12)
  let kept := x.edges.filter fun e => decide (cycle < e.1 + 4096)
  let n : Int := (kept.filter fun e => decide (cycle < e.1 + w)).foldl (fun n e => if e.2 then n - 1 else n + 1) 0
  let m : Int := ((n.natAbs * 4096 * 65536 / w : Nat) : Int)
  { x with edges := kept, v0 := if n < 0 then -m else m }

/-- Level 1 (R295, R296). -/
def levelOne (x : Channel) (now : Nat) : Channel :=
  match x.level, x.e2 with
  | 0, some (e, t) =>
    let m : Int := (((countDiff x.pos e).natAbs * 81920000 / max 1 (now - t) : Nat) : Int)
    { x with v1 := if x.negative then -m else m }
  | 1, _ => { x with v1 := if (x.negative && decide (x.v0 < 0)) || (!x.negative && decide (0 < x.v0)) then x.v0 else 0 }
  | _, _ => { x with v1 := 0 }

/-! ### Index and homing (R298, R299) -/

/-- Whether the motion state lets the channel home: local channels always, others while their station is in SERVICE. -/
def mayHome (d : Dev) (c : Nat) : Bool := !remoteChannel c || (stationOf d (c / 3)).motion == 6

def takeIndex (d : Dev) (c : Nat) (level : Bool) : Dev :=
  let x := channelOf d c
  let d1 := setChannel d c { x with index := level }
  if level && !x.index then
    let d2 := raise (setChannel d1 c { x with index := level, indexPos := x.pos }) (pageFch c) 3 clsMotion sevInfo 0x0603
      (pay c 0 0 x.pos)
    if d.flag (pageFch c) 0x04C 20 && mayHome d c then
      let shift := wrap32 ((d.fld (pageFch c) 0x04C 0 20 * 4096 : Nat) - ((x.pos - x.pos % 4096 : Nat) : Int))
      let y := channelOf d2 c
      let mv (n : Nat) : Nat := (n + shift) % 2 ^ 32
      let d3 := setChannel d2 c { y with
        pos := mv y.pos, ext := mv y.ext, e1 := y.e1.map fun e => (mv e.1, e.2), e2 := y.e2.map fun e => (mv e.1, e.2)
        homed := true, shift := shift }
      raise (d3.setFld (pageFch c) 0x04C 20 1 0) (pageFch c) 4 clsMotion sevInfo 0x0604 (pay c 0 0 shift)
    else d2
  else d1

/-! ### Emulation (R300 to R302) -/

/-- A signed count step of a channel reaches the outputs that follow it; its edges may go out from `from0` on. -/
def emulateStep (d : Dev) (c : Nat) (step : Int) (from0 : Nat) : Dev :=
  upto 8 (fun d e =>
    let p := pageEmu e
    if d.enabled p && d.fld p 0x040 0 7 == c then
      let x := emuOf d e
      let den : Int := ((max 1 (d.fld p 0x044 16 16) : Nat) : Int)
      let acc := x.acc + (if d.flag p 0x040 8 then -step else step) * d.fld p 0x044 0 16
      let q := acc / den
      let backlog := x.backlog + q
      let lag := decide (4096 < backlog.natAbs) && !x.lag
      let d1 := setEmu d e { x with
          acc := acc - q * den, backlog := backlog, lag := x.lag || lag, newSteps := q, newFrom := from0 }
      if lag then raise d1 p 0 clsMotion sevWarning 0x0610 (pay e 0 0 (wrap32 backlog)) else d1
    else d) d

/-- One emission window that begins at `start` and lasts `span` ticks, with at most `most` edges. -/
def emitWindow (d : Dev) (e start span most : Nat) : Dev :=
  let x := emuOf d e
  let owed := if start < x.newFrom then x.backlog - x.newSteps else x.backlog
  let m := min owed.natAbs most
  let neg := decide (owed < 0)
  let ticks := (List.range m).map fun i => start + i * span / max 1 m
  let d1 := setEmu d e { x with
    backlog := if neg then x.backlog + m else x.backlog - m
    ab := if neg then (x.ab + 4 * m - m) % 4 else (x.ab + m) % 4
    last := start + 1 }
  let d2 := d1.setReg (pageEmu e) 0x064 ((d1.rfld (pageEmu e) 0x064 0 32 + m) % 2 ^ 32)
  if m = 0 then d2 else d2.send (.edges e ticks neg)

/-- The emission window of an enabled output whose time has come (R301). -/
def emuWindow (d : Dev) (e : Nat) : Dev :=
  let remote := remoteChannel (d.fld (pageEmu e) 0x040 0 7)
  let start := if remote then d.cycle * 1250 + 300 else d.tick / 125 * 125
  if d.enabled (pageEmu e) && decide (start ≤ d.tick ∧ (emuOf d e).last ≤ start) then
    if remote then emitWindow d e start 1250 50 else emitWindow d e start 125 5
  else d

/-- CTL.ENABLE of an output rises (R302). -/
def emuEnable (d : Dev) (e : Nat) : Dev := setEmu d e { emuOf d e with acc := 0, backlog := 0, newSteps := 0, lag := false }
/-- EMU_RATIO or EMU_SRC applies (R302). -/
def emuReset (d : Dev) (e : Nat) : Dev := setEmu d e { emuOf d e with acc := 0 }

/-! ### Using a sample (R285, R286) -/

/-- The amplitude window (R289, R290); the sample counts all the same. -/
def checkAmplitude (d : Dev) (c m : Nat) : Dev :=
  let p := pageFch c
  let low := decide (m < d.fld p 0x10C 0 16)
  let high := decide (d.fld p 0x10C 16 16 < m)
  let x := { channelOf d c with amp := min m 65535 }
  if low || high then
    let run := x.ampRun + 1
    let d1 := setChannel (d.count p 0x07C) c { x with ampRun := min run 15 }
    let d2 := if low then raise d1 p 0 clsMotion sevWarning 0x0601 (pay c 0 m 0)
      else raise d1 p 1 clsMotion sevWarning 0x0602 (pay c 0 m 0)
    if d.fld p 0x040 0 4 ≤ run then channelFault d2 c (if low then 1 else 2) else d2
  else setChannel d c { x with ampRun := 0 }

/-- The channel uses a sample taken at tick `now`; `sub` is 1 for remote samples, 10 for local ones. -/
def useSample (d : Dev) (c : Nat) (smp : RawSample) (now sub : Nat) : Dev :=
  let x := channelOf d c
  if !d.enabled (pageFch c) then d
  else if x.fault then setChannel d c { x with stale := false }
  else
    let sc := correctSample d c smp
    let phi := phaseOf sc.1 sc.2 x.phi
    let m := amplitudeOf d c sc.1 sc.2
    if !x.started then
      let pos := x.pos - x.pos % 4096 + phi
      let d1 := setChannel d c { x with
        pos := pos, phi := phi, started := true, idle := false, gap := 0, negative := false, ext := pos, time := now, e1 := none, e2 := none
        edges := [], level := 2, v0 := 0, v1 := 0, stale := false, base := (pos, phi, 0) }
      checkAmplitude (takeIndex d1 c smp.index) c m
    else
      -- samples since the last used one: cycles of a remote channel, tenths of a cycle of a local one
      let gap := if sub = 1 then x.gap + 1 else max 1 ((now - x.time) / 125)
      let pred := (2 * x.v1 * gap + 65536 * sub) / (2 * 65536 * sub : Nat)
      let diff := ((phi : Int) - x.phi - pred + 2048) % 4096 - 2048
      let pos := wrap32 (x.pos + pred + diff)
      let x1 := { x with pos := pos, phi := phi, gap := 0, stale := false, base := (x.pos, x.phi, pred) }
      let x2 := followDirection x1 (d.fld (pageFch c) 0x040 8 4) now (now / 1250)
      let x3 := levelOne (levelZero d c x2 (now / 1250)) now
      let from0 := now + (if remoteChannel c then 300 else 125)
      let d1 := emulateStep (setChannel d c { x3 with time := now }) c (pred + diff) from0
      let d2 := checkAmplitude (takeIndex d1 c smp.index) c m
      let y := channelOf d2 c
      let limit := d.fld (pageFch c) 0x048 0 16
      if y.fault then d2 else if limit ≠ 0 ∧ limit < y.v0.natAbs / 65536 then channelFault d2 c 3 else d2

/-- What the cycle reports of a channel (R282, R297). -/
def reportChannel (d : Dev) (c : Nat) : Dev :=
  let x := channelOf d c
  setChannel d c { x with repPos := x.pos, repV0 := x.v0, repV1 := x.v1 }

/-- A remote sample that is not in time (R287). -/
def lateSample (d : Dev) (c : Nat) : Dev :=
  if d.enabled (pageFch c) then
    let x := channelOf d c
    setChannel (d.count (pageFch c) 0x078) c { x with gap := x.gap + 1, stale := true, shift := 0 }
  else d

/-- CTL.ENABLE of a channel rises (R286, R290). -/
def channelEnable (d : Dev) (c : Nat) : Dev :=
  let x := channelOf d c
  setChannel d c { x with
    started := false, gap := 0, negative := false, ext := x.pos, e1 := none, e2 := none, edges := [], level := 2, v0 := 0, v1 := 0
    repV0 := 0, repV1 := 0, homed := false, fault := false, idle := x.fault, cause := 0, ampRun := 0, since := d.cycle }

/-! ### Remote samples of a station's uplink (R281, R520) -/

/-- Sample of channel `k` (0 to 2) of a station uplink payload. -/
def uplinkSample (u : BitVec 256) (k : Nat) : RawSample :=
  ⟨BitVec.ofNat 16 (bits u.toNat (33 * k) 16), BitVec.ofNat 16 (bits u.toNat (33 * k + 16) 16), bit u.toNat (33 * k + 32)⟩

/-- The remote channels of station `s` in the computation of the cycle (R285, R287). -/
def stationChannels (d0 : Dev) (s : Nat) : Dev :=
  let d := match (stationOf d0 s).uplink with
    | some u => setStation d0 s { stationOf d0 s with pd := bits u.toNat 99 16 }
    | none => d0
  upto 3 (fun d k =>
    let c := 3 * s + k
    match (stationOf d s).uplink with
    | some u => reportChannel (useSample (setChannel d c { channelOf d c with shift := 0 }) c (uplinkSample u k) (d.cycle * 1250) 1) c
    | none => reportChannel (lateSample d c) c) d

/-! ### Local samples (R282, R283) -/

/-- The position that a sample of phase `phi` in place of the last used one stands for: the step of R285 from the same
count, with the shift that homing made then. -/
def nearPos (x : Channel) (phi : Nat) : Nat :=
  let b := x.base
  wrap32 ((b.1 : Int) + b.2.2 + (((phi : Int) - b.2.1 - b.2.2 + 2048) % 4096 - 2048) + x.shift)

/-- A sample that the channel uses, taken at tick `now`. -/
def localSample (d : Dev) (c : Nat) (smp : RawSample) (now : Nat) : Dev :=
  let d0 := useSample (setChannel d c { channelOf d c with shift := 0 }) c smp now 10
  let x := channelOf d0 c
  let d1 := setChannel d0 c { x with trail := (now, x.pos) :: x.trail.take 31 }
  if now % 1250 < 125 then reportChannel d1 c else d1

/-- The standby compares the forwarded position with its own sample's (R283). -/
def peerDiff (d : Dev) (c : Nat) : Dev :=
  let x := channelOf d c
  let diff := countDiff x.pos (nearPos x x.ownPhi)
  if x.ownTick = x.time ∧ d.enabled (pageFch c) = true ∧ d.fld pageFbk 0x040 0 16 < diff.natAbs then
    raise d (pageFch c) 5 clsMotion sevNotice 0x0605 (pay c 0 0 (wrap32 diff))
  else d

/-- The forwarded sample of the holder (R283): used, and compared with the standby's own of the same instant. -/
def forwardedSample (d : Dev) (c : Nat) (smp : RawSample) (now : Nat) : Dev :=
  let x := channelOf d c
  let skipped := d.enabled (pageFch c) && x.started && !x.fault && decide (x.time + 125 < now)
  let d1 := if skipped then { d with par := { d.par with sampleLate := true } } else d
  peerDiff (localSample d1 c smp now) c

/-- Body of a SAMPLE record (R527). -/
def sampleBody (kind index tick data : Nat) : List Byte :=
  leBytes 28 <| atByte 0 (tick % 2 ^ 64) + atByte 8 kind + atByte 9 index + atByte 12 data
/-- How a local sample stands in the record's data bytes: SIN, COS, INDEX (log entry 21). -/
def sampleData (smp : RawSample) : Nat := smp.sin.toNat + smp.cos.toNat <<< 16 + boolNat smp.index <<< 32
def sampleOfData (v : Nat) : RawSample := ⟨BitVec.ofNat 16 (bits v 0 16), BitVec.ofNat 16 (bits v 16 16), bit v 32⟩

/-- A local channel is sampled: the holder uses and forwards it, a standby keeps it for its comparison. -/
def takeLocal (d : Dev) (ch : Nat) (smp : RawSample) : Dev :=
  let c := 96 + ch
  if !d.running then d
  else if d.par.role = roleStandby then
    let sc := correctSample d c smp
    let x := channelOf d c
    let d1 := setChannel d c { x with ownPhi := phaseOf sc.1 sc.2 x.ownPhi, ownTick := d.tick / 125 * 125 }
    peerDiff d1 c
  else
    let now := d.tick / 125 * 125
    let d1 := localSample d c smp now
    if d.pairHolder then
      sendHalyard d1 3 (sampleBody 0 ch now (sampleData smp))
    else d1

/-- The standstill timeout of a channel (R296). -/
def standstill (d : Dev) (c : Nat) : Dev :=
  let x := channelOf d c
  if d.enabled (pageFch c) && !x.fault && x.level != 2 && decide (x.since + d.fld (pageFch c) 0x044 0 16 ≤ d.cycle) then
    setChannel d c { x with level := 2, v1 := 0, repV1 := 0, e1 := none, e2 := none }
  else d

/-! ### Meanings -/

/-- R282. -/
def execLocalChannelSample (t : Nat) (ch : Fin 8) (smp : RawSample) (s : State) : Host.Outcome State Fault Refusal :=
  onDev s fun d => takeLocal (d.arrive t) ch.val smp
/-- R296. -/
def execStandstillTimeout (ch : Fin 104) (s : State) : Host.Outcome State Fault Refusal :=
  onDev s fun d => standstill d ch.val
/-- R301. -/
def execEmuEmission (t : Nat) (e : Fin 8) (s : State) : Host.Outcome State Fault Refusal :=
  onDev s fun d => emuWindow (d.arrive t) e.val

end Sys2Proof.Machine
end

