-- ==== Sys2Proof/Machine/Sched.lean ====
section
/-! DEFINITION. The dispatcher: islands of the running heat, eligibility, decisions, promotion, stranding, patch islands
and abandonment (R110 to R159). -/
namespace Sys2Proof.Machine

/-! ### The running heat -/

def setRun (d : Dev) (x : Run) : Dev := { d with heats := { d.heats with running := some x } }
def updRun (d : Dev) (f : Run → Run) : Dev := { d with heats := { d.heats with running := d.heats.running.map f } }

def Run.pours (x : Run) (key : Nat) : List (BitVec 256) :=
  if isPatch key then ((x.patches[key - 65536]?).map Prod.snd).getD []
  else islandPours x.heat.pours (x.descriptor key)
def Run.setIsland (x : Run) (key : Nat) (i : IslandRun) : Run := { x with isl := x.isl.set (same {}) key i }
/-- Every island has completed (R20). -/
def Run.allDone (x : Run) : Bool := x.keys.all fun k => decide (4 ≤ (x.island k).state)

/-- The enable counts from the start of the cycle in which a Live write of it takes effect (R45). -/
def stationOk (d : Dev) (s : Nat) : Bool := enabledAt d (pageStn s) d.cycle && !(stationOf d s).fault
/-- R112. -/
def stationIdleNow (d : Dev) (s : Nat) : Bool := stationOk d s && (stationOf d s).island.isNone
/-- The stations that a decision may name: idle, and held by no calibration run (R425, R438). -/
def stationFree (d : Dev) (s : Nat) : Bool := stationIdleNow d s && !(stationOf d s).service

/-! ### Completion (R106 to R115) -/

/-- ISLAND_DONE, and the island leaves its state for a final one. R78 says that ENERGY and EST_CYCLES are reported back in
the record, whose layout in R106 has no bytes for them: the model writes the layout of R106 (DESIGN CHOICE, log entry 71). -/
def islandDone (d : Dev) (x : Run) (key final status : Nat) (station : Option Nat) : Dev :=
  let i := x.island key
  let took := i.state == 3
  let x1 := { x.setIsland key { i with state := final, promoted := false } with
    completed := x.completed + 1, stranded := x.stranded + boolNat (final == 5) }
  let d1 := setRun d x1
  let index := if isPatch key then key - 65536 + 2 ^ 31 else key
  let d2 :=
    if x.heat.report || status != stOk then
      emitShared d1 (48 + x.heat.ring) .islandDone
        (atByte 0 (d.tick % 2 ^ 64) + atByte 8 2 + atByte 9 status + atByte 10 (station.getD 0xFFFF) +
          atByte 12 x.heat.number.toNat + atByte 16 index + atByte 20 (i.energy / 8000000 % 2 ^ 32) +
          atByte 24 (if isPatch key then 0 else islTag (x.descriptor key)) +
          atByte 28 (if took then min (d.cycle - i.began) 65535 else 0))
    else d1
  statusReport d2 status x.heat.number.toNat index

/-- The island of a station ends: the reservation is released and the station has no island. -/
def leaveIsland (d : Dev) (s : Nat) : Dev :=
  releasePower (setStation d s { stationOf d s with
    island := none, active := false, begun := false, ended := false, completeNow := false, armed := false, gateEnd := false
    fireNext := false, hold := none, resumeAt := none }) s

/-- The island on station `s` completes (R111). -/
def completeIsland (d : Dev) (s : Nat) : Dev :=
  match d.heats.running, (stationOf d s).island with
  | some x, some key => leaveIsland (islandDone d x key 4 stOk (some s)) s
  | _, _ => d

/-- Its station faults or is disabled: the island is INTERRUPTED (R114, R230, R231). -/
def interruptIsland (d : Dev) (s : Nat) : Dev :=
  match d.heats.running, (stationOf d s).island with
  | some x, some key => leaveIsland (islandDone d x key 7 stInterrupted (some s)) s
  | _, _ => d

/-- A write of SCH_RUN.ABANDON takes effect at this cycle's start (R45). -/
def abandonDue (d : Dev) : Bool :=
  d.regs.live.any fun w => w.addr == wordAddr pageSch 0x040 && decide (w.cycle + 3 ≤ d.cycle) && w.data.getLsbD 1

/-- Ready islands without a station that is enabled and free of fault are stranded (R113). -/
def strandIslands (d : Dev) : Dev :=
  match d.heats.running with
  | none => d
  | some x =>
    (x.ready.filter fun k => !(List.range 32).any fun s => bit (islMask (x.descriptor k)) s && stationOk d s).foldl
      (fun d k => match d.heats.running with | some y => islandDone d y k 5 stStranded none | none => d) d

/-! ### Casting pours (R127, R152) -/

/-- What a station casts: the cells of its casting pour, none for one that emits nothing. A station that waits for its next
pour (R196) casts the one that has ended (DESIGN CHOICE, log entry 76). -/
def castingCells (d : Dev) (t : Nat) : Option CellBox :=
  let st := stationOf d t
  match d.heats.running, st.island with
  | some x, some key =>
    let ps := x.pours key
    match ps[if st.active then st.pour else 0]? with
    | some p =>
      if pourDark p || pourPower p == 0 then none else some (pourCells p (if st.active && st.holding && st.path.isNone then st.resumeAt else none))
    | none => none
  | _, _ => none

/-! ### Eligibility (R121 to R134) -/

/-- Condition 4 for station `s` (R131). -/
def plumeClear (d : Dev) (s : Nat) (box : CellBox) : Bool :=
  let reverse := d.flag pageSch 0x048 2
  (List.range 32).all fun t =>
    t == s ||
      (match castingCells d t with
       | none => true
       | some c => !(corridor d c).overlaps box && !(reverse && (corridor d box).overlaps c))
/-- Condition 5 (R133). -/
def bandClear (d : Dev) (box : CellBox) : Bool :=
  let b := carriageBand d
  !decide (b.1 ≤ box.r1 ∧ box.r0 ≤ b.2)
/-- Condition 6 (R134). -/
def stitchClear (x : Run) (key : Nat) : Bool :=
  let g := islStitch (x.descriptor key)
  g == 0 || !(x.keys.any fun k => k != key && islStitch (x.descriptor k) == g && x.busy k)

/-- head_need: the largest reservation over the stations of the head's mask that can run (R124). -/
def headNeed (d : Dev) (x : Run) (head : Nat) : Nat :=
  let i := x.descriptor head
  (List.range 32).foldl (fun m s =>
    if bit (islMask i) s && stationOk d s then max m (ladleReservation d (islPeak i) s) else m) 0

/-- The first condition that fails for island `key` on station `s`, 0 where it is eligible (R121). -/
def eligibility (d : Dev) (x : Run) (key s : Nat) (head : Option Nat) : Nat :=
  let i := x.descriptor key
  if !bit (islMask i) s then 1
  else
    let need := ladleReservation d (islPeak i) s +
      (match head with | some h => if h = key then 0 else headNeed d x h | none => 0)
    if !ladleCanReserve d need then 2
    else if !bedCooled d i then 3
    else if !plumeClear d s (islandBox i) then 4
    else if !bandClear d (islandBox i) then 5
    else if !stitchClear x key then 6
    else 0

/-- A failed examination is counted and starts the island's blocked time (R120, R122, R135). -/
def countFailure (d : Dev) (key cond : Nat) : Dev :=
  let d1 := d.count pageSch (0x100 + 4 * cond)
  if 2 ≤ cond then
    updRun d1 fun x =>
      let i := x.island key
      if i.blockedSince.isNone then x.setIsland key { i with blockedSince := some d.cycle } else x
  else d1

/-! ### A decision (R116, R119, R140) -/

def decideIsland (d : Dev) (x : Run) (key s : Nat) : Dev :=
  let i := x.descriptor key
  let shown := key % 65536 + boolNat (isPatch key) <<< 16 + s <<< 24 + 1 <<< 31
  let d1 := ((d.setReg pageSch 0x070 shown).setReg64 pageSch 0x078 d.cycle).count pageSch 0x080
  setRun { d1 with sched := { d1.sched with
      decision := some ⟨d.cycle, key, s, ladleReservation d (islPeak i) s, (x.island key).promoted⟩ } }
    { x with decisions := x.decisions + 1 }

/-- The islands examined for one idle station: the first that is eligible, every failure counted. -/
def scanIslands (s : Nat) (head : Option Nat) : List Nat → Dev → Dev × Bool
  | [], d => (d, false)
  | k :: t, d =>
    match d.heats.running with
    | none => (d, false)
    | some x =>
      let c := eligibility d x k s head
      if c = 0 then (decideIsland d x k s, true) else scanIslands s head t (countFailure d k c)

/-- The loop over the idle stations of R119. SCH_HELD_MASK shows the stations that the loop has reached and found held
(DESIGN CHOICE, log entry 77). -/
def scanStations (head : Option Nat) (order : List Nat) : List Nat → Dev → Dev × Bool
  | [], d => (d, false)
  | s :: t, d =>
    match d.heats.running, head with
    | some x, some h =>
      if bit (islMask (x.descriptor h)) s then
        let c := eligibility d x h s head
        if c = 0 then (decideIsland d x h s, true)
        else
          let d1 := countFailure d h c
          scanStations head order t { d1 with sched := { d1.sched with heldMask := d1.sched.heldMask ||| BitVec.ofNat 32 (2 ^ s) } }
      else
        let r := scanIslands s head order d
        if r.2 then r else scanStations head order t r.1
    | _, _ =>
      let r := scanIslands s head order d
      if r.2 then r else scanStations head order t r.1

/-- R136, R138. -/
def promoteIslands (d : Dev) : Dev :=
  let limit := d.fld pageSch 0x044 0 32
  match d.heats.running with
  | none => d
  | some x =>
    if limit = 0 then d
    else
      (x.ready.filter fun k =>
        !(x.island k).promoted && !bit (islFlags (x.descriptor k)) 1 &&
          (match (x.island k).blockedSince with | some b => decide (b + limit ≤ d.cycle) | none => false)).foldl
        (fun d k =>
          let d1 := updRun d fun y => y.setIsland k { y.island k with promoted := true }
          let age := d.cycle - ((x.island k).blockedSince.getD d.cycle)
          raise (d1.count pageSch 0x11C) pageSch 0 clsProcess sevNotice 0x0401
            (payW k (boolNat (isPatch k)) age)) d

def idleSinceOf (d : Dev) (s : Nat) : Nat := d.sched.idleSince.get (same 0) s
/-- The first cycle of every idle spell (R112): 1 + that cycle. -/
def trackIdle (d : Dev) : Dev :=
  let t := upto 32 (fun (t : Tab Nat) s =>
    if stationIdleNow d s then (if t.get (same 0) s = 0 then t.set (same 0) s (d.cycle + 1) else t) else t.set (same 0) s 0)
    d.sched.idleSince
  { d with sched := { d.sched with idleSince := t } }

def insertIdle (d : Dev) (s : Nat) : List Nat → List Nat
  | [] => [s]
  | t :: l => if idleSinceOf d t ≤ idleSinceOf d s then t :: insertIdle d s l else s :: t :: l
/-- Idle stations by idle-since cycle, then by number. -/
def idleStations (d : Dev) : List Nat :=
  ((List.range 32).filter (stationFree d)).foldl (fun l s => insertIdle d s l) []

def failCounts (d : Dev) : List Nat := (List.range 6).map fun k => d.rfld pageSch (0x104 + 4 * k) 0 32

/-- R117 but for CTL.ENABLE and the heat. -/
def draining (d : Dev) : Bool := d.flag pageSch 0x040 0

/-- The cycles that the stall limit counts (R159). -/
def countStall (d : Dev) (ready idle decided : Bool) : Dev :=
  if ready && idle && !decided then { d with sched := { d.sched with stall := d.sched.stall + 1 } }
  else { d with sched := { d.sched with stall := 0, failBase := failCounts d } }

/-- The dispatcher's work of one cycle (R119), on the state of the start of the cycle. A blocked cycle examines nothing,
and SCH_HELD_MASK is 0 then (DESIGN CHOICE, log entry 77). -/
def dispatchCycle (d0 : Dev) : Dev :=
  let d := { trackIdle d0 with sched := { (trackIdle d0).sched with heldMask := 0 } }
  match d.heats.running with
  | none => countStall d false false false
  | some x =>
    let idle := idleStations d
    if !d.enabled pageSch || draining d || x.passPending || !x.spread then
      countStall d (!x.ready.isEmpty) (!idle.isEmpty) false
    else
      let d1 := promoteIslands d
      match d1.heats.running with
      | none => d1
      | some y =>
        let head := y.head
        let rest := y.ready.filter fun k => head != some k
        let order := (rest.filter (fun k => (y.island k).promoted) ++ rest.filter fun k => !(y.island k).promoted).take
          (d.fld pageSch 0x100 0 11)
        let r := scanStations head order idle d1
        countStall r.1 (!y.ready.isEmpty) (!idle.isEmpty) r.2

/-- The reservation of a pass that has ended is released (R167). -/
def passFree (d : Dev) : Dev :=
  match d.heats.running with
  | some x =>
    match x.passFreeAt with
    | some c => if c ≤ d.cycle then setRun (releasePower d passHolder) { x with passHeld := false, passFreeAt := none } else d
    | none => d
  | none => d

/-- The decision of the cycle that has ended applies (R140): the island is COMMITTED, unless its station went. Its duration
counts from cycle n + 3 even where its first pour is taken later, and is 0 where it ends before (DESIGN CHOICE, log
entry 84). -/
def applyDecision (d : Dev) : Dev :=
  match d.sched.decision, d.heats.running with
  | some q, some x =>
    let d1 := { d with sched := { d.sched with decision := none } }
    if stationOk d q.station && (x.island q.key).state == 1 then
      let i := x.island q.key
      let d2 := setRun d1 (x.setIsland q.key { i with
        state := 2, station := q.station, decided := q.cycle, reserved := q.reserved, began := q.cycle + 3 })
      let st := stationOf d2 q.station
      holdPower (setStation d2 q.station { st with
        island := some q.key, execAt := q.cycle + 3, active := false, begun := false, ended := false, completeNow := false, pour := 0
        shortPour := none, arcTold := false, loaded := 0, loadedNow := 0, loadedBefore := 0, pourNow := 0, pourBefore := 0, peerHeld := none, resumeAt := none
        starvedTold := false }) q.station q.reserved
    else d1
  | _, _ => { d with sched := { d.sched with decision := none } }

/-- COMMITTED islands become ACTIVE at the start of their execution cycle (R110, R141). -/
def activateIslands (d : Dev) : Dev :=
  upto 32 (fun d s =>
    let st := stationOf d s
    match st.island with
    | some key =>
      if !st.active && decide (st.execAt ≤ d.cycle) then
        updRun (setStation d s { st with active := true }) fun x => x.setIsland key { x.island key with state := 3 }
      else d
    | none => d) d

/-! ### Commit records (R139, R140, R142) -/

/-- The 16 bytes of the commit record of the current cycle. -/
def commitRecord (d : Dev) : Nat :=
  let count := match d.heats.running with | some x => x.decisions | none => 0
  match d.sched.decision with
  | some q =>
    if q.cycle = d.cycle then
      atByte 0 (d.cycle % 2 ^ 64) + atByte 8 (q.key % 65536) + atByte 10 q.station +
        atByte 11 (1 + 2 * boolNat (isPatch q.key) + 4 * boolNat q.promoted) + atByte 12 count
    else atByte 0 (d.cycle % 2 ^ 64) + atByte 12 count
  | none => atByte 0 (d.cycle % 2 ^ 64) + atByte 12 count

/-- A standby takes the decision that the holder's commit record carries. -/
def takeCommit (d : Dev) (rec0 : Nat) : Dev :=
  let b (off n : Nat) : Nat := bits rec0 (8 * off) (8 * n)
  if bit (b 11 1) 0 then
    match d.heats.running with
    | some x =>
      let key := b 8 2 + (if bit (b 11 1) 1 then 65536 else 0)
      let s := b 10 1 % 32
      let shown := key % 65536 + boolNat (isPatch key) <<< 16 + s <<< 24 + 1 <<< 31
      let d1 := ((d.setReg pageSch 0x070 shown).setReg64 pageSch 0x078 (b 0 8)).count pageSch 0x080
      setRun { d1 with sched := { d1.sched with
          decision := some ⟨b 0 8, key, s, ladleReservation d (islPeak (x.descriptor key)) s, bit (b 11 1) 2⟩ } }
        { x with decisions := x.decisions + 1 }
    | none => d
  else d

/-- Blocked times and promotions are the holder's: a new one starts every READY island afresh, and one that gives the
ensign up keeps none (R144). -/
def forgetAges (d : Dev) : Dev :=
  updRun { d with sched := { d.sched with heldMask := 0, decision := d.sched.decision, stall := 0, failBase := failCounts d } } fun x =>
    x.ready.foldl (fun x k => x.setIsland k { x.island k with blockedSince := none, promoted := false }) x

/-! ### Spread complete and abandonment (R16, R158) -/

/-- Every READY island, or a given one, completes ABANDONED; how many. -/
def abandonIslands (d : Dev) (keys : List Nat) : Dev :=
  keys.foldl (fun d k => match d.heats.running with | some y => islandDone d y k 6 stAbandoned none | none => d) d

/-- SCH_RUN.ABANDON takes effect. With no heat running it is reported with the count 0 (DESIGN CHOICE, log entry 85). -/
def abandonHeat (d : Dev) : Dev :=
  match d.heats.running with
  | none => raise d pageSch 5 clsProcess sevNotice 0x0405 (pay 0 0 0 0)
  | some x =>
    let d1 := abandonIslands (setRun d { x with abandon := true }) x.ready
    raise d1 pageSch 5 clsProcess sevNotice 0x0405 (pay 0 0 0 x.ready.length)

/-- Spread complete: the host islands become READY, or ABANDONED (R16, R158). -/
def spreadComplete (d : Dev) : Dev :=
  match d.heats.running with
  | none => d
  | some x =>
    let keys := List.range x.heat.islands.length
    let x1 := keys.foldl (fun x k => x.setIsland k { x.island k with state := 1 }) { x with spread := true }
    let d1 := setRun d x1
    if x.abandon then abandonIslands d1 keys else d1

/-! ### Patch islands (R154 to R156) -/

/-- The stations that may run a patch box: enabled, with a field boundary around it. -/
def patchMask (d : Dev) (box : CellBox) : Nat :=
  (List.range 32).foldl (fun m s =>
    if d.enabled (pageStn s) && boxInField d s box.c0 box.r0 box.c1 box.r1 then m + 2 ^ s else m) 0

/-- The descriptor of a patch island whose first pour stands at index `first` of the slot's patch pour region (R154,
R381): all its pours are lines of one speed. -/
def patchDescriptor (d : Dev) (first : Nat) (box : CellBox) (pours : List (BitVec 256)) : BitVec 512 :=
  let length (p : BitVec 256) : Nat := (pourX1 p - pourX0 p).natAbs + (pourY1 p - pourY0 p).natAbs
  let speed := max 1 (match pours.head? with | some p => pourSpeed p | none => 1)
  BitVec.ofNat 512 (atByte 0 first + atByte 4 pours.length + atByte 6 1 + atByte 8 box.c0 + atByte 10 box.r0 +
    atByte 12 box.c1 + atByte 14 box.r1 + atByte 16 (patchMask d box) +
    atByte 20 ((pours.map fun p => pourPower p * length p).sum / (32000 * speed) % 2 ^ 32) + atByte 24 (peakOf pours) +
    atByte 26 (d.fld pageSch 0x050 0 3) + atByte 32 (((pours.map length).sum + 5 * speed - 1) / (5 * speed) % 2 ^ 32))

def addPatch (d : Dev) (box : CellBox) (pours : List (BitVec 256)) : Dev :=
  match d.heats.running with
  | none => d
  | some x =>
    let k := x.patches.length
    let first := (x.patches.map fun p => p.2.length).sum
    let i := patchDescriptor d first box pours
    let d1 := setRun d (({ x with patches := x.patches ++ [(i, pours)] }).setIsland (patchKey k) { state := 1 })
    let d2 := raise d1 pageSch 3 clsProcess sevInfo 0x0403 (payW k box.r0 box.r1)
    if x.abandon then abandonIslands d2 [patchKey k] else strandIslands d2

/-- The gaps of an accumulator stay unrepaired (R156). -/
def patchOverflow (d : Dev) (pass first last : Nat) : Dev :=
  raise d pageSch 4 clsProcess sevWarning 0x0404 (payW pass first last)

/-! ### Stall (R159) -/

/-- The position of the largest entry, the first of several. -/
def leadingCause (inc : List Nat) : Nat :=
  let m := inc.foldl max 0
  (inc.findIdx fun v => v == m) + 1

def stalled (d : Dev) : Dev :=
  let limit := d.fld pageSch 0x054 0 32
  let ready := match d.heats.running with | some x => x.ready.length | none => 0
  if d.running && d.holds && limit != 0 && decide (limit ≤ d.sched.stall) && !draining d && ready != 0 then
    let now := failCounts d
    let inc := (List.range 6).map fun k => now.getD k 0 - d.sched.failBase.getD k 0
    raise { d with sched := { d.sched with stall := 0, failBase := now } } pageSch 1 clsProcess sevWarning 0x0402
      (pay (leadingCause inc) 0 0 ready)
  else d

/-! ### Meanings -/

/-- R159. -/
def execDispatchStalled (s : State) : Host.Outcome State Fault Refusal := onDev s stalled

/-- R158: a write of SCH_RUN with ABANDON takes effect at the start of cycle n + 3. -/
def execSchRunAbandon (s : State) : Host.Outcome State Fault Refusal :=
  onDev s fun d => if d.computes then abandonHeat d else d

end Sys2Proof.Machine
end

