-- ==== Sys2Proof/Machine/Station.lean ====
section
/-! DEFINITION. Station trajectory and laser firing (R194 to R236): the computation of one cycle for one station. -/
namespace Sys2Proof.Machine

/-! ### Corrections of a station (R435 to R445) -/

/-- A table count through the drift term (R441). -/
def driftCount (c r0 : Nat) (off : Int) (gain : Nat) : Nat :=
  wrap32 (r0 + off + (2 * (countDiff c r0 * gain) + 16777216) / 33554432)
/-- The axis targets of a bed point: X and Y through table and drift term, focus (R209, R441). -/
def stationTargets (d : Dev) (s : Nat) (x y : Int) : Nat × Nat × Nat :=
  let bank := (stationOf d s).bank
  let cx := fctTarget d s bank 0 x y
  let cy := fctTarget d s bank 1 x y
  let cf := fctTarget d s bank 2 x y
  let c := calStation d s
  match c.refs with
  | some r => (driftCount cx r.x0 c.term.offX c.term.gainX, driftCount cy r.y0 c.term.offY c.term.gainY, cf)
  | none => (cx, cy, cf)
def driftGains (d : Dev) (s : Nat) : Nat × Nat :=
  let c := calStation d s
  match c.refs with | some _ => (c.term.gainX, c.term.gainY) | none => (16777216, 16777216)

/-- J⁻¹ of a pair of count differences at a bed point: numerators and denominator, in nm (R212, R441). -/
def stationInverse (d : Dev) (s : Nat) (x y cx cy : Int) : Option (Int × Int × Int) :=
  let g := driftGains d s
  (inverseSlope d s (stationOf d s).bank x y (cx * 16777216 * g.2) (cy * 16777216 * g.1)).map fun r =>
    (r.1, r.2.1, r.2.2 * g.1 * g.2)

/-- The counts by which a station's targets still lie at those of its old table or drift term: until the move of R211 or
R442 begins, it holds where it did, and a return jump under way ends there. -/
def pendingShift (d : Dev) (s : Nat) : Int × Int :=
  let st := stationOf d s
  match st.remap with
  | some old =>
    let e := match st.path with | some p => (p.ex, p.ey) | none => (st.next.x, st.next.y)
    let c := stationTargets d s e.1 e.2
    (countDiff old.1 c.1, countDiff old.2 c.2.1)
  | none => (0, 0)
/-- The axis targets of a commanded bed point. -/
def commandTargets (d : Dev) (s : Nat) (x y : Int) : Nat × Nat × Nat :=
  let c := stationTargets d s x y
  let h := pendingShift d s
  (wrap32 (c.1 + h.1), wrap32 (c.2.1 + h.2), c.2.2)

/-! ### Setpoints -/

def Kin.setpoint (k : Kin) (f : FocusKin) (onPour : Bool) : Setpoint :=
  ⟨k.x, k.y, k.vx, k.vy, k.ax, k.ay, k.along, f.pos, f.vel, f.acc, onPour⟩
def Setpoint.rest (p : Setpoint) : Setpoint := { p with vx := 0, vy := 0, ax := 0, ay := 0, along := 0, vf := 0, af := 0 }
def Setpoint.kin (p : Setpoint) : Kin := ⟨p.x, p.y, p.vx, p.vy, p.ax, p.ay, p.along⟩
/-- The table's focus count at a bed point. -/
def tableFocus (d : Dev) (s : Nat) (x y : Int) : Int := signed 32 (fctTarget d s (stationOf d s).bank 2 x y)
/-- Focus at a point of a pour: the table's count there and the pour's offset (R205). -/
def pourFocusAt (d : Dev) (s : Nat) (p : BitVec 256) (x y : Int) : Int := tableFocus d s x y + focusOffset d s p

/-- Counts for a distance in 2⁻¹²⁸ nm, in 2⁻⁴⁸ counts, at so many counts per µm in Q16.16. -/
def focusCounts (gain x : Int) : Int := x * gain / (65536000 * 2 ^ 80)
/-- Distance in 2⁻¹²⁸ nm for counts in 2⁻⁴⁸. -/
def focusFine (gain x : Int) : Int := x * 65536000 * 2 ^ 80 / max 1 gain

/-- The focus of a path off the pours at an instant: the move of a jump, or the deceleration of a stop. -/
def Path.focus (p : Path) (t : Nat) : FocusKin :=
  match p.fstop with
  | none => focusAt p.flim p.f0 p.f1 (t - p.start)
  | some (q, gain) =>
    let r := q.run (t - p.start)
    ⟨p.f0 + (focusCounts gain r.p + 2 ^ 47) / 2 ^ 48, focusCounts gain r.v, focusCounts gain r.a⟩

/-- The setpoint of a path at an instant (R197, R205). -/
def pathSetpoint (d : Dev) (s : Nat) (p : Path) (t : Nat) : Setpoint :=
  let k := p.kin t
  k.setpoint (if p.onPour then ⟨tableFocus d s k.x k.y + p.f0, 0, 0⟩ else p.focus t) p.onPour

/-! ### Pours of the island (R194 to R196) -/

def islandPoursOf (d : Dev) (s : Nat) : List (BitVec 256) :=
  match d.heats.running, (stationOf d s).island with
  | some x, some key => x.pours key
  | _, _ => []

/-- Whether pour `i` of the island is available in the current cycle (R195). -/
def Station.available (st : Station) (i : Nat) : Bool :=
  decide (i < st.loadedBefore) && (match st.peerHeld with | none => true | some n => decide (i < st.pourBefore + n))

/-- Shift of the counts at a cycle start. -/
def Station.rollLoads (st : Station) : Station :=
  { st with loadedBefore := st.loadedNow, loadedNow := st.loaded, pourBefore := st.pourNow, pourNow := st.pour }

/-- A pour record reaches the prefetch buffer (R194). -/
def prefetch (d : Dev) (s : Nat) : Dev :=
  let st := stationOf d s
  if st.island.isSome && decide (st.loaded < (islandPoursOf d s).length ∧ st.loaded - st.pour < 256) then
    setStation d s { st with loaded := st.loaded + 1 }
  else d

/-! ### Speeds at the ends of pours (R200 to R203) -/

/-- A pour on which the gate stays closed throughout: DARK set or POWER = 0 (R229). -/
def pourUnlit (p : BitVec 256) : Bool := pourDark p || pourPower p == 0

/-- Whether a pour is left over a CHAIN junction: it chains, the next is there, and neither is its remainder being run
(R151) nor does it end at rest because the next came too late (R196). -/
def chains (st : Station) (ps : List (BitVec 256)) (i : Nat) (p : BitVec 256) : Bool :=
  pourChain p && (ps[i + 1]?).isSome && !(i == st.pour && (st.resumeAt.isSome || st.starvedTold))

def exitSpeed (d : Dev) (s : Nat) (st : Station) (ps : List (BitVec 256)) (i : Nat) (p : BitVec 256) : Int :=
  match (if chains st ps i p then ps[i + 1]? else none) with
  | some q => junctionSpeed d s p q
  | none => if flying d s then pourCap d s p else 0

/-! ### Planning from the state at an instant -/

/-- A jump towards pour `i` from the resume point or the start point, from the state `k` at the instant `t` (R199, R200). -/
def jumpToPour (d : Dev) (s : Nat) (st : Station) (i : Nat) (p : BitVec 256) (k : Kin) (f0 : Int) (t : Nat) : Station :=
  let a := st.resumeAt.getD 0
  let e := pointAt p a
  let tg := tangentAt p a
  let v := if flying d s then pourCap d s p else 0
  let path := planJump d s k t e.1 e.2 (mul96 v tg.1) (mul96 v tg.2) i p f0 (pourFocusAt d s p e.1 e.2) (jumpV d s) 0
  { st with path := some path, motion := 1, pour := i, moved := true, armed := false, armedPour := none, passed := false
            holding := false, starvedTold := false }

/-- A jump to rest at a point, with the gate closed. -/
def jumpToRest (d : Dev) (s : Nat) (st : Station) (x y : Int) (k : Kin) (f0 f1 : Int) (t : Nat) : Station :=
  { st with path := some (planJump d s k t x y 0 0 st.pour 0 f0 f1 (jumpV d s) 0), moved := true, armed := false }

/-- A stop along the present direction under A_JUMP and J_JUMP (R266, R456). The focus, at `f` with the velocity `vf` in
2⁻⁴⁸ counts per tick, comes to rest under the same limits through its counts per µm (DESIGN CHOICE, log entry 75). -/
def stopPath (d : Dev) (s : Nat) (st : Station) (k : Kin) (f vf : Int) (t : Nat) : Station :=
  let v : Int := Nat.sqrt ((k.vx * k.vx + k.vy * k.vy).toNat)
  let segs := rampSegs (-v) (jumpA d s) (jumpJ d s)
  let gain : Int := focusGain d s
  let w := if gain = 0 then 0 else focusFine gain vf
  let fsegs := rampSegs (-w) (jumpA d s) (jumpJ d s)
  let part (c : Int) : List (Nat × Int) := segs.map fun g => (g.1, g.2 * c / max 1 v)
  let dist := rampDist v 0 (jumpA d s) (jumpJ d s)
  let path : Path :=
      { onPour := false, pour := 0, index := st.pour, start := t, finish := t + max (segTime segs) (segTime fsegs)
        px := ⟨toFine k.x, k.vx, 0, part k.vx⟩, py := ⟨toFine k.y, k.vy, 0, part k.vy⟩
        ex := k.x + ofFine (dist * k.vx / max 1 v), ey := k.y + ofFine (dist * k.vy / max 1 v), evx := 0, evy := 0
        dark := true, f0 := f, f1 := f, flim := focusLimits d s, fstop := some (⟨0, w, 0, fsegs⟩, gain) }
  { st with path := if v = 0 ∧ w = 0 then none else some path }

/-! ### Faults and enables (R230, R231, R266) -/

/-- The references of a station decelerate to rest from those of the present cycle (R266). The focus has the velocity of
its axis's reference. -/
def decelerate (d : Dev) (s : Nat) : Dev :=
  let st := stationOf d s
  let vf := (d.axes.get (same {}) (3 * s + 2)).refVel * 2 ^ 32 / 1250
  let y := stopPath d s st st.cmd.kin st.cmd.focus vf (cycleAt d.cycle)
  setStation d s { y with motion := 0, hold := none, holding := false }

def stationFault (d : Dev) (s cause : Nat) : Dev :=
  let st := stationOf d s
  if d.enabled (pageStn s) && !st.fault then
    raise (decelerate (interruptIsland (setStation d s { st with fault := true }) s) s) (pageStn s) 9 clsMotion sevFault 0x0539
      (pay s cause 0 0)
  else d

/-- Whether a cause of a station fault is there: an axis in AXIS_FAULT, a faulted channel, or the station's lane not UP
(R230). -/
def stationCause (d : Dev) (s : Nat) : Bool :=
  (List.range 3).any (fun k => (d.axes.get (same {}) (3 * s + k)).fault || (channelOf d (3 * s + k)).fault) ||
    (partnerLane d s).isNone

/-- CTL.ENABLE of a station rises: its fault clears where its cause has cleared (R230). -/
def stationEnable (d : Dev) (s : Nat) : Dev :=
  if stationCause d s then d else setStation d s { stationOf d s with fault := false }
/-- The island has left the station: the motion under way goes on with the gate closed, as R207 requires. -/
def finishMotion (d : Dev) (s : Nat) : Dev :=
  let st := stationOf d s
  setStation d s { st with
    hold := none, holding := false, path := st.path.map fun p => { p with dark := true }
    motion := if st.path.isSome then st.motion else 0 }

/-- CTL.ENABLE of a station falls (R231). -/
def stationDisable (d : Dev) (s : Nat) : Dev := finishMotion (interruptIsland d s) s

/-! ### Measured spot (R212, R213) -/

/-- The count of an axis in the cycle: its sample, or the extrapolation of R213. -/
def measuredCount (d : Dev) (j : Nat) : Int :=
  let c := channelOf d j
  let a := (d.axes.get (same {}) j).refAcc
  if c.gap = 0 then c.repPos
  else (c.repPos : Int) + (2 * c.repV1 * c.gap + a * c.gap * c.gap) / 131072

/-- R212, for a station that has a setpoint; where J is singular the spec gives no spot, and the offset from the commanded
point is a free value. -/
def measureSpot (d : Dev) (s : Nat) : Dev :=
  let st := stationOf d s
  if !d.enabled (pageStn s) && !st.placed then d
  else
    let x := st.cmd.x
    let y := st.cmd.y
    let c := commandTargets d s x y
    let dx := signed 32 (wrap32 (measuredCount d (3 * s) - c.1))
    let dy := signed 32 (wrap32 (measuredCount d (3 * s + 1) - c.2.1))
    let vx := (channelOf d (3 * s)).repV1
    let vy := (channelOf d (3 * s + 1)).repV1
    match stationInverse d s x y dx dy, stationInverse d s x y vx vy with
    | some (nx, ny, den), some (wx, wy, dv) =>
      let sx := wx * 65536 / (dv * 1250)
      let sy := wy * 65536 / (dv * 1250)
      setStation d s { st with
        spotX := x + nx * 65536 / den, spotY := y + ny * 65536 / den, spotVx := sx, spotVy := sy
        speed := Nat.sqrt (((sx * sx + sy * sy) * 62500000000 / 2 ^ 64).toNat) }
    | _, _ =>
      let a := d.fresh
      let b := a.2.fresh
      setStation b.2 s { st with
        spotX := x + nm16 (signed 32 (a.1.toNat % 2 ^ 32)), spotY := y + nm16 (signed 32 (a.1.toNat >>> 32))
        spotVx := signed 32 (b.1.toNat % 2 ^ 32), spotVy := signed 32 (b.1.toNat >>> 32) }

def Station.spotNmX (st : Station) : Int := st.spotX / 65536
def Station.spotNmY (st : Station) : Int := st.spotY / 65536
/-- The station rests at the hold point of a yield. -/
def Station.atHold (st : Station) : Bool :=
  st.motion == 5 && st.holding && st.path.isNone && st.hold.isSome && st.hold != some .starved
/-- The spot cell (R146): of the resume point for a station that holds in this cycle. -/
def Station.spotCell (st : Station) : Nat × Nat :=
  if st.heldCell then (cellClip (st.resume.1 / 65536), cellClip (st.resume.2 / 65536))
  else (cellClip st.spotNmX, cellClip st.spotNmY)
def cellBox (c : Nat × Nat) : CellBox := ⟨c.1, c.2, c.1, c.2⟩

/-! ### Spot compare (R232, R233) -/

def cmpEnds (d : Dev) (s : Nat) (bitNo sev code : Nat) (coord : Int) : Dev :=
  let d1 := (setStation d s { stationOf d s with cmpArmed := false, cmpNew := false }).setFld (pageStn s) 0x050 0 1 0
  raise d1 (pageStn s) bitNo clsMotion sev code (pay s 0 0 (unsigned 32 coord))

def spotCompare (d : Dev) (s : Nat) : Dev :=
  let st := stationOf d s
  let p := pageStn s
  if !st.cmpArmed then d
  else
    let onY := d.flag p 0x050 1
    let dir := d.fld p 0x050 2 2
    let pos := d.sfld p 0x054 0 32
    let coord := if onY then st.spotNmY else st.spotNmX
    let v := if onY then st.spotVy else st.spotVx
    let fire := cmpEnds d s 6 sevInfo 0x0536 coord
    if st.cmpNew then
      let passed := if dir = 0 then decide (pos ≤ coord) else if dir = 1 then decide (coord ≤ pos)
        else (decide (0 < v) && decide (pos < coord)) || (decide (v < 0) && decide (coord < pos))
      if passed then
        if d.flag p 0x050 4 then fire else cmpEnds d s 7 sevNotice 0x0537 coord
      else setStation d s { st with cmpNew := false, cmpLast := coord }
    else
      let up := decide (st.cmpLast < pos ∧ pos ≤ coord)
      let down := decide (pos < st.cmpLast ∧ coord ≤ pos)
      if (dir == 0 && up) || (dir == 1 && down) || (dir == 2 && (up || down)) then fire
      else setStation d s { st with cmpLast := coord }

/-- Group 4 applied: the compare is armed where ARM is 1 (R232). -/
def spotCompareArm (d : Dev) (s : Nat) : Dev :=
  let on := d.flag (pageStn s) 0x050 0
  setStation d s { stationOf d s with cmpArmed := on, cmpNew := on }

/-! ### Melt-pool loop (R221 to R228, R445) -/

def profileReg (d : Dev) (s n off lo w : Nat) : Nat := d.fld (pageStn s) (0x140 + 16 * n + off) lo w

/-- R225 for the pour that applies; the stale limit has its own event. -/
def meltLoop (d : Dev) (s : Nat) : Dev :=
  let st := stationOf d s
  match (islandPoursOf d s)[st.pour]? with
  | none => setStation d s { st with stats := none }
  | some p =>
    if !d.flag (pageStn s) 0x048 0 || pourLoopHold p then setStation d s { st with k := 16384, stats := none }
    else
      let n := pourProfile p
      let lo : Int := profileReg d s n 8 0 16
      let hi : Int := profileReg d s n 8 16 16
      let cam : Station × Bool := match st.stats with
        | some (mean, peak, area) =>
          let src := profileReg d s n 0 0 2
          let stat := if src = 0 then mean else if src = 1 then peak else area
          let set := profileReg d s n 0 16 16
          let e := ((set : Int) - stat) * 16384 / max 1 (set : Int)
          let raw := st.kCam + ((profileReg d s n 4 0 16 : Nat) : Int) * e / 65536
          let c := clampInt lo hi raw
          ({ st with kCam := c.toNat, openCycles := 0, stats := none }, c != raw)
        | none =>
          -- the cycles that R226 counts are consecutive; its action comes before k of this cycle
          let open1 := if st.applied.openTicks = 1250 then st.openCycles + 1 else 0
          let init := open1 == 8 * d.fld (pageStn s) 0x124 0 8 && d.flag (pageStn s) 0x048 1
          ({ st with openCycles := open1, kCam := if init then profileReg d s n 12 0 16 else st.kCam }, false)
      let y := cam.1
      let set := profileReg d s n 12 16 16
      let e := ((set : Int) - st.pd) * 16384 / max 1 (set : Int)
      let raw := (y.kCam : Int) + y.kCam * (((profileReg d s n 4 16 16 : Nat) : Int) * e / 65536) / 16384
      let k : Int := if st.applied.gate0 then clampInt lo hi raw else y.kCam
      let hit := cam.2 || (st.applied.gate0 && k != raw)
      let d1 := setStation d s { y with k := k.toNat }
      if hit then raise d1 (pageStn s) 4 clsProcess sevNotice 0x0534 (pay s 0 (if cam.2 then y.kCam else k.toNat) 0) else d1

/-- The gate has been open too long without a usable frame (R226): pennant and event, and the count starts again. The
action stands since the computation that reached the limit (R225). -/
def staleLoop (d : Dev) (s : Nat) : Dev :=
  let st := stationOf d s
  let limit := 8 * d.fld (pageStn s) 0x124 0 8
  match (islandPoursOf d s)[st.pour]? with
  | some p =>
    if d.computes && d.flag (pageStn s) 0x048 0 && decide (limit ≤ st.openCycles) then
      let act := d.fld (pageStn s) 0x048 1 1
      let d1 := setStation d s { st with
        openCycles := 0, kCam := if act = 1 then profileReg d s (pourProfile p) 12 0 16 else st.kCam }
      raise d1 (pageStn s) 3 clsProcess sevWarning 0x0533 (pay s act 0 0)
    else d
  | none => d

/-! ### Yields and holds (R146 to R153, R229, R456) -/

/-- The lowest-numbered station to which `s` yields (R148). -/
def plumeYield (d : Dev) (s : Nat) : Option Nat :=
  let cell (t : Nat) : CellBox := cellBox (stationOf d t).spotCell
  let decidedAt (t : Nat) : Nat := match d.heats.running, (stationOf d t).island with
    | some x, some key => (x.island key).decided
    | _, _ => 0
  (List.range 32).find? fun t =>
    t != s && (stationOf d t).applied.emits && (corridor d (cell t)).overlaps (cell s) &&
      !((corridor d (cell s)).overlaps (cell t) && decide (decidedAt s < decidedAt t))
/-- R149. -/
def carriageYield (d : Dev) (s : Nat) : Bool :=
  let row := (stationOf d s).spotCell.2
  let b := carriageBand d
  decide (b.1 ≤ row ∧ row ≤ b.2)
/-- The ensign and interlock conditions of R229. -/
def permitted (d : Dev) : Bool := d.computes && !d.mould.latched
/-- The cause for which station `s` yields in this cycle, a carriage hold first (R153). -/
def yieldCause (d : Dev) (s : Nat) : Option (HoldCause × Nat) :=
  if carriageYield d s then some (.carriage, 0)
  else match plumeYield d s with
    | some t => some (.plume, t)
    | none => if permitted d then none else some (.permission, 0)

/-- The next pour from `i` on that is not DARK. -/
def nextLit (ps : List (BitVec 256)) (i : Nat) : Option Nat :=
  (List.range (ps.length - i)).find? (fun k => match ps[i + k]? with | some p => !pourDark p | none => false) |>.map (i + ·)

/-- The hold is entered: pennant, count and record (R153). -/
def reportHold (d : Dev) (s : Nat) (c : HoldCause × Nat) : Dev :=
  match c.1 with
  | .carriage => raise (d.count pageSch 0x088) pageSch 7 clsProcess sevNotice 0x0511 (pay s 0 0 0)
  | .plume => raise (d.count pageSch 0x084) pageSch 6 clsProcess sevNotice 0x0510 (pay s c.2 0 0)
  | _ => d

/-- The run along a DARK pour whose station will hold: in REST mode it ends at rest (R150). -/
def endsForHold (d : Dev) (s t1 : Nat) (p : Path) : Path :=
  if p.onPour && !flying d s && decide (t1 < p.finish) && (p.evx != 0 || p.evy != 0) then
    let r := p.px.run (t1 - p.start)
    planMark d s p.pour p.index t1 (ofFine r.p) r.v 0 true p.f0
  else p

/-- An executing station yields in the cycle that ends at `t1` (R150). A marked pour that has ended by then is resumed at
its end. -/
def yieldStation (d : Dev) (s : Nat) (c : HoldCause × Nat) (t1 : Nat) : Dev :=
  let st := stationOf d s
  let ps := islandPoursOf d s
  let marking := match st.path with
    | some p => if st.motion == 3 && !p.dark then some p else none
    | none => none
  match marking with
  | some p =>
    let r := p.px.run (t1 - p.start)
    let k := p.kin t1
    let v1 := if flying d s then pourCap d s p.pour else 0
    let tg := tangentAt p.pour (pourLength p.pour)
    -- the run goes on as planned where its end speed stays
    let rest := if p.finish ≤ t1 ∨ (p.evx = mul96 v1 tg.1 ∧ p.evy = mul96 v1 tg.2) then { p with dark := true }
      else planMark d s p.pour p.index t1 (ofFine r.p) r.v v1 true p.f0
    reportHold (setStation d s { st with
      path := some rest, motion := 4, hold := some c.1, resume := (k.x, k.y)
      resumeAt := some (min (ofFine r.p) (pourLength p.pour)), starvedTold := false
      holdAt := pointAt p.pour (pourLength p.pour)
      gateEnd := false, armed := false, fireNext := false }) s c
  | none =>
    let from0 := if st.motion = 1 ∨ st.motion = 2 ∨ st.motion = 5 then st.pour else st.pour + 1
    -- a mark that ended within the cycle at the junction with a DARK pour is closed too
    let shut := { st with gateEnd := false, armed := false, fireNext := false }
    match (if st.resumeAt.isSome && from0 == st.pour then some st.pour else nextLit ps from0) with
    | none => setStation d s shut
    | some i =>
      match ps[i]? with
      | none => setStation d s shut
      | some p =>
        let r := if i = st.pour then st.resumeAt else none
        let e := pointAt p (r.getD 0)
        reportHold (setStation d s { shut with
          hold := some c.1, resume := e, holdAt := e, resumeAt := r, path := st.path.map (endsForHold d s t1) }) s c

/-- R148 to R150 for a station that is executing an island and does not hold yet. A station that waits for a pour (R196)
holds already: it enters no other hold (DESIGN CHOICE, log entry 76). One whose island is ACTIVE and that has not yet taken
its first pour is not executing: it tests no yield (DESIGN CHOICE, log entry 82). -/
def checkYield (d : Dev) (s t1 : Nat) : Dev :=
  let st := stationOf d s
  if st.active && st.begun && !st.ended && st.hold.isNone then
    match yieldCause d s with
    | some c => yieldStation d s c t1
    | none => d
  else d

/-! ### The trajectory of one cycle (R196 to R207) -/

/-- POUR_STARVED, once per wait (R196). -/
def starve (d : Dev) (s : Nat) : Dev :=
  let st := stationOf d s
  if st.starvedTold then d
  else raise (setStation d s { st with starvedTold := true }) (pageStn s) 0 clsProcess sevWarning 0x0530 (pay s 0 st.pour 0)

/-- The station waits at rest for a pour. -/
def holdStarved (d : Dev) (s : Nat) : Dev :=
  let d1 := starve d s
  setStation d1 s { stationOf d1 s with path := none, motion := 5, hold := some .starved, holding := true, resumeAt := none }

/-- A pour that the spot crosses within a cycle is counted, once (R220). -/
def countShortPour (d : Dev) (s i : Nat) : Dev :=
  let st := stationOf d s
  if st.shortPour = some i then d else setStation (d.count (pageStn s) 0x088) s { st with shortPour := some i }
/-- The run along a pour that has ended by the cycle start `t1`: whether it began and ended within the cycle. -/
def crossed (p : Path) (t1 : Nat) : Bool := p.onPour && p.px.p == 0 && decide (t1 ≤ p.start + cycleSub ∧ p.finish ≤ t1)

/-- Begins the run along pour `i` at the instant `t` with speed `v0`. A pour with POWER = 0 runs as DARK_RUN, as R229's table
has it, though R198 reads MARK for a pour whose DARK flag is clear (DESIGN CHOICE, log entry 81). -/
def beginMark (d : Dev) (s i : Nat) (p : BitVec 256) (t : Nat) (v0 : Int) : Dev :=
  let st := stationOf d s
  let ps := islandPoursOf d s
  let dark := pourUnlit p || (st.passed && st.armedPour == some i)
  let path := planMark d s p i t (st.resumeAt.getD 0) v0 (exitSpeed d s st ps i p) dark (focusOffset d s p)
  let d1 := setStation d s { st with
    path := some path, pour := i, motion := if dark then 4 else 3, moved := true, holding := false
    arcTold := arcCapped d s p, runs := st.runs ++ [(t, i)] }
  -- once for a pour, whose remainder may begin a second run (R204)
  if arcCapped d s p && !(st.arcTold && st.resumeAt.isSome) then
    raise d1 (pageStn s) 5 clsMotion sevInfo 0x0535
      (pay s 0 i (arcCapMm d s p % 65536))
  else d1

/-- The island's first pour sets the camera factor (R223). -/
def firstPour (d : Dev) (s : Nat) (p : BitVec 256) : Dev :=
  setStation d s { stationOf d s with begun := true, kCam := profileReg d s (pourProfile p) 12 0 16, openCycles := 0 }

/-- The pour that a station goes on with when its present motion has ended: the one whose remainder it keeps, the next lit
one for a station that will hold, or the next. -/
def Station.following (st : Station) (ps : List (BitVec 256)) : Nat :=
  let i := if st.motion = 3 ∨ st.motion = 4 then st.pour + 1 else st.pour
  if st.hold.isSome then
    match st.resumeAt with
    | some _ => st.pour
    | none => (nextLit ps i).getD st.pour
  else i

/-- The move towards the next target once the present motion has ended at `t`, from the state `k` (R207): the hold point,
the next pour, or rest at the island's end. A FLYING station reports HOLD while it jumps to its hold point (DESIGN CHOICE,
log entry 81). -/
def nextTarget (d : Dev) (s : Nat) (k : Kin) (ex ey f0 : Int) (t : Nat) : Dev :=
  let st := stationOf d s
  let ps := islandPoursOf d s
  let atRest := k.vx == 0 && k.vy == 0
  if mouldSpeed d s = 0 then
    -- no new motion: the spot comes to rest along its direction and the station holds there (R456)
    let y := stopPath d s st k f0 0 t
    let j := st.following ps
    let left := if j = st.pour then st.resumeAt else none
    let e := match y.path with | some p => (p.ex, p.ey) | none => (k.x, k.y)
    if st.island.isSome && st.begun && !st.ended && (decide (j < ps.length)) then
      let r := match ps[j]? with | some p => pointAt p (left.getD 0) | none => e
      setStation d s { y with
        hold := some (st.hold.getD .speed), holding := true, motion := 5, pour := j, holdAt := e, resumeAt := left
        resume := if st.hold.isSome then st.resume else r }
    -- with its last pour behind it the island has ended (R111)
    else setStation d s { y with
      motion := 0, ended := st.ended || (st.island.isSome && st.begun), resumeAt := if st.begun then none else st.resumeAt }
  else
    match st.hold with
    | some c =>
      if c = .starved then holdStarved d s
      else
        -- to rest at the hold point
        let target := st.holdAt
        let j := st.following ps
        if atRest && decide (k.x = target.1 ∧ k.y = target.2) then
          setStation d s { st with path := none, motion := 5, holding := true, pour := j }
        else
          let f1 := match ps[j]? with | some p => pourFocusAt d s p target.1 target.2 | none => f0
          setStation d s { jumpToRest d s st target.1 target.2 k f0 f1 t with motion := 5, holding := true, pour := j }
    | none =>
      if st.island.isNone || st.ended || !st.begun then
        if atRest then setStation d s { st with path := none, motion := 0 }
        else setStation d s { jumpToRest d s st ex ey k f0 f0 t with motion := 0 }
      else
        let i := st.following ps
        match ps[i]? with
        | none =>
          let d1 := setStation d s { st with ended := true, resumeAt := none }
          if atRest then setStation d1 s { stationOf d1 s with path := none, motion := 0 }
          else setStation d1 s { jumpToRest d1 s (stationOf d1 s) ex ey k f0 f0 t with motion := 0 }
        | some p =>
          if st.available i then setStation d s (jumpToPour d s { st with resumeAt := none } i p k f0 t)
          else holdStarved d s

/-- R196 for the run along a pour at the instant `t`: where the next pour is missing and the run could no longer stop at its
end if it went on to `t2`, it ends there at rest. -/
def brakeCheck (d : Dev) (s t t2 : Nat) : Dev :=
  let st := stationOf d s
  let ps := islandPoursOf d s
  match st.path with
  | some p =>
    if p.onPour && st.hold.isNone && !st.starvedTold && decide (p.index + 1 < ps.length) && !st.available (p.index + 1) &&
        decide (t < p.finish) then
      let r2 := p.px.run (t2 - p.start)
      let len := toFine (pourLength p.pour)
      if decide (p.finish ≤ t2) || decide (len - r2.p < rampDist r2.v 0 (markA d s) (markJ d s)) then
        let r := p.px.run (t - p.start)
        let q := if p.evx == 0 && p.evy == 0 then p else planMark d s p.pour p.index t (ofFine r.p) r.v 0 p.dark p.f0
        starve (setStation d s { st with path := some q }) s
      else d
    else d
  | none => d

/-- A CHAIN pour begins at the instant at which its predecessor ends, where that comes by the cycle start `t1` (R197). `n`
bounds the pours of a cycle. -/
def chainOn (s t1 : Nat) : Nat → Dev → Dev
  | 0, d => d
  | n + 1, d =>
    let st := stationOf d s
    let ps := islandPoursOf d s
    match st.path with
    | some p =>
      if p.onPour && decide (p.finish ≤ t1) && st.hold.isNone && st.island.isSome && chains st ps p.index p.pour &&
          st.available (p.index + 1) && mouldSpeed d s != 0 then
        match ps[p.index + 1]? with
        | some q =>
          let v : Int := Nat.sqrt ((p.evx * p.evx + p.evy * p.evy).toNat)
          let d1 := if crossed p t1 then countShortPour d s p.index else d
          let d2 := beginMark (setStation d1 s { stationOf d1 s with resumeAt := none }) s (p.index + 1) q p.finish v
          chainOn s t1 n (brakeCheck d2 s p.finish t1)
        | none => d
      else d
    | none => d

/-- What follows a motion that ends by the cycle start `t1` other than at a CHAIN junction (R197, R198, R207). A mark that a
jump led to is planned with ENTRY and A_MARK as they stand then, so it can begin at another speed than the jump ended with
(DESIGN CHOICE, log entry 81). -/
def advanceMotion (s t1 : Nat) : Nat → Dev → Dev
  | 0, d => d
  | n + 1, d =>
    let st := stationOf d s
    let ps := islandPoursOf d s
    match st.path with
    | none =>
      -- at rest
      if st.motion = 2 then
        -- SETTLE (R201)
        match ps[st.pour]? with
        | some p =>
          if st.hold.isSome || mouldSpeed d s == 0 then nextTarget d s st.cmd.rest.kin st.cmd.x st.cmd.y st.cmd.focus t1
          else if d.fld (pageStn s) 0x110 16 8 ≤ st.settleRun then
            -- the setpoint leaves the start point in the next cycle (R216, R229)
            advanceMotion s t1 n (chainOn s t1 64 (beginMark d s st.pour p (t1 - cycleSub) 0))
          else d
        | none => d
      else d
    | some p =>
      if t1 < p.finish then d
      else
        let k := p.kin t1
        let f := (pathSetpoint d s p t1).focus
        if !p.onPour && st.motion == 1 && st.hold.isNone && st.island.isSome then
          -- a jump has reached its pour
          match ps[st.pour]? with
          | some q =>
            if flying d s then
              if mouldSpeed d s = 0 then nextTarget d s k p.ex p.ey f t1
              else advanceMotion s t1 n (beginMark d s st.pour q p.finish (pourCap d s q))
            else setStation d s { st with path := none, motion := 2, settleRun := 0 }
          | none => d
        else nextTarget (if crossed p t1 then countShortPour d s p.index else d) s k p.ex p.ey f t1

/-- A station that waits for a pour goes on once it is there (R196); one whose island starts takes its first pour. -/
def takePour (d : Dev) (s t1 : Nat) : Dev :=
  let st := stationOf d s
  let ps := islandPoursOf d s
  if st.island.isSome && st.active && st.path.isNone && st.remap.isNone && !st.ended then
    if !st.begun then
      match ps[0]? with
      | some p =>
        if mouldSpeed d s = 0 then setStation d s { st with motion := 5, holding := true }
        else if st.available 0 then
          let d1 := firstPour d s p
          setStation d1 s (jumpToPour d1 s { stationOf d1 s with hold := none, resumeAt := none } 0 p st.next.rest.kin st.next.focus t1)
        else holdStarved d s
      | none => d
    else if st.motion = 5 ∧ st.hold = some .starved then
      match ps[st.pour + 1]? with
      | some p =>
        if st.available (st.pour + 1) && mouldSpeed d s != 0 then
          setStation d s (jumpToPour d s { st with hold := none, resumeAt := none } (st.pour + 1) p st.next.rest.kin st.next.focus t1)
        else d
      | none => d
    else d
  else d

/-- Following error within the settle bound, counted over consecutive cycles (R201). -/
def countSettle (d : Dev) (s : Nat) : Dev :=
  let st := stationOf d s
  if st.motion = 2 then
    let err := d.fld (pageStn s) 0x110 0 16
    let inside := decide ((st.spotX - st.cmd.x).natAbs ≤ err * 65536 ∧ (st.spotY - st.cmd.y).natAbs ≤ err * 65536)
    setStation d s { st with settleRun := if inside then st.settleRun + 1 else 0 }
  else d

/-- The setpoint for the start of the next cycle: of the motion under way, or of the one that ended within the cycle
(R197). `old` is the motion as the computation began. -/
def newSetpoint (d : Dev) (s t1 : Nat) (old : Option Path) : Dev :=
  let st := stationOf d s
  let sp := match st.path, old with
    | some p, _ => if p.start ≤ t1 then pathSetpoint d s p t1 else st.cmd
    | none, some p => (pathSetpoint d s p t1).rest
    | none, none => st.cmd.rest
  -- a motion planned on the bed ends the hold at raw counts (R439)
  setStation d s { st with next := sp, raw := if st.path.isSome then none else st.raw }

/-- A motion of a station in SERVICE that ends by the cycle start `t1`. Service moves end at rest; a motion of before the run
that ends at speed is followed by a jump to rest (R197, R207). -/
def serviceMotion (d : Dev) (s t1 : Nat) : Dev :=
  let st := stationOf d s
  match st.path with
  | some p =>
    if t1 < p.finish then d
    else if p.evx = 0 ∧ p.evy = 0 then setStation d s { st with path := none }
    else setStation d s (jumpToRest d s st p.ex p.ey (p.kin t1) (pathSetpoint d s p t1).focus (pathSetpoint d s p t1).focus t1)
  | none => d

/-- The trajectory computation of cycle n for one station (R197). Service motions are planned by the run. -/
def trajectory (d : Dev) (s : Nat) : Dev :=
  let t1 := cycleAt (d.cycle + 1)
  let old := (stationOf d s).path
  let under := match old with | some p => if p.onPour then [(p.start, p.index)] else [] | none => []
  if (stationOf d s).service then
    let st := stationOf d s
    newSetpoint (serviceMotion (setStation d s { st with runs := under }) s t1) s t1 old
  else
    let d1 := countSettle (setStation d s { stationOf d s with runs := under }) s
    let d2 := checkYield (chainOn s t1 64 d1) s t1
    let mid := (stationOf d2 s).path
    let d3 := brakeCheck (advanceMotion s t1 64 d2) s t1 (t1 + cycleSub)
    takePour (newSetpoint d3 s t1 mid) s t1

/-! ### Gate and power (R214 to R222, R229) -/

/-- First offset of the next cycle at which the predicted arc length reaches `target` (R215): position in 2⁻¹⁶ nm, speed
in 2⁻³² nm per tick, acceleration in 2⁻¹²⁸ nm per tick². -/
def firstOffset (s v a target : Int) : Option Nat :=
  (List.range 1250).find? fun o =>
    let t : Int := ((1250 + o : Nat) : Int)
    decide (target ≤ s + v * t / 65536 + a * t * t / 2 ^ 113)

/-- The pour that the compares of this computation belong to: the armed one, or the one that is marked. -/
def gatePour (st0 st : Station) (ps : List (BitVec 256)) : Option (Nat × BitVec 256) :=
  let i := if st.armed || st.fireNext then st.armedPour.getD st.pour else match st0.path with
    | some p => if p.onPour then p.index else st0.pour
    | none => st0.pour
  (ps[i]?).map fun p => (i, p)

/-- The pour whose open compare this computation arms, if any (R216): the one that a jump or a run without emission reaches
within 2 cycles, or the one at which SETTLE has ended. -/
def armsNow (d : Dev) (s : Nat) (st0 : Station) : Option Nat :=
  let st := stationOf d s
  let new (i : Nat) : Option Nat := if st.armedPour = some i then none else some i
  match st.path with
  | some p =>
    let soon := decide (p.finish ≤ cycleAt (d.cycle + 2))
    if st.armed || st.hold.isSome then none
    else if !p.onPour then (if st.motion == 1 && flying d s && soon then new st.pour else none)
    else if st.motion == 3 && !flying d s && st0.motion == 2 then new p.index
    else if p.dark then (if soon && chains st (islandPoursOf d s) p.index p.pour then new (p.index + 1) else none)
    else if !st.gateEnd && (match st0.path with | some q => q.onPour && q.dark && q.index < p.index | none => false) then
      -- begun within the cycle after a run without emission
      new p.index
    else none
  | none => none

/-- Spot projected on a pour: arc length, lateral distance, speed along it (2⁻³² nm per tick), commanded acceleration along
it (R214, R215). -/
def project (st : Station) (p : BitVec 256) : Int × Nat × Int × Int :=
  let pr := projectOn p st.spotX st.spotY
  let tg := tangentAt p pr.1
  let a := match st.path with
    | some q => if q.onPour && q.pour == p then st.next.along else mul96 st.next.ax tg.1 + mul96 st.next.ay tg.2
    | none => 0
  (pr.1, pr.2, mul96 st.spotVx tg.1 + mul96 st.spotVy tg.2, a)

/-- The chain from pour `i` on: the distance from its start point to the close compare (R217). -/
def closeAt (st : Station) (ps : List (BitVec 256)) : Nat → Nat → Int
  | 0, _ => 0
  | n + 1, i =>
    match ps[i]? with
    | none => 0
    | some p => pourLength p + (if chains st ps i p then closeAt st ps n (i + 1) else 0)

/-- The pour of the chain that holds arc length `x` measured from pour `i` (R220). -/
def holdsPoint (st : Station) (ps : List (BitVec 256)) : Nat → Nat → Int → Nat
  | 0, i, _ => i
  | n + 1, i, x =>
    match ps[i]? with
    | none => i
    | some p => if pourLength p ≤ x ∧ chains st ps i p then holdsPoint st ps n (i + 1) (x - pourLength p) else i

/-- POWER_CMD of R221 for a pour, before the mould's limit. -/
def powerCommand (d : Dev) (s : Nat) (p : BitVec 256) (v a : Int) : Nat :=
  let st := stationOf d s
  let vp := max 0 ((v * 2 ^ 96 + a * 1875) * 250000 / fineUnit)
  let r := min (vp.toNat * 16384 / (max 1 (pourSpeed p) * 1000)) (d.fld (pageStn s) 0x118 0 16)
  let power := pourPower p * (calStation d s).ptrim / 16384
  power * r / 16384 * st.k / 16384

/-- The mould's conditions on emission in the next cycle (R454 to R457, R463). It is asked of a station whose gate would
otherwise open: nothing else is denied (DEDUCED, log entry 47). -/
def mouldCheck (d : Dev) (s : Nat) : Bool × Dev :=
  let st := stationOf d s
  let px := (st.spotX + st.spotVx * 2500 / 65536) / 65536
  let py := (st.spotY + st.spotVy * 2500 / 65536) / 65536
  -- velocities in 2⁻³² nm per tick: 1 mm/s is 0.004 nm per tick
  let lim : Nat := mouldSpeed d s * 17 * 4 * 2 ^ 32 / 16000
  let sq := (st.spotVx * st.spotVx + st.spotVy * st.spotVy).toNat
  let c := st.spotCell
  let r := mouldDenies d s st.spotNmX st.spotNmY px py sq (lim * lim) (st.speed / 1000) (some (c.2 * 512 + c.1))
  (r.1 || !d.enabled pageMld || d.mould.latched || !d.boot.sealLoaded, r.2)

/-- The clamp of the power command (R221, R459). -/
def limitPower (d : Dev) (s cmd : Nat) : Nat × Dev :=
  if mouldPower d s < cmd then (mouldPower d s, clampPower d s cmd) else (cmd, d)

def axisOk (d : Dev) (j : Nat) : Bool :=
  d.enabled pageSrv && d.enabled (pageAxs j) && !(d.axes.get (same {}) j).fault
def axesOk (d : Dev) (s : Nat) : Bool :=
  (List.range 3).all fun k => axisOk d (3 * s + k) && !(channelOf d (3 * s + k)).fault

/-- The open compare of pour `i` is armed or PASSED (R216). A pour that its run has begun already goes on as DARK_RUN. -/
def armCompare (d : Dev) (s i : Nat) (p : BitVec 256) : Dev :=
  let st := { stationOf d s with armedPour := some i }
  let at0 := (project st p).1 - (if i = st.pour then st.resumeAt.getD 0 else 0)
  if at0 < nm16 (d.fld (pageStn s) 0x114 16 16) then setStation d s { st with armed := true, passed := false }
  else if d.flag (pageStn s) 0x044 0 then setStation d s { st with fireNext := true, passed := false }
  else
    let begun := match st.path with | some q => q.onPour && q.index == i | none => false
    let y := if begun then { st with motion := 4, path := st.path.map fun q => { q with dark := true } } else st
    raise ((setStation d s { y with passed := true }).count (pageStn s) 0x084) (pageStn s) 1 clsProcess sevNotice 0x0531
      (pay s 0 i (unsigned 32 (at0 / 65536)))

/-- The firing fields of the frame for cycle n + 1 while the station executes an island. `st0` is the station as the cycle
began. -/
def gateFrame (d0 : Dev) (s : Nat) (st0 : Station) : Dev :=
  let ps := islandPoursOf d0 s
  -- arming (R216)
  let d := match armsNow d0 s st0 with
    | none => d0
    | some i =>
      match ps[i]? with
      | none => d0
      | some p =>
        if pourUnlit p then d0 else armCompare d0 s i p
  -- a gate left open closes with the mark it belongs to
  let own := (stationOf d s).gatePour
  let kept := (stationOf d s).gateEnd &&
    (st0.motion == 3 || (st0.motion == 1 && st0.pour == own) || (st0.motion == 4 && decide (st0.pour < own)))
  let st := { stationOf d s with gateEnd := kept }
  let none0 : Frame := {}
  match gatePour st0 st ps with
  | none => setStation d s { st with sent := none0, gateEnd := false }
  | some (i, p) =>
    let m := project st p
    let base := if i = st.pour then st.resumeAt.getD 0 else 0
    let begun := match st.path with | some q => q.onPour && q.index == i | none => false
    let close := closeAt st ps 64 i
    let closed := decide (close ≤ m.1)
    let offOpen : Option Nat :=
      if st.armed then
        (if flying d s then firstOffset m.1 m.2.2.1 m.2.2.2 base else if begun then some 0 else none)
      else if st.fireNext then some 0 else none
    let offClose : Option Nat := if closed then some 0 else firstOffset m.1 m.2.2.1 m.2.2.2 close
    -- the frame that the compares ask for, and the gate as they leave it
    let want : Frame × Bool × Bool :=
      if st.gateEnd then
        match offClose with
        | some 0 => (none0, false, false)
        | some o => ({ none0 with gate0 := true, off := o }, false, false)
        | none => ({ none0 with gate0 := true }, true, false)
      else
        match offOpen, offClose with
        | none, _ => (none0, false, false)
        | some a, some b =>
          if b ≤ a then (none0, false, true)
          else if a = 0 then ({ none0 with gate0 := true, off := b }, false, false)
          else ({ none0 with on := a, off := b }, false, false)
        | some a, none => if a = 0 then ({ none0 with gate0 := true }, true, false) else ({ none0 with on := a }, true, false)
    let fired := offOpen.isSome && !st.gateEnd
    let d1 := if want.2.2 then countShortPour d s i else d
    let d2 := setStation d1 s { stationOf d1 s with
      gateEnd := want.2.1, armed := st.armed && !fired, fireNext := st.fireNext && !fired
      gatePour := if fired then i else st.gatePour }
    -- permission (R218, R229)
    let lateral := decide (d.fld (pageStn s) 0x114 0 16 * 65536 < m.2.1)
    let wants := want.1.emits
    let d3 := if lateral && wants then
        raise (d2.count (pageStn s) 0x08C) (pageStn s) 2 clsProcess sevWarning 0x0532 (pay s 0 i (m.2.1 / 65536))
      else d2
    let marked := st0.motion == 3 || fired
    -- the pour that holds the predicted spot at offset 0
    let s0 := m.1 + m.2.2.1 * 1250 / 65536 + m.2.2.2 * 1562500 / 2 ^ 113
    let q := (ps[holdsPoint st ps 64 i s0]?).getD p
    let asked := wants && marked && !lateral && axesOk d s && permitted d && st.hold.isNone &&
      !pourUnlit q && d.enabled (pageStn s) && st.active
    let mould := if asked then mouldCheck d3 s else (true, d3)
    if mould.1 then setStation mould.2 s { stationOf mould.2 s with sent := none0 }
    else
      let pw := limitPower mould.2 s (powerCommand mould.2 s q m.2.2.1 m.2.2.2)
      setStation pw.2 s { stationOf pw.2 s with sent := { want.1 with power := pw.1 } }

/-- The gate of a service step (R426): from offset 0, where the mould, axes, feedback, ensign and interlock allow it. -/
def serviceFrame (d : Dev) (s : Nat) : Dev :=
  let st := stationOf d s
  match st.serviceGate with
  | some level =>
    let mould := mouldCheck d s
    if !mould.1 && axesOk d s && permitted d then
      let pw := limitPower mould.2 s level
      setStation pw.2 s { stationOf pw.2 s with sent := { gate0 := true, power := pw.1 }, denied := false }
    else setStation mould.2 s { stationOf mould.2 s with sent := {}, denied := mould.1 }
  | none => setStation d s { st with sent := {}, denied := false }

/-- One station's computation of the cycle: spot compare, loop, trajectory, gate and power; then whether its island
completes at the next cycle start (R111). Exposure fields stay as imaging set them. -/
def stationCycle (d0 : Dev) (s : Nat) : Dev :=
  let exp := (stationOf d0 s).sent
  let d1 := meltLoop (spotCompare d0 s) s
  let st0 := stationOf d1 s
  let d2 := trajectory d1 s
  let d3 :=
    if st0.service then serviceFrame d2 s
    else if (stationOf d2 s).island.isSome && (stationOf d2 s).active then gateFrame d2 s st0
    else setStation d2 s { stationOf d2 s with sent := {}, gateEnd := false, armed := false }
  let st := stationOf d3 s
  setStation d3 s { st with
    sent := { st.sent with expose := exp.expose, expTicks := exp.expTicks }
    completeNow := st.ended && !st.sent.emits }

/-! ### Cycle boundary -/

/-- The frame and the setpoint of the last computation apply at the start of the cycle (R24). -/
def applyStationFrame (d : Dev) (s : Nat) : Dev :=
  let st := (stationOf d s).rollLoads
  let now := d.cycle * 1250
  let f := st.sent
  let since : Option Nat :=
    if f.gate0 && decide (1250 ≤ f.off) then (match st.openSince with | some t => some t | none => some now)
    else if decide (f.on < 1250) && decide (1250 ≤ f.off) then some (now + f.on)
    else none
  setStation d s { st with
    applied := f, sent := {}, cmd := st.next, heldCell := st.atHold, openSince := since, openBefore := st.openSince, uplink := none }

/-- The islands whose stations reached their end complete (R111). -/
def completeIslands (d : Dev) : Dev :=
  upto 32 (fun d s => if (stationOf d s).completeNow then completeIsland d s else d) d

/-- The bed point whose targets are the counts `c`, by twelve steps of R212's J⁻¹ from the point `p`; none where J is
singular on the way. -/
def bedOfCounts (d : Dev) (s : Nat) (c : Nat × Nat) (p : Int × Int) : Option (Int × Int) :=
  (List.range 12).foldl (fun q _ => q.bind fun a =>
    let t := stationTargets d s a.1 a.2
    (stationInverse d s a.1 a.2 (countDiff c.1 t.1) (countDiff c.2 t.2.1)).map fun r =>
      (a.1 + r.1 * 65536 / r.2.2, a.2 + r.2.1 * 65536 / r.2.2)) (some p)

/-- The held point after a table or drift change (R211, R442): the jump from the old counts to the new ones, as seen
through the new table. A return jump under way is completed first (R207), a station in SERVICE makes the move after its
run, and one whose MLD_VEL is 0 when it may move again (R456). A homing shift in SERVICE (R299) is held in raw counts until
the next service move, and so is a point at which J is singular, for good. -/
def remapMove (d : Dev) (s : Nat) : Dev :=
  let st := stationOf d s
  match st.remap, st.path with
  | none, _ | some _, some _ => d
  | some old, none =>
    let held : Nat × Nat := match st.raw with | some (cx, cy, _, _) => (wrap32 cx, wrap32 cy) | none => old
    let raw : Option (Int × Int × Int × Int) := some ((held.1 : Int), (held.2 : Int), 0, 0)
    let p := bedOfCounts d s held (st.cmd.x, st.cmd.y)
    if st.service && st.raw.isSome then d
    else if st.service then
      let q := p.getD (st.cmd.x, st.cmd.y)
      let at0 (x : Setpoint) : Setpoint := { x.rest with x := q.1, y := q.2 }
      setStation d s { st with remap := none, raw := raw, cmd := at0 st.cmd, next := at0 st.next, moved := true }
    else if mouldSpeed d s = 0 then d
    else
      match p with
      | some q =>
        let c := stationTargets d s st.cmd.x st.cmd.y
        let y := jumpToRest d s { st with remap := none } st.cmd.x st.cmd.y ⟨q.1, q.2, 0, 0, 0, 0, 0⟩ st.cmd.focus (signed 32 c.2.2)
          (cycleAt (d.cycle + 1))
        setStation d s { y with motion := 0, cmd := { st.cmd with x := q.1, y := q.2 } }
      | none => setStation d s { st with remap := none, raw := raw }

/-! ### Resuming from a hold (R151, R229, R456) -/

/-- Whether the cause of a hold has gone, by the cell of the resume point (R151). -/
def mayResume (d : Dev) (s : Nat) : Bool :=
  let e := setStation d s { stationOf d s with heldCell := true }
  (plumeYield e s).isNone && !carriageYield e s && permitted d && mouldSpeed d s != 0

/-- The holding station resumes towards its pour or its remainder. -/
def resumeStation (d : Dev) (s : Nat) : Dev :=
  let st := stationOf d s
  if d.computes && st.motion == 5 && st.holding && st.path.isNone && st.hold.isSome && st.hold != some .starved && mayResume d s then
    match (islandPoursOf d s)[st.pour]? with
    | some p =>
      setStation d s (jumpToPour d s { st with hold := none, passed := false } st.pour p st.next.rest.kin st.next.focus
        (cycleAt (d.cycle + 1)))
    | none => d
  else d

/-! ### Meanings -/

/-- R151. -/
def execHoldResume (s : Fin 32) (st : State) : Host.Outcome State Fault Refusal :=
  onDev st fun d => resumeStation (d.arrive 300) s.val
/-- R226. -/
def execLoopStale (s : Fin 32) (st : State) : Host.Outcome State Fault Refusal := onDev st fun d => staleLoop d s.val
/-- R194. -/
def execPourPrefetch (s : Fin 32) (st : State) : Host.Outcome State Fault Refusal := onDev st fun d => prefetch d s.val

end Sys2Proof.Machine
end

