-- ==== Sys2Proof/Machine/Imaging.lean ====
section
/-! DEFINITION. Melt-pool imaging: contexts, frames, pipelines, overview ports and the archive (R307 to R348). -/
namespace Sys2Proof.Machine

/-- The pipeline of a context (R307). -/
def pipelineOf (c : Nat) : Nat := if c < 32 then c / 8 else (c - 32) / 2

/-! ### Settings as a coming SOF will find them (R45, R339, R340) -/

/-- Context `c` is in TEST or RECOVERY (R340); a disabled one is OFF. -/
def ctxTestOrRecovery (d : Dev) (c : Nat) : Bool := d.enabled (pageCtx c) && (ctxOf d c).mode != 0

/-- A committed group of a context applies at the first SOF from cycle n + 3 on: group 0 always, groups 1 and 2 in TEST
or RECOVERY and before the first heat (R50, R339, R340). -/
def sofGroupDue (d : Dev) (c k g : Nat) : Bool :=
  groupRipe d (pageCtx c) k g && (g == 0 || groupEarly d (pageCtx c) g || ctxTestOrRecovery d c)

/-- A register of a context as a SOF in cycle `k` finds it. -/
def ctxWordAt (d : Dev) (c k off : Nat) : Nat := dueWord d (pageCtx c) off (sofGroupDue d c k)

def ctxParamOffs : List Nat :=
  [0x044, 0x048, 0x04C, 0x050, 0x054, 0x058, 0x05C, 0x100, 0x104, 0x108, 0x10C, 0x110, 0x114, 0x118, 0x11C, 0x120]
def ctxParams (d : Dev) (c k : Nat) : Tab Word :=
  ctxParamOffs.foldl (fun t off => t.set (same 0) off (word (ctxWordAt d c k off))) []
def ctxTablesAt (d : Dev) (c k : Nat) : Tab Word :=
  if sofGroupDue d c k 1 then (ctxOf d c).staged else (ctxOf d c).active

/-- The context receives frames (R345). -/
def ctxOn (d : Dev) (c : Nat) : Bool := d.enabled pageImg && d.enabled (pageCtx c)
/-- The context receives frames in cycle `k`, by the ENABLE bits in use then (R43, R345). -/
def ctxOnAt (d : Dev) (c k : Nat) : Bool := enabledAt d pageImg k && enabledAt d (pageCtx c) k

/-! ### Coaxial exposures (R311, R312, R224, R328) -/

/-- Cycles that an exposure reaches into (R312). -/
def CamFrame.r (f : CamFrame) : Nat := (f.exposure + 1249) / 1250
/-- The cycle at whose tick 1,250 the frame closes (R315). -/
def CamFrame.closeCycle (f : CamFrame) : Nat := f.start + f.r + 8

/-- The frames of context `c` that are open, or that the module is already told to expose at the start of the next
cycle, close before cycle `k` begins (R340). -/
def closedBefore (d : Dev) (c k : Nat) : Bool :=
  let a := (stationOf d c).applied
  let told : CamFrame := { sof := 0, number := 0, start := d.cycle + 1, exposure := a.expTicks, regs := [], tables := [] }
  (ctxOf d c).frames.all (fun f => decide (f.closeCycle < k)) && (!a.expose || decide (told.closeCycle < k))

/-- The camera fields of the frame computed in this cycle, for an exposure two cycles later, under the FRAME_PHASE in
force; the first one under a new phase begins when the frames under the old one have closed (R311, R340). -/
def exposeStep (d : Dev) (c : Nat) : Dev :=
  let k := d.cycle + 2
  let x := ctxOf d c
  let on := ctxOnAt d c k && (k + 8 - d.fld (pageCtx c) 0x044 16 3) % 8 == 0 && (!x.newPhase || closedBefore d c k)
  let st := stationOf d c
  setStation (setCtx d c { x with newPhase := x.newPhase && !on }) c
    { st with sent := { st.sent with expose := on, expTicks := if on then bits (ctxWordAt d c k 0x044) 0 13 else 0 } }

/-- The unit tangent in Q1.14, to nearest (R328). -/
def q14 (t : Int) : Int := (t * 32768 + one96) / (2 * one96)

/-- The travel direction at an exposure start, in the pixel frame. -/
def travel (d : Dev) (c k : Nat) : Int × Int :=
  let st := stationOf d c
  let fmt := ctxWordAt d c k 0x05C
  match st.path with
  | some p =>
    if st.motion = 3 ∧ p.onPour then
      let t := tangentAt p.pour 0
      let a := (q14 t.1, q14 t.2)
      let b := match bits fmt 8 2 with
        | 0 => a | 1 => (-a.2, a.1) | 2 => (-a.1, -a.2) | _ => (a.2, -a.1)
      (b.1, if bit fmt 10 then -b.2 else b.2)
    else (16384, 0)
  | none => (16384, 0)

/-- At a cycle start, before the frames of the last computation apply: the exposure that the module was told to start
here opens a frame. -/
def openCoaxial (d : Dev) (c : Nat) : Dev :=
  let st := stationOf d c
  let x := ctxOf d c
  if st.applied.expose && ctxOnAt d c d.cycle then
    let k := d.cycle
    let u := travel d c k
    let f : CamFrame := {
      sof := k * 1250, number := k / 8 % 65536, start := k, exposure := st.applied.expTicks
      regs := ctxParams d c k, tables := ctxTablesAt d c k, ux := u.1, uy := u.2 }
    setCtx d c { x with frames := x.frames ++ [f], sofAt := k * 1250 + 1 }
  else d

/-- The pour that station `s` marks at tick `t` of the cycle computed last: that of the run begun last by then. -/
def markedAt (d : Dev) (s t : Nat) : Option (BitVec 256) :=
  (((stationOf d s).runs.filter fun r => decide (r.1 ≤ subTicks t)).getLast?).bind fun r => (islandPoursOf d s)[r.2]?

/-- The gate of station `s` was open from tick `a` to tick `b`, `b` within the cycle before this one, whose frame still
stands. -/
def gateOpenWhole (d : Dev) (s a b : Nat) : Bool :=
  let st := stationOf d s
  let now := (d.cycle - 1) * 1250
  let f := st.applied
  if f.gate0 then decide (b ≤ now + min f.off 1250) && decide ((st.openBefore.getD now) ≤ a)
  else decide (f.on < 1250) && decide (now + f.on ≤ a) && decide (b ≤ now + min f.off 1250)

/-- At a cycle start, before the frames of the last computation apply: an exposure that ended in the cycle before is checked
against the gate and the pours of that cycle (R224). -/
def exposureEnds (d : Dev) (c : Nat) : Dev :=
  let x := ctxOf d c
  setCtx d c { x with frames := x.frames.map fun f =>
    if f.start + f.r = d.cycle then
      let e := f.sof + f.exposure
      { f with gated := gateOpenWhole d c f.sof e &&
          (match markedAt d c e with | some p => !pourLoopHold p | none => false) }
    else f }

/-! ### Rows (R314, R315, R320) -/

def badBlock (d : Dev) (c row : Nat) (discarded : Bool) : Dev :=
  let p := pageCtx c
  raise (if discarded then d.count p 0x07C else d) p 3 clsProcess sevNotice 0x0704 (pay c 0 row 0)

def updFrame (d : Dev) (c sof : Nat) (g : CamFrame → CamFrame) : Dev :=
  let x := ctxOf d c
  setCtx d c { x with frames := x.frames.map fun f => if f.sof = sof then g f else f }

/-- Lines in the FIFO of a context: those that wait of its open frames. -/
def fifoLines (x : Ctx) : Nat := (x.frames.map fun f => f.waiting.length).sum

/-- A row reaches the FIFO of its context, or overflows it (R320). -/
def acceptRow (d : Dev) (c sof row : Nat) (pixels : List (BitVec 12)) : Dev :=
  match (ctxOf d c).frames.find? (·.sof == sof) with
  | none => d
  | some f =>
    if f.overflow then d
    else if 16 ≤ fifoLines (ctxOf d c) then
      raise (updFrame d c sof fun f => { f with overflow := true }) (pageCtx c) 2 clsProcess sevWarning 0x0703
        (pay c 0 f.lines.length f.number)
    else updFrame d c sof fun f => { f with lines := f.lines.set (same []) row pixels, waiting := f.waiting ++ [row] }

/-- The pixels of row `j` of a block's data (R313). -/
def blockRow (v j : Nat) : List (BitVec 12) :=
  (List.range 80).map fun i => BitVec.ofNat 12 (bits v (800 * j + 10 * i) 10)
def dataValue : List Long → Nat
  | [] => 0
  | w :: t => w.toNat + (dataValue t) <<< 64

/-- The tick by which a row is on time (R312). -/
def CamFrame.rowDeadline (f : CamFrame) (row : Nat) : Nat := (f.start + f.r + row / 10 + 1) * 1250 + 1000

/-- A block with an invalid sync header on the lane of station `c` (R530, R533). -/
def syncError (d : Dev) (c : Nat) : Dev := match partnerLane d c with | some l => d.count (pageLan l) 0x064 | none => d

/-- A camera block (R313 to R315); `broken`: a sync header in it is invalid, so it is discarded (R314, R516). -/
def cameraBlock (d0 : Dev) (c : Nat) (hdr : Nat) (data : List Long) (broken : Bool) : Dev :=
  let d := if broken then syncError d0 c else d0
  if !(ctxOn d c && d.running && (partnerLane d c).isSome) then d
  else
    let row := bits hdr 16 7
    let count := bits hdr 23 4
    match (ctxOf d c).frames.find? (·.number == bits hdr 0 16) with
    | none => badBlock d c row true
    | some f =>
      if count = 0 ∨ 10 < count ∨ bits hdr 30 26 ≠ 0 ∨ 128 < row + count ∨ data.length ≠ (count * 800 + 63) / 64 ∨ broken = true then
        badBlock d c row true
      else
        let d1 :=
          if bit hdr 27 != (row == 0) || bit hdr 28 != (row + count == 80) then badBlock d c row false else d
        let v := dataValue data
        upto count (fun d j =>
          let y := row + j
          if 80 ≤ y then updFrame d c f.sof fun f => { f with long := true }
          else if f.rowDeadline y < d.tick then d
          else
            let d2 := if bit hdr 29 then updFrame d c f.sof fun f => { f with sat := true } else d
            acceptRow d2 c f.sof y (blockRow v j)) d1

/-! ### Pipelines (R308, R309) -/

def pipeContexts (p : Nat) : List Nat := (List.range 8).map (8 * p + ·) ++ [32 + 2 * p, 33 + 2 * p]
/-- The oldest open frame of a context with a complete line in its FIFO (log entry 30). -/
def oldestFrame (x : Ctx) : Option CamFrame := x.frames.find? fun f => !f.waiting.isEmpty
def hasLine (x : Ctx) : Bool := (oldestFrame x).isSome

/-- The context that pipeline `p` serves next, and whether an overview line was passed over (R309). -/
def pickContext (d : Dev) (p : Nat) : Option Nat × Bool :=
  let all := (pipeContexts p).filter fun c => hasLine (ctxOf d c)
  let skip := (pipeOf d p).overview
  let cs := if skip then all.filter (· < 32) else all
  let best := cs.foldl (fun (b : Option (Nat × Nat)) c =>
    let sof := match (ctxOf d c).frames.head? with | some f => f.sof | none => 0
    match b with
    | some (_, s) => if sof < s then some (c, sof) else b
    | none => some (c, sof)) none
  (best.map Prod.fst, skip && all.any (32 ≤ ·))

/-- The pipeline starts a line as soon as it is free in this cycle: 750 MHz, 2 pixels per clock, 3 clocks per tick. -/
def lineStart (d : Dev) (p : Nat) : Dev :=
  let x := pipeOf d p
  let start := max (3 * d.tick) x.free
  let edge := 3 * 1250 * (d.cycle + 1)
  if d.running && d.enabled pageImg && decide (start < edge) then
    let pick := pickContext d p
    let d1 := if pick.2 && pick.1.isSome then d.count (pageIpl p) 0x068 else d
    match pick.1 with
    | none => d
    | some c =>
      match oldestFrame (ctxOf d c) with
      | none => d
      | some f =>
        let row := f.waiting.foldl min (f.waiting.headD 0)
        let clocks := ((f.lines.get (same []) row).length + 1) / 2
        let d2 := updFrame (d1.advance (start / 3)) c f.sof fun f => { f with waiting := f.waiting.erase row }
        setPipe d2 p { x with
          free := start + clocks, clocks := x.clocks + (min (start + clocks) edge - start), overview := x.overview || decide (32 ≤ c) }
  else d

/-- A cycle begins: BUSY of the last one, and the part of a line that runs on (R347). -/
def pipeCycle (d : Dev) (p : Nat) : Dev :=
  let x := pipeOf d p
  let d1 := (d.setFld (pageIpl p) 0x060 0 12 x.clocks).setFld (pageIpl p) 0x064 0 12 (max x.clocks (d.rfld (pageIpl p) 0x064 0 12))
  setPipe d1 p { x with clocks := min 3750 (x.free - 3 * d.tick), overview := false }

/-! ### Archive (R332 to R336) -/

/-- Codes the ingots of tap data: the bytes, bitmap bits of those stored plain, next ingot index; a plain ingot ends the
stream (R332, R553, R556). -/
def codeIngots (ratio : Nat) : Nat → List Word → List Byte → Nat → Nat × List Byte × List Nat
  | 0, _, bs, _ => (0, bs, [])
  | n + 1, history, bs, i =>
    if bs.length < 256 then (0, bs, [])
    else
      let raw := bs.take 256
      let xs := (List.range 64).map fun k => word (leNat ((raw.drop (4 * k)).take 4))
      match encodeIngot 7 ratio history xs with
      | some out =>
        let r := codeIngots ratio n (pushHistory history xs) (bs.drop 256) (i + 1)
        (r.1, out ++ r.2.1, r.2.2)
      | none =>
        let r := codeIngots ratio n [] (bs.drop 256) (i + 1)
        (r.1 + 2 ^ i, raw ++ r.2.1, i :: r.2.2)

/-- The archive data of a frame: bytes, ingots coded and the indices of those that did not shrink. -/
def tapData (f : CamFrame) (coaxial : Bool) : List Byte × Nat × List Nat :=
  let v := tapValues f (f.shape coaxial) (f.fld 0x054 0 3)
  let bs := packBytes v.1 (v.2.length + 1) v.2
  let ratio := f.fld 0x054 4 2
  if ratio = 0 then (bs, 0, [])
  else
    let n := bs.length / 256
    let r := codeIngots ratio (n + 1) [] bs 0
    (leBytes (4 * ((n + 31) / 32)) r.1 ++ r.2.1, n, r.2.2)

/-- Data at the data position of an archive ring, split where it wraps (R578). -/
def sendData (d : Dev) (r : Nat) (bs : List Byte) : Dev :=
  let log2 := auxLog2 d r
  let base := auxBase d r
  let pos := bits (d.rfld (pageRng r) 0x070 0 31) 0 30
  let head := bs.take (2 ^ log2 - pos)
  let d1 := d.send (.host (base + pos) head)
  let tail := bs.drop (2 ^ log2 - pos)
  let d2 := if tail.isEmpty then d1 else d1.send (.host base tail)
  d2.setReg (pageRng r) 0x070 (auxAdvance log2 (d.rfld (pageRng r) 0x070 0 31) ((bs.length + 63) / 64 * 64))

/-- An archive ring and its data area have room for a frame with `len` bytes of data (R335, R578). -/
def archiveSpace (d : Dev) (r len : Nat) : Bool :=
  decide (ringUsed d r + (ringOf d r).queue.length < 2 ^ ringLog2 d r) &&
    (len == 0 || decide (auxUsed d r + (len + 63) / 64 * 64 ≤ 2 ^ auxLog2 d r))
/-- The archive ring can take a frame. -/
def archiveRoom (d : Dev) (r len : Nat) : Bool := mayWriteRing d r && archiveSpace d r len

/-- The device that writes the records of a context (R336). -/
def archives (d : Dev) (c : Nat) : Bool := decide (32 ≤ c) || d.holds

/-- The frame record (R333). -/
def frameRecord (c : Nat) (f : CamFrame) (st : Stats) (flags len : Nat) : Nat :=
  let common := atByte 0 (f.sof % 2 ^ 64) + atByte 8 c + atByte 9 flags + atByte 10 (f.lines.length % 65536) + atByte 12 st.area +
    atByte 14 st.mean + atByte 16 st.peak + atByte 18 st.cx + atByte 24 len + atByte 28 f.number
  if c < 32 then common + atByte 20 st.cy + atByte 22 st.length + atByte 23 st.spatter else common

/-- CTX_LAST shows the flags of the frame `number`, while it is the last one closed. -/
def showFlags (d : Dev) (c number flags : Nat) : Dev :=
  if d.rfld (pageCtx c) 0x060 0 16 = number % 65536 then d.setFld (pageCtx c) 0x060 16 8 flags else d

/-- A frame's record and data are dropped whole (R335). -/
def archiveDrop (d : Dev) (c number : Nat) : Dev :=
  let d1 := d.count (pageCtx c) 0x078
  raise (setCtx d1 c { ctxOf d1 c with gap := true }) (pageCtx c) 4 clsProcess sevNotice 0x0705 (pay c 0 0 number)

/-- The frame's record, without GAP, and its data as read back go to the archive ring, or are dropped where it cannot take
them (R333, R335); no data: their read failed (R547). The answer is the frame's flags. -/
def archiveDone (d : Dev) (c number record : Nat) (data : Option (List Byte)) : Dev × Nat :=
  let r := 32 + c / 5
  let flags := bits record 72 8
  let dropped := flags - flags / 16 % 2 * 16
  if !archives d c then (d, flags)
  else
    match data with
    | none => (archiveDrop d c number, dropped)
    | some bs =>
      if archiveRoom d r bs.length then
        let gap := boolNat (ctxOf d c).gap <<< 6
        let d1 := if bs.isEmpty then d else sendData d r bs
        (emit (setCtx d1 c { ctxOf d1 c with gap := false }) r .plain (record + atByte 9 gap), flags + gap)
      else (archiveDrop (ringLost d r) c number, dropped)

/-- The same for a frame that has been staged: CTX_LAST follows. -/
def archiveStaged (d : Dev) (c number record : Nat) (data : Option (List Byte)) : Dev :=
  let r := archiveDone d c number record data
  showFlags r.1 c number r.2

/-- What waits in the ingress buffer of a pipeline: 64 bytes for each burst that port CAM_IN has not accepted yet (R545). -/
def ingressFill (d : Dev) (e : Nat) : Nat := 64 * (d.dram.held.filter fun q => q.client == .ingress e).length

/-- Coded data are written to DRAM as camera ingress and read back for DMA (R332). -/
def stageFrame (d : Dev) (c number record : Nat) (bs : List Byte) : Dev :=
  let size := (bs.length + 63) / 64 * 64
  let at0 := if d.dram.cameraAt + size ≤ stagingBytes then d.dram.cameraAt else 0
  let d1 := { d with dram := { d.dram with cameraAt := at0 + size } }
  let a := cameraBase + at0
  match dramRead (dramWrite d1 2 a bs (.ingress (pipelineOf c))) 4 a bs.length (.archive c number record) with
  | (none, d2) => archiveStaged d2 c number record (some (List.replicate bs.length 0))
  | (some _, d2) => d2

/-- On a standby the data position of an archive ring that its holder writes follows the frames that the holder archives (R572,
R578, log entry 90). -/
def followArchive (d : Dev) (c len : Nat) : Dev :=
  let r := 32 + c / 5
  if d.par.role = roleStandby ∧ c < 30 ∧ d.enabled (pageRng r) = true ∧ archiveSpace d r len = true then
    d.setReg (pageRng r) 0x070 (auxAdvance (auxLog2 d r) (d.rfld (pageRng r) 0x070 0 31) ((len + 63) / 64 * 64))
  else d

/-- The frame is archived, or dropped whole (R334, R335). The answer is the frame's flags: of a
frame that is still staged, GAP as its record would carry it now. -/
def archiveFrame (d : Dev) (c : Nat) (f : CamFrame) (st : Stats) (flags : Nat) : Dev × Nat :=
  let tap := f.fld 0x054 0 3
  let fl := flags + (if tap = 0 then 0 else 16)
  let coded := if tap = 0 then ([], 0, []) else tapData f (decide (c < 32))
  let len := coded.1.length
  let e := pipelineOf c
  if !archives d c then (if len = 0 then d else followArchive d c len, fl)
  else if len ≠ 0 ∧ 65536 ≤ ingressFill d e then (archiveDrop d c f.number, flags)
  else
    let d0 := coded.2.2.foldl (fun d i =>
      raise (d.count pageIcd 0x06C) pageIcd 0 clsHousekeeping sevInfo 0x0201 (pay e 0 0 i)) d
    let d1 := d0.addCount pageIcd 0x068 (coded.2.1 - coded.2.2.length)
    let record := frameRecord c f st fl len
    if len = 0 then archiveDone d1 c f.number record (some [])
    else (stageFrame d1 c f.number record coded.1, fl + boolNat (ctxOf d c).gap <<< 6)

/-! ### Closing a frame (R315, R319, R334, R342) -/

/-- The frame `f` of context `c`, its oldest, closes. -/
def closeFrame (d : Dev) (c : Nat) (f : CamFrame) : Dev :=
  let p := pageCtx c
  let x := ctxOf d c
  let coaxial := decide (c < 32)
  let rows := f.lines.length
  let short := decide (rows < (f.shape coaxial).height)
  let st := statistics f coaxial
  -- f of R334: ⌊c ÷ 8⌋ of a coaxial frame, the count of closed frames of an overview context
  let number := if coaxial then f.start / 8 else x.closed
  let first := x.first.getD number
  let chosen := (f.fld 0x054 8 1 == 1 || f.fld 0x054 0 3 != 0) && (number - first) % max 1 (f.fld 0x054 16 8) == 0
  let flags := boolNat short + 2 * boolNat f.long + 4 * boolNat f.overflow + 8 * boolNat f.sat + 32 * boolNat (x.mode == 1)
  let d1 := setCtx d c { x with frames := x.frames.filter (·.sof != f.sof), first := some first, closed := x.closed + 1 }
  let a := if chosen then archiveFrame d1 c f st flags else (d1, flags)
  let d2 := (a.1.count p 0x070).setReg p 0x060 (f.number + a.2 <<< 16 + (min rows 127) <<< 24 + 1 <<< 31)
  let d3 := ((d2.setReg p 0x064 (st.area + (st.length % 256) <<< 16 + st.spatter <<< 24)).setReg p 0x068
    (st.mean + st.peak <<< 16)).setReg p 0x06C (st.cx % 65536 + (st.cy % 65536) <<< 16)
  let d4 := if short || f.overflow then d3.count p 0x074 else d3
  let d5 := if short then raise d4 p 0 clsProcess sevWarning 0x0701 (pay c 0 rows f.number) else d4
  let d6 := if f.long then raise d5 p 1 clsProcess sevNotice 0x0702 (pay c 0 0 f.number) else d5
  if x.mode = 2 ∧ ¬short = true ∧ ¬f.long = true ∧ ¬f.overflow = true then
    raise (setCtx d6 c { ctxOf d6 c with mode := 0 }) p 5 clsProcess sevInfo 0x0706 (pay c 0 0 f.number)
  else d6

/-- What the loop of station `c` is offered of a frame (R224, R337). -/
def offerStats (d : Dev) (c : Nat) (f : CamFrame) : Dev :=
  let short := decide (f.lines.length < 80)
  if f.gated && !short && !f.overflow then
    let st := statistics f true
    setStation d c { stationOf d c with stats := some (st.mean, st.peak, st.area) }
  else d

/-- The oldest coaxial frame closes at tick 1,250 of its close cycle; its statistics are offered in the next cycle only. -/
def closeCoaxial (d : Dev) (c : Nat) : Dev :=
  match (ctxOf d c).frames.head? with
  | none => d
  | some f =>
    if d.running && decide (f.closeCycle ≤ d.cycle) then
      let at0 := (f.closeCycle + 1) * 1250
      let d1 := closeFrame { d with tick := at0 } c f
      let d2 := { d1 with tick := d.tick }
      if d.tick < at0 + 300 then offerStats d2 c f else d2
    else d

/-! ### Overview ports (R317 to R320) -/

/-- A packet arrives on synchronised lanes; its header may have needed a correction. -/
def portPacket (d : Dev) (p : Nat) (corrected : Bool) : Dev :=
  let d1 := d.setFld pageImg (0x060 + 16 * p) 0 2 3
  if corrected then d1.count pageImg (0x064 + 16 * p) else d1
def portUp (d : Dev) (p : Nat) : Bool := d.enabled pageImg && !d.img.lost.getLsbD p
def discardPacket (d : Dev) (p : Nat) : Dev := d.count pageImg (0x080 + 4 * p)
def overviewCtx (p vc : Nat) : Nat := 32 + 4 * p + vc
/-- A packet for an enabled context of the port, else discarded (R317). -/
def withContext (d : Dev) (p vc : Nat) (corrected : Bool) (f : Dev → Nat → Dev) : Dev :=
  if portUp d p then
    let d1 := portPacket d p corrected
    if vc < 4 ∧ d.enabled (pageCtx (overviewCtx p vc)) = true then f d1 (overviewCtx p vc) else discardPacket d1 p
  else d

def closeOverview (d : Dev) (c : Nat) : Dev :=
  match (ctxOf d c).frames.head? with
  | some f => closeFrame d c f
  | none => d

def frameStart (d : Dev) (c number : Nat) : Dev :=
  let d1 := closeOverview d c
  let x := ctxOf d1 c
  let f : CamFrame := {
    sof := d1.tick, number := number, regs := ctxParams d1 c d1.cycle, tables := ctxTablesAt d1 c d1.cycle }
  setCtx d1 c { x with frames := [f], sofAt := d1.tick + 1 }

/-- Pixel codes as 12-bit values (R318). -/
def normalise (type : Nat) (v : Nat) : BitVec 12 := BitVec.ofNat 12 (if type = 0 then v % 256 * 16 else if type = 1 then v % 1024 * 4 else v)

/-- A long packet of a supported type (R317, R318, R319). -/
def overviewLine (d : Dev) (p c dt : Nat) (pixels : List (BitVec 16)) : Dev :=
  match (ctxOf d c).frames.head? with
  | none =>
    if dt = 0x2A + d.fld (pageCtx c) 0x05C 4 2 then badBlock d c 0xFFFF true else discardPacket d p
  | some f =>
    let type := f.fld 0x05C 4 2
    if dt ≠ 0x2A + type then discardPacket d p
    else if pixels.length ≠ f.fld 0x058 0 11 then badBlock d c 0xFFFF true
    else if f.fld 0x058 16 11 ≤ f.arrived then updFrame d c f.sof fun f => { f with long := true }
    else acceptRow (updFrame d c f.sof fun f => { f with arrived := f.arrived + 1 }) c f.sof f.arrived
      (pixels.map fun v => normalise type v.toNat)

/-- What a discarded packet counts and raises (R317): 0 header, 1 payload, else an unsupported packet; the event names its
virtual channel where the header can be decoded so far, else 0xFF (R348). A header that was corrected counts as such,
whatever becomes of the packet (R345). -/
def packetError (d0 : Dev) (p kind : Nat) (h : PacketHeader) : Dev :=
  let at21 := match h.vc with | some v => v.val | none => 0xFF
  let d := if h.corrected && kind != 0 then d0.count pageImg (0x064 + 16 * p) else d0
  if !portUp d0 p then d0
  else if kind = 0 then
    raise (d.count pageImg (0x068 + 16 * p)) pageImg p clsLink sevWarning 0x0710 (pay p at21 0 0)
  else if kind = 1 then
    raise (d.count pageImg (0x06C + 16 * p)) pageImg (2 + p) clsLink sevWarning 0x0711 (pay p at21 0 0)
  else discardPacket d p

/-! ### TEST and RECOVERY (R341, R342) -/

/-- The context gives up its open frames and enters RECOVERY. -/
def enterRecovery (d : Dev) (c : Nat) : Dev :=
  if d.enabled (pageCtx c) then setCtx d c { ctxOf d c with frames := [], mode := 2 } else d
def setTest (d : Dev) (c : Nat) (on : Bool) : Dev :=
  let x := ctxOf d c
  if d.enabled (pageCtx c) then setCtx d c { x with mode := if on then 1 else if x.mode = 1 then 0 else x.mode } else d

/-- A context's enable falls or rises: no frame but one that this cycle start opened stays open, VALID starts from 0, and
TEST stands as CTX_RUN has it (R341, R345, R348). -/
def ctxDisable (d : Dev) (c : Nat) : Dev := setCtx d c { ctxOf d c with frames := [], mode := 0 }
def ctxEnable (d : Dev) (c : Nat) : Dev :=
  let x := ctxOf d c
  (setCtx d c { x with
    frames := x.frames.filter (·.sof == d.cycle * 1250), mode := boolNat (d.flag (pageCtx c) 0x040 0) }).setFld (pageCtx c) 0x060 31 1 0

/-- FRAME_PHASE changes: frames in flight run to their close before the first exposure under the new phase (R340). -/
def phaseChange (d : Dev) (c : Nat) : Dev := setCtx d c { ctxOf d c with newPhase := true }

def syncLost (d : Dev) (p : Nat) : Dev :=
  if portUp d p then
    let d1 := { d with img := { d.img with lost := d.img.lost ||| BitVec.ofNat 2 (2 ^ p) } }
    raise (d1.setFld pageImg (0x060 + 16 * p) 1 1 0) pageImg (4 + p) clsLink sevWarning 0x0712 (pay p 0 0 0)
  else d
def portReturn (d : Dev) (p : Nat) : Dev :=
  if d.img.lost.getLsbD p then
    let d1 := { d with img := { d.img with lost := d.img.lost &&& BitVec.ofNat 2 (3 - 2 ^ p) } }
    upto 4 (fun d v => enterRecovery d (overviewCtx p v)) (d1.setFld pageImg (0x060 + 16 * p) 0 2 3)
  else d

/-! ### Meanings -/

/-- R314. -/
def execCameraBlock (t : Nat) (st : Fin 32) (hdr : BitVec 56) (data : List Long) (broken : Bool) (s : State) :
    Host.Outcome State Fault Refusal :=
  onDev s fun d => cameraBlock (d.arrive t) st.val hdr.toNat data broken
/-- R309. -/
def execPipelineLineStart (p : Fin 4) (s : State) : Host.Outcome State Fault Refusal := onDev s fun d => lineStart d p.val
/-- R319. -/
def execCsi2FrameStart (t : Nat) (p : Fin 2) (vc : Fin 16) (frameNo : BitVec 16) (corrected : Bool) (s : State) :
    Host.Outcome State Fault Refusal :=
  onDev s fun d => withContext (d.arrive t) p.val vc.val corrected fun d c => frameStart d c frameNo.toNat
/-- R318. -/
def execCsi2Line (t : Nat) (p : Fin 2) (vc : Fin 16) (dt : BitVec 6) (pixels : List (BitVec 16)) (corrected : Bool)
    (s : State) : Host.Outcome State Fault Refusal :=
  onDev s fun d => withContext (d.arrive t) p.val vc.val corrected fun d c => overviewLine d p.val c dt.toNat pixels
/-- R319. -/
def execCsi2FrameEnd (t : Nat) (p : Fin 2) (vc : Fin 16) (_frameNo : BitVec 16) (corrected : Bool) (s : State) :
    Host.Outcome State Fault Refusal :=
  onDev s fun d => withContext (d.arrive t) p.val vc.val corrected closeOverview
/-- R317. -/
def execCsi2PacketError (t : Nat) (p : Fin 2) (kind : BitVec 2) (header : PacketHeader) (s : State) :
    Host.Outcome State Fault Refusal :=
  onDev s fun d => packetError (d.arrive t) p.val kind.toNat header
/-- R341. -/
def execCtxRunTest (c : Fin 40) (on : Bool) (s : State) : Host.Outcome State Fault Refusal :=
  onDev s fun d => setTest (d.setFld (pageCtx c.val) 0x040 0 1 (boolNat on)) c.val on
/-- R342. -/
def execCtxRunRecover (c : Fin 40) (s : State) : Host.Outcome State Fault Refusal :=
  onDev s fun d => enterRecovery d c.val
/-- R345. -/
def execCsiSyncLost (t : Nat) (p : Fin 2) (s : State) : Host.Outcome State Fault Refusal :=
  onDev s fun d => syncLost (d.arrive t) p.val
/-- R342. -/
def execCsiPortReturn (t : Nat) (p : Fin 2) (s : State) : Host.Outcome State Fault Refusal :=
  onDev s fun d => portReturn (d.arrive t) p.val

end Sys2Proof.Machine
end

