-- ==== Sys2Proof/Machine/Servo.lean ====
section
/-! DEFINITION. The servo engine: programs, banks, compensation, holds, faults and trace (R237 to R279). -/
namespace Sys2Proof.Machine

/-! ### Programs (R243 to R247, R253) -/

/-- An instruction (R245). -/
structure Ins where
  op : Nat
  dst : Nat
  a : Nat
  b : Nat
  c1 : Nat
  c2 : Nat
  post : Bool
  bump : Bool
  sink : Bool
  rest : Nat
  deriving DecidableEq, Repr

def insOf (lo hi : Nat) : Ins :=
  ⟨bits lo 0 8, bits lo 8 8, bits lo 16 8, bits lo 24 8, bits hi 0 8, bits hi 8 8, bit hi 16, bit hi 17, bit hi 18, bits hi 19 13⟩

/-- Low and high word of an instruction of the default program. -/
def defaultIns (op dst a b c1 c2 : Nat) (post bump sink : Bool) : Nat × Nat :=
  (op + dst <<< 8 + a <<< 16 + b <<< 24, c1 + c2 <<< 8 + boolNat post <<< 16 + boolNat bump <<< 17 + boolNat sink <<< 18)

/-- The default program (R253). -/
def defaultProgram : List (Nat × Nat) :=
  [defaultIns 1 1 0x41 0 1 0 false true false,
   defaultIns 1 2 0x42 0 5 0 false true false,
   defaultIns 1 3 0x45 0 0 0 true true false,
   defaultIns 3 4 3 1 0 0 true true false,
   defaultIns 4 5 4 0x44 0 0 true true false,
   defaultIns 1 6 5 0 2 0 true true false,
   defaultIns 3 7 6 2 0 0 true true false,
   defaultIns 7 8 5 0 3 4 true false true,
   defaultIns 3 9 7 8 0 0 true false false,
   defaultIns 10 10 9 0 0 0 true false false,
   defaultIns 11 11 10 0 0 0 true false false,
   defaultIns 8 12 11 0 8 0 true false false,
   defaultIns 8 13 12 0 16 0 true false false,
   defaultIns 8 14 13 0 24 0 true false false,
   defaultIns 6 15 14 0 6 0 true false false,
   defaultIns 12 0 15 0 0 0 true false false]

/-- Word `k` of the header and instructions at reset: 16 instructions, one bank, FORMAT 1, KEEP_STATE. -/
def progReset (k : Nat) : Word :=
  if k = 0 then word (16 + 1 <<< 16 + 1 <<< 24)
  else if k = 2 then 1
  else if k < 16 then 0
  else
    match defaultProgram[(k - 16) / 2]? with
    | some w => word (if k % 2 = 0 then w.1 else w.2)
    | none => 0
/-- Coefficient at reset: the filters pass through. -/
def coefReset (k : Nat) : Word := if k % 256 = 8 ∨ k % 256 = 16 ∨ k % 256 = 24 then 0x40000000#32 else 0

def Program.word (p : Program) (k : Nat) : Nat := (p.words.get progReset k).toNat
def Program.count (p : Program) : Nat := bits (p.word 0) 0 16
def Program.banks (p : Program) : Nat := bits (p.word 0) 16 8
def Program.format (p : Program) : Nat := bits (p.word 0) 24 8
def Program.keepState (p : Program) : Bool := bit (p.word 2) 0
def Program.ins (p : Program) (i : Nat) : Ins := insOf (p.word (16 + 2 * i)) (p.word (17 + 2 * i))
def Program.list (p : Program) : List (Nat × Ins) := (List.range (min 256 p.count)).map fun i => (i, p.ins i)
/-- A coefficient as a signed number. -/
def Program.coef (p : Program) (bank i : Nat) : Int := (p.coefs.get coefReset (256 * bank + i % 256)).toInt

def isFilter (op : Nat) : Bool := op == 8 || op == 9
/-- Number of filters before instruction `i`: its filter-state slot. -/
def Program.filterSlot (p : Program) (i : Nat) : Nat := (List.range i).foldl (fun n k => if isFilter (p.ins k).op then n + 1 else n) 0
/-- Slots that an instruction takes in the PRE and the POST window (R247). -/
def Ins.cost (x : Ins) : Nat × Nat :=
  let c := if x.op = 2 ∨ x.op = 7 ∨ x.op = 10 ∨ x.op = 11 then 2 else 1
  if x.op = 8 then (if x.post then (4, 1) else (5, 0))
  else if x.op = 9 then (if x.post then (2, 1) else (3, 0))
  else if x.post then (0, c) else (c, 0)

/-! ### Admission (R251) -/

def preUsed (p : Program) : Nat := p.list.foldl (fun n x => n + x.2.cost.1 + (if x.2.bump then 2 * (x.2.cost.1 + x.2.cost.2) else 0)) 0
def postUsed (p : Program) : Nat := p.list.foldl (fun n x => n + x.2.cost.2) 0

/-- The sources of an instruction that its opcode reads. -/
def Ins.usesB (x : Ins) : Bool := x.op == 2 || x.op == 3 || x.op == 4
def sourceOk (k : Nat) : Bool := decide (k ≤ 0x49)
def insRange (x : Ins) : Bool :=
  (if x.op = 12 then x.dst == 0 else decide (x.dst < 64)) && sourceOk x.a && (if x.usesB then sourceOk x.b else x.b == 0) &&
    (x.op != 8 || decide (x.c1 + 4 ≤ 255)) && (x.op != 9 || decide (x.c1 + 2 ≤ 255))

/-- Reserved bits of the header (R244). -/
def headerOk (p : Program) : Bool :=
  p.format == 1 && decide (1 ≤ p.count ∧ p.count ≤ 256) && decide (1 ≤ p.banks ∧ p.banks ≤ 8) && decide (p.word 2 ≤ 1) &&
    (List.range 13).all fun k => p.word (3 + k) == 0

/-- RESULT code and first failing instruction of a program; 0 where it is admitted. -/
def admission (p : Program) : Nat × Nat :=
  let bad (q : Ins → Bool) : Option Nat := (p.list.find? fun x => !q x.2).map Prod.fst
  if !headerOk p then (4, 0)
  else
    match bad fun x => x.rest == 0 && decide (1 ≤ x.op ∧ x.op ≤ 12) with
    | some i => (4, i)
    | none =>
      match bad insRange with
      | some i => (5, i)
      | none =>
        match bad fun x => x.op != 12 || x.post with
        | some i => (6, i)
        | none =>
          let outs := p.list.filter fun x => x.2.op == 12
          if outs.length ≠ 1 then (6, match outs[1]? with | some x => x.1 | none => p.count - 1)
          else
            let bumps := p.list.filter fun x => x.2.bump
            let sinks := p.list.filter fun x => x.2.sink
            match bad fun x => (!x.bump || decide (1 ≤ x.op ∧ x.op ≤ 5)) && (!x.sink || x.op == 7) with
            | some i => (7, i)
            | none =>
              if 8 < bumps.length then (7, match bumps[8]? with | some x => x.1 | none => 0)
              else if 1 < sinks.length then (7, match sinks[1]? with | some x => x.1 | none => 0)
              else if bumps.length ≠ 0 ∧ sinks.length ≠ 1 then (7, match bumps[0]? with | some x => x.1 | none => 0)
              else
                let filters := p.list.filter fun x => isFilter x.2.op
                if 24 < filters.length then (3, match filters[24]? with | some x => x.1 | none => 0)
                else if 117 < preUsed p then (1, p.count - 1)
                else if 78 < postUsed p then (2, p.count - 1)
                else (0, 0)

/-- The check at a COMMIT of group 3; AXS_ADMIT keeps its result. -/
def admitProgram (d : Dev) (j : Nat) : Bool × Dev :=
  let p := (axisOfServo d j).staged
  let r := admission p
  (r.1 == 0, d.setReg (pageAxs j) 0x05C (min 255 (preUsed p) + min 255 (postUsed p) <<< 8 + r.1 <<< 16 + r.2 <<< 24))

/-! ### Arithmetic (R248) -/

def sat32 (x : Int) : Int := clampInt (-2147483648) 2147483647 x
/-- Round to nearest, ties up, after a shift right by `n`. -/
def roundShift (x : Int) (n : Nat) : Int := (x + 2 ^ (n - 1)) / 2 ^ n
/-- A 64-bit filter state. -/
def state64 (x : Int) : Int := if -(2 ^ 63) ≤ x ∧ x < 2 ^ 63 then x else (Config.filterOverflow x).toInt

/-- The value of a source (R246). -/
def Axis.source (x : Axis) (k : Nat) : Int :=
  if k < 64 then x.work.get (same 0) k
  else if k = 0x40 then signed 32 x.refPos
  else if k = 0x41 then x.refVel
  else if k = 0x42 then x.refAcc
  else if k = 0x43 then signed 32 x.measPos
  else if k = 0x44 then x.measVel
  else if k = 0x45 then sat32 (countDiff x.refPos x.measPos * 65536)
  else if k = 0x46 then x.temp
  else if k = 0x47 then x.ampI
  else if k = 0x48 then x.prevOut * 2
  else 0

/-- The friction term's place and value (R260). -/
def frictionTerm (d : Dev) (j : Nat) (x : Axis) : Int :=
  let p := pageAxs j
  let dist := countDiff x.measPos (d.fld p 0x120 0 32)
  let k := (clampInt 0 255 (dist / 2 ^ d.fld p 0x128 0 5 + 128)).toNat
  x.sign * (x.active.fric.get (same 0) k).toInt
/-- The cogging term (R261). -/
def coggingTerm (d : Dev) (j : Nat) (x : Axis) : Int :=
  let p := pageAxs j
  let dist := countDiff x.measPos (d.fld p 0x124 0 32)
  let t := (clampInt 0 (1023 * 65536) (dist * 65536 / 2 ^ d.fld p 0x128 8 5 + 512 * 65536)).toNat
  let k := t / 65536
  let at0 (i : Nat) : Int := (x.active.cog.get (same 0) i).toInt
  let next := if k = 1023 then at0 1023 else at0 (k + 1)
  at0 k + roundShift ((next - at0 k) * (t % 65536 : Nat)) 16

/-- The result of an instruction without state: GAIN, MAC2, ADD, SUB, MOV, LIMIT. -/
def plainResult (p : Program) (bank : Nat) (i : Ins) (a b : Int) : Int :=
  let c1 := p.coef bank i.c1
  let c2 := p.coef bank i.c2
  if i.op = 1 then sat32 (roundShift (c1 * a) 24)
  else if i.op = 2 then sat32 (roundShift (c1 * a + c2 * b) 24)
  else if i.op = 3 then sat32 (a + b)
  else if i.op = 4 then sat32 (a - b)
  else if i.op = 5 then a
  else clampInt (-c1) c1 a

/-- The four state updates of a filter from its input and output (R249). -/
def filterUpdate (p : Program) (bank : Nat) (i : Ins) (s : Int × Int) (x y : Int) : Int × Int :=
  let c (k : Nat) : Int := p.coef bank (i.c1 + k)
  if i.op = 8 then (state64 ((c 1 * x - c 3 * y) * 4 + s.2), state64 ((c 2 * x - c 4 * y) * 4))
  else (state64 ((c 1 * x - c 2 * y) * 4), s.2)

/-- One instruction in its window. The answer says whether OUT was clamped. -/
def runIns (d : Dev) (j : Nat) (n : Nat) (i : Ins) (x : Axis) : Axis × Bool :=
  let p := x.active
  let a := x.source i.a
  let b := x.source i.b
  let put (y : Axis) (v : Int) : Axis := { y with work := y.work.set (same 0) i.dst v }
  if i.op = 7 then
    let lim := p.coef x.bank i.c2 * 2 ^ 32
    let acc := clampInt (-lim) lim (x.acc.get (same 0) n + p.coef x.bank i.c1 * a * 256)
    (put { x with acc := x.acc.set (same 0) n acc } (sat32 (roundShift acc 32)), false)
  else if isFilter i.op then
    let slot := p.filterSlot n
    let s := x.filt.get (same (0, 0)) slot
    let y := sat32 (roundShift (p.coef x.bank i.c1 * a * 4 + s.1) 32)
    if i.post then (put { x with deferred := x.deferred.set (same (0, 0)) n (a, y) } y, false)
    else (put { x with filt := x.filt.set (same (0, 0)) slot (filterUpdate p x.bank i s a y) } y, false)
  else if i.op = 10 then (put x (sat32 (a + frictionTerm d j x)), false)
  else if i.op = 11 then (put x (sat32 (a + coggingTerm d j x)), false)
  else if i.op = 12 then
    let v := (a + 1) / 2
    let c := clampInt (-32768) 32767 v
    ({ x with iCmd := c }, c != v)
  else
    let y := if i.bump then { x with used := x.used.set (same (0, 0)) n (a, b) } else x
    (put y (plainResult p x.bank i a b), false)

def runWindow (d : Dev) (j : Nat) (post : Bool) (x : Axis) : Axis × Bool :=
  x.active.list.foldl (fun y i =>
    if i.2.post = post then (let r := runIns d j i.1 i.2 y.1; (r.1, y.2 || r.2)) else y) (x, false)

/-! ### Bands and banks (R254 to R258) -/

def stepBand (up down : Bool) (b top : Nat) : Nat := if up ∧ b < top then b + 1 else if down ∧ 0 < b then b - 1 else b

/-- The three bands after an evaluation. -/
def evalBands (d : Dev) (j : Nat) (x : Axis) : Axis :=
  let p := pageAxs j
  let h (v : Nat) : Nat := if x.fresh then 0 else v
  let pos := (countDiff x.measPos (d.fld p 0x100 0 32)).natAbs
  let edge := d.fld p 0x104 0 32
  let ph := h (d.fld p 0x108 0 32)
  let pb := if x.fresh then boolNat (decide (edge ≤ pos))
    else stepBand (decide (edge + ph ≤ pos)) (decide ((pos : Int) < (edge : Int) - ph)) x.pb 1
  let v := x.measVel.natAbs / 65536
  let vh := h (d.fld p 0x110 16 16)
  let lim (b : Nat) : Nat := if b = 1 then d.fld p 0x10C 0 16 else if b = 2 then d.fld p 0x10C 16 16 else d.fld p 0x110 0 16
  let rise (b : Nat) : Bool := decide (b < 3) && decide (lim (b + 1) + vh ≤ v)
  let fall (b : Nat) : Bool := decide (0 < b) && decide ((v : Int) < (lim b : Int) - vh)
  let one (b : Nat) : Nat := if rise b then b + 1 else if fall b then b - 1 else b
  let vb := one (one (one (one (if x.fresh then 0 else x.vb))))
  let t := x.temp * 10 / 65536
  let te := d.sfld p 0x114 0 16
  let th : Int := h (d.fld p 0x114 16 16)
  let tb := if x.fresh then boolNat (decide (te ≤ t)) else stepBand (decide (te + th ≤ t)) (decide (t < te - th)) x.tb 1
  { x with pb := pb, vb := vb, tb := tb, fresh := false, region := pb * 8 + tb * 4 + vb }

/-- The bank for the next cycle; the second part tells an invalid one (R255, R256). -/
def chooseBank (d : Dev) (j : Nat) (x : Axis) : Nat × Option Nat :=
  let p := pageAxs j
  let named := if d.flag p 0x040 3 then d.fld p 0x040 0 3 else d.fld p (0x118 + 4 * (x.region / 8)) (4 * (x.region % 8)) 3
  if x.active.banks ≤ named then (0, some named) else (named, none)

/-- The bump chain's output with a bank, on the operands used in the last cycle (R257). -/
def bumpOutput (x : Axis) (bank : Nat) : Int :=
  (x.active.list.foldl (fun (e : Tab (Option Int) × Int) i =>
    if i.2.bump then
      let u := x.used.get (same (0, 0)) i.1
      let src (k : Nat) (v : Int) : Int := if k < 64 then (e.1.get (same none) k).getD v else v
      let y := plainResult x.active bank i.2 (src i.2.a u.1) (src i.2.b u.2)
      (e.1.set (same none) i.2.dst (some y), y)
    else if i.2.op = 12 then e
    else (e.1.set (same none) i.2.dst none, e.2)) ([], 0)).2

/-- The accumulator of the sink takes up the difference between two banks (R257). -/
def bumpBanks (x : Axis) (old new : Nat) : Axis :=
  match x.active.list.find? fun i => i.2.sink with
  | none => x
  | some (n, i) =>
    let lim := x.active.coef new i.c2 * 2 ^ 32
    let v := x.acc.get (same 0) n + (bumpOutput x old - bumpOutput x new) * 2 ^ 32
    { x with acc := x.acc.set (same 0) n (clampInt (-lim) lim v) }

/-! ### References (R242, R246, R633) -/

/-- J applied to a bed vector in 2⁻¹²⁸ nm per tick (or tick²): X and Y counts per cycle (or cycle²) in Q16.16; `cycles` is
1,250 or its square. -/
def countRates (d : Dev) (s : Nat) (x y vx vy : Int) (cycles : Nat) : Int × Int × Int :=
  let bank := (stationOf d s).bank
  let g := driftGains d s
  let den : Int := 4 * 2 ^ 80 * max 1 (fctPitch d s bank) * 2 ^ 112
  let rate (k gain : Nat) : Int :=
    let a := fctSlope d s bank k x y
    divRound ((a.1 * vx + a.2 * vy) * cycles * gain) (den * 16777216)
  (rate 0 g.1, rate 1 g.2, rate 2 16777216)

/-- Reference inputs of the three axes of a station for a setpoint: position, velocity, acceleration. -/
def stationRefs (d : Dev) (s : Nat) (p : Setpoint) : List (Nat × Int × Int) :=
  let st := stationOf d s
  match st.raw with
  | some (cx, cy, vx, vy) => [(wrap32 cx, vx, 0), (wrap32 cy, vy, 0), (wrap32 p.focus, 0, 0)]
  | none =>
    let c := commandTargets d s p.x p.y
    let v := countRates d s p.x p.y p.vx p.vy 1250
    let a := countRates d s p.x p.y p.ax p.ay 1562500
    -- the focus follows the table along a pour, and moves of its own in a jump (R205)
    let f := if p.onPour then (v.2.2, a.2.2) else (divRound (p.vf * 1250) (2 ^ 32), divRound (p.af * 1562500) (2 ^ 32))
    [(c.1, v.1, a.1), (c.2.1, v.2.1, a.2.1), (wrap32 p.focus, f)]

/-- The reference of axis `j` in the PRE window for the next cycle: the setpoint for its start once the station has moved,
before that the position of the first used sample. -/
def takeReference (d : Dev) (j : Nat) (x : Axis) : Axis :=
  let st := stationOf d (j / 3)
  if !st.placed || !st.moved then { x with refVel := 0, refAcc := 0 }
  else
    let r := (stationRefs d (j / 3) st.next).getD (j % 3) (0, 0, 0)
    { x with refPos := r.1 % 2 ^ 32, refVel := sat32 r.2.1, refAcc := sat32 r.2.2 }

/-! ### The PRE window (R240, R250, R254 to R257) -/

/-- Deferred filter updates of the cycle that ends (R249). -/
def deferredUpdates (x : Axis) : Axis :=
  let y := x.active.list.foldl (fun y i =>
    if isFilter i.2.op && i.2.post then
      let slot := y.active.filterSlot i.1
      let u := y.deferred.get (same (0, 0)) i.1
      { y with filt := y.filt.set (same (0, 0)) slot (filterUpdate y.active y.bank i.2 (y.filt.get (same (0, 0)) slot) u.1 u.2) }
    else y) x
  { y with deferred := [] }

/-- Every state 0 for the first PRE window of a program without KEEP_STATE (R252). -/
def zeroStates (x : Axis) : Axis :=
  { x with work := [], acc := [], filt := [], deferred := [], savedWork := [], savedAcc := [], savedFilt := [], zeroDue := false }

def servoPre (d : Dev) (j : Nat) : Dev :=
  let x0 := { axisOfServo d j with prevOut := (axisOfServo d j).iCmd }
  if !axisRuns d j || x0.fault then setServo d j (takeReference d j x0)
  else
    let x1 := if x0.zeroDue then zeroStates x0 else if x0.held then { x0 with deferred := [] } else deferredUpdates x0
    let x2 := evalBands d j x1
    let b := chooseBank d j x2
    let d1 := match b.2 with
      | some named => raise d (pageAxs j) 3 clsMotion sevWarning 0x0503 (pay j x2.region named 0)
      | none => d
    let changed := b.1 != x2.bank
    let x3 := if changed then
        { bumpBanks x2 x2.bank b.1 with bank := b.1, bankBefore := x2.bank, bankFrom := d.cycle + 1, event := true }
      else x2
    let d2 := if changed then d1.count (pageAxs j) 0x058 else d1
    let x4 := { takeReference d j x3 with savedWork := x3.work, savedAcc := x3.acc, savedFilt := x3.filt }
    setServo d2 j (runWindow d j false x4).1

/-! ### Faults (R264 to R268) -/

def axisFault (d : Dev) (j cause : Nat) : Dev :=
  let x := axisOfServo d j
  let d1 := setServo d j { x with fault := true, cause := cause, event := true }
  raise d1 (pageAxs j) 1 clsMotion sevFault 0x0501 (pay j cause 0 0)

/-- CTL.ENABLE of an axis rises (R267). -/
def axisEnable (d : Dev) (j : Nat) : Dev :=
  setServo d j { axisOfServo d j with
    work := [], acc := [], filt := [], deferred := [], used := [], savedWork := [], savedAcc := [], savedFilt := []
    holdRun := 0, fault := false, idle := (axisOfServo d j).fault, cause := 0, lastHold := false, laneLost := false
    fresh := true, held := false, satRun := 0, ferrRun := 0 }

/-! ### The POST window (R240, R262 to R265) -/

/-- Inputs of an axis from the uplink (R520) and the feedback of the cycle. -/
def takeInputs (d : Dev) (j : Nat) (u : BitVec 256) (x : Axis) : Axis :=
  let k := j % 3
  let c := channelOf d j
  { x with
    measPos := c.repPos, measVel := c.repV1, sign := if c.repV1 = 0 then 0 else if c.negative then -1 else 1
    ampI := signed 16 (bits u.toNat (115 + 16 * k) 16) * 2, ampFault := bit u.toNat (163 + k)
    temp := signed 16 (bits u.toNat (166 + 16 * k) 16) * 512 }

/-- The first used sample of an axis after its first enable sets its reference (R633). -/
def placeAxis (d : Dev) (j : Nat) (x : Axis) : Axis :=
  if x.placed || !(channelOf d j).started then x
  else { x with placed := true, refPos := (channelOf d j).repPos, refVel := 0, refAcc := 0 }

/-- A held axis repeats its command; every state stays as it was (R263, R264). -/
def holdAxis (d : Dev) (j : Nat) : Dev :=
  let x := axisOfServo d j
  let run := x.holdRun + 1
  let d1 := (setServo d j { x with
    held := true, idle := false, disabled := false, event := true, holdRun := min 3 run, ferrRun := 0, satRun := 0
    work := x.savedWork, acc := x.savedAcc, filt := x.savedFilt, deferred := [] }).count (pageAxs j) 0x054
  let d2 := raise (d1.count pageSrv 0x04C) (pageAxs j) 0 clsMotion sevWarning 0x0500 (pay j run 0 0)
  if 3 ≤ run then
    let d3 := axisFault d2 j 1
    setServo d3 j { axisOfServo d3 j with lastHold := true }
  else d2

/-- The checks of FERR and SAT after a POST window: the new runs, and the cause. -/
def runChecks (d : Dev) (j : Nat) (x : Axis) (sat : Bool) : Axis × Option Nat :=
  let p := pageAxs j
  let lim := d.fld p 0x044 0 16
  let err := sat32 (countDiff x.refPos x.measPos * 65536)
  let ferr := if lim ≠ 0 ∧ lim * 65536 ≤ err.natAbs then x.ferrRun + 1 else 0
  let satRun := if sat then x.satRun + 1 else 0
  let satMax := d.fld p 0x044 24 8
  let y := { x with ferrRun := ferr, satRun := satRun, posErr := err }
  (y, if lim ≠ 0 ∧ d.fld p 0x044 16 8 ≤ ferr then some 2
      else if satMax ≠ 0 ∧ satMax ≤ satRun then some 3
      else if x.ampFault then some 4
      else if (channelOf d j).fault then some 5
      else if x.laneLost then some 6 else none)

/-- The POST window of one axis, or what stands in its place. -/
def servoPost (d : Dev) (j : Nat) : Dev :=
  let x := axisOfServo d j
  let off : Axis := { x with iCmd := 0, disabled := true, held := false, lastHold := false, laneLost := false, ferrRun := 0, satRun := 0 }
  match (stationOf d (j / 3)).uplink with
  | some u =>
    let y := placeAxis d j (takeInputs d j u x)
    if !axisRuns d j then setServo d j { takeInputs d j u off with placed := x.placed, refPos := x.refPos, holdRun := 0 }
    else if x.fault then setServo d j { takeInputs d j u off with holdRun := 0 }
    else
      let r := runWindow d j true { y with held := false, idle := false, disabled := false, holdRun := 0, lastHold := false }
      let c := runChecks d j r.1 r.2
      let d1 := setServo d j { c.1 with laneLost := false }
      let d2 := if r.2 then raise d1 (pageAxs j) 2 clsMotion sevNotice 0x0502 (pay j 0 (unsigned 16 r.1.iCmd) 0) else d1
      match c.2 with
      | some cause => let d3 := axisFault d2 j cause; setServo d3 j { axisOfServo d3 j with iCmd := 0, disabled := true }
      | none => d2
  | none =>
    if !axisRuns d j || x.fault then setServo d j off
    else
      let d1 := holdAxis (setServo d j { x with laneLost := false }) j
      if ((channelOf d1 j).fault || x.laneLost) ∧ ¬(axisOfServo d1 j).fault then
        let d3 := axisFault d1 j (if (channelOf d1 j).fault then 5 else 6)
        setServo d3 j { axisOfServo d3 j with iCmd := 0, disabled := true }
      else d1

/-- The held point of a station once its axes are placed (R633): the point whose targets are the measured counts. -/
def placeStation (d : Dev) (s : Nat) : Dev :=
  let st := stationOf d s
  let ax (k : Nat) : Axis := axisOfServo d (3 * s + k)
  if st.placed || !(ax 0).placed || !(ax 1).placed then d
  else
    let bank := st.bank
    let mid := 32 * fctPitch d s bank
    let p0 := (nm16 (fctOriginX d s bank + mid), nm16 (fctOriginY d s bank + mid))
    let p := (bedOfCounts d s ((ax 0).refPos, (ax 1).refPos) p0).getD p0
    let sp : Setpoint := { x := p.1, y := p.2, focus := signed 32 (ax 2).refPos }
    setStation d s { st with placed := true, cmd := sp, next := sp }

/-- What a faulted axis or channel of a station does to it (R230, R266). -/
def faultStations (d : Dev) : Dev :=
  upto 32 (fun d s =>
    -- a disabled station does not fault, but its references decelerate in the cycle of the axis's fault
    if !d.enabled (pageStn s) && (List.range 3).any (fun k => (axisOfServo d (3 * s + k)).fault && (axisOfServo d (3 * s + k)).event) then
      decelerate d s
    else if (List.range 3).any fun k => (axisOfServo d (3 * s + k)).fault && axisRuns d (3 * s + k) then
      stationFault d s (if (List.range 3).any fun k => (channelOf d (3 * s + k)).fault then 1 else 0)
    else if (List.range 3).any fun k => (channelOf d (3 * s + k)).fault && d.enabled (pageFch (3 * s + k)) then stationFault d s 1
    else d) d

/-- The boundary that exchanges the programs and tables of an axis (R252). -/
def exchangeProgram (d : Dev) (j : Nat) : Dev :=
  let x := axisOfServo d j
  let y := { x with active := x.staged, staged := x.active, used := [] }
  let z := if y.active.keepState then y else { zeroStates y with zeroDue := true }
  (setServo d j z).setReg (pageAxs j) 0x060 (y.active.word 1)

/-! ### Trace (R270 to R276) -/

/-- The value of a signal (R270). -/
def traceSignal (d : Dev) (id : Nat) : Int :=
  let x := axisOfServo d (bits id 8 7)
  let k := bits id 0 8
  if k ≤ 0x48 then x.source k else if k = 0x50 then x.iCmd else if k = 0x51 then x.bank else if k = 0x52 then x.region else 0

/-- Trace record of up to four samples (R274). -/
def traceRecord (c flags index : Nat) (ss : List (Nat × Word)) : Nat :=
  let first := match ss with | x :: _ => x.1 | [] => 0
  (ss.foldl (fun (a : Nat × Nat) x => (a.1 + atByte (12 + 4 * a.2) x.2.toNat, a.2 + 1))
    (atByte 0 (first % 2 ^ 64) + atByte 8 c + atByte 9 flags + atByte 10 index + atByte 11 ss.length, 0)).1

/-- A trace record, without GAP and STATE, goes to its ring, where it is dropped if the ring is full (R275); no data: its read
from DRAM failed (R547). Only the holder of the ensign writes it (R276). -/
def traceDone (d : Dev) (c samples : Nat) (data : Option (List Byte)) : Dev :=
  if !d.holds then d
  else
    let x := traceOf d c
    match data with
    | none => setTrace d c { x with gap := true }
    | some bs =>
      let r := enqueue d (40 + c / 2)
        ⟨BitVec.ofNat 256 (leNat bs + atByte 9 (2 * boolNat x.gap) + atByte 30 d.stateByte), 0, false, .plain⟩
      if r.2 then
        let d1 := (setTrace (ringLost d (40 + c / 2)) c { x with gap := true, told := true }).addCount pageSrv 0x048 samples
        if x.told then d1 else raise d1 pageSrv 1 clsMotion sevWarning 0x0521 (pay c 0 0 samples)
      else setTrace r.1 c { x with gap := false, told := false }

/-- A trace record is staged through DRAM in class ST (R274). -/
def writeTrace (d : Dev) (c flags index : Nat) (ss : List (Nat × Word)) : Dev :=
  if !d.holds then d
  else
    let at0 := if d.dram.traceAt + 32 ≤ stagingBytes then d.dram.traceAt else 0
    let d1 := { d with dram := { d.dram with traceAt := at0 + 32 } }
    let bs := leBytes 32 (traceRecord c flags index ss)
    match dramRead (dramWrite d1 5 (traceBase + at0) bs) 5 (traceBase + at0) 32 (.trace c ss.length) with
    | (none, d2) => traceDone d2 c ss.length (some (List.replicate 32 0))
    | (some _, d2) => d2

def groupFour : Nat → List (Nat × Word) → List (List (Nat × Word))
  | 0, _ => []
  | _, [] => []
  | n + 1, l => l.take 4 :: groupFour n (l.drop 4)

/-- A complete snapshot is written to the ring (R273). -/
def writeSnapshot (d : Dev) (c : Nat) : Dev :=
  let x := traceOf d c
  let ss := x.samples.reverse
  let before := (ss.filter fun y => decide (y.1 < x.fireCycle)).length
  let short := decide (before < d.fld pageSrv (0x104 + 16 * c) 16 12)
  let recs := groupFour 1024 ss
  let n := recs.length
  (recs.foldl (fun (a : Dev × Nat) l =>
    let has := decide (4 * a.2 ≤ before ∧ before < 4 * a.2 + 4)
    let flags := boolNat has + 4 * boolNat (a.2 + 1 == n) + 8 * boolNat (a.2 == 0 && short)
    (writeTrace a.1 c flags (if has then before - 4 * a.2 else 0) l, a.2 + 1)) (setTrace d c { x with armed := false }, 0)).1

/-- Whether the channel's own trigger fires in a recorded cycle, given the trigger signal's value now. -/
def ownTrigger (d : Dev) (c : Nat) (v : Int) : Bool :=
  let x := traceOf d c
  let mode := d.fld pageSrv (0x108 + 16 * c) 0 3
  let level := d.sfld pageSrv (0x10C + 16 * c) 0 32
  match mode, x.last with
  | 0, _ => x.fireNow
  | 1, some u => decide (u < level ∧ level ≤ v)
  | 2, some u => decide (level < u ∧ v ≤ level)
  | 3, _ => (axisOfServo d (bits (d.fld pageSrv (0x108 + 16 * c) 8 16) 8 7)).event
  | _, _ => false

/-- Whether the channel records in this cycle (R271). -/
def traceRecords (d : Dev) (c : Nat) : Bool :=
  let x := traceOf d c
  x.armed && (d.cycle - x.armedAt) % max 1 (d.fld pageSrv (0x104 + 16 * c) 0 16) == 0

/-- The channels that fire in this cycle: own triggers, then linked ones (R272). -/
def firingChannels (d : Dev) : List Nat :=
  let can (c : Nat) : Bool := traceRecords d c && !(traceOf d c).fired
  let own := (List.range 16).filter fun c => can c && ownTrigger d c (traceSignal d (d.fld pageSrv (0x108 + 16 * c) 8 16))
  let link (l : List Nat) : List Nat := l ++ (List.range 16).filter fun c =>
    can c && !l.contains c && d.fld pageSrv (0x108 + 16 * c) 0 3 == 4 && l.contains (d.fld pageSrv (0x108 + 16 * c) 4 4)
  (List.range 16).foldl (fun l _ => link l) own

/-- One channel's sample of the cycle. -/
def traceSample (d : Dev) (c : Nat) (fires : Bool) : Dev :=
  if !traceRecords d c then d
  else
    let x := traceOf d c
    let v : Word := BitVec.ofInt 32 (traceSignal d (d.fld pageSrv (0x100 + 16 * c) 0 16))
    let stream := d.flag pageSrv (0x100 + 16 * c) 16
    let trig := traceSignal d (d.fld pageSrv (0x108 + 16 * c) 8 16)
    let pre := d.fld pageSrv (0x104 + 16 * c) 16 12
    let d1 := if fires then raise d pageSrv 0 clsMotion sevInfo 0x0520 (pay c 0 0 (d.cycle % 2 ^ 32)) else d
    let y := { x with last := some trig, fireNow := false, fired := x.fired || fires, fireCycle := if fires then d.cycle else x.fireCycle }
    if stream then
      let pack := y.pack ++ [(d.cycle, v)]
      let z := { y with trigAt := if fires then some y.pack.length else y.trigAt }
      if pack.length = 4 then
        let d2 := setTrace d1 c { z with pack := [], trigAt := none }
        writeTrace d2 c (boolNat z.trigAt.isSome) (z.trigAt.getD 0) pack
      else setTrace d1 c { z with pack := pack }
    else if y.fired then
      let left := if fires then 4096 - pre else x.left
      let samples := (d.cycle, v) :: y.samples
      let d2 := setTrace d1 c { y with samples := samples, left := left - 1 }
      if left ≤ 1 then writeSnapshot d2 c else d2
    else setTrace d1 c { y with samples := ((d.cycle, v) :: y.samples).take pre }

/-- The trace of one cycle. -/
def traceCycle (d : Dev) : Dev :=
  let f := firingChannels d
  upto 16 (fun d c => traceSample d c (f.contains c)) d

/-- R271: the channels of `mask` are armed. What was lost before still marks the next record written (R275). -/
def armTraces (d : Dev) (mask : Nat) : Dev :=
  upto 16 (fun d c =>
    let x := traceOf d c
    if bit mask c then setTrace d c { armed := true, armedAt := d.cycle, gap := x.gap, told := x.told } else d) d
/-- R272: manual triggers. -/
def fireTraces (d : Dev) (mask : Nat) : Dev :=
  upto 16 (fun d c => if bit mask c then setTrace d c { traceOf d c with fireNow := true } else d) d
/-- A new holder's streams begin with a gap (R276). -/
def gapTraces (d : Dev) : Dev :=
  upto 16 (fun d c => if d.flag pageSrv (0x100 + 16 * c) 16 then setTrace d c { traceOf d c with gap := true } else d) d

/-! ### Meanings -/

/-- R271. -/
def execSrvTraceArm (mask : Word) (s : State) : Host.Outcome State Fault Refusal :=
  onDev s fun d => if d.computes then armTraces d mask.toNat else d
/-- R272. -/
def execSrvTraceFire (mask : Word) (s : State) : Host.Outcome State Fault Refusal :=
  onDev s fun d => if d.computes then fireTraces d mask.toNat else d

end Sys2Proof.Machine
end

