-- ==== Sys2Proof/Machine/LineHead.lean ====
section
/-! DEFINITION. Line head firing: line data, pacing, strobes, dot widths, gaps, patch islands, emitter test and
selection (R349 to R389). -/
namespace Sys2Proof.Machine

def setFiring (d : Dev) (f : Firing) : Dev := { d with lhd := { d.lhd with firing := some f } }
/-- The logical partner of module `m` (R508). -/
def modulePartner (m : Nat) : Nat := 32 + m

/-! ### Selection (R350, R385) -/

/-- Selection of column `c`: 0 A, 1 B, 2 NONE. -/
def selectionOf (d : Dev) (c : Nat) : Nat := bits d.lhd.selection.toNat (2 * c) 2
def deriveSelection (pref : BitVec 8192) (failed : BitVec 16384) (c : Nat) : Nat :=
  let a := failed.getLsbD (2 * c)
  let b := failed.getLsbD (2 * c + 1)
  if a && b then 2 else if pref.getLsbD c then (if b then 0 else 1) else (if a then 1 else 0)

/-- The active selection is derived anew; a column that becomes NONE is reported (R385). -/
def takeSelection (d : Dev) : Dev :=
  let cols := (List.range 8192).map fun c => (c, deriveSelection d.lhd.prefActive d.lhd.failed c)
  let v := cols.foldr (fun x (a : Nat) => a * 4 + x.2) 0
  let dead := (cols.filter fun x => x.2 == 2).map Prod.fst
  let fresh := dead.filter fun c => selectionOf d c != 2
  let d1 := { d with lhd := { d.lhd with selection := BitVec.ofNat 16384 v } }
  fresh.foldl (fun d c => raise d (pageSeg (c / 32)) 5 clsHousekeeping sevWarning 0x0305 (payW c 0 0))
    (d1.setFld pageLhd 0x07C 0 14 dead.length)

/-! ### Line data on chip (R359 to R361) -/

/-- Line `k` of pass `p` of the running heat as staged, one code per column; empty while it is missing. -/
def stagedLine (d : Dev) (p k : Nat) : List Byte :=
  match d.heats.running with | some x => x.heat.lines.get (same []) (8192 * p + k) | none => []
def slotOf (d : Dev) (k : Nat) : Option (Nat × Nat) := d.lhd.slots.get (same none) (k % 16)
/-- The cycle in which line `k` entered its slot, while it is there. -/
def lineAt (d : Dev) (k : Nat) : Option Nat := match slotOf d k with | some (l, c) => if l = k then some c else none | none => none
/-- The next strobe to compute of the pass whose turn it is. -/
def nextStrobe (d : Dev) : Nat := match d.lhd.firing with | some f => f.next | none => 0

/-- The next line to fire of pass `p` of heat `h` (R104, R360). -/
def nextLine (d : Dev) (h : Heat) (e : Entry) : Nat :=
  match d.heats.running with
  | some x =>
    if x.heat.number ≠ h.number then 0
    else if psIndex e < x.pass then psLines e
    else if psIndex e = x.pass then min (nextStrobe d) (psLines e)
    else 0
  | none => 0

/-- Line `k` waits for its fetch before strobe `n`: the frame of strobe k + 8 is still to come, and its slot is free; a line
holds its slot until that frame is computed (R359). -/
def mayFetch (d : Dev) (n k : Nat) : Bool :=
  decide (n ≤ k + 8) && (match slotOf d k with | some (l, _) => l != k && decide (l + 8 < n) | none => true)

/-- Code frames may go out: at most the lines of 8 in a cycle, before its command frames (R517). -/
def mayCode (d : Dev) : Bool :=
  decide (d.boot.sentOf ≠ d.cycle + 1) &&
    decide (((List.range 16).filter fun i => match d.lhd.slots.get (same none) i with
      | some (_, c) => c == d.cycle | none => false).length < 8)

/-- The line that is fetched next: the lowest staged one of the pass whose slot is free (R359). -/
def fetchable (d : Dev) : Option (Entry × Nat) :=
  match d.heats.running with
  | some x =>
    match x.header with
    | some e =>
      let first := 8192 * psIndex e
      (x.heat.lines.find? fun l =>
        decide (first ≤ l.1 ∧ l.1 < first + psLines e) && mayFetch d (nextStrobe d) (l.1 - first)).map
        fun l => (e, l.1 - first)
    | none => none
  | none => none

/-- The code frames of a line, one to each module that is UP (R361, R522). -/
def sendCodes (d : Dev) (e : Entry) (k : Nat) : Dev :=
  let codes := (stagedLine d (psIndex e) k).toArray
  let heat := match d.heats.running with | some x => x.heat.number.toNat | none => 0
  upto 16 (fun d m =>
    match partnerLane d (modulePartner m) with
    | some l =>
      let payload := leNat ((List.range 512).map fun i => codes.getD (512 * m + i) 0) +
        ((List.range 512).foldr (fun i (a : Nat) => a * 4 + selectionOf d (512 * m + i)) 0) <<< 4096
      sendFrame d l codeHdr (frameHeader d.cycle 0 (boolNat d.par.sideB) heat (laneOf d l).rev 80 (psIndex e))
        (payloadCrc payload 80 + k <<< 32) payload
    | none => d) d

def fetchLine (d : Dev) : Dev :=
  if !d.computes || !mayCode d then d
  else
    match fetchable d with
    | some (e, k) =>
      sendCodes { d with lhd := { d.lhd with slots := d.lhd.slots.set (same none) (k % 16) (some (k, d.cycle)) } } e k
    | none => d

/-- Line `j` is present for its strobe, computed in this cycle s − 1 (R360). -/
def present (d : Dev) (j : Nat) : Bool :=
  (match lineAt d j with | some c => decide (c + 1 < d.cycle) | none => false) &&
    (match d.lhd.peerLines with | some l => l != 0xFFFFFFFF && decide (j ≤ l) | none => true)

/-! ### Pacing (R352 to R358) -/

/-- Nominal line period P (R352). -/
def linePeriod (e : Entry) : Nat := 31250000 / max 1 (psSpeed e)
/-- Position of line `k` (R351). -/
def lineY (e : Entry) (k : Nat) : Int := psStart e - k * 125000
/-- The last strobe whose position is not below PARK_Y. -/
def lastStrobe (d : Dev) (e : Entry) : Nat :=
  let park := match d.heats.running with
    | some x => (match x.heat.recoat with | some r => rcParkY r | none => psEnd e) | none => psEnd e
  min (psLines e + 7) (((psStart e - park) / 125000).toNat)

/-- The return stroke of the pass whose turn it is begins. -/
def beginFiring (d : Dev) (e : Entry) (refused : Bool) : Dev :=
  { d with lhd := { d.lhd with firing := some { header := e, refused := refused }, history := [] } }

/-- The pacing axis of the return stroke issues a step at tick `t` (R355, R356); under step pacing the stroke's last step
plans no strobe (R353). -/
def paceStep (d : Dev) (t : Nat) (final : Bool) : Dev :=
  match d.lhd.firing with
  | none => d
  | some f =>
    match f.steps with
    | none =>
      if carriageY d ≤ psStart f.header then
        setFiring d { f with steps := some 0, t0 := some (t + 2500), ticks := if final then [] else [(0, t + 2500)] }
      else d
    | some n =>
      let per := max 1 (d.fld pageLhd 0x040 0 16)
      let f1 := { f with steps := some (n + 1) }
      if (n + 1) % per = 0 ∧ psPacing f.header = 0 ∧ final = false then
        setFiring d { f1 with ticks := f1.ticks ++ [((n + 1) / per, t + 2500)] }
      else setFiring d f1

/-- The return stroke has issued its last step. -/
def strokeOver (d : Dev) : Dev := match d.lhd.firing with | some f => setFiring d { f with done := true } | none => d

/-- The tick of the next strobe, once it is known. -/
def strobeTick (f : Firing) : Option Nat :=
  if psPacing f.header = 0 then (f.ticks.find? fun x => x.1 == f.next).map Prod.snd
  else f.t0.map fun t => t + f.next * 31250000 / max 1 (psSpeed f.header)
/-- The strobe that the next cycle applies (R357). -/
def strobeDue (d : Dev) (f : Firing) : Option Nat :=
  match strobeTick f with
  | some t => if t / 1250 ≤ d.cycle + 1 ∧ f.next ≤ lastStrobe d f.header then some t else none
  | none => none
/-- No further strobe of the pass occurs (R353). -/
def strobesDone (d : Dev) (f : Firing) : Bool :=
  decide (lastStrobe d f.header < f.next) || (f.done && (strobeTick f).isNone)

/-- R358: the deviation of the carriage encoder at the strobe, nm, where it is beyond the tolerance. -/
def paceDeviation (d : Dev) (f : Firing) (t : Nat) : Option Int :=
  if d.flag pageLhd 0x040 17 then
    let x := channelOf d (96 + d.fld pageLhd 0x040 18 3)
    match (x.trail.reverse.find? fun s => decide (t ≤ s.1 + 2500)) with
    | some s =>
      let y := signed 32 (wrap32 ((s.2 : Int) - d.fld pageLhd 0x04C 0 32)) * d.sfld pageLhd 0x048 0 32 / 65536
      let dev := y - lineY f.header f.next
      if d.fld pageLhd 0x044 0 32 < dev.natAbs then some dev else none
    | none => none
  else none

/-! ### Dot widths (R364 to R366) -/

/-- Width of code `q` in segment `g` at a strobe (R366). -/
def widthAt (d : Dev) (s : Strobe) (g q : Nat) : Nat :=
  min (baseWidthOf d g q * s.factors.getD g 0 / 65536) (s.clamps.getD g 0)

/-- FACTOR of segment `g` (R365). -/
def segFactor (d : Dev) (g : Nat) (derated : Bool) : Nat :=
  let m := moduleOf d (g / 16)
  let vmin := d.fld pageLhd 0x100 16 16
  let vr := d.fld pageLhd 0x100 0 16 * 65536 / max 1 m.v
  let vr2 := if m.v < vmin then 65536 else vr * vr / 65536
  let t := m.temps.getD (g % 16) 0
  let tf := max (65536 + d.sfld (pageSeg g) 0x040 16 16 * (t - d.sfld (pageSeg g) 0x040 0 16) / 10) 0
  let f := vr2 * tf.toNat / 65536
  min (if derated then f * d.fld pageLhd 0x108 0 17 / 65536 else f) 4294967295

/-- The derate state of every segment at a latch (R370). -/
def derateStep (d : Dev) (g : Nat) : Dev :=
  let t := (moduleOf d (g / 16)).temps.getD (g % 16) 0
  let lim := d.sfld pageLhd 0x104 0 16
  let was := d.lhd.derated.getLsbD g
  if !was && decide (lim ≤ t) then
    raise { d with lhd := { d.lhd with derated := d.lhd.derated ||| BitVec.ofNat 256 (2 ^ g) } } (pageSeg g) 0 clsProcess sevNotice
      0x0302 (payW g (unsigned 16 t) 0)
  else if was && decide (t < lim - d.fld pageLhd 0x104 16 16) then
    { d with lhd := { d.lhd with derated := d.lhd.derated ^^^ BitVec.ofNat 256 (2 ^ g) } }
  else d

/-- The segment is OFF at this latch: supply, cut, base table, or a module without uplinks (R364, R372 to R374). -/
def segOff (d : Dev) (g : Nat) : Bool :=
  let m := moduleOf d (g / 16)
  decide (m.v < d.fld pageLhd 0x100 16 16) || m.cut.getLsbD (g % 16) || m.badTables.getLsbD (g % 16) || decide (3 ≤ m.late)

def supplyLow (d : Dev) (g : Nat) : Dev :=
  let m := moduleOf d (g / 16)
  if m.v < d.fld pageLhd 0x100 16 16 then raise d (pageSeg g) 3 clsProcess sevWarning 0x0307 (payW g m.v 0) else d

/-! ### Patch islands (R379 to R381) -/

/-- A run of gaps that becomes a pour: its dots, and start and end point in nm. -/
structure GapRun where
  dots : List Gap
  x0 : Int
  y0 : Int
  x1 : Int
  y1 : Int

/-- Splits a list into maximal runs whose keys rise by one. -/
def splitRuns (key : Gap → Nat) : List Gap → List (List Gap)
  | [] => []
  | g :: t =>
    match splitRuns key t with
    | (h :: r) :: rest => if key h = key g + 1 then (g :: h :: r) :: rest else [g] :: (h :: r) :: rest
    | other => [g] :: other

def insertGap (before : Gap → Gap → Bool) (g : Gap) : List Gap → List Gap
  | [] => [g]
  | h :: t => if before g h then g :: h :: t else h :: insertGap before g t
def sortGaps (before : Gap → Gap → Bool) (l : List Gap) : List Gap := l.foldl (fun a g => insertGap before g a) []

/-- Runs of equal key. -/
def groupGaps (key : Gap → Nat) : List Gap → List (List Gap)
  | [] => []
  | g :: t =>
    match groupGaps key t with
    | (h :: r) :: rest => if key h = key g then (g :: h :: r) :: rest else [g] :: (h :: r) :: rest
    | other => [g] :: other

/-- The runs of an accumulator in the order in which their pours stand (R379). -/
def gapRuns (e : Entry) (gaps : List Gap) : List GapRun :=
  let has (line col : Nat) : Bool := gaps.any fun g => g.line == line && g.col == col
  let isolated (g : Gap) : Bool :=
    !((g.col % 512 != 0 && has g.line (g.col - 1)) || (g.col % 512 != 511 && has g.line (g.col + 1)))
  let byCol := sortGaps (fun a b => decide (a.col < b.col) || (a.col == b.col && decide (a.line < b.line))) (gaps.filter isolated)
  let vertical := ((groupGaps (·.col) byCol).flatMap (splitRuns (·.line))).filter fun r => decide (2 ≤ r.length)
  let used (g : Gap) : Bool := vertical.any fun r => r.any fun h => h.line == g.line && h.col == g.col
  let byLine := sortGaps (fun a b => decide (a.line < b.line) || (a.line == b.line && decide (a.col < b.col)))
    (gaps.filter fun g => !used g)
  let horizontal := (groupGaps (·.line) byLine).flatMap (splitRuns (·.col))
  (horizontal.map fun r =>
    let k := (r.headD ⟨0, 0, 0⟩).line
    let a : Int := ((r.headD ⟨0, 0, 0⟩).col : Int) * 125000
    let b : Int := (((r.getLastD ⟨0, 0, 0⟩).col : Int) + 1) * 125000
    let y := lineY e k
    if k % 2 = 0 then ⟨r, a, y, b, y⟩ else ⟨r, b, y, a, y⟩) ++
  (vertical.map fun r =>
    let x : Int := ((r.headD ⟨0, 0, 0⟩).col : Int) * 125000 + 62500
    ⟨r, x, lineY e (r.headD ⟨0, 0, 0⟩).line + 62500, x, lineY e (r.getLastD ⟨0, 0, 0⟩).line - 62500⟩)

/-- POWER of a run (R380). -/
def runPower (d : Dev) (r : GapRun) : Nat :=
  let u := (r.dots.map (·.u)).sum
  min (u * d.fld pageTmp 0x054 0 16 * d.fld pageLhd 0x050 16 16 * 128 * d.fld pageLhd 0x054 16 16 /
    (max 1 r.dots.length * 125000000000 * 256)) (d.fld pageLhd 0x054 0 16)
def runPour (d : Dev) (r : GapRun) : BitVec 256 :=
  BitVec.ofNat 256 (atByte 0 (unsigned 32 r.x0) + atByte 4 (unsigned 32 r.y0) + atByte 8 (unsigned 32 r.x1) +
    atByte 12 (unsigned 32 r.y1) + atByte 16 (runPower d r) + atByte 18 (d.fld pageLhd 0x050 16 16) +
    atByte 28 (d.fld pageLhd 0x050 8 3))

def patchPours (x : Run) : Nat := (x.patches.map fun p => p.2.length).sum

/-- A closed accumulator becomes a patch island (R379, R381, R156). -/
def buildPatch (d : Dev) (a : Accum) : Dev :=
  match d.heats.running with
  | none => d
  | some x =>
    let runs := (gapRuns a.header a.gaps).filter fun r => 0 < runPower d r
    let last := a.first + d.fld pageLhd 0x058 0 9 - 1
    if runs.isEmpty then d
    else if 4096 ≤ x.patches.length then
      patchOverflow (d.addCount pageLhd 0x070 (runs.map fun r => r.dots.length).sum) (psIndex a.header) a.first last
    else
      let room := min 4096 (122880 - patchPours x)
      let built := runs.take room
      let lost := runs.drop room
      let d1 :=
        if lost.isEmpty then d
        else patchOverflow (d.addCount pageLhd 0x070 (lost.map fun r => r.dots.length).sum) (psIndex a.header) a.first last
      if built.isEmpty then d1
      else
        let pours := built.map (runPour d1)
        let pts := built.flatMap fun r => [(r.x0, r.y0), (r.x1, r.y1)]
        addPatch d1 (boxOf pts) pours

/-! ### Gaps (R375, R378) -/

/-- Only these gaps become patch islands (R377). -/
def patchesPass (d : Dev) (f : Firing) : Bool := psMode f.header == 1 && !f.refused && d.flag pageLhd 0x050 0

def accumsOf (d : Dev) (m : Nat) : List Accum := d.lhd.accums.get (same []) m
def setAccums (d : Dev) (m : Nat) (l : List Accum) : Dev := { d with lhd := { d.lhd with accums := d.lhd.accums.set (same []) m l } }

/-- The first accumulator that covers line `k` takes the gap. -/
def intoAccum (n : Nat) (g : Gap) : List Accum → Option (List Accum)
  | [] => none
  | a :: t =>
    if a.first ≤ g.line ∧ g.line < a.first + n then some ({ a with gaps := g :: a.gaps } :: t)
    else (intoAccum n g t).map (a :: ·)

def gatherGap (d : Dev) (e : Entry) (g : Gap) : Dev :=
  let m := g.col / 512
  let l := accumsOf d m
  match intoAccum (d.fld pageLhd 0x058 0 9) g l with
  | some l1 => setAccums d m l1
  | none =>
    let d1 := if 2 ≤ l.length then (match l with | a :: t => buildPatch (setAccums d m t) a | [] => d) else d
    setAccums d1 m (accumsOf d1 m ++ [{ header := e, first := g.line, gaps := [g] }])

/-- Undelivered dots of the pass: those of at least MIN_TICKS are gaps, counted and gathered. -/
def takeGaps (d : Dev) (f : Firing) (gaps : List Gap) : Dev :=
  let gs := gaps.filter fun g => decide (0 < g.u) && decide (d.fld pageLhd 0x058 16 16 ≤ g.u)
  if gs.isEmpty then d
  else
    let d1 := d.addCount pageLhd 0x068 gs.length
    let d2 := (List.range 256).foldl (fun d s =>
      let n := gs.countP fun g => g.col / 32 == s
      if n = 0 then d else d.addCount (pageSeg s) 0x06C n) d1
    if patchesPass d f then gs.foldl (fun d g => gatherGap d f.header g) d2 else d2

/-- The dots of line `k` in the columns that `q` selects, with the widths of strobe `s`. -/
def lineDots (d : Dev) (e : Entry) (k : Nat) (s : Strobe) (q : Nat → Nat → Bool) : List Gap :=
  match stagedLine d (psIndex e) k with
  | [] => []
  | codes =>
    (codes.foldl (fun (a : List Gap × Nat) b =>
      let c := a.2
      let v := b.toNat
      (if v != 0 && q c (selectionOf d c) then ⟨k, c, widthAt d s (c / 32) v⟩ :: a.1 else a.1, c + 1)) ([], 0)).1.reverse

/-! ### The latch of a strobe (R362, R365, R375, R376) -/

/-- Reports of the strobe's late lines (R362). -/
def lateLine (d : Dev) (e : Entry) (j : Nat) : Dev :=
  raise (d.count pageLhd 0x064) pageLhd 0 clsProcess sevWarning 0x0301 (pay (psIndex e) 0 j 0)
/-- A late line whose codes never came (R376). -/
def lateUnpatched (d : Dev) (e : Entry) (j : Nat) : Dev :=
  report (d.count pageLhd 0x06C) pageLhd clsProcess sevWarning 0x030B (pay (psIndex e) 0 j 0)

/-- The codes of line `k`, whose strobe is past, are present (R360): held whole here, and in a pair reported by the partner,
whose LINES names lines from the next line to fire on only, and so none that is late (R479; DEDUCED, log entry 86). -/
def codesPresent (d : Dev) (k : Nat) : Bool :=
  (match lineAt d k with | some c => decide (c + 1 < d.cycle) | none => false) && d.lhd.peerLines.isNone

/-- The gaps of late line `k`: row A with strobe k, row B with strobe `b` (R376). -/
def lateGaps (d : Dev) (f : Firing) (k : Nat) (b : Strobe) : Dev :=
  if !codesPresent d k then lateUnpatched d f.header k
  else
    let a := (d.lhd.history.find? fun s => s.index == k).getD b
    takeGaps d f (lineDots d f.header k a (fun _ s => s != 1) ++ lineDots d f.header k b (fun _ s => s == 1))

/-- Optical pJ of fired dots by row and cell column (R185). -/
def dotColumns (e : Entry) (k : Nat) (dots : List Gap) : List (Nat × Nat × Nat) :=
  (groupGaps (fun g => g.col / 16) dots).map fun r =>
    (cellClip (lineY e k), (r.headD ⟨0, 0, 0⟩).col / 16, (r.map (·.u)).sum)

/-- The dots of line `k` in the columns that `q` selects whose width the mould's limit clamps (R459). -/
def widthClamps (d : Dev) (e : Entry) (k : Nat) (s : Strobe) (q : Nat → Nat → Bool) : Dev :=
  let lim := mouldWidth d
  let wide := lineDots d e k { s with clamps := List.replicate 256 (2 ^ 64) } q
  let hit := wide.filter fun g => decide (lim < g.u) && s.clamps.getD (g.col / 32) 0 == lim
  (groupGaps (fun g => g.col / 32) hit).foldl (fun d r =>
    clampWidth (d.addCount pageMld 0x094 (r.length - 1)) ((r.headD ⟨0, 0, 0⟩).col / 32)) d

/-- A line starts: the committed groups of LHD and SEG that wait for it take effect (R44, R49, R365). -/
def lineGroups (d : Dev) : Dev :=
  d.regs.pend.foldl (fun d x =>
    match kindOf x.page with
    | some .lhd => if !PageKind.lhd.heatGroup x.group && groupRipe d x.page d.cycle x.group then takeGroup d x.page x.group else d
    | some .seg => if !PageKind.seg.heatGroup x.group && groupRipe d x.page d.cycle x.group then takeGroup d x.page x.group else d
    | _ => d) d

/-- The strobe `j` of tick `t` is latched, and its dots sorted into fired ones and gaps. -/
def latchStrobe (d00 : Dev) (f0 : Firing) (t : Nat) : Dev :=
  let d0 := lineGroups d00
  let j := f0.next
  let e := f0.header
  let count := psLines e
  let on := d0.enabled pageLhd && !f0.refused
  -- pacing (R358)
  let dev := paceDeviation d0 f0 t
  let d1 := match dev with
    | some v => raiseLimited (d0.count pageLhd 0x074) (!f0.told) pageLhd 1 clsMotion sevWarning 0x0306
        (pay (psIndex e) 0 j (unsigned 32 v))
    | none => d0
  let f1 := { f0 with
    told := f0.told || dev.isSome, blank := f0.blank || (dev.isSome && d1.flag pageLhd 0x040 21), next := j + 1, last := some t
    ticks := f0.ticks.filter fun x => j < x.1 }
  -- late lines (R362)
  let late := !f0.refused && decide (j < count) && !present d1 j
  let d2 := if late then lateLine d1 e j else d1
  let f2 := if late then { f1 with late := j :: f1.late.take 15, unpatched := f1.unpatched ++ [j] } else f1
  -- segments (R365)
  let d3 := upto 256 (fun d g => supplyLow (derateStep d g) g) d2
  let off := BitVec.ofNat 256 ((List.range 256).foldl (fun a g => if segOff d3 g then a + 2 ^ g else a) 0)
  let lim := min (min (mouldWidth d3) (linePeriod e - d3.fld pageLhd 0x110 0 16)) 262143
  let lateB := decide (8 ≤ j) && f2.late.contains (j - 8)
  -- no emission: both rows blank, every segment OFF (R461, R463, R469); the dots are no gaps of R375
  let kill := !permit d3
  let blankA := !on || f2.blank || decide (count ≤ j) || late || kill
  let blankB := !on || f2.blank || decide (j < 8) || lateB || kill
  let s : Strobe := {
    index := j, tick := t, factors := (List.range 256).map fun g => segFactor d3 g (d3.lhd.derated.getLsbD g)
    clamps := List.replicate 256 lim, off := if kill then BitVec.allOnes 256 else off, blankA := blankA, blankB := blankB }
  let d4 := setFiring { d3 with lhd := { d3.lhd with history := s :: d3.lhd.history.take 15, latched := some s } } f2
  let d5 := (d4.setFld pageLhd 0x060 0 16 (min (j + 1) count)).setFld pageLhd 0x060 16 16 j
  -- dots of both rows; those of a blank strobe with no cause of R375 are neither fired nor gaps
  let rowA := if decide (j < count) && !late then lineDots d5 e j s (fun _ q => q == 0) else []
  let dead := if decide (j < count) && !late then lineDots d5 e j s (fun _ q => q == 2) else []
  let rowB := if decide (8 ≤ j) && !lateB then lineDots d5 e (j - 8) s (fun _ q => q == 1) else []
  let lost (g : Gap) : Bool := f2.blank || off.getLsbD (g.col / 32)
  let firedA := rowA.filter fun g => on && !lost g && !kill
  let firedB := rowB.filter fun g => on && !lost g && !kill
  let d6 := takeGaps d5 f2 (rowA.filter lost ++ dead ++ rowB.filter lost)
  let d7a := if firedA.isEmpty then d6 else widthClamps d6 e j s fun c q => q == 0 && !lost ⟨0, c, 0⟩
  let d7 := if firedB.isEmpty then d7a else widthClamps d7a e (j - 8) s fun c q => q == 1 && !lost ⟨0, c, 0⟩
  let out : StrobeOut := {
    index := j, tick := t, widths := ((firedA ++ firedB).map (·.u)).sum
    columns := dotColumns e j firedA ++ dotColumns e (j - 8) firedB }
  let d8 := { d7 with lhd := { d7.lhd with out := some out } }
  -- the late line whose strobe was 8 before (R376)
  if 8 ≤ j ∧ f2.unpatched.contains (j - 8) = true then
    setFiring (lateGaps d8 f2 (j - 8) s) { f2 with unpatched := f2.unpatched.filter (· != j - 8) }
  else d8

/-! ### Uplinks (R363, R368, R372, R374, R384) -/

/-- The dots of module `m` that strobe `s` fired in row A (`rowB` false) or row B and that are still delivered. -/
def firedDots (d : Dev) (e : Entry) (s : Strobe) (rowB : Bool) (q : Nat → Bool) : List Gap :=
  let blank := if rowB then s.blankB else s.blankA
  let k := if rowB then s.index - 8 else s.index
  if blank then []
  else lineDots d e k s fun c sel => q c && sel == boolNat rowB && !s.off.getLsbD (c / 32) &&
    !(if rowB then s.missB else s.missA).getLsbD (c / 512)

def setStrobe (d : Dev) (s : Strobe) : Dev :=
  { d with lhd := { d.lhd with history := d.lhd.history.map fun x => if x.index = s.index then s else x } }

/-- A CODE_MISS report (R363). -/
def codeMiss (d : Dev) (m rows strobe : Nat) : Dev :=
  if rows = 0 then d
  else
    let d1 := raise d pageLhd 2 clsLink sevWarning 0x0309 (pay m rows strobe 0)
    match d1.lhd.firing, d1.lhd.history.find? (·.index == strobe) with
    | some f, some s =>
      let mine (c : Nat) : Bool := c / 512 == m
      let a := if bit rows 0 then firedDots d1 f.header s false mine else []
      let b := if bit rows 1 then firedDots d1 f.header s true mine else []
      let one := BitVec.ofNat 16 (2 ^ m)
      let s1 := { s with
        missA := if bit rows 0 then s.missA ||| one else s.missA, missB := if bit rows 1 then s.missB ||| one else s.missB }
      takeGaps (setStrobe d1 s1) f (a ++ b)
    | _, _ => d1

/-- A CUT_NEW report of segment `g` (R372). -/
def cutNew (d : Dev) (g strobe offset : Nat) : Dev :=
  let p := pageSeg g
  let d1 := ((d.count p 0x068).setReg p 0x070 offset).setReg p 0x074 strobe
  let d2 := raise d1 p 1 clsProcess sevWarning 0x0303 (payW g strobe offset)
  match d2.lhd.firing, d2.lhd.history.find? (·.index == strobe) with
  | some f, some s =>
    let mine (c : Nat) : Bool := c / 32 == g
    takeGaps d2 f ((firedDots d2 f.header s false mine ++ firedDots d2 f.header s true mine).map fun x =>
      { x with u := x.u - min x.u offset })
  | _, _ => d2

/-- One emitter measurement (R384). -/
def measureEmitter (d : Dev) (m index vf : Nat) : Dev :=
  let c := 512 * m + index / 2
  let row := index % 2
  let i := 2 * c + row
  let r : Int := ((vf : Int) - d.fld (pageSeg (c / 32)) 0x044 0 16) / 5
  let bad := decide (r < d.sfld pageLhd 0x114 0 16) || decide (d.sfld pageLhd 0x114 16 16 < r)
  let x := d.lhd
  let one := BitVec.ofNat 16384 (2 ^ i)
  let failing := bad && x.outside.getLsbD i && !x.failed.getLsbD i
  let d1 := { d with lhd := { x with
    results := x.results.set (same 0) i (BitVec.ofNat 16 (unsigned 16 r))
    outside := if bad then x.outside ||| one else x.outside &&& ~~~one
    failed := if failing then x.failed ||| one else x.failed } }
  if failing then raise d1 (pageSeg (c / 32)) 4 clsHousekeeping sevWarning 0x0304 (payW c row (unsigned 16 r)) else d1

/-- The uplink of module `m` as the computation finds it. -/
def moduleUplink (d : Dev) (m : Nat) : Dev :=
  let x := moduleOf d m
  match x.up with
  | none =>
    raise ((setModule d m { x with late := x.late + 1 }).count pageLhd 0x078) pageLhd 3 clsLink sevWarning 0x030A (pay m 0 0 0)
  | some u =>
    let v := u.toNat
    let cut := BitVec.ofNat 16 (bits v 272 16)
    let y := { x with
      v := bits v 0 16, temps := (List.range 16).map fun i => signed 16 (bits v (16 + 16 * i) 16), cut := cut, up := none, late := 0 }
    let d1 := codeMiss (setModule d m y) m (bits v 848 2) (bits v 850 16)
    let d2 := upto 16 (fun d i =>
      let g := 16 * m + i
      let d1 := if bit v (288 + i) then cutNew d g (bits v (304 + 16 * i) 16) (bits v (560 + 18 * i) 18) else d
      if x.cut.getLsbD i && !cut.getLsbD i then
        raise d1 (pageSeg g) 2 clsProcess sevInfo 0x0308 (payW g (unsigned 16 (y.temps.getD i 0)) 0)
      else d1) d1
    if bit v 866 then measureEmitter d2 m (bits v 867 10) (bits v 877 16) else d2

/-- The line head's part of the computation of a cycle: uplinks, then the latch of a strobe of the next cycle. -/
def lineHeadCycle (d : Dev) : Dev :=
  let measured := (List.range 16).any fun m => match (moduleOf d m).up with | some u => u.getLsbD 866 | none => false
  let d1 := upto 16 moduleUplink { d with lhd := { d.lhd with out := none } }
  let d2 := if measured then d1.setFld pageLhd 0x080 0 11 (min 1024 (d1.rfld pageLhd 0x080 0 11 + 1)) else d1
  match d2.lhd.firing with
  | some f => match strobeDue d2 f with | some t => latchStrobe d2 f t | none => d2
  | none => d2

/-! ### Strobe, cycle start, accumulators and pass end -/

/-- The frames of the last computation apply: the strobe that they carry (R357). -/
def applyStrobe (d : Dev) : Dev :=
  let x := d.lhd
  match x.out with
  | some o => { d with lhd := { x with applied := some o, out := none, lastApplied := some d.cycle, tested := false } }
  | none => { d with lhd := { x with applied := none } }

/-- The strobe that this cycle applies fires at its tick (R351). -/
def fireStrobe (d : Dev) : Dev :=
  match d.lhd.applied with
  | some o =>
    if o.fired then d
    else
      let e := d.advance (min o.tick (d.cycle * 1250 + 1249))
      { e with lhd := { e.lhd with applied := some { o with fired := true } } }
  | none => d

/-- An accumulator closes once strobe first + LINES + 9 is computed, or its pass has ended (R378). -/
def accumDue (d : Dev) (a : Accum) : Bool :=
  match d.lhd.firing with
  | some f => f.header != a.header || decide (a.first + d.fld pageLhd 0x058 0 9 + 9 < f.next)
  | none => true

/-- The oldest accumulator of module `m` that is due closes. -/
def closeAccumulator (d : Dev) (m : Nat) : Dev :=
  let l := accumsOf d m
  match l.find? (accumDue d) with
  | some a => if d.computes then buildPatch (setAccums d m (l.erase a)) a else d
  | none => d

/-- The dots of strobes that do not occur (R353, R375). -/
def tailGaps (d : Dev) (f : Firing) : Dev :=
  let n := f.next
  let count := psLines f.header
  if count + 8 ≤ n then d
  else
    let d1 := raise d pageLhd 4 clsProcess sevNotice 0x030C (pay (psIndex f.header) 0 n 0)
    match d1.lhd.latched with
    | some s =>
      (List.range (count + 8 - n)).foldl (fun d i =>
        let j := n + i
        let a := if j < count then lineDots d f.header j s (fun _ q => q != 1) else []
        let b := if 8 ≤ j ∧ ¬f.late.contains (j - 8) = true then lineDots d f.header (j - 8) s (fun _ q => q == 1) else []
        takeGaps d f (a ++ b)) d1
    | none => d1

/-- The pass is due to end in this cycle (R354). -/
def passOver (d : Dev) (f : Firing) : Bool :=
  strobesDone d f &&
    (match f.last with
     | some t => decide (t + linePeriod f.header + 1250 ≤ d.cycle * 1250 + d.fld pageLhd 0x110 0 16)
     | none => true)

/-- The pass ends: late and tail gaps, slots free, reservation released (R353, R354, R167, R376). -/
def endPass (d : Dev) : Dev :=
  match d.lhd.firing, d.heats.running with
  | some f, some x =>
    if d.computes && passOver d f then
      let d1 := match d.lhd.history with
        | s :: _ => f.unpatched.foldl (fun d k => lateGaps d f k s) d
        | [] => d
      let d2 := (tailGaps d1 f).setFld pageLhd 0x060 0 16 0
      let d3 := { d2 with lhd := { d2.lhd with firing := none, slots := [] } }
      match d3.heats.running with
      | some y => { d3 with heats := { d3.heats with running := some { y with
          pass := x.pass + 1, passFreeAt := some (d.cycle + 1), passRefused := false, fired := if f.refused then x.fired else x.fired + 1 } } }
      | none => d3
    else d
  | _, _ => d

/-! ### Emitter test (R382 to R384) -/

/-- The conditions of R382 at the start of a cycle. -/
def testAllowed (d : Dev) : Bool :=
  d.enabled pageLhd && d.flag pageLhd 0x05C 0 && d.lhd.firing.isNone &&
    (match d.heats.running with
     | some x => !x.passPending && !x.passHeld && x.strokeAt.isNone
     | none => true) &&
    d.stp.carriageDir == 0 && !axisMoving d 0 && !axisMoving d 1 && d.stp.carriage0 == d.cal.park &&
    (match d.lhd.lastApplied with | some c => decide (c + 10000 < d.cycle) | none => true) && !d.lhd.tested

def startTest (d : Dev) : Dev :=
  if d.computes && d.lhd.testing.isNone && testAllowed d then
    { (d.setReg pageLhd 0x080 0) with lhd := { d.lhd with testing := some d.cycle } }
  else d

/-- At a cycle start: a test whose conditions fail ends incomplete; an abort lasts one cycle (R383). -/
def testCycle (d : Dev) : Dev :=
  match d.lhd.testing with
  | some _ => if testAllowed d then d else { d with lhd := { d.lhd with testing := none, aborting := true } }
  | none => { d with lhd := { d.lhd with aborting := false } }

/-- The test has run its 1,024 cycles and the last uplink is in. -/
def finishTest (d : Dev) : Dev :=
  match d.lhd.testing with
  | some c =>
    if d.computes && decide (c + 1025 ≤ d.cycle) then
      let n := (List.range 16384).countP fun i => d.lhd.failed.getLsbD i
      raise { (d.setFld pageLhd 0x080 16 1 1) with lhd := { d.lhd with testing := none, tested := true } } pageLhd 5
        clsHousekeeping sevInfo 0x030E (pay 0 0 0 n)
    else d
  | none => d

/-- TEST of the frames computed in this cycle (R367, R382, R383). -/
def testField (d : Dev) : Nat :=
  match d.lhd.testing with
  | some c => if d.cycle < c + 1024 then 1 else 0
  | none => if d.lhd.aborting then 2 else 0

/-- The command payload of module `m` (R367, R519). -/
def lineHeadPayload (d : Dev) (m : Nat) : Nat :=
  let tail := testField d <<< 30 + d.fld pageLhd 0x10C 0 16 <<< 32 + d.fld pageLhd 0x10C 16 16 <<< 48
  match d.lhd.out, d.lhd.history.head? with
  | some o, some s =>
    let segs := (List.range 16).foldl (fun (a : Nat) i =>
      let g := 16 * m + i
      a + s.factors.getD g 0 <<< (64 + 32 * i) + s.clamps.getD g 0 <<< (576 + 18 * i) + boolNat (s.off.getLsbD g) <<< (864 + i)) 0
    1 + (o.tick % 1250) <<< 1 + (s.index % 65536) <<< 12 + boolNat s.blankA <<< 28 + boolNat s.blankB <<< 29 + tail + segs
  | _, _ => tail

/-! ### LINES entries (R100 to R104) -/

/-- An entry of line-data ring `4 + r`. R102 says which entries are taken and not what becomes of the others: one that names
a heat already past completes with STALE, and one whose PASS a closed heat does not have waits at the head of its ring
(DESIGN CHOICE, log entry 73). -/
def linesCommand (d : Dev) (r : Nat) (e : Entry) (rd : HostRead) (self : Instr) : Dev :=
  let ring := 4 + r
  if !canRead d ring then d
  else if bits e.toNat 248 1 ≠ phaseAt (entryPos d ring) then phaseError d ring
  else if !linesShape e then takeEntry d ring e fun d i => entryDone d ring i stFormat 0 (enHeat e) 0 0
  else
    let n := BitVec.ofNat 32 (enHeat e)
    -- a heat past, or rejected or cancelled while the entry's buffer was being read
    if heatPast d n || ((ringOf d ring).begun && (findHeat d n).isNone) then
      takeEntry d ring e fun d i => entryDone d ring i stStale 0 (enHeat e) 0 0
    else
      match findHeat d n with
      | none => park d ring self false
      | some h =>
        match h.passes.find? fun p => psIndex p == byteField e 26 1 with
        | none => park d ring self false
        | some p =>
          if rd = .waiting then park d ring self true
          else takeEntry d ring e fun d i => linesData (forwardEntry d ring i e rd) r i e h p (nextLine d h p) rd

/-! ### Meanings -/

/-- R102. -/
def execLines (t : Nat) (r : Fin 4) (e : Entry) (rd : HostRead) (s : State) : Host.Outcome State Fault Refusal :=
  onDev s fun d => linesCommand (d.arrive t) r.val e rd (.lines 0 r e rd)
/-- R359. -/
def execLineFetch (s : State) : Host.Outcome State Fault Refusal := onDev s fetchLine
/-- R351. -/
def execLineStrobe (s : State) : Host.Outcome State Fault Refusal := onDev s fireStrobe
/-- R378. -/
def execAccumulatorClose (m : Fin 16) (s : State) : Host.Outcome State Fault Refusal :=
  onDev s fun d => closeAccumulator d m.val
/-- R382. -/
def execEmitterTestStart (s : State) : Host.Outcome State Fault Refusal := onDev s startTest
/-- R384. -/
def execEmitterTestDone (s : State) : Host.Outcome State Fault Refusal := onDev s finishTest
/-- R354. -/
def execPassEnd (t : Nat) (s : State) : Host.Outcome State Fault Refusal := onDev s fun d => endPass (d.arrive t)

end Sys2Proof.Machine
end

