-- ==== Sys2Proof/Machine/Stepper.lean ====
section
/-! DEFINITION. Stepper moves, step by step: commands, retargets and stops, heat moves, position compare and coil
current (R390 to R419, R458). -/
namespace Sys2Proof.Machine

/-! ### Moves -/

/-- A word of an axis' page as a move that starts now finds it (R49, R405). -/
def saxWord (d : Dev) (x off : Nat) : Nat := dueWord d (pageSax x) off (groupRipe d (pageSax x) d.cycle)
/-- A word of an axis' page in force for a command of this cycle: a moving axis keeps what it has until it is at rest or its
next move starts (R44, R49, R405). -/
def saxNow (d : Dev) (x off : Nat) : Nat :=
  if axisMoving d x then (d.regs.inUse (wordAddr (pageSax x) off)).toNat else saxWord d x off
/-- The position `p` of axis `x` is inside the virtual limits that such a command finds (R403). -/
def mayStand (d : Dev) (x : Nat) (p : Int) : Bool :=
  decide (signed 32 (saxNow d x 0x048) ≤ p ∧ p ≤ signed 32 (saxNow d x 0x04C))
def saxLive (d : Dev) (x off : Nat) : Nat := inUseAt d (wordAddr (pageSax x) off) d.cycle
def saxTarget (d : Dev) (x : Nat) : Int := signed 32 (saxLive d x 0x040)
def saxSpeed (d : Dev) (x : Nat) : Nat := bits (saxLive d x 0x044) 0 20 * 1000
def saxVdir (d : Dev) (x : Nat) : Bool := bit (saxLive d x 0x044) 31

def putMove (d : Dev) (m : Move) : Dev :=
  { d with stp := { d.stp with moves := d.stp.moves.map fun y => if y.lead = m.lead then m else y } }
/-- The move is to stop, from the start of this cycle on. A gantry move that issues no further step is no longer in progress
at that start (R393). -/
def putStop (d : Dev) (m : Move) : Dev :=
  let rest := decide (m.last ≤ m.issued) && m.mask.getLsbD 0 && d.tick % 1250 == 0
  putMove { d with stp := { d.stp with carriageDir := if rest then 0 else d.stp.carriageDir } }
    { m with stopFrom := d.cycle * 1250 }
def dropMove (d : Dev) (m : Move) : Dev := { d with stp := { d.stp with moves := d.stp.moves.filter (·.lead != m.lead) } }
/-- The move of an axis, its last step issued or not. -/
def listedMove (d : Dev) (x : Nat) : Option Move := d.stp.moves.find? fun m => m.mask.getLsbD x
def Move.axes (m : Move) : List Nat := maskAxes m.mask.toNat
/-- Position of the lead. -/
def leadPos (d : Dev) (m : Move) : Int := (axisOf d m.lead).pos
def Move.dir (m : Move) : Int := if m.negative then -1 else 1

/-- The axis whose microsteps axis `x` issues too: the lowest of the gantry or platform group, else its own (R391). -/
def stepsWith (x : Nat) : Nat := if x < 2 then 0 else if x < 6 then 2 else x

/-- The timer places the next step of the move's axes: each no earlier than the mould's minimum interval, as it is now,
allows (R400, R458). -/
def placeStep (d : Dev) (axes : List Nat) : Dev :=
  axes.foldl (fun d x =>
    let a := axisOf d x
    setAxis d x { a with soonest := match a.lastStep with | some l => l + 250000000 / max 1 (mouldStep d x) | none => 0 }) d

/-- A move begins at tick `t` with `total` steps of its lead (R399, R400). -/
def beginMove (d : Dev) (mask lead kind : Nat) (heat : Option HeatMove) (negative : Bool) (total speed t : Nat) : Dev :=
  let axes := maskAxes mask
  let vmax := axes.foldl (fun v x => min v (mouldStep d x * 1000)) (min speed 500000000)
  let vs := min (bits (saxWord d lead 0x100) 0 16 * 1000) vmax
  let iv := 16384000000000000 / max 1 vs
  let m : Move := {
    mask := BitVec.ofNat 12 mask, lead := lead, kind := kind, heat := heat, negative := negative, total := total, issued := 0
    last := total, v := vs, a := 0, iv := iv, time := t * 65536 + iv, vmax := vmax, vs := vs
    acc := bits (saxWord d lead 0x104) 0 24, dec := max 1 (bits (saxWord d lead 0x108) 0 24)
    jerk := max 1 (saxWord d lead 0x10C), scurve := bit (saxWord d lead 0x100) 16
    abortDec := max 1 (bits (saxWord d lead 0x110) 0 24), stopping := false, aborted := false, nextVel := none
    clamped := false, began := t }
  -- a gantry move that begins at a cycle start is in progress at that cycle's start (R132, R393)
  let gantry := axes.contains 0 && t % 1250 == 0
  let d1 := { d with stp := { d.stp with
      moves := d.stp.moves ++ [m], carriageDir := if gantry then m.dir else d.stp.carriageDir } }
  placeStep (axes.foldl (fun d x =>
    let a := axisOf d x
    setAxis d x (coilThresholds d x { a with holding := false, next := none })) d1) axes

/-- Start and travel of each axis for the targets, and the lead (R399, R402). -/
def planTravel (d : Dev) (mask : Nat) (targets : List (Nat × Int)) : Dev × Nat × Int :=
  let axes := maskAxes mask
  let low := axes.headD 0
  let goal (x : Nat) : Int := match targets.find? fun t => t.1 == x with | some t => t.2 | none => (axisOf d x).pos
  let travel (x : Nat) : Int := goal (stepsWith x) - (axisOf d (stepsWith x)).pos
  let lead := axes.foldl (fun l x => if (travel l).natAbs < (travel x).natAbs then x else l) low
  (axes.foldl (fun d x => setAxis d x { axisOf d x with start := (axisOf d x).pos, travel := travel x }) d, lead, travel lead)

/-- A POSITION move from rest at the lead's `speed`; without travel there is none. -/
def beginPosition (d : Dev) (mask : Nat) (targets : List (Nat × Int)) (speed : Nat → Nat) (heat : Option HeatMove) (t : Nat) : Dev :=
  let p := planTravel d mask targets
  if p.2.2 = 0 then d
  else beginMove p.1 mask p.2.1 0 heat (decide (p.2.2 < 0)) p.2.2.natAbs (speed p.2.1) t

/-- Steps of axis `x` to its limit in the direction. -/
def limitRoom (d : Dev) (negative : Bool) (x : Nat) : Nat :=
  let p := (axisOf d x).pos
  if negative then (p - signed 32 (saxNow d x 0x048)).toNat else (signed 32 (saxNow d x 0x04C) - p).toNat
/-- Steps from the axes' positions to the nearest limit in the direction (R404). -/
def stepsToLimit (d : Dev) (mask : Nat) (negative : Bool) : Nat :=
  match maskAxes mask with
  | [] => 0
  | x :: t => t.foldl (fun m y => min m (limitRoom d negative y)) (limitRoom d negative x)

def limitEvent (d : Dev) (x cause : Nat) : Dev :=
  raise d (pageSax x) 0 clsMotion sevWarning 0x0802 (pay x cause 0 (unsigned 32 (axisOf d x).pos))

/-- A VELOCITY move from rest; one that starts at its limit reaches it at once. -/
def beginVelocity (d : Dev) (mask speed : Nat) (negative : Bool) (t : Nat) : Dev :=
  let n := stepsToLimit d mask negative
  let axes := maskAxes mask
  if n = 0 then axes.foldl (fun e x => if limitRoom d negative x = 0 then limitEvent e x 1 else e) d
  else
    let travel : Int := if negative then -(n : Int) else n
    let d1 := axes.foldl (fun d x => setAxis d x { axisOf d x with start := (axisOf d x).pos, travel := travel }) d
    beginMove d1 mask (axes.headD 0) 1 none negative n speed t

/-! ### Stops (R406, R407, R409, R458) -/

/-- The position of an axis of the move after `i` steps of the lead (R402). -/
def axisAfter (d : Dev) (m : Move) (x i : Nat) : Int :=
  followerPos (axisOf d x).start (axisOf d x).travel i m.total

def abortEvent (d : Dev) (x cause : Nat) (p : Int) : Dev :=
  raise d (pageSax x) 1 clsMotion sevWarning 0x0803 (pay x cause 0 (unsigned 32 p))

/-- The abort stop of a move (R407): cause 0 for a stop point beyond a limit, 1 for a disable. -/
def abortStop (d : Dev) (m : Move) (cause : Nat) : Dev :=
  let n := ceilDiv (m.v * m.v - m.vs * m.vs) (2 * m.abortDec * 1000000)
  let m1 := { m with last := m.issued + n, dec := m.abortDec, scurve := false, stopping := true, aborted := true }
  m.axes.foldl (fun d x =>
    let d1 := abortEvent d x cause (axisAfter d m1 x m1.last)
    if cause = 0 then setPen d1 (pageSax x) 0 else d1) (putStop d m1)

/-- The stop of a retarget: at the move's own DEC, or an abort stop where its point lies beyond a limit (R406). -/
def stopMove (d : Dev) (m : Move) : Dev :=
  let p := leadPos d m + m.dir * m.nStop
  if insideLimits d m.lead p then putStop d { m with last := m.issued + m.nStop, stopping := true } else abortStop d m 0

/-- The mould's step-rate limit of an axis stands at 0: its move ends where it is (R458). -/
def haltMove (d : Dev) (m : Move) : Dev :=
  let d1 := putStop d { m with last := m.issued, stopping := true, nextVel := none }
  let d2 := m.axes.foldl (fun d x => abortEvent (setAxis d x { axisOf d x with next := none }) x 2 (axisOf d x).pos) d1
  raise d2 pageMld 6 clsMotion sevNotice 0x0D08 (pay m.lead 0 0 0)
/-- Moves of axes whose limit has become 0. -/
def stepRateCheck (d : Dev) : Dev :=
  (d.stp.moves.filter fun m => !m.finished && m.axes.any fun x => mouldStep d x == 0).foldl haltMove d

/-! ### The end of a move (R399, R404, R408, R409) -/

/-- A heat move has reached its target: the stroke of the heat goes on (R15 to R18). -/
def heatMoveEnded (d : Dev) (h : HeatMove) : Dev :=
  match d.heats.running with
  | none => d
  | some x =>
    if h.group = 0 then
      if x.stroke = 1 then { d with heats := { d.heats with running := some { x with stroke := 2, arrived := true } } }
      else if x.stroke = 3 then strokeOver { d with heats := { d.heats with running := some { x with stroke := 4 } } }
      else d
    else d

/-- A move whose last step is issued ends: its limits, and what follows it. -/
def endMove (d : Dev) (m : Move) : Dev :=
  let from0 := max m.began m.stopFrom
  let t := match (axisOf d m.lead).lastStep with | some s => max s from0 | none => from0
  let d1 := dropMove d m
  let d2 :=
    if m.kind = 1 ∧ m.issued = m.total then
      m.axes.foldl (fun d x =>
        let p := (axisOf d x).pos
        if (m.negative && p == limitLo d x) || (!m.negative && p == limitHi d x) then limitEvent d x 1 else d) d1
    else d1
  let d3 := if m.aborted then
      m.axes.foldl (fun d x => if insideLimits d x (axisOf d x).pos then d else limitEvent d x 3) d2
    else d2
  let able := m.axes.all fun x => d3.enabled (pageSax x) && mouldStep d3 x != 0
  match m.heat with
  | some h =>
    if m.issued < m.total || m.aborted then { d3 with stp := { d3.stp with waiting := d3.stp.waiting ++ [{ h with since := d.tick, told := false }] } }
    else heatMoveEnded d3 h
  | none =>
    let nexts := m.axes.filterMap fun x => (axisOf d3 x).next.map fun p => (x, p)
    let d4 := m.axes.foldl (fun d x => setAxis d x { axisOf d x with next := none }) d3
    if !able then d4
    else match m.nextVel with
      | some (v, neg) => beginVelocity d4 m.mask.toNat v neg t
      | none => if nexts.isEmpty then d4 else beginPosition d4 m.mask.toNat nexts (fun x => (axisOf d4 x).nextSpeed) none t

/-- A row of the table: the move of `x` has issued its last step. -/
def moveEnd (d : Dev) (x : Nat) : Dev :=
  match listedMove d x with
  | some m => if m.finished then endMove d m else d
  | none => d

/-! ### Commands (R395, R396, R406, R408) -/

/-- The result of a command of this kind, 0 where it is accepted (R396). -/
def moveResult (d : Dev) (mask kind : Nat) : Nat :=
  let axes := maskAxes mask
  let partOf (g : Nat) : Bool := mask &&& g != 0 && mask &&& g != g
  if kind = 0 ∧ (axes.any fun x => !mayStand d x (saxTarget d x)) = true then 1
  else if d.heats.running.isSome ∧ mask % 256 ≠ 0 then 2
  else if (axes.any fun x => match moveOf d x with | some m => m.mask.toNat != mask | none => false) = true then 3
  else if (partOf gantryMask || partOf platformMask) = true then 4
  else if (axes.any fun x => !d.enabled (pageSax x)) = true then 5
  else if kind = 1 ∧ 1 < axes.length ∧ mask ≠ gantryMask ∧ mask ≠ platformMask ∧ mask ≠ dosingMask then 6
  else if (axes.any fun x => mouldStep d x == 0) = true then 7
  else 0

/-- A POSITION command on its own running move (R406). It goes on where the lead can still stop at its target, no follower
would have to turn back, and none has further to go than the lead, which would make it step twice for one step of the lead
(R402; log entry 56). -/
def retarget (d : Dev) (m : Move) : Dev :=
  let d1 := m.axes.foldl (fun d x =>
    setAxis d x { axisOf d x with next := some (saxTarget d x), nextSpeed := saxSpeed d x }) d
  if m.stopping then putMove d1 { m with nextVel := none }
  else
    let travel (x : Nat) : Int := saxTarget d (stepsWith x) - (axisOf d (stepsWith x)).pos
    let far := travel m.lead * m.dir
    if (m.nStop : Int) ≤ far ∧ (m.axes.all fun x =>
        decide ((travel x).natAbs ≤ far.natAbs) && decide (0 ≤ travel x * (axisOf d x).travel)) = true then
      let d2 := m.axes.foldl (fun d x =>
        setAxis d x { axisOf d x with start := (axisOf d x).pos, travel := travel x, next := none }) d1
      putMove d2 { m with kind := 0, total := far.toNat, issued := 0, last := far.toNat, nextVel := none }
    else stopMove d1 { m with nextVel := none }

/-- A VELOCITY command on its own running move. -/
def respeed (d : Dev) (m : Move) (speed : Nat) (negative : Bool) : Dev :=
  let d1 := m.axes.foldl (fun d x => setAxis d x { axisOf d x with next := none }) d
  if m.stopping then putMove d1 { m with nextVel := some (speed, negative) }
  else if m.negative = negative then
    let n := stepsToLimit d1 m.mask.toNat negative
    let travel : Int := if negative then -(n : Int) else n
    let vmax := m.axes.foldl (fun v x => min v (mouldStep d x * 1000)) (min speed 500000000)
    let d2 := m.axes.foldl (fun d x => setAxis d x { axisOf d x with start := (axisOf d x).pos, travel := travel }) d1
    putMove d2 { m with
      kind := 1, total := n, issued := 0, last := n, vmax := vmax, vs := min vmax (bits (saxNow d m.lead 0x100) 0 16 * 1000)
      nextVel := none }
  else stopMove d1 { m with nextVel := some (speed, negative) }

/-- STP_MOVE takes effect at the start of a cycle (R395): the result, then the move. -/
def moveCommand (d0 : Dev) (mask kind : Nat) : Dev :=
  if mask = 0 ∨ d0.enabled pageStp = false then d0
  else
    let ended := d0.stp.moves.filter fun m => m.finished && m.heat.isNone && m.mask.toNat &&& mask != 0
    let d := ended.foldl endMove d0
    let r := moveResult d mask kind
    let d1 := d.setReg pageStp 0x044 (r + mask <<< 16)
    let axes := maskAxes mask
    let t := d.cycle * 1250
    if r = 1 then
      axes.foldl (fun d x =>
        if mayStand d x (saxTarget d x) then d
        else limitEvent d x 0) d1
    else if r ≠ 0 then raise d1 pageStp 0 clsMotion sevNotice 0x0805 (payW mask r 0)
    else
      let running := axes.head?.bind (moveOf d1)
      if kind = 0 then
        match running with
        | some m => retarget d1 m
        | none => beginPosition d1 mask (axes.map fun x => (x, saxTarget d1 x)) (saxSpeed d1) none t
      else if kind = 1 then
        let lead := axes.headD 0
        match running with
        | some m => respeed d1 m (saxSpeed d1 lead) (saxVdir d1 lead)
        | none => beginVelocity d1 mask (saxSpeed d1 lead) (saxVdir d1 lead) t
      else
        match running with
        | some m =>
          let d2 := m.axes.foldl (fun d x => setAxis d x { axisOf d x with next := none }) d1
          if m.stopping then putMove d2 { m with nextVel := none }
          else putStop d2 { m with last := min m.last (m.issued + m.nStop), nextVel := none }
        | none => d1

/-! ### Heat moves (R397, R398) -/

def groupMask (g : Nat) : Nat := if g = 0 then gantryMask else if g = 1 then platformMask else dosingMask

/-- Why a heat move waits (R398): 0 axis disabled, 1 target beyond a limit, 2 step-rate limit 0. -/
def heatMoveBlocked (d : Dev) (h : HeatMove) : Option Nat :=
  let axes := maskAxes (groupMask h.group)
  if axes.any fun x => !d.enabled (pageSax x) then some 0
  else if h.targets.any fun t => !mayStand d t.1 t.2 then some 1
  else if axes.any fun x => mouldStep d x == 0 then some 2
  else none

/-- A heat move that waits can be tested: its time has come and its group is at rest. -/
def heatMoveReady (d : Dev) (h : HeatMove) : Bool :=
  decide (h.since ≤ d.cycle * 1250) && (maskAxes (groupMask h.group)).all fun x => (listedMove d x).isNone

/-- A heat move that waits in `d0` starts at a cycle start with the others of its phase, or waits with them while one of them
must (R397, R398). Without travel it ends where it starts. -/
def testHeatMove (d0 d : Dev) (h : HeatMove) : Dev :=
  let mates := d0.stp.waiting.filter (·.phase == h.phase)
  let keep (h : HeatMove) : Dev := { d with stp := { d.stp with waiting := d.stp.waiting ++ [h] } }
  if !mates.all (heatMoveReady d0) then keep h
  else
    match mates.findSome? (heatMoveBlocked d0) with
    | some c =>
      if (mates.any (·.told)) = true ∨ mates.head? ≠ some h then keep { h with told := true }
      else raise (keep { h with told := true }) pageStp 1 clsMotion sevWarning 0x0806 (pay h.phase c 0 0)
    | none =>
      if (planTravel d (groupMask h.group) h.targets).2.2 = 0 then heatMoveEnded d h
      else beginPosition d (groupMask h.group) h.targets (fun _ => h.speed) (some h) (d0.cycle * 1250)

/-- Every waiting heat move is tested, in order. -/
def startHeatMoves (d : Dev) : Dev :=
  if d.computes then d.stp.waiting.foldl (testHeatMove d) { d with stp := { d.stp with waiting := [] } } else d

/-- A heat move joins those that wait. -/
def addHeatMove (d : Dev) (group : Nat) (targets : List (Nat × Int)) (speed phase : Nat) : Dev :=
  { d with stp := { d.stp with waiting := d.stp.waiting ++ [⟨group, targets, speed, phase, d.tick, false⟩] } }

/-- The gantry's next stroke. -/
def addStroke (d : Dev) (y : Int) (mmps phase : Nat) : Dev :=
  let p := bedToSteps d 0 y
  addHeatMove d 0 [(0, p), (1, (axisOf d 1).pos + (p - (axisOf d 0).pos))] (speedToSteps d 0 mmps) phase

/-! ### Position compare (R410) -/

def cmpDone (d : Dev) (x : Nat) : Dev :=
  (setAxis d x { axisOf d x with armed := false }).setFld (pageSax x) 0x054 0 1 0
def cmpFire (d : Dev) (x t : Nat) : Dev :=
  raise ((cmpDone d x).setReg (pageSax x) 0x068 (t % 2 ^ 32)) (pageSax x) 3 clsMotion sevInfo 0x0804 (pay x 0 0 (t % 2 ^ 32))

/-- SAX_CMP takes effect at the start of a cycle. -/
def cmpArm (d : Dev) (x v : Nat) : Dev :=
  let dir := bits v 1 2
  let pos := signed 32 (saxLive d x 0x050)
  let a := axisOf d x
  if !bit v 0 then setAxis d x { a with armed := false }
  else
    let d1 := setAxis d x { a with armed := true, cmpPos := pos, cmpDir := dir }
    let motion : Int := match moveOf d x with
      | some _ => if a.travel < 0 then -1 else if 0 < a.travel then 1 else 0
      | none => 0
    let passed := if dir = 0 then decide (pos ≤ a.pos) else if dir = 1 then decide (a.pos ≤ pos)
      else (decide (0 < motion) && decide (pos < a.pos)) || (decide (motion < 0) && decide (a.pos < pos))
    if passed then
      if bit v 3 then cmpFire d1 x (d.cycle * 1250)
      else raise (cmpDone d1 x) (pageSax x) 2 clsMotion sevNotice 0x0801 (pay x 0 0 (unsigned 32 a.pos))
    else d1

/-- The compare of an axis that stepped from `p` to `q` at tick `t`. -/
def cmpStep (d : Dev) (x : Nat) (p q : Int) (t : Nat) : Dev :=
  let a := axisOf d x
  let up := decide (p < a.cmpPos ∧ a.cmpPos ≤ q)
  let down := decide (a.cmpPos < p ∧ q ≤ a.cmpPos)
  if a.armed && ((a.cmpDir == 0 && up) || (a.cmpDir == 1 && down) || (a.cmpDir == 2 && (up || down))) then cmpFire d x t else d

/-! ### Steps (R399, R402, R458) -/

/-- The axes that step with the lead's next step, and their positions then. -/
def stepping (d : Dev) (m : Move) : List (Nat × Int) :=
  m.axes.filterMap fun x =>
    let p := axisAfter d m x (m.issued + 1)
    if p = (axisOf d x).pos then none else some (x, p)

/-- The tick of the move's next step: R399, no earlier than the mould's minimum interval where the timer placed it (R400,
R458). -/
def stepTick (d : Dev) (m : Move) : Nat :=
  (stepping d m).foldl (fun t s => max t (axisOf d s.1).soonest) (m.time / 65536)

/-- One axis steps to `p` at tick `t`. -/
def stepAxis (d : Dev) (s : Nat × Int) (t : Nat) : Dev :=
  let x := s.1
  let a := axisOf d x
  let d1 := setAxis d x (coilThresholds d x { a with pos := s.2, lastStep := some t, holding := false })
  cmpStep (d1.send (.step x (decide (s.2 < a.pos)))) x a.pos s.2 t

/-- The step of the move of axis `x` is issued once its tick has come. -/
def issueStep (d : Dev) (x : Nat) : Dev :=
  match moveOf d x with
  | none => d
  | some m =>
    if m.axes.any fun y => mouldStep d y == 0 then haltMove d m
    else
      let t := stepTick d m
      if d.tick < t then d
      else
        let late := decide (m.time / 65536 < t)
        let d1 := if late && !m.clamped then raise d pageMld 6 clsMotion sevNotice 0x0D08 (pay m.lead 0 0 0) else d
        let steps := stepping d m
        let d2 := steps.foldl (fun d s => stepAxis d s t) d1
        let m1 := { m with
          issued := m.issued + 1, time := if late then t * 65536 else m.time, clamped := m.clamped || late }
        let d3 := placeStep (putMove d2 m1.nextInterval) m.axes
        let pace := if d.flag pageLhd 0x040 16 then 1 else 0
        match m.heat, d.heats.running with
        | some h, some r => if h.group = 0 ∧ r.stroke = 3 ∧ (steps.any fun s => s.1 == pace) = true then paceStep d3 t (m.issued + 1 == m.total && !m.aborted) else d3
        | _, _ => d3

/-! ### Enable and disable (R409, R414) -/

/-- CTL.ENABLE of an axis rises: its coils begin the loop of R412. -/
def saxEnable (d : Dev) (x : Nat) : Dev :=
  let a := coilThresholds d x (axisOf d x)
  setAxis d x { a with coilA := a.coilA.loop, coilB := a.coilB.loop }
/-- It falls: a running move makes an abort stop, and the gates go OFF. -/
def saxDisable (d : Dev) (x : Nat) : Dev :=
  let d1 := match moveOf d x with | some m => if m.aborted then d else abortStop d m 1 | none => d
  setAxis d1 x (axisOff (axisOf d1 x))

/-! ### Coil current (R411 to R414) -/

def coilOf (a : StepAxis) (c : Nat) : Coil := if c = 0 then a.coilA else a.coilB
def setCoil (a : StepAxis) (c : Nat) (k : Coil) : StepAxis := if c = 0 then { a with coilA := k } else { a with coilB := k }
def onCoil (d : Dev) (x c : Nat) (f : Coil → Coil) : Dev :=
  if d.enabled (pageSax x) then setAxis d x (setCoil (axisOf d x) c (f (coilOf (axisOf d x) c))) else d

/-- The fast part of T_OFF lasts at least one CTL cycle: T_OFF in ceil(T × 0.46875 per ns) cycles (R412). -/
def hasFast (d : Dev) (x : Nat) : Bool :=
  let off := (d.fld (pageSax x) 0x120 0 11 * 10 * 46875 + 99999) / 100000
  decide (16 ≤ off * d.fld (pageSax x) 0x120 16 4)
/-- The sense has reached the threshold: the decay begins. -/
def Coil.decay (c : Coil) (fast : Bool) : Coil :=
  match c.mode with
  | .drive n => if fast then c.enter (.fast n) else c.enter .slow
  | _ => c
def senseTrip (d : Dev) (x c : Nat) : Dev :=
  onCoil d x c fun k => if k.blank then k else k.decay (hasFast d x)
/-- The blanking time is over: a sign that changed meanwhile restarts the drive. -/
def blankEnd (d : Dev) (x c : Nat) (above : Bool) : Dev :=
  onCoil d x c fun k =>
    match k.mode with
    | .drive n =>
      if !k.blank then k
      else
        let k1 := { k with blank := false }
        if n != k.negative then k1.loop else if above then k1.decay (hasFast d x) else k1
    | _ => k
/-- The fast part, or the rest of T_OFF, is over. -/
def offTimeEnd (d : Dev) (x c : Nat) : Dev :=
  onCoil d x c fun k =>
    match k.mode with
    | .fast _ => k.enter .slow
    | .slow => if k.waiting then k else k.loop
    | _ => k
def deadTimeEnd (d : Dev) (x c : Nat) : Dev :=
  onCoil d x c fun k => { k with gates := k.gates ||| k.rising, rising := 0 }

/-- HOLD_DELAY cycles after its last step an axis at rest takes I_HOLD (R411). -/
def holdTimeout (d : Dev) (x : Nat) : Dev :=
  let a := axisOf d x
  let due := match a.lastStep with | some t => t + 1250 * bits (saxWord d x 0x12C) 0 16 | none => 0
  if !axisMoving d x && !a.holding && decide (due < (d.cycle + 1) * 1250) then
    setAxis (d.advance due) x (coilThresholds d x { a with holding := true })
  else d

/-! ### Meanings -/

def stpMove (d : Dev) (mask kind : Nat) : Dev := if d.running then moveCommand d mask kind else d

/-- R395. -/
def execStpMovePosition (mask : BitVec 12) (s : State) : Host.Outcome State Fault Refusal :=
  onDev s fun d => stpMove d mask.toNat 0
/-- R395. -/
def execStpMoveVelocity (mask : BitVec 12) (s : State) : Host.Outcome State Fault Refusal :=
  onDev s fun d => stpMove d mask.toNat 1
/-- R395. -/
def execStpMoveStop (mask : BitVec 12) (s : State) : Host.Outcome State Fault Refusal :=
  onDev s fun d => stpMove d mask.toNat 2
/-- R399. -/
def execStepIssue (t : Nat) (axis : Fin 12) (s : State) : Host.Outcome State Fault Refusal :=
  onDev s fun d => issueStep (d.arrive t) axis.val
/-- R399. -/
def execStepperMoveEnd (t : Nat) (axis : Fin 12) (s : State) : Host.Outcome State Fault Refusal :=
  onDev s fun d => moveEnd (d.arrive t) axis.val
/-- R410. -/
def execSaxCmpArm (axis : Fin 12) (value : Word) (s : State) : Host.Outcome State Fault Refusal :=
  onDev s fun d => cmpArm (d.setReg (pageSax axis.val) 0x054 (value.toNat % 16)) axis.val value.toNat
/-- R412. -/
def execChopperSenseTrip (t : Nat) (axis : Fin 12) (coil : Fin 2) (s : State) : Host.Outcome State Fault Refusal :=
  onDev s fun d => senseTrip (d.arrive t) axis.val coil.val
/-- R412. -/
def execChopperBlankEnd (t : Nat) (axis : Fin 12) (coil : Fin 2) (above : Bool) (s : State) :
    Host.Outcome State Fault Refusal :=
  onDev s fun d => blankEnd (d.arrive t) axis.val coil.val above
/-- R412. -/
def execChopperOffTimeEnd (t : Nat) (axis : Fin 12) (coil : Fin 2) (s : State) : Host.Outcome State Fault Refusal :=
  onDev s fun d => offTimeEnd (d.arrive t) axis.val coil.val
/-- R414. -/
def execGateDeadTimeEnd (t : Nat) (axis : Fin 12) (coil : Fin 2) (s : State) : Host.Outcome State Fault Refusal :=
  onDev s fun d => deadTimeEnd (d.arrive t) axis.val coil.val
/-- R411. -/
def execHoldCurrentTimeout (axis : Fin 12) (s : State) : Host.Outcome State Fault Refusal :=
  onDev s fun d => holdTimeout d axis.val

end Sys2Proof.Machine
end

