-- ==== Sys2Proof/Machine/Calibration.lean ====
section
/-! DEFINITION. Calibration runs: plate, power head, blackbody, converter trim and drift, and how their results come
into force (R420 to R451). -/
namespace Sys2Proof.Machine

/-! ### Entries and buffers (R423, R431, R432, R443) -/

def calType (e : Entry) : Nat := byteField e 0 1
def calTarget (e : Entry) : Nat := byteField e 1 1
def calAddr (e : Entry) : Nat := byteField e 8 8
def calLength (e : Entry) : Nat := byteField e 16 4
/-- Bytes of a parameter buffer as a number. -/
def bufField (b : List Byte) (off n : Nat) : Nat := leNat ((b.drop off).take n)
def bufSigned (b : List Byte) (off n : Nat) : Int := signed (8 * n) (bufField b off n)
/-- `n` bytes of a number put at byte `off`. -/
def bufPut (b : List Byte) (off n v : Nat) : List Byte := b.take off ++ leBytes n v ++ b.drop (off + n)
def bufZero (b : List Byte) (off n : Nat) : Bool := ((b.drop off).take n).all (· == 0)

def plateOk (b : List Byte) (len : Nat) : Bool :=
  let n := bufField b 10 1
  let speed := bufField b 4 2
  let scan := bufField b 8 2
  decide (1 ≤ n ∧ n ≤ 16 ∧ len = 64 + 32 * n ∧ 1 ≤ speed ∧ speed ≤ 200 ∧ 100 ≤ scan ∧ scan ≤ 5000) &&
    decide (bufField b 11 1 < 2) && bufZero b 18 14 && bufZero b 50 14 &&
    (List.range n).all fun i =>
      decide (bufField b (72 + 32 * i) 1 ≤ 15) && bufZero b (73 + 32 * i) 7 && bufZero b (94 + 32 * i) 2
def powerOk (b : List Byte) (len : Nat) : Bool :=
  let n := bufField b 16 1
  let tol := bufField b 17 1
  let dwell := bufField b 18 2
  let avg := bufField b 20 2
  decide (1 ≤ n ∧ n ≤ 8 ∧ len = 32 + 8 * n ∧ 1 ≤ tol ∧ tol ≤ 50 ∧ 100 ≤ dwell ∧ dwell ≤ 10000 ∧ 10 ≤ avg ∧ avg ≤ dwell) &&
    bufField b 4 4 != 0 && bufZero b 24 8 &&
    (List.range n).all fun i => bufField b (32 + 8 * i) 2 != 0 && bufZero b (34 + 8 * i) 2

/-- Reserved values of the entry itself (R423). -/
def calEntryOk (e : Entry) : Bool :=
  let t := calType e
  decide (0x21 ≤ t ∧ t ≤ 0x25) && byteField e 2 2 == 0 && byteField e 24 7 == 0 &&
    (if t = 0x24 then decide (calTarget e ≤ 4) else decide (calTarget e ≤ 31)) &&
    (if t = 0x23 then byteField e 18 1 != 0 && byteField e 19 1 == 0 else byteField e 20 4 == 0)
def calBufferOk (e : Entry) (b : List Byte) : Bool :=
  if calType e = 0x21 then plateOk b (calLength e) else if calType e = 0x22 then powerOk b (calLength e) else true

/-- The station of a run's target, if any: that of the context for a blackbody run. -/
def CalRun.station (r : CalRun) : Option Nat := if r.type = 0x24 then none else some r.target

/-! ### Raw count space (R439) -/

/-- The bed point that raw counts stand for, reckoned by J at the base point. -/
def rawPoint (d : Dev) (s : Nat) (r : CalRun) (c : Int × Int) : Int × Int :=
  match stationInverse d s r.base.1 r.base.2 (c.1 - r.baseCounts.1) (c.2 - r.baseCounts.2) with
  | some (nx, ny, den) => (r.base.1 + nx * 65536 / den, r.base.2 + ny * 65536 / den)
  | none => r.base
/-- The station's raw references for the next cycle. -/
def setRaw (d : Dev) (s : Nat) (c v : Int × Int) : Dev :=
  setStation d s { stationOf d s with raw := some (c.1, c.2, v.1, v.2), moved := true }

/-- The references of the marks: X and Y count of mark `k`. -/
def markRef (d : Dev) (r : CalRun) (k : Nat) : Nat × Nat :=
  if r.type = 0x21 then (bufField r.buffer (32 + 8 * k) 4, bufField r.buffer (36 + 8 * k) 4)
  else match (calStation d r.target).refs with
    | some m => if k = 0 then (m.x0, m.y0) else (m.x1, m.y1)
    | none => (0, 0)

/-- Counts where scan `i` starts: scans 0 and 1 are the X and Y scan of mark 0. -/
def scanStart (d : Dev) (r : CalRun) (i : Nat) : Int × Int :=
  let m := markRef d r (i / 2)
  let span : Int := d.fld pageCal 0x048 0 12 / 2
  -- the reference nearest the counts in use, so that the jump is the short way
  let near (ref : Nat) (c : Int) : Int := c + signed 32 (wrap32 ((ref : Int) - c))
  let x := near m.1 r.counts.1
  let y := near m.2 r.counts.2
  if i % 2 = 0 then (x - span, y) else (x, y - span)

/-- The held point after scans: the bed point that the raw counts stand for. -/
def leaveRaw (d : Dev) (s : Nat) (r : CalRun) : Dev :=
  let p := rawPoint d s r r.counts
  let st := stationOf d s
  setStation d s { st with cmd := { st.cmd.rest with x := p.1, y := p.2 }, next := { st.next.rest with x := p.1, y := p.2 } }

/-- A run leaves raw count space (R425, R439): the station holds at the counts of its scan, or completes the service jump
under way, whose end it holds in counts (R207). -/
def endRaw (d : Dev) (s : Nat) (r : CalRun) : Dev :=
  let p0 := if r.type = 0x21 then 200 else 0
  if (r.type ≠ 0x21 ∧ r.type ≠ 0x25) ∨ r.phase < p0 ∨ (r.phase = p0 ∧ r.path.isNone = true) then d
  else
    let st := stationOf d s
    match r.path, st.raw with
    | some p, _ =>
      let e := scanStart d r ((r.phase - p0) / 2)
      setStation d s { st with
        raw := none, path := some p, remap := some (wrap32 e.1, wrap32 e.2), cmd := pathSetpoint d s p (cycleAt d.cycle), moved := true }
    | none, some (cx, cy, _, _) => leaveRaw (setRaw d s (cx, cy) (0, 0)) s { r with counts := (cx, cy) }
    | none, none => d

/-! ### The end of a run (R425, R429 to R431) -/

/-- The result record; an entry that starts no run has no run number, and a drift run that no entry asked for no tag and no
ring of its own: the spec names none, and free values stand there (log entry 4). -/
def calRecord (d : Dev) (ring : Nat) (status type target tag number cause step detail : Nat) : Dev :=
  emitShared d (18 + ring) .plain
    (atByte 0 (d.tick % 2 ^ 64) + atByte 8 0x10 + atByte 9 status + atByte 10 type + atByte 11 target + atByte 12 (tag % 2 ^ 32) +
      atByte 16 (number % 2 ^ 32) + atByte 20 cause + atByte 21 (step % 256) + atByte 24 (detail % 2 ^ 32))

/-- The station holds at its last point with the gate closed (R425): at the raw counts of a scan, or at the end of the
motion under way (R207). A run that fails its first checks leaves the station to the motion that it found. -/
def releaseStation (d : Dev) (s : Nat) (r : CalRun) : Dev :=
  let d1 := endRaw d s r
  let st := stationOf d1 s
  let y := { st with service := false, serviceGate := none, denied := false }
  setStation d1 s (if r.checked then
      { y with motion := if st.path.isSome then 1 else 0, path := st.path.map fun p => { p with dark := true } }
    else { y with motion := r.motion })

def calPay (cause type target number : Nat) : Nat := pay cause type target number

/-- The run ends with a status, a cause and its record; a buffer with device fields goes back to the host (R423, R429). -/
def endRun (d : Dev) (h : Option Nat) (r : CalRun) (status cause : Nat) : Dev :=
  let d1 := putRun d h none
  let d2 := match r.station with | some s => if r.started then releaseStation d1 s r else d1 | none => d1
  let back := d.holds && (r.type == 0x21 || (r.type == 0x22 && r.checked)) && status != 0x11
  let d3 := if back then d2.send (.host r.addr r.buffer) else d2
  let d4 := calRecord d3 r.ring status r.type r.target r.tag r.number cause r.step
    (if status = 0 ∨ r.type = 0x21 then r.detail else 0)
  if status = 0x10 then raise d4 pageCal 1 clsCal sevWarning 0x0901 (calPay cause r.type r.target r.number)
  else if status = 0x11 then raise d4 pageCal 2 clsCal sevWarning 0x0902 (calPay cause r.type r.target r.number)
  else raise d4 pageCal 0 clsCal sevInfo 0x0903 (calPay 0 r.type r.target r.number)

/-- The buffer of a plate run with the marks measured so far and T_REF (R432, R435). -/
def CalRun.plateBuffer (r : CalRun) : List Byte :=
  bufPut ((List.range r.marks.length).foldl (fun b k => bufPut b (32 + 4 * k) 4 (r.marks.getD k 0)) r.buffer) 48 2
    (unsigned 16 r.temp)

/-- A failed check (R429): a plate run's buffer goes back with what has been measured. A drift run's temperature then
stands in for T_last (R437). -/
def calFail (d : Dev) (h : Option Nat) (r : CalRun) (cause : Nat) : Dev :=
  let d1 := match h with
    | some s => setCalStation d s { calStation d s with lastTemp := some r.temp }
    | none => d
  endRun d1 h (if r.type = 0x21 then { r with buffer := r.plateBuffer } else r) 0x10 cause
/-- An abort (R430). -/
def calAbort (d : Dev) (h : Option Nat) (r : CalRun) (cause : Nat) : Dev := endRun d h r 0x11 cause

/-- Every run aborts: CAL_RUN.ABORT, CAL disabled, an ensign change. -/
def abortAll (d : Dev) (cause : Nat) : Dev :=
  let d1 := match d.cal.run with | some r => calAbort d none r cause | none => d
  upto 32 (fun d s => match getRun d (some s) with | some r => calAbort d (some s) r cause | none => d) d1
/-- A heat starts during a host run (R430). A run that has not made its first computation fails check 4 there, and one that
has done its work ends OK. -/
def abortForHeat (d : Dev) : Dev :=
  match d.cal.run with
  | some r => if r.checked && !r.done then calAbort d none r 6 else d
  | none => d

/-! ### Taking an entry (R422 to R425) -/

/-- An entry that starts no run (R431). -/
def calEntryFault (d : Dev) (ring index : Nat) (e : Entry) (status : Nat) : Dev :=
  let n := orFree d 32 none
  let d1 := calRecord n.2 ring status (calType e) (calTarget e) (byteField e 4 4) n.1 0 0 0
  report d1 pageCal clsCal sevWarning 0x0906 (pay status 0 0 index)

/-- An entry taken in cycle `n`: a DRIFT entry marks its station due, the others start a run three cycles later (R422,
R425). -/
def beginEntry (d : Dev) (n ring : Nat) (e : Entry) (b : List Byte) : Dev :=
  if calType e = 0x25 then
    setCalStation d (calTarget e) { calStation d (calTarget e) with due := some (ring, byteField e 4 4) }
  else
    putRun d none (some
      { type := calType e, target := calTarget e, tag := byteField e 4 4, ring := ring, addr := calAddr e, startAt := n + 3
        buffer := if calType e = 0x23 then leBytes 32 e.toNat else b })

/-- The entry is taken; the holder of a pair forwards the run start with its cycle (R427), as a BULK record of the
calibration ring: the cycle, the entry and the buffer (DESIGN CHOICE, log entry 27). -/
def takeRun (d : Dev) (ring : Nat) (e : Entry) (b : List Byte) : Dev :=
  let d1 := if d.pairHolder then
      sendCopy 4 2 d (10 + ring) (leBytes 8 d.cycle ++ leBytes 32 e.toNat ++ b)
    else d
  beginEntry d1 d.cycle ring e b

/-- The standby takes a run start that the holder forwards, with the cycle of the holder (R427). -/
def forwardedRun (d : Dev) (ring : Nat) (e : Entry) (bytes : List Byte) : Dev :=
  if d.par.role = roleStandby ∧ calEntryOk e = true then beginEntry d (leNat (bytes.take 8)) ring e (bytes.drop 8) else d

/-- The entry acts (R422, R423). -/
def calAct (d : Dev) (ring index : Nat) (e : Entry) (rd : HostRead) : Dev :=
  if !calEntryOk e then calEntryFault d ring index e 0x02
  else if calType e = 0x21 ∨ calType e = 0x22 then
    let least := if calType e = 0x21 then 64 else 32
    if calLength e < least then calEntryFault d ring index e 0x02
    else
      match rd with
      | .ok b => if calBufferOk e b then takeRun d ring e b else calEntryFault d ring index e 0x02
      | _ => calEntryFault (dmaFault d (16 + ring) (calAddr e)) ring index e 0x07
  else takeRun d ring e []

/-- Whether the device takes an entry of ring `16 + ring` now (R424). -/
def calTakes (d : Dev) (ring : Nat) (e : Entry) : Bool :=
  d.cal.run.isNone && d.enabled pageCal && (calType e == 0x24 || !drifting d (calTarget e)) &&
    (if ring = 0 then !(ringOf d 17).begun else ringCons d 16 == ringProd d 16 && !(ringOf d 16).begun)

/-- The read of a buffer has not come back. -/
def calWaits (e : Entry) (rd : HostRead) : Bool :=
  (calType e == 0x21 || calType e == 0x22) && calEntryOk e && rd == .waiting

/-- An entry of a calibration ring; only the ensign holder reads these rings (R427). -/
def calEntry (d : Dev) (ring : Nat) (e : Entry) (rd : HostRead) (self : Instr) : Dev :=
  if (ringOf d (16 + ring)).begun then
    -- CAL disabled since the entry was begun: the run is taken and aborted
    let off := !d.enabled pageCal
    takeEntry d (16 + ring) e fun d index => let d1 := calAct d ring index e rd; if off then abortAll d1 1 else d1
  else if !calTakes d ring e then d
  else if calWaits e rd && canRead d (16 + ring) then
    (if bits e.toNat 248 1 = phaseAt (ringCons d (16 + ring)) then park d (16 + ring) self true else phaseError d (16 + ring))
  else takeEntry d (16 + ring) e fun d index => calAct d ring index e rd

/-! ### The start of a run (R425, R437, R438) -/

/-- The run begins: its number and the station's service. A motion of the station that is under way goes on to its end
(R207). -/
def beginRun (d : Dev) (h : Option Nat) (r : CalRun) : Dev :=
  let n := d.cal.runs + 1
  let temp := match r.station with | some s => stationTemp d s | none => 0
  let before := match r.station with | some s => (stationOf d s).motion | none => 0
  let d1 := putRun { d with cal := { d.cal with runs := n } } h
    (some { r with started := true, number := n, temp := temp, motion := before })
  match r.station with
  | some s => setStation d1 s { stationOf d1 s with service := true, serviceGate := none, denied := false, motion := 6 }
  | none => d1

def calStart (d : Dev) : Dev :=
  match d.cal.run with
  | some r => if d.running && !r.started && decide (r.startAt ≤ d.cycle) then beginRun d none r else d
  | none => d

/-- R438: an idle station that no run holds. -/
def driftStart (d : Dev) (s : Nat) : Dev :=
  let held := match d.cal.run with | some r => r.station == some s | none => false
  if d.computes && driftDue d s && stationFree d s && !held && !drifting d s && d.enabled pageCal then
    let c := calStation d s
    let r : Nat × Nat × Dev := match c.due with
      | some q => (q.1, q.2, d)
      | none => let a := orFree d 1 none; let b := orFree a.2 32 none; (a.1, b.1, b.2)
    let d1 := setCalStation r.2.2 s { c with due := none }
    beginRun d1 (some s) { type := 0x25, target := s, tag := r.2.1, ring := r.1, addr := 0, startAt := d.cycle }
  else d

/-! ### Checks (R428) -/

def carriageParked (d : Dev) : Bool := !axisMoving d 0 && !axisMoving d 1 && (axisOf d 0).pos == d.cal.park
/-- The blocks that use a converter group (R449). -/
def groupBlocks (g : Nat) : List Nat :=
  if g = 0 then (List.range 6).map pageSax else if g = 1 then (List.range 6).map fun x => pageSax (6 + x)
  else if g = 3 then (List.range 8).map fun c => pageFch (96 + c) else []
def groupSize (g : Nat) : Nat := if g ≤ 1 then 12 else if g ≤ 3 then 16 else 1
def groupOff (d : Dev) (g : Nat) : Bool := (groupBlocks g).all fun p => !d.enabled p

/-- The lowest index of the active tone curve that reaches T_BB (R446). -/
def toneReaches (d : Dev) (c tbb : Nat) : Option Nat :=
  (List.range 1024).find? fun q => decide (tbb ≤ toneAt (ctxOf d c).active q * 10)

/-- The checks of the first computation besides the dark search and the head's zero, in the order of their numbers. -/
def beforeCheck (d : Dev) (r : CalRun) : Option Nat :=
  let s := r.target
  let station := decide (r.type = 0x21 ∨ r.type = 0x22 ∨ r.type = 0x23) && !(stationIdleNow d s)
  if station then some 2
  else if (r.type = 0x21 ∨ r.type = 0x22 ∨ r.type = 0x23) ∧ carriageParked d = false then some 3
  else if r.type ≠ 0x25 ∧ d.heats.running.isSome = true then some 4
  else if r.type = 0x23 ∧ ((ctxOf d s).mode ≠ 1 ∨ groupPending d (pageCtx s) 0 = true) then some 8
  else if r.type = 0x23 ∧ (toneReaches d s (bufField r.buffer 16 2)).isNone = true then some 10
  else if r.type = 0x24 ∧ groupOff d s = false then some 11
  else if r.type = 0x25 ∧ (calStation d s).refs.isNone = true then some 12
  else none

/-- The checks of the later computations. -/
def duringCheck (d : Dev) (r : CalRun) : Option Nat :=
  if (r.type = 0x21 ∨ r.type = 0x22 ∨ r.type = 0x23) ∧ carriageParked d = false then some 3
  else if r.type = 0x24 ∧ groupOff d r.target = false then some 11
  else none

/-- Causes of an abort that a computation sees (R430). -/
def abortCause (d : Dev) (r : CalRun) : Option Nat :=
  let fault := (match r.station with | some s => (stationOf d s).fault | none => false) || (r.type == 0x23 && (ctxOf d r.target).mode == 2)
  let opened := d.mould.latched && decide (r.startAt + 1 ≤ d.mould.latchedAt)
  if fault then some 2 else if opened then some 3 else none

/-! ### Motions of a run -/

/-- A service jump with the gate closed to a bed point in nm; the mould's speed limit 0 leaves no plan (R430, R456). -/
def serviceJump (d : Dev) (s : Nat) (x y : Int) : Option Dev :=
  if mouldSpeed d s = 0 then none
  else
    let st := stationOf d s
    let f1 := signed 32 (fctTarget d s st.bank 2 (nm16 x) (nm16 y))
    some (setStation d s { jumpToRest d s { st with raw := none } (nm16 x) (nm16 y) st.cmd.rest.kin st.cmd.focus f1 (cycleAt (d.cycle + 1)) with
      motion := 6, settleRun := 0 })
/-- The station stands still: the motion that the run found has ended, and a move to new counts too (R207). -/
def standsStill (d : Dev) (s : Nat) : Bool := (stationOf d s).path.isNone && (stationOf d s).remap.isNone
/-- The station stands within its settle bound in this cycle (R201). -/
def settleStep (d : Dev) (s : Nat) : Dev :=
  let st := stationOf d s
  let err := d.fld (pageStn s) 0x110 0 16
  let inside := decide ((st.spotX - st.cmd.x).natAbs ≤ err * 65536 ∧ (st.spotY - st.cmd.y).natAbs ≤ err * 65536)
  setStation d s { st with settleRun := if inside then st.settleRun + 1 else 0 }
def settledNow (d : Dev) (s : Nat) : Bool := decide (d.fld (pageStn s) 0x110 16 8 ≤ (stationOf d s).settleRun)
/-- The straight run of a plate scan as a pour: end points in nm, power, speed (R433). -/
def scanPour (x0 y0 x1 y1 : Int) (power speed : Nat) : BitVec 256 :=
  BitVec.ofNat 256 (atByte 0 (wrap32 x0) + atByte 4 (wrap32 y0) + atByte 8 (wrap32 x1) + atByte 12 (wrap32 y1) + atByte 16 power + atByte 18 speed)
/-- The mark of a plate scan begins at the next cycle start, from rest to rest, with the gate open. -/
def serviceMark (d : Dev) (s : Nat) (p : BitVec 256) (level : Nat) : Option Dev :=
  if mouldSpeed d s = 0 then none
  else
    let st := stationOf d s
    some (setStation d s { st with
      path := some (planMark d s p 0 (cycleAt (d.cycle + 1)) 0 0 0 false (focusOffset d s p)), serviceGate := some level, moved := true })
def motionOver (d : Dev) (s : Nat) : Bool := (stationOf d s).path.isNone
/-- The motion under way ends by the start of the next cycle. -/
def motionEnds (d : Dev) (s : Nat) : Bool :=
  match (stationOf d s).path with | some p => decide (p.finish ≤ cycleAt (d.cycle + 1)) | none => true
def closeService (d : Dev) (s : Nat) : Dev := setStation d s { stationOf d s with serviceGate := none }
def openService (d : Dev) (s level : Nat) : Dev := setStation d s { stationOf d s with serviceGate := some level }

/-! ### Mark scans in raw count space (R439, R440) -/

/-- Raw counts of a bed point reckoned the same way, and count rates in Q16.16 per cycle. -/
def rawCounts (d : Dev) (s : Nat) (r : CalRun) (k : Kin) : (Int × Int) × (Int × Int) :=
  let c := countRates d s r.base.1 r.base.2 (toFine (k.x - r.base.1)) (toFine (k.y - r.base.2)) 1
  let v := countRates d s r.base.1 r.base.2 k.vx k.vy 1250
  ((r.baseCounts.1 + c.1 / 65536, r.baseCounts.2 + c.2.1 / 65536), (v.1, v.2.1))

/-- The counts at which the station's axes are held. -/
def heldCounts (d : Dev) (s : Nat) : Nat × Nat :=
  let st := stationOf d s
  match st.raw with
  | some (cx, cy, _, _) => (wrap32 cx, wrap32 cy)
  | none =>
    let e := match st.path with | some p => (p.ex, p.ey) | none => (st.cmd.x, st.cmd.y)
    let c := commandTargets d s e.1 e.2
    (c.1, c.2.1)

/-- A homing shift of channel `c` goes on in the references of the service that runs (R299): in the axis's reference of
this cycle, and in what the next ones come from. -/
def shiftReference (d : Dev) (c : Nat) : Dev :=
  let delta := (channelOf d c).shift
  if delta = 0 then d
  else
    let s := c / 3
    let k := c % 3
    let x := axisOfServo d c
    let d1 := setServo d c { x with refPos := (x.refPos + delta) % 2 ^ 32 }
    let st := stationOf d1 s
    let dx : Int := if k = 0 then delta else 0
    let dy : Int := if k = 1 then delta else 0
    let run (r : CalRun) : CalRun := { r with
      baseCounts := (r.baseCounts.1 + dx, r.baseCounts.2 + dy), counts := (r.counts.1 + dx, r.counts.2 + dy) }
    let h := if drifting d1 s then some s else none
    if k = 2 then
      setStation d1 s { st with
        cmd := { st.cmd with focus := st.cmd.focus + delta }, next := { st.next with focus := st.next.focus + delta }
        path := st.path.map fun p => { p with f0 := p.f0 + delta, f1 := p.f1 + delta } }
    else
      match st.raw with
      | some (cx, cy, vx, vy) =>
        putRun (setStation d1 s { st with raw := some (cx + dx, cy + dy, vx, vy) }) h ((getRun d1 h).map run)
      | none =>
        let old := heldCounts d1 s
        setStation d1 s { st with remap := some (wrap32 (old.1 + dx), wrap32 (old.2 + dy)) }

/-- Raw count space is entered at the point where the station stands. -/
def enterRaw (d : Dev) (s : Nat) (r : CalRun) : CalRun :=
  let st := stationOf d s
  let c := heldCounts d s
  { r with base := (st.cmd.x, st.cmd.y), baseCounts := ((c.1 : Int), (c.2 : Int)), counts := ((c.1 : Int), (c.2 : Int)), path := none, marks := [] }

/-- What a computation of a scan sequence leads to. -/
inductive ScanStep where
  | go (d : Dev) (r : CalRun)
  | over (d : Dev) (r : CalRun)
  | mark (d : Dev) (r : CalRun)
  | stuck
  deriving DecidableEq, Repr

/-- The centre of a finished scan (R439): none where the mark is not in sight or too far from its reference. -/
def scanCentre (d : Dev) (r : CalRun) (i : Nat) : Option Nat :=
  match r.first, r.last with
  | some a, some b =>
    let c := wrap32 ((a + b) / 2)
    let m := markRef d r (i / 2)
    let ref := if i % 2 = 0 then m.1 else m.2
    if (countDiff c ref).natAbs ≤ d.fld pageCal 0x050 0 32 then some c else none
  | _, _ => none

/-- One computation of the four scans; `phase - p0` is twice the scan's number, plus one while it runs. -/
def scanStep (d : Dev) (s p0 : Nat) (r : CalRun) : ScanStep :=
  let i := (r.phase - p0) / 2
  let t1 := cycleAt (d.cycle + 1)
  if (r.phase - p0) % 2 = 0 then
    match r.path with
    | none =>
      if !standsStill d s then .go d r
      else if mouldSpeed d s = 0 then .stuck
      else
        let r := if i = 0 then enterRaw d s r else r
        let from0 := rawPoint d s r r.counts
        let to0 := rawPoint d s r (scanStart d r i)
        let f := (stationOf d s).cmd.focus
        let p := planJump d s ⟨from0.1, from0.2, 0, 0, 0, 0, 0⟩ t1 to0.1 to0.2 0 0 0 0 f f (jumpV d s) 0
        .go (setRaw d s r.counts (0, 0)) { r with path := some p }
    | some p =>
      if p.finish ≤ t1 then
        let c := scanStart d r i
        .go (setRaw d s c (0, 0)) { r with path := none, counts := c, phase := r.phase + 1, wait := 0, first := none, last := none }
      else
        let c := rawCounts d s r (p.kin t1)
        .go (setRaw d s c.1 c.2) r
  else
    let j := 3 * s + i % 2
    let pos : Int := (channelOf d j).repPos
    let near : Int := match r.first with | some a => a + signed 32 (wrap32 (pos - a)) | none => pos
    let seen := decide (d.fld pageCal 0x04C 0 16 ≤ (stationOf d s).pd)
    let r1 := if seen then { r with first := some (r.first.getD near), last := some near } else r
    let rate := d.fld pageCal 0x048 16 8
    let span := d.fld pageCal 0x048 0 12
    let w := r.wait + 1
    let ended := decide (span ≤ rate * w)
    let step : Int := min (rate * w) span - min (rate * r.wait) span
    let c := if i % 2 = 0 then (r.counts.1 + step, r.counts.2) else (r.counts.1, r.counts.2 + step)
    let v : Int := if ended then 0 else (rate : Int) * 65536
    let d1 := setRaw d s c (if i % 2 = 0 then (v, 0) else (0, v))
    let r2 := { r1 with counts := c, wait := w }
    if ended then
      match scanCentre d r2 i with
      | none => .mark d1 r2
      | some m =>
        let r3 := { r2 with marks := r2.marks ++ [m], phase := r2.phase + 1, wait := 0 }
        if i = 3 then .over d1 r3 else .go d1 r3
    else .go d1 r2

/-- A quotient rounded to nearest, ties toward +∞. -/
def roundQuotient (a b : Int) : Int := if b < 0 then (2 * -a - b) / (2 * -b) else (2 * a + b) / (2 * b)

/-- The drift term of the centres against the references (R440); none where a gain is out of range. -/
def driftTerm (m : MarkRefs) (c : List Nat) (temp : Int) : Option DriftTerm :=
  let axis (r0 r1 c0 c1 : Nat) : Int × Int :=
    (countDiff c0 r0, if countDiff r1 r0 = 0 then 0 else roundQuotient (16777216 * countDiff c1 c0) (countDiff r1 r0))
  let x := axis m.x0 m.x1 (c.getD 0 0) (c.getD 2 0)
  let y := axis m.y0 m.y1 (c.getD 1 0) (c.getD 3 0)
  let ok (g : Int) : Bool := decide (16609444 ≤ g ∧ g ≤ 16944988)
  if ok x.2 && ok y.2 then some ⟨x.1, x.2.toNat, y.1, y.2.toNat, temp⟩ else none

def sat16 (x : Int) : Nat := unsigned 16 (clampInt (-32768) 32767 x)

/-- One computation of a drift run. -/
def driftCompute (d : Dev) (s : Nat) (r : CalRun) : Dev :=
  let h := some s
  match scanStep d s 0 { r with step := r.phase / 4 } with
  | .go d1 r1 => putRun d1 h (some r1)
  | .stuck => calAbort d h r 4
  | .mark d1 r1 => calFail d1 h r1 13
  | .over d1 r1 =>
    match (calStation d1 s).refs.bind fun m => driftTerm m r1.marks r1.temp with
    | none => calFail d1 h r1 13
    | some t =>
      let d3 := setCalStation d1 s { calStation d1 s with termStaged := some (t, d.cycle), lastTemp := some r1.temp }
      let d4 := endRun d3 h { r1 with detail := sat16 t.offX + sat16 t.offY <<< 16 } 0 0
      raise d4 pageCal 3 clsCal sevInfo 0x0904 (pay s 0 (sat16 t.offX) (sat16 t.offY))

/-! ### Plate runs (R432 to R435) -/

def plateCount (r : CalRun) : Nat := bufField r.buffer 10 1
def plateX (r : CalRun) (i : Nat) : Int := bufSigned r.buffer (64 + 32 * i) 4
def plateY (r : CalRun) (i : Nat) : Int := bufSigned r.buffer (68 + 32 * i) 4
def plateInput (r : CalRun) (i : Nat) : Nat := bufField r.buffer (72 + 32 * i) 1
/-- Half a scan in nm. -/
def plateHalf (r : CalRun) : Int := bufField r.buffer 8 2 * 500
/-- The inputs that the buffer names, in its order. -/
def plateInputs (r : CalRun) : List Nat :=
  ((List.range (plateCount r)).map (plateInput r)).foldl (fun l i => if l.contains i then l else l ++ [i]) []
def setDac (d : Dev) (i v : Nat) : Dev := { d with cal := { d.cal with dac := d.cal.dac.set (same 0) i v } }
/-- Scan power after the trim (R445). -/
def platePower (d : Dev) (r : CalRun) : Nat := bufField r.buffer 6 2 * (calStation d r.target).ptrim / 16384

/-- The dark search: one cycle per DAC bit (R428). `phase` counts inputs, `wait` bits; `zero` holds the code found. -/
def darkStep (d : Dev) (r : CalRun) : Dev :=
  let inputs := plateInputs r
  let input := inputs.getD r.phase 0
  let trial (code : Nat) (bitNo : Nat) : Nat := code + 2 ^ bitNo - 1
  if r.wait = 0 then putRun (setDac d input (trial 0 9)) none (some { r with wait := 1, zero := 0 })
  else
    let b := 10 - r.wait
    let code := r.zero.toNat + (if bit d.cal.levels.toNat input then 2 ^ b else 0)
    if r.wait < 10 then putRun (setDac d input (trial code (b - 1))) none (some { r with wait := r.wait + 1, zero := code })
    else
      let buffer := upto (plateCount r) (fun buf i => if plateInput r i = input then bufPut buf (92 + 32 * i) 2 code else buf) r.buffer
      let target := ((List.range (plateCount r)).find? fun i => plateInput r i == input).getD 0
      let r1 := { r with buffer := buffer, step := target }
      if bufField r.buffer 14 2 ≤ code ∧ code ≤ bufField r.buffer 16 2 then
        if r.phase + 1 < inputs.length then
          putRun (setDac d (inputs.getD (r.phase + 1) 0) (trial 0 9)) none (some { r1 with phase := r.phase + 1, wait := 1, zero := 0 })
        else
          let d1 := inputs.foldl (fun d i => setDac d i (bufField r.buffer 12 2)) d
          putRun d1 none (some { r1 with step := 0, phase := 100, wait := 0 })
      else calFail d none r1 1

/-- Edges of the target's comparator within the scan and the channel positions of the cycle (R434). The scan is the run of
the setpoint from start to end (DEDUCED, log entry 64). -/
def plateObserve (d : Dev) (r : CalRun) : CalRun :=
  let input := plateInput r r.step
  let r1 := d.cal.edges.foldl (fun r e =>
    if e.1 = input ∧ r.scan.1 ≤ e.2.1 ∧ e.2.1 ≤ r.scan.2 then
      (if e.2.2 then { r with rise := some (r.rise.getD e.2.1) } else { r with fall := some e.2.1 })
    else r) r
  { r1 with trail := (d.cycle, (channelOf d (3 * r.target)).repPos, (channelOf d (3 * r.target + 1)).repPos) :: r1.trail }

/-- The count of a channel at `t` between the samples about it (R434); a free value where a sample is missing. -/
def countAt (d : Dev) (trail : List (Nat × Nat × Nat)) (xAxis : Bool) (t : Nat) : Nat × Dev :=
  let sample (c : Nat) : Option Nat := (trail.find? fun e => e.1 == c).map fun e => if xAxis then e.2.1 else e.2.2
  let a := t / 1250
  orFree d 32 (match sample a, sample (a + 1) with
    | some p, some q => some (wrap32 ((p : Int) + countDiff q p * (t - 1250 * a : Nat) / 1250))
    | _, _ => none)

/-- The measured scan goes into the target's entry; none where an edge is missing. -/
def plateMeasure (d : Dev) (r : CalRun) (xAxis : Bool) : Option (CalRun × Dev) :=
  match r.rise, r.fall with
  | some a, some b =>
    let c := countAt d r.trail xAxis ((a + b) / 2)
    let dwell := (b : Int) - a
    let w := orFree c.2 16 (if 0 ≤ dwell ∧ dwell < 65536 then some dwell.toNat else none)
    let at0 := 64 + 32 * r.step
    let b1 := bufPut r.buffer (at0 + (if xAxis then 16 else 20)) 4 c.1
    some ({ r with buffer := bufPut b1 (at0 + (if xAxis then 24 else 26)) 2 w.1 }, w.2)
  | _, _ => none

/-- The plate run has all its measurements. -/
def plateDone (d : Dev) (r : CalRun) : Dev :=
  putRun d none (some { r with buffer := r.plateBuffer, done := true })

/-- One computation of a plate run: phases 100 to 107 are those of a target's two scans, from 200 on the mark scans. -/
def plateCompute (d : Dev) (r : CalRun) : Dev :=
  let s := r.target
  let x := plateX r r.step
  let y := plateY r r.step
  let h := plateHalf r
  let keep (d : Dev) (r : CalRun) : Dev := putRun d none (some r)
  let stuck := calAbort d none r 4
  if r.phase < 100 then darkStep d r
  else if r.phase = 100 ∨ r.phase = 104 then
    let p := if r.phase = 100 then (x - h, y) else (x, y - h)
    if r.wait = 0 && !standsStill d s then keep d r
    else if r.wait = 0 then
      match serviceJump d s p.1 p.2 with | some d1 => keep d1 { r with wait := 1 } | none => stuck
    else if motionOver d s then keep d { r with phase := r.phase + 1, wait := 0 }
    else keep d r
  else if r.phase = 101 ∨ r.phase = 105 then
    let d1 := settleStep d s
    if settledNow d1 s then
      let speed := bufField r.buffer 4 2
      let pour := if r.phase = 101 then scanPour (x - h) y (x + h) y 0 speed else scanPour x (y - h) x (y + h) 0 speed
      match serviceMark d1 s pour (platePower d r) with
      | some d2 =>
        let scan := match (stationOf d2 s).path with | some p => (p.start / 2 ^ 32, p.finish / 2 ^ 32) | none => (0, 0)
        keep d2 { r with phase := r.phase + 1, wait := 0, rise := none, fall := none, trail := [], scan := scan }
      | none => stuck
    else keep d1 r
  else if r.phase = 102 ∨ r.phase = 106 then
    let r1 := plateObserve d r
    if motionEnds d s then keep (closeService d s) { r1 with phase := r.phase + 1, wait := 0 } else keep d r1
  else if r.phase = 103 ∨ r.phase = 107 then
    -- the scan's last edges come into use with the cycle that follows it
    let r1 := plateObserve d r
    match plateMeasure d r1 (r.phase == 103) with
    | none => calFail d none r1 5
    | some (r2, d1) =>
      if r.phase = 103 then keep d1 { r2 with phase := 104, wait := 0 }
      else
        let r3 := { r2 with detail := r.step + 1 }
        if r.step + 1 < plateCount r then keep d1 { r3 with step := r.step + 1, phase := 100, wait := 0 }
        else if bufField r.buffer 11 1 = 1 then keep d1 { r3 with phase := 200, wait := 0, path := none, marks := [] }
        else plateDone d1 r3
  else
    match scanStep d s 200 r with
    | .go d1 r1 => keep d1 r1
    | .stuck => stuck
    | .mark d1 r1 => calFail d1 none r1 13
    | .over d1 r1 => plateDone d1 r1

/-! ### Power-head runs (R443, R444) -/

def powerLevels (r : CalRun) : Nat := bufField r.buffer 16 1
def powerLevel (r : CalRun) (i : Nat) : Nat := bufField r.buffer (32 + 8 * i) 2
/-- Cycles of a number of milliseconds. -/
def msCycles (ms : Nat) : Nat := ms * 200

/-- One computation of a power-head run. The code in use is the sample of the cycle before (R427): computation `wait` of a
level, counted from the level's first cycle, has the code of its cycle `wait - 1`, and the last one opens the next level. -/
def powerCompute (d : Dev) (r : CalRun) : Dev :=
  let s := r.target
  let keep (d : Dev) (r : CalRun) : Dev := putRun d none (some r)
  let window := msCycles (bufField r.buffer 20 2)
  if r.phase = 0 then
    if r.wait = 0 && !standsStill d s then keep d r
    else if r.wait = 0 then
      match serviceJump d s (bufSigned r.buffer 8 4) (bufSigned r.buffer 12 4) with
      | some d1 => keep d1 { r with wait := 1 }
      | none => calAbort d none r 4
    else if motionOver d s then keep d { r with phase := 1, wait := 0, sumA := 0, count := 0 }
    else keep d r
  else
    let sum := r.sumA + d.cal.code.getD 0
    if r.phase = 1 then
      if r.wait + 1 < window then keep d { r with wait := r.wait + 1, sumA := sum }
      else if (bufField r.buffer 22 2 * window : Nat) < sum.natAbs then calFail d none r 6
      else keep (openService d s (powerLevel r 0)) { r with phase := 2, step := 0, wait := 0, sumA := 0, zero := sum }
    else
      let dwell := msCycles (bufField r.buffer 18 2)
      let sum1 := if dwell < r.wait + window then sum else 0
      if r.wait < dwell then
        let d1 := if r.wait + 1 < dwell then d
          else if r.step + 1 < powerLevels r then openService d s (powerLevel r (r.step + 1)) else closeService d s
        keep d1 { r with wait := r.wait + 1, sumA := sum1 }
      else
        let reading := (sum1 - r.zero) * bufField r.buffer 4 4 / ((65536 * window : Nat) : Int)
        let level := powerLevel r r.step
        let r1 := { r with
          readings := r.readings ++ [reading], sumA := 0, wait := 1
          buffer := bufPut r.buffer (36 + 8 * r.step) 4 (unsigned 32 reading) }
        -- LEVEL × 1,000 ÷ 32 mW, TOL in percent
        if (bufField r.buffer 17 1 * level * 1000 : Nat) < (100 * (32 * reading - (level * 1000 : Nat))).natAbs then
          calFail d none r1 7
        else if r.step + 1 < powerLevels r then keep d { r1 with step := r.step + 1 }
        else
          let levels : Nat := ((List.range (powerLevels r)).map (powerLevel r)).sum
          let measured : Int := 32 * r1.readings.sum
          let trim := clampInt 8192 32767 (roundQuotient ((calStation d s).ptrim * (levels * 1000)) (max 1 measured))
          keep d { r1 with done := true, detail := trim.toNat }

/-! ### Blackbody runs (R446, R447) -/

/-- One computation of a blackbody run: the station goes to the point and settles; frames come at their close. -/
def blackbodyCompute (d : Dev) (r : CalRun) : Dev :=
  let s := r.target
  let keep (d : Dev) (r : CalRun) : Dev := putRun d none (some r)
  if r.phase = 0 then
    if r.wait = 0 && !standsStill d s then keep d r
    else if r.wait = 0 then
      match serviceJump d s (bufSigned r.buffer 8 4) (bufSigned r.buffer 12 4) with
      | some d1 => keep d1 { r with wait := 1 }
      | none => calAbort d none r 4
    else if motionOver d s then keep d { r with phase := 1, wait := 0 }
    else keep d r
  else if r.phase = 1 then
    let d1 := settleStep d s
    if settledNow d1 s then keep d1 { r with phase := 2, settled := some d.tick } else keep d1 r
  else keep d r

/-- The sums of a frame: S, L and the number of pixels that count (R446). -/
def frameSums (f : CamFrame) : Nat × Nat × Nat :=
  let sh := f.shape true
  let p := (planes f sh).2
  let least := f.fld 0x11C 16 16
  (f.lines.foldl (fun (a : Nat × Nat × Nat) row =>
    upto sh.width (fun (a : Nat × Nat × Nat) x =>
      let u := stage4 f sh (stage3 sh p x row.1)
      let sv := u.getD 0 0
      let lv := u.getD 1 0
      if 0 < sv ∧ 0 < lv ∧ least ≤ sv + lv then (a.1 + sv, a.2.1 + lv, a.2.2 + 1) else a) a) (0, 0, 0))

/-- g0 of R446. -/
def blackbodyGain (d : Dev) (r : CalRun) (shift : Nat) : Option Nat :=
  match toneReaches d r.target (bufField r.buffer 16 2) with
  | none => none
  | some q =>
    if r.sumA = 0 then none
    else
      let g := roundQuotient (4096 * (2 * q + 1) * r.sumB) (2 ^ (shift + 1) * r.sumA)
      if 1 ≤ g ∧ g ≤ 65535 then some g.toNat else none

/-- A frame of the context of a blackbody run closes (R446). -/
def blackbodyFrame (d : Dev) (c : Nat) : Dev :=
  match d.cal.run, (ctxOf d c).frames.head? with
  | some r, some f =>
    let after := match r.settled with | some t => decide (t ≤ f.sof) | none => false
    if r.type = 0x23 ∧ r.target = c ∧ r.done = false ∧ after = true ∧ d.running = true ∧ f.closeCycle ≤ d.cycle then
      let x := frameSums f
      let r1 := { r with sumA := r.sumA + x.1, sumB := r.sumB + x.2.1, count := r.count + x.2.2, wait := r.wait + 1 }
      if (decide (f.lines.length < (f.shape true).height) || f.overflow || f.sat) then calFail d none r 9
      else if r1.wait < bufField r.buffer 18 1 then putRun d none (some { r1 with step := r1.wait })
      else
        let total := (r1.sumA + r1.sumB).toNat
        let inside := decide (0 < r1.count ∧ bufField r.buffer 20 2 * r1.count ≤ total ∧ total ≤ bufField r.buffer 22 2 * r1.count)
        match blackbodyGain d r1 (f.fld 0x11C 0 4) with
        | some g => if inside then putRun d none (some { r1 with done := true, detail := g + 4096 <<< 16 }) else calFail d none r1 9
        | none => calFail d none r1 9
    else d
  | _, _ => d

/-! ### Converter trim (R449, R450) -/

def allCells : BitVec 33 := BitVec.ofNat 33 (2 ^ 31 - 1)
/-- The converter `i` of group `g`. -/
def converterKey (g i : Nat) : Nat := 16 * g + i
/-- The deviations of a converter's cells are analog: which two are dropped is a free value (log entry 4). -/
def trimCells (v : Nat) : BitVec 33 :=
  let a := v % 33
  let b := (a + 1 + v / 64 % 32) % 33
  BitVec.ofNat 33 (2 ^ 33 - 1 - 2 ^ a - 2 ^ b)
/-- One computation of a trim run: 32 cycles for each converter. -/
def trimCompute (d : Dev) (r : CalRun) : Dev :=
  let keep (d : Dev) (r : CalRun) : Dev := putRun d none (some r)
  if r.wait + 1 < 32 then keep d { r with wait := r.wait + 1 }
  else
    let v := d.fresh
    let r1 := { r with cells := r.cells ++ [trimCells v.1.toNat], wait := 0 }
    if r.step + 1 < groupSize r.target then keep v.2 { r1 with step := r.step + 1 }
    else let x := orFree v.2 32 none; keep x.2 { r1 with done := true, detail := x.1 }

/-- The cells selected by a finished trim run: those of groups 2 and 4 at once, the others at the next enable. -/
def stageCells (d : Dev) (r : CalRun) : Dev :=
  upto (groupSize r.target) (fun d i =>
    let k := converterKey r.target i
    let m := r.cells.getD i allCells
    if r.target = 2 ∨ r.target = 4 then { d with cal := { d.cal with cells := d.cal.cells.set (same allCells) k m } }
    else { d with cal := { d.cal with cellsStaged := d.cal.cellsStaged.set (same none) k (some m) } }) d
/-- A block that uses converters 2 b and 2 b + 1 of group `g` is enabled (R450). -/
def takeCells (d : Dev) (g b : Nat) : Dev :=
  upto 2 (fun d j =>
    let k := converterKey g (2 * b + j)
    match d.cal.cellsStaged.get (same none) k with
    | some m => { d with cal := { d.cal with
        cells := d.cal.cells.set (same allCells) k m, cellsStaged := d.cal.cellsStaged.set (same none) k none } }
    | none => d) d

/-! ### A computation of the runs -/

/-- How a run ends in this computation, if it does: aborted or failed, with the cause. In the first computation the checks
of R428 come before the faults of R430. -/
def runEnds (d : Dev) (r : CalRun) : Option (Bool × Nat) :=
  let fails := (if r.checked then duringCheck d r else beforeCheck d r).map fun c => (false, c)
  let aborts := (abortCause d r).map fun c => (true, c)
  if r.checked then aborts.or fails else fails.or aborts

def computeRun (d : Dev) (h : Option Nat) : Dev :=
  match getRun d h with
  | none => d
  | some r =>
    if !r.started || r.done then d
    else
      match runEnds d r with
      | some (aborted, c) => if aborted then calAbort d h r c else calFail d h r c
      | none =>
        let r1 := { r with checked := true }
        let d1 := putRun d h (some r1)
        match h with
        | some s => driftCompute d1 s r1
        | none =>
          if r1.type = 0x21 then plateCompute d1 r1
          else if r1.type = 0x22 then powerCompute d1 r1
          else if r1.type = 0x23 then blackbodyCompute d1 r1
          else trimCompute d1 r1

/-- The computation of every run in a cycle: the host run, then the drift runs by station. -/
def calCycle (d : Dev) : Dev := upto 32 (fun d s => computeRun d (some s)) (computeRun d none)

/-- After the gates: a service step that the mould denied its emission aborts its run (R430). -/
def calDenied (d : Dev) : Dev :=
  match d.cal.run with
  | some r => (match r.station with
    | some s => if r.started && (stationOf d s).denied then calAbort d none r 4 else d
    | none => d)
  | none => d

/-- The cycle begins: edges, levels and the power-head code of the last cycle come into use (R427); the holder samples and
forwards its own code (R421). -/
def calCycleStart (d : Dev) (head : BitVec 24) : Dev :=
  let c := d.cal
  let levels := c.edgesNext.foldl (fun (v : BitVec 16) e =>
    if e.2.2 then v ||| BitVec.ofNat 16 (2 ^ e.1) else v &&& ~~~(BitVec.ofNat 16 (2 ^ e.1))) c.levels
  let own := d.holds
  let d1 := { d with cal := { c with
    edges := c.edgesNext, edgesNext := [], levels := levels, code := c.codeNext, codeNext := if own then some head.toInt else none } }
  if d.pairHolder then sendHalyard d1 3 (sampleBody 2 0 (d.cycle * 1250) head.toNat) else d1

/-- An edge of a comparator (R421): the holder acts on it and forwards it. -/
def pltEdge (d : Dev) (i : Nat) (rising : Bool) : Dev :=
  if d.running && d.holds then
    let d1 := { d with cal := { d.cal with edgesNext := d.cal.edgesNext ++ [(i, d.tick, rising)] } }
    if d.pairHolder then sendHalyard d1 3 (sampleBody 1 i d.tick (boolNat rising)) else d1
  else if d.running && d.par.role == roleStandby then noteSample d { kind := 1, index := i, rising := rising, tick := d.tick, own := true }
  else d

/-! ### The end of a host run and its results (R431, R435, R436, R440, R444, R447, R450) -/

/-- The results of a run that ended OK. -/
def takeResults (d : Dev) (r : CalRun) : Dev :=
  let s := r.target
  if r.type = 0x21 then
    let c := calStation d s
    let refs := if r.marks.length = 4 then some ⟨r.marks.getD 0 0, r.marks.getD 1 0, r.marks.getD 2 0, r.marks.getD 3 0, r.temp⟩ else c.refsStaged
    setCalStation d s { c with refsStaged := refs, lastTemp := some r.temp }
  else if r.type = 0x22 then setCalStation d s { calStation d s with ptrimStaged := some (r.detail, d.cycle) }
  else if r.type = 0x23 then
    -- the standby has these writes from the holder
    if d.par.role = roleStandby then d
    else if d.writeHeld then
      holdWrite (holdWrite d ⟨false, wordAddr (pageCtx s) 0x114, 4, r.detail % 65536 + 4096 <<< 16⟩)
        ⟨false, wordAddr (pageCtx s) 0x01C, 4, 1⟩
    else
      let d1 := (d.setStaged (pageCtx s) 0x114 0 16 (r.detail % 65536)).setStaged (pageCtx s) 0x114 16 16 4096
      let d2 := forwardWrite d1 false (wordAddr (pageCtx s) 0x114) (r.detail % 65536 + 4096 <<< 16)
      let d3 := if groupPending d2 (pageCtx s) 0 then d2
        else { d2 with regs := { d2.regs with pend := d2.regs.pend ++ [⟨pageCtx s, 0, d2.cycle, !d2.heats.everStarted⟩] } }
      forwardWrite d3 false (wordAddr (pageCtx s) 0x01C) 1
  else stageCells d r

/-- The host run has done its work: it ends OK. -/
def calEnd (d : Dev) : Dev :=
  match d.cal.run with
  | some r => if r.done then endRun (takeResults d r) none r 0 0 else d
  | none => d

/-- The drift term of a station changes: the held point moves to where the new term puts it (R442). -/
def applyTerm (d : Dev) (s : Nat) (t : DriftTerm) : Dev :=
  let old := heldCounts d s
  let d1 := setCalStation d s { calStation d s with term := t, termStaged := none }
  let d2 := setStation d1 s { stationOf d1 s with remap := some old }
  raise d2 pageCal 4 clsCal sevInfo 0x0905 (pay s 0 0 0)
def applyPtrim (d : Dev) (s v : Nat) : Dev := setCalStation d s { calStation d s with ptrim := v, ptrimStaged := none }

/-- The staged drift term and PTRIM of every station that `due` admits by the cycle of their staging. -/
def applyResults (d : Dev) (due : Nat → Bool) : Dev :=
  upto 32 (fun d s =>
    let c := calStation d s
    let d1 := match c.termStaged with | some (t, n) => if due n then applyTerm d s t else d | none => d
    match c.ptrimStaged with | some (v, n) => if due n then applyPtrim d1 s v else d1 | none => d1) d

/-- CAL_RESULT_APPLY: before any heat has started, results apply three cycles after they were staged (R444). -/
def calResultApply (d : Dev) : Dev :=
  if d.running && !d.heats.everStarted then applyResults d fun n => decide (n + 3 ≤ d.cycle) else d

/-- A bank exchange of a station with staged references (R436). -/
def exchangeRefs (d : Dev) (s : Nat) : Dev :=
  let c := calStation d s
  match c.refsStaged with
  | some m => setCalStation d s { c with refs := some m, refsStaged := none, term := { temp := m.temp }, termStaged := none }
  | none => d

/-! ### Meanings -/

/-- R433. -/
def execPlate (t : Nat) (r : Fin 2) (e : Entry) (rd : HostRead) (s : State) : Host.Outcome State Fault Refusal :=
  onDev s fun d => calEntry (d.arrive t) r.val e rd (.plate t r e rd)
/-- R444. -/
def execPower (t : Nat) (r : Fin 2) (e : Entry) (rd : HostRead) (s : State) : Host.Outcome State Fault Refusal :=
  onDev s fun d => calEntry (d.arrive t) r.val e rd (.power t r e rd)
/-- R446. -/
def execBlackbody (t : Nat) (r : Fin 2) (e : Entry) (rd : HostRead) (s : State) : Host.Outcome State Fault Refusal :=
  onDev s fun d => calEntry (d.arrive t) r.val e rd (.blackbody t r e rd)
/-- R450. -/
def execTrim (t : Nat) (r : Fin 2) (e : Entry) (rd : HostRead) (s : State) : Host.Outcome State Fault Refusal :=
  onDev s fun d => calEntry (d.arrive t) r.val e rd (.trim t r e rd)
/-- R437. -/
def execDrift (t : Nat) (r : Fin 2) (e : Entry) (rd : HostRead) (s : State) : Host.Outcome State Fault Refusal :=
  onDev s fun d => calEntry (d.arrive t) r.val e rd (.drift t r e rd)
/-- R425. -/
def execCalRunStart (s : State) : Host.Outcome State Fault Refusal := onDev s calStart
/-- R438. -/
def execDriftRunStart (s : Fin 32) (st : State) : Host.Outcome State Fault Refusal := onDev st fun d => driftStart d s.val
/-- R431. -/
def execCalRunEnd (s : State) : Host.Outcome State Fault Refusal := onDev s calEnd
/-- R430. -/
def execCalRunAbort (s : State) : Host.Outcome State Fault Refusal := onDev s fun d => abortAll d 1
/-- R444. -/
def execCalResultApply (s : State) : Host.Outcome State Fault Refusal := onDev s calResultApply
/-- R421. -/
def execPltInEdge (t : Nat) (i : Fin 16) (rising : Bool) (s : State) : Host.Outcome State Fault Refusal :=
  onDev s fun d => pltEdge (d.arrive t) i.val rising
/-- R315. -/
def execCoaxialFrameClose (c : Fin 32) (s : State) : Host.Outcome State Fault Refusal :=
  onDev s fun d => closeCoaxial (blackbodyFrame d c.val) c.val

end Sys2Proof.Machine
end

