-- ==== Sys2Proof/Machine/Commit.lean ====
section
/-! DEFINITION. Commit groups: when a pending group applies, and what its application sets off in its block
(R44, R49 to R52, R60). -/
namespace Sys2Proof.Machine

/-! ### What an application sets off -/

/-- The banks of a station exchange (R211, R436). -/
def exchangeBanks (d : Dev) (s : Nat) : Dev :=
  let st := stationOf d s
  let old := heldCounts d s
  let d1 := setStation d s { st with bank := !st.bank, remap := some old }
  let d2 := exchangeRefs (d1.setReg (pageStn s) 0x04C (boolNat (!st.bank))) s
  raise d2 (pageStn s) 8 clsCal sevInfo 0x0538 (pay s (boolNat (!st.bank)) 0 (fctHeader d2 s (!st.bank) 4))

/-- The tables of a context exchange (R63, R339). -/
def exchangeTables (d : Dev) (c : Nat) : Dev :=
  let x := ctxOf d c
  setCtx d c { x with staged := x.active, active := x.staged }

/-- Group 3 of the line head: the preference maps exchange, and a FORGET clears the marks (R384, R386). -/
def applyTestGroup (d : Dev) : Dev :=
  let d1 := { d with lhd := { d.lhd with prefStaged := d.lhd.prefActive, prefActive := d.lhd.prefStaged } }
  if d.flag pageLhd 0x05C 1 then
    { d1 with
      lhd := { d1.lhd with failed := 0 }
      regs := d1.regs.setInUse (wordAddr pageLhd 0x05C) (setBits (d1.regs.inUse (wordAddr pageLhd 0x05C)) 1 1 0) }
  else d1

/-- The lanes whose mapping a commit of LNK group 1 changes restart from stage 1 (R532). -/
def remapLanes (before after : Dev) : Dev :=
  upto 48 (fun d p =>
    let a := mapLane before p
    let b := mapLane after p
    if a = b then d
    else
      let again (d : Dev) (l : Nat) : Dev := if l < 48 then restartLane d l else d
      again (again d a) b) after

/-- Group `g` of page `p` applies: its fields take their staged values, and the block acts on it. -/
def applyGroup (d0 : Dev) (p g : Nat) : Dev :=
  let d := if kindOf p = some .mem then settleBuckets d0 else d0
  let d1 := takeGroup d p g
  let i := instOf p
  match kindOf p with
  | some .ldl => if g = 0 then ladleCut d1 else d1
  | some .stn => if g = 4 then spotCompareArm d1 i else if g = 3 then exchangeBanks d1 i else d1
  | some .axs => if g = 3 then exchangeProgram d1 i else d1
  | some .emu => emuReset d1 i
  | some .ctx =>
    if g = 0 then setCtx d1 i { ctxOf d1 i with first := none }
    else if g = 1 then exchangeTables d1 i
    else if d.fld p 0x044 16 3 ≠ d1.fld p 0x044 16 3 then phaseChange d1 i else d1
  | some .lhd => if g = 3 then applyTestGroup d1 else d1
  | some .stp => if g = 0 then { d1 with stp := { d1.stp with platformZ := d1.sfld p 0x048 0 32, platformSet := true } } else d1
  | some .lnk => if g = 1 then remapLanes d d1 else d1
  | _ => d1

/-! ### When a group applies -/

/-- Work of the kind that defines the page's boundary is in progress on the block while it is enabled (R49). -/
def boundaryBusy (d : Dev) (p : Nat) (k : PageKind) : Bool :=
  let i := instOf p
  -- an axis moves until its last step, its page enabled or not (R405)
  (d.enabled p || k == .sax) &&
  match k with
  | .img => d.ctxs.any fun x => !x.2.frames.isEmpty
  | .ipl => (pipeContexts i).any fun c => !(ctxOf d c).frames.isEmpty
  | .ctx => !(ctxOf d i).frames.isEmpty || ctxTestOrRecovery d i
  | .lhd => d.lhd.firing.isSome || d.lhd.testing.isSome ||
      (match d.heats.running with | some x => x.passPending || x.passHeld | none => false)
  | .seg => d.lhd.firing.isSome
  | .stp => (List.range 12).any (axisMoving d)
  | .sax => axisMoving d i
  | .icd => (jobOf d 0).isSome || (jobOf d 1).isSome
  | _ => false

/-- The page's boundary event falls in this cycle (R44); the start of a line takes its groups itself. -/
def boundaryEvent (d : Dev) (k : PageKind) (i : Nat) : Bool :=
  let sof (c : Nat) : Bool := decide (d.cycle * 1250 + 1 ≤ (ctxOf d c).sofAt)
  match k with
  | .img => (List.range 40).any sof
  | .ipl => (pipeContexts i).any sof
  | .ctx => sof i
  | .stp => d.stp.moves.any fun m => decide (d.cycle * 1250 ≤ m.began)
  | .sax => d.stp.moves.any fun m => m.mask.getLsbD i && decide (d.cycle * 1250 ≤ m.began)
  | _ => false

/-- Whether group `g` of page `p` applies now, heat boundaries aside (R44, R49, R50, R52, R340): a heat group only before
the first heat, and one of a context also in TEST or RECOVERY. On a page whose boundary is the commit itself only a group
that DEV_COMMIT_HOLD held is still pending. An early heat group that was held and is released before the first heat applies
three cycles after the release, not at a boundary (DESIGN CHOICE, log entry 72). -/
def commitReady (d : Dev) (p g : Nat) : Bool :=
  match kindOf p with
  | none => false
  | some k =>
    let i := instOf p
    let atEvent := groupRipe d p d.cycle g && (!boundaryBusy d p k || boundaryEvent d k i)
    if k.heatGroup g then
      if k = .ctx then (groupEarly d p g || ctxTestOrRecovery d i) && atEvent
      else groupEarly d p g && groupRipe d p d.cycle g
    else
      match k.boundary with
      | .commit => holdAllows d d.cycle && groupPending d p g
      | .cycle | .heat => groupRipe d p d.cycle g
      | _ => atEvent

/-- COMMIT_APPLY. -/
def commitApply (d : Dev) (p g : Nat) : Dev := if commitReady d p g then applyGroup d p g else d

/-- The groups that apply with the boundary of cycle `b`: Commit g (heat), committed before it, not held at it or since,
and not of a context in TEST or RECOVERY (R21, R52, R340). -/
def boundaryGroups (d : Dev) (b : Nat) : List PendGroup :=
  if d.regs.boundaryHeld then []
  else d.regs.pend.filter fun x =>
    decide (x.cycle < b) &&
      (match kindOf x.page with
        | some k => k.heatGroup x.group && !(k == .ctx && ctxTestOrRecovery d (instOf x.page))
        | none => false)

/-- The settings of the boundary of cycle `b` take effect: groups and tables, mould raises, calibration results, then the
emitter selection (R21, R63, R385, R436, R444, R465). -/
def boundarySettings (d : Dev) (b : Nat) : Dev :=
  let d1 := (boundaryGroups d b).foldl (fun d x => applyGroup d x.page x.group) d
  takeSelection (applyResults (applyRaises d1 b) fun n => decide (n < b) && !d.regs.boundaryHeld)

/-! ### Meanings -/

/-- R44. -/
def execCommitApply (page : Fin 1024) (group : Fin 32) (s : State) : Host.Outcome State Fault Refusal :=
  onDev s fun d => commitApply d page.val group.val

end Sys2Proof.Machine
end

