-- ==== Sys2Proof/Machine/HeatRun.lean ====
section
/-! DEFINITION. The run of a heat: its start, the carriage's strokes, and its boundary (R13 to R21, R394, R397). -/
namespace Sys2Proof.Machine

/-- The present tick is a station cycle boundary (R22). -/
def atCycleStart (d : Dev) : Bool := d.tick % 1250 == 0

/-- The heat that starts next: staged first, at a station cycle boundary (R13, R14). -/
def heatMayStart (d : Dev) : Bool :=
  atCycleStart d && d.computes && d.heats.running.isNone && !d.heats.staged.isEmpty &&
    (match d.heats.boundaryAt with | some b => decide (b < d.cycle) | none => true)

/-- Counts and first-in-a-heat marks that return at the start of each heat. -/
def clearHeatMarks (d : Dev) : Dev :=
  let d1 := clearMouldTold (clearHeatCounts d)
  let d2 := upto 4 (fun d p => d.setFld (pageIpl p) 0x064 0 12 0) d1
  { d2 with
    dram := { d2.dram with missTold := 0, forcedTold := false }
    map := { d2.map with told := false }
    sched := { d2.sched with stall := 0, failBase := [0, 0, 0, 0, 0, 0] } }

/-- The moves of phase 1 (R394, R397). -/
def phaseOneMoves (d : Dev) (r : BitVec 512) : Dev :=
  let z := d.stp.platformZ - rcLower r
  let d1 := { d with stp := { d.stp with platformZ := z, platformSet := false }, cal := { d.cal with park := bedToSteps d 0 (rcParkY r) } }
  let speed (x : Nat) : Nat := d.fld (pageSax x) 0x044 0 20 * 1000
  let d2 := addHeatMove d1 1 ((List.range 4).map fun i => (2 + i, bedToSteps d1 2 z)) (speed 2) 1
  addHeatMove d2 2 [(6, (axisOf d 6).pos + rcDose0 r), (7, (axisOf d 7).pos + rcDose1 r)] (speed 6) 1

/-- Settings of the last boundary that wait for the following heat take effect from its first cycle on (R21). -/
def waitingSettings (d : Dev) : Dev :=
  match d.heats.settingsOf with
  | some b => boundarySettings { d with heats := { d.heats with settingsOf := none } } b
  | none => d

/-- The first heat after reset starts while DEV_COMMIT_HOLD is 1: the heat groups that it holds wait for a boundary from
now on (R52; log entry 72). -/
def heldEarlyGroups (d : Dev) : Dev :=
  if d.flag pageDev 0x040 0 then
    { d with regs := { d.regs with pend := d.regs.pend.map fun x => { x with early := false } } }
  else d

/-- A cycle of the running heat that begins in the short state (R191). -/
def countShort (d : Dev) : Dev :=
  if d.heats.running.isSome && d.ladle.short then d.count pageLdl 0x070 else d

/-- The heat starts (R14): settings that waited for it, counts, and phase 1. -/
def startHeat (d : Dev) : Dev :=
  match d.heats.staged with
  | [] => d
  | h :: rest =>
    let d1 := clearHeatMarks (abortForHeat (heldEarlyGroups (waitingSettings d)))
    let d2 := { d1 with heats := { d1.heats with
      staged := rest, running := some { heat := h, started := d.cycle }, everStarted := true, current := h.number } }
    let d3 := countShort d2
    match h.recoat with
    | some r => phaseOneMoves d3 r
    | none => d3

/-! ### The carriage's strokes (R15 to R19, R169) -/

def heatMovesLeft (d : Dev) (groups : List Nat) : Bool :=
  (d.stp.waiting.any fun h => groups.contains h.group) ||
    d.stp.moves.any fun m => (match m.heat with | some h => groups.contains h.group | none => false)

/-- The carriage has stopped at FAR_Y in the cycle before: spread complete, and the pass becomes pending, or without a pass
the return stroke begins one cycle later (R16, R17, R169). -/
def arrivedFar (d : Dev) : Dev :=
  match d.heats.running with
  | some x =>
    let d1 := updRun (if x.spread then d else spreadComplete d) fun y => { y with arrived := false }
    match x.header with
    | some e => passBecomesPending (updRun d1 fun y => { y with passPending := true }) e
    | none => updRun d1 fun y => { y with strokeAt := some (d.cycle + 1) }
  | none => d

/-- The return stroke begins (R19, R167, R171). -/
def returnStroke (d : Dev) : Dev :=
  match d.heats.running with
  | some x =>
    let d1 := updRun d fun y => { y with stroke := 3, passStroke := x.header.isSome, passPending := false, strokeAt := none }
    match x.heat.recoat with
    | some r =>
      match x.header with
      | some e =>
        let d2 := if x.passRefused then d1
          else holdPower (updRun d1 fun y => { y with passHeld := true }) passHolder (psNeed e)
        beginFiring (addStroke d2 (rcParkY r) (psSpeed e) 3) e x.passRefused
      | none => addStroke d1 (rcParkY r) (rcReturn r) 3
    | none => d1
  | none => d

/-- Phase 1 has ended: the forward stroke of phase 2 (R15). -/
def firstStroke (d : Dev) : Dev :=
  match d.heats.running with
  | some x =>
    match x.heat.recoat with
    | some r =>
      if x.stroke = 0 ∧ heatMovesLeft d [1, 2] = false then
        addStroke (updRun d fun y => { y with stroke := 1 }) (rcFarY r) (rcSpread r) 2
      else d
    | none => d
  | none => d

/-- Waiting heat moves are tested; where those of phase 1 have no way to go, phase 2 begins at the same cycle start
(R397, R398). -/
def heatMovesStart (d : Dev) : Dev :=
  let d1 := startHeatMoves d
  if d.computes then startHeatMoves (firstStroke d1) else d1

/-- What the carriage does at the start of a cycle. -/
def strokeCycle (d : Dev) : Dev :=
  match d.heats.running with
  | some x =>
    match x.heat.recoat with
    | some r =>
      if x.stroke = 0 then firstStroke d
      else if x.stroke = 2 then
        (if x.arrived then arrivedFar d
         else match x.strokeAt with
          | some c => if c ≤ d.cycle then returnStroke d else d
          | none => d)
      else if x.stroke = 4 ∧ x.header.isSome = true ∧ d.lhd.firing.isNone = true then
        addStroke (updRun d fun y => { y with stroke := 1 }) (rcFarY r) (rcSpread r) 2
      else d
    | none => d
  | none => d

/-! ### The boundary (R20, R21) -/

/-- The four conditions of R20 hold, at a station cycle boundary. -/
def boundaryDue (d : Dev) : Bool :=
  match d.heats.running with
  | some x =>
    atCycleStart d && d.computes && x.allDone && x.spread && x.stroke == 4 && x.header.isNone && d.lhd.firing.isNone && !x.passPending &&
      !heatMovesLeft d [0, 1, 2] && (d.lhd.accums.all fun a => a.2.isEmpty)
  | none => false

/-- The boundary is declared: HEAT_DONE, the slot is freed, settings take effect now where no heat follows, and a requested
swap is marked in the cycle's record (R20, R21, R91, R108, R497). -/
def declareBoundary (d : Dev) : Dev :=
  match d.heats.running with
  | some x =>
    let d0 := { d with
      heats := { d.heats with running := none, boundaryAt := some d.cycle }
      regs := { d.regs with boundaryHeld := d.flag pageDev 0x040 0 } }
    let d1 := heatDone d0 (d.cycle * 1250) x.heat.ring stOk
      x.heat.number.toNat (d.cycle - x.started) x.patches.length x.completed x.stranded x.fired
    let d2 := { d1 with ladle := { d1.ladle with held := [] }, sched := { d1.sched with decision := none } }
    let d3 := if d2.heats.staged.isEmpty then boundarySettings d2 d.cycle
      else { d2 with heats := { d2.heats with settingsOf := some d.cycle } }
    if d3.par.swapRequested && d3.pairHolder then
      { d3 with par := { d3.par with swapRequested := false, swapMark := true } }
    else d3
  | none => d

/-- On a running device that is OUT or JOINING, HEAT_START is the holder's start of a heat: counts "of the heat" begin anew there
too (R160, R488; DESIGN CHOICE, log entry 92). -/
def heatStartsElsewhere (d : Dev) : Bool :=
  d.running && atCycleStart d && (d.par.role == roleOut || d.par.role == roleJoining)

/-! ### Meanings -/

/-- R14. -/
def execHeatStart (s : State) : Host.Outcome State Fault Refusal :=
  onDev s fun d => if heatMayStart d then startHeat d else if heatStartsElsewhere d then clearHeatMarks d else d
/-- R398. -/
def execHeatMoveStart (s : State) : Host.Outcome State Fault Refusal := onDev s heatMovesStart
/-- R20. -/
def execHeatBoundary (s : State) : Host.Outcome State Fault Refusal :=
  onDev s fun d => if boundaryDue d then declareBoundary d else d

end Sys2Proof.Machine
end

