-- ==== Sys2Proof/Machine/Mirror.lean ====
section
/-! DEFINITION. What a holder sends to a joining device: the copy of its state, and the changes that it streams (R501).
The records' layout is the model's own (log entry 27): words of BAR0 below 2²², those in use from 2²², BAR2 offsets from
2²⁸, cells of the thermal map from 2²⁹, words of the field corrections from 2²⁹ + 2²¹, and whole parts of the state. -/
namespace Sys2Proof.Machine

/-- Whether the word of BAR0 at `a` lies on a mirrored page (R59). -/
def mirroredWord (a : Nat) : Bool := isMirrored (a / 4096)

/-- The kind of a part. -/
def MirrorPart.kind : MirrorPart → Nat
  | .groups _ _ => 0
  | .heats _ => 1
  | .sched _ => 2
  | .ladle _ => 3
  | .station _ _ => 4
  | .axis _ _ => 5
  | .channel _ _ => 6
  | .emu _ _ => 7
  | .ctx _ _ => 8
  | .imaging _ => 9
  | .lineHead _ => 10
  | .steppers _ => 11
  | .mould _ => 12
  | .calibration _ => 13
  | .trace _ _ => 14
  | .timeOfDay _ _ _ => 15
  | .hold _ _ _ => 16
  | .map _ => 17
  | .registers _ _ => 18
  | .corrections _ => 19
  | .cells _ => 20

/-- The state that a cycle-critical computation reads besides registers, corrections and the cells of the thermal map. -/
def mirrorParts (d : Dev) : List MirrorPart :=
  [.groups d.regs.pend d.regs.live, .hold d.regs.released d.regs.everHeld d.regs.boundaryHeld, .heats d.heats, .sched d.sched,
    .ladle d.ladle, .map { d.map with cells := [] }, .imaging d.img, .lineHead d.lhd, .steppers d.stp, .mould d.mould,
    .calibration d.cal] ++
  (List.finRange 32).map (fun s => .station s (stationOf d s)) ++ (List.finRange 96).map (fun j => .axis j (axisOfServo d j)) ++
  (List.finRange 104).map (fun c => .channel c (channelOf d c)) ++ (List.finRange 8).map (fun e => .emu e (emuOf d e)) ++
  (List.finRange 40).map (fun c => .ctx c (ctxOf d c)) ++ (List.finRange 16).map (fun c => .trace c (traceOf d c))

/-- The state as it stands now. -/
def mirrorOf (d : Dev) : Mirror :=
  { parts := mirrorParts d
    acc := d.regs.acc.filter fun w => mirroredWord w.1
    act := d.regs.act.filter fun w => mirroredWord w.1
    fct := d.fct, cells := d.map.cells }

/-- Stage 2: the whole state goes out in BULK records, with the holder's time of day (R501, R613). -/
def sendState (d : Dev) : Dev :=
  let m := mirrorOf d
  let tod := todAt d.tim d.tick
  let copy : List MirrorPart := [.registers m.acc m.act, .corrections m.fct, .cells m.cells, .timeOfDay tod.1 tod.2 d.tick] ++ m.parts
  copy.foldl (fun d p => d.send (.mirror true 0 (.part (Config.partWords p.kind) p))) { d with mirror := some m }

/-- The entries in which a table differs from an older one; one that is listed no more has its default again. -/
def Tab.changes {α : Type} [DecidableEq α] (d : Nat → α) (old new : Tab α) : List (Nat × α) :=
  new.filter (fun x => !old.contains x) ++
    (old.filter fun x => new.all fun y => y.1 != x.1).map fun x => (x.1, d x.1)

/-- The words that have changed since `m`, by address: a register as accepted, then as in use where that differs or has changed. -/
def mirrorWordsOf (m : Mirror) (d : Dev) : List (Nat × Word) :=
  let n := mirrorOf d
  let acc := Tab.changes resetWord m.acc n.acc
  let used := ((acc ++ Tab.changes resetWord m.act n.act).map (·.1)).eraseDups
  acc ++ used.map (fun a => (2 ^ 22 + a, d.regs.inUse a)) ++
    (Tab.changes (same 0) m.fct n.fct).map (fun w => (2 ^ 29 + 2 ^ 21 + w.1, w.2)) ++
    (Tab.changes (same {}) m.cells n.cells).map fun c => (2 ^ 29 + c.1, BitVec.ofNat 32 (c.2.energy % 65536 + c.2.stamp * 65536))

/-- Stage 3: the state writes since `m` go out in MIRROR records; the count of their words. The parts of a cycle take less
than 72 KiB (R501). -/
def sendChanges (m : Mirror) (d : Dev) : Dev × Nat :=
  let n := mirrorOf d
  let words := mirrorWordsOf m d
  let d1 := words.foldl (fun d w => d.send (.mirror false w.1 (.word w.2))) { d with mirror := some n }
  let parts := (n.parts.zip m.parts).filter (fun p => p.1 != p.2) |>.map (·.1)
  let r := parts.foldl (fun (r : Dev × Nat) p =>
    let k := min (Config.partWords p.kind) (18431 - d.par.mirrored - r.2)
    (r.1.send (.mirror false 0 (.part k p)), r.2 + k)) (d1, 0)
  (r.1, words.length + r.2)

end Sys2Proof.Machine
end

