-- ==== Sys2Proof/Machine/Time.lean ====
section
/-! DEFINITION. Timebase, PPS servo and monitors (R608 to R624). -/
namespace Sys2Proof.Machine

def slewLimit : Int := 5000000

/-- Tick at which the time of day crosses its next whole second. -/
def nextCrossing (m : Timebase) : Nat :=
  m.base + ((fracPerSec - m.frac + (todInc m.slew).toNat - 1) / max 1 (todInc m.slew).toNat)

/-- A whole-second crossing that has been reached (R610, R611, R618). -/
def wholeSecond (d : Dev) : Dev :=
  let m := d.tim
  let at0 := nextCrossing m
  if d.tick < at0 then d
  else
    let sec := match m.setSeconds with | some v => v | none => (m.sec + 1) % 2 ^ 48
    let valid := m.secondsValid || m.setSeconds.isSome
    let m1 := { m with
      base := at0, sec := sec, frac := fracAt m at0 - fracPerSec, secondsValid := valid, setSeconds := none }
    if valid && d.flag pageTim 0x040 1 then
      { d with tim := { m1 with ppsOut := true, ppsFall := at0 + d.fld pageTim 0x044 0 28 } }
    else { d with tim := m1 }

/-- The time of day as it stands at the present tick becomes its new base; a crossing that the present tick reaches comes
first (R611, R618). -/
def rebase (d0 : Dev) : Dev :=
  let d := wholeSecond d0
  if d.tick < d.tim.base then d
  else { d with tim := { d.tim with base := d.tick, frac := fracAt d.tim d.tick } }

/-- SLEW takes a clamped value; a clamp that acts sets SLEW_LIMIT (R616). -/
def limitSlew (d : Dev) (v : Int) : Dev :=
  let c := clampInt (-slewLimit) slewLimit v
  let d1 := { d with tim := { d.tim with slew := c } }
  if c = v then d1 else setPen d1 pageTim 4

/-- SLEW takes a clamped value from the present tick on. -/
def setSlew (d : Dev) (v : Int) : Dev := limitSlew (rebase d) v

/-- The time of day is `sec` and `frac` at the present tick: a join gives the holder's (R613). -/
def setTod (d : Dev) (sec frac tick : Nat) : Dev :=
  { d with tim := { d.tim with base := tick, sec := sec % 2 ^ 48, frac := frac } }

/-- e of an edge: TOD minus the nearest whole second in ns (R615); exactly half-way the spec names no second, and a
free value decides. -/
def ppsError (d : Dev) : Int × Dev :=
  let f := (todAt d.tim d.tick).2
  let ns : Int := f / 4294967296
  let half := fracPerSec / 2
  if f < half then (ns, d)
  else if half < f then (ns - nsPerSec, d)
  else let r := d.fresh; (if r.1.getLsbD 0 then ns else ns - nsPerSec, r.2)

/-- f of R615 for N ticks between edges. -/
def ppsFreq (n : Nat) : Int := divRound (1000000000 * (250000000 - (n : Int))) (max 1 n)

/-- Whether N is valid (R615). -/
def ppsValid (n : Nat) : Bool := decide (248000000 ≤ n ∧ n ≤ 252000000)

/-- What an edge does to the time of day holds from the tick after it: that tick still adds the old increment, and a STEP
takes `e` ns off. A STEP across a whole second leaves that crossing to come there (R616, R618). -/
def fromNextTick (d : Dev) (step slew : Int) : Dev :=
  let d1 := rebase d
  let m := d1.tim
  let moved : Int := m.frac + todInc m.slew - step * 4294967296
  limitSlew { d1 with tim := { m with
    base := d.tick + 1, frac := moved.toNat, prior := (m.sec, m.frac, m.slew) } } slew

/-- The servo's action on an accepted edge with error `e` (R616); a standby runs no servo (R613). -/
def ppsServo (d : Dev) (e : Int) : Dev :=
  if d.par.role = roleStandby then d
  else if d.flag pageTim 0x040 0 then
    let d1 := fromNextTick d e d.tim.freq
    if e = 0 then d1
    else raise d1 pageTim 3 clsHousekeeping sevNotice 0x0F03 (pay 0 0 0 (unsigned 32 e))
  else fromNextTick d 0 (d.tim.freq - floorDiv e (max 1 (d.fld pageTim 0x040 8 8)))

/-- A rising edge of PPS_IN (R614 to R617). -/
def ppsIn (d : Dev) : Dev :=
  match d.tim.lastEdge with
  | some l =>
    if (d.tick : Int) < l + 125000000 then setPen (d.count pageTim 0x090) pageTim 2
    else
      let n := ((d.tick : Int) - l).toNat
      let r := ppsError d
      let valid := !d.tim.lost && ppsValid n && d.par.role != roleStandby
      edge r.2 r.1 (if valid then ppsFreq n else d.tim.freq) n
  | none => let r := ppsError d; edge r.2 r.1 d.tim.freq (d.rfld pageTim 0x08C 0 32)
where
  edge (d : Dev) (e f : Int) (n : Nat) : Dev :=
    let restored := d.tim.holdover
    let d1 := { d with tim := { d.tim with freq := f, lastEdge := some (d.tick : Int), holdover := false, lost := false } }
    let d2 := ((d1.setReg64 pageTim 0x080 d.tick).setReg pageTim 0x088 (unsigned 32 e)).setReg pageTim 0x08C n
    let d3 :=
      if restored then raise d2 pageTim 1 clsHousekeeping sevInfo 0x0F02 (pay 0 0 0 (unsigned 32 e)) else d2
    ppsServo d3 e

/-- PPS is lost (R617). -/
def ppsLost (d : Dev) : Dev :=
  let due := match d.tim.lastEdge with | some l => decide (l + 375000000 ≤ (d.tick : Int)) | none => true
  if d.tim.lost || !due then d
  else
    let d1 := { d with tim := { d.tim with lost := true, holdover := true } }
    let d2 := if d.par.role = roleStandby then d1 else setSlew d1 d.tim.freq
    raise d2 pageTim 0 clsHousekeeping sevWarning 0x0F01 (pay 0 0 0 (unsigned 32 d2.tim.slew))

/-- PPS_OUT (R618). -/
def Dev.ppsOut (d : Dev) : Bool := d.tim.ppsOut && d.flag pageTim 0x040 1 && d.tim.secondsValid

/-- The pulse of PPS_OUT ends (R618). -/
def ppsFall (d : Dev) : Dev :=
  if d.tim.ppsOut && decide (d.tim.ppsFall ≤ d.tick) then { d with tim := { d.tim with ppsOut := false } } else d

/-- An accepted write of TIM_SET_SECONDS waits for the next crossing (R611). -/
def setSeconds (d : Dev) (v : Nat) : Dev := { d with tim := { d.tim with setSeconds := some (v % 2 ^ 48) } }

/-- A read of TIM_TICK's low word latches the rest (R612). -/
def latchTick (d : Dev) : Dev :=
  let now := todAt d.tim d.tick
  { d with tim := { d.tim with latch := some (d.tick >>> 32, now.1, now.2 / 4294967296) } }

/-! ### Monitors (R620 to R623) -/

/-- Sensor `i` reads `v`: MON_TEMPi and TEMP_WARN (R621). -/
def sampleSensor (d : Dev) (i : Nat) (v : BitVec 16) : Dev :=
  let warn := d.sfld pageMon 0x040 0 16
  let d1 := d.setReg pageMon (0x060 + 4 * i) v.toNat
  let armed := !(d.mon.warned.getLsbD i)
  if warn ≤ v.toInt ∧ armed = true then
    raise { d1 with mon := { d1.mon with warned := d1.mon.warned ||| BitVec.ofNat 24 (2 ^ i) } } pageMon 0
      clsHousekeeping sevWarning 0x0F04 (pay i 0 v.toNat 0)
  else if v.toInt < warn - 20 then
    { d1 with mon := { d1.mon with warned := d1.mon.warned &&& ~~~(BitVec.ofNat 24 (2 ^ i)) } }
  else d1

/-- The largest reading and the first sensor that has it. -/
def largest (l : List (BitVec 16)) : Int × Nat :=
  (l.foldl (fun (b : (Int × Nat) × Nat) v => (if b.1.1 < v.toInt then (v.toInt, b.2) else b.1, b.2 + 1))
    (((-32769 : Int), 0), 0)).1

/-- Critical temperature by role (R622): byte 21 of the event and the action. A holder asks for its yield in the next
cycle, whose record carries it. -/
def tempCritical (d : Dev) (sensor : Nat) (t : Int) : Dev :=
  let action := if d.pairHolder then 0 else if d.par.role = roleStandby then 1 else 2
  let d1 := raise d pageMon 1 clsSafety sevCritical 0x0F05 (pay sensor action (unsigned 16 t) 0)
  if action = 0 then { d1 with par := { d1.par with yieldAfter := true } }
  else if action = 1 then { d1 with boot := { d1.boot with haltAt := some (d.cycle + 1) } }
  else d1

/-- The 24 sensors at tick 0 of a cycle n with n mod 20 = 0 (R620 to R623). -/
def sampleTemperatures (d : Dev) (r : Vector (BitVec 16) 24) : Dev :=
  if d.enabled pageMon && d.cycle % 20 == 0 && d.tick % 1250 == 0 then
    let d1 := upto 24 (fun d i => sampleSensor d i (r.toList.getD i 0)) d
    let top := largest r.toList
    let d2 := d1.setReg pageMon 0x0C0 (unsigned 16 top.1 + top.2 <<< 16)
    let crit := decide (d.sfld pageMon 0x040 16 16 ≤ top.1)
    let d3 := { d2 with mon := { d2.mon with crit := crit } }
    let d4 := if crit && !d.mon.crit then tempCritical d3 top.2 top.1 else d3
    if d.sfld pageMon 0x044 0 16 ≤ top.1 then halt d4 else d4
  else d

/-- Supply `j` reads `v` mV (R621). -/
def sampleSupply (d : Dev) (j : Nat) (v : BitVec 16) : Dev :=
  let d1 := d.setReg pageMon (0x100 + 4 * j) v.toNat
  let lo := d.fld pageMon (0x140 + 4 * j) 0 16
  let hi := d.fld pageMon (0x140 + 4 * j) 16 16
  let told := d.mon.supBad.getLsbD j
  let mark (d : Dev) : Dev := { d with mon := { d.mon with supBad := d.mon.supBad ||| BitVec.ofNat 16 (2 ^ j) } }
  if v.toNat < lo then
    if told then d1 else raise (mark d1) pageMon 2 clsHousekeeping sevWarning 0x0F06 (pay j 0 v.toNat 0)
  else if hi < v.toNat then
    if told then d1 else raise (mark d1) pageMon 3 clsHousekeeping sevWarning 0x0F07 (pay j 0 v.toNat 0)
  else { d1 with mon := { d1.mon with supBad := d1.mon.supBad &&& ~~~(BitVec.ofNat 16 (2 ^ j)) } }

def sampleSupplies (d : Dev) (r : Vector (BitVec 16) 16) : Dev :=
  if d.enabled pageMon then upto 16 (fun d j => sampleSupply d j (r.toList.getD j 0)) d else d

/-- Whether a count of ring oscillator `k` can complete now: 200,000 cycles after its last (R620); its first may
complete at any time, the spec not saying when counting begins (log entry 80). -/
def oscillatorDue (d : Dev) (k : Nat) : Bool :=
  d.enabled pageMon && decide (d.mon.oscDue.get (same 0) k ≤ d.cycle)

/-- Ring oscillator `k` has counted `freq` kHz (R621). -/
def oscillatorCount (d : Dev) (k freq : Nat) : Dev :=
  if oscillatorDue d k then
    let f := freq % 2 ^ 24
    let d0 := { d with mon := { d.mon with oscDue := d.mon.oscDue.set (same 0) k (d.cycle + 200000) } }
    let d1 := d0.setReg pageMon (0x180 + 4 * k) f
    let least := d.fld pageMon 0x1A0 0 24
    if least ≠ 0 ∧ f < least ∧ d.mon.slow.getLsbD k = false then
      raise { d1 with mon := { d1.mon with slow := d1.mon.slow ||| BitVec.ofNat 8 (2 ^ k) } } pageMon 4
        clsHousekeeping sevNotice 0x0F08 (pay k 0 0 f)
    else d1
  else d

/-! ### Meanings -/

/-- R615. -/
def execPpsEdge (t : Nat) (s : State) : Host.Outcome State Fault Refusal :=
  onDev s fun d => let d := d.arrive t; if d.enabled pageTim then ppsIn d else d
/-- R617. -/
def execPpsLoss (t : Nat) (s : State) : Host.Outcome State Fault Refusal :=
  onDev s fun d => let d := d.arrive t; if d.enabled pageTim then ppsLost d else d
/-- R610. -/
def execWholeSecondCrossing (t : Nat) (s : State) : Host.Outcome State Fault Refusal :=
  onDev s fun d => wholeSecond (d.arrive t)
/-- R618. -/
def execPpsOutFall (t : Nat) (s : State) : Host.Outcome State Fault Refusal :=
  onDev s fun d => ppsFall (d.arrive t)
/-- R611. -/
def execTimSetSeconds (t : Nat) (value : Long) (s : State) : Host.Outcome State Fault Refusal :=
  onDev s fun d => withWrite (d.arrive t) pageTim 0x048 value.toNat fun d => setSeconds d value.toNat
/-- R612. -/
def execTimTickLowRead (t : Nat) (s : State) : Host.Outcome State Fault Refusal :=
  onDev s fun d =>
    let d := d.arrive t
    (latchTick d).send (.read (word d.tick))
/-- R620. -/
def execTemperatureSample (readings : Vector (BitVec 16) 24) (s : State) : Host.Outcome State Fault Refusal :=
  onDev s fun d => sampleTemperatures d readings
/-- R621. -/
def execRingOscCount (t : Nat) (k : Fin 8) (count : Word) (s : State) : Host.Outcome State Fault Refusal :=
  onDev s fun d => oscillatorCount (d.arrive t) k.val count.toNat

end Sys2Proof.Machine
end

