-- ==== Sys2Proof/Machine/Pair.lean ====
section
/-! DEFINITION. Pair operation: the CYCLE record, divergence and departure, takeover, swaps and yields, and joining
(R472 to R507). -/
namespace Sys2Proof.Machine

/-! ### Fields of a CYCLE record (R479) -/

def crField (r : BitVec 4800) (off n : Nat) : Nat := byteField r off n
def crCycle (r : BitVec 4800) : Nat := crField r 0 8
def crRole (r : BitVec 4800) : Nat := crField r 10 1
def crIlk (r : BitVec 4800) : Bool := bit (crField r 11 1) 0
def crYield (r : BitVec 4800) : Bool := bit (crField r 11 1) 1
def crSwap (r : BitVec 4800) : Bool := bit (crField r 11 1) 2
def crSolo (r : BitVec 4800) : Bool := bit (crField r 11 1) 3
def crEpoch (r : BitVec 4800) : Nat := crField r 12 2
def crWrites (r : BitVec 4800) : Nat := crField r 14 2
def crCommit (r : BitVec 4800) : Nat := crField r 16 16
def crDigest (r : BitVec 4800) : Nat := crField r 32 4
def crSlew (r : BitVec 4800) : Int := signed 32 (crField r 36 4)
def crFrameCrc (r : BitVec 4800) (p : Nat) : Nat := crField r (40 + 4 * p) 4
def crPrefetch (r : BitVec 4800) (s : Nat) : Nat := crField r (232 + 2 * s) 2
def crLines (r : BitVec 4800) : Nat := crField r 296 4
def crRing (r : BitVec 4800) (k : Nat) : Nat := crField r (300 + 4 * k) 4 % 2 ^ 17
def crEventSeq (r : BitVec 4800) (k : Nat) : Nat := crField r (556 + 4 * k) 4

/-! ### The device's own CYCLE record -/

/-- The numbers of R484 in their order; their widths are left to `Config.digestBytes` (log entry 26). -/
def digestWords (d : Dev) : List Int :=
  -- a decision of this cycle reaches the standby only with its record
  let new := match d.sched.decision with | some q => boolNat (q.cycle == d.cycle) | none => 0
  let decisions := match d.heats.running with | some x => x.decisions - new | none => 0
  let ready := match d.heats.running with | some x => x.ready.length | none => 0
  let station (s : Nat) : List Int := let x := stationOf d s; [x.motion, x.pour, x.k, x.kCam]
  let sums (j : Nat) : List Int := (axisOfServo d j).acc.flatMap fun a => [(a.1 : Int), a.2]
  [(d.ladle.level : Int), ladleHeld d, boolNat d.ladle.short, decisions, ready, d.map.deposited] ++
    (List.range 32).flatMap station ++ (List.range 96).flatMap sums ++
    ((List.range 104).map fun c => ((channelOf d c).repPos : Int)) ++ [(nextStrobe d : Int)] ++
    (List.range 12).map fun x => (axisOf d x).pos

/-- DIGEST_STATE (R484). -/
def digestState (d : Dev) : Nat := crc32 (Config.digestBytes (digestWords d))

/-- LINES: the highest line held without a gap from the next line to fire on, all ones for none (R479). -/
def linesHeld (d : Dev) : Nat :=
  match d.lhd.firing with
  | none => 0xFFFFFFFF
  | some f =>
    let held (k : Nat) : Bool := match lineAt d k with | some c => decide (c < d.cycle) | none => false
    let n := ((List.range 16).takeWhile fun i => held (f.next + i)).length
    if n = 0 then 0xFFFFFFFF else f.next + n - 1

/-- The CYCLE record of the current cycle. -/
def cycleRecordOf (d : Dev) : BitVec 4800 :=
  let flags := boolNat (d.mould.latchedAt == d.cycle + 1) + 2 * boolNat d.par.yieldDue.isSome +
    4 * boolNat d.par.swapMark + 8 * boolNat d.par.solo
  let head := atByte 0 (d.cycle % 2 ^ 64) + atByte 8 d.par.schemaInUse.toNat + atByte 10 d.par.role + atByte 11 flags +
    atByte 12 d.par.epoch.toNat + atByte 14 (if d.holds then d.slotsUsed else 0) +
    atByte 16 (if d.holds then commitRecord d else 0) + atByte 32 (digestState d) + atByte 36 (unsigned 32 d.tim.slew)
  let crcs := (List.range 48).foldl (fun a p => a + atByte (40 + 4 * p) (d.par.frameCrc.get (same 0) p).toNat) head
  let pours := (List.range 32).foldl (fun a s =>
    let x := stationOf d s
    a + atByte (232 + 2 * s) (x.loadedNow - x.pourNow)) crcs
  let rings := (List.range 64).foldl (fun a r =>
    a + atByte (300 + 4 * r) (if deviceWrites r then ringProd d r else ringCons d r)) (pours + atByte 296 (linesHeld d))
  BitVec.ofNat 4800 ((List.range 8).foldl (fun a k => a + atByte (556 + 4 * k) (ringOf d (24 + k)).seq.toNat) rings)

/-! ### Records that a standby keeps (R495, R572) -/

/-- Events that the holder had queued but not written when it sent record `r`: what EVENT_SEQ counts beyond PROD (R479). -/
def unwritten (d : Dev) (r : BitVec 4800) (k : Nat) : Nat :=
  let n := 2 * 2 ^ ringLog2 d k
  min (queueSize k) ((crEventSeq r (k - 24) + n - posLinear (ringLog2 d k) (crRing r k) % n) % n)

/-- A kept event of ring `k` that is older than the record of cycle `c`. -/
def Kept.before (k c : Nat) : Kept → Bool
  | .event r _ _ _ sent => r == k && sent != 0 && decide (sent ≤ c + 1)
  | .record _ _ _ => false

/-- Removes the first `n` kept events of ring `k` that are older than the record of cycle `c`. -/
def dropOld (k c : Nat) : Nat → List Kept → List Kept
  | 0, l => l
  | _ + 1, [] => []
  | n + 1, x :: t => if x.before k c then dropOld k c n t else x :: dropOld k c (n + 1) t

/-- Of the events that are older than the holder's record `r`, those stay that it had not written yet. -/
def limitKept (d : Dev) (r : BitVec 4800) : Dev :=
  upto 8 (fun d i =>
    let k := 24 + i
    let old := (d.hif.kept.filter (Kept.before k (crCycle r))).length
    { d with hif := { d.hif with kept := dropOld k (crCycle r) (old - unwritten d r k) d.hif.kept } }) d

/-- This device's CYCLE record goes out: events kept so far are older than the holder's record of the cycle. -/
def ageKept (d : Dev) : Dev :=
  let age : Kept → Kept
    | .event r b m w 0 => .event r b m w (d.cycle + 1)
    | k => k
  let d1 := { d with hif := { d.hif with kept := d.hif.kept.map age } }
  match d.par.lastHolder with | some r => if crCycle r = d.cycle then limitKept d1 r else d1 | none => d1

/-- The first `n` kept records of ring `r` are written. -/
def dropKept (r : Nat) : Nat → List Kept → List Kept
  | 0, l => l
  | _ + 1, [] => []
  | n + 1, .record q k x :: t => if q = r then dropKept r n t else .record q k x :: dropKept r (n + 1) t
  | n + 1, .event q b m w o :: t => .event q b m w o :: dropKept r (n + 1) t

/-- The holder's record gives its positions in the shared rings: what it has written by then need not be kept (R572). -/
def followRings (d : Dev) (r : BitVec 4800) : Dev :=
  upto 64 (fun d k =>
    if !sharedRing k then d
    else if deviceWrites k then
      let n := posDist (ringLog2 d k) (ringProd d k) (crRing r k)
      ({ d with hif := { d.hif with kept := dropKept k n d.hif.kept } }).setReg (pageRng k) 0x04C (crRing r k)
    else d.setReg (pageRng k) 0x050 (crRing r k)) (limitKept d r)

/-- The record is sent, and a yield that it carries is marked (R479, R498). -/
def sendCycleRecord (d0 : Dev) : Dev :=
  let r := cycleRecordOf d0
  let d := ageKept d0
  let p := d.par
  let d1 := { d with par := { p with
    own := some r, ownBefore := p.own, yieldMark := p.yieldDue, yieldDue := none, swapMark := false } }
  sendHalyard d1 1 (leBytes 600 r.toNat)

/-! ### Partner reports (R492) -/

def reportBits (m : BitVec 48) (p : Nat) (on : Bool) : BitVec 48 := if on then m ||| BitVec.ofNat 48 (2 ^ p) else m

/-- The reports of partner `p` in an uplink: pennants and masks at once, the event with the count at the deadline. -/
def partnerReport (d : Dev) (p : Nat) (noEnsign mismatch conflict : Bool) : Dev :=
  let d1 := if noEnsign then setPen (d.count pagePar 0x084) pagePar 6 else d
  let d2 := if mismatch then
      let w := 0x088 + 4 * (p / 32)
      setPen (d1.setReg pagePar w (d1.rfld pagePar w 0 32 ||| 2 ^ (p % 32))) pagePar 5
    else d1
  let d3 := if conflict then setPen d2 pagePar 7 else d2
  let x := d3.par
  { d3 with par := { x with
      noEnsign := reportBits x.noEnsign p noEnsign, mismatch := reportBits x.mismatch p mismatch
      conflict := reportBits x.conflict p conflict } }

def countBits (m : BitVec 48) : Nat := ((List.range 48).filter fun i => m.getLsbD i).length

/-- One event per kind and cycle with the count of the partners, and the record of ring 58. -/
def reportEvents (d : Dev) : Dev :=
  let one (d : Dev) (m : BitVec 48) (bitNo sev code : Nat) : Dev :=
    if m ≠ 0 ∧ d.flag pagePar 0x014 bitNo = true then report d pagePar clsPair sev code (pay (countBits m) 0 0 0) else d
  let x := d.par
  let d1 := one (one (one d x.mismatch 5 sevWarning 0x0C05) x.noEnsign 6 sevNotice 0x0C06) x.conflict 7 sevCritical 0x0C07
  let d2 := if x.mismatch ≠ 0 ∨ x.conflict ≠ 0 then
      pairRecord d1 2 none (some (countBits (x.mismatch ||| x.conflict)))
    else d1
  { d2 with par := { d2.par with noEnsign := 0, mismatch := 0, conflict := 0 } }

/-! ### Divergence and departures (R485 to R488) -/

/-- The first partner whose FRAME_CRCs differ where both devices sent a frame. -/
def firstDiffer (a b : BitVec 4800) : Option Nat :=
  (List.range 48).find? fun p => crFrameCrc a p != 0 && crFrameCrc b p != 0 && crFrameCrc a p != crFrameCrc b p

/-- Divergence of two records of one cycle: the partner named in events, 0x3F where only the state differs (R485). -/
def divergence (a b : BitVec 4800) : Option Nat :=
  if crIlk a || crIlk b then none
  else
    match firstDiffer a b with
    | some p => some p
    | none => if crDigest a ≠ crDigest b then some 0x3F else none

/-- A join stage begins: PAR_JOIN_STAT and the record of ring 59. -/
def setJoinStage (d : Dev) (stage : Nat) : Dev :=
  let m := if stage = 2 ∨ stage = 3 then d.mirror else none
  pairRecord { d with par := { d.par with joinStage := stage }, mirror := m } 3 (some stage) none

/-- No join is under way any more. -/
def endJoin (d : Dev) : Dev := if d.par.joinStage = 0 then d else setJoinStage d 0

/-- The low word of the cycle n whose records are compared at the start of cycle n + 1 (R142, R485; log entry 61). -/
def comparedCycle (d : Dev) : Nat := (d.cycle - 1) % 2 ^ 32

/-- A standby leaves lockstep (R486): OUT, the pennant of the cause, one event, and the record of ring 57. The spec
names no pennant for causes 5 and 6 (log entry 31). -/
def leaveLockstep (d : Dev) (cause partner : Nat) : Dev :=
  let c := comparedCycle d
  let d0 := endJoin ((d.setFld pagePar 0x074 8 3 cause).setFld pagePar 0x074 0 6 partner)
  let d1 := { d0 with par := { d0.par with outSince := d.cycle, leaveAsked := false, matched := false, notes := [] }, hif := { d0.hif with kept := [] } }
  let d2 := pairRecord (setRole (d1.count pagePar 0x080) roleOut (some cause)) 1 (some cause) (some partner)
  if cause = 1 then raise d2 pagePar 2 clsPair sevFault 0x0C03 (pay 1 partner 0 c)
  else if cause = 2 then raise d2 pagePar 3 clsPair sevFault 0x0C20 (pay 0 0 0 c)
  else if cause = 3 ∨ cause = 4 then raise d2 pagePar 4 clsPair sevFault 0x0C04 (pay cause partner 0 0)
  else report d2 pagePar clsPair sevFault 0x0C03 (pay cause partner 0 c)

/-- A SAMPLE record of a cycle in lockstep has not come within 250 ticks of its sample: an edge or a challenge (R427, R470),
one of an enabled local channel (R282, R283), or the power head's code of the cycle that has ended (R427). -/
def sampleMissing (d : Dev) : Bool :=
  d.par.matched &&
    (d.cal.codeNext.isNone || (d.par.notes.any fun m => m.own && decide (m.tick + 250 < d.tick)) ||
      (List.range 8).any fun i =>
      let x := channelOf d (96 + i)
      d.enabled (pageFch (96 + i)) && x.started && !x.fault && decide (x.time + 375 < d.tick))

/-- The cause for which a standby leaves at this cycle start, if any, with the partner that differed. -/
def leaveCause (d : Dev) (own peer : Option (BitVec 4800)) : Option (Nat × Nat) :=
  match peer with
  | none => some (2, 0x3F)
  | some r =>
    match own.bind fun o => divergence o r with
    | some p => some (1, p)
    | none =>
      if d.par.writes < crWrites r ∨ d.par.sampleLate = true ∨ sampleMissing d = true then some (3, 0x3F)
      else if 32 < (d.sfld pagePar 0x078 0 16).natAbs then some (4, 0x3F)
      else if crSolo r then some (5, 0x3F)
      else if d.par.leaveAsked then some (6, 0x3F)
      else none

/-- The holder drops its standby (R487). -/
def dropStandby (d : Dev) : Dev :=
  let cause := if d.par.health = d.par.healthBefore then 1 else 0
  let d0 := endJoin d
  let d1 := { d0 with par := { d0.par with
    withStandby := false, solo := true, yieldDue := none, yieldMark := none } }
  let d2 := raise d1 pagePar 10 clsPair sevWarning 0x0C0A (pay cause 0 0 0)
  upto 4 standbyConfirm (confirmAll d2)

/-! ### Takeover (R494, R495) -/

/-- The trigger of a takeover: 0 ENSIGN_IN, 1 health, 2 YIELD, 3 SWAP. -/
def takeTrigger (d : Dev) (peer : Option (BitVec 4800)) : Option Nat :=
  if d.par.matched then
    let marked (f : BitVec 4800 → Bool) : Bool := match peer with | some r => f r | none => false
    if marked crSwap then some 3
    else if marked crYield then some 2
    else if !d.par.peerEnsign then some 0
    else if d.par.health = d.par.healthBefore then some 1
    else none
  else none

/-- An event that the old holder may not have written is written by the new one. -/
def pushKept (d : Dev) (k body : Nat) (bitmap : BitVec 512) (withMap : Bool) : Dev :=
  let x := pushBody d k body bitmap withMap
  if x.2 then ringLost x.1 k else x.1

/-- The new holder goes on from the positions and sequence numbers of record `r`, and writes again what the old one had not
written by then: events that EVENT_SEQ already counts keep their numbers (R495). -/
def takeRings (d : Dev) (r : BitVec 4800) : Dev :=
  let again (d : Dev) : Kept → Dev
    | .event k b m w _ => pushKept d k b m w
    | .record q k x => emit d q k x
  let d0 := followRings d r
  let d1 := upto 8 (fun d i =>
    let old := (d0.hif.kept.filter (Kept.before (24 + i) (crCycle r))).length
    setRing d (24 + i) { ringOf d (24 + i) with seq := BitVec.ofNat 32 (crEventSeq r i) - BitVec.ofNat 32 old }) d0
  d1.hif.kept.foldl again { d1 with hif := { d1.hif with kept := [] } }

/-- A queued record as a standby keeps it. -/
def keptOf (k : Nat) (q : QRec) : Kept :=
  let body := q.data.toNat - atByte 30 (byteField q.data 30 1)
  if q.kind = .event then .event k (body - atByte 16 (byteField q.data 16 4)) q.bitmap q.withMap 0 else .record k q.kind body

/-- The ensign passes: what the device has queued for shared rings and not written, the new holder writes (R495). Archive and
trace records are not kept: the new holder's first ones carry GAP (R276, R336). -/
def keepQueues (d : Dev) : Dev :=
  upto 64 (fun d k =>
    if sharedRing k && deviceWrites k then
      let x := ringOf d k
      let kept := if 32 ≤ k ∧ k ≤ 47 then [] else x.queue.map (keptOf k)
      setRing { d with hif := { d.hif with kept := d.hif.kept ++ kept } } k { x with queue := [] }
    else d) { d with hif := { d.hif with kept := [] } }

/-- A STANDBY takes the ensign at a cycle start. -/
def takeEnsign (d : Dev) (trigger : Nat) : Dev :=
  let epoch := match d.par.lastHolder with | some r => BitVec.ofNat 16 (crEpoch r) | none => d.par.epoch
  let e := endJoin d
  let d0 := { e with par := { e.par with
    epoch := epoch + 1, ensignFrom := d.tick + 25, withStandby := decide (2 ≤ trigger), solo := decide (trigger < 2)
    leaveAsked := false, notes := [] } }
  let d1 := setRole d0 roleHolder none
  let d2 := match d.par.lastHolder with | some r => takeRings d1 r | none => d1
  let d3 := abortAll (gapTraces (forgetAges d2)) 5
  let d4 := upto 32 (fun d c => if archives d c then setCtx d c { ctxOf d c with gap := true } else d) d3
  let d5 := { d4 with tim := { d4.tim with freq := d4.tim.slew } }
  let n := d5.par.epoch.toNat
  let d6 := d5.count pagePar 0x07C
  if trigger = 3 then raise d6 pagePar 1 clsPair sevInfo 0x0C02 (pay 0 0 n 0)
  else raise d6 pagePar 0 clsPair sevWarning 0x0C01 (pay trigger 0 n 0)

/-- The old holder at a planned swap: STANDBY without a join (R497). -/
def passEnsign (d : Dev) : Dev :=
  let e := forgetAges (confirmAll d)
  let d1 := abortAll (setRole { e with par := { e.par with withStandby := false, solo := false } } roleStandby none) 5
  let d1 := upto 4 standbyConfirm (keepQueues d1)
  raise d1 pagePar 1 clsPair sevInfo 0x0C02 (pay 0 0 (d1.par.epoch.toNat + 1) 0)

/-- The old holder at a yield: STANDBY, or HALTED where the temperature requires it (R498, R622). -/
def passYield (d : Dev) (reason : Nat) : Dev :=
  let e := forgetAges (confirmAll d)
  let d1 := { e with par := { e.par with withStandby := false, solo := false, yieldMark := none } }
  let d2 := raise d1 pagePar 11 clsPair sevWarning 0x0C0B (pay reason 0 0 0)
  if reason = 1 then halt d2 else upto 4 standbyConfirm (keepQueues (abortAll (setRole d2 roleStandby none) 5))

/-! ### The start of a cycle (R485 to R487, R494 to R498) -/

/-- What the two devices of a pair settle at the start of cycle n + 1, from the records of cycle n. -/
def pairStart (d0 : Dev) : Dev :=
  let d := if d0.par.yieldAfter then requestYield { d0 with par := { d0.par with yieldAfter := false } } 1 else d0
  let n := d.cycle - 1
  let own := d.par.own.filter fun r => crCycle r == n
  let peer := d.par.peer.filter fun r => crCycle r == n
  if d.par.role = roleStandby then
    match takeTrigger d peer with
    | some t => takeEnsign d t
    | none =>
      match leaveCause d own peer with
      | some c => leaveLockstep d c.1 c.2
      | none => { d with par := { d.par with matched := true } }
  else if d.pairHolder then
    let marked (f : BitVec 4800 → Bool) : Bool := match own with | some r => f r | none => false
    if marked crSwap then passEnsign d
    else
      match d.par.yieldMark with
      | some reason => passYield d reason
      | none =>
        let d1 := match own, peer with
          | some a, some b =>
            (match divergence a b with
             | some p => raise ((d.setFld pagePar 0x074 8 3 1).setFld pagePar 0x074 0 6 p) pagePar 2 clsPair sevFault
                 0x0C03 (pay 1 p 0 (comparedCycle d))
             | none => { d with par := { d.par with matched := true } })
          | _, _ => d
        match peer with
        | some r => if crRole r = roleStandby then d1 else dropStandby d1
        | none => dropStandby d1
  else d

/-- Stage 4 of a join ends with the first comparison (R501). -/
def joinOver (d : Dev) : Dev :=
  if d.par.joinStage = 4 ∧ d.par.matched = true then
    pairRecord { d with par := { d.par with joinStage := 0 } } 3 (some 0) none
  else d

/-- What the peer's record of the last cycle gives the computation of this one: presence of pours and lines, and on a
standby the slew (R195, R360, R613). -/
def usePeer (d : Dev) : Dev :=
  let together := d.pairHolder || d.par.role == roleStandby
  let peer := if together then d.par.peer.filter fun r => crCycle r == d.cycle - 1 else none
  let d1 := upto 32 (fun d s => setStation d s { stationOf d s with peerHeld := peer.map fun r => crPrefetch r s }) d
  let d2 := { d1 with lhd := { d1.lhd with peerLines := peer.map crLines } }
  match peer with
  | some r => if d.par.role = roleStandby then setSlew d2 (crSlew r) else d2
  | none => d2

/-- The marks of the cycle that has ended. -/
def clearPairMarks (d : Dev) : Dev :=
  let up := (List.range 48).all fun l => !d.enabled (pageLan l) || (laneOf d l).stage == 5
  let x := d.par
  { d with par := { x with
      peer := none, writes := 0, sampleLate := false, notes := x.notes.filter fun m => d.tick ≤ m.tick + 250, frameCrc := [], mirrored := 0, dirty := x.dirtyNow, dirtyNow := 0
      mirrorClean := if x.joinStage = 3 ∧ up = true then x.mirrorClean + 1 else 0 } }

/-! ### Records of the peer (R479, R501 to R504) -/

/-- A CYCLE record of the current cycle. -/
def takeCycleRecord (d : Dev) (r : BitVec 4800) (skew : Nat) : Dev :=
  if halyardUp d ∧ crCycle r = d.cycle then
    let d1 := { d with par := { d.par with peer := some r } }
    if d.par.role = roleStandby then
      let d2 := d1.setReg pagePar 0x078 (skew % 65536)
      if crRole r = roleHolder ∨ crRole r = roleAlone then
        let d3 := followRings { d2 with par := { d2.par with lastHolder := some r, epoch := BitVec.ofNat 16 (crEpoch r) } } r
        takeCommit d3 (crCommit r)
      else d2
    else d1
  else d

/-- A HELLO record of this device (R527). -/
def helloBody (d : Dev) : List Byte :=
  leBytes 27 <| atByte 0 Config.serial.toNat + atByte 8 (boolNat d.par.sideB) + atByte 9 deviceRevision + atByte 10 d.boot.schema.toNat +
    atByte 11 (d.boot.schema - 1).toNat + atByte 12 (d.cycle % 2 ^ 64) + atByte 20 (d.tick % 1250) +
    atByte 22 (unsigned 32 d.tim.slew) + atByte 26 d.par.role
where
  /-- The revision in the DEV page's ID word (R34). -/
  deviceRevision : Nat := bits (resetWord (wordAddr pageDev 0x000)).toNat 0 8

/-- A join starts: HELLO records are exchanged (R477, R488, R501). -/
def startJoin (d : Dev) : Dev :=
  if (d.par.role = roleSeeking ∨ d.par.role = roleOut) ∧ halyardUp d = true then
    let d1 := setRole { d with par := { d.par with joinFrom := d.par.role, joinRound := 0, refuseCause := 0 } } roleJoining none
    let d2 := setJoinStage d1 1
    sendHalyard d2 6 (helloBody d2)
  else d

/-- The schema that both devices support, the higher of two (R504). -/
def commonSchema (a b : Nat) : Option Nat :=
  if a = b then some a else if a + 1 = b then some a else if b + 1 = a then some b else none

/-- The refusal of R502, if any. -/
def helloCause (d : Dev) (rec0 : BitVec 216) (sealSame revOk : Bool) : Option Nat :=
  let f (off n : Nat) : Nat := byteField rec0 off n
  if f 8 1 = boolNat d.par.sideB then some 1
  else if f 9 1 ≠ helloBody.deviceRevision then some 2
  else if (commonSchema d.boot.schema.toNat (f 10 1)).isNone then some 3
  else if !revOk then some 4
  else if !sealSame then some 5
  else if d.par.role = roleJoining ∧ f 26 1 ≠ roleHolder ∧ f 26 1 ≠ roleAlone then some 6
  else none

/-- The joining device takes the holder's count of ticks, its cycle and its slew (R502, R609); what the device times
by tick or cycle keeps its distance. -/
def takeClock (d0 : Dev) (tick : Nat) (slew : Int) : Dev :=
  -- what waits for its next clock is hoisted on the old count
  let d := { d0.advance (d0.tick + 1) with tick := d0.tick }
  let d1 := rebase d
  let move (t : Nat) : Nat := ((t : Int) + tick - d.tick).toNat
  let lanes := (List.range 56).foldl (fun (d : Dev) l =>
    let x := laneOf d l
    if x.stage = 0 then d else setLane d l { x with since := move x.since, retryAt := x.retryAt.map move }) d1
  let shift : Int := (tick : Int) - d.tick
  let due (c : Nat) : Nat := ((c : Int) + (tick / 1250 : Nat) - d.cycle).toNat
  let m := lanes.tim
  setSlew { lanes with
    tick := tick
    tim := { m with base := tick, lastEdge := m.lastEdge.map (· + shift), ppsFall := move m.ppsFall }
    mon := { lanes.mon with oscDue := (List.range 8).foldl (fun t k =>
      t.set (same 0) k (due (t.get (same 0) k))) lanes.mon.oscDue } } slew

def refuseJoin (d : Dev) (cause : Nat) : Dev :=
  let d1 := setJoinStage { d with par := { d.par with refuseCause := cause } } 0
  let d2 := raise d1 pagePar 9 clsPair sevWarning 0x0C09 (pay cause 0 0 0)
  if d.par.role = roleJoining then setRole d2 d.par.joinFrom none else d2

/-- A HELLO record arrives at either device of the join; a device that neither joins nor holds the ensign answers with its
own, which names its role (R502 cause 6). -/
def takeHello (d : Dev) (rec0 : BitVec 216) (sealSame revOk : Bool) : Dev :=
  let f (off n : Nat) : Nat := byteField rec0 off n
  if halyardUp d = true ∧ ((d.par.role = roleJoining ∧ d.par.joinStage = 1) ∨ d.holds = true) then
    let d0 := (d.setReg64 pagePar 0x068 (f 0 8))
    let d1 := { d0 with par := { d0.par with peerSchema := BitVec.ofNat 8 (f 10 1) } }
    let d2 := if d.holds then (let d2 := setJoinStage d1 1; sendHalyard d2 6 (helloBody d2)) else d1
    match helloCause d rec0 sealSame revOk with
    | some c => refuseJoin d2 c
    | none =>
      let schema := (commonSchema d.boot.schema.toNat (f 10 1)).getD 0
      let d3 := { d2 with par := { d2.par with schemaInUse := BitVec.ofNat 8 schema } }
      let d4 := if d.holds then d3 else takeClock d3 (f 12 8 * 1250 + f 20 2 % 1250) (signed 32 (f 22 4))
      let d5 := setJoinStage d4 2
      if d.holds then sendState d5 else d5
  else if halyardUp d = true ∧ d.par.role ≠ roleJoining ∧ f 26 1 = roleJoining then sendHalyard d 6 (helloBody d)
  else d

/-- Every word of the copy has been copied once (R501). -/
def copyDone (d : Dev) : Dev :=
  if d.par.joinStage = 2 then
    setJoinStage { d with par := { d.par with mirrorClean := 0, dirty := 0, dirtyNow := 0 } } 3
  else d

/-- More than 96 KiB of MIRROR words in a cycle: the join begins its copy again (R501). -/
def mirrorWords (d : Dev) (n : Nat) : Dev :=
  if d.par.joinStage = 3 then
    let d1 := { d with par := { d.par with mirrored := d.par.mirrored + n } }
    if 24576 < d1.par.mirrored then
      let d2 := setJoinStage { d1 with par := { d1.par with mirrored := 0, joinRound := (d1.par.joinRound + 1) % 65536 } } 2
      if d.holds then sendState d2 else d2
    else d1
  else d

/-- The holder streams what has changed, words made dirty during the copy among it; more than 96 KiB of it in a cycle begin
the copy again (R501). -/
def mirrorStream (d : Dev) : Dev :=
  match d.mirror with
  | some m =>
    if d.holds && d.par.joinStage == 3 && halyardUp d then
      let r := sendChanges m d
      mirrorWords r.1 r.2
    else d
  | none => d

/-- A clean cycle in MIRROR: the joining device is STANDBY, the holder counts it (R501, R503). -/
def joinDone (d : Dev) : Dev :=
  if atCycleStart d = true ∧ d.par.joinStage = 3 ∧ d.par.dirty = 0 ∧ 64 ≤ d.par.mirrorClean then
    let d1 := setJoinStage { d with par := { d.par with matched := false } } 4
    if d.par.role = roleJoining then
      raise (setRole { d1 with hif := { d1.hif with kept := [] } } roleStandby none) pagePar 8 clsPair sevInfo 0x0C08
        (pay d1.par.schemaInUse.toNat 0 0 d1.par.joinRound)
    else if d.holds then { d1 with par := { d1.par with withStandby := true, solo := false } }
    else d1
  else d

/-- REJOIN_DELAY cycles have passed since the departure (R488). -/
def rejoin (d : Dev) : Dev :=
  if d.par.role = roleOut ∧ d.flag pagePar 0x044 0 = true ∧ d.par.outSince + d.fld pagePar 0x044 16 16 ≤ d.cycle ∧
      d.rfld pagePar 0x080 0 32 < d.fld pagePar 0x044 4 4 then startJoin d else d

/-! ### SEEKING (R477) -/

/-- The take condition of R477. -/
def mayTake (d : Dev) : Bool :=
  atCycleStart d && d.par.role == roleSeeking && d.boot.stage == 5 && decide (2000 ≤ d.par.ensignLow) &&
    (!d.par.sideB || decide (2000 ≤ d.par.unhealthy) || decide (4000 ≤ d.par.ensignLow))
def seekerTakes (d : Dev) : Dev :=
  if mayTake d then
    let e := forgetAges d
    setRole { e with par := { e.par with ensignFrom := e.tick, withStandby := false, solo := false } } roleHolder none
  else d
/-- A SEEKING device joins while the peer holds the ensign and the link is up (R477, R631). -/
def seekerJoins (d : Dev) : Dev :=
  if d.par.role = roleSeeking ∧ d.boot.stage = 5 ∧ d.par.peerEnsign = true then startJoin d else d

/-! ### PAR_CMD and CTL.ENABLE (R486, R497, R501, R506) -/

def parJoin (d : Dev) : Dev := startJoin d
def parLeave (d : Dev) : Dev :=
  if d.par.role = roleStandby then { d with par := { d.par with leaveAsked := true } }
  else if d.pairHolder then dropStandby d else d
def parSwap (d : Dev) : Dev :=
  if d.par.role = roleHolder then { d with par := { d.par with swapRequested := true } } else d
def parCancel (d : Dev) : Dev := { d with par := { d.par with swapRequested := false } }

def parCommand (d : Dev) (v : Nat) : Dev :=
  let d1 := if bit v 0 then parJoin d else d
  let d2 := if bit v 1 then parLeave d1 else d1
  let d3 := if bit v 2 then parSwap d2 else d2
  if bit v 3 then parCancel d3 else d3

/-- CTL.ENABLE of PAR changes: pair operation off is ALONE, on is SEEKING (R473, R506, R631). -/
def parEnable (d : Dev) (on : Bool) : Dev :=
  if d.par.role = roleHalted then d
  else if on then (if d.par.role = roleAlone then abortAll (setRole d roleSeeking none) 5 else d)
  else
    let e := if d.holds then endJoin d else abortAll (forgetAges (endJoin d)) 5
    let d1 := { e with par := { e.par with ensignFrom := e.tick, withStandby := false, solo := false } }
    upto 4 standbyConfirm (confirmAll (setRole d1 roleAlone none))

/-! ### Pins (R475) -/

/-- The peer's pins at tick 1,150. -/
def samplePins (d : Dev) (health ensign : Bool) : Dev :=
  if d.boot.engine then
    let x := d.par
    { d with par := { x with
        health := health, healthBefore := x.health, peerEnsign := ensign
        ensignLow := if ensign then 0 else min (x.ensignLow + 1) 4000
        unhealthy := if health = x.health then min (x.unhealthy + 1) 4000 else 0 } }
  else d

/-! ### Meanings -/

/-- R477: at the start of a cycle. -/
def execEnsignTake (s : State) : Host.Outcome State Fault Refusal :=
  onDev s fun d => if d.running then seekerTakes d else d
/-- R501. -/
def execParCmdJoin (t : Nat) (s : State) : Host.Outcome State Fault Refusal :=
  onDev s fun d => withWrite (d.arrive t) pagePar 0x040 1 parJoin
/-- R486, R487. -/
def execParCmdLeave (t : Nat) (s : State) : Host.Outcome State Fault Refusal :=
  onDev s fun d => withWrite (d.arrive t) pagePar 0x040 2 parLeave
/-- R497. -/
def execParCmdSwap (t : Nat) (s : State) : Host.Outcome State Fault Refusal :=
  onDev s fun d => withWrite (d.arrive t) pagePar 0x040 4 parSwap
/-- R497. -/
def execParCmdCancelSwap (t : Nat) (s : State) : Host.Outcome State Fault Refusal :=
  onDev s fun d => withWrite (d.arrive t) pagePar 0x040 8 parCancel
/-- R498. -/
def execYield (cause : BitVec 8) (s : State) : Host.Outcome State Fault Refusal :=
  onDev s fun d => requestYield d cause.toNat
/-- R479, R480. -/
def execCycleRecord (t : Arrival) (rec : BitVec 4800) (skew : BitVec 16) (s : State) : Host.Outcome State Fault Refusal :=
  onDev s fun d => receive d t fun d => takeCycleRecord d rec skew.toNat
/-- R501, R502, R504. -/
def execHello (t : Arrival) (rec : BitVec 216) (sealSame revOk : Bool) (s : State) : Host.Outcome State Fault Refusal :=
  onDev s fun d => receive d t fun d => if d.running then takeHello d rec sealSame revOk else d
/-- R501. -/
def execJoinCopyDone (s : State) : Host.Outcome State Fault Refusal :=
  onDev s fun d => if d.running then copyDone d else d
/-- R501, R503. -/
def execJoinLockstep (s : State) : Host.Outcome State Fault Refusal :=
  onDev s fun d => if d.running then joinDone d else d
/-- R488. -/
def execAutoRejoin (s : State) : Host.Outcome State Fault Refusal :=
  onDev s fun d => if d.running then rejoin d else d
/-- R475, R477: tick 1,150. -/
def execPeerPinSample (health ensign : Bool) (s : State) : Host.Outcome State Fault Refusal :=
  onDev s fun d => samplePins (d.arrive 1150) health ensign

end Sys2Proof.Machine
end

