-- ==== Sys2Proof/Machine/Lanes.lean ====
section
/-! DEFINITION. Usvor lanes: bring-up, identity, latency, loss, eye scans, and the uplink frames of the partners
(R508 to R533). -/
namespace Sys2Proof.Machine

/-! ### Markers (R514, R524, R525) -/

def mkRev (v : Nat) : Nat := bits v 0 4
def mkKind (v : Nat) : Nat := bits v 4 2
def mkId (v : Nat) : Nat := bits v 6 6
def mkSide (v : Nat) : Nat := bits v 12 1
def mkSuper (v : Nat) : Nat := bits v 13 16
/-- Pattern and reserved bits as R514 gives them. -/
def mkValid (v : Nat) : Bool := bits v 48 8 == 0x5C && bits v 29 19 == 0
/-- Two markers agree when they differ in the superframe alone. -/
def mkSame (a b : Nat) : Bool := bits a 0 13 == bits b 0 13
/-- Bit 56 of the command's word: the marker arrived complemented (R525). -/
def mkInverted (v : Nat) : Bool := bit v 56

/-- The partner that a marker names (R508); none for a reserved identity. -/
def mkPartner (v : Nat) : Option Nat :=
  if mkKind v = 1 ∧ mkId v < 32 then some (mkId v) else if mkKind v = 2 ∧ mkId v < 16 then some (32 + mkId v) else none

/-- The revision in use that R523 chooses from the partner's N; the device has revisions 1 and 2. -/
def chosenRev (n : Nat) : Option Nat := if n = 1 ∨ n = 2 then some n else if n = 3 then some 2 else none

/-- The downlink advance follows the measured latency by 1/16 tick at most (R512). -/
def adjustAdvance (x : Lane) : Lane :=
  if x.advance < x.latency then { x with advance := x.advance + 1 }
  else if x.latency < x.advance then { x with advance := x.advance - 1 } else x

/-- A MARKER block arrives. Before stage 3 nothing is found; complemented ones count in stage 3 only. -/
def takeMarker (d : Dev) (l v : Nat) : Dev :=
  let x := laneOf d l
  let plain := v % 2 ^ 56
  if x.stage < 3 ∨ mkValid plain = false ∨ (mkInverted v = true ∧ x.stage ≠ 3) then d
  else if x.stage = 3 then setLane d l { x with lastMarker := some (BitVec.ofNat 64 v), markerSeen := true }
  else
    let again := match x.lastMarker with | some m => mkSame m.toNat plain | none => false
    let y := { x with
      lastMarker := some (BitVec.ofNat 64 plain), agree := if again then x.agree + 1 else 1
      superframe := BitVec.ofNat 16 (mkSuper plain), markerSeen := true }
    setLane d l (if l < 48 then adjustAdvance y else y)

/-- A CYCLE_START block in slot 0: the start of the current cycle, with the round trip in 1/16 tick (R512, R513). -/
def takeCycleStart (d : Dev) (l v roundTrip : Nat) : Dev :=
  let x := laneOf d l
  if l < 48 ∧ 3 ≤ x.stage ∧ v % 2 ^ 56 = d.cycle % 2 ^ 32 then
    setLane d l { x with startSeen := true, startsMissed := 0, latency := roundTrip / 2 % 65536 }
  else d

/-- The types of R513. -/
def knownBlock (t : Nat) : Bool := [0x1E, 0x2D, 0x33, 0x4B, 0x55, 0x66, 0xC3, 0xE4].contains t
/-- A block that is discarded and counted: of a reserved type (R513), or with an invalid sync header (R530, R533). -/
def takeUnknown (d : Dev) (l : Nat) (b : BadBlock) : Dev :=
  if 3 ≤ (laneOf d l).stage then
    match b with
    | .reserved t => if knownBlock t.toNat then d else d.count (pageLan l) 0x074
    | .syncHeader => d.count (pageLan l) 0x064
  else d

/-! ### Identity (R523, R526) -/

/-- Another physical partner lane that is UP with partner `p`, or reports it in the same superframe. -/
def duplicateLane (d : Dev) (l p v : Nat) : Bool :=
  (List.range 48).any fun k =>
    let x := laneOf d k
    k != l && ((x.stage == 5 && x.logical == p) ||
      (x.stage == 4 && (match x.lastMarker with
        | some m => mkPartner m.toNat == some p && mkSuper m.toNat == mkSuper v | none => false)))

/-- Halyard lane `q` with transmit lane `id`: none where the order fits neither way (R526 cause 7). -/
def halyardOrder (d : Dev) (q id : Nat) : Option Bool :=
  let rev := id == 7 - q
  if id ≠ q ∧ rev = false then none
  else if (List.range 8).any fun k => k != q && (laneOf d (48 + k)).stage == 5 && (laneOf d (48 + k)).reversed != rev then none
  else some rev

/-- The first cause of R526 that applies. -/
def identityCause (d : Dev) (l v : Nat) : Option Nat :=
  if l < 48 then
    if mkKind v ≠ 1 ∧ mkKind v ≠ 2 then some 1
    else
      match mkPartner v with
      | none => some 2
      | some p =>
        if mkSide v ≠ boolNat d.par.sideB then some 3
        else if (chosenRev (mkRev v)).isNone then some 4
        else if duplicateLane d l p v then some 5
        else if d.flag pageLnk 0x040 0 = false ∧ mapLane d p ≠ l then some 6
        else if 960 < (laneOf d l).latency then some 8 else none
  else if mkKind v ≠ 3 then some 1
  else if mkSide v = boolNat d.par.sideB then some 3
  else if (halyardOrder d (l - 48) (mkId v)).isNone then some 7
  else none

/-- The refusal of stage 4: the lane starts again after 1 ms. -/
def refuseLane (d : Dev) (l v cause : Nat) : Dev :=
  let x := laneOf d l
  raise (setLane d l { x with cause := cause, retryAt := some (d.tick + 250000) }) (pageLan l) 3 clsLink sevWarning 0x0A03
    (pay l cause (mkKind v + mkId v <<< 8) 0)

def setMap (d : Dev) (p l : Nat) : Dev := d.setFld pageLnk (0x100 + 4 * (p / 4)) (8 * (p % 4)) 6 l

/-- AUTO_MAP: the reported partner maps to this lane, any other entry that named it to none (R526, R532). -/
def autoMap (d : Dev) (p l : Nat) : Dev :=
  if d.flag pageLnk 0x040 0 = false ∨ mapLane d p = l then d
  else
    let d1 := upto 48 (fun d q => if q ≠ p ∧ mapLane d q = l then setMap d q 0x3F else d) d
    setPen (setMap d1 p l) pageLnk 2

/-- Firmware reads the base tables of a module whose lane comes up: the segments whose table fails its CRC (R364). -/
def readBaseTables (d : Dev) (m : Nat) (bad : BitVec 16) : Dev :=
  let x := moduleOf d m
  let d1 := setModule d m { x with bringUps := x.bringUps + 1, badTables := bad }
  upto 16 (fun d i =>
    if bad.getLsbD i then raise d (pageSeg (16 * m + i)) 6 clsHousekeeping sevFault 0x030D (payW (16 * m + i) 0 0) else d) d1

/-- The lane of station `s` is UP: if it was lost, its context goes into RECOVERY (R342). -/
def laneReturns (d : Dev) (s : Nat) : Dev :=
  let x := ctxOf d s
  if x.laneLost then enterRecovery (setCtx d s { x with laneLost := false }) s else d

/-- A lane is UP: its partner goes back to the blocks that use it (R524, R529). -/
def laneUp (d : Dev) (l v : Nat) (bad : BitVec 16) : Dev :=
  let x := laneOf d l
  if l < 48 then
    let p := (mkPartner v).getD 0
    let rev := (chosenRev (mkRev v)).getD 0
    let d1 := autoMap (setLane d l { x with
      stage := 5, since := d.tick, kind := mkKind v, id := mkId v, rev := rev, logical := p, startsMissed := 0
      markersMissed := 0 }) p l
    let d2 := raise d1 (pageLan l) 0 clsLink sevInfo 0x0A01 (pay l p rev 0)
    if p < 32 then laneReturns d2 p else readBaseTables d2 (p - 32) bad
  else
    let y := { x with
      stage := 5, since := d.tick, kind := mkKind v, id := mkId v, markersMissed := 0
      reversed := (halyardOrder d (l - 48) (mkId v)).getD false }
    raise (setLane d l y) (pageLan l) 0 clsLink sevInfo 0x0A01 (pay l 0x3F 0 0)

/-- The pass condition of the lane's stage is met (R524 to R526). -/
def stagePass (d : Dev) (l : Nat) (bad : BitVec 16) : Dev :=
  let x := laneOf d l
  if x.stage = 1 ∨ x.stage = 2 then setLane d l { x with stage := x.stage + 1, since := d.tick }
  else if x.stage = 3 then
    match x.lastMarker with
    | some m => setLane d l { x with
        stage := 4, since := d.tick, polInv := mkInverted m.toNat, lastMarker := none, agree := 0 }
    | none => d
  else if x.stage = 4 ∧ x.retryAt = none then
    match x.lastMarker with
    | some m =>
      if x.agree < 2 then d
      else
        match identityCause d l m.toNat with
        | some c => refuseLane d l m.toNat c
        | none => laneUp d l m.toNat bad
    | none => d
  else d

/-- 1 ms after a refusal (R526). -/
def retryLane (d : Dev) (l : Nat) : Dev :=
  match (laneOf d l).retryAt with
  | some at0 => if at0 ≤ d.tick then restartLane d l else d
  | none => d

/-- A stage lasts longer than 10 ms (R524). -/
def stageTimeout (d : Dev) (l : Nat) : Dev :=
  let x := laneOf d l
  if 1 ≤ x.stage ∧ x.stage ≤ 4 ∧ x.retryAt = none ∧ x.since + 2500000 < d.tick then
    raise (restartLane d l) (pageLan l) 6 clsLink sevWarning 0x0A05 (pay l x.stage 0 0)
  else d

/-! ### Loss (R528) -/

def lossDue (d : Dev) (l : Nat) (cause : LossCause) : Bool :=
  let x := laneOf d l
  match cause with
  | .lockLost => decide (3 ≤ x.stage)
  | .markers => x.stage == 5 && decide (2 ≤ x.markersMissed)
  | .cycleStarts => x.stage == 5 && decide (l < 48) && decide (d.fld pageLnk 0x040 8 8 ≤ x.startsMissed)
def lossCode : LossCause → Nat
  | .lockLost => 0
  | .markers => 1
  | .cycleStarts => 2

/-- A lost station lane faults the axes that are enabled and the station (R230, R265); its context waits for the return
(R342). -/
def loseStation (d0 : Dev) (s : Nat) : Dev :=
  let d := setCtx d0 s { ctxOf d0 s with laneLost := true }
  stationFault (upto 3 (fun d k =>
    let x := axisOfServo d (3 * s + k)
    if axisRuns d (3 * s + k) && !x.fault then setServo d (3 * s + k) { x with laneLost := true } else d) d) s 2

def laneLoss (d : Dev) (l : Nat) (cause : LossCause) : Dev :=
  if lossDue d l cause then
    let x := laneOf d l
    let linked := halyardUp d
    let d1 := if cause = .lockLost then setPen (d.count (pageLan l) 0x068) (pageLan l) 1 else d
    let d2 := raise (setPen (restartLane d1 l) pageLnk 0) (pageLan l) 2 clsLink sevFault 0x0A02 (pay l (lossCode cause) 0 0)
    if 48 ≤ l ∧ linked = true then raise d2 pageLnk 1 clsLink sevFault 0x0A06 (pay l 0 0 0)
    else if l < 48 ∧ x.stage = 5 ∧ x.logical < 32 then loseStation d2 x.logical
    else d2
  else d

/-- Counts of missed blocks at a cycle start, and the end of a superframe (R528, R533). -/
def lanesCycle (d : Dev) : Dev :=
  let d1 := upto 56 (fun d l =>
    let x := laneOf d l
    if x.stage = 5 then
      let y := { x with startsMissed := if x.startSeen then 0 else x.startsMissed + 1, startSeen := false }
      setLane d l (if d.cycle % 8 = 0 then
        { y with markersMissed := if y.markerSeen then 0 else y.markersMissed + 1, markerSeen := false } else y)
    else d) d
  if d.cycle % 8 = 0 then upto 56 badFrameEvent d1 else d1

/-! ### CTL.ENABLE (R524) -/

/-- CTL.ENABLE of a lane changes. -/
def laneEnable (d : Dev) (l : Nat) (on : Bool) : Dev :=
  let x := laneOf d l
  setLane d l (if on then freshLane x 1 d.tick else freshLane x 0 0)

/-! ### Eye scans (R530) -/

def eyeStart (d : Dev) (l : Nat) : Dev :=
  let x := laneOf d l
  if x.stage = 5 then setLane d l { x with eyeDwell := some (d.rfld (pageLan l) 0x040 8 8) } else d

def eyeCommand (d : Dev) (l v : Nat) : Dev := if bit v 0 then eyeStart d l else d

/-- The scan ends with its 63 × 64 counts, by rising voltage and then phase. -/
def eyeDone (d : Dev) (l : Nat) (table : List Word) : Dev :=
  let x := laneOf d l
  if x.eyeDwell.isSome ∧ x.stage = 5 then
    let eye := (table.take 4032).foldl (fun (a : Tab Word × Nat) w => (a.1.set (same 0) a.2 w, a.2 + 1)) ([], 0) |>.1
    let clean (k : Nat) : Bool := eye.get (same 0) k == 0
    let width := ((List.range 64).filter fun p => clean (31 * 64 + p)).length
    let height := ((List.range 63).filter fun v => clean (v * 64 + 32)).length
    let d1 := (setLane d l { x with eyeDwell := none, eye := eye }).setReg (pageLan l) 0x04C (width + height <<< 8)
    raise d1 (pageLan l) 5 clsLink sevInfo 0x0A07 (pay l width height 0)
  else d

/-! ### Uplink frames (R515 to R521, R523) -/

/-- Whether a frame that is whole now is in time: tick 300 of the cycle (R517). -/
def uplinkInTime (d : Dev) : Bool := decide (d.tick % 1250 ≤ 300)

/-- An uplink frame of partner `p`, of `count` blocks with its reports from bit `at0` on and `top` bits used: discarded,
late, or taken by `f`; the reports of a whole frame count (R492). -/
def uplinkFrame (d : Dev) (p count at0 top : Nat) (hdr : BitVec 56) (payload : Nat) (chk : Long) (f : Dev → Dev) : Dev :=
  match partnerLane d p with
  | none => d
  | some l =>
    let applied := bits payload at0 2
    let legal := bits payload top (64 * count - top) == 0 &&
      (if (laneOf d l).rev = 1 then bits payload at0 5 == 0 else applied != 3)
    if !(uplinkOk d l count hdr payload chk && legal) then badFrame d l
    else
      let d1 := partnerReport d p (bit payload (at0 + 2)) (bit payload (at0 + 3)) (bit payload (at0 + 4))
      if uplinkInTime d then f d1 else lateFrame d1 l

def stationUplink (d : Dev) (s : Nat) (hdr : BitVec 56) (payload : BitVec 256) (chk : Long) : Dev :=
  uplinkFrame d s 4 214 219 hdr payload.toNat chk fun d => setStation d s { stationOf d s with uplink := some payload }

def lineHeadUplink (d : Dev) (m : Nat) (hdr : BitVec 56) (payload : BitVec 960) (chk : Long) : Dev :=
  uplinkFrame d (modulePartner m) 15 893 898 hdr payload.toNat chk fun d => setModule d m { moduleOf d m with up := some payload }

/-! ### Meanings -/

/-- R524. -/
def execLaneStagePass (t : Nat) (lane : Fin 56) (badTables : BitVec 16) (s : State) : Host.Outcome State Fault Refusal :=
  onDev s fun d => stagePass (d.arrive t) lane.val badTables
/-- R526. -/
def execLaneIdRetry (t : Nat) (lane : Fin 56) (s : State) : Host.Outcome State Fault Refusal :=
  onDev s fun d => retryLane (d.arrive t) lane.val
/-- R524. -/
def execLaneStageTimeout (t : Nat) (lane : Fin 56) (s : State) : Host.Outcome State Fault Refusal :=
  onDev s fun d => stageTimeout (d.arrive t) lane.val
/-- R528. -/
def execLaneLost (t : Nat) (lane : Fin 56) (cause : LossCause) (s : State) : Host.Outcome State Fault Refusal :=
  onDev s fun d => laneLoss (d.arrive t) lane.val cause
/-- R514, R512. -/
def execMarker (t : Nat) (lane : Fin 56) (block : Long) (s : State) : Host.Outcome State Fault Refusal :=
  onDev s fun d => takeMarker (d.arrive t) lane.val block.toNat
/-- R513, R512. -/
def execCycleStartBlock (t : Nat) (lane : Fin 56) (block : Long) (roundTrip : Nat) (s : State) :
    Host.Outcome State Fault Refusal :=
  onDev s fun d => takeCycleStart (d.arrive t) lane.val block.toNat roundTrip
/-- R513. -/
def execUnknownBlock (t : Nat) (lane : Fin 56) (block : BadBlock) (s : State) : Host.Outcome State Fault Refusal :=
  onDev s fun d => takeUnknown (d.arrive t) lane.val block
/-- R530. -/
def execLanEyeStart (t : Nat) (lane : Fin 56) (value : Word) (s : State) : Host.Outcome State Fault Refusal :=
  onDev s fun d =>
    withWrite (d.arrive t) (pageLan lane.val) 0x040 value.toNat fun d => eyeCommand d lane.val value.toNat
/-- R530. -/
def execEyeScanDone (t : Nat) (lane : Fin 56) (table : List Word) (s : State) : Host.Outcome State Fault Refusal :=
  onDev s fun d => eyeDone (d.arrive t) lane.val table
/-- R520, R492. -/
def execStationUplinkFrame (t : Nat) (s : Fin 32) (hdr : BitVec 56) (payload : BitVec 256) (chk : Long) (st : State) :
    Host.Outcome State Fault Refusal :=
  onDev st fun d => stationUplink (d.arrive t) s.val hdr payload chk
/-- R521, R492. -/
def execLineHeadUplinkFrame (t : Nat) (m : Fin 16) (hdr : BitVec 56) (payload : BitVec 960) (chk : Long) (s : State) :
    Host.Outcome State Fault Refusal :=
  onDev s fun d => lineHeadUplink (d.arrive t) m.val hdr payload chk

end Sys2Proof.Machine
end

