-- ==== Sys2Proof/Machine/RecorderOps.lean ====
section
/-! DEFINITION. The recorder's own commands: manual hoists, histograms, the clear key and authorised clears
(R592, R601 to R605). -/
namespace Sys2Proof.Machine

/-- A 1 written to REC_MANUAL.HOIST (R592, R606). -/
def manualHoist (d : Dev) : Dev :=
  if d.enabled pageRec then
    { d with recorder := { d.recorder with triggers := d.recorder.triggers ++ [⟨pageRec, 255, 2, d.tick⟩] } }
  else d

/-- The empty state of block `i`, signed as its quantity is (R605). -/
def emptyHist (d : Dev) (i : Nat) : Hist := { sgn := bit (d.regs.inUse (wordAddr pageRec (0x100 + 8 * i))).toNat 29 }

/-- Every histogram block returns to its empty state (R605). -/
def histReset (d : Dev) : Dev :=
  { d with recorder := { d.recorder with hist := (List.range 16).foldl (fun t i => t.set (same {}) i (emptyHist d i)) [] } }

def manualWrite (d : Dev) (v : Nat) : Dev :=
  let d1 := if bit v 0 then manualHoist d else d
  if bit v 1 then histReset d1 else d1

/-- A new challenge follows every authorised command (R602). -/
def recorderChallenge (d : Dev) : Dev :=
  let a := d.fresh
  let b := a.2.fresh
  { b.2 with recorder := { b.2.recorder with challenge := BitVec.ofNat 128 (a.1.toNat + b.1.toNat <<< 64) } }

def requester (d : Dev) : Nat := d.rfld pageRec 0x090 0 32 + d.rfld pageRec 0x094 0 32 <<< 32

/-- The HMAC of a clear (R602). -/
def clearMac (d : Dev) (cmd : Nat) : Nat :=
  leNat (hmacSha256 (leBytes 32 d.recorder.key.toNat)
    (leBytes 16 d.recorder.challenge.toNat ++ leBytes 1 cmd ++ leBytes 8 (requester d)))

/-- The effect of an authorised clear (R603). -/
def clearLog (d : Dev) (cmd : Nat) : Dev :=
  let x := d.recorder
  let vals := [requester d % 2 ^ 32, requester d >>> 32, x.log.length, x.missedBurst.toNat, x.missedFull.toNat, x.clears + 1]
  let d1 := { d with recorder := { x with log := [], missedBurst := 0, missedFull := 0, clears := x.clears + 1 } }
  let pen := d1.rfld pageRec 0x010 0 32
  let d2 := d1.setReg pageRec 0x010 (pen - pen % 2)
  let d3 := if d2.fld pageRec 0x040 0 1 = 1 then histReset d2 else d2
  let d4 := writeHoist d3 d3.tick pageRec 0xFF 3 vals
  let d5 := raise d4 pageRec 2 clsHousekeeping sevNotice 0x0E02 (requester d)
  if cmd = 2 then
    let d6 := upto 8 (fun d i => d.setReg pageRec (0x1A0 + 4 * i) 0) d5
    { d6 with recorder := { d6.recorder with key := 0 }, mould := { d6.mould with storeDirty := true } }
  else d5

def clearResult (d : Dev) (cmd result : Nat) : Dev :=
  let d1 := { d with recorder := { d.recorder with result := BitVec.ofNat 2 result } }
  recorderChallenge (if result = 1 then d1 else raise d1 pageRec 3 clsHousekeeping sevWarning 0x0E03 (pay cmd result 0 0))

/-- A command written to REC_AUTH_CMD. -/
def recorderCommand (d : Dev) (cmd : Nat) : Dev :=
  if d.recorder.key = 0 then clearResult d cmd 3
  else if clearMac d cmd ≠ d.recorder.response.toNat then clearResult d cmd 2
  else clearResult (clearLog d cmd) cmd 1

def setRecResponse (d : Dev) (i v : Nat) : Dev :=
  let k := d.recorder.response.toNat
  { d with recorder := { d.recorder with
      response := BitVec.ofNat 256 (k - bits k (32 * i) 32 <<< (32 * i) + (v % 2 ^ 32) <<< (32 * i)) } }

/-- The key takes the eight words when REC_KEY7 is written (R601). -/
def recKeyTaken (d : Dev) (i : Nat) : Dev :=
  if i = 7 then
    let k := (List.range 8).foldl (fun k j => k + d.rfld pageRec (0x1A0 + 4 * j) 0 32 <<< (32 * j)) 0
    { d with recorder := { d.recorder with key := BitVec.ofNat 256 k }, mould := { d.mould with storeDirty := true } }
  else d

/-- A write of word `i` of the clear key: accepted only while the stored key is zero. -/
def recKeyWrite (d : Dev) (i v : Nat) : Dev :=
  match PageKind.recd.reg? (0x1A0 + 4 * i) with
  | none => d
  | some r =>
    match blockRefused d .recd pageRec (0x1A0 + 4 * i) r v with
    | some c => refuse d pageRec (0x1A0 + 4 * i) c
    | none =>
      if d.recorder.key ≠ 0 then refuse d pageRec (0x1A0 + 4 * i) refusedSealed
      else recKeyTaken (storeWrite d .recd pageRec (0x1A0 + 4 * i) r v) i

/-- One sample of quantity `i` (R604). -/
def histSample (d : Dev) (i : Nat) : Dev :=
  let sel := (d.regs.inUse (wordAddr pageRec (0x100 + 8 * i))).toNat
  if bit sel 31 then
    let page := if bit sel 30 then pageRec else bits sel 12 10
    let sgn := bit sel 29
    let num (w : Nat) : Int := if sgn then signed 32 w else w
    let v := (readReg d (wordAddr page (bits sel 2 10 * 4))).toNat
    let lo := d.fld pageRec (0x104 + 8 * i) 0 32
    let h := d.recorder.hist.get (same {}) i
    let bin := (clampInt 0 63 ((num v - num lo) / ((2 ^ bits sel 24 5 : Nat) : Int))).toNat
    let up (w : Word) : Word := if w = 0xFFFFFFFF#32 then w else w + 1
    let h1 : Hist :=
      { used := true, sgn := h.sgn
        min := if num h.low.toNat ≤ num v then h.low else word v
        max := if num v ≤ num h.high.toNat then h.high else word v
        samples := up h.samples
        bins := h.bins.set (same 0) bin (up (h.bins.get (same 0) bin)) }
    { d with recorder := { d.recorder with hist := d.recorder.hist.set (same {}) i h1 } }
  else d

/-- Whether the histograms are sampled now: at tick 0 of a cycle, PERIOD cycles after the last sample; the first one
comes at any cycle start, the spec naming none (R604, log entry 80). -/
def histDue (d : Dev) : Bool :=
  d.enabled pageRec && d.flag pageRec 0x040 0 && d.tick % 1250 == 0 &&
    match d.recorder.sampledAt with
    | some c => decide (c + max 1 (d.fld pageRec 0x180 0 16) ≤ d.cycle)
    | none => true

def histogramSample (d : Dev) : Dev :=
  if histDue d then
    let d1 := upto 16 histSample d
    { d1 with recorder := { d1.recorder with sampledAt := some d.cycle } }
  else d

/-! ### Meanings -/

/-- R592. -/
def execRecManualHoist (t : Nat) (s : State) : Host.Outcome State Fault Refusal :=
  onDev s fun d => withWrite (d.arrive t) pageRec 0x044 1 manualHoist
/-- R605. -/
def execRecHistReset (t : Nat) (s : State) : Host.Outcome State Fault Refusal :=
  onDev s fun d => withWrite (d.arrive t) pageRec 0x044 2 histReset
/-- R603. -/
def execRecClear (t : Nat) (s : State) : Host.Outcome State Fault Refusal :=
  onDev s fun d => withWrite (d.arrive t) pageRec 0x054 1 fun d => recorderCommand d 1
/-- R603. -/
def execRecClearAndUnkey (t : Nat) (s : State) : Host.Outcome State Fault Refusal :=
  onDev s fun d => withWrite (d.arrive t) pageRec 0x054 2 fun d => recorderCommand d 2
/-- R601. -/
def execRecKeyWrite (t : Nat) (i : Fin 8) (value : Word) (s : State) : Host.Outcome State Fault Refusal :=
  onDev s fun d => recKeyWrite (d.arrive t) i.val value.toNat
/-- R604. -/
def execHistogramSample (s : State) : Host.Outcome State Fault Refusal := onDev s histogramSample

end Sys2Proof.Machine
end

