-- ==== Sys2Proof/Machine/Boot.lean ====
section
/-! DEFINITION. Start-up, warm reset, and the flash registers (R625 to R641, R650, R656). -/
namespace Sys2Proof.Machine

/-! ### Flash contents (R625 to R627) -/

def flashByte (nv : NonVolatile) (a : Nat) : Byte := nv.flash.get (same 0xFF) a
def flashBytes (nv : NonVolatile) (a n : Nat) : List Byte := (List.range n).map fun i => flashByte nv (a + i)
def flashField (nv : NonVolatile) (a n : Nat) : Nat := leNat (flashBytes nv a n)
def setFlashByte (nv : NonVolatile) (a : Nat) (v : Byte) : NonVolatile :=
  { nv with flash := nv.flash.set (same 0xFF) a v }

/-- A valid boot record (R626). -/
def recordOk (nv : NonVolatile) : Bool :=
  let geom := flashField nv 4 1
  flashField nv 0 2 == 1 && decide (flashField nv 2 1 ≤ 1) && decide (flashField nv 3 1 ≤ 1) &&
    decide (geom ≤ 7) && kindRangeOk .mem 0 0x040 geom &&
    decide (1 ≤ flashField nv 5 1 ∧ flashField nv 5 1 ≤ 3) && flashField nv 6 22 == 0 &&
    flashField nv 28 4 == crc32 (flashBytes nv 0 28)

def slotBase (slot : Nat) : Nat := if slot = 0 then 0x100000 else 0x900000

/-- Whether the image of a slot verifies (R627). -/
def imageOk (nv : NonVolatile) (slot : Nat) : Bool :=
  let a := slotBase slot
  let len := flashField nv (a + 8) 4
  if len = 0 ∨ 8388352 < len then false
  else
    let key := flashBytes nv (a + 108) 96
    beNat (sha384 key) == Config.romKeyHash.toNat &&
      ecdsaVerify (beNat (sha384 (flashBytes nv a 12 ++ key ++ flashBytes nv (a + 256) len)))
        (beNat (flashBytes nv (a + 12) 48)) (beNat (flashBytes nv (a + 60) 48))
        (beNat (flashBytes nv (a + 108) 48)) (beNat (flashBytes nv (a + 156) 48))

/-- The slot whose image is loaded: the preferred one, then the other. -/
def bootSlot (nv : NonVolatile) : Option Nat :=
  let p := flashField nv 2 1
  if imageOk nv p then some p else if imageOk nv (1 - p) then some (1 - p) else none

/-! ### Boot step 2 (R629, R636) -/

/-- DEV_FLASH_STAT. -/
def showFlash (nv : NonVolatile) (d : Dev) (error : Bool) : Dev :=
  d.setReg pageDev 0x110 (boolNat nv.op.isSome + 2 * boolNat error)

/-- Step 2 on a device whose state has been reset: seal store, challenges, emitter selection. A store that cannot be read
stops the boot (R634). -/
def bootLoad (nv : NonVolatile) (d : Dev) (sealOk : Bool) : Dev :=
  let d1 := showFlash nv { d with boot := { d.boot with stage := 2, result := if sealOk then 0 else 4 } } false
  let d2 := if sealOk then loadSealStore d1 nv.sealStore else d1
  takeSelection (recorderChallenge (newChallenge d2))

/-- A recorder hoist of a reset (R600). -/
def resetHoist (d : Dev) (kind : Nat) : Dev := writeHoist d d.tick pageRec 0xFF kind []

/-- PORESET_N rises: nothing but the strap, the non-volatile stores and the run's free values is kept (R629). -/
def powerOn (nv : NonVolatile) (d : Dev) (strapB sealOk testEn : Bool) : Dev :=
  if d.boot.poreset then
    let d1 : Dev := { free := d.free }
    let d2 := { d1 with
      boot := { d1.boot with poreset := false, held := testEn }, par := { d1.par with sideB := strapB } }
    if testEn then d2 else resetHoist (bootLoad nv d2 sealOk) 4
  else d

/-- What a warm reset keeps (R636), with everything else at its reset value. -/
def warmKept (d : Dev) (cause : Nat) : Dev :=
  let r := d.recorder
  { tick := d.tick
    hif := { msix := d.hif.msix, pba := d.hif.pba, linkUp := d.hif.linkUp, speed := d.hif.speed, width := d.hif.width }
    recorder := { log := r.log, missedBurst := r.missedBurst, missedFull := r.missedFull, serial := r.serial,
                  clears := r.clears, hist := r.hist }
    tim := { base := d.tick }
    mon := { slow := d.mon.slow }
    boot := { poreset := false, cause := cause, wasHalted := d.par.role == roleHalted }
    par := { sideB := d.par.sideB }
    cal := { cells := d.cal.cells, cellsStaged := d.cal.cellsStaged, levels := d.cal.levels }
    mould := { openSince := d.mould.openSince }
    lhd := { failed := d.lhd.failed }
    out := d.out
    free := d.free }

/-- The seal store as a reset finds it: a change that the mould or the recorder has not stored yet is written first
(R469, R601). -/
def storedSeal (nv : NonVolatile) (d : Dev) : NonVolatile :=
  if d.mould.storeDirty then { nv with sealStore := sealStoreOf d } else nv

/-- Boot runs again from step 2 (R636). -/
def restartBoot (nv : NonVolatile) (d : Dev) (cause : Nat) : NonVolatile × Dev :=
  let nv1 := storedSeal nv d
  (nv1, resetHoist (bootLoad nv1 (warmKept (watchdogOutputs d) cause) (d.boot.result != 4)) 5)

/-! ### Steps 3 to 5 (R629, R631, R634) -/

/-- A lane is enabled by firmware. -/
def firmwareLane (d : Dev) (l : Nat) : Dev := laneEnable (d.setFld (pageLan l) 0x008 0 1 1) l true

/-- Step 4 begins: engine, halyard lanes, DRAM with the boot record's values. -/
def startFirmware (nv : NonVolatile) (d : Dev) (slot : Nat) : Dev :=
  let a := slotBase slot
  let bin := flashField nv 5 1
  let geom := flashField nv 4 1
  let d1 := { d with boot := { d.boot with
    stage := 4, slot := slot == 1, fallback := slot == 1 && flashField nv 2 1 == 0, engine := true
    fwVersion := word (flashField nv a 4), schema := BitVec.ofNat 8 (flashField nv (a + 4) 1)
    pair := flashField nv 3 1 == 1, geom := geom, bin := bin, lanesAt := some (d.cycle + 1) } }
  let d2 := (d1.setFld pageMem 0x040 0 3 geom).setFld pageMem 0x044 0 2 bin
  let d3 := (presetLoads .mem bin).foldl (fun d f => d.setFld pageMem f.1 f.2.1 f.2.2.1 f.2.2.2) d2
  memEnable (upto 8 (fun d q => firmwareLane d (48 + q)) (d3.setFld pageMem 0x008 0 1 1))

/-- Step 3: record and images (R626, R627). -/
def verifyImages (nv : NonVolatile) (d : Dev) (sfdpOk : Bool) : Dev :=
  let stop (result : Nat) : Dev := { d with boot := { d.boot with stage := 3, result := result } }
  if d.boot.stage = 2 ∧ d.boot.result = 0 ∧ d.par.role ≠ roleHalted then
    if !sfdpOk then stop 1
    else if !recordOk nv then stop 2
    else match bootSlot nv with | some slot => startFirmware nv d slot | none => stop 3
  else d

/-- Step 5: the role decision (R631). -/
def reachReady (d : Dev) : Dev :=
  if d.boot.stage = 4 ∧ d.boot.result = 0 ∧ d.dram.trained = true then
    let d1 := { d with boot := { d.boot with stage := 5 } }
    if d.boot.pair then d1.setFld pagePar 0x008 0 1 1 else parEnable (d1.setFld pagePar 0x008 0 1 0) false
  else d

/-! ### DRAM training (R549) -/

/-- The boot stops after training has failed: the transmitters go to electrical idle; HEALTH_OUT still toggles (R634). -/
def stopAtDram (d : Dev) : Dev :=
  let d1 := upto 56 (fun d l => laneEnable (d.setFld (pageLan l) 0x008 0 1 0) l false) d
  { d1 with boot := { d1.boot with result := 5, lanesAt := none } }

/-- Training ends. Up to three attempts run at boot (R634). -/
def trainingDone (d : Dev) (x : TrainingEnd) : Dev :=
  if !d.dram.training then d
  else if x.step = 0 then
    acceptHeld ({ d with dram := { d.dram with training := false, trained := true, attempts := 0 } }.setReg pageMem 0x074 0)
  else
    let d1 := { d with dram := { d.dram with training := false, fault := true, attempts := d.dram.attempts + 1 } }
    let d2 := raise (d1.setReg pageMem 0x074 x.step.toNat) pageMem 6 clsMemory sevCritical 0x0B07
      (pay x.step.toNat x.sc.val x.rank.val 0)
    if d2.boot.stage = 4 ∧ d2.boot.result = 0 then
      if 3 ≤ d2.dram.attempts then stopAtDram d2 else memEnable d2
    else d2

/-! ### Warm reset (R635, R636) -/

/-- A warm reset of cycle `c` is requested, unless an earlier one is, or the device is in boot step 1, which it does not
leave with TEST_EN high (R644). -/
def requestWarm (d : Dev) (c cause : Nat) : Dev :=
  if d.boot.stage < 2 ∨ d.boot.held = true then d
  else
    match d.boot.warm with
    | some _ => d
    | none => { d with boot := { d.boot with warm := some (c, cause) } }

/-- RESET_N reads low. -/
def resetPin (nv : NonVolatile) (d : Dev) : NonVolatile × Dev :=
  if d.boot.stage < 2 ∨ d.boot.held = true then (nv, d)
  else if d.boot.engine then (nv, requestWarm d d.cycle 1)
  else restartBoot nv d 1

/-- A write of DEV_RESET.WARM. -/
def resetWrite (d : Dev) (v : Nat) : Dev :=
  if bit v 0 then requestWarm d (if d.tick % 1250 < 1100 then d.cycle else d.cycle + 1) 2 else d

/-- The warm reset that is due in this cycle. -/
def warmNow (nv : NonVolatile) (d : Dev) : NonVolatile × Dev :=
  match d.boot.warm with
  | some (c, cause) => if c ≤ d.cycle ∧ d.boot.held = false then restartBoot nv (d.arrive 1125) cause else (nv, d)
  | none => (nv, d)

/-! ### Flash registers (R640, R641) -/

def flashAddr (d : Dev) : Nat := d.rfld pageDev 0x104 0 28
def flashAdvance (d : Dev) : Dev := d.setFld pageDev 0x104 0 28 (flashAddr d + 4)

/-- The word that a read of DEV_FLASH_DATA takes, ADDR moved on; while an operation is in progress the spec states no
value, and a free one is read. -/
def flashTake (nv : NonVolatile) (d : Dev) : Nat × Dev :=
  let r := if nv.op.isSome then (let x := d.fresh; (x.1.toNat % 2 ^ 32, x.2)) else (flashField nv (flashAddr d) 4, d)
  (r.1, flashAdvance r.2)

/-- A read of DEV_FLASH_DATA: the register serves from boot step 2 on. -/
def flashRead (nv : NonVolatile) (d : Dev) : Dev :=
  if d.boot.stage < 2 then d else let r := flashTake nv d; r.2.send (.read (word r.1))

/-- A write of DEV_FLASH_DATA or DEV_FLASH_CMD: `v` checked as any write, and refused while BUSY. -/
def flashWrite (nv : NonVolatile) (d : Dev) (off v : Nat) : NonVolatile × Dev :=
  match PageKind.dev.reg? off with
  | none => (nv, refuse d pageDev off refusedRange)
  | some r =>
    match blockRefused d .dev pageDev off r v with
    | some c => (nv, refuse d pageDev off c)
    | none =>
      if nv.op.isSome then (nv, refuse d pageDev off refusedPending)
      else if off = 0x108 then
        let nv1 := { nv with op := some (.program (flashAddr d) (word v)) }
        (nv1, showFlash nv1 (flashAdvance (storeWrite d .dev pageDev off r v)) false)
      else if bit v 0 then
        let nv1 := { nv with op := some (.erase (flashAddr d / 65536)) }
        (nv1, showFlash nv1 d false)
      else (nv, d)

/-- First byte and length of what an operation changes. -/
def FlashOp.span : FlashOp → Nat × Nat
  | .erase k => (k * 65536, 65536)
  | .program a _ => (a, 4)
/-- Byte `i` of the span after the operation: erased, or with only 1 bits set to 0. -/
def FlashOp.result (nv : NonVolatile) : FlashOp → Nat → Byte
  | .erase _, _ => 0xFF
  | .program a v, i => flashByte nv (a + i) &&& BitVec.ofNat 8 (v.toNat >>> (8 * i))

/-- The operation under way ends; where it fails the spec does not state what it leaves, and free values stand there. -/
def endFlash (nv : NonVolatile) (d : Dev) (ok : Bool) : NonVolatile × Dev :=
  match nv.op with
  | none => (nv, d)
  | some op =>
    let s := op.span
    let byte (i : Nat) : Byte := if ok then op.result nv i else BitVec.ofNat 8 (Config.freeValue (d.free + i)).toNat
    let nv1 := (List.range s.2).foldl (fun n i => setFlashByte n (s.1 + i) (byte i)) nv
    let nv2 := { nv1 with op := none }
    (nv2, if ok then showFlash nv2 d false else showFlash nv2 { d with free := d.free + s.2 } true)

/-- PORESET_N falls: everything volatile is lost, and a flash operation under way fails. -/
def powerDown (nv : NonVolatile) (d : Dev) : NonVolatile × Dev :=
  let r := endFlash nv d false
  (r.1, { free := r.2.free })

/-! ### Meanings -/

/-- R629. -/
def execPowerOnReset (strapB sealOk testEn : Bool) (s : State) : Host.Outcome State Fault Refusal :=
  onBoth s fun nv d => (nv, powerOn nv d strapB sealOk testEn)
/-- R627. -/
def execBootRomVerify (sfdpOk : Bool) (s : State) : Host.Outcome State Fault Refusal :=
  onBoth s fun nv d => (nv, verifyImages nv d sfdpOk)
/-- R631. -/
def execBootReady (s : State) : Host.Outcome State Fault Refusal := onDev s reachReady
/-- R635. -/
def execResetNSample (low : Bool) (s : State) : Host.Outcome State Fault Refusal :=
  onBoth s fun nv d =>
    let d := if d.boot.engine then d.arrive 1100 else d
    if low then resetPin nv d else (nv, d)
/-- R635. -/
def execDevResetWarm (t : Nat) (value : Word) (s : State) : Host.Outcome State Fault Refusal :=
  onDev s fun d => withWrite (d.arrive t) pageDev 0x100 value.toNat fun d => resetWrite d value.toNat
/-- R636. -/
def execWarmReset (s : State) : Host.Outcome State Fault Refusal := onBoth s warmNow
/-- R656. -/
def execRootPllLockLoss (s : State) : Host.Outcome State Fault Refusal :=
  onDev s fun d => if d.boot.poreset then d else halt d
/-- R640. -/
def execDevFlashDataRead (t : Nat) (s : State) : Host.Outcome State Fault Refusal :=
  onBoth s fun nv d => (nv, flashRead nv (d.arrive t))
/-- R641. -/
def execDevFlashDataWrite (t : Nat) (value : Word) (s : State) : Host.Outcome State Fault Refusal :=
  onBoth s fun nv d => flashWrite nv (d.arrive t) 0x108 value.toNat
/-- R641. -/
def execDevFlashErase (t : Nat) (value : Word) (s : State) : Host.Outcome State Fault Refusal :=
  onBoth s fun nv d => flashWrite nv (d.arrive t) 0x10C value.toNat
/-- R641. -/
def execFlashOperationDone (t : Nat) (ok : Bool) (s : State) : Host.Outcome State Fault Refusal :=
  onBoth s fun nv d => endFlash nv (d.arrive t) ok
/-- R549. -/
def execMemTrainingDone (t : Nat) (result : TrainingEnd) (s : State) : Host.Outcome State Fault Refusal :=
  onDev s fun d => trainingDone (d.arrive t) result
/-- R650. -/
def execPoresetNLow (s : State) : Host.Outcome State Fault Refusal := onBoth s powerDown

end Sys2Proof.Machine
end

