-- ==== Sys2Proof/Machine/RegSpace.lean ====
section
/-! DEFINITION. The register space as the host uses it: writes of any register, holding registers, commit groups, Live
writes that take effect, BAR2 windows, and the forwarded writes of a pair (R28 to R64, R481). -/
namespace Sys2Proof.Machine

/-! ### CTL.ENABLE changes -/

/-- A ring is enabled: positions from 0, a fault cleared, sequence numbers from 0 (R573, R576, R660). -/
def ringEnable (d : Dev) (r : Nat) : Dev :=
  let x := ringOf d r
  let q := renumber x.queue 0
  let d1 := (d.setReg (pageRng r) 0x04C 0).setReg (pageRng r) 0x050 0
  let d2 := if (32 ≤ r ∧ r ≤ 39) then (d1.setReg (pageRng r) 0x06C 0).setReg (pageRng r) 0x070 0 else d1
  setRing d2 r { x with queue := q.1, seq := BitVec.ofNat 32 q.2, fault := false, idle := x.fault, unsignalled := 0, parked := if x.begun then x.parked else none, stale := x.begun }

/-- What a change of CTL.ENABLE sets off in its block, once it is in use. -/
def enableEffect (d : Dev) (p : Nat) (on : Bool) : Dev :=
  let i := instOf p
  match kindOf p with
  | some .rng => if on then ringEnable d i else d
  | some .lan => laneEnable d i on
  | some .mem => if on then memEnable d else d
  | some .par => parEnable d on
  | some .icd => if on then d else abandonJob (abandonJob d 0) 1
  | some .ldl => if on then ladleEnable d else d
  | some .tmp => if on then mapEnable d else d
  | some .cal => if on then d else abortAll d 1
  | some .stn => if on then stationEnable d i else stationDisable d i
  | some .axs => if on then axisEnable d i else d
  | some .fch =>
    let d1 := if on then channelEnable d i else d
    if on = true ∧ 96 ≤ i then takeCells d1 3 (i - 96) else d1
  | some .sax => if on then takeCells (saxEnable d i) (if i < 6 then 0 else 1) (i % 6) else saxDisable d i
  | some .emu => if on then emuEnable d i else d
  | some .ctx => if on then ctxEnable d i else ctxDisable d i
  | some .img => if on then d else upto 40 (fun d c => if d.enabled (pageCtx c) then setCtx d c { ctxOf d c with frames := [] } else d) d
  | _ => d

/-- The ENABLE bit in use changes from `before`: a rise takes the Locked fields (R54). -/
def enableChange (d : Dev) (p : Nat) (before : Bool) : Dev :=
  let now := d.enabled p
  if now = before then d else if now then enableEffect (takeLocked d p) p true else enableEffect d p false

/-! ### What a write sets off -/

/-- The effect of an accepted write on an unmirrored page, at once; `held`: DEV_COMMIT_HOLD stood at 1 before it (R52). -/
def busEffect (d : Dev) (held : Bool) (k : PageKind) (p off v : Nat) : Dev :=
  let i := instOf p
  match k with
  | .par => if off = 0x040 then parCommand d v else d
  | .lan => if off = 0x040 then eyeCommand d i v else d
  | .icd => if off = 0x040 then jobAbandonWrite d v else d
  | .recd =>
    if off = 0x044 then manualWrite d v
    else if off = 0x054 then recorderCommand d (bits v 0 2)
    else if 0x070 ≤ off ∧ off < 0x090 then setRecResponse d ((off - 0x070) / 4) v
    else if 0x1A0 ≤ off ∧ off < 0x1C0 then recKeyTaken d ((off - 0x1A0) / 4)
    else d
  | .tim => if off = 0x048 then setSeconds d v else d
  | .dev =>
    if off = 0x100 then resetWrite d v
    else if off = 0x040 then
      if bit v 0 then { d with regs := { d.regs with boundaryHeld := true } }
      else if held then { d with regs := { d.regs with released := d.cycle, everHeld := true } }
      else d
    else d
  | _ => d

/-- The effect of a Live write on a mirrored page when it takes effect. -/
def liveEffect (d : Dev) (k : PageKind) (p off v : Nat) : Dev :=
  let i := instOf p
  match k with
  | .sch => if off = 0x040 ∧ bit v 1 = true ∧ d.computes = true then abandonHeat d else d
  | .srv => if off = 0x040 ∧ d.computes = true then fireTraces (armTraces d (bits v 0 16)) (bits v 16 16) else d
  | .ctx =>
    if off = 0x040 then
      let d1 := setTest d i (bit v 0)
      if bit v 1 then enterRecovery d1 i else d1
    else d
  | .stp => if off = 0x040 then stpMove d (bits v 0 12) (bits v 12 2) else d
  | .sax => if off = 0x054 then cmpArm d i v else d
  | .cal => if off = 0x040 ∧ bit v 0 = true then abortAll d 1 else d
  | .mld =>
    if off = 0x040 then (if bit v 16 then rearm d else d)
    else if off = 0x044 then authCommand d v
    else if 0x060 ≤ off ∧ off < 0x080 then setResponseWord d ((off - 0x060) / 4) v
    else if off = 0x080 then (if bit v 0 then setSeal d else d)
    else if 0x100 ≤ off ∧ off < 0x120 then setKeyWord d ((off - 0x100) / 4) v
    else d
  | _ => d

/-! ### Writes of BAR0 (R28, R29) -/

/-- An accepted write is stored, forwarded to a standby, and on an unmirrored page takes its effect. -/
def acceptWrite (d : Dev) (k : PageKind) (p off : Nat) (r : Reg) (v : Nat) : Dev :=
  let d1 := if k = .mld ∧ isLimit off = true then limitWrite d off v else storeWrite d k p off r v
  if k.mirrored then forwardWrite d1 false (wordAddr p off) v else busEffect d1 (d.flag pageDev 0x040 0) k p off v

/-- A DEV_COMMIT_HOLD write of 0 while HOLD is already 0 releases nothing. -/
def holdRelease (before after : Dev) : Dev :=
  if before.flag pageDev 0x040 0 then after
  else { after with regs := { after.regs with released := before.regs.released, everHeld := before.regs.everHeld } }

/-- A checked write of a whole register that starts at `off`; a refusal records the offset `at0` of the write. -/
def takeWrite (d : Dev) (k : PageKind) (p at0 off : Nat) (r : Reg) (v : Nat) : Dev :=
  if k = .rng ∧ off = 0x04C then prodDoorbell d (instOf p) v
  else if k = .rng ∧ off = 0x050 then consDoorbell d (instOf p) v
  else if k = .rng ∧ off = 0x06C ∧ kindRangeOk .rng (instOf p) 0x06C v = true then auxDoorbell d (instOf p) v
  else if k = .recd ∧ 0x1A0 ≤ off ∧ off < 0x1C0 then recKeyWrite d ((off - 0x1A0) / 4) v
  else
    match (if k = .mld then mouldRefused d off r v else blockRefused d k p off r v) with
    | some c => refuse d p at0 c
    | none =>
      let d1 := acceptWrite d k p off r v
      if k = .dev ∧ off = 0x040 then holdRelease d d1 else d1

/-- A write of a header register other than COMMIT. -/
def headerWrite (d : Dev) (k : PageKind) (p off v : Nat) : Dev :=
  match headerRefused d k p off v with
  | some c => refuse d p off c
  | none =>
    let before := d.enabled p
    let d1 := storeHeader d k p off v
    if k.mirrored then forwardWrite d1 false (wordAddr p off) v
    else if off = 0x008 then enableChange d1 p before else d1

/-- A write of the PBA: it is permitted (R39), and what it leaves there the PCIe rules call undefined: a free value (PRESUMED,
log entry 10). -/
def pbaWrite (d : Dev) : Dev := let f := d.fresh; { f.2 with hif := { f.2.hif with pba := f.1 } }

/-- MSI-X table words (R566, R586): an entry that is unmasked with its PBA bit set sends its message. The PCIe rules
leave other widths undefined, and free values stand there. -/
def msixWord (d : Dev) (k v : Nat) : Dev :=
  let d1 := { d with hif := { d.hif with msix := d.hif.msix.set msixReset k (word v) } }
  if k % 4 = 3 ∧ bit v 0 = false ∧ d.hif.pba.getLsbD (k / 4) = true then
    sendMsix { d1 with hif := { d1.hif with pba := d1.hif.pba &&& ~~~(BitVec.ofNat 64 (2 ^ (k / 4))) } } (k / 4) 64
  else d1
def msixWrite (d : Dev) (off bytes v : Nat) : Dev :=
  let k := (off - 0x800) / 4
  if bytes = 4 ∧ off % 4 = 0 then msixWord d k (v % 2 ^ 32)
  else if bytes = 8 ∧ off % 8 = 0 then msixWord (msixWord d k (v % 2 ^ 32)) (k + 1) (v >>> 32)
  else
    let f := d.fresh
    let d1 := { f.2 with hif := { f.2.hif with msix := f.2.hif.msix.set msixReset k (word f.1.toNat) } }
    if off % 4 + bytes ≤ 4 then d1
    else { d1 with hif := { d1.hif with msix := d1.hif.msix.set msixReset (k + 1) (word (f.1.toNat >>> 32)) } }

/-- A 32-bit write: of a 32-bit register, or of a half of a 64-bit one, whose low word is held until the high word
comes (R29). -/
def wordWrite (d : Dev) (k : PageKind) (p off v : Nat) : Dev :=
  match k.regAt? off with
  | none => refuse d p off refusedRange
  | some (r, high) =>
    if high then
      let h := d.regs.wrHold.get (same none) (wordAddr p (off - 4))
      let low := match h with | some w => w.toNat | none => d.rfld p (off - 4) 0 32
      let d1 := { d with regs := { d.regs with wrHold := d.regs.wrHold.set (same none) (wordAddr p (off - 4)) none } }
      takeWrite d1 k p off (off - 4) r (low + v <<< 32)
    else if r.wide then
      if !r.fields.any Field.writable then refuse d p off refusedRange
      else match pageRefused d k p off with
        | some c => refuse d p off c
        | none => { d with regs := { d.regs with wrHold := d.regs.wrHold.set (same none) (wordAddr p off) (some (word v)) } }
    else takeWrite d k p off off r v

/-- A write of a mould register that comes as a row of its own: refused, or with its effect. A device that forwards writes
takes it as a bus write, whose effect comes on both devices three cycles later (R45, R59, R470). -/
def mouldRow (d : Dev) (off v : Nat) (f : Dev → Dev) : Dev :=
  if d.writeHeld then holdWrite d ⟨false, wordAddr pageMld off, 4, v⟩
  else mouldWrite d off v fun d r => if d.forwards then acceptWrite d .mld pageMld off r v else f d

/-! ### COMMIT (R47, R48) -/

/-- Whether the staged values that a COMMIT of group `g` names break a condition of the page's chapter. -/
def groupRefused (d : Dev) (p g : Nat) : Bool :=
  let i := instOf p
  let s (off lo w : Nat) : Nat := d.rfld p off lo w
  let z (off lo w : Nat) : Int := signed w (d.rfld p off lo w)
  match kindOf p with
  | some .ldl => g == 0 && !(decide (s 0x048 0 16 ≤ s 0x048 16 16 ∧ s 0x048 16 16 ≤ s 0x044 0 16))
  | some .stn =>
    if g = 3 then !fctHeaderOk d i (!(stationOf d i).bank)
    else g == 2 && (List.range 8).any fun q =>
      let k0 := s (0x148 + 16 * q) 0 16
      let k1 := s (0x14C + 16 * q) 0 16
      !(decide (k0 ≤ k1 ∧ k1 ≤ s (0x148 + 16 * q) 16 16))
  | some .axs =>
    if g = 3 then !(admitProgram d i).1
    else g == 1 && !(decide (s 0x10C 0 16 ≤ s 0x10C 16 16 ∧ s 0x10C 16 16 ≤ s 0x110 0 16))
  | some .fch => g == 2 && !(decide (s 0x10C 0 16 < s 0x10C 16 16))
  | some .ctx =>
    let width := if i < 32 then 80 else s 0x058 0 11
    let height := if i < 32 then 80 else s 0x058 16 11
    let half (o : Nat) : Nat := ((ctxOf d i).staged.get (same 0) (o / 4)).toNat
    if g = 1 then
      let count := half 0x800 % 65536
      decide (128 < count) || (List.range (min 128 count)).any fun n =>
        let e := half (0x810 + 4 * n)
        !(decide (bits e 0 11 < width ∧ bits e 16 11 < height)) || bits e 11 5 != 0 || bits e 27 5 != 0
    else g == 2 && decide (32 ≤ i) && !(decide (2 ≤ width ∧ width ≤ 1024 ∧ 2 ≤ height ∧ height ≤ 2048))
  | some .img => g == 1 && (List.range 2).any fun q =>
      let n := [1, 2, 4].getD (s (0x040 + 4 * q) 0 2) 4
      let lanes := (List.range n).map fun l => s (0x040 + 4 * q) (8 + 2 * l) 2
      lanes.eraseDups.length != n
  | some .lhd =>
    if g = 2 then !(decide (z 0x10C 16 16 < z 0x10C 0 16))
    else if g = 1 then !(decide (s 0x100 16 16 ≤ s 0x100 0 16)) || !(decide (z 0x104 0 16 < d.sfld p 0x10C 0 16))
    else g == 3 && !(decide (z 0x114 0 16 < z 0x114 16 16))
  | some .sax =>
    if g = 0 then !(decide (z 0x048 0 32 ≤ z 0x04C 0 32)) else g == 3 && !(decide (s 0x128 16 10 ≤ s 0x128 0 10))
  | some .lnk =>
    g == 1 &&
      (let lanes := ((List.range 48).map fun q => s (0x100 + 4 * (q / 4)) (8 * (q % 4)) 6).filter (· != 0x3F)
       lanes.eraseDups.length != lanes.length)
  | some .mon => g == 0 && !(decide (z 0x040 0 16 < z 0x040 16 16 ∧ z 0x040 16 16 < z 0x044 0 16))
  | _ => false

/-- The groups of `v` that are not pending yet. -/
def newGroups (d : Dev) (p v : Nat) : List Nat := (List.range 32).filter fun g => bit v g && !groupPending d p g

/-- An accepted COMMIT: the groups are pending, and on a page whose boundary is the commit itself they apply unless
DEV_COMMIT_HOLD holds them (R44, R52). -/
def acceptCommit (d : Dev) (k : PageKind) (p v : Nat) : Dev :=
  let gs := newGroups d p v
  let d1 := { d with regs := { d.regs with pend := d.regs.pend ++ gs.map fun g => ⟨p, g, d.cycle, !d.heats.everStarted⟩ } }
  if k.mirrored then forwardWrite d1 false (wordAddr p 0x01C) v
  else if k.boundary = .commit && !d.flag pageDev 0x040 0 then gs.foldl (applyGroup · p) d1 else d1

/-- The admission result of an AXS page whose group 3 is named (R251). -/
def recordAdmission (d : Dev) (p v : Nat) : Dev :=
  if kindOf p = some .axs ∧ (newGroups d p v).contains 3 = true then (admitProgram d (instOf p)).2 else d

/-- A write of COMMIT. -/
def commitWrite (d0 : Dev) (p v : Nat) : Dev :=
  match kindOf p with
  | none => refuse d0 p 0x01C refusedRange
  | some k =>
    let d := recordAdmission d0 p v
    if (newGroups d p v).any fun g => !k.defines g || groupRefused d p g then refuse d p 0x01C refusedRange
    else
      match pageRefused d k p 0x01C with
      | some c => refuse d p 0x01C c
      | none => acceptCommit d k p v

/-- A BAR0 write of `bytes` bytes at `addr`, flash registers aside. -/
def registerWrite (d : Dev) (addr bytes v : Nat) : Dev :=
  let p := addr / 4096
  let off := addr % 4096
  match kindOf p with
  | none => refuse d p off refusedRange
  | some k =>
    if k = .hif ∧ 0x800 ≤ off ∧ off < 0xC00 then msixWrite d off bytes v
    else if k = .hif ∧ 0xC00 ≤ off ∧ off < 0xC08 then pbaWrite d
    else if bytes = 4 ∧ off % 4 = 0 then
      let w := v % 2 ^ 32
      if off = 0x01C then commitWrite d p w
      else if off < 0x040 then headerWrite d k p off w
      else wordWrite d k p off w
    else if bytes = 8 ∧ off % 8 = 0 then
      match k.reg? off with
      | some r => if r.wide then takeWrite d k p off off r v else refuse d p off refusedRange
      | none => refuse d p off refusedRange
    else refuse d p off refusedRange

/-- Whether the write is a 32-bit one of DEV_FLASH_DATA or DEV_FLASH_CMD. -/
def flashOffset (addr bytes : Nat) : Option Nat :=
  if bytes = 4 ∧ (addr = 0x108 ∨ addr = 0x10C) then some addr else none

/-- A write of the host to a mirrored page is held while no WRITE record can carry it (R481). -/
def hostWrite (d : Dev) (addr bytes v : Nat) : Dev :=
  if isMirrored (addr / 4096) && d.writeHeld then holdWrite d ⟨false, addr, bytes, v⟩ else registerWrite d addr bytes v

/-! ### Reads with holding registers (R29, R612) -/

/-- A 32-bit read of BAR0. -/
def readWord (d : Dev) (addr : Nat) : Dev :=
  let p := addr / 4096
  let off := addr % 4096
  if addr = wordAddr pageTim 0x060 then (latchTick d).send (.read (word d.tick))
  else if addr = wordAddr pageTim 0x064 then d.send (.read (readReg d addr))
  else
    match (kindOf p).bind fun k => k.regAt? off with
    | some (r, false) =>
      if r.wide then
        let high := readReg d (addr + 4)
        ({ d with regs := { d.regs with rdHold := d.regs.rdHold.set (same (0, 0)) p (off, high) } }).send (.read (readReg d addr))
      else d.send (.read (readReg d addr))
    | some (_, true) =>
      let h := d.regs.rdHold.get (same (0, 0)) p
      if h.1 = off - 4 then
        ({ d with regs := { d.regs with rdHold := d.regs.rdHold.set (same (0, 0)) p (0, 0) } }).send (.read h.2)
      else d.send (.read (readReg d addr))
    | none => d.send (.read (readReg d addr))

/-- A byte of BAR0 as it stands: reads of other widths than 32 bits touch no holding register. -/
def readByte (d : Dev) (a : Nat) : Byte := BitVec.ofNat 8 (bits (readReg d (a / 4 * 4)).toNat (8 * (a % 4)) 8)

/-- A read of `bytes` bytes of BAR0, of any width and alignment (R28). One of the 8 bytes of a 64-bit register is atomic
(R29): both halves are of this tick, those of TIM_TICK too, whose high word otherwise reads as R612 latched it. -/
def registerRead (d : Dev) (addr bytes : Nat) : Dev :=
  if bytes = 4 ∧ addr % 4 = 0 then readWord d addr
  else if bytes = 8 ∧ addr = wordAddr pageTim 0x060 then d.send (.bytes (leBytes 8 d.tick))
  else d.send (.bytes ((List.range bytes).map fun i => readByte d (addr + i)))

/-! ### Live writes of mirrored pages (R45) -/

def applyLive (d : Dev) (l : LiveWrite) : Dev :=
  let p := l.addr / 4096
  let off := l.addr % 4096
  let v := l.data.toNat
  match kindOf p with
  | none => d
  | some k =>
    if off = 0x008 then enableChange (d.mergeInUse p off v 3) p (d.enabled p)
    else if off < 0x040 then d.mergeInUse p off v (2 ^ 32 - 1)
    else
      match k.reg? off with
      | none => d
      | some r => liveEffect (Dev.mergeWide Dev.mergeInUse d p off v (liveMask r) r.wide) k p off v

/-- The Live writes, lowered limits and, before the first heat, raised limits whose cycle n + 3 has begun (R45, R464,
R465). -/
def liveWriteApply (d : Dev) : Dev :=
  let due := d.regs.live.filter fun l => decide (l.cycle + 3 ≤ d.cycle)
  let d1 := { d with regs := { d.regs with live := d.regs.live.filter fun l => !decide (l.cycle + 3 ≤ d.cycle) } }
  stepRateCheck (applyEarlyRaises (applyLowers (due.foldl applyLive d1)))

/-! ### BAR2 (R62 to R64, R210, R243, R259, R344, R386) -/

/-- What became of a word written to a window. -/
inductive TableResult where
  | stored | pending | readOnly | unassigned
  deriving DecidableEq, Repr

def baseFct : Nat := 0x100000
def baseProg : Nat := 0x500000
def baseComp : Nat := 0x700000
def baseTone : Nat := 0x800000
def baseEmitter : Nat := 0x840000
def baseLog : Nat := 0x900000
def baseDram : Nat := 0x8000000

/-- The RW window of R62 that holds a BAR2 address: its first byte and its size. -/
def tableWindow (a : Nat) : Option (Nat × Nat) :=
  [(baseFct, 0x400000), (baseProg, 0x180000), (baseComp, 96 * 0x2800), (baseTone, 40 * 0x1800), (baseEmitter, 0x9800),
    (baseDram, 0x8000000)].find? fun w => decide (w.1 ≤ a ∧ a < w.1 + w.2)

/-- Whether a window is mirrored. -/
def windowMirrored (a : Nat) : Bool := decide (a < baseLog)

/-- A word goes to the staged copy of the table of page `p`, unless its group is pending (R64). -/
def stageWord (d : Dev) (p g : Nat) (f : Dev → Dev) : Dev × TableResult :=
  if groupPending d p g then (refuseTable d p refusedPending, .pending) else (f d, .stored)
def readOnlyWord (d : Dev) (p : Nat) : Dev × TableResult := (refuseTable d p refusedRange, .readOnly)

def programWord (x : Program) (o : Nat) (v : Word) : Program :=
  if 0x1000 ≤ o ∧ o < 0x3000 then { x with coefs := x.coefs.set coefReset ((o - 0x1000) / 4) v }
  else { x with words := x.words.set progReset (o / 4) v }
def compWord (x : Program) (o : Nat) (v : Word) : Program :=
  if o < 0x400 then { x with fric := x.fric.set (same 0) (o / 4) v }
  else { x with cog := x.cog.set (same 0) ((o - 0x400) / 4) v }

/-- The device DRAM address of a BAR2 offset in the aperture (R569). -/
def apertureAddr (d : Dev) (a : Nat) : Nat :=
  d.fld pageHif 0x040 0 32 + d.fld pageHif 0x044 0 32 <<< 32 + (a - baseDram)

/-- A 32-bit write at BAR2 offset `a`, a multiple of 4. -/
def tableWrite (d : Dev) (a : Nat) (v : Word) : Dev × TableResult :=
  if a < baseFct then readOnlyWord d pageTmp
  else if a < baseProg then
    let s := (a - baseFct) / 0x20000
    stageWord d (pageStn s) 3 fun d =>
      { d with fct := d.fct.set (same 0) (16384 * (2 * s + boolNat (!(stationOf d s).bank)) + (a - baseFct) % 0x10000 / 4) v }
  else if a < baseComp then
    let j := (a - baseProg) / 0x4000
    if j < 96 then
      stageWord d (pageAxs j) 3 fun d =>
        let x := axisOfServo d j
        setServo d j { x with staged := programWord x.staged ((a - baseProg) % 0x4000) v }
    else (d, .unassigned)
  else if a < baseTone then
    let j := (a - baseComp) / 0x2800
    let o := (a - baseComp) % 0x2800
    if 96 ≤ j then (d, .unassigned)
    else if 0x1400 ≤ o then readOnlyWord d (pageAxs j)
    else stageWord d (pageAxs j) 3 fun d =>
      let x := axisOfServo d j
      setServo d j { x with staged := compWord x.staged o v }
  else if a < baseEmitter then
    let c := (a - baseTone) / 0x1800
    let o := (a - baseTone) % 0x1800
    if 40 ≤ c then (d, .unassigned)
    else if 0xC00 ≤ o then readOnlyWord d (pageCtx c)
    else stageWord d (pageCtx c) 1 fun d =>
      let x := ctxOf d c
      setCtx d c { x with staged := x.staged.set (same 0) (o / 4) v }
  else if a < 0x850000 then
    let o := a - baseEmitter
    if 0x9800 ≤ o then (d, .unassigned)
    else if 0x400 ≤ o then readOnlyWord d pageLhd
    else stageWord d pageLhd 3 fun d =>
      let old := d.lhd.prefStaged.toNat
      { d with lhd := { d.lhd with
          prefStaged := BitVec.ofNat 8192 (old - bits old (8 * o) 32 <<< (8 * o) + v.toNat <<< (8 * o)) } }
  else if baseLog ≤ a ∧ a < 0xA00000 then readOnlyWord d pageRec
  else if baseDram ≤ a then
    (dramWrite d 8 (apertureAddr d a) (leBytes 4 v.toNat), .stored)
  else (d, .unassigned)

/-! ### Reads of BAR2 (R62, R64, R177, R208, R243, R259, R344, R386, R569, R598, R605) -/

/-- A word of a program window (R243). -/
def programRead (x : Program) (o : Nat) : Word :=
  if 0x1000 ≤ o ∧ o < 0x3000 then x.coefs.get coefReset ((o - 0x1000) / 4) else x.words.get progReset (o / 4)
/-- A word of a compensation window: staged tables, then the active ones (R259). -/
def compRead (x : Axis) (o : Nat) : Word :=
  let part (y : Program) (q : Nat) : Word :=
    if q < 0x400 then y.fric.get (same 0) (q / 4) else y.cog.get (same 0) ((q - 0x400) / 4)
  if o < 0x1400 then part x.staged o else part x.active (o - 0x1400)
/-- A word of the emitter map window (R386). -/
def emitterRead (x : LineHead) (o : Nat) : Word :=
  let from0 (v base : Nat) : Word := word (bits v (8 * (o - base)) 32)
  if o < 0x400 then from0 x.prefStaged.toNat 0
  else if o < 0x800 then from0 x.prefActive.toNat 0x400
  else if o < 0x1000 then from0 x.selection.toNat 0x800
  else if o < 0x1800 then from0 x.failed.toNat 0x1000
  else if o < 0x9800 then
    let i := (o - 0x1800) / 2
    word ((x.results.get (same 0) i).toNat + (x.results.get (same 0) (i + 1)).toNat <<< 16)
  else 0
/-- A word of a histogram block (R605). -/
def histRead (d : Dev) (q o : Nat) : Word :=
  let h := d.recorder.hist.get (same {}) q
  if o = 0 then h.low
  else if o = 4 then h.high
  else if o = 8 then h.samples
  else if o = 12 then 0
  else h.bins.get (same 0) ((o - 16) / 4)
/-- A word of the recorder log: hoists from the oldest on, and in histogram mode the 16 blocks behind them (R598, R605). -/
def logRead (d : Dev) (o : Nat) : Word :=
  if d.flag pageRec 0x040 0 ∧ 0xBEE00 ≤ o then
    (if o < 0xBEE00 + 16 * 272 then histRead d ((o - 0xBEE00) / 272) ((o - 0xBEE00) % 272) else 0)
  else
    match d.recorder.log.reverse[o / 96]? with
    | some h => word (bits h.toNat (8 * (o % 96)) 32)
    | none => 0

/-- The word at BAR2 offset `a`, a multiple of 4, DRAM aside: tables as the host sees them; what no table holds reads 0. -/
def tableRead (d : Dev) (a : Nat) : Word :=
  if a < baseFct then
    let c := mapCell d (a / 4)
    word (c.energy % 65536 + (c.stamp % 65536) <<< 16)
  else if a < baseProg then
    let q := (a - baseFct) / 0x10000
    fctWordAt d (q / 2) (bit q 0) ((a - baseFct) % 0x10000 / 4)
  else if a < baseComp then
    let j := (a - baseProg) / 0x4000
    if j < 96 then programRead (axisOfServo d j).staged ((a - baseProg) % 0x4000) else 0
  else if a < baseTone then
    let j := (a - baseComp) / 0x2800
    if j < 96 then compRead (axisOfServo d j) ((a - baseComp) % 0x2800) else 0
  else if a < baseEmitter then
    let c := (a - baseTone) / 0x1800
    let o := (a - baseTone) % 0x1800
    if c < 40 then (if o < 0xC00 then (ctxOf d c).staged else (ctxOf d c).active).get (same 0) (o % 0xC00 / 4) else 0
  else if a < 0x850000 then emitterRead d.lhd (a - baseEmitter)
  else if baseLog ≤ a ∧ a < 0xA00000 then logRead d (a - baseLog)
  else 0

/-- A byte of a BAR2 window other than the DRAM aperture. -/
def tableByte (d : Dev) (a : Nat) : Byte := BitVec.ofNat 8 (bits (tableRead d (a / 4 * 4)).toNat (8 * (a % 4)) 8)

/-- A BAR2 read. One through the DRAM aperture goes by port HOST, and its completion comes with the bursts (R569); where no
DRAM is reached it reads 0 at once (R537). -/
def bar2Read (d : Dev) (a bytes : Nat) : Dev :=
  if baseDram ≤ a then
    match dramRead d 8 (apertureAddr d a) bytes .aperture with
    | (none, d1) => d1.send (.bytes (List.replicate bytes 0))
    | (some _, d1) => d1
  else d.send (.bytes ((List.range bytes).map fun i => tableByte d (a + i)))

/-- The page whose ERRW takes a refused write of a mirrored window (R58). -/
def windowPage (a : Nat) : Nat :=
  if a < baseFct then pageTmp else if a < baseProg then pageStn ((a - baseFct) / 0x20000)
  else if a < baseComp then pageAxs (min 95 ((a - baseProg) / 0x4000))
  else if a < baseTone then pageAxs (min 95 ((a - baseComp) / 0x2800))
  else if a < baseEmitter then pageCtx (min 39 ((a - baseTone) / 0x1800)) else pageLhd

/-- A host write of BAR2; one that is no aligned word reaches no table. A read-only part is refused as such also on a
standby, whose other mirrored tables refuse it next (R57, R58, R64). -/
def bar2Write (d : Dev) (a : Nat) (v : Word) : Dev :=
  let r := tableWrite d a v
  let notHolder := decide (d.par.role = roleStandby ∨ d.par.role = roleJoining ∨ d.par.role = roleOut)
  if a % 4 ≠ 0 then d
  else if (r.2 = .stored ∨ r.2 = .pending) ∧ windowMirrored a = true ∧ notHolder = true then
    refuseTable d (windowPage a) refusedStandby
  else if r.2 = .stored ∧ windowMirrored a = true then forwardWrite r.1 true a v.toNat
  else r.1

/-- A write of the host to a mirrored window is held while no WRITE record can carry it (R481). -/
def windowWrite (d : Dev) (a : Nat) (v : Word) : Dev :=
  if windowMirrored a && d.writeHeld then holdWrite d ⟨true, a, 4, v.toNat⟩ else bar2Write d a v

/-- A cycle begins: the writes that the host link holds are accepted as far as its WRITE records go (R481). -/
def releaseWrites (d : Dev) : Dev :=
  d.par.heldWrites.foldl (fun d w => if w.bar2 then windowWrite d w.addr (word w.value) else hostWrite d w.addr w.bytes w.value)
    { d with par := { d.par with heldWrites := [] } }

/-! ### Table loads (R587) -/

def loadOffset (e : Entry) : Nat := byteField e 16 4
def loadLength (e : Entry) : Nat := byteField e 20 4
def loadAddr (e : Entry) : Nat := byteField e 8 8

/-- The words go to their table as BAR2 writes in address order, up to the first that is refused: its offset, and what
became of it. -/
def loadWords : Nat → Dev → List Word → Dev × Option (Nat × TableResult)
  | _, d, [] => (d, none)
  | a, d, v :: t =>
    let r := tableWrite d a v
    if r.2 = .stored then loadWords (a + 4) r.1 t else (r.1, some (a, r.2))

def loadShape (e : Entry) : Bool :=
  byteField e 0 1 == 0x41 && byteField e 1 3 == 0 && byteField e 24 7 == 0 && loadOffset e % 4 == 0 &&
    loadLength e % 4 == 0 && decide (4 ≤ loadLength e ∧ loadLength e ≤ 4194304)

/-- The target lies wholly inside one RW table window. -/
def loadInside (e : Entry) : Bool :=
  match tableWindow (loadOffset e) with
  | some w => decide (loadOffset e + loadLength e ≤ w.1 + w.2)
  | none => false

/-- The data go to the table, and the entry has its result. -/
def loadTable (d : Dev) (r : Nat) (e : Entry) (bs : List Byte) : Dev :=
  -- data for the DRAM aperture are one write through port HOST
  if baseDram ≤ loadOffset e then
    loadResult (dramWrite d 8 (apertureAddr d (loadOffset e)) (bs.take (loadLength e))) r e 0x00 none
  else
  match loadWords (loadOffset e) d (wordsOf (loadLength e / 4) bs) with
  | (d1, none) => loadResult d1 r e 0x00 none
  | (d1, some (a, .pending)) => loadResult d1 r e 0x05 (some a)
  | (d1, some _) => loadResult d1 r e 0x03 none

/-- The entry acts. -/
def loadAct (d : Dev) (r : Nat) (e : Entry) (rd : HostRead) : Dev :=
  if !loadShape e then loadDone d r e 0x02 none
  else if !loadInside e then loadDone d r e 0x03 none
  else
    match rd with
    | .ok bs =>
      let d1 := if d.forwards then sendCopy 4 (bs.length / 4088 + 2) d (8 + r) (leBytes 32 e.toNat ++ bs) else d
      loadTable d1 r e bs
    | _ => loadDone (dmaFault d (8 + r) (loadAddr e)) r e 0x07 none

/-- An entry of ring `8 + r`: one that has data to read waits for them. -/
def loadEntry (d : Dev) (r : Nat) (e : Entry) (rd : HostRead) (self : Instr) : Dev :=
  if canRead d (8 + r) && rd == .waiting && loadShape e && loadInside e then
    (if bits e.toNat 248 1 = phaseAt (entryPos d (8 + r)) then park d (8 + r) self true else phaseError d (8 + r))
  else takeEntry d (8 + r) e fun d _ => loadAct d r e rd

/-! ### Records of the holder on the standby (R59, R283, R427, R470, R481, R501) -/

def receives (d : Dev) : Bool := d.par.role == roleStandby || (d.par.role == roleJoining && decide (2 ≤ d.par.joinStage))

/-- A forwarded write is applied as it was accepted: its checks were the holder's. -/
def forwardedWrite (d : Dev) (bar2 : Bool) (a : Nat) (v : Word) : Dev :=
  if bar2 then (tableWrite d a v).1
  else
    let p := a / 4096
    let off := a % 4096
    match kindOf p with
    | none => d
    | some k =>
      if !k.mirrored then d
      else if off = 0x01C then acceptCommit (recordAdmission d p v.toNat) k p v.toNat
      else if off < 0x040 then storeHeader d k p off v.toNat
      else match k.reg? off with | some r => acceptWrite d k p off r v.toNat | none => d

/-- A WRITE record: one of another cycle is not in time and counts as missing (R486). -/
def takeWriteRecord (d : Dev) (cycle : Nat) (bar2 : Bool) (a : Nat) (v : Word) : Dev :=
  if receives d && halyardUp d && cycle == d.cycle then
    forwardedWrite { d with par := { d.par with writes := d.par.writes + 1 } } bar2 a v
  else d

/-- A SAMPLE record (R527): 0 local channel, 1 comparator edge, 2 power-head code, 3 challenge. -/
def takeSampleRecord (d : Dev) (kind index tick : Nat) (data : BitVec 128) : Dev :=
  if d.par.role = roleStandby ∧ halyardUp d = true then
    let d1 := if tick + 250 < d.tick then { d with par := { d.par with sampleLate := true } } else d
    if kind = 0 then (if index < 8 then forwardedSample d1 (96 + index) (sampleOfData data.toNat) tick else d1)
    else if kind = 1 then
      (if index < 16 then
        noteSample { d1 with cal := { d1.cal with edgesNext := d1.cal.edgesNext ++ [(index, tick, data.getLsbD 0)] } }
          { kind := 1, index := index, rising := data.getLsbD 0, tick := tick, own := false }
      else d1)
    else if kind = 2 then { d1 with cal := { d1.cal with codeNext := some (signed 24 (data.toNat % 2 ^ 24)) } }
    else if kind = 3 then
      noteSample { d1 with mould := { d1.mould with challenge := data } } { kind := 3, tick := tick, own := false }
    else d1
  else d

/-- A BULK record: bytes for DRAM, or an entry that the holder staged, with its data; on a holder, the standby's
confirmation of a table load (R478, R587). -/
def takeBulk (d : Dev) (entry : Option Entry) (a : Nat) (bytes : List Byte) : Dev :=
  if receives d && halyardUp d then
    match entry with
    | none => dramWrite d 6 a bytes
    | some e =>
      let ring := a % 16
      if ring < 4 then staged d ring e
      else if ring < 8 then bulkLines d (ring - 4) e
      else if ring < 10 then
        -- the confirmation of the table words (R587)
        sendCopy 4 1 (loadTable d (ring - 8) e bytes) a (leBytes 32 e.toNat)
      else if ring < 12 then forwardedRun d (ring - 10) e bytes else d
  else if d.pairHolder && halyardUp d && entry.isSome && (a == 8 || a == 9) then confirmLoad d (a - 8)
  else d
where
  /-- Index in its ring, and the status of a reading that failed. -/
  index : Nat := a / 16 % 2 ^ 16
  status : Nat := a / 2 ^ 20 % 256
  /-- An entry of a heat; one that closes its heat is confirmed (R93). -/
  staged (d : Dev) (r : Nat) (e : Entry) : Dev :=
    if status ≠ 0 ∧ (subOf d r).mode = 1 then rejectHeat d r index e status (a / 2 ^ 28 % 256) (a / 2 ^ 36)
    else
      let d1 := submissionEntry d r index (decodedEntry e) (.ok bytes)
      if d1.heats.accepted = d.heats.accepted then d1 else sendCopy 4 1 d1 a (leBytes 32 e.toNat)
  /-- Lines of a heat that this device knows. -/
  bulkLines (d : Dev) (r : Nat) (e : Entry) : Dev :=
    match findHeat d (BitVec.ofNat 32 (enHeat e)) with
    | none => d
    | some h =>
      match h.passes.find? fun p => psIndex p == byteField e 26 1 with
      | none => d
      | some p =>
        if status ≠ 0 then entryDone d (4 + r) index status (a / 2 ^ 28 % 256) (enHeat e) (a / 2 ^ 36) 0
        else linesData d r index (decodedEntry e) h p (nextLine d h p) (.ok bytes)

/-! The state space of MIRROR records (the model's own layout, log entry 27): words of BAR0 below 2²², those in use from 2²², BAR2 offsets from
2²⁸, cells of the thermal map from 2²⁹, then the map's accumulators and the ladle, 64-bit values low word first; words of the field corrections from 2²⁹ + 2²¹. -/

/-- Bits `32 * i` and up of `old` replaced by the word `v`. -/
def putWord (old i : Nat) (v : Word) : Nat := old - bits old (32 * i) 32 <<< (32 * i) + v.toNat <<< (32 * i)

/-- A word of the accumulators of the map (R185, R187: stations 0 to 31, then cell columns 0 to 511) and of the ladle
(R161: level, short state, power held by station or pass). -/
def mirrorAccount (d : Dev) (k : Nat) (v : Word) : Dev :=
  let put (t : Tab Nat) (q : Nat) : Tab Nat := t.set (same 0) (q / 2) (putWord (t.get (same 0) (q / 2)) (q % 2) v)
  if k < 64 then { d with map := { d.map with stations := put d.map.stations k } }
  else if k < 1088 then { d with map := { d.map with columns := put d.map.columns (k - 64) } }
  else if k < 1090 then { d with ladle := { d.ladle with level := putWord d.ladle.level (k - 1088) v } }
  else if k = 1090 then { d with ladle := { d.ladle with short := v.getLsbD 0 } }
  else if 1092 ≤ k ∧ k < 1158 then { d with ladle := { d.ladle with held := put d.ladle.held (k - 1092) } }
  else d

/-- A word of state from the holder; a register word in use may differ from the one last accepted (R46). -/
def mirrorWord (d : Dev) (a : Nat) (v : Word) : Dev :=
  if a < 2 ^ 22 then
    (if mirroredWord a then { d with regs := (d.regs.setRead a v).setInUse a v } else d)
  else if a < 2 ^ 23 then
    (if mirroredWord (a - 2 ^ 22) then { d with regs := d.regs.setInUse (a - 2 ^ 22) v } else d)
  else if 2 ^ 28 ≤ a ∧ a < 2 ^ 29 then (tableWrite d (a - 2 ^ 28) v).1
  else if 2 ^ 29 ≤ a ∧ a < 2 ^ 29 + 262144 then
    { d with map := { d.map with cells := d.map.cells.set (same {}) (a - 2 ^ 29) ⟨v.toNat % 65536, v.toNat / 65536⟩ } }
  else if 2 ^ 29 + 2 ^ 21 ≤ a then (if a < 2 ^ 29 + 2 ^ 21 + 2 ^ 20 then { d with fct := d.fct.set (same 0) (a - (2 ^ 29 + 2 ^ 21)) v } else d)
  else if 2 ^ 29 + 262144 ≤ a then mirrorAccount d (a - (2 ^ 29 + 262144)) v
  else d

/-- A part of the state from the holder; each device samples the interlock inputs itself (R482). -/
def mirrorPart (d : Dev) : MirrorPart → Dev
  | .groups pend live => { d with regs := { d.regs with pend := pend, live := live } }
  | .heats x => { d with heats := x }
  | .sched x => { d with sched := x }
  | .ladle x => { d with ladle := x }
  | .station s x => setStation d s x
  | .axis j x => setServo d j x
  | .channel c x => setChannel d c x
  | .emu e x => setEmu d e x
  | .ctx c x => setCtx d c x
  | .imaging x => { d with img := x }
  | .lineHead x => { d with lhd := x }
  | .steppers x => { d with stp := x }
  | .mould x => { d with mould := { x with openSince := d.mould.openSince } }
  | .calibration x => { d with cal := x }
  | .trace c x => setTrace d c x
  | .timeOfDay sec frac tick => setTod d sec frac (min tick d.tick)
  | .hold released ever boundary =>
    { d with regs := { d.regs with released := released, everHeld := ever, boundaryHeld := boundary } }
  | .map x => { d with map := { x with cells := d.map.cells } }
  | .registers acc act =>
    let copy (own copied : Tab Word) : Tab Word :=
      copied.foldl (fun t w => if mirroredWord w.1 then t.set resetWord w.1 w.2 else t) (own.filter fun w => !mirroredWord w.1)
    { d with regs := { d.regs with acc := copy d.regs.acc acc, act := copy d.regs.act act } }
  | .corrections fct => { d with fct := fct }
  | .cells x => { d with map := { d.map with cells := x } }

/-- A MIRROR record: state from the holder (R501). -/
def takeMirror (d : Dev) (a : Nat) (data : MirrorData) : Dev :=
  if d.par.role = roleJoining ∧ 2 ≤ d.par.joinStage ∧ halyardUp d = true then
    match data with
    | .word v => mirrorWord (mirrorWords d 1) a v
    | .part n p => mirrorPart (mirrorWords d n) p
  else d

/-! ### Meanings -/

/-- R28 to R58. -/
def execRegisterWrite (t : Nat) (addr : BitVec 22) (bytes : Nat) (data : Long) (s : State) :
    Host.Outcome State Fault Refusal :=
  onBoth s fun nv d =>
    match flashOffset addr.toNat bytes with
    | some off => flashWrite nv (d.arrive t) off (data.toNat % 2 ^ 32)
    | none => (nv, hostWrite (d.arrive t) addr.toNat bytes data.toNat)
/-- A read of another width that takes in bytes of DEV_FLASH_DATA (R28): those bytes are of the word at ADDR. -/
def flashReadWide (nv : NonVolatile) (d : Dev) (a bytes : Nat) : Dev :=
  if d.boot.stage < 2 then d
  else
    let base := wordAddr pageDev 0x108
    let r := flashTake nv d
    let byte (x : Nat) : Byte := if base ≤ x ∧ x < base + 4 then BitVec.ofNat 8 (r.1 >>> (8 * (x - base))) else readByte r.2 x
    r.2.send (.bytes ((List.range bytes).map fun i => byte (a + i)))

/-- A host read: the flash's data word has an effect of its own (R640). -/
def hostRead (nv : NonVolatile) (d : Dev) (bar2 : Bool) (a bytes : Nat) : Dev :=
  if bar2 then bar2Read d a bytes
  else if a = wordAddr pageDev 0x108 ∧ bytes = 4 then flashRead nv d
  else if wordAddr pageDev 0x108 < a + bytes ∧ a < wordAddr pageDev 0x108 + 4 then flashReadWide nv d a bytes
  else registerRead d a bytes
/-- R28, R29, R62. -/
def execLowWordRead (t : Nat) (r : ReadRequest) (s : State) : Host.Outcome State Fault Refusal :=
  onBoth s fun nv d => (nv, hostRead nv (d.arrive t) r.bar2 r.addr.toNat r.bytes)
/-- R48. -/
def execCommitWrite (t : Nat) (page : Fin 1024) (value : Word) (s : State) : Host.Outcome State Fault Refusal :=
  onDev s fun d =>
    if isMirrored page.val && (d.arrive t).writeHeld then holdWrite (d.arrive t) ⟨false, wordAddr page.val 0x01C, 4, value.toNat⟩
    else commitWrite (d.arrive t) page.val value.toNat
/-- R45. -/
def execLiveWriteApply (s : State) : Host.Outcome State Fault Refusal := onDev s liveWriteApply
/-- R52, R53. -/
def execDevCommitHold (t : Nat) (value : Word) (s : State) : Host.Outcome State Fault Refusal :=
  onDev s fun d => registerWrite (d.arrive t) 0x040 4 value.toNat
/-- R62 to R64. -/
def execBar2TableWrite (t : Nat) (addr : BitVec 28) (data : Word) (s : State) : Host.Outcome State Fault Refusal :=
  onDev s fun d => windowWrite (d.arrive t) addr.toNat data
/-- R464. -/
def execMldLimitWrite (t : Nat) (off : BitVec 12) (value : Word) (s : State) : Host.Outcome State Fault Refusal :=
  onDev s fun d =>
    let d := d.arrive t
    if isLimit off.toNat && d.writeHeld then holdWrite d ⟨false, wordAddr pageMld off.toNat, 4, value.toNat⟩
    else if isLimit off.toNat then
      mouldWrite d off.toNat value.toNat fun d r => acceptWrite d .mld pageMld off.toNat r value.toNat
    else refuse d pageMld off.toNat refusedRange
/-- R467: the write as it takes effect. -/
def execMldSeal (t : Nat) (s : State) : Host.Outcome State Fault Refusal :=
  onDev s fun d => mouldRow (d.arrive t) 0x080 1 setSeal
/-- R468: the write of MLD_AUTH_CMD as it takes effect. -/
def execMldAuthRaise (t : Nat) (s : State) : Host.Outcome State Fault Refusal :=
  onDev s fun d =>
    let d := d.arrive t
    mouldRow d 0x044 (1 + (d.rfld pageMld 0x044 16 12) <<< 16) fun d =>
      authRaise d (d.rfld pageMld 0x044 16 12) (d.rfld pageMld 0x048 0 32)
/-- R467: the write of MLD_AUTH_CMD as it takes effect. -/
def execMldAuthUnseal (t : Nat) (s : State) : Host.Outcome State Fault Refusal :=
  onDev s fun d => mouldRow (d.arrive t) 0x044 2 authUnseal
/-- R467: the write as it takes effect. -/
def execMldKeyWrite (t : Nat) (i : Fin 8) (value : Word) (s : State) : Host.Outcome State Fault Refusal :=
  onDev s fun d => mouldRow (d.arrive t) (0x100 + 4 * i.val) value.toNat fun d =>
    setKeyWord (d.setReg pageMld (0x100 + 4 * i.val) value.toNat) i.val value.toNat
/-- R59. -/
def execWriteRecord (t : Arrival) (cycle : Nat) (bar2 : Bool) (addr : BitVec 28) (data : Word) (s : State) :
    Host.Outcome State Fault Refusal :=
  onDev s fun d => receive d t fun d => takeWriteRecord d cycle bar2 addr.toNat data
/-- R283, R427, R470. -/
def execSampleRecord (t : Arrival) (kind index : BitVec 8) (tick : Long) (data : BitVec 128) (s : State) :
    Host.Outcome State Fault Refusal :=
  onDev s fun d => receive d t fun d => takeSampleRecord d kind.toNat index.toNat tick.toNat data
/-- R93, R478. -/
def execBulkRecord (t : Arrival) (entry : Option Entry) (addr : Long) (bytes : List Byte) (s : State) :
    Host.Outcome State Fault Refusal :=
  onDev s fun d => receive d t fun d => takeBulk d entry addr.toNat bytes
/-- R501. -/
def execMirrorRecord (t : Arrival) (addr : Nat) (data : MirrorData) (s : State) : Host.Outcome State Fault Refusal :=
  onDev s fun d => receive d t fun d => takeMirror d addr data

end Sys2Proof.Machine
end

