-- ==== Sys2Proof/Machine/Cycle.lean ====
section
/-! DEFINITION. The station cycle: its start, the computation from the uplink deadline on, the command frames with the
accounts of the cycle, and the watchdog (R22 to R26, R476, R511 to R519, R607). -/
namespace Sys2Proof.Machine

/-! ### LGY (R607) -/

/-- The status word of slot `k`. -/
def lgyWord (d : Dev) (k : Nat) : Nat :=
  let s := d.fld pageLgy (0x080 + 4 * (k / 6)) (5 * (k % 6)) 5
  let st := stationOf d s
  boolNat (d.enabled (pageStn s)) + 2 * boolNat st.applied.gate0 + 4 * boolNat (st.fault && d.enabled (pageStn s)) +
    8 * boolNat ((List.range 3).any fun a => (axisOfServo d (3 * s + a)).held) + 16 * (st.motion % 16) +
    65536 * (st.applied.power / 8 % 65536)
def lgyRebuild (d : Dev) : Dev :=
  let d1 := upto 12 (fun d k => d.setReg pageLgy (0x040 + 4 * k) (lgyWord d k)) d
  (d1.setReg pageLgy 0x070 (boolNat (!d.mould.latched) + 2 * boolNat d.heats.running.isSome)).setReg pageLgy 0x074
    d.heats.current.toNat

/-! ### Control blocks of the cycle (R513, R514) -/

/-- CYCLE_START in slot 0 of every partner lane that sends. -/
def cycleStartBlocks (d : Dev) : Dev :=
  upto 48 (fun d l => if (laneOf d l).stage = 0 then d else d.send (.block l 0x2D (d.cycle % 2 ^ 32))) d

/-- The MARKER payload that the device sends on lane `l`. -/
def markerOf (d : Dev) (l : Nat) : Nat :=
  (laneOf d l).rev % 16 + 3 <<< 4 + (if 48 ≤ l then l - 48 else 0) <<< 6 + boolNat d.par.sideB <<< 12 +
    (d.cycle / 8 % 65536) <<< 13 + 0x5C <<< 48
/-- The MARKER that ends a superframe, on every lane that sends (R511). -/
def sendMarkers (d : Dev) : Dev :=
  if d.cycle % 8 = 7 then
    upto 56 (fun d l => if (laneOf d l).stage = 0 then d else d.send (.block l 0xE4 (markerOf d l))) d
  else d

/-! ### The start of a cycle (R22, R24) -/

/-- Where the carriage stands as the cycle begins, and which way its move goes (R132). -/
def noteCarriage (d : Dev) : Dev :=
  { d with stp := { d.stp with
      carriage0 := (axisOf d 0).pos, carriageDir := match moveOf d 0 with | some m => m.dir | none => 0 } }

/-- The partner lanes are enabled one cycle after the engine starts (R629). -/
def bootLanes (d : Dev) : Dev :=
  match d.boot.lanesAt with
  | some c =>
    if c ≤ d.cycle then upto 48 firmwareLane { d with boot := { d.boot with lanesAt := none } } else d
  | none => d

/-- What the two devices of a pair settle between them. -/
def pairCycle (d : Dev) : Dev := seekerJoins (clearPairMarks (usePeer (joinOver (pairStart d))))

/-- Camera and gate: exposures that ended are checked, exposures open, the frames of the last computation apply (R24). -/
def framesApply (d : Dev) : Dev := applyStrobe (upto 32 applyStationFrame (upto 32 openCoaxial (upto 32 exposureEnds d)))

/-- Islands: completions, the release of a pass, the decision and executions (R110, R111, R140, R167). -/
def islandsCycle (d : Dev) : Dev := activateIslands (applyDecision (passFree (completeIslands d)))

/-- The carriage's strokes; islands that are ready then, those of a spread that completes now among them, are stranded
where no station can take them, unless they are abandoned at this cycle's start (R16, R113, R158). -/
def strokesAndStrandings (d : Dev) : Dev :=
  if d.computes then (let e := strokeCycle d; if abandonDue e then e else strandIslands e) else d

/-- The cycle at whose start a heat is to start is that heat's first: what waits for it stands in force from here on (R14,
R21). -/
def firstCycleSettings (d : Dev) : Dev := if heatMayStart d then waitingSettings d else d

/-- The rest of the start of a cycle, once the pair is settled. -/
def engineCycle (d : Dev) (head : BitVec 24) : Dev :=
  let d1 := firstCycleSettings (bootLanes (lanesCycle d))
  let d2 := cycleStartBlocks { d1 with boot := { d1.boot with healthOut := !d1.boot.healthOut } }
  let d3 := framesApply (calCycleStart d2 head)
  let d4 := mapCommit (upto 4 pipeCycle (testCycle d3))
  let d5 := noteCarriage (islandsCycle d4)
  countShort (strokesAndStrandings d5)

/-- The cycle begins on a device whose engine runs; one that a yield takes out of operation does no more (R498). -/
def engineStart (d : Dev) (head : BitVec 24) : Dev :=
  let d1 := pairCycle d
  if d1.running then engineCycle d1 head else d1

/-- A device whose engine does not run sends no frame: its stations' gates are closed (R473). -/
def closeGate (d : Dev) (s : Nat) : Dev :=
  let st := stationOf d s
  setStation d s { st with applied := {}, sent := {}, openSince := none, openBefore := st.openSince }

/-- R22: the next cycle begins; the supply readings, and the power head's code (R421, R621). All of it stands at the
cycle's first tick. -/
def cycleStart (d : Dev) (supplies : Vector (BitVec 16) 16) (head : BitVec 24) : Dev :=
  if d.boot.stage < 2 then d
  else
    let d1 := d.advance ((d.cycle + 1) * 1250)
    let d2 := match d1.boot.haltAt with
      | some c => if c ≤ d1.cycle then halt { d1 with boot := { d1.boot with haltAt := none } } else d1
      | none => d1
    let d3 := releaseWrites (if d2.running then engineStart d2 head else upto 32 closeGate d2)
    { mirrorStream (lgyRebuild (sampleSupplies d3 supplies)) with tick := d1.tick }

/-! ### The computation (R23, R262) -/

/-- The events of a cycle that a trace shows are over. -/
def clearAxisEvents (d : Dev) : Dev := upto 96 (fun d j => setServo d j { axisOfServo d j with event := false }) d

/-- Servo, stations, line head and traces, on the samples of the cycle. -/
def computeCycle (d : Dev) : Dev :=
  let d1 := if d.holds then dispatchCycle d else trackIdle d
  let d2 := upto 96 shiftReference (upto 32 stationChannels d1)
  let d3 := faultStations (upto 32 placeStation (upto 32 measureSpot (upto 96 servoPost d2)))
  let d4 := calCycle (upto 32 remapMove d3)
  let d5 := calDenied (upto 32 stationCycle d4)
  clearAxisEvents (traceCycle (lineHeadCycle (upto 32 exposeStep d5)))

/-- Tick 300: the samples in time are fixed and the computation runs. -/
def uplinkDeadline (d : Dev) : Dev :=
  if d.running && d.boot.deadlineOf != d.cycle + 1 then
    let d1 := reportEvents (d.arrive 300)
    let d2 := if d1.computes then computeCycle d1
      else upto 16 (fun d m => setModule d m { moduleOf d m with up := none }) (upto 32 stationChannels d1)
    { d2 with tick := d1.tick, boot := { d2.boot with deadlineOf := d1.cycle + 1 } }
  else d

/-! ### Command frames (R489, R515, R518, R519) -/

/-- The command payload of station `s`. -/
def stationPayload (d : Dev) (s : Nat) : Nat :=
  let axis (k : Nat) : Nat :=
    let x := axisOfServo d (3 * s + k)
    unsigned 16 x.iCmd + boolNat x.held <<< 16 + boolNat x.disabled <<< 17
  let f := (stationOf d s).sent
  axis 0 + axis 1 <<< 18 + axis 2 <<< 36 + boolNat f.gate0 <<< 54 + (f.on % 2048) <<< 55 + (f.off % 2048) <<< 66 +
    (f.power % 65536) <<< 77 + boolNat f.expose <<< 93 + (f.expTicks % 8192) <<< 94

/-- ROLE of a command frame. -/
def frameRole (d : Dev) : Nat := if d.holds then 1 else 2

/-- What STN_POWER_CMD and AXS_OUT show of the last frame sent to station `s` (R234, R278). -/
def noteSent (d : Dev) (s : Nat) : Dev :=
  upto 3 (fun d k => setServo d (3 * s + k) { axisOfServo d (3 * s + k) with sentOut := (axisOfServo d (3 * s + k)).iCmd })
    (setStation d s { stationOf d s with powerSent := (stationOf d s).sent.power })

/-- The command frame of partner `p`; nothing where no lane of it is UP. -/
def partnerFrame (d : Dev) (p : Nat) : Dev :=
  match partnerLane d p with
  | some l =>
    let count := if p < 32 then 2 else 14
    let payload := if p < 32 then stationPayload d p else lineHeadPayload d (p - 32)
    let crc := payloadCrc payload count
    let hdr := frameHeader d.cycle (frameRole d) (boolNat d.par.sideB) d.par.epoch.toNat (laneOf d l).rev count 0
    let d1 := if p < 32 then noteSent d p else d
    sendFrame { d1 with par := { d1.par with frameCrc := d1.par.frameCrc.set (same 0) p (BitVec.ofNat 32 crc) } } l commandHdr hdr crc payload
  | none => d

/-! ### Accounts of the cycle (R172, R184 to R187, R457) -/

def spotCellIndex (d : Dev) (s : Nat) : Nat :=
  let c := (stationOf d s).spotCell
  c.2 * 512 + c.1

/-- What station `s` delivers in the cycle: into its mould cell and its island's account. The account is made when the
cycle's frames are sent, so the record of an island interrupted before that in the cycle leaves its frame out (DESIGN
CHOICE, log entry 74). -/
def stationEnergy (d : Dev) (s : Nat) : Dev :=
  let st := stationOf d s
  let amount := st.applied.power * st.applied.openTicks
  if amount = 0 then d
  else
    let d1 := mouldDeposit d s (some (spotCellIndex d s)) amount
    match st.island with
    | some key => updRun d1 fun x => x.setIsland key { x.island key with energy := (x.island key).energy + amount }
    | none => d1

/-- Ladle, thermal map and mould take the draw and the deposits of the frames that apply in this cycle. -/
def accountCycle (d : Dev) : Dev :=
  let widths := match d.lhd.applied with | some o => o.widths | none => 0
  let opt := d.fld pageTmp 0x054 0 16
  let columns := match d.lhd.applied with | some o => o.columns.map fun c => (c.1, c.2.1, c.2.2 * 4 * opt) | none => []
  let d1 := ladleUpdate d (stationsDraw d + strobeDraw d widths)
  upto 32 stationEnergy (mapCycle d1 (spotCellIndex d1) columns)

/-- Tick 800: the PRE windows, the frames, the accounts and the device's record of the cycle. -/
def commandFrames (d : Dev) : Dev :=
  if d.running && d.boot.deadlineOf == d.cycle + 1 && d.boot.sentOf != d.cycle + 1 then
    let d1 := d.arrive 800
    let d2 := if d1.computes then accountCycle (upto 48 partnerFrame (upto 96 servoPre d1)) else d1
    let d3 := sendMarkers (sendCycleRecord (mirrorStream d2))
    { d3 with tick := d1.tick, boot := { d3.boot with sentOf := d1.cycle + 1 } }
  else d

/-! ### The watchdog (R476) -/

/-- Command frames of this cycle's computation are due on a partner lane, and COMMAND_FRAME_SEND has not come. -/
def framesMissing (d : Dev) : Bool :=
  d.computes && d.boot.sentOf != d.cycle + 1 && (List.range 48).any fun p => (partnerLane d p).isSome

/-- Tick 1,100: a frame not sent or an SRAM error halts the device. -/
def watchdog (d : Dev) (framesSent sramError : Bool) : Dev :=
  if d.running && (!framesSent || framesMissing d || sramError) then halt (d.arrive 1100) else d

/-! ### Meanings -/

/-- R22. -/
def execCycleStart (supplies : Vector (BitVec 16) 16) (head : BitVec 24) (s : State) : Host.Outcome State Fault Refusal :=
  onDev s fun d => cycleStart d supplies head
/-- R262. -/
def execUplinkDeadline (s : State) : Host.Outcome State Fault Refusal := onDev s uplinkDeadline
/-- R23. -/
def execCommandFrameSend (s : State) : Host.Outcome State Fault Refusal := onDev s commandFrames
/-- R476. -/
def execWatchdogCheck (framesSent sramError : Bool) (s : State) : Host.Outcome State Fault Refusal :=
  onDev s fun d => watchdog d framesSent sramError

end Sys2Proof.Machine
end

