-- ==== Sys2Proof/Machine/Reads.lean ====
section
/-! DEFINITION. Reads that end: of DRAM with its ECC and the repairs from the peer (R546, R547), and of host memory for
an entry that waits (R567, R587). -/
namespace Sys2Proof.Machine

/-! ### Failed DRAM reads (R335, R547) -/

/-- The island whose pours or descriptor were being read completes with status ECC; its station, if it has one, comes to
rest without an island, its gate closed (R114). -/
def eccIsland (d : Dev) (key : Nat) : Dev :=
  match d.heats.running with
  | none => d
  | some x =>
    if 4 ≤ (x.island key).state then d
    else
      match (List.range 32).find? fun s => (stationOf d s).island == some key with
      | some s => finishMotion (leaveIsland (islandDone d x key 7 stEcc (some s)) s) s
      | none => islandDone d x key 7 stEcc none

/-- The island of the running heat whose descriptor, patch pour or pour the burst at `addr` holds (R91). -/
def islandAt (d : Dev) (addr : Nat) : Option Nat :=
  match d.heats.running with
  | none => none
  | some x =>
    let o := addr % slotBytes
    if addr / slotBytes ≠ x.heat.slot then none
    else
      -- two 32-byte records stand in a burst
      let pour := if o < slotPours then (o - slotPatchPours) / 32 else (o - slotPours) / 32
      let covers (first n : Nat) : Bool := decide (first ≤ pour + 1 ∧ pour < first + n)
      if o < slotPatches then (if o / 64 < x.heat.islands.length then some (o / 64) else none)
      else if o < slotPatchPours then some (65536 + (o - slotPatches) / 64)
      else if o < slotPours then
        ((List.range x.patches.length).find? fun i =>
          covers (((x.patches.take i).map fun p => p.2.length).sum) (((x.patches[i]?).map fun p => p.2.length).getD 0)).map (65536 + ·)
      else if o < slotLines then
        (List.range x.heat.islands.length).find? fun i =>
          decide ((x.island i).state < 4) && covers (islFirst (x.descriptor i)) (islCount (x.descriptor i))
      else none

def eccPour (d : Dev) (addr : Nat) : Dev := match islandAt d addr with | some key => eccIsland d key | none => d

/-- The line of the firing pass that the burst holds takes its slot and is never present (R360, R362). -/
def eccLine (d : Dev) (addr : Nat) : Dev :=
  match d.heats.running, d.lhd.firing with
  | some x, some f =>
    let o := addr % slotBytes
    let k := (o - slotLines) / 8192 % 8192
    if addr / slotBytes = x.heat.slot ∧ slotLines ≤ o ∧ (o - slotLines) / 8192 / 8192 = psIndex f.header then
      { d with lhd := { d.lhd with slots := d.lhd.slots.set (same none) (k % 16) (some (k, 2 ^ 64)) } }
    else d
  | _, _ => d

/-- A read of several bursts has come to its end: its client goes on with the bytes, or as its chapter says of a failure (R547). -/
def transferDone (d : Dev) (x : Transfer) : Dev :=
  let data := if x.failed then none else some x.bytes
  match x.use with
  | .aperture => d.send (match data with | some bs => .bytes bs | none => .poisoned x.len)
  | .ingot r =>
    match jobOf d r with
    | some j => if j.input = some x.id then ingotInput d r { j with input := none } data else d
    | none => d
  | .archive c number record => archiveStaged d c number record data
  | .trace c samples => traceDone d c samples data

/-- One burst of a transfer has come, or failed. -/
def transferPart (d : Dev) (id addr : Nat) (data : Option (BitVec 512)) : Dev :=
  match d.dram.transfers.find? fun x => x.id == id with
  | none => d
  | some x =>
    let y := { x with
      left := x.left - 1, failed := x.failed || data.isNone
      got := match data with | some v => (addr / 64, v) :: x.got | none => x.got }
    let others := d.dram.transfers.filter fun z => z.id != id
    if y.left = 0 then transferDone { d with dram := { d.dram with transfers := others } } y
    else { d with dram := { d.dram with transfers := y :: others } }

/-- The consequence of an uncorrectable read that no peer repairs (R547): the second column of its table. -/
def failRead (d : Dev) (q : DramReq) : Dev :=
  match q.client with
  | .scrub _ => scrubOn d
  | .transfer id => transferPart d id q.addr none
  | .outside =>
    let d1 := d.send (.dram q.port q.addr 0 true)
    if q.port = 0 then eccLine d1 q.addr else if q.port = 1 ∨ q.port = 3 then eccPour d1 q.addr else d1
  | _ => d

/-- A read comes to its client. -/
def deliverRead (d : Dev) (q : DramReq) : Dev :=
  match q.client with
  | .scrub _ => scrubOn d
  | .transfer id => transferPart d id q.addr (some q.data)
  | .outside => d.send (.dram q.port q.addr q.data false)
  | _ => d

/-- A read completes with what it counts of its latency (R541). -/
def completeRead (d : Dev) (q : DramReq) : Dev := deliverRead (latencyDone d q) q

/-- The oldest read in flight of subchannel `sc` completes; `ecc` 0 clean, 1 corrected, else uncorrectable. A read of the patrol
scrub brings what its command said. -/
def readComplete (d : Dev) (sc ecc0 : Nat) : Dev :=
  match d.dram.inflight.find? (inSub d sc) with
  | none => d
  | some q =>
    let ecc := match q.client with | .scrub e => e | _ => ecc0
    let d1 := { d with dram := { d.dram with inflight := d.dram.inflight.erase q } }
    if ecc = 0 then completeRead d1 q
    else if ecc = 1 then completeRead (eccCorrected d1 q) q
    else
      let d2 := eccUncorrectable d1 q
      if peerRepairs d2 then { d2 with dram := { d2.dram with repairs := d2.dram.repairs ++ [q] } }
      else failRead (latencyDone d2 q) q

/-- MEM_ECC_ADDR shows that its error was repaired. -/
def markRepaired (d : Dev) (q : DramReq) : Dev :=
  let shown := d.rfld pageMem 0x068 0 32 + d.rfld pageMem 0x06C 0 3 <<< 32
  if shown = q.addr % 2 ^ 35 then d.setFld pageMem 0x06C 3 1 1 else d

/-- The peer's burst for the oldest repair is written back and read again; `ok`: the second read is clean. -/
def peerRepair (d : Dev) (data : BitVec 512) (ok : Bool) : Dev :=
  match d.dram.repairs with
  | [] => d
  | q :: rest =>
    let d1 := { d with dram := { d.dram with repairs := rest } }
    if peerRepairs d1 then
      let q := { q with data := data }
      let d2 := setBurst d1 (q.addr / 64) data
      if ok then raise (markRepaired (completeRead d2 q) q) pageMem 2 clsMemory sevWarning 0x0B03 (eccPay q)
      else failRead (latencyDone (eccUncorrectable d2 q) q) q
    else failRead (latencyDone d1 q) q

/-! ### Host reads (R567) -/

/-- The entry of a command that waits on a ring, and the address that its read is for. -/
def parkedRead : Instr → Nat
  | .encode _ _ e _ | .decode _ _ e _ | .resume _ _ e _ => byteField e 20 4
  | .islands _ _ e _ | .pours _ _ e _ | .recoat _ _ e _ | .lines _ _ e _ => byteField e 8 4
  | .plate _ _ e _ | .power _ _ e _ | .blackbody _ _ e _ | .trim _ _ e _ | .drift _ _ e _ => calAddr e
  | .load _ _ e _ => loadAddr e
  | _ => 0

/-- What waits on ring `r` goes on with what its read brought. -/
def resumeParked (d : Dev) (r : Nat) (i : Instr) (rd : HostRead) : Dev :=
  match i with
  | .islands _ k e _ => submissionCommand d k.val e rd (.islands 0 k e .waiting)
  | .pours _ k e _ => submissionCommand d k.val e rd (.pours 0 k e .waiting)
  | .recoat _ k e _ => submissionCommand d k.val e rd (.recoat 0 k e .waiting)
  | .lines _ k e _ => linesCommand d k.val e rd (.lines 0 k e .waiting)
  | .encode _ k e _ => jobEntry d k.val e rd (.encode 0 k e .waiting)
  | .decode _ k e _ => jobEntry d k.val e rd (.decode 0 k e .waiting)
  | .resume _ k e _ => jobEntry d k.val e rd (.resume 0 k e .waiting)
  | .ingotEncode _ k _ => ingotStep d k.val false rd (.ingotEncode 0 k .waiting)
  | .ingotDecode _ k _ => ingotStep d k.val true rd (.ingotDecode 0 k .waiting)
  | .plate _ k e _ => calEntry d k.val e rd (.plate 0 k e .waiting)
  | .power _ k e _ => calEntry d k.val e rd (.power 0 k e .waiting)
  | .blackbody _ k e _ => calEntry d k.val e rd (.blackbody 0 k e .waiting)
  | .trim _ k e _ => calEntry d k.val e rd (.trim 0 k e .waiting)
  | .drift _ k e _ => calEntry d k.val e rd (.drift 0 k e .waiting)
  | .load _ k e _ => loadEntry d k.val e rd (.load 0 k e .waiting)
  | _ => setRing d r { ringOf d r with parked := some i }

/-- The read on which an entry of ring `r` waits has ended: the entry is taken with what the read brought. The holder that
lost the ensign meanwhile does not act on an entry of a shared ring: the new holder reads it again (R495, R572). -/
def hostReadDone (d : Dev) (r : Nat) (rd : HostRead) : Dev :=
  if rd = .waiting then d
  else
    match (ringOf d r).parked with
    | none => if r = 12 ∨ r = 13 then descriptorRead d (r - 12) rd else d
    | some i =>
      if sharedRing r && !d.holds then
        let d1 := unpark d r
        if rd = .failed ∧ (ringOf d r).begun = true then dmaFault d1 r (parkedRead i) else d1
      else
        let d1 := resumeParked (setRing d r { ringOf d r with parked := none }) r i rd
        if (ringOf d1 r).parked.isNone then unpark d1 r else d1

/-! ### Meanings -/

/-- R546. -/
def execDramReadComplete (t : Nat) (sc : Fin 2) (ecc : BitVec 2) (s : State) : Host.Outcome State Fault Refusal :=
  onDev s fun d => readComplete (acceptHeld (d.arrive t)) sc.val ecc.toNat
/-- R547. -/
def execEccPeerRepair (t : Nat) (data : BitVec 512) (ok : Bool) (s : State) : Host.Outcome State Fault Refusal :=
  onDev s fun d => peerRepair (d.arrive t) data ok
/-- R567. -/
def execHostReadCompletion (t : Nat) (ring : Fin 64) (rd : HostRead) (s : State) : Host.Outcome State Fault Refusal :=
  onDev s fun d => hostReadDone (d.arrive t) ring.val rd
/-- R587. -/
def execLoad (t : Nat) (r : Fin 2) (e : Entry) (rd : HostRead) (s : State) : Host.Outcome State Fault Refusal :=
  onDev s fun d => loadEntry (d.arrive t) r.val e rd (.load 0 r e rd)

end Sys2Proof.Machine
end

