-- ==== Sys2Proof/Machine/Dispatch.lean ====
section
/-! DEFINITION. The dispatcher: one arm per command, each a direct call of its meaning. -/
namespace Sys2Proof.Machine

/-- The effect of a command on everything but the queue. -/
def exec (i : Instr) (s : State) : Host.Outcome State Fault Refusal :=
  match i with
  | .powerOnReset strapB sealOk testEn => Sys2Proof.Machine.execPowerOnReset strapB sealOk testEn s
  | .bootRomVerify sfdpOk => Sys2Proof.Machine.execBootRomVerify sfdpOk s
  | .bootReady => Sys2Proof.Machine.execBootReady s
  | .resetNSample low => Sys2Proof.Machine.execResetNSample low s
  | .devResetWarm t value => Sys2Proof.Machine.execDevResetWarm t value s
  | .warmReset => Sys2Proof.Machine.execWarmReset s
  | .rootPllLockLoss => Sys2Proof.Machine.execRootPllLockLoss s
  | .registerWrite t addr bytes data => Sys2Proof.Machine.execRegisterWrite t addr bytes data s
  | .lowWordRead t request => Sys2Proof.Machine.execLowWordRead t request s
  | .commitWrite t page value => Sys2Proof.Machine.execCommitWrite t page value s
  | .commitApply page group => Sys2Proof.Machine.execCommitApply page group s
  | .liveWriteApply => Sys2Proof.Machine.execLiveWriteApply s
  | .devCommitHold t value => Sys2Proof.Machine.execDevCommitHold t value s
  | .bar2TableWrite t addr data => Sys2Proof.Machine.execBar2TableWrite t addr data s
  | .heatOpen t r e => Sys2Proof.Machine.execHeatOpen t r e s
  | .islands t r e rd => Sys2Proof.Machine.execIslands t r e rd s
  | .pours t r e rd => Sys2Proof.Machine.execPours t r e rd s
  | .recoat t r e rd => Sys2Proof.Machine.execRecoat t r e rd s
  | .pass t r e => Sys2Proof.Machine.execPass t r e s
  | .heatClose t r e => Sys2Proof.Machine.execHeatClose t r e s
  | .standbyHeatConfirm t r => Sys2Proof.Machine.execStandbyHeatConfirm t r s
  | .heatCancel t r e => Sys2Proof.Machine.execHeatCancel t r e s
  | .heatRingResume t r => Sys2Proof.Machine.execHeatRingResume t r s
  | .lines t r e rd => Sys2Proof.Machine.execLines t r e rd s
  | .heatStart => Sys2Proof.Machine.execHeatStart s
  | .heatMoveStart => Sys2Proof.Machine.execHeatMoveStart s
  | .stepperMoveEnd t axis => Sys2Proof.Machine.execStepperMoveEnd t axis s
  | .passTest => Sys2Proof.Machine.execPassTest s
  | .passEnd t => Sys2Proof.Machine.execPassEnd t s
  | .heatBoundary => Sys2Proof.Machine.execHeatBoundary s
  | .cycleStart supplies head => Sys2Proof.Machine.execCycleStart supplies head s
  | .uplinkDeadline => Sys2Proof.Machine.execUplinkDeadline s
  | .commandFrameSend => Sys2Proof.Machine.execCommandFrameSend s
  | .watchdogCheck framesSent sramError => Sys2Proof.Machine.execWatchdogCheck framesSent sramError s
  | .peerPinSample health ensign => Sys2Proof.Machine.execPeerPinSample health ensign s
  | .dispatchStalled => Sys2Proof.Machine.execDispatchStalled s
  | .holdResume st => Sys2Proof.Machine.execHoldResume st s
  | .loopStale st => Sys2Proof.Machine.execLoopStale st s
  | .schRunAbandon => Sys2Proof.Machine.execSchRunAbandon s
  | .pourPrefetch st => Sys2Proof.Machine.execPourPrefetch st s
  | .srvTraceArm mask => Sys2Proof.Machine.execSrvTraceArm mask s
  | .srvTraceFire mask => Sys2Proof.Machine.execSrvTraceFire mask s
  | .stationUplinkFrame t st hdr payload chk => Sys2Proof.Machine.execStationUplinkFrame t st hdr payload chk s
  | .lineHeadUplinkFrame t m hdr payload chk => Sys2Proof.Machine.execLineHeadUplinkFrame t m hdr payload chk s
  | .localChannelSample t ch smp => Sys2Proof.Machine.execLocalChannelSample t ch smp s
  | .standstillTimeout ch => Sys2Proof.Machine.execStandstillTimeout ch s
  | .emuEmission t e => Sys2Proof.Machine.execEmuEmission t e s
  | .cameraBlock t st hdr data broken => Sys2Proof.Machine.execCameraBlock t st hdr data broken s
  | .pipelineLineStart p => Sys2Proof.Machine.execPipelineLineStart p s
  | .coaxialFrameClose c => Sys2Proof.Machine.execCoaxialFrameClose c s
  | .csi2FrameStart t p vc frameNo corrected => Sys2Proof.Machine.execCsi2FrameStart t p vc frameNo corrected s
  | .csi2Line t p vc dt pixels corrected => Sys2Proof.Machine.execCsi2Line t p vc dt pixels corrected s
  | .csi2FrameEnd t p vc frameNo corrected => Sys2Proof.Machine.execCsi2FrameEnd t p vc frameNo corrected s
  | .csi2PacketError t p kind header => Sys2Proof.Machine.execCsi2PacketError t p kind header s
  | .ctxRunTest c on => Sys2Proof.Machine.execCtxRunTest c on s
  | .ctxRunRecover c => Sys2Proof.Machine.execCtxRunRecover c s
  | .lineFetch => Sys2Proof.Machine.execLineFetch s
  | .lineStrobe => Sys2Proof.Machine.execLineStrobe s
  | .accumulatorClose m => Sys2Proof.Machine.execAccumulatorClose m s
  | .emitterTestStart => Sys2Proof.Machine.execEmitterTestStart s
  | .emitterTestDone => Sys2Proof.Machine.execEmitterTestDone s
  | .stpMovePosition mask => Sys2Proof.Machine.execStpMovePosition mask s
  | .stpMoveVelocity mask => Sys2Proof.Machine.execStpMoveVelocity mask s
  | .stpMoveStop mask => Sys2Proof.Machine.execStpMoveStop mask s
  | .stepIssue t axis => Sys2Proof.Machine.execStepIssue t axis s
  | .saxCmpArm axis value => Sys2Proof.Machine.execSaxCmpArm axis value s
  | .chopperSenseTrip t axis coil => Sys2Proof.Machine.execChopperSenseTrip t axis coil s
  | .chopperBlankEnd t axis coil above => Sys2Proof.Machine.execChopperBlankEnd t axis coil above s
  | .chopperOffTimeEnd t axis coil => Sys2Proof.Machine.execChopperOffTimeEnd t axis coil s
  | .gateDeadTimeEnd t axis coil => Sys2Proof.Machine.execGateDeadTimeEnd t axis coil s
  | .holdCurrentTimeout axis => Sys2Proof.Machine.execHoldCurrentTimeout axis s
  | .ilkInputOpen t ix => Sys2Proof.Machine.execIlkInputOpen t ix s
  | .interlockLatch t => Sys2Proof.Machine.execInterlockLatch t s
  | .mldIlkRearm => Sys2Proof.Machine.execMldIlkRearm s
  | .mldLimitWrite t off value => Sys2Proof.Machine.execMldLimitWrite t off value s
  | .mldAuthRaise t => Sys2Proof.Machine.execMldAuthRaise t s
  | .mldAuthUnseal t => Sys2Proof.Machine.execMldAuthUnseal t s
  | .mldSeal t => Sys2Proof.Machine.execMldSeal t s
  | .mldKeyWrite t ix value => Sys2Proof.Machine.execMldKeyWrite t ix value s
  | .sealStoreWrite => Sys2Proof.Machine.execSealStoreWrite s
  | .ensignTake => Sys2Proof.Machine.execEnsignTake s
  | .parCmdJoin t => Sys2Proof.Machine.execParCmdJoin t s
  | .parCmdLeave t => Sys2Proof.Machine.execParCmdLeave t s
  | .parCmdSwap t => Sys2Proof.Machine.execParCmdSwap t s
  | .parCmdCancelSwap t => Sys2Proof.Machine.execParCmdCancelSwap t s
  | .yield cause => Sys2Proof.Machine.execYield cause s
  | .cycleRecord t rec skew => Sys2Proof.Machine.execCycleRecord t rec skew s
  | .writeRecord t cycle bar2 addr data => Sys2Proof.Machine.execWriteRecord t cycle bar2 addr data s
  | .sampleRecord t kind index tick data => Sys2Proof.Machine.execSampleRecord t kind index tick data s
  | .bulkRecord t entry addr bytes => Sys2Proof.Machine.execBulkRecord t entry addr bytes s
  | .mirrorRecord t addr data => Sys2Proof.Machine.execMirrorRecord t addr data s
  | .hello t rec sealSame revOk => Sys2Proof.Machine.execHello t rec sealSame revOk s
  | .joinCopyDone => Sys2Proof.Machine.execJoinCopyDone s
  | .joinLockstep => Sys2Proof.Machine.execJoinLockstep s
  | .autoRejoin => Sys2Proof.Machine.execAutoRejoin s
  | .laneStagePass t lane badTables => Sys2Proof.Machine.execLaneStagePass t lane badTables s
  | .laneIdRetry t lane => Sys2Proof.Machine.execLaneIdRetry t lane s
  | .laneStageTimeout t lane => Sys2Proof.Machine.execLaneStageTimeout t lane s
  | .laneLost t lane cause => Sys2Proof.Machine.execLaneLost t lane cause s
  | .marker t lane block => Sys2Proof.Machine.execMarker t lane block s
  | .cycleStartBlock t lane block roundTrip => Sys2Proof.Machine.execCycleStartBlock t lane block roundTrip s
  | .unknownBlock t lane block => Sys2Proof.Machine.execUnknownBlock t lane block s
  | .lanEyeStart t lane value => Sys2Proof.Machine.execLanEyeStart t lane value s
  | .eyeScanDone t lane table => Sys2Proof.Machine.execEyeScanDone t lane table s
  | .memTrainingDone t result => Sys2Proof.Machine.execMemTrainingDone t result s
  | .dramRequest t port addr write data => Sys2Proof.Machine.execDramRequest t port addr write data s
  | .dramAgePromotion t => Sys2Proof.Machine.execDramAgePromotion t s
  | .dramColumnCommand t sc => Sys2Proof.Machine.execDramColumnCommand t sc s
  | .dramReadComplete t sc ecc => Sys2Proof.Machine.execDramReadComplete t sc ecc s
  | .eccPeerRepair t data ok => Sys2Proof.Machine.execEccPeerRepair t data ok s
  | .refreshDebtTick t sc k => Sys2Proof.Machine.execRefreshDebtTick t sc k s
  | .mr4Read t sc k report => Sys2Proof.Machine.execMr4Read t sc k report s
  | .retrainWindow t sc k => Sys2Proof.Machine.execRetrainWindow t sc k s
  | .patrolScrubRead t ecc => Sys2Proof.Machine.execPatrolScrubRead t ecc s
  | .encode t r e rd => Sys2Proof.Machine.execEncode t r e rd s
  | .decode t r e rd => Sys2Proof.Machine.execDecode t r e rd s
  | .resume t r e rd => Sys2Proof.Machine.execResume t r e rd s
  | .ingotEncode t r rd => Sys2Proof.Machine.execIngotEncode t r rd s
  | .ingotDecode t r rd => Sys2Proof.Machine.execIngotDecode t r rd s
  | .icdJobAbandon t value => Sys2Proof.Machine.execIcdJobAbandon t value s
  | .rngProdDoorbell t ring value => Sys2Proof.Machine.execRngProdDoorbell t ring value s
  | .rngConsDoorbell t ring value => Sys2Proof.Machine.execRngConsDoorbell t ring value s
  | .rngAuxCons t ring value => Sys2Proof.Machine.execRngAuxCons t ring value s
  | .ringRecordWrite t ring => Sys2Proof.Machine.execRingRecordWrite t ring s
  | .coalesceWindowEnd => Sys2Proof.Machine.execCoalesceWindowEnd s
  | .msixModerationTimer t ring => Sys2Proof.Machine.execMsixModerationTimer t ring s
  | .hostReadCompletion t ring rd => Sys2Proof.Machine.execHostReadCompletion t ring rd s
  | .linkDegraded t speed width => Sys2Proof.Machine.execLinkDegraded t speed width s
  | .linkDown t => Sys2Proof.Machine.execLinkDown t s
  | .load t r e rd => Sys2Proof.Machine.execLoad t r e rd s
  | .identify t r e => Sys2Proof.Machine.execIdentify t r e s
  | .echo t r e => Sys2Proof.Machine.execEcho t r e s
  | .mailboxUnsupported t r e => Sys2Proof.Machine.execMailboxUnsupported t r e s
  | .plate t r e rd => Sys2Proof.Machine.execPlate t r e rd s
  | .power t r e rd => Sys2Proof.Machine.execPower t r e rd s
  | .blackbody t r e rd => Sys2Proof.Machine.execBlackbody t r e rd s
  | .trim t r e rd => Sys2Proof.Machine.execTrim t r e rd s
  | .drift t r e rd => Sys2Proof.Machine.execDrift t r e rd s
  | .calRunStart => Sys2Proof.Machine.execCalRunStart s
  | .driftRunStart st => Sys2Proof.Machine.execDriftRunStart st s
  | .calRunEnd => Sys2Proof.Machine.execCalRunEnd s
  | .calRunAbort => Sys2Proof.Machine.execCalRunAbort s
  | .calResultApply => Sys2Proof.Machine.execCalResultApply s
  | .pltInEdge t ix rising => Sys2Proof.Machine.execPltInEdge t ix rising s
  | .ppsEdge t => Sys2Proof.Machine.execPpsEdge t s
  | .ppsLoss t => Sys2Proof.Machine.execPpsLoss t s
  | .wholeSecondCrossing t => Sys2Proof.Machine.execWholeSecondCrossing t s
  | .ppsOutFall t => Sys2Proof.Machine.execPpsOutFall t s
  | .timSetSeconds t value => Sys2Proof.Machine.execTimSetSeconds t value s
  | .timTickLowRead t => Sys2Proof.Machine.execTimTickLowRead t s
  | .temperatureSample readings => Sys2Proof.Machine.execTemperatureSample readings s
  | .ringOscCount t k count => Sys2Proof.Machine.execRingOscCount t k count s
  | .recManualHoist t => Sys2Proof.Machine.execRecManualHoist t s
  | .recHistReset t => Sys2Proof.Machine.execRecHistReset t s
  | .recClear t => Sys2Proof.Machine.execRecClear t s
  | .recClearAndUnkey t => Sys2Proof.Machine.execRecClearAndUnkey t s
  | .recKeyWrite t ix value => Sys2Proof.Machine.execRecKeyWrite t ix value s
  | .histogramSample => Sys2Proof.Machine.execHistogramSample s
  | .devFlashDataRead t => Sys2Proof.Machine.execDevFlashDataRead t s
  | .devFlashDataWrite t value => Sys2Proof.Machine.execDevFlashDataWrite t value s
  | .devFlashErase t value => Sys2Proof.Machine.execDevFlashErase t value s
  | .flashOperationDone t ok => Sys2Proof.Machine.execFlashOperationDone t ok s
  | .poresetNLow => Sys2Proof.Machine.execPoresetNLow s
  | .pcieLinkUp t speed width => Sys2Proof.Machine.execPcieLinkUp t speed width s
  | .ilkInputClosed t ix => Sys2Proof.Machine.execIlkInputClosed t ix s
  | .csiSyncLost t p => Sys2Proof.Machine.execCsiSyncLost t p s
  | .csiPortReturn t p => Sys2Proof.Machine.execCsiPortReturn t p s
  | .pcieErrorLogged t correctable => Sys2Proof.Machine.execPcieErrorLogged t correctable s

end Sys2Proof.Machine
end

