-- ==== Sys2Proof/WellFormed.lean ====
section
/-! DEFINITION. Which commands can arrive at all: the offset of a command lies within its cycle (R22), and an operand
holds a value that its source can send. What the host may send and the device turns away (a reserved value of an
entry, an address without a register) is well formed: turning it away is its meaning. -/
namespace Sys2Proof

/-- A link speed, 1 to 5, and a width that PCIe links train to (R568). -/
def linkShape (speed : BitVec 3) (width : BitVec 4) : Bool :=
  decide (1 ≤ speed.toNat ∧ speed.toNat ≤ 5) && (width == 1 || width == 2 || width == 4 || width == 8)

/-- The offset of a command's arrival from the start of its cycle, where it is an operand. -/
def Instr.offset : Instr → Nat
  | .powerOnReset _ _ _ => 0
  | .bootRomVerify _ => 0
  | .bootReady => 0
  | .resetNSample _ => 0
  | .devResetWarm t _ => t
  | .warmReset => 0
  | .rootPllLockLoss => 0
  | .registerWrite t _ _ _ => t
  | .lowWordRead t _ => t
  | .commitWrite t _ _ => t
  | .commitApply _ _ => 0
  | .liveWriteApply => 0
  | .devCommitHold t _ => t
  | .bar2TableWrite t _ _ => t
  | .heatOpen t _ _ => t
  | .islands t _ _ _ => t
  | .pours t _ _ _ => t
  | .recoat t _ _ _ => t
  | .pass t _ _ => t
  | .heatClose t _ _ => t
  | .standbyHeatConfirm t _ => t
  | .heatCancel t _ _ => t
  | .heatRingResume t _ => t
  | .lines t _ _ _ => t
  | .heatStart => 0
  | .heatMoveStart => 0
  | .stepperMoveEnd t _ => t
  | .passTest => 0
  | .passEnd t => t
  | .heatBoundary => 0
  | .cycleStart _ _ => 0
  | .uplinkDeadline => 0
  | .commandFrameSend => 0
  | .watchdogCheck _ _ => 0
  | .peerPinSample _ _ => 0
  | .dispatchStalled => 0
  | .holdResume _ => 0
  | .loopStale _ => 0
  | .schRunAbandon => 0
  | .pourPrefetch _ => 0
  | .srvTraceArm _ => 0
  | .srvTraceFire _ => 0
  | .stationUplinkFrame t _ _ _ _ => t
  | .lineHeadUplinkFrame t _ _ _ _ => t
  | .localChannelSample t _ _ => t
  | .standstillTimeout _ => 0
  | .emuEmission t _ => t
  | .cameraBlock t _ _ _ _ => t
  | .pipelineLineStart _ => 0
  | .coaxialFrameClose _ => 0
  | .csi2FrameStart t _ _ _ _ => t
  | .csi2Line t _ _ _ _ _ => t
  | .csi2FrameEnd t _ _ _ _ => t
  | .csi2PacketError t _ _ _ => t
  | .ctxRunTest _ _ => 0
  | .ctxRunRecover _ => 0
  | .lineFetch => 0
  | .lineStrobe => 0
  | .accumulatorClose _ => 0
  | .emitterTestStart => 0
  | .emitterTestDone => 0
  | .stpMovePosition _ => 0
  | .stpMoveVelocity _ => 0
  | .stpMoveStop _ => 0
  | .stepIssue t _ => t
  | .saxCmpArm _ _ => 0
  | .chopperSenseTrip t _ _ => t
  | .chopperBlankEnd t _ _ _ => t
  | .chopperOffTimeEnd t _ _ => t
  | .gateDeadTimeEnd t _ _ => t
  | .holdCurrentTimeout _ => 0
  | .ilkInputOpen t _ => t
  | .interlockLatch t => t
  | .mldIlkRearm => 0
  | .mldLimitWrite t _ _ => t
  | .mldAuthRaise t => t
  | .mldAuthUnseal t => t
  | .mldSeal t => t
  | .mldKeyWrite t _ _ => t
  | .sealStoreWrite => 0
  | .ensignTake => 0
  | .parCmdJoin t => t
  | .parCmdLeave t => t
  | .parCmdSwap t => t
  | .parCmdCancelSwap t => t
  | .yield _ => 0
  | .cycleRecord t _ _ => t.tick
  | .writeRecord t _ _ _ _ => t.tick
  | .sampleRecord t _ _ _ _ => t.tick
  | .bulkRecord t _ _ _ => t.tick
  | .mirrorRecord t _ _ => t.tick
  | .hello t _ _ _ => t.tick
  | .joinCopyDone => 0
  | .joinLockstep => 0
  | .autoRejoin => 0
  | .laneStagePass t _ _ => t
  | .laneIdRetry t _ => t
  | .laneStageTimeout t _ => t
  | .laneLost t _ _ => t
  | .marker t _ _ => t
  | .cycleStartBlock t _ _ _ => t
  | .unknownBlock t _ _ => t
  | .lanEyeStart t _ _ => t
  | .eyeScanDone t _ _ => t
  | .memTrainingDone t _ => t
  | .dramRequest t _ _ _ _ => t
  | .dramAgePromotion t => t
  | .dramColumnCommand t _ => t
  | .dramReadComplete t _ _ => t
  | .eccPeerRepair t _ _ => t
  | .refreshDebtTick t _ _ => t
  | .mr4Read t _ _ _ => t
  | .retrainWindow t _ _ => t
  | .patrolScrubRead t _ => t
  | .encode t _ _ _ => t
  | .decode t _ _ _ => t
  | .resume t _ _ _ => t
  | .ingotEncode t _ _ => t
  | .ingotDecode t _ _ => t
  | .icdJobAbandon t _ => t
  | .rngProdDoorbell t _ _ => t
  | .rngConsDoorbell t _ _ => t
  | .rngAuxCons t _ _ => t
  | .ringRecordWrite t _ => t
  | .coalesceWindowEnd => 0
  | .msixModerationTimer t _ => t
  | .hostReadCompletion t _ _ => t
  | .linkDegraded t _ _ => t
  | .linkDown t => t
  | .load t _ _ _ => t
  | .identify t _ _ => t
  | .echo t _ _ => t
  | .mailboxUnsupported t _ _ => t
  | .plate t _ _ _ => t
  | .power t _ _ _ => t
  | .blackbody t _ _ _ => t
  | .trim t _ _ _ => t
  | .drift t _ _ _ => t
  | .calRunStart => 0
  | .driftRunStart _ => 0
  | .calRunEnd => 0
  | .calRunAbort => 0
  | .calResultApply => 0
  | .pltInEdge t _ _ => t
  | .ppsEdge t => t
  | .ppsLoss t => t
  | .wholeSecondCrossing t => t
  | .ppsOutFall t => t
  | .timSetSeconds t _ => t
  | .timTickLowRead t => t
  | .temperatureSample _ => 0
  | .ringOscCount t _ _ => t
  | .recManualHoist t => t
  | .recHistReset t => t
  | .recClear t => t
  | .recClearAndUnkey t => t
  | .recKeyWrite t _ _ => t
  | .histogramSample => 0
  | .devFlashDataRead t => t
  | .devFlashDataWrite t _ => t
  | .devFlashErase t _ => t
  | .flashOperationDone t _ => t
  | .poresetNLow => 0
  | .pcieLinkUp t _ _ => t
  | .ilkInputClosed t _ => t
  | .csiSyncLost t _ => t
  | .csiPortReturn t _ => t
  | .pcieErrorLogged t _ => t

/-- What the other operands must be. -/
def Instr.shape : Instr → Bool
  | .powerOnReset _ _ _ => true
  | .bootRomVerify _ => true
  | .bootReady => true
  | .resetNSample _ => true
  | .devResetWarm _ _ => true
  | .warmReset => true
  | .rootPllLockLoss => true
  | .registerWrite _ _ bytes data => decide (1 ≤ bytes ∧ bytes ≤ 8) && decide (data.toNat < 256 ^ bytes)
  | .lowWordRead _ r => decide (1 ≤ r.bytes ∧ r.addr.toNat + r.bytes ≤ (if r.bar2 then 2 ^ 28 else 2 ^ 22))
  | .commitWrite _ _ _ => true
  | .commitApply _ _ => true
  | .liveWriteApply => true
  | .devCommitHold _ _ => true
  | .bar2TableWrite _ _ _ => true
  | .heatOpen _ _ _ => true
  | .islands _ _ _ _ => true
  | .pours _ _ _ _ => true
  | .recoat _ _ _ _ => true
  | .pass _ _ _ => true
  | .heatClose _ _ _ => true
  | .standbyHeatConfirm _ _ => true
  | .heatCancel _ _ _ => true
  | .heatRingResume _ _ => true
  | .lines _ _ _ _ => true
  | .heatStart => true
  | .heatMoveStart => true
  | .stepperMoveEnd _ _ => true
  | .passTest => true
  | .passEnd _ => true
  | .heatBoundary => true
  | .cycleStart _ _ => true
  | .uplinkDeadline => true
  | .commandFrameSend => true
  | .watchdogCheck _ _ => true
  | .peerPinSample _ _ => true
  | .dispatchStalled => true
  | .holdResume _ => true
  | .loopStale _ => true
  | .schRunAbandon => true
  | .pourPrefetch _ => true
  | .srvTraceArm _ => true
  | .srvTraceFire _ => true
  | .stationUplinkFrame _ _ _ _ _ => true
  | .lineHeadUplinkFrame _ _ _ _ _ => true
  | .localChannelSample _ _ _ => true
  | .standstillTimeout _ => true
  | .emuEmission _ _ => true
  | .cameraBlock _ _ _ data _ => decide (data.length ≤ 125)
  | .pipelineLineStart _ => true
  | .coaxialFrameClose _ => true
  | .csi2FrameStart _ _ _ _ _ => true
  | .csi2Line _ _ _ _ _ _ => true
  | .csi2FrameEnd _ _ _ _ _ => true
  | .csi2PacketError _ _ kind _ => decide (kind.toNat ≤ 2)
  | .ctxRunTest _ _ => true
  | .ctxRunRecover _ => true
  | .lineFetch => true
  | .lineStrobe => true
  | .accumulatorClose _ => true
  | .emitterTestStart => true
  | .emitterTestDone => true
  | .stpMovePosition _ => true
  | .stpMoveVelocity _ => true
  | .stpMoveStop _ => true
  | .stepIssue _ _ => true
  | .saxCmpArm _ _ => true
  | .chopperSenseTrip _ _ _ => true
  | .chopperBlankEnd _ _ _ _ => true
  | .chopperOffTimeEnd _ _ _ => true
  | .gateDeadTimeEnd _ _ _ => true
  | .holdCurrentTimeout _ => true
  | .ilkInputOpen _ _ => true
  | .interlockLatch _ => true
  | .mldIlkRearm => true
  | .mldLimitWrite _ off _ => off.toNat % 4 == 0
  | .mldAuthRaise _ => true
  | .mldAuthUnseal _ => true
  | .mldSeal _ => true
  | .mldKeyWrite _ _ _ => true
  | .sealStoreWrite => true
  | .ensignTake => true
  | .parCmdJoin _ => true
  | .parCmdLeave _ => true
  | .parCmdSwap _ => true
  | .parCmdCancelSwap _ => true
  | .yield _ => true
  | .cycleRecord _ _ _ => true
  | .writeRecord _ _ bar2 addr _ => (bar2 || decide (addr.toNat < 4194304))
  | .sampleRecord _ kind index _ _ => decide (kind.toNat ≤ 3) && (kind != 0 || decide (index.toNat < 8)) && (kind != 1 || decide (index.toNat < 16))
  | .bulkRecord _ entry addr _ => (entry.isNone || decide (addr.toNat ≤ 9))
  | .mirrorRecord _ addr _ => decide (addr < 1073741824)
  | .hello _ _ _ _ => true
  | .joinCopyDone => true
  | .joinLockstep => true
  | .autoRejoin => true
  | .laneStagePass _ _ _ => true
  | .laneIdRetry _ _ => true
  | .laneStageTimeout _ _ => true
  | .laneLost _ _ _ => true
  | .marker _ _ block => decide (block.toNat < 2 ^ 57)
  | .cycleStartBlock _ _ block _ => decide (block.toNat < 2 ^ 56)
  | .unknownBlock _ _ _ => true
  | .lanEyeStart _ _ _ => true
  | .eyeScanDone _ _ table => table.length == 4032
  | .memTrainingDone _ _ => true
  | .dramRequest _ _ addr _ _ => addr.toNat % 64 == 0
  | .dramAgePromotion _ => true
  | .dramColumnCommand _ _ => true
  | .dramReadComplete _ _ ecc => decide (ecc.toNat ≤ 2)
  | .eccPeerRepair _ _ _ => true
  | .refreshDebtTick _ _ _ => true
  | .mr4Read _ _ _ _ => true
  | .retrainWindow _ _ _ => true
  | .patrolScrubRead _ ecc => decide (ecc.toNat ≤ 2)
  | .encode _ _ _ _ => true
  | .decode _ _ _ _ => true
  | .resume _ _ _ _ => true
  | .ingotEncode _ _ _ => true
  | .ingotDecode _ _ _ => true
  | .icdJobAbandon _ _ => true
  | .rngProdDoorbell _ _ _ => true
  | .rngConsDoorbell _ _ _ => true
  | .rngAuxCons _ _ _ => true
  | .ringRecordWrite _ _ => true
  | .coalesceWindowEnd => true
  | .msixModerationTimer _ _ => true
  | .hostReadCompletion _ _ _ => true
  | .linkDegraded _ speed width => linkShape speed width
  | .linkDown _ => true
  | .load _ _ _ _ => true
  | .identify _ _ _ => true
  | .echo _ _ _ => true
  | .mailboxUnsupported _ _ _ => true
  | .plate _ _ _ _ => true
  | .power _ _ _ _ => true
  | .blackbody _ _ _ _ => true
  | .trim _ _ _ _ => true
  | .drift _ _ _ _ => true
  | .calRunStart => true
  | .driftRunStart _ => true
  | .calRunEnd => true
  | .calRunAbort => true
  | .calResultApply => true
  | .pltInEdge _ _ _ => true
  | .ppsEdge _ => true
  | .ppsLoss _ => true
  | .wholeSecondCrossing _ => true
  | .ppsOutFall _ => true
  | .timSetSeconds _ value => decide (value.toNat < 2 ^ 48)
  | .timTickLowRead _ => true
  | .temperatureSample _ => true
  | .ringOscCount _ _ _ => true
  | .recManualHoist _ => true
  | .recHistReset _ => true
  | .recClear _ => true
  | .recClearAndUnkey _ => true
  | .recKeyWrite _ _ _ => true
  | .histogramSample => true
  | .devFlashDataRead _ => true
  | .devFlashDataWrite _ _ => true
  | .devFlashErase _ _ => true
  | .flashOperationDone _ _ => true
  | .poresetNLow => true
  | .pcieLinkUp _ speed width => linkShape speed width
  | .ilkInputClosed _ _ => true
  | .csiSyncLost _ _ => true
  | .csiPortReturn _ _ => true
  | .pcieErrorLogged _ _ => true

/-- A command that can arrive. -/
def Instr.wf (i : Instr) : Bool := decide (i.offset < 1250) && i.shape

end Sys2Proof
end

