-- ==== Sys2Proof/Safety.lean ====
section
/-! DEFINITION. The terms in which statements are made: what a step leaves as it was, the canonical form of what keeps
its value without power, and when the device emits nothing. -/
namespace Sys2Proof.Machine

/-! ### What reporting may touch -/

/-- The words of BAR0 that reporting writes by itself: the pennants of a page (R36), RNG_LOST of a ring (R585) and the
count of windows that found no room (R583). -/
def reportWord (a : Nat) : Bool :=
  a % 4096 == 0x010 || a == wordAddr pageEvq 0x064 || (decide (0x020 ≤ a / 4096 ∧ a / 4096 ≤ 0x05F) && a % 4096 == 0x074)

/-- The register files agree outside the words of reporting. -/
structure SameRegs (f g : RegFile) : Prop where
  read : ∀ a, reportWord a = false → g.read a = f.read a
  inUse : ∀ a, reportWord a = false → g.inUse a = f.inUse a
  pend : g.pend = f.pend
  live : g.live = f.live
  rdHold : g.rdHold = f.rdHold
  wrHold : g.wrHold = f.wrHold
  released : g.released = f.released
  everHeld : g.everHeld = f.everHeld
  boundaryHeld : g.boundaryHeld = f.boundaryHeld
  /-- A pennant that is set stays set. -/
  pens : ∀ p b, bit (f.read (wordAddr p 0x010)).toNat b = true → bit (g.read (wordAddr p 0x010)).toNat b = true

/-- `e` is `d` but for what reporting does: pennants and event counts, records that wait in the rings' queues, open
coalescing windows, what a standby keeps of its holder's records, and the recorder's log (R36 to R38, R495, R580 to R599). -/
structure SameButReports (d e : Dev) : Prop where
  tick : e.tick = d.tick
  regs : SameRegs d.regs e.regs
  ringFault : ∀ r, (ringOf e r).fault = (ringOf d r).fault
  ringParked : ∀ r, (ringOf e r).parked = (ringOf d r).parked
  ringUnsignalled : ∀ r, (ringOf e r).unsignalled = (ringOf d r).unsignalled
  ringOldest : ∀ r, (ringOf e r).oldest = (ringOf d r).oldest
  ringIdle : ∀ r, (ringOf e r).idle = (ringOf d r).idle
  ringBegun : ∀ r, (ringOf e r).begun = (ringOf d r).begun
  ringAt0 : ∀ r, (ringOf e r).at0 = (ringOf d r).at0
  ringStale : ∀ r, (ringOf e r).stale = (ringOf d r).stale
  hif : e.hif = { d.hif with windows := e.hif.windows, kept := e.hif.kept }
  hist : e.recorder.hist = d.recorder.hist
  sampledAt : e.recorder.sampledAt = d.recorder.sampledAt
  clearKey : e.recorder.key = d.recorder.key
  challenge : e.recorder.challenge = d.recorder.challenge
  response : e.recorder.response = d.recorder.response
  result : e.recorder.result = d.recorder.result
  clears : e.recorder.clears = d.recorder.clears
  tim : e.tim = d.tim
  mon : e.mon = d.mon
  boot : e.boot = d.boot
  par : e.par = d.par
  lanes : e.lanes = d.lanes
  stp : e.stp = d.stp
  mould : e.mould = d.mould
  dram : e.dram = d.dram
  coder : e.coder = d.coder
  heats : e.heats = d.heats
  sched : e.sched = d.sched
  ladle : e.ladle = d.ladle
  map : e.map = d.map
  stations : e.stations = d.stations
  fct : e.fct = d.fct
  cal : e.cal = d.cal
  channels : e.channels = d.channels
  emus : e.emus = d.emus
  axes : e.axes = d.axes
  traces : e.traces = d.traces
  ctxs : e.ctxs = d.ctxs
  img : e.img = d.img
  lhd : e.lhd = d.lhd
  mirror : e.mirror = d.mirror
  out : e.out = d.out
  free : e.free = d.free

/-- The command runs: it answers a next state, with the same queue, of which `P` holds. -/
def Answers (s : State) (i : Instr) (P : State → Prop) : Prop :=
  ∃ t, exec i s = .next t ∧ t.pending = s.pending ∧ P t

/-- The command runs, and but for reports it leaves exactly the device `d`, and the non-volatile stores alone. -/
def AnswersButReports (s : State) (i : Instr) (d : Dev) : Prop :=
  Answers s i fun t => t.nv = s.nv ∧ SameButReports d t.dev

/-- The device of `s` with its outputs cleared, as a command without an offset finds it. -/
def State.now (s : State) : Dev := { s.dev with out := [] }
/-- The device of `s` as a command finds it that arrives `t` ticks into the current cycle. -/
def State.at (s : State) (t : Nat) : Dev := s.now.arrive t

/-- Pennant `b` of page `p` is set (R36). -/
def Dev.pennant (d : Dev) (p b : Nat) : Bool := bit (d.regs.read (wordAddr p 0x010)).toNat b

/-- The device may read the entry `e` at the head of host-written ring `r` now, and its phase is right (R572, R574,
R576). -/
def entryReady (d : Dev) (r : Nat) (e : Entry) : Bool :=
  canRead d r && bits e.toNat 248 1 == phaseAt (entryPos d r)

/-- `d` with the entry at the head of ring `r` consumed; one begun before the ring was enabled anew leaves the new CONS
(R576). -/
def consumed (d : Dev) (r : Nat) : Dev :=
  let x := ringOf d r
  let d1 := setRing d r { x with begun := false, stale := false, idle := false }
  if x.stale then d1 else d1.setReg (pageRng r) 0x050 (posNext (ringLog2 d r) (entryPos d r))

/-- The heat that an accepted HEAT_OPEN `e` on ring `r` opens (R86, R91). -/
def openedBy (d : Dev) (r : Nat) (e : Entry) : Heat :=
  { number := BitVec.ofNat 32 (enHeat e), ring := r, report := bit (enFlags e) 1
    thickness := BitVec.ofNat 32 (byteField e 8 4), passCount := byteField e 12 1, slot := freeSlot d }

/-- The command runs and leaves exactly the device `d` and the stores. -/
def AnswersExactly (s : State) (i : Instr) (d : Dev) : Prop :=
  Answers s i fun t => t.nv = s.nv ∧ t.dev = d

/-- `d` with a record at the end of the queue of ring `r`, STATE in its byte 30 (R474, R585). -/
def queued (d : Dev) (r : Nat) (kind : RecKind) (data : Nat) : Dev :=
  setRing d r { ringOf d r with
    queue := (ringOf d r).queue ++ [⟨BitVec.ofNat 256 (data + atByte 30 d.stateByte), 0, false, kind⟩] }

/-- But for reports and for what goes on to a device that follows this one (R93, R478), the command leaves `d`. -/
def LeavesForwarding (s : State) (d : Dev) (t : State) : Prop :=
  t.nv = s.nv ∧ SameButReports { d with out := t.dev.out } t.dev ∧ (s.dev.forwards = false → t.dev.out = [])

/-- Ring `r` builds the heat `h`, and the device may read `e`, an entry of type `ty` of that heat with no reserved value
(R85 to R87). -/
def entryFor (d : Dev) (r ty : Nat) (e : Entry) (h : Heat) : Prop :=
  entryReady d r e = true ∧ (subOf d r).mode = 1 ∧ d.heats.opening = some h ∧ enType e = ty ∧
    enHeat e = h.number.toNat ∧ entryShape e = true

/-- The ENTRY_DONE of an entry of ring `r` accepted at tick `k` (R106, R107): its bytes but for STATE. -/
def acceptedRecord (d : Dev) (k r : Nat) (e : Entry) : Nat :=
  atByte 0 (k % 2 ^ 64) + atByte 8 1 + atByte 12 (enHeat e) + atByte 16 (bits (entryPos d r) 0 16)

/-- The checks of R57 let a write of `v` to the register at `off` of page `p` pass. -/
def writeAccepted (d : Dev) (p off v : Nat) : Bool :=
  match kindOf p with
  | none => false
  | some k =>
    match k.reg? off with
    | none => false
    | some r => (blockRefused d k p off r v).isNone

/-! ### Stores without power -/

/-- The canonical form of the flash and of the seal store's limits. -/
def NonVolatile.wf (x : NonVolatile) : Bool :=
  x.flash.wf (same 0xFF) && x.sealStore.limits.wf (fun o => resetWord (wordAddr pageMld o))

/-! ### Emission -/

/-- EMIT_PERMIT stands at 0: no station and no line-head row may emit (R463, R469). -/
def Dev.dark (d : Dev) : Bool := !permit d

end Sys2Proof.Machine
end

