-- ==== Sys2Proof/Certificates/Slice0/Obligations.lean ====
section
/-! DEFINITION. What is claimed of the model: one definition per statement. -/
section
open Sys2Proof Sys2Proof.Machine

/-! ### The block as a whole -/

/-- R629, R473, R460, R617, R14 with the model's own reset values (log entry 3): before PORESET_N rises the device is in
boot step 1, SEEKING, its interlock latched, its timebase in holdover, no heat staged or running, nothing queued, and its flash and
seal store are in canonical form. R653: EMIT_PERMIT, ENSIGN_OUT, HEALTH_OUT and the gates are not driven. -/
def Obligations.ResetState : Prop :=
  (State.reset.pending = [] ∧ State.reset.dev.boot.poreset = true ∧ State.reset.dev.boot.stage = 1 ∧
    State.reset.dev.boot.engine = false ∧ State.reset.dev.par.role = roleSeeking ∧
    State.reset.dev.mould.latched = true ∧ permit State.reset.dev = false ∧ State.reset.dev.tick = 0 ∧
    State.reset.dev.tim.holdover = true ∧ State.reset.dev.tim.secondsValid = false ∧
    State.reset.dev.heats.running = none ∧ State.reset.dev.heats.staged = [] ∧ State.reset.dev.stp.moves = []) ∧
  (State.reset.nv.wf = true) ∧
  (State.reset.dev.emitPermitPin = none ∧ State.reset.dev.ensignPin = none ∧ State.reset.dev.healthPin = none ∧
    ∀ x i, State.reset.dev.gatePin x i = none)

/-- The queue is first in, first out: a step is the meaning of its oldest command with the rest of the queue, and an
empty queue idles (log entry 1). No command ends the run, and none touches the commands that wait. -/
def Obligations.StepRunsFront : Prop :=
  ((∀ (s : State) (c : Instr) (rest : List Instr),
    step { s with pending := c :: rest } = exec c { s with pending := rest }) ∧
  ∀ s : State, s.pending = [] → step s = .next s) ∧
  (∀ (i : Instr) (s : State), Answers s i fun _ => True)

/-- The flash and the seal store keep their canonical form through every step. -/
def Obligations.StepKeepsStores : Prop :=
  ∀ s t : State, s.nv.wf = true → step s = .next t → t.nv.wf = true

/-- Only the flash commands, the loss of power, the seal store's own write and a reset that finds it due change what keeps its
value without power (R469, R641, R650). -/
def Obligations.StoresChangeOnlyBy : Prop :=
  ∀ (i : Instr) (s t : State), exec i s = .next t → t.nv ≠ s.nv →
    i = .sealStoreWrite ∨ i = .poresetNLow ∨ i = .warmReset ∨ i = .resetNSample true ∨ (∃ u v, i = .devFlashDataWrite u v) ∨ (∃ u v, i = .devFlashErase u v) ∨
      (∃ u ok, i = .flashOperationDone u ok) ∨ (∃ u a v, i = .registerWrite u a 4 v ∧ (a.toNat = 0x108 ∨ a.toNat = 0x10C))

/-! ### Start-up and reset (chapter 21) -/

/-- R629: PORESET_N rises. The device takes its side from the strap and everything else from reset, and stands in boot
step 2; the seal store gives the mould's seal and keys, or, unreadable, stops the boot with result 4 (R634). With TEST_EN
high it stays in step 1 (R644). The device with PORESET_N already high ignores the event.
Where the rules leave the reading open, the statement follows the model's (log entries 3 and 45).
Under conditions on the state and the operands alone, `powerOnReset` answers a next state, with its own effect. -/
def Obligations.PowerOnReset : Prop :=
  (∀ (s : State) (strapB sealOk : Bool), s.dev.boot.poreset = true →
    (Answers s (.powerOnReset strapB sealOk false) fun t =>
      t.nv = s.nv ∧ t.dev.boot.poreset = false ∧ t.dev.boot.stage = 2 ∧ t.dev.boot.result = (if sealOk then 0 else 4) ∧
      t.dev.boot.engine = false ∧ t.dev.par.sideB = strapB ∧ t.dev.par.role = roleSeeking ∧ t.dev.tick = 0 ∧
      t.dev.heats = {} ∧ t.dev.stp = {} ∧ t.dev.stations = [] ∧ t.dev.mould.latched = true ∧
      (sealOk = true → t.dev.mould.locked = s.nv.sealStore.sealed ∧ t.dev.mould.key = s.nv.sealStore.key ∧
        t.dev.recorder.key = s.nv.sealStore.clearKey ∧ t.dev.boot.sealLoaded = true)) ∧
    Answers s (.powerOnReset strapB sealOk true) fun t =>
      t.nv = s.nv ∧ t.dev.boot.poreset = false ∧ t.dev.boot.stage = 1 ∧ t.dev.boot.held = true ∧ t.dev.par.sideB = strapB) ∧
  ∀ (s : State) (strapB sealOk testEn : Bool), s.dev.boot.poreset = false →
    AnswersButReports s (.powerOnReset strapB sealOk testEn) s.now

/-- R627, R634: in boot step 2 the ROM checks the flash, the boot record and the images in that order; the first check that
fails stops the boot in step 3 with its result, and a loaded image starts step 4 and the cycle engine. R631: READY needs step 4 and a trained memory. Without the boot record's PAIR bit the device becomes ALONE; with it
the device stays in its role with PAR enabled.
Where the rules leave the reading open, the statement follows the model's (log entry 45).
Under conditions on the state and the operands alone, `bootRomVerify`, `bootReady` answer a next state each, with their own
effect. -/
def Obligations.BootSteps : Prop :=
  (∀ s : State, s.dev.boot.stage = 2 → s.dev.boot.result = 0 → s.dev.par.role ≠ roleHalted →
    (Answers s (.bootRomVerify false) fun t =>
      t.nv = s.nv ∧ SameButReports { s.now with boot := { s.dev.boot with stage := 3, result := 1 } } t.dev) ∧
    (recordOk s.nv = false → Answers s (.bootRomVerify true) fun t =>
      t.nv = s.nv ∧ SameButReports { s.now with boot := { s.dev.boot with stage := 3, result := 2 } } t.dev) ∧
    (recordOk s.nv = true → Answers s (.bootRomVerify true) fun t =>
      t.nv = s.nv ∧
      match bootSlot s.nv with
      | none => SameButReports { s.now with boot := { s.dev.boot with stage := 3, result := 3 } } t.dev
      | some slot =>
        t.dev.boot.stage = 4 ∧ t.dev.boot.engine = true ∧ t.dev.boot.slot = (slot == 1) ∧ t.dev.boot.result = 0 ∧
        t.dev.boot.fwVersion = word (flashField s.nv (slotBase slot) 4) ∧ t.dev.dram.training = true ∧
        ∀ q, q < 8 → (laneOf t.dev (48 + q)).stage = 1)) ∧
  (∀ s : State, s.dev.boot.stage = 4 → s.dev.boot.result = 0 → s.dev.dram.trained = true →
    s.dev.par.role ≠ roleHalted →
    Answers s .bootReady fun t =>
      t.nv = s.nv ∧ t.dev.boot = { s.dev.boot with stage := 5 } ∧ t.dev.enabled pagePar = s.dev.boot.pair ∧
      t.dev.par.role = (if s.dev.boot.pair then s.dev.par.role else roleAlone) ∧
      (s.dev.boot.pair = true ∨ (s.dev.heats.running = none ∧ ∀ r, r < 4 → (subOf s.dev r).mode ≠ 4) →
        t.dev.heats = s.dev.heats) ∧
      t.dev.mould = s.dev.mould ∧ t.dev.dram = s.dev.dram ∧ t.dev.lanes = s.dev.lanes) ∧
  (∀ s : State, s.dev.boot.stage ≠ 4 ∨ s.dev.boot.result ≠ 0 ∨ s.dev.dram.trained = false → AnswersButReports s .bootReady s.now)

/-- R635: a low RESET_N at tick 1,100 and an accepted write of DEV_RESET.WARM each request a warm reset, the write for the
next cycle where tick 1,100 has passed; the earlier request stands. R636: the warm reset that is due runs the boot again from step 2. It keeps the side, the recorder's counts of triggers
missed in a burst and of clears, its histograms, the link and the MSI-X table, and takes back the seal and the keys of a seal store that reads,
with what was accepted and not stored yet (R469); heats, stations, moves, lanes and commands in progress are gone. R644: a device
that TEST_EN holds takes no reset.
Where the rules leave the reading open, the statement follows the model's (log entries 45 and 46).
Under conditions on the state and the operands alone, `resetNSample`, `devResetWarm`, `warmReset` answer a next state each, with
their own effect. -/
def Obligations.WarmReset : Prop :=
  ((∀ s : State, 2 ≤ s.dev.boot.stage → s.dev.boot.held = false → s.dev.boot.engine = true → s.dev.boot.warm = none →
    AnswersButReports s (.resetNSample true)
      { s.at 1100 with boot := { s.dev.boot with warm := some (s.dev.cycle, 1) } } ∧
    AnswersButReports s (.resetNSample false) (s.at 1100)) ∧
  (∀ (s : State) (u : Nat) (v : Word), writeAccepted (s.at u) pageDev 0x100 v.toNat = true → s.dev.boot.warm = none →
    2 ≤ s.dev.boot.stage → s.dev.boot.held = false → v.getLsbD 0 = true →
    Answers s (.devResetWarm u v) fun t =>
      t.nv = s.nv ∧ t.dev.boot =
        { s.dev.boot with warm := some (if (s.at u).tick % 1250 < 1100 then s.dev.cycle else s.dev.cycle + 1, 2) } ∧
      t.dev.par = s.dev.par ∧ t.dev.heats = s.dev.heats ∧ t.dev.stp = s.dev.stp) ∧
  (∀ s : State, 2 ≤ s.dev.boot.stage → s.dev.boot.engine = true → s.dev.boot.warm.isSome = true →
    AnswersButReports s (.resetNSample true) (s.at 1100)) ∧
  ∀ (s : State) (u : Nat) (v : Word), s.dev.boot.warm.isSome = true →
    Answers s (.devResetWarm u v) fun t => t.nv = s.nv ∧ t.dev.boot = s.dev.boot) ∧
  (∀ s : State, s.dev.boot.stage < 2 ∨ s.dev.boot.held = true → s.dev.boot.engine = false →
    AnswersButReports s (.resetNSample true) s.now ∧
    (s.dev.boot.held = true → AnswersButReports s .warmReset s.now) ∧
    ∀ (u : Nat) (v : Word), Answers s (.devResetWarm u v) fun t => t.nv = s.nv ∧ t.dev.boot = s.dev.boot) ∧
  (∀ (s : State) (c cause : Nat), s.dev.boot.warm = some (c, cause) → c ≤ s.dev.cycle → s.dev.boot.held = false →
    Answers s .warmReset fun t =>
      t.nv = storedSeal s.nv (s.at 1125) ∧ t.dev.tick = (s.at 1125).tick ∧ t.dev.boot.stage = 2 ∧ t.dev.boot.cause = cause ∧
      t.dev.boot.engine = false ∧ t.dev.boot.warm = none ∧ t.dev.boot.wasHalted = (s.dev.par.role == roleHalted) ∧
      t.dev.par.role = roleSeeking ∧ t.dev.par.sideB = s.dev.par.sideB ∧ t.dev.heats = {} ∧ t.dev.stp = {} ∧
      t.dev.stations = [] ∧ t.dev.lanes = [] ∧ t.dev.mould.latched = true ∧ t.dev.recorder.hist = s.dev.recorder.hist ∧
      t.dev.recorder.clears = s.dev.recorder.clears ∧ t.dev.recorder.missedBurst = (s.at 1125).recorder.missedBurst ∧
      t.dev.hif.msix = s.dev.hif.msix ∧ t.dev.hif.linkUp = s.dev.hif.linkUp ∧ t.dev.hif.speed = s.dev.hif.speed ∧
      t.dev.hif.width = s.dev.hif.width ∧ (s.dev.boot.result ≠ 4 →
        t.dev.mould.locked = t.nv.sealStore.sealed ∧ t.dev.mould.key = t.nv.sealStore.key ∧
        t.dev.recorder.key = t.nv.sealStore.clearKey ∧ t.dev.boot.sealLoaded = true))

/-- R656, R650: loss of the root PLL halts the device with its steppers stopped and HEALTH_OUT at 0; when PORESET_N falls
everything volatile is lost, and the flash keeps what no operation was changing.
Where the rules leave the reading open, the statement follows the model's (log entry 45).
Under conditions on the state and the operands alone, `rootPllLockLoss`, `poresetNLow` answer a next state each, with their own
effect. -/
def Obligations.PowerLoss : Prop :=
  (∀ s : State, s.dev.boot.poreset = false → s.dev.par.role ≠ roleHalted →
    Answers s .rootPllLockLoss fun t =>
      t.nv = s.nv ∧ t.dev.par.role = roleHalted ∧ t.dev.boot.healthOut = false ∧ t.dev.stp.moves = [] ∧
      t.dev.stp.waiting = [] ∧ t.dev.heats = s.dev.heats ∧ t.dev.mould = s.dev.mould ∧ t.dev.dram = s.dev.dram) ∧
  (∀ s : State, s.nv.op = none →
    Answers s .poresetNLow fun t =>
      t.nv = s.nv ∧ SameButReports ({ free := s.dev.free } : Dev) t.dev) ∧
  ∀ (s : State) (op : FlashOp) (a : Nat), s.nv.op = some op → (a < op.span.1 ∨ op.span.1 + op.span.2 ≤ a) →
    Answers s .poresetNLow fun t =>
      t.nv.op = none ∧ flashByte t.nv a = flashByte s.nv a ∧ t.nv.sealStore = s.nv.sealStore ∧ t.dev.boot.poreset = true

/-! ### Flash (R640, R641) -/

/-- R640: a read of DEV_FLASH_DATA returns the four bytes at the address, lowest first, and advances the address by 4;
nothing else changes. R641: an accepted write of DEV_FLASH_DATA programs the word at the address and advances it; one of DEV_FLASH_CMD with
ERASE set erases the sector that holds the address. The operation is under way from then on and BUSY reads 1. While one is under
way a further one is refused and does not start.
Where the rules leave the reading open, the statement follows the model's (log entry 45).
Under conditions on the state and the operands alone, `devFlashDataRead`, `devFlashDataWrite`, `devFlashErase` answer a next
state each, with their own effect. -/
def Obligations.FlashCommands : Prop :=
  (∀ (s : State) (u : Nat), 2 ≤ s.dev.boot.stage → s.nv.op = none →
    AnswersButReports s (.devFlashDataRead u)
      (((s.at u).setFld pageDev 0x104 0 28 (flashAddr s.dev + 4)).send (.read (word (flashField s.nv (flashAddr s.dev) 4))))) ∧
  ((∀ (s : State) (u : Nat) (v : Word), writeAccepted (s.at u) pageDev 0x108 v.toNat = true → s.nv.op = none →
    Answers s (.devFlashDataWrite u v) fun t =>
      t.nv = { s.nv with op := some (.program (flashAddr s.dev) v) } ∧ t.dev.rfld pageDev 0x110 0 1 = 1 ∧
      flashAddr t.dev = (flashAddr s.dev + 4) % 2 ^ 28 ∧ t.dev.boot = s.dev.boot ∧ t.dev.mould = s.dev.mould) ∧
  (∀ (s : State) (u : Nat) (v : Word), writeAccepted (s.at u) pageDev 0x10C v.toNat = true → s.nv.op = none →
    v.getLsbD 0 = true →
    Answers s (.devFlashErase u v) fun t =>
      t.nv = { s.nv with op := some (.erase (flashAddr s.dev / 65536)) } ∧ t.dev.rfld pageDev 0x110 0 1 = 1 ∧
      flashAddr t.dev = flashAddr s.dev ∧ t.dev.boot = s.dev.boot ∧ t.dev.mould = s.dev.mould) ∧
  ∀ (s : State) (u : Nat) (v : Word), s.nv.op.isSome = true →
    (Answers s (.devFlashDataWrite u v) fun t => t.nv = s.nv ∧ t.dev.boot = s.dev.boot ∧ t.dev.rfld pageDev 0x024 31 1 = 1) ∧
    Answers s (.devFlashErase u v) fun t => t.nv = s.nv ∧ t.dev.boot = s.dev.boot ∧ t.dev.rfld pageDev 0x024 31 1 = 1)

/-- R641: the operation under way ends well: an erased sector reads 0xFF in every byte, a programmed word has the bits that
were 1 in both, and every other byte of the flash is as it was. BUSY returns to 0.
Where the rules leave the reading open, the statement follows the model's (log entry 45).
Under conditions on the state and the operands alone, `flashOperationDone` answers a next state, with its own effect. -/
def Obligations.FlashDone : Prop :=
  ∀ (s : State) (u : Nat) (op : FlashOp), s.nv.op = some op →
    Answers s (.flashOperationDone u true) fun t =>
      t.nv.op = none ∧ t.nv.sealStore = s.nv.sealStore ∧ t.dev.rfld pageDev 0x110 0 1 = 0 ∧
      (∀ a, flashByte t.nv a =
        match op with
        | .erase k => if 65536 * k ≤ a ∧ a < 65536 * k + 65536 then 0xFF else flashByte s.nv a
        | .program b v =>
          if b ≤ a ∧ a < b + 4 then flashByte s.nv a &&& BitVec.ofNat 8 (v.toNat >>> (8 * (a - b))) else flashByte s.nv a) ∧
      t.dev.boot = s.dev.boot ∧ t.dev.heats = s.dev.heats

/-! ### Mould (chapter 13) -/

/-- R460, R461: an input sampled open counts as open from its first open sample, one sampled closed as closed; when an input
in use has been open for FILTER ticks the interlock latches, EMIT_PERMIT falls to 0, and every partner lane that is UP gets a kill block
(unless the device is HALTED). Nothing else of the device changes. R462: REARM clears the latch while no input in use reads open, and only then.
Where the rules leave the reading open, the statement follows the model's (log entry 38).
Under conditions on the state and the operands alone, `ilkInputOpen`, `interlockLatch`, `mldIlkRearm`, `ilkInputClosed` answer a
next state each, with their own effect. -/
def Obligations.Interlock : Prop :=
  ((∀ (s : State) (u : Nat) (i : Fin 4),
    AnswersButReports s (.ilkInputOpen u i) { s.at u with mould := { s.dev.mould with
      openSince := s.dev.mould.openSince.set (same none) i.val
        (some ((s.dev.mould.openSince.get (same none) i.val).getD (s.at u).tick)) } } ∧
    AnswersButReports s (.ilkInputClosed u i) { s.at u with mould := { s.dev.mould with
      openSince := s.dev.mould.openSince.set (same none) i.val none } }) ∧
  ∀ (s : State) (u : Nat), s.dev.mould.latched = false →
    ((∃ i t0, i < 4 ∧ bit (ilkMask s.dev) i = true ∧ s.dev.mould.openSince.get (same none) i = some t0 ∧
      t0 + ilkFilter s.dev ≤ (s.at u).tick) →
      Answers s (.interlockLatch u) fun t =>
        t.nv = s.nv ∧ permit t.dev = false ∧
        (s.dev.par.role ≠ roleHalted → t.dev.out = (List.range 48).filterMap fun l =>
          if (laneOf s.dev l).stage = 5 then some (.block l 0xC3 ((s.at u).cycle % 65536)) else none) ∧
        SameButReports { s.at u with
          mould := { s.dev.mould with latched := true, latchedAt := (s.at u).cycle + 1 }, out := t.dev.out } t.dev) ∧
    ((∀ i t0, i < 4 → bit (ilkMask s.dev) i = true → s.dev.mould.openSince.get (same none) i = some t0 →
      (s.at u).tick < t0 + ilkFilter s.dev) →
      AnswersButReports s (.interlockLatch u) (s.at u))) ∧
  (∀ s : State, s.dev.mould.latched = true →
    ((∀ i, i < 4 → bit (ilkMask s.dev) i = true → s.dev.mould.openSince.get (same none) i = none) →
      AnswersButReports s .mldIlkRearm { s.now with mould := { s.dev.mould with latched := false } }) ∧
    ((∃ i t0, i < 4 ∧ bit (ilkMask s.dev) i = true ∧ s.dev.mould.openSince.get (same none) i = some t0) →
      AnswersButReports s .mldIlkRearm s.now))

/-! ### Registers (chapter 02) -/

/-- R481: while the holder finds no free record slot in the cycle, its host link keeps a write to a mirrored page or window, and
the command changes nothing else. -/
def Sys2Proof.Machine.keptForSlot (s : State) (u : Nat) (i : Instr) (w : HeldWrite) : Prop :=
  (s.at u).writeHeld = true → AnswersButReports s i (holdWrite (s.at u) w)

/-- A 32-bit write of `v` to the word at `off` of page `p`. -/
def Sys2Proof.Machine.write32 (u p off : Nat) (v : Word) : Instr :=
  .registerWrite u (BitVec.ofNat 22 (wordAddr p off)) 4 (v.setWidth 64)

/-- R33, R42, R46, R53: a 32-bit write that passes the checks of R57, to a register of an unmirrored page whose writes set
nothing else off (EVQ, MON, LNK, and RNG but for its doorbells): its writable bits read as written at once; of what the device uses only the Live
fields change, Commit fields wait for COMMIT; every other word stands.
The header of a page: R34, R39, CTL of EVQ, MON or LNK takes ENABLE and EXPERT at once; R36, a 1 written to PEN clears a pennant unless its cause
occurs in the same tick, and a 0 leaves it; R37, R38, R40, PEN_EVT and PEN_HOIST read as written, and on unmirrored pages are in
use at once; R55, a 1 in VALID clears ERRW, a 0 leaves it. R481: a write to a mirrored page without a free record slot waits.
Under conditions on the state and the operands alone, `registerWrite` answers a next state, with its own effect. -/
def Obligations.RegisterWrite : Prop :=
  (∀ (s : State) (u : Nat) (a : BitVec 22) (n : Nat) (v : Long), isMirrored (a.toNat / 4096) = true →
    keptForSlot s u (.registerWrite u a n v) ⟨false, a.toNat, n, v.toNat⟩) ∧
  (∀ (s : State) (u p : Nat) (v : Word) (k : PageKind), kindOf p = some k → k = .evq ∨ k = .mon ∨ k = .lnk →
    headerRefused (s.at u) k p 0x008 v.toNat = none →
    Answers s (write32 u p 0x008 v) fun t =>
      t.nv = s.nv ∧ t.dev.enabled p = v.getLsbD 0 ∧ t.dev.flag p 0x008 1 = v.getLsbD 1 ∧
      t.dev.rfld p 0x008 0 2 = bits v.toNat 0 2 ∧
      (∀ a, a / 4096 ≠ p → reportWord a = false →
        t.dev.regs.read a = s.dev.regs.read a ∧ t.dev.regs.inUse a = s.dev.regs.inUse a) ∧
      SameButReports { s.at u with regs := t.dev.regs } t.dev) ∧
  (∀ (s : State) (u p off : Nat) (v : Word) (k : PageKind), kindOf p = some k →
    headerRefused (s.at u) k p off v.toNat = none →
    (k.mirrored = true → (s.at u).writeHeld = false ∧ s.dev.forwards = false) →
    (off = 0x010 → Answers s (write32 u p off v) fun t =>
      t.nv = s.nv ∧
      (∀ b, b < 32 → t.dev.pennant p b = ((s.at u).pennant p b &&
        (!v.getLsbD b || decide ((s.at u).regs.penAt.get (same 0) (32 * p + b) = (s.at u).tick + 1)))) ∧
      (∀ a, a ≠ wordAddr p 0x010 → t.dev.regs.read a = (s.at u).regs.read a ∧ t.dev.regs.inUse a = (s.at u).regs.inUse a) ∧
      { t.dev with regs := s.dev.regs } = { s.at u with regs := s.dev.regs }) ∧
    (off = 0x014 ∨ off = 0x018 →
      (k.mirrored = false → AnswersButReports s (write32 u p off v) ((s.at u).setReg p off v.toNat)) ∧
      (k.mirrored = true → Answers s (write32 u p off v) fun t =>
        t.nv = s.nv ∧ t.dev.rfld p off 0 32 = v.toNat ∧
        t.dev.regs.live = s.dev.regs.live ++ [⟨wordAddr p off, v.setWidth 64, false, s.dev.cycle⟩] ∧
        (∀ a, reportWord a = false → t.dev.regs.inUse a = s.dev.regs.inUse a) ∧
        SameButReports { s.at u with regs := t.dev.regs } t.dev)) ∧
    (off = 0x024 → AnswersButReports s (write32 u p off v) (if v.getLsbD 31 then (s.at u).setReg p 0x024 0 else s.at u))) ∧
  ∀ (s : State) (u p off : Nat) (v : Word) (k : PageKind) (r : Reg), kindOf p = some k →
    (k = .evq ∨ k = .mon ∨ k = .lnk ∨ (k = .rng ∧ off ≠ 0x04C ∧ off ≠ 0x050 ∧ off ≠ 0x06C)) →
    0x040 ≤ off → off < 0x800 → off % 4 = 0 → k.reg? off = some r → r.wide = false →
    blockRefused (s.at u) k p off r v.toNat = none → reportWord (wordAddr p off) = false →
    Answers s (.registerWrite u (BitVec.ofNat 22 (wordAddr p off)) 4 (v.setWidth 64)) fun t =>
      t.nv = s.nv ∧
      t.dev.regs.read (wordAddr p off) =
        word (mergeBits (s.dev.regs.read (wordAddr p off)).toNat v.toNat (storeMask r % 2 ^ 32)) ∧
      t.dev.regs.inUse (wordAddr p off) =
        (if hasLive r then word (mergeBits (s.dev.regs.inUse (wordAddr p off)).toNat v.toNat (liveMask r % 2 ^ 32))
         else s.dev.regs.inUse (wordAddr p off)) ∧
      (∀ a, a ≠ wordAddr p off → reportWord a = false →
        t.dev.regs.read a = s.dev.regs.read a ∧ t.dev.regs.inUse a = s.dev.regs.inUse a) ∧
      SameButReports { s.at u with regs := t.dev.regs } t.dev

/-- R55, R56, R57: a 32-bit write of a register that a check refuses changes ERRW of the page and what reporting changes, and
nothing else; ERRW takes the offset, the page, the reason, VALID, and MORE where it still held an earlier refusal. A write of a page that no block
has is recorded on DEV with RANGE. A write that waits for a record slot (R481) is checked when its slot comes. The mould, the recorder's keys and the doorbells have further checks of their own. -/
def Obligations.RegisterWriteRefused : Prop :=
  (∀ (s : State) (u p off : Nat) (v : Word) (k : PageKind) (r : Reg) (c : Nat), kindOf p = some k →
    k ≠ .mld → k ≠ .recd → k ≠ .rng → 0x040 ≤ off → off < 0x800 → off % 4 = 0 → ¬(k = .dev ∧ (off = 0x108 ∨ off = 0x10C)) →
    k.reg? off = some r → r.wide = false → blockRefused (s.at u) k p off r v.toNat = some c →
    (k.mirrored = true → (s.at u).writeHeld = false) →
    AnswersButReports s (.registerWrite u (BitVec.ofNat 22 (wordAddr p off)) 4 (v.setWidth 64))
      ((s.at u).setReg p 0x024 (off + p <<< 12 + s.dev.rfld p 0x024 31 1 <<< 22 + c <<< 24 + 1 <<< 31))) ∧
  ∀ (s : State) (u : Nat) (a : BitVec 22) (v : Long), kindOf (a.toNat / 4096) = none →
    AnswersButReports s (.registerWrite u a 4 v)
      ((s.at u).setReg pageDev 0x024
        (a.toNat % 4096 + (a.toNat / 4096) <<< 12 + s.dev.rfld pageDev 0x024 31 1 <<< 22 + refusedRange <<< 24 + 1 <<< 31))

/-- R28, R29, R62, R177, R210, R612, R640: a host read completes and returns what stands there. A 32-bit read of BAR0 returns the
word; one of the low word of a 64-bit register also holds its high word, which the next read of the high word returns. A read of another
width returns the bytes, from any offset, as a read of the thermal map or of the field-correction banks in BAR2 does. A read
of the low word of TIM_TICK, in either row, holds the tick's high word and the time of day of that same tick, which reads then
return until the next one. Reads change nothing else.
Where the rules leave the reading open, the statement follows the model's (log entry 26).
Under conditions on the state and the operands alone, `lowWordRead`, `timTickLowRead` answer a next state each, with their own
effect. -/
def Obligations.Reads : Prop :=
  (∀ (s : State) (u : Nat) (a : BitVec 28) (k : PageKind) (r : Reg), kindOf (a.toNat / 4096) = some k →
    k.reg? (a.toNat % 4096) = some r → a.toNat % 4 = 0 → a.toNat ≠ wordAddr pageTim 0x060 → a.toNat ≠ wordAddr pageDev 0x108 →
    (r.wide = false →
      AnswersButReports s (.lowWordRead u ⟨false, a, 4⟩) ((s.at u).send (.read (readReg (s.at u) a.toNat)))) ∧
    (r.wide = true → Answers s (.lowWordRead u ⟨false, a, 4⟩) fun t =>
      t.nv = s.nv ∧ t.dev.out = [.read (readReg (s.at u) a.toNat)] ∧
      t.dev.regs.rdHold.get (same (0, 0)) (a.toNat / 4096) = (a.toNat % 4096, readReg (s.at u) (a.toNat + 4)) ∧
      SameButReports { s.at u with regs := { s.dev.regs with rdHold := t.dev.regs.rdHold }, out := t.dev.out } t.dev)) ∧
  (∀ (s : State) (u : Nat) (a : BitVec 28) (k : PageKind) (r : Reg) (w : Word), kindOf (a.toNat / 4096) = some k →
    k.regAt? (a.toNat % 4096) = some (r, true) → a.toNat % 4 = 0 → a.toNat ≠ wordAddr pageTim 0x064 →
    s.dev.regs.rdHold.get (same (0, 0)) (a.toNat / 4096) = (a.toNat % 4096 - 4, w) →
    Answers s (.lowWordRead u ⟨false, a, 4⟩) fun t =>
      t.nv = s.nv ∧ t.dev.out = [.read w] ∧
      SameButReports { s.at u with regs := { s.dev.regs with rdHold := t.dev.regs.rdHold }, out := t.dev.out } t.dev) ∧
  (∀ (s : State) (u n : Nat) (a : BitVec 28), a.toNat + n ≤ 2 ^ 22 → (n ≠ 4 ∨ a.toNat % 4 ≠ 0) →
    ¬(n = 8 ∧ a.toNat = wordAddr pageTim 0x060) → ¬(n = 4 ∧ a.toNat = wordAddr pageDev 0x108) →
    AnswersButReports s (.lowWordRead u ⟨false, a, n⟩) ((s.at u).send (.bytes ((List.range n).map fun i =>
      BitVec.ofNat 8 (bits (readReg (s.at u) ((a.toNat + i) / 4 * 4)).toNat (8 * ((a.toNat + i) % 4)) 8))))) ∧
  (∀ (s : State) (u : Nat),
    AnswersButReports s (.lowWordRead u ⟨false, BitVec.ofNat 28 (wordAddr pageTim 0x060), 8⟩)
      ((s.at u).send (.bytes (leBytes 8 (s.at u).tick))) ∧
    (2 ≤ s.dev.boot.stage → s.nv.op = none → AnswersButReports s (.lowWordRead u ⟨false, BitVec.ofNat 28 (wordAddr pageDev 0x108), 4⟩)
      (((s.at u).setFld pageDev 0x104 0 28 (flashAddr s.dev + 4)).send (.read (word (flashField s.nv (flashAddr s.dev) 4)))))) ∧
  (∀ (s : State) (u : Nat) (row col : Fin 512), AnswersButReports s
    (.lowWordRead u ⟨true, BitVec.ofNat 28 (4 * (512 * row.val + col.val)), 4⟩)
    ((s.at u).send (.bytes (leBytes 2 (mapCell s.dev (512 * row.val + col.val)).energy ++
      leBytes 2 (mapCell s.dev (512 * row.val + col.val)).stamp)))) ∧
  (∀ (s : State) (u : Nat) (i : Fin 32) (bank : Bool) (k : Fin 16384), AnswersButReports s
    (.lowWordRead u ⟨true, BitVec.ofNat 28 (baseFct + 0x20000 * i.val + 0x10000 * boolNat bank + 4 * k.val), 4⟩)
    ((s.at u).send (.bytes (leBytes 4 (fctWordAt s.dev i.val bank k.val).toNat)))) ∧
  (∀ (s : State) (u : Nat) (i : Instr),
    i = .timTickLowRead u ∨ i = .lowWordRead u ⟨false, BitVec.ofNat 28 (wordAddr pageTim 0x060), 4⟩ → Answers s i fun t =>
      t.nv = s.nv ∧ t.dev.out = [.read (word (s.at u).tick)] ∧
      t.dev.tim.latch =
        some ((s.at u).tick >>> 32, (todAt s.dev.tim (s.at u).tick).1, (todAt s.dev.tim (s.at u).tick).2 / 4294967296) ∧
      SameButReports { s.at u with tim := { s.dev.tim with latch := t.dev.tim.latch }, out := t.dev.out } t.dev) ∧
  ∀ (s : State) (u high sec ns : Nat), s.dev.tim.latch = some (high, sec, ns) →
    AnswersButReports s (.lowWordRead u ⟨false, BitVec.ofNat 28 (wordAddr pageTim 0x064), 4⟩)
      ((s.at u).send (.read (word high))) ∧
    (Answers s (.lowWordRead u ⟨false, BitVec.ofNat 28 (wordAddr pageTim 0x070), 4⟩) fun t =>
      t.nv = s.nv ∧ t.dev.out = [.read (word sec)] ∧ t.dev.tim = s.dev.tim ∧
      t.dev.regs.rdHold.get (same (0, 0)) pageTim = (0x070, word (sec >>> 32))) ∧
    AnswersButReports s (.lowWordRead u ⟨false, BitVec.ofNat 28 (wordAddr pageTim 0x078), 4⟩)
      ((s.at u).send (.read (word ns)))

/-- R43, R47, R48: a COMMIT of a mirrored page that passes the checks makes its groups pending, with the cycle that accepted
it, and changes no value in use; a COMMIT that names a group the page does not have is refused and makes nothing pending.
R481: without a free record slot the write of a mirrored page waits.
Where the rules leave the reading open, the statement follows the model's (log entry 25).
Under conditions on the state and the operands alone, `commitWrite` answers a next state, with its own effect. -/
def Obligations.CommitWrite : Prop :=
  (∀ (s : State) (u : Nat) (p : Fin 1024) (v : Word), isMirrored p.val = true →
    keptForSlot s u (.commitWrite u p v) ⟨false, wordAddr p.val 0x01C, 4, v.toNat⟩) ∧
  ∀ (s : State) (u : Nat) (p : Fin 1024) (v : Word) (k : PageKind), kindOf p.val = some k → k ≠ .axs →
    (k.mirrored = true → (s.at u).writeHeld = false) →
    ((∀ g, g ∈ newGroups s.dev p.val v.toNat → k.defines g = true ∧ groupRefused (s.at u) p.val g = false) →
      k.mirrored = true → pageRefused (s.at u) k p.val 0x01C = none →
      Answers s (.commitWrite u p v) fun t =>
        t.nv = s.nv ∧
        t.dev.regs.pend = s.dev.regs.pend ++ (newGroups s.dev p.val v.toNat).map (fun g => ⟨p.val, g, s.dev.cycle, !s.dev.heats.everStarted⟩) ∧
        SameButReports
          { s.at u with regs := { s.dev.regs with pend := t.dev.regs.pend }, par := t.dev.par, out := t.dev.out } t.dev) ∧
    ((∃ g, g ∈ newGroups s.dev p.val v.toNat ∧ k.defines g = false) →
      Answers s (.commitWrite u p v) fun t =>
        t.nv = s.nv ∧ t.dev.regs.pend = s.dev.regs.pend ∧ t.dev.rfld p.val 0x024 24 7 = refusedRange)

/-- The groups whose application sets nothing else off (R211, R243, R271, R302, R339, R386, R407, R532, R543). -/
def Sys2Proof.Machine.quietGroup (k : PageKind) (g : Nat) : Bool :=
  match k with
  | .mem | .emu | .ctx => false
  | .ldl => g != 0
  | .stn => g != 3 && g != 4
  | .axs | .lhd => g != 3
  | .stp => g != 0
  | .lnk => g != 1
  | _ => true

/-- R44, R46, R49: at its boundary a pending group of the scheduler or of the map takes its staged fields: SCH's limits of
group 0 and its plume and band fields together, TMP's readiness classes together, and every group of every page whose
application sets nothing else off all of its fields and no other; an axis exchanges its programs (R252), a station its banks (R211). The group is no longer pending and no word that reads changes; before its boundary nothing changes. R52: while DEV_COMMIT_HOLD is 1 no group applies; a write of 0 after it records its cycle, from the third cycle after
which the groups apply again.
Where the rules leave the reading open, the statement follows the model's (log entries 25 and 72).
Under conditions on the state and the operands alone, `commitApply`, `devCommitHold` answer a next state each, with their own
effect. -/
def Obligations.CommitApply : Prop :=
  ((∀ s : State, commitReady s.dev pageSch 0 = true →
    Answers s (.commitApply 0x00A 0) fun t =>
      t.nv = s.nv ∧ t.dev.fld pageSch 0x044 0 32 = s.dev.rfld pageSch 0x044 0 32 ∧
      t.dev.fld pageSch 0x050 0 3 = s.dev.rfld pageSch 0x050 0 3 ∧
      t.dev.fld pageSch 0x054 0 32 = s.dev.rfld pageSch 0x054 0 32 ∧
      t.dev.regs.inUse (wordAddr pageSch 0x048) = s.dev.regs.inUse (wordAddr pageSch 0x048) ∧
      (∀ a, reportWord a = false → t.dev.regs.read a = s.dev.regs.read a) ∧ groupPending t.dev pageSch 0 = false ∧
      SameButReports { s.now with regs := t.dev.regs } t.dev) ∧
  (∀ s : State, commitReady s.dev pageTmp 1 = true →
    Answers s (.commitApply 0x00C 1) fun t =>
      t.nv = s.nv ∧ (∀ j, j < 4 → t.dev.regs.inUse (wordAddr pageTmp (0x044 + 4 * j)) =
        s.dev.regs.read (wordAddr pageTmp (0x044 + 4 * j))) ∧
      t.dev.fld pageTmp 0x040 0 24 = s.dev.fld pageTmp 0x040 0 24 ∧ groupPending t.dev pageTmp 1 = false ∧
      SameButReports { s.now with regs := t.dev.regs } t.dev) ∧
  (∀ (s : State) (p : Fin 1024) (g : Fin 32) (k : PageKind), kindOf p.val = some k → quietGroup k g.val = true →
    commitReady s.dev p.val g.val = true →
    Answers s (.commitApply p g) fun t =>
      t.nv = s.nv ∧ groupPending t.dev p.val g.val = false ∧
      (∀ q h, ¬(q = p.val ∧ h = g.val) → groupPending t.dev q h = groupPending s.dev q h) ∧
      (∀ r j, r ∈ k.regs → j < r.count → r.wide = false →
        t.dev.regs.inUse (wordAddr p.val (r.off + j * r.stride)) =
          word (mergeBits (s.dev.regs.inUse (wordAddr p.val (r.off + j * r.stride))).toNat
            (s.dev.regs.read (wordAddr p.val (r.off + j * r.stride))).toNat
            (maskWhere r fun f => f.commitGroup == some g.val))) ∧
      (∀ a, a / 4096 ≠ p.val → t.dev.regs.inUse a = s.dev.regs.inUse a ∧ t.dev.regs.read a = s.dev.regs.read a) ∧
      SameButReports { s.now with regs := t.dev.regs } t.dev) ∧
  (∀ (s : State) (p : Fin 1024), kindOf p.val = some .axs → commitReady s.dev p.val 3 = true →
    let j := instOf p.val
    let x := axisOfServo s.dev j
    Answers s (.commitApply p 3) fun t =>
      let y := axisOfServo t.dev j
      t.nv = s.nv ∧ groupPending t.dev p.val 3 = false ∧ y.active = x.staged ∧ y.staged = x.active ∧ y.iCmd = x.iCmd ∧
      (x.staged.keepState = true → y.work = x.work ∧ y.acc = x.acc ∧ y.filt = x.filt) ∧
      (x.staged.keepState = false → y.work = [] ∧ y.acc = [] ∧ y.filt = []) ∧
      t.dev.rfld p.val 0x060 0 32 = x.staged.word 1 ∧ (∀ k, k ≠ j → axisOfServo t.dev k = axisOfServo s.dev k) ∧
      SameButReports { s.now with regs := t.dev.regs, axes := t.dev.axes } t.dev) ∧
  (∀ (s : State) (p : Fin 1024), kindOf p.val = some .stn → commitReady s.dev p.val 3 = true →
    let n := instOf p.val
    Answers s (.commitApply p 3) fun t =>
      t.nv = s.nv ∧ groupPending t.dev p.val 3 = false ∧ (stationOf t.dev n).bank = !(stationOf s.dev n).bank ∧
      (stationOf t.dev n).remap.isSome = true ∧ t.dev.pennant p.val 8 = true ∧ t.dev.fct = s.dev.fct ∧
      (∀ k, k ≠ n → stationOf t.dev k = stationOf s.dev k) ∧
      SameButReports { s.now with regs := t.dev.regs, stations := t.dev.stations, cal := t.dev.cal } t.dev) ∧
  ∀ (s : State) (p : Fin 1024) (g : Fin 32), commitReady s.dev p.val g.val = false →
    AnswersButReports s (.commitApply p g) s.now) ∧
  ((∀ (s : State) (u : Nat) (r : Reg), PageKind.dev.reg? 0x040 = some r →
    (∀ v : Word, blockRefused (s.at u) .dev pageDev 0x040 r v.toNat = none →
      Answers s (.devCommitHold u v) fun t =>
        t.nv = s.nv ∧ t.dev.flag pageDev 0x040 0 = v.getLsbD 0 ∧ t.dev.rfld pageDev 0x040 0 1 = bits v.toNat 0 1 ∧
        t.dev.regs.pend = s.dev.regs.pend ∧ (v.getLsbD 0 = true → ∀ c, holdAllows t.dev c = false) ∧
        (v.getLsbD 0 = false → s.dev.flag pageDev 0x040 0 = false → ∀ c, holdAllows t.dev c = holdAllows s.dev c) ∧
        (∀ a, a ≠ wordAddr pageDev 0x040 → reportWord a = false →
          t.dev.regs.read a = s.dev.regs.read a ∧ t.dev.regs.inUse a = s.dev.regs.inUse a) ∧
        SameButReports { s.at u with regs := t.dev.regs } t.dev) ∧
    (∀ v : Word, blockRefused (s.at u) .dev pageDev 0x040 r v.toNat = none) ∧
    (blockRefused (s.at u) .dev pageDev 0x040 r 1 = none →
      Answers s (.devCommitHold u 1) fun t =>
        t.nv = s.nv ∧ t.dev.flag pageDev 0x040 0 = true ∧ holdAllows t.dev t.dev.cycle = false ∧
        t.dev.regs.pend = s.dev.regs.pend ∧ SameButReports { s.at u with regs := t.dev.regs } t.dev) ∧
    (blockRefused (s.at u) .dev pageDev 0x040 r 0 = none → s.dev.flag pageDev 0x040 0 = true →
      Answers s (.devCommitHold u 0) fun t =>
        t.nv = s.nv ∧ t.dev.flag pageDev 0x040 0 = false ∧ t.dev.regs.pend = s.dev.regs.pend ∧
        (∀ c, holdAllows t.dev c = decide (s.dev.cycle + 3 ≤ c)) ∧
        SameButReports { s.at u with regs := t.dev.regs } t.dev)) ∧
  ∀ (s : State) (p : Fin 1024) (g : Fin 32), s.dev.flag pageDev 0x040 0 = true →
    AnswersButReports s (.commitApply p g) s.now)

/-- R45: the Live writes of mirrored pages that cycle n accepted act at the start of cycle n + 3, not before: the write of
TMP_PEEK that is alone in waiting acts in its cycle and leaves the queue; writes that are not due stay and change nothing.
Where the rules leave the reading open, the statement follows the model's (log entry 7).
Under conditions on the state and the operands alone, `liveWriteApply` answers a next state, with its own effect. -/
def Obligations.LiveWriteApply : Prop :=
  ∀ s : State, s.dev.mould.lowers = [] → s.dev.mould.raises = [] →
    (∀ m, m ∈ s.dev.stp.moves → m.finished = false → ∀ x, x ∈ m.axes → mouldStep s.dev x ≠ 0) →
    ((∀ l, l ∈ s.dev.regs.live → s.dev.cycle < l.cycle + 3) → AnswersButReports s .liveWriteApply s.now) ∧
    ∀ (v : Long) (n : Nat), s.dev.regs.live = [⟨wordAddr pageTmp 0x068, v, false, n⟩] → n + 3 ≤ s.dev.cycle →
      Answers s .liveWriteApply fun t =>
        t.nv = s.nv ∧ t.dev.fld pageTmp 0x068 0 9 = bits v.toNat 0 9 ∧ t.dev.fld pageTmp 0x068 16 9 = bits v.toNat 16 9 ∧
        t.dev.regs.live = [] ∧ (∀ a, a ≠ wordAddr pageTmp 0x068 → reportWord a = false →
          t.dev.regs.inUse a = s.dev.regs.inUse a) ∧
        SameButReports { s.now with regs := t.dev.regs } t.dev

/-- R62, R63, R64, R210, R587: a word written to the field-correction window of station `i` goes to the bank that is not in use,
at its place, while group 3 of the station is not pending; the bank in use and every other station's words stand. While the group is pending
the word is discarded and ERRW of the station's page records PENDING. A LOAD of one word writes it the same way; it goes on to a
device that follows this one. R481: without a free record slot a word for a mirrored window waits.
Where the rules leave the reading open, the statement follows the model's (log entries 25 and 29).
Under conditions on the state and the operands alone, `bar2TableWrite`, `load` answer a next state each, with their own effect. -/
def Obligations.TableWrites : Prop :=
  (∀ (s : State) (u : Nat) (a : BitVec 28) (v : Word), windowMirrored a.toNat = true →
    keptForSlot s u (.bar2TableWrite u a v) ⟨true, a.toNat, 4, v.toNat⟩) ∧
  (∀ (s : State) (u : Nat) (i : Fin 32) (k : Fin 16384) (v : Word), (s.at u).writeHeld = false →
    s.dev.par.role ≠ roleStandby → s.dev.par.role ≠ roleJoining → s.dev.par.role ≠ roleOut →
    (groupPending s.dev (pageStn i.val) 3 = false →
      Answers s (.bar2TableWrite u (BitVec.ofNat 28 (baseFct + i.val * 0x20000 + 4 * k.val)) v) fun t =>
        t.nv = s.nv ∧
        (∀ a, t.dev.fct.get (same 0) a =
          if a = 16384 * (2 * i.val + boolNat (!(stationOf s.dev i.val).bank)) + k.val then v else s.dev.fct.get (same 0) a) ∧
        SameButReports { s.at u with fct := t.dev.fct, par := t.dev.par, out := t.dev.out } t.dev) ∧
    (groupPending s.dev (pageStn i.val) 3 = true →
      AnswersButReports s (.bar2TableWrite u (BitVec.ofNat 28 (baseFct + i.val * 0x20000 + 4 * k.val)) v)
        ((s.at u).setReg (pageStn i.val) 0x024 (0x01C + pageStn i.val <<< 12 +
          s.dev.rfld (pageStn i.val) 0x024 31 1 <<< 22 + refusedPending <<< 24 + 1 <<< 31)))) ∧
  ∀ (s : State) (u : Nat) (r : Fin 2) (e : Entry) (bs : List Byte) (i : Fin 32) (k : Fin 16384),
    entryReady (s.at u) (8 + r.val) e = true → byteField e 0 1 = 0x41 → byteField e 1 3 = 0 → byteField e 24 7 = 0 →
    byteField e 16 4 = baseFct + i.val * 0x20000 + 4 * k.val → byteField e 20 4 = 4 → 4 ≤ bs.length →
    groupPending s.dev (pageStn i.val) 3 = false →
    Answers s (.load u r e (.ok bs)) fun t =>
      t.nv = s.nv ∧
      (∀ a, t.dev.fct.get (same 0) a =
        if a = 16384 * (2 * i.val + boolNat (!(stationOf s.dev i.val).bank)) + k.val then word (leNat (bs.take 4))
        else s.dev.fct.get (same 0) a) ∧
      (s.dev.pairHolder = false →
        SameButReports { consumed (s.at u) (8 + r.val) with fct := t.dev.fct, free := t.dev.free, out := t.dev.out } t.dev) ∧
      (s.dev.forwards = false → t.dev.out = []) ∧
      (s.dev.pairHolder = true → SameButReports { consumed (s.at u) (8 + r.val) with
        fct := t.dev.fct, out := t.dev.out, hif := { s.dev.hif with loads := s.dev.hif.loads ++ [(r.val, e, 0, none)] } } t.dev)

/-! ### Rings and host link (chapter 18) -/

/-- A doorbell that the checks let pass. -/
def Sys2Proof.Machine.doorbellTaken (s : State) (u : Nat) (i : Instr) (p off : Nat) (v : Word) : Prop :=
  Answers s i fun t =>
    t.nv = s.nv ∧ t.dev.rfld p off 0 17 = bits v.toNat 0 17 ∧
    (∀ a, a ≠ wordAddr p off → reportWord a = false → t.dev.regs.read a = s.dev.regs.read a) ∧
    SameButReports { s.at u with regs := t.dev.regs } t.dev

/-- A doorbell write that a check refuses with RANGE: the position stands. -/
def Sys2Proof.Machine.doorbellRefused (s : State) (u : Nat) (i : Instr) (p off : Nat) : Prop :=
  AnswersButReports s i ((s.at u).setReg p 0x024
    (off + p <<< 12 + s.dev.rfld p 0x024 31 1 <<< 22 + refusedRange <<< 24 + 1 <<< 31))

/-- R575, R578: RNG_PROD of a host-written ring moves forward by at most the free entries, RNG_CONS of a device-written
ring by at most the entries in use, RNG_AUX_CONS of an archive ring by at most the data in use; any other value is refused with
RANGE and leaves the position as it was. R572: a device that does not hold the ensign only records the doorbells of the
shared rings, so it checks their index alone.
Under conditions on the state and the operands alone, `rngProdDoorbell`, `rngConsDoorbell`, `rngAuxCons` answer a next state
each, with their own effect. -/
def Obligations.Doorbells : Prop :=
  ∀ (s : State) (u : Nat) (r : Fin 64) (v : Word),
    (writeAccepted (s.at u) (pageRng r.val) 0x04C v.toNat = true → deviceWrites r.val = false →
      bits v.toNat 0 16 < 2 ^ ringLog2 s.dev r.val →
      (checksDoorbell s.dev r.val = true →
        ringUsed s.dev r.val ≤ posDist (ringLog2 s.dev r.val) (ringCons s.dev r.val) (bits v.toNat 0 17) ∧
        posDist (ringLog2 s.dev r.val) (ringCons s.dev r.val) (bits v.toNat 0 17) ≤ 2 ^ ringLog2 s.dev r.val) →
      doorbellTaken s u (.rngProdDoorbell u r v) (pageRng r.val) 0x04C v) ∧
    (writeAccepted (s.at u) (pageRng r.val) 0x050 v.toNat = true → deviceWrites r.val = true →
      bits v.toNat 0 16 < 2 ^ ringLog2 s.dev r.val →
      (checksDoorbell s.dev r.val = true →
        posDist (ringLog2 s.dev r.val) (bits v.toNat 0 17) (ringProd s.dev r.val) ≤ ringUsed s.dev r.val) →
      doorbellTaken s u (.rngConsDoorbell u r v) (pageRng r.val) 0x050 v) ∧
    (writeAccepted (s.at u) (pageRng r.val) 0x06C v.toNat = true → bits v.toNat 0 30 < 2 ^ auxLog2 s.dev r.val →
      (checksDoorbell s.dev r.val = true →
        auxDist (auxLog2 s.dev r.val) (bits v.toNat 0 31) (s.dev.rfld (pageRng r.val) 0x070 0 31) ≤ auxUsed s.dev r.val) →
      Answers s (.rngAuxCons u r v) fun t =>
        t.nv = s.nv ∧ t.dev.rfld (pageRng r.val) 0x06C 0 31 = bits v.toNat 0 31 ∧
        (∀ a, a ≠ wordAddr (pageRng r.val) 0x06C → reportWord a = false → t.dev.regs.read a = s.dev.regs.read a) ∧
        SameButReports { s.at u with regs := t.dev.regs } t.dev) ∧
    ((deviceWrites r.val = true ∨ 2 ^ ringLog2 s.dev r.val ≤ bits v.toNat 0 16 ∨
        (checksDoorbell s.dev r.val = true ∧
          (posDist (ringLog2 s.dev r.val) (ringCons s.dev r.val) (bits v.toNat 0 17) < ringUsed s.dev r.val ∨
           2 ^ ringLog2 s.dev r.val < posDist (ringLog2 s.dev r.val) (ringCons s.dev r.val) (bits v.toNat 0 17)))) →
      doorbellRefused s u (.rngProdDoorbell u r v) (pageRng r.val) 0x04C) ∧
    ((deviceWrites r.val = false ∨ 2 ^ ringLog2 s.dev r.val ≤ bits v.toNat 0 16 ∨
        (checksDoorbell s.dev r.val = true ∧
          ringUsed s.dev r.val < posDist (ringLog2 s.dev r.val) (bits v.toNat 0 17) (ringProd s.dev r.val))) →
      doorbellRefused s u (.rngConsDoorbell u r v) (pageRng r.val) 0x050) ∧
    ((2 ^ auxLog2 s.dev r.val ≤ bits v.toNat 0 30 ∨
        (checksDoorbell s.dev r.val = true ∧ auxUsed s.dev r.val <
          auxDist (auxLog2 s.dev r.val) (bits v.toNat 0 31) (s.dev.rfld (pageRng r.val) 0x070 0 31))) →
      doorbellRefused s u (.rngAuxCons u r v) (pageRng r.val) 0x06C)

/-- R570, R573, R574, R577, R579, R586: the oldest queued record of a ring is written at PROD, which lies at RNG_BASE + 32 times
the index, with the phase of its lap, after the bitmap it may have at RNG_AUX_BASE + 64 times the index; PROD moves on, and at most
the ring's own MSI-X message follows. A ring that is empty, full, disabled or without its link writes nothing.
Under conditions on the state and the operands alone, `ringRecordWrite` answers a next state, with its own effect. -/
def Obligations.RingRecordWrite : Prop :=
  ∀ (s : State) (u : Nat) (r : Fin 64),
    let at0 (off : Nat) : Nat := s.dev.fld (pageRng r.val) off 0 32 + s.dev.fld (pageRng r.val) (off + 4) 0 32 <<< 32
    let i := bits (ringProd s.dev r.val) 0 16
    (∀ (q : QRec) (rest : List QRec), (ringOf (s.at u) r.val).queue = q :: rest → mayWriteRing s.dev r.val = true →
      ringFull s.dev r.val = false →
      Answers s (.ringRecordWrite u r) fun t =>
        t.nv = s.nv ∧ (ringOf t.dev r.val).queue = rest ∧
        (∀ k, k ≠ r.val → ringOf t.dev k = ringOf (s.at u) k) ∧
        t.dev.regs = ((s.at u).setReg (pageRng r.val) 0x04C
          (posNext (ringLog2 s.dev r.val) (ringProd s.dev r.val))).regs ∧
        (∃ m, t.dev.out = (if q.withMap then [.bitmap r.val i (at0 0x060 + 64 * i) q.bitmap] else []) ++
            .record r.val i (at0 0x040 + 32 * i)
              (q.data + BitVec.ofNat 256 ((1 - bits (ringProd s.dev r.val) 16 1) * 2 ^ 248)) :: m ∧
          (m = [] ∨ m = [.msix (s.dev.fld (pageRng r.val) 0x054 0 6)])) ∧
        t.dev.heats = s.dev.heats ∧ t.dev.recorder = (s.at u).recorder ∧ t.dev.mould = s.dev.mould) ∧
    (((ringOf (s.at u) r.val).queue = [] ∨ mayWriteRing s.dev r.val = false ∨ ringFull s.dev r.val = true) →
      AnswersExactly s (.ringRecordWrite u r) (s.at u))

/-- R586: MOD_TIME µs after its oldest record without a message, a ring sends one on its vector, or, the vector masked, sets
its bit of the PBA; its count of such records returns to 0. A vector on which another ring sent within the last microsecond stays
silent. Before that time, or with the message disabled, nothing happens. R583: a window of coalesced reports that has lasted its
span is closed: a device that holds the ensign writes its event to the ring of its class, another one to ring 63 where the page is
its own, and a standby keeps the event of a mirrored page; while none has lasted its span, nothing happens.
Where the rules leave the reading open, the statement follows the model's (log entry 65).
Under conditions on the state and the operands alone, `coalesceWindowEnd`, `msixModerationTimer` answer a next state each, with
their own effect. -/
def Obligations.RingTimers : Prop :=
  (∀ (s : State) (u : Nat) (r : Fin 64),
    let d := s.at u
    let v := d.fld (pageRng r.val) 0x054 0 6
    let last := d.hif.lastMsg.get (same 0) v
    let due := d.flag (pageRng r.val) 0x054 8 = true ∧ 0 < (ringOf d r.val).unsignalled ∧
      d.fld (pageRng r.val) 0x058 0 16 ≠ 0 ∧
      (ringOf d r.val).oldest + 250 * d.fld (pageRng r.val) 0x058 0 16 ≤ d.tick ∧
      (sharedRing r.val = false ∨ d.holds = true)
    let masked := bit (d.hif.msix.get msixReset (4 * v + 3)).toNat 0
    let silent := last ≠ 0 ∧ d.tick < last - 1 + 250 ∧ d.hif.lastRing.get (same 0) v ≠ r.val + 1
    (due → masked = false → ¬silent →
      Answers s (.msixModerationTimer u r) fun t =>
        t.nv = s.nv ∧ t.dev.out = [.msix v] ∧ (ringOf t.dev r.val).unsignalled = 0 ∧
        (ringOf t.dev r.val).queue = (ringOf d r.val).queue ∧ t.dev.regs = d.regs ∧
        t.dev.hif = { d.hif with lastMsg := d.hif.lastMsg.set (same 0) v (d.tick + 1),
                                 lastRing := d.hif.lastRing.set (same 0) v (r.val + 1) }) ∧
    (due → masked = false → silent →
      Answers s (.msixModerationTimer u r) fun t =>
        t.nv = s.nv ∧ t.dev.out = [] ∧ (ringOf t.dev r.val).unsignalled = 0 ∧ t.dev.regs = d.regs ∧ t.dev.hif = d.hif) ∧
    (due → masked = true →
      Answers s (.msixModerationTimer u r) fun t =>
        t.nv = s.nv ∧ t.dev.out = [] ∧ (ringOf t.dev r.val).unsignalled = 0 ∧ t.dev.regs = d.regs ∧
        t.dev.hif = { d.hif with pba := d.hif.pba ||| BitVec.ofNat 64 (2 ^ v) }) ∧
    (¬due → AnswersExactly s (.msixModerationTimer u r) d)) ∧
  (∀ (s : State) (w : Window) (rest : List Window), s.dev.hif.windows = w :: rest →
    (w.upTo ≤ s.dev.cycle →
      Answers s .coalesceWindowEnd fun t =>
        t.nv = s.nv ∧
        (∀ k, eventRing s.dev w.page w.cls = some k → k < 64 → queueRoomFor s.dev k = true → s.dev.enabled (pageRng k) = true →
          t.dev.hif.windows = rest ∧
          (ringOf t.dev k).queue = (ringOf s.dev k).queue ++
            [⟨BitVec.ofNat 256 (eventRecord s.dev w + atByte 16 (ringOf s.dev k).seq.toNat),
              if 2 ≤ w.count then w.bitmap else 0, decide (2 ≤ w.count), .event⟩] ∧
          (ringOf t.dev k).seq = (ringOf s.dev k).seq + 1 ∧ t.dev.regs = s.dev.regs ∧ SameButReports s.now t.dev) ∧
        (eventRing s.dev w.page w.cls = none → t.dev = { s.now with hif := { s.dev.hif with
          windows := rest
          kept := s.dev.hif.kept ++ (if s.dev.par.role = roleStandby then [.event (24 + w.cls) (eventBody w)
            (if 2 ≤ w.count then w.bitmap else 0) (decide (2 ≤ w.count)) 0] else []) } })) ∧
    ((∀ x ∈ w :: rest, s.dev.cycle < x.upTo) → AnswersExactly s .coalesceWindowEnd s.now))

/-- R566, R568, R629: from boot step 2 on the link trains; a retraining keeps the link up at its new speed and width and a lower
one sets LINK_DEGRADED; loss of the link sets LINK_DOWN. An error logged counts in its own register.
Where the rules leave the reading open, the statement follows the model's (log entry 70).
Under conditions on the state and the operands alone, `linkDegraded`, `linkDown`, `pcieLinkUp`, `pcieErrorLogged` answer a next
state each, with their own effect. -/
def Obligations.LinkEvents : Prop :=
  ∀ (s : State) (u : Nat) (speed : BitVec 3) (width : BitVec 4),
    (2 ≤ s.dev.boot.stage → AnswersButReports s (.pcieLinkUp u speed width)
      { s.at u with hif := { s.dev.hif with linkUp := true, speed := speed, width := width } }) ∧
    (s.dev.hif.linkUp = true →
      (Answers s (.linkDegraded u speed width) fun t =>
        t.nv = s.nv ∧
        SameButReports { s.at u with hif := { s.dev.hif with speed := speed, width := width } } t.dev ∧
        (speed < s.dev.hif.speed ∨ width < s.dev.hif.width → t.dev.pennant pageHif 1 = true)) ∧
      Answers s (.linkDown u) fun t =>
        t.nv = s.nv ∧ t.dev.pennant pageHif 2 = true ∧
        SameButReports { s.at u with hif := { s.dev.hif with linkUp := false, speed := 0, width := 0 } } t.dev) ∧
    (s.dev.hif.linkUp = false →
      AnswersButReports s (.linkDegraded u speed width) (s.at u) ∧ AnswersButReports s (.linkDown u) (s.at u)) ∧
    ∀ c : Bool, AnswersButReports s (.pcieErrorLogged u c)
      ((s.at u).setReg pageHif (if c then 0x064 else 0x068)
        (min (s.dev.rfld pageHif (if c then 0x064 else 0x068) 0 32 + 1) 0xFFFFFFFF))

/-- R588: from boot step 4 on firmware answers the entry at the head of a mailbox ring on ring `60 + k`: IDENTIFY with the
version, the schemas and the serial number, ECHO with the request's bytes 8 to 29, anything else with status 0xFFFF and free
data. Ring 23 gets no answer.
Where the rules leave the reading open, the statement follows the model's (log entry 34).
Under conditions on the state and the operands alone, `identify`, `echo`, `mailboxUnsupported` answer a next state each, with
their own effect. -/
def Obligations.Mailbox : Prop :=
  ∀ (s : State) (u : Nat) (k : Fin 4) (e : Entry), 4 ≤ s.dev.boot.stage →
    entryReady (s.at u) (20 + k.val) e = true → queueRoomFor (s.at u) (60 + k.val) = true →
    (k.val < 3 →
      (byteField e 0 2 = 1 → AnswersExactly s (.identify u k e)
        (queued (consumed (s.at u) (20 + k.val)) (60 + k.val) .plain
          (1 + atByte 4 (byteField e 4 4) + (atByte 8 s.dev.boot.fwVersion.toNat + atByte 12 s.dev.boot.schema.toNat +
            atByte 13 (s.dev.boot.schema - 1).toNat + atByte 16 Config.serial.toNat)))) ∧
      (byteField e 0 2 = 2 → AnswersExactly s (.echo u k e)
        (queued (consumed (s.at u) (20 + k.val)) (60 + k.val) .plain
          (2 + atByte 4 (byteField e 4 4) + atByte 8 (byteField e 8 22)))) ∧
      (byteField e 0 2 ≠ 1 → byteField e 0 2 ≠ 2 → Answers s (.mailboxUnsupported u k e) fun t =>
        t.nv = s.nv ∧ (∃ data : BitVec 176, t.dev = { queued (consumed (s.at u) (20 + k.val)) (60 + k.val) .plain
          (byteField e 0 2 + atByte 2 0xFFFF + atByte 4 (byteField e 4 4) + atByte 8 data.toNat) with
            free := s.dev.free + 3 }))) ∧
    (k.val = 3 → AnswersExactly s (.identify u k e) (consumed (s.at u) 23) ∧
      AnswersExactly s (.echo u k e) (consumed (s.at u) 23) ∧
      AnswersExactly s (.mailboxUnsupported u k e) (consumed (s.at u) 23))

/-- R567, R587: an entry whose host read is outstanding waits on its ring; when the read ends the entry is taken with what it brought,
exactly as its own command with that outcome.
Where the rules leave the reading open, the statement follows the model's (log entry 19).
Under conditions on the state and the operands alone, `hostReadCompletion` answers a next state, with its own effect. -/
def Obligations.HostReads : Prop :=
  (∀ (s : State) (u : Nat) (k : Fin 4) (e : Entry) (h : Heat), entryFor (s.at u) k.val 3 e h →
    AnswersButReports s (.pours u k e .waiting)
      (setRing (s.at u) k.val { ringOf s.dev k.val with
        parked := some (.pours 0 k e .waiting), begun := true, at0 := ringCons s.dev k.val, stale := false })) ∧
  (∀ (s : State) (u v : Nat) (rd x : HostRead) (e : Entry), rd ≠ .waiting → s.dev.recorder.triggers = [] →
    let back (r : Nat) : State := { s with dev := setRing s.dev r { ringOf s.dev r with parked := none } }
    let ready (r : Nat) : Prop := (ringOf s.dev r).begun = true ∧ entryReady ((back r).at u) r e = true
    (∀ k : Fin 4, enType e ≠ 1 → ready k.val → (subOf s.dev k.val).mode ≠ 4 →
      ((ringOf s.dev k.val).parked = some (.islands v k e x) →
        ∃ t, exec (.hostReadCompletion u ⟨k.val, by omega⟩ rd) s = .next t ∧ exec (.islands u k e rd) (back k.val) = .next t) ∧
      ((ringOf s.dev k.val).parked = some (.pours v k e x) →
        ∃ t, exec (.hostReadCompletion u ⟨k.val, by omega⟩ rd) s = .next t ∧ exec (.pours u k e rd) (back k.val) = .next t) ∧
      ((ringOf s.dev k.val).parked = some (.recoat v k e x) →
        ∃ t, exec (.hostReadCompletion u ⟨k.val, by omega⟩ rd) s = .next t ∧ exec (.recoat u k e rd) (back k.val) = .next t)) ∧
    (∀ (k : Fin 4) (h : Heat) (p : Entry), ready (4 + k.val) → (ringOf s.dev (4 + k.val)).parked = some (.lines v k e x) →
      findHeat s.dev (BitVec.ofNat 32 (enHeat e)) = some h → (h.passes.find? fun p => psIndex p == byteField e 26 1) = some p →
      ∃ t, exec (.hostReadCompletion u ⟨4 + k.val, by omega⟩ rd) s = .next t ∧ exec (.lines u k e rd) (back (4 + k.val)) = .next t) ∧
    (∀ k : Fin 2,
      (ready (12 + k.val) → (ringOf s.dev (12 + k.val)).parked = some (.encode v k e x) →
        ∃ t, exec (.hostReadCompletion u ⟨12 + k.val, by omega⟩ rd) s = .next t ∧
          exec (.encode u k e rd) (back (12 + k.val)) = .next t) ∧
      (ready (12 + k.val) → (ringOf s.dev (12 + k.val)).parked = some (.decode v k e x) →
        ∃ t, exec (.hostReadCompletion u ⟨12 + k.val, by omega⟩ rd) s = .next t ∧
          exec (.decode u k e rd) (back (12 + k.val)) = .next t) ∧
      (ready (12 + k.val) → (ringOf s.dev (12 + k.val)).parked = some (.resume v k e x) →
        ∃ t, exec (.hostReadCompletion u ⟨12 + k.val, by omega⟩ rd) s = .next t ∧
          exec (.resume u k e rd) (back (12 + k.val)) = .next t) ∧
      ((ringOf s.dev (12 + k.val)).parked = some (.ingotEncode v k x) →
        ∃ t, exec (.hostReadCompletion u ⟨12 + k.val, by omega⟩ rd) s = .next { t with dev := unpark t.dev (12 + k.val) } ∧
          exec (.ingotEncode u k rd) (back (12 + k.val)) = .next t) ∧
      (ready (16 + k.val) → (ringOf s.dev (16 + k.val)).parked = some (.plate v k e x) →
        ∃ t, exec (.hostReadCompletion u ⟨16 + k.val, by omega⟩ rd) s = .next t ∧
          exec (.plate u k e rd) (back (16 + k.val)) = .next t) ∧
      (ready (16 + k.val) → (ringOf s.dev (16 + k.val)).parked = some (.power v k e x) →
        ∃ t, exec (.hostReadCompletion u ⟨16 + k.val, by omega⟩ rd) s = .next t ∧
          exec (.power u k e rd) (back (16 + k.val)) = .next t) ∧
      ((ringOf s.dev (12 + k.val)).parked = some (.ingotDecode v k x) →
        ∃ t, exec (.hostReadCompletion u ⟨12 + k.val, by omega⟩ rd) s = .next { t with dev := unpark t.dev (12 + k.val) } ∧
          exec (.ingotDecode u k rd) (back (12 + k.val)) = .next t) ∧
      (ready (8 + k.val) → (ringOf s.dev (8 + k.val)).parked = some (.load v k e x) →
        ∃ t, exec (.hostReadCompletion u ⟨8 + k.val, by omega⟩ rd) s = .next t ∧
          exec (.load u k e rd) (back (8 + k.val)) = .next t))) ∧
  ∀ (s : State) (u v : Nat) (k : Fin 2) (e : Entry) (x : HostRead),
    (ringOf s.dev (16 + k.val)).parked = some (.plate v k e x) →
    AnswersButReports s (.hostReadCompletion u ⟨16 + k.val, by omega⟩ .waiting) (s.at u)

/-! ### Heat submission (chapter 03) -/

/-- Entry `e` of ring `r` is accepted: it is consumed, the heat under construction is `h` from now on, its ENTRY_DONE waits, a
device that follows this one gets it, and but for reports nothing else changed; `d` is the device with what the entry's decoding counted. -/
def Sys2Proof.Machine.entryTaken (s t : State) (d : Dev) (r : Nat) (e : Entry) (h : Heat) : Prop :=
  t.dev.heats = { s.dev.heats with opening := some h } ∧
    LeavesForwarding s (consumed { d with heats := t.dev.heats } r) t ∧
    (s.dev.recorder.triggers = [] → queueRoomFor s.dev (48 + r) = true → (ringOf t.dev (48 + r)).queue = (ringOf s.dev (48 + r)).queue ++
      [⟨BitVec.ofNat 256 (acceptedRecord s.dev d.tick r e + atByte 30 s.dev.stateByte), 0, false, .plain⟩])

/-- R86, R89, R90: a HEAT_OPEN with no reserved value, of the heat that is next (one more than the last accepted, or, none
accepted yet, the number of the first one opened), opens it. One that R90 holds back stays at the head
of its ring and changes nothing. R90: the ring resumes when the HEAT_OPEN at its head may be read; until then nothing changes.
Where the rules leave the reading open, the statement follows the model's (log entries 15 and 33).
Under conditions on the state and the operands alone, `heatOpen`, `heatRingResume` answer a next state each, with their own
effect. -/
def Obligations.HeatOpen : Prop :=
  (∀ (s : State) (u : Nat) (r : Fin 4) (e : Entry), entryReady (s.at u) r.val e = true → (subOf s.dev r.val).mode = 0 →
    enType e = 1 →
    (openWaits s.dev (BitVec.ofNat 32 (enHeat e)) = false → s.dev.heats.opening = none →
      (∀ m, nextHeat s.dev = some m → BitVec.ofNat 32 (enHeat e) = m) → entryShape e = true →
      byteField e 13 3 = 0 → byteField e 16 12 = 0 → byteField e 12 1 ≤ 8 →
      Answers s (.heatOpen u r e) fun t =>
        t.nv = s.nv ∧ t.dev.heats.opening = some (openedBy s.dev r.val e) ∧
        (subOf t.dev r.val).mode = 1 ∧ (∀ k, k ≠ r.val → subOf t.dev k = subOf s.dev k) ∧
        t.dev.heats.staged = s.dev.heats.staged ∧ t.dev.heats.running = s.dev.heats.running ∧
        t.dev.heats.accepted = s.dev.heats.accepted ∧
        t.dev.heats.first = s.dev.heats.first.or (some (BitVec.ofNat 32 (enHeat e))) ∧
        LeavesForwarding s (consumed { s.at u with heats := t.dev.heats } r.val) t) ∧
    (openWaits s.dev (BitVec.ofNat 32 (enHeat e)) = true →
      AnswersButReports s (.heatOpen u r e)
        (setRing (s.at u) r.val { ringOf s.dev r.val with
          parked := some (.heatOpen 0 r e), begun := false, at0 := ringCons s.dev r.val, stale := false }))) ∧
  (∀ (s : State) (u v : Nat) (r k : Fin 4) (e : Entry), (ringOf s.dev r.val).parked = some (.heatOpen v k e) → enType e = 1 →
    (subOf s.dev r.val).mode = 0 →
    (openWaits s.dev (BitVec.ofNat 32 (enHeat e)) = true → AnswersButReports s (.heatRingResume u r) (s.at u)) ∧
    (openWaits s.dev (BitVec.ofNat 32 (enHeat e)) = false →
      entryReady (unpark (s.at u) r.val) r.val e = true →
      s.dev.heats.opening = none → (∀ m, nextHeat s.dev = some m → BitVec.ofNat 32 (enHeat e) = m) →
      entryShape e = true → byteField e 13 3 = 0 → byteField e 16 12 = 0 → byteField e 12 1 ≤ 8 →
      Answers s (.heatRingResume u r) fun t =>
        t.nv = s.nv ∧ t.dev.heats.opening = some (openedBy s.dev r.val e) ∧ (subOf t.dev r.val).mode = 1 ∧
        (ringOf t.dev r.val).parked = none ∧ t.dev.heats.staged = s.dev.heats.staged ∧ t.dev.mould = s.dev.mould))

/-- R65, R74, R82, R84, R87, R92, R96: ISLANDS, POURS, RECOAT and PASS of the open heat append their checked records to it.
Where the rules leave the reading open, the statement follows the model's (log entry 35).
Under conditions on the state and the operands alone, `islands`, `pours`, `recoat`, `pass` answer a next state each, with their
own effect. -/
def Obligations.HeatEntries : Prop :=
  ∀ (s : State) (u : Nat) (r : Fin 4) (e : Entry) (h : Heat) (rd : HostRead), rd ≠ .waiting →
    (∀ recs : List Nat, entryFor (s.at u) r.val 2 e h → byteField e 20 4 = h.islands.length →
      byteField e 20 4 + byteField e 24 4 ≤ 65536 → entryData e 64 (byteField e 24 4) rd = .data recs →
      (∀ x, x ∈ recs → islandFault (BitVec.ofNat 512 x) = none) →
      Answers s (.islands u r e rd) fun t => entryTaken s t
        (if enIngot e then (s.at u).addCount pageIcd 0x070 (byteField e 24 4 / 4) else s.at u) r.val e
        { h with islands := h.islands ++ recs.map (BitVec.ofNat 512) }) ∧
    (∀ recs : List Nat, entryFor (s.at u) r.val 3 e h → byteField e 20 4 = h.pours.length →
      byteField e 20 4 + byteField e 24 4 ≤ 16777216 → entryData e 32 (byteField e 24 4) rd = .data recs →
      (∀ x, x ∈ recs → pourValid (BitVec.ofNat 256 x) = true) →
      Answers s (.pours u r e rd) fun t => entryTaken s t
        (if enIngot e then (s.at u).addCount pageIcd 0x070 (byteField e 24 4 / 8) else s.at u) r.val e
        { h with pours := h.pours ++ recs.map (BitVec.ofNat 256) }) ∧
    (∀ bs : List Byte, entryFor (s.at u) r.val 4 e h → h.recoat = none → byteField e 16 4 = 64 → byteField e 20 8 = 0 →
      rd = .ok bs → 64 ≤ bs.length → recoatValid (BitVec.ofNat 512 (leNat (bs.take 64))) = true →
      (∀ p, p ∈ h.passes → passFits p (BitVec.ofNat 512 (leNat (bs.take 64))) = true) →
      Answers s (.recoat u r e rd) fun t => entryTaken s t (s.at u) r.val e
        { h with recoat := some (BitVec.ofNat 512 (leNat (bs.take 64))) }) ∧
    (entryFor (s.at u) r.val 5 e h → psIndex e < h.passCount → psIndex e = h.passes.length → passValid e = true →
      (∀ rc, h.recoat = some rc → passFits e rc = true) →
      Answers s (.pass u r e) fun t => entryTaken s t (s.at u) r.val e { h with passes := h.passes ++ [e] })

/-- R88, R92, R93: HEAT_CLOSE of a heat that passes every check stages it behind those staged, and its number is the last accepted;
with a standby in lockstep that happens when the standby confirms. A heat that passes has the announced counts, its recoat record and
its passes, and the announced CRC.
Where the rules leave the reading open, the statement follows the model's (log entries 16, 67 and 71).
Under conditions on the state and the operands alone, `heatClose`, `standbyHeatConfirm` answer a next state each, with their own
effect. -/
def Obligations.HeatClose : Prop :=
  (∀ (h : Heat) (n m c : Nat), closeFault h n m c = none →
    n = h.islands.length ∧ m = h.pours.length ∧ h.recoat.isSome = true ∧ h.passes.length = h.passCount ∧ c = heatCrc h) ∧
  (∀ (s : State) (u : Nat) (r : Fin 4) (e : Entry) (h : Heat), entryFor (s.at u) r.val 6 e h → byteField e 20 8 = 0 →
    closeFault h (byteField e 8 4) (byteField e 12 4) (byteField e 16 4) = none →
    (s.dev.pairHolder = false →
      Answers s (.heatClose u r e) fun t =>
        t.nv = s.nv ∧ t.dev.heats.opening = none ∧ t.dev.heats.staged = s.dev.heats.staged ++ [h] ∧
        t.dev.heats.accepted = some h.number ∧ (subOf t.dev r.val).mode = 0 ∧ t.dev.heats.running = s.dev.heats.running ∧
        LeavesForwarding s (consumed { s.at u with heats := t.dev.heats } r.val) t) ∧
    (s.dev.pairHolder = true →
      Answers s (.heatClose u r e) fun t =>
        t.nv = s.nv ∧ (subOf t.dev r.val).mode = 4 ∧ t.dev.heats.opening = some h ∧
        t.dev.heats.staged = s.dev.heats.staged ∧
        LeavesForwarding s (consumed { s.at u with heats := t.dev.heats } r.val) t)) ∧
  ∀ (s : State) (u : Nat) (r : Fin 4) (h : Heat), s.dev.heats.opening = some h → h.ring = r.val →
    (subOf s.dev r.val).mode = 4 →
    Answers s (.standbyHeatConfirm u r) fun t =>
      t.nv = s.nv ∧ t.dev.heats.opening = none ∧ t.dev.heats.staged = s.dev.heats.staged ++ [h] ∧
      t.dev.heats.accepted = some h.number ∧ (subOf t.dev r.val).mode = 0 ∧
      SameButReports { s.at u with heats := t.dev.heats } t.dev

/-- R94, R95: an entry of the open heat that has a reserved value or names another heat rejects the heat: nothing of it stays, and
the ring's entries are consumed without effect up to its HEAT_CLOSE. HEAT_CANCEL discards the heat the same way. Staged and running
heats are not touched.
Where the rules leave the reading open, the statement follows the model's (log entry 17).
Under conditions on the state and the operands alone, `heatCancel` answers a next state, with its own effect. -/
def Obligations.HeatDiscarded : Prop :=
  ∀ (s : State) (u : Nat) (r : Fin 4) (e : Entry) (rd : HostRead), rd ≠ .waiting → entryReady (s.at u) r.val e = true →
    let gone (t : State) (mode : Nat) : Prop :=
      t.nv = s.nv ∧ t.dev.heats.opening = none ∧ (subOf t.dev r.val).mode = mode ∧
      t.dev.heats.staged = s.dev.heats.staged ∧ t.dev.heats.running = s.dev.heats.running ∧
      t.dev.heats.accepted = s.dev.heats.accepted ∧
      LeavesForwarding s (consumed { s.at u with heats := t.dev.heats } r.val) t
    (∀ h, (subOf s.dev r.val).mode = 1 → s.dev.heats.opening = some h → h.ring = r.val →
      (enHeat e ≠ h.number.toNat ∨ entryShape e = false) →
      (enType e = 2 → Answers s (.islands u r e rd) fun t => gone t 2) ∧
      (enType e = 3 → Answers s (.pours u r e rd) fun t => gone t 2) ∧
      (enType e = 4 → Answers s (.recoat u r e rd) fun t => gone t 2) ∧
      (enType e = 5 → Answers s (.pass u r e) fun t => gone t 2) ∧
      (enType e = 6 → Answers s (.heatClose u r e) fun t => gone t 0)) ∧
    (∀ h, entryFor (s.at u) r.val 7 e h → byteField e 8 20 = 0 → Answers s (.heatCancel u r e) fun t => gone t 3) ∧
    (∀ h, (subOf s.dev r.val).mode = 1 → s.dev.heats.opening = some h → h.ring = r.val → enType e = 7 →
      enHeat e = h.number.toNat → entryShape e = false → Answers s (.heatCancel u r e) fun t => gone t 2) ∧
    ((subOf s.dev r.val).mode = 2 ∨ (subOf s.dev r.val).mode = 3 →
      (enType e = 2 → Answers s (.islands u r e rd) (LeavesForwarding s (consumed (s.at u) r.val))) ∧
      (enType e = 3 → Answers s (.pours u r e rd) (LeavesForwarding s (consumed (s.at u) r.val))) ∧
      (enType e = 4 → Answers s (.recoat u r e rd) (LeavesForwarding s (consumed (s.at u) r.val))) ∧
      (enType e = 5 → Answers s (.pass u r e) (LeavesForwarding s (consumed (s.at u) r.val))) ∧
      (enType e = 6 → Answers s (.heatClose u r e) fun t =>
        t.nv = s.nv ∧ (subOf t.dev r.val).mode = 0 ∧ t.dev.heats.opening = s.dev.heats.opening ∧
        t.dev.heats.staged = s.dev.heats.staged ∧ t.dev.heats.running = s.dev.heats.running ∧
        LeavesForwarding s (consumed { s.at u with heats := t.dev.heats } r.val) t))

/-- R100 to R104: LINES for a pass of an open, staged or running heat store their lines under it, uncompressed ones as they stand; lines
that have all fired already are dropped; an entry whose heat is not open yet waits at the head of its ring, and one whose heat
was discarded while its lines were being read is consumed.
Where the rules leave the reading open, the statement follows the model's (log entries 19 and 73).
Under conditions on the state and the operands alone, `lines` answers a next state, with its own effect. -/
def Obligations.Lines : Prop :=
  ∀ (s : State) (u : Nat) (r : Fin 4) (e : Entry) (rd : HostRead), entryReady (s.at u) (4 + r.val) e = true →
    linesShape e = true → enIngot e = false → heatPast s.dev (BitVec.ofNat 32 (enHeat e)) = false →
    (∀ (h : Heat) (p : Entry) (bs : List Byte), findHeat s.dev (BitVec.ofNat 32 (enHeat e)) = some h →
      (h.passes.find? fun p => psIndex p == byteField e 26 1) = some p → psRing p = 4 + r.val →
      byteField e 16 4 = byteField e 24 2 * 8192 →
      (nextLine (s.at u) h p ≤ byteField e 20 4 → byteField e 20 4 + byteField e 24 2 ≤ psLines p →
        (∀ k, byteField e 20 4 ≤ k → k < byteField e 20 4 + byteField e 24 2 → holdsLine h (psIndex p) k = false) →
        rd = .ok bs → byteField e 24 2 * 8192 ≤ bs.length →
        Answers s (.lines u r e rd) (LeavesForwarding s
          (updHeat (consumed (s.at u) (4 + r.val)) h.number fun h =>
            storeLines h (psIndex p) (byteField e 20 4) (chunks 8192 (byteField e 24 2) bs)))) ∧
      (byteField e 20 4 + byteField e 24 2 ≤ nextLine (s.at u) h p → rd ≠ .waiting →
        Answers s (.lines u r e rd) (LeavesForwarding s (consumed (s.at u) (4 + r.val))))) ∧
    (findHeat s.dev (BitVec.ofNat 32 (enHeat e)) = none → (ringOf s.dev (4 + r.val)).begun = false →
      AnswersButReports s (.lines u r e rd) (setRing (s.at u) (4 + r.val) { ringOf s.dev (4 + r.val) with
        parked := some (.lines 0 r e rd), begun := false, at0 := ringCons s.dev (4 + r.val), stale := false })) ∧
    (findHeat s.dev (BitVec.ofNat 32 (enHeat e)) = none → (ringOf s.dev (4 + r.val)).begun = true →
      AnswersButReports s (.lines u r e rd) (consumed (s.at u) (4 + r.val)))

/-! ### The cycle and the run of a heat (chapters 01, 04, 05) -/

/-- R22, R475, R476, R629: from boot step 2 on a cycle start brings the tick to the next multiple of 1,250; before, nothing happens.
A device whose engine does not run keeps every gate closed (R473).
At tick 1,100 a device whose frames were not all sent, or not computed, or that found an uncorrectable SRAM error, becomes HALTED with its
steppers stopped and HEALTH_OUT at 0. At tick 1,150 the peer's two pins are sampled and what the ensign rule counts is counted.
Where the rules leave the reading open, the statement follows the model's (log entries 2, 8 and 54).
Under conditions on the state and the operands alone, `cycleStart`, `watchdogCheck`, `peerPinSample` answer a next state each,
with their own effect. -/
def Obligations.Cycle : Prop :=
  (∀ (s : State) (supplies : Vector (BitVec 16) 16) (head : BitVec 24),
    (s.dev.boot.stage < 2 → AnswersButReports s (.cycleStart supplies head) s.now) ∧
    (2 ≤ s.dev.boot.stage → Answers s (.cycleStart supplies head) fun t =>
      t.nv = s.nv ∧ t.dev.tick = (s.dev.cycle + 1) * 1250 ∧ t.dev.cycle = s.dev.cycle + 1) ∧
    (2 ≤ s.dev.boot.stage → s.dev.boot.engine = false → s.dev.boot.haltAt = none → s.dev.enabled pageMon = false →
      s.dev.par.heldWrites = [] → s.dev.mirror = none →
      Answers s (.cycleStart supplies head) fun t =>
        t.nv = s.nv ∧ (∀ a, a / 4096 ≠ pageLgy → reportWord a = false → t.dev.regs.read a = s.dev.regs.read a) ∧
        (∀ k, k < 32 → stationOf t.dev k = { stationOf s.dev k with
          applied := {}, sent := {}, openSince := none, openBefore := (stationOf s.dev k).openSince }) ∧
        SameButReports { s.now with tick := (s.dev.cycle + 1) * 1250, regs := t.dev.regs, stations := t.dev.stations } t.dev)) ∧
  (∀ (s : State) (sent sram : Bool),
    (s.dev.running = true → sent = false ∨ framesMissing s.dev = true ∨ sram = true →
      Answers s (.watchdogCheck sent sram) fun t =>
        t.nv = s.nv ∧ t.dev.par.role = roleHalted ∧ t.dev.boot.healthOut = false ∧ t.dev.stp.moves = [] ∧
        t.dev.stp.waiting = [] ∧ t.dev.tick = (s.at 1100).tick ∧ t.dev.heats = s.dev.heats ∧ t.dev.lanes = s.dev.lanes ∧
        t.dev.mould = s.dev.mould ∧ t.dev.dram = s.dev.dram) ∧
    (s.dev.running = false ∨ sent = true ∧ framesMissing s.dev = false ∧ sram = false →
      AnswersButReports s (.watchdogCheck sent sram) s.now)) ∧
  ∀ (s : State) (health ensign : Bool), s.dev.boot.engine = true →
    AnswersButReports s (.peerPinSample health ensign) { s.at 1150 with par := { s.dev.par with
      health := health, healthBefore := s.dev.par.health, peerEnsign := ensign
      ensignLow := if ensign then 0 else min (s.dev.par.ensignLow + 1) 4000
      unhealthy := if health = s.dev.par.health then min (s.dev.par.unhealthy + 1) 4000 else 0 } }

/-- R23, R262: the deadline at tick 300 and the command frames at tick 800 come once in a cycle each, in this order, on a
device whose engine runs; a device that does not compute the cycle leaves heats, dispatcher, map, ladle and mould as they are.
In the computation of a device that computes: a servo axis that is off puts out nothing, no program is changed, and every output stays in 16 bits;
an axis without samples in time holds its output and its states, and its third hold in a row faults it (R263, R264). A blocked dispatcher decides nothing; else the
one idle station gets the first READY island in order that is eligible (R119). A latched interlock closes every gate of the next
cycle (R229, R463). A station without an island stays where it is, and one in service follows its path to the end (R197).
With the command frames of such a device every partner with a lane that is UP gets one, with its header, CRC and type (R513, R515), the ladle takes in the
budget and gives the cycle's draw (R173), and the map takes what one emitting station deposits in its spot cell, and sweeps one cell (R184, R186).
Where the rules leave the reading open, the statement follows the model's (log entries 8, 77 and 78).
Under conditions on the state and the operands alone, `uplinkDeadline`, `commandFrameSend` answer a next state each, with their
own effect. -/
def Obligations.Computation : Prop :=
  (∀ s : State,
    (s.dev.running = true → s.dev.boot.deadlineOf ≠ s.dev.cycle + 1 →
      Answers s .uplinkDeadline fun t =>
        t.nv = s.nv ∧ t.dev.tick = (s.at 300).tick ∧ t.dev.boot.deadlineOf = s.dev.cycle + 1 ∧
        (s.dev.computes = false → t.dev.heats = s.dev.heats ∧ t.dev.sched = s.dev.sched ∧ t.dev.mould = s.dev.mould)) ∧
    (s.dev.running = false ∨ s.dev.boot.deadlineOf = s.dev.cycle + 1 → AnswersButReports s .uplinkDeadline s.now) ∧
    (s.dev.running = true → s.dev.boot.deadlineOf = s.dev.cycle + 1 → s.dev.boot.sentOf ≠ s.dev.cycle + 1 →
      Answers s .commandFrameSend fun t =>
        t.nv = s.nv ∧ t.dev.tick = (s.at 800).tick ∧ t.dev.boot.sentOf = s.dev.cycle + 1 ∧
        (s.dev.computes = false →
          t.dev.heats = s.dev.heats ∧ t.dev.ladle = s.dev.ladle ∧ t.dev.map = s.dev.map ∧ t.dev.mould = s.dev.mould)) ∧
    (s.dev.running = false ∨ s.dev.boot.deadlineOf ≠ s.dev.cycle + 1 ∨ s.dev.boot.sentOf = s.dev.cycle + 1 →
      AnswersButReports s .commandFrameSend s.now)) ∧
  (∀ s : State, s.dev.computes = true → s.dev.boot.deadlineOf ≠ s.dev.cycle + 1 →
    (∀ j : Fin 96, Answers s .uplinkDeadline fun t =>
      let x := axisOfServo s.dev j.val
      let y := axisOfServo t.dev j.val
      y.active = x.active ∧ y.staged = x.staged ∧ y.bank = x.bank ∧
      (axisRuns s.dev j.val = false → y.iCmd = 0 ∧ y.disabled = true ∧ y.held = false) ∧
      (-32768 ≤ x.iCmd ∧ x.iCmd ≤ 32767 → -32768 ≤ y.iCmd ∧ y.iCmd ≤ 32767)) ∧
    (s.dev.mould.latched = true → Answers s .uplinkDeadline fun t =>
      ∀ n, n < 32 → (stationOf t.dev n).sent.emits = false) ∧
    (∀ x : Run, s.dev.holds = true → s.dev.heats.running = some x →
      (s.dev.enabled pageSch = false ∨ draining s.dev = true ∨ x.passPending = true ∨ x.spread = false →
        Answers s .uplinkDeadline fun t => t.dev.sched.decision = s.dev.sched.decision) ∧
      ∀ (n k : Nat) (before after : List Nat), s.dev.enabled pageSch = true → draining s.dev = false →
        x.passPending = false → x.spread = true → s.dev.fld pageSch 0x044 0 32 = 0 → x.head = none →
        idleStations (trackIdle s.dev) = [n] → x.ready.take (s.dev.fld pageSch 0x100 0 11) = before ++ k :: after →
        (∀ i, i ∈ before → eligibility s.dev x i n none ≠ 0) → eligibility s.dev x k n none = 0 →
        Answers s .uplinkDeadline fun t => t.dev.sched.decision =
          some ⟨s.dev.cycle, k, n, ladleReservation s.dev (islPeak (x.descriptor k)) n, (x.island k).promoted⟩)) ∧
  (∀ (d : Dev) (j : Fin 96),
    let x := axisOfServo d j.val
    let e := servoPost d j.val
    let y := axisOfServo e j.val
    (stationOf d (j.val / 3)).uplink = none → axisRuns d j.val = true → x.fault = false → x.laneLost = false →
    (channelOf d j.val).fault = false →
      y.iCmd = x.iCmd ∧ y.work = x.savedWork ∧ y.acc = x.savedAcc ∧ y.filt = x.savedFilt ∧ y.held = true ∧
      y.holdRun = min 3 (x.holdRun + 1) ∧ e.pennant (pageAxs j.val) 0 = true ∧
      (x.holdRun < 2 → y.fault = false) ∧
      (2 ≤ x.holdRun → y.fault = true ∧ y.cause = 1 ∧ e.pennant (pageAxs j.val) 1 = true) ∧
      ∀ k, k ≠ j.val → axisOfServo e k = axisOfServo d k) ∧
  (∀ (d : Dev) (n : Nat),
    let st := stationOf d n
    let t1 := cycleAt (d.cycle + 1)
    (st.service = false → st.island = none → st.active = false → st.path = none → st.motion ≠ 2 →
      stationOf (trajectory d n) n = { st with runs := [], next := st.cmd.rest }) ∧
    (∀ p, st.service = true → st.path = some p → p.start ≤ t1 →
      (t1 < p.finish →
        (stationOf (trajectory d n) n).path = some p ∧ (stationOf (trajectory d n) n).next = pathSetpoint d n p t1) ∧
      (p.finish ≤ t1 → p.evx = 0 → p.evy = 0 →
        (stationOf (trajectory d n) n).path = none ∧ (stationOf (trajectory d n) n).next = (pathSetpoint d n p t1).rest)) ∧
    ∀ k, k ≠ n → st.service = true → stationOf (trajectory d n) k = stationOf d k) ∧
  ∀ s : State, s.dev.running = true → s.dev.boot.deadlineOf = s.dev.cycle + 1 → s.dev.boot.sentOf ≠ s.dev.cycle + 1 →
    (s.dev.computes = false → Answers s .commandFrameSend fun t =>
      ∀ l type hdr check payload, Out.frame l type hdr check payload ∉ t.dev.out) ∧
    (s.dev.computes = true → Answers s .commandFrameSend fun t =>
      (∀ p l, p < 48 → partnerLane s.dev p = some l → ∃ payload,
        let count := if p < 32 then 2 else 14
        Out.frame l commandHdr (frameHeader s.dev.cycle (frameRole s.dev) (boolNat s.dev.par.sideB) s.dev.par.epoch.toNat
          (laneOf s.dev l).rev count 0) (payloadCrc payload count) payload ∈ t.dev.out ∧
        t.dev.par.frameCrc.get (same 0) p = BitVec.ofNat 32 (payloadCrc payload count)) ∧
      (let widths := match s.dev.lhd.applied with | some o => o.widths | none => 0
       let draw := stationsDraw s.dev + strobeDraw s.dev widths
       let level : Int := s.dev.ladle.level + ladleBudget s.dev * 5 - draw
       t.dev.ladle.level = min level.toNat (ladleCapacity s.dev) ∧ t.dev.ladle.lastDraw = draw ∧
       t.dev.ladle.held = s.dev.ladle.held ∧
       (level < 0 → t.dev.pennant pageLdl 1 = true) ∧
       (s.dev.ladle.short = false → t.dev.ladle.short = decide (t.dev.ladle.level < ladleLow s.dev)) ∧
       (s.dev.ladle.short = true → t.dev.ladle.short = decide (t.dev.ladle.level < ladleHigh s.dev))) ∧
      (s.dev.enabled pageTmp = false → t.dev.map = { s.dev.map with deposited := 0 }) ∧
      (∀ n, n < 32 → s.dev.enabled pageTmp = true → s.dev.lhd.applied = none → (stationOf s.dev n).applied.openTicks ≠ 0 →
        (∀ k, k < 32 → k ≠ n → (stationOf s.dev k).applied.openTicks = 0) →
        let f := (stationOf s.dev n).applied
        let total := s.dev.map.stations.get (same 0) n + f.power * f.openTicks
        let mj := total / 8000000
        let cell := spotCellIndex s.dev n
        let swept := mapSweep s.dev
        let upd (c add : Nat) : Nat × MapCell := (c, ⟨min (cellEnergy s.dev c + add) 65535, mapNow s.dev⟩)
        t.dev.map.stations.get (same 0) n = total % 8000000 ∧ t.dev.map.deposited = mj ∧
        t.dev.map.cells = s.dev.map.cells ∧ t.dev.map.columns = s.dev.map.columns ∧
        t.dev.map.updates = s.dev.map.updates ++
          (if mj = 0 then [upd swept 0] else if cell = swept then [upd cell mj]
           else if cell < swept then [upd cell mj, upd swept 0] else [upd swept 0, upd cell mj])))

/-- R13 to R21, R91, R394, R488: the oldest staged heat starts at a cycle start once no heat runs and the boundary before it is past; the platform is
to go down by its LOWER_BY. On a device that is OUT or JOINING the counts of the heat begin anew (the model's choice, log entry 92). The boundary, declared at a cycle start, ends the heat, frees its slot, and releases the power held.
Where the rules leave the reading open, the statement follows the model's (log entry 36).
Under conditions on the state and the operands alone, `heatStart`, `heatBoundary` answer a next state each, with their own
effect. -/
def Obligations.HeatRun : Prop :=
  (∀ (s : State) (h : Heat) (rest : List Heat) (rc : BitVec 512), s.dev.computes = true → s.dev.heats.running = none →
    s.dev.heats.staged = h :: rest → h.recoat = some rc → (∀ b, s.dev.heats.boundaryAt = some b → b < s.dev.cycle) →
    s.dev.tick % 1250 = 0 → s.dev.heats.settingsOf = none → s.dev.cal.run = none →
    Answers s .heatStart fun t =>
      t.nv = s.nv ∧ t.dev.heats.running = some { heat := h, started := s.dev.cycle } ∧ t.dev.heats.staged = rest ∧
      t.dev.heats.current = h.number ∧ t.dev.heats.everStarted = true ∧ t.dev.heats.opening = s.dev.heats.opening ∧
      t.dev.heats.accepted = s.dev.heats.accepted ∧ t.dev.stp.platformZ = s.dev.stp.platformZ - rcLower rc ∧
      (∃ a b, t.dev.stp.waiting = s.dev.stp.waiting ++ [a, b] ∧ a.group = 1 ∧ b.group = 2 ∧ a.phase = 1 ∧ b.phase = 1) ∧
      t.dev.stp.moves = s.dev.stp.moves ∧ t.dev.stations = s.dev.stations ∧ t.dev.ladle = s.dev.ladle) ∧
  (∀ s : State, heatStartsElsewhere s.dev = false →
    (s.dev.computes = false ∨ s.dev.heats.running.isSome = true ∨ s.dev.heats.staged = [] ∨ s.dev.tick % 1250 ≠ 0) →
    AnswersButReports s .heatStart s.now) ∧
  (∀ s : State, s.dev.running = true → s.dev.tick % 1250 = 0 → (s.dev.par.role = roleOut ∨ s.dev.par.role = roleJoining) →
    Answers s .heatStart fun t =>
      t.nv = s.nv ∧ (∀ a, isHeatCount a = true → t.dev.regs.read a = resetWord a) ∧ t.dev.par = s.dev.par ∧
      t.dev.heats = s.dev.heats ∧ t.dev.stations = s.dev.stations ∧ t.dev.stp = s.dev.stp ∧ t.dev.ladle = s.dev.ladle) ∧
  (∀ (s : State) (x : Run), s.dev.heats.running = some x → boundaryDue s.dev = true → s.dev.heats.staged ≠ [] →
    s.dev.par.swapRequested = false →
    AnswersButReports s .heatBoundary { s.now with
      heats := { s.dev.heats with running := none, boundaryAt := some s.dev.cycle, settingsOf := some s.dev.cycle }
      regs := { s.dev.regs with boundaryHeld := s.dev.flag pageDev 0x040 0 }
      ladle := { s.dev.ladle with held := [] }, sched := { s.dev.sched with decision := none } }) ∧
  (∀ d : Dev, boundaryDue d = true → d.tick % 1250 = 0) ∧
  ∀ s : State, boundaryDue s.dev = false → AnswersButReports s .heatBoundary s.now

/-- R168 to R171: the pending pass waits until its reservation fits the budget beside what is held, is refused
where it alone exceeds the budget, and needs no test while LDL is disabled; the return stroke then begins one cycle later. R354: once its last strobe is past the pass ends: its lines leave the chip, the next pass has its turn, and its power is released at the start of the next cycle.
Where the rules leave the reading open, the statement follows the model's (log entries 37 and 54).
Under conditions on the state and the operands alone, `passTest`, `passEnd` answer a next state each, with their own effect. -/
def Obligations.Passes : Prop :=
  (∀ (s : State) (x : Run) (e : Entry), s.dev.heats.running = some x → x.header = some e → x.passPending = true →
    x.strokeAt = none → s.dev.computes = true → s.dev.tick % 1250 ≤ 750 →
    let go (y : Run) : Dev := { s.at 300 with heats := { s.dev.heats with running := some y } }
    (s.dev.enabled pageLdl = false →
      AnswersButReports s .passTest (go { x with strokeAt := some (s.dev.cycle + 1) })) ∧
    (s.dev.enabled pageLdl = true → ladleBudget s.dev < psNeed e →
      Answers s .passTest fun t =>
        t.nv = s.nv ∧ t.dev.pennant pageLdl 2 = true ∧
        SameButReports (go { x with strokeAt := some (s.dev.cycle + 1), passRefused := true }) t.dev) ∧
    (s.dev.enabled pageLdl = true → psNeed e ≤ ladleBudget s.dev → s.dev.ladle.short = false →
      ladleHeld s.dev + psNeed e ≤ ladleBudget s.dev →
      AnswersButReports s .passTest (go { x with strokeAt := some (s.dev.cycle + 1) })) ∧
    (s.dev.enabled pageLdl = true → psNeed e ≤ ladleBudget s.dev →
      s.dev.ladle.short = true ∨ ladleBudget s.dev < ladleHeld s.dev + psNeed e →
      AnswersButReports s .passTest (s.at 300))) ∧
  (∀ (s : State) (u : Nat) (f : Firing) (x : Run), s.dev.lhd.firing = some f → s.dev.heats.running = some x →
    (s.dev.computes = true → passOver (s.at u) f = true → f.unpatched = [] → psLines f.header + 8 ≤ f.next →
      AnswersButReports s (.passEnd u) { (s.at u).setFld pageLhd 0x060 0 16 0 with
        lhd := { s.dev.lhd with firing := none, slots := [] }
        heats := { s.dev.heats with running := some { x with
          pass := x.pass + 1, passFreeAt := some (s.dev.cycle + 1), passRefused := false
          fired := if f.refused then x.fired else x.fired + 1 } } }) ∧
    (s.dev.computes = false ∨ passOver (s.at u) f = false → AnswersButReports s (.passEnd u) (s.at u))) ∧
  ∀ (d : Dev) (x : Run) (c : Nat), d.heats.running = some x → x.passFreeAt = some c →
    passFree d = if c ≤ d.cycle then { d with
        heats := { d.heats with running := some { x with passHeld := false, passFreeAt := none } }
        ladle := { d.ladle with held := d.ladle.held.set (same 0) passHolder 0 } }
      else d

/-- R158, R159, R194, R226, R151: a stall that reaches its limit raises STALLED and is counted afresh; ABANDON makes every
READY island ABANDONED; a pour record enters the prefetch buffer while it has room; a power loop gone stale starts
again; a station that may resume leaves its hold. R271, R272: SRV_TRACE_ARM empties and arms the trace channels of its mask, whose
samples lost before stay marked, SRV_TRACE_FIRE marks those of its mask to fire in this cycle; the
others stay as they are.
Where the rules leave the reading open, the statement follows the model's (log entries 53 and 85).
Under conditions on the state and the operands alone, `dispatchStalled`, `holdResume`, `loopStale`, `schRunAbandon`,
`pourPrefetch`, `srvTraceArm`, `srvTraceFire` answer a next state each, with their own effect. -/
def Obligations.Dispatcher : Prop :=
  ((∀ s : State,
    (s.dev.running = true → s.dev.holds = true → 1 ≤ s.dev.fld pageSch 0x054 0 32 →
      s.dev.fld pageSch 0x054 0 32 ≤ s.dev.sched.stall → s.dev.flag pageSch 0x040 0 = false →
      (∃ x, s.dev.heats.running = some x ∧ x.ready ≠ []) →
      Answers s .dispatchStalled fun t =>
        t.nv = s.nv ∧ t.dev.pennant pageSch 1 = true ∧
        SameButReports { s.now with sched := { s.dev.sched with stall := 0, failBase := failCounts s.dev } } t.dev) ∧
    (s.dev.sched.stall < s.dev.fld pageSch 0x054 0 32 ∨ s.dev.heats.running = none →
      AnswersButReports s .dispatchStalled s.now)) ∧
  (∀ s : State, s.dev.computes = true →
    (s.dev.heats.running = none →
      Answers s .schRunAbandon fun t => t.nv = s.nv ∧ t.dev.pennant pageSch 5 = true ∧ SameButReports s.now t.dev) ∧
    (∀ x, s.dev.heats.running = some x →
      Answers s .schRunAbandon fun t =>
        t.nv = s.nv ∧ t.dev.pennant pageSch 5 = true ∧ t.dev.stations = s.dev.stations ∧ t.dev.stp = s.dev.stp ∧
        (∃ y, t.dev.heats.running = some y ∧ y.abandon = true ∧ y.heat = x.heat ∧ y.stroke = x.stroke ∧ y.pass = x.pass ∧
          (∀ k, k ∈ x.ready → (y.island k).state = 6) ∧ ∀ k, k ∉ x.ready → (y.island k).state = (x.island k).state))) ∧
  (∀ (s : State) (n : Fin 32), (stationOf s.dev n.val).island.isSome = true →
    let st := stationOf s.dev n.val
    (st.loaded < (islandPoursOf s.dev n.val).length → st.loaded - st.pour < 256 →
      AnswersButReports s (.pourPrefetch n) (setStation s.now n.val { st with loaded := st.loaded + 1 })) ∧
    ((islandPoursOf s.dev n.val).length ≤ st.loaded ∨ 256 ≤ st.loaded - st.pour →
      AnswersButReports s (.pourPrefetch n) s.now)) ∧
  (∀ (s : State) (n : Fin 32) (p : BitVec 256), s.dev.computes = true →
    (islandPoursOf s.dev n.val)[(stationOf s.dev n.val).pour]? = some p → s.dev.flag (pageStn n.val) 0x048 0 = true →
    8 * s.dev.fld (pageStn n.val) 0x124 0 8 ≤ (stationOf s.dev n.val).openCycles →
    Answers s (.loopStale n) fun t =>
      t.nv = s.nv ∧ t.dev.pennant (pageStn n.val) 3 = true ∧
      SameButReports (setStation s.now n.val { stationOf s.dev n.val with
        openCycles := 0
        kCam := if s.dev.fld (pageStn n.val) 0x048 1 1 = 1 then profileReg s.dev n.val (pourProfile p) 12 0 16
          else (stationOf s.dev n.val).kCam }) t.dev) ∧
  ∀ (s : State) (n : Fin 32) (p : BitVec 256) (c : HoldCause), s.dev.computes = true →
    (islandPoursOf s.dev n.val)[(stationOf s.dev n.val).pour]? = some p → (stationOf s.dev n.val).motion = 5 →
    (stationOf s.dev n.val).holding = true → (stationOf s.dev n.val).path = none →
    (stationOf s.dev n.val).hold = some c → c ≠ .starved →
    (mayResume (s.at 300) n.val = true → Answers s (.holdResume n) fun t =>
      t.nv = s.nv ∧ (stationOf t.dev n.val).hold = none ∧ (∀ k, k ≠ n.val → stationOf t.dev k = stationOf s.dev k) ∧
      t.dev.heats = s.dev.heats ∧ t.dev.ladle = s.dev.ladle) ∧
    (mayResume (s.at 300) n.val = false → AnswersButReports s (.holdResume n) (s.at 300))) ∧
  (∀ (s : State) (mask : Word), s.dev.computes = true →
    (Answers s (.srvTraceArm mask) fun t =>
      t.nv = s.nv ∧ (∀ c, traceOf t.dev c =
        if c < 16 ∧ bit mask.toNat c = true then
          { armed := true, armedAt := s.dev.cycle, gap := (traceOf s.dev c).gap, told := (traceOf s.dev c).told }
        else traceOf s.dev c) ∧
      SameButReports { s.now with traces := t.dev.traces } t.dev) ∧
    Answers s (.srvTraceFire mask) fun t =>
      t.nv = s.nv ∧ (∀ c, traceOf t.dev c =
        if c < 16 ∧ bit mask.toNat c = true then { traceOf s.dev c with fireNow := true } else traceOf s.dev c) ∧
      SameButReports { s.now with traces := t.dev.traces } t.dev)

/-! ### Steppers (chapter 11) -/

/-- The result of a stepper command in STP_RESULT, and nothing but the stepper block changed; no axis has moved yet. -/
def Sys2Proof.Machine.commandTaken (s t : State) (mask : BitVec 12) (result : Nat) : Prop :=
  t.nv = s.nv ∧ t.dev.regs.read (wordAddr pageStp 0x044) = word (result + mask.toNat <<< 16) ∧
    (∀ a, a ≠ wordAddr pageStp 0x044 → reportWord a = false → t.dev.regs.read a = s.dev.regs.read a) ∧
    (∀ x, (axisOf t.dev x).pos = (axisOf s.dev x).pos) ∧
    SameButReports { s.now with regs := t.dev.regs, stp := t.dev.stp } t.dev

/-- R395, R396, R399, R402, R404, R406: with no move in progress an accepted POSITION command starts one move of the lead's
travel, a VELOCITY command one to the nearest limit; STOP brings the planned end of the move of its axes near. A command that is refused
starts nothing and its reason stands in STP_RESULT. An empty mask does nothing.
Where the rules leave the reading open, the statement follows the model's (log entry 56).
Under conditions on the state and the operands alone, `stpMovePosition`, `stpMoveVelocity`, `stpMoveStop` answer a next state
each, with their own effect. -/
def Obligations.StepperCommands : Prop :=
  (∀ (s : State) (mask : BitVec 12), s.dev.running = true → s.dev.enabled pageStp = true → mask ≠ 0 → s.dev.stp.moves = [] →
    (moveResult s.dev mask.toNat 0 = 0 → (∃ x, bit mask.toNat x = true ∧ x < 12 ∧ ∀ y, y < 12 → bit mask.toNat y = true →
        saxTarget s.dev y ≠ (axisOf s.dev y).pos) →
      Answers s (.stpMovePosition mask) fun t =>
        commandTaken s t mask 0 ∧ ∃ m, t.dev.stp.moves = [m] ∧ m.mask = mask ∧ m.kind = 0 ∧ m.heat = none ∧ m.issued = 0 ∧
          bit mask.toNat m.lead = true ∧ m.total = (saxTarget s.dev m.lead - (axisOf s.dev m.lead).pos).natAbs ∧
          m.last = m.total ∧ m.negative = decide (saxTarget s.dev m.lead < (axisOf s.dev m.lead).pos) ∧
          m.began = s.dev.cycle * 1250) ∧
    (moveResult s.dev mask.toNat 1 = 0 →
      stepsToLimit s.dev mask.toNat (saxVdir s.dev ((maskAxes mask.toNat).headD 0)) ≠ 0 →
      Answers s (.stpMoveVelocity mask) fun t =>
        commandTaken s t mask 0 ∧ ∃ m, t.dev.stp.moves = [m] ∧ m.mask = mask ∧ m.kind = 1 ∧ m.heat = none ∧ m.issued = 0 ∧
          m.negative = saxVdir s.dev ((maskAxes mask.toNat).headD 0) ∧
          m.total = stepsToLimit s.dev mask.toNat m.negative ∧ m.last = m.total ∧ m.began = s.dev.cycle * 1250) ∧
    (moveResult s.dev mask.toNat 2 = 0 →
      Answers s (.stpMoveStop mask) fun t => commandTaken s t mask 0 ∧ t.dev.stp.moves = [])) ∧
  (∀ (s : State) (mask : BitVec 12) (m : Move), s.dev.running = true → s.dev.enabled pageStp = true → mask ≠ 0 →
    s.dev.stp.moves = [m] → m.mask = mask → m.finished = false → m.stopping = false → moveResult s.dev mask.toNat 2 = 0 →
    Answers s (.stpMoveStop mask) fun t =>
      commandTaken s t mask 0 ∧
      t.dev.stp.moves = [{ m with
        last := min m.last (m.issued + m.nStop), nextVel := none, stopFrom := s.dev.cycle * 1250 }]) ∧
  (∀ (s : State) (mask : BitVec 12) (k : Fin 3), s.dev.running = true → s.dev.enabled pageStp = true → mask ≠ 0 →
    s.dev.stp.moves = [] → moveResult s.dev mask.toNat k.val ≠ 0 →
    Answers s (if k.val = 0 then .stpMovePosition mask else if k.val = 1 then .stpMoveVelocity mask else .stpMoveStop mask)
      fun t => commandTaken s t mask (moveResult s.dev mask.toNat k.val) ∧ t.dev.stp = s.dev.stp) ∧
  ∀ s : State, AnswersButReports s (.stpMovePosition 0) s.now ∧ AnswersButReports s (.stpMoveVelocity 0) s.now ∧
    AnswersButReports s (.stpMoveStop 0) s.now

/-- R399, R402, R458: at its tick the lead's next step brings every axis of the move to its place on the line from start to target,
and only those axes move; before that tick nothing happens. A move whose last step is issued ends, and its axes
stay where they are. Waiting heat moves start when their axes are free, enabled, inside their limits and allowed to step, and keep waiting
otherwise.
Where the rules leave the reading open, the statement follows the model's (log entries 37 and 56).
Under conditions on the state and the operands alone, `heatMoveStart`, `stepperMoveEnd`, `stepIssue` answer a next state each,
with their own effect. -/
def Obligations.StepperMotion : Prop :=
  (∀ (s : State) (u : Nat) (x : Fin 12) (m : Move), s.dev.stp.moves = [m] → m.mask.getLsbD x.val = true → m.finished = false →
    (∀ y, y ∈ m.axes → mouldStep s.dev y ≠ 0) →
    (stepTick (s.at u) m ≤ (s.at u).tick →
      Answers s (.stepIssue u x) fun t =>
        t.nv = s.nv ∧
        (∀ y, (axisOf t.dev y).pos =
          if y ∈ m.axes then followerPos (axisOf s.dev y).start (axisOf s.dev y).travel (m.issued + 1) m.total
          else (axisOf s.dev y).pos) ∧
        (∃ n, t.dev.stp.moves = [n] ∧ n.issued = m.issued + 1 ∧ n.mask = m.mask ∧ n.lead = m.lead ∧ n.total = m.total ∧
          n.last = m.last ∧ n.heat = m.heat) ∧
        t.dev.heats = s.dev.heats ∧ t.dev.mould = s.dev.mould ∧ t.dev.stations = s.dev.stations) ∧
    ((s.at u).tick < stepTick (s.at u) m → AnswersButReports s (.stepIssue u x) (s.at u))) ∧
  (∀ (s : State) (u : Nat) (x : Fin 12) (m : Move), s.dev.stp.moves = [m] → m.mask.getLsbD x.val = true →
    (m.finished = true → m.heat = none → m.kind = 0 → m.aborted = false → m.nextVel = none →
      (∀ y, y ∈ m.axes → (axisOf s.dev y).next = none) →
      Answers s (.stepperMoveEnd u x) fun t =>
        t.nv = s.nv ∧ t.dev.stp.moves = [] ∧ (∀ y, axisOf t.dev y = axisOf s.dev y) ∧
        SameButReports { s.at u with stp := t.dev.stp } t.dev) ∧
    (m.finished = false → AnswersButReports s (.stepperMoveEnd u x) (s.at u))) ∧
  (∀ (s : State) (u : Nat) (x : Fin 12) (m : Move) (h : HeatMove) (y : Run), s.dev.stp.moves = [m] →
    m.mask.getLsbD x.val = true → m.finished = true → m.heat = some h → m.kind = 0 → m.aborted = false → m.total ≤ m.issued →
    h.group = 0 → s.dev.heats.running = some y → y.stroke = 1 →
    AnswersButReports s (.stepperMoveEnd u x) { s.at u with
      stp := { s.dev.stp with moves := [] }
      heats := { s.dev.heats with running := some { y with stroke := 2, arrived := true } } }) ∧
  ∀ (s : State) (h : HeatMove), s.dev.computes = true → s.dev.stp.waiting = [h] → s.dev.stp.moves = [] →
    h.since ≤ s.dev.cycle * 1250 → (∀ x, s.dev.heats.running = some x → x.stroke ≠ 0) →
    (heatMoveBlocked s.dev h = none → (planTravel s.dev (groupMask h.group) h.targets).2.2 ≠ 0 →
      Answers s .heatMoveStart fun t =>
        t.nv = s.nv ∧ t.dev.stp.waiting = [] ∧ (∃ m, t.dev.stp.moves = [m] ∧ m.heat = some h ∧ m.kind = 0 ∧ m.issued = 0 ∧
          m.mask = BitVec.ofNat 12 (groupMask h.group)) ∧ (∀ x, (axisOf t.dev x).pos = (axisOf s.dev x).pos) ∧
        SameButReports { s.now with stp := t.dev.stp } t.dev) ∧
    (∀ c, heatMoveBlocked s.dev h = some c →
      Answers s .heatMoveStart fun t =>
        t.nv = s.nv ∧ t.dev.stp = { s.dev.stp with waiting := [{ h with told := true }] } ∧
        SameButReports { s.now with stp := t.dev.stp } t.dev)

/-- R410 to R414: the compare of an axis is armed, or disarmed; a coil leaves its drive when its sense reaches the threshold after blanking, drives anew where its sign changed
meanwhile, ends its fast decay slow, and drives again in the sign of its reference; outputs that wait for the dead time turn on after it; an axis at rest
takes its holding current. The events of one coil change no other axis, and a disabled axis ignores them.
Where the rules leave the reading open, the statement follows the model's (log entry 57).
Under conditions on the state and the operands alone, `saxCmpArm`, `chopperSenseTrip`, `chopperBlankEnd`, `chopperOffTimeEnd`,
`gateDeadTimeEnd`, `holdCurrentTimeout` answer a next state each, with their own effect. -/
def Obligations.Coils : Prop :=
  (∀ (s : State) (u : Nat) (x : Fin 12) (c : Fin 2), s.dev.enabled (pageSax x.val) = true →
    let k := coilOf (axisOf s.dev x.val) c.val
    let now (k' : Coil) : Dev := setAxis (s.at u) x.val (setCoil (axisOf s.dev x.val) c.val k')
    let entered (m : CoilMode) : Coil := { k with mode := m, gates := k.gates &&& m.gates, rising := m.gates &&& ~~~k.gates }
    let decayed (n : Bool) : CoilMode := if hasFast s.dev x.val then .fast n else .slow
    (∀ n, k.mode = .drive n → k.blank = false →
      AnswersButReports s (.chopperSenseTrip u x c) (now (entered (decayed n)))) ∧
    (k.blank = true ∨ (∀ n, k.mode ≠ .drive n) → AnswersButReports s (.chopperSenseTrip u x c) (now k)) ∧
    (∀ n, k.mode = .drive n → k.blank = true → n = k.negative →
      AnswersButReports s (.chopperBlankEnd u x c false) (now { k with blank := false })) ∧
    (∀ n, k.mode = .drive n → k.blank = true → n = k.negative →
      AnswersButReports s (.chopperBlankEnd u x c true) (now { entered (decayed n) with blank := false })) ∧
    (∀ n above, k.mode = .drive n → k.blank = true → n ≠ k.negative → k.thr ≠ 0 →
      AnswersButReports s (.chopperBlankEnd u x c above)
        (now { entered (.drive k.negative) with blank := true, waiting := false })) ∧
    (∀ n, k.mode = .fast n → AnswersButReports s (.chopperOffTimeEnd u x c) (now (entered .slow))) ∧
    (k.mode = .slow → k.waiting = false → k.thr ≠ 0 →
      AnswersButReports s (.chopperOffTimeEnd u x c) (now { entered (.drive k.negative) with blank := true, waiting := false })) ∧
    AnswersButReports s (.gateDeadTimeEnd u x c) (now { k with gates := k.gates ||| k.rising, rising := 0 })) ∧
  (∀ (s : State) (u : Nat) (x : Fin 12) (c : Fin 2) (b : Bool), s.dev.enabled (pageSax x.val) = false →
    AnswersButReports s (.chopperSenseTrip u x c) (s.at u) ∧ AnswersButReports s (.chopperBlankEnd u x c b) (s.at u) ∧
    AnswersButReports s (.chopperOffTimeEnd u x c) (s.at u) ∧ AnswersButReports s (.gateDeadTimeEnd u x c) (s.at u)) ∧
  (∀ (s : State) (x : Fin 12), axisMoving s.dev x.val = false → (axisOf s.dev x.val).holding = false →
    (∀ k, (axisOf s.dev x.val).lastStep = some k →
      k + 1250 * bits (saxWord s.dev x.val 0x12C) 0 16 < (s.dev.cycle + 1) * 1250) →
    Answers s (.holdCurrentTimeout x) fun t =>
      t.nv = s.nv ∧ (axisOf t.dev x.val).holding = true ∧ (axisOf t.dev x.val).pos = (axisOf s.dev x.val).pos ∧
      axisOf t.dev x.val = coilThresholds s.dev x.val { axisOf s.dev x.val with holding := true } ∧
      (∀ y, y ≠ x.val → axisOf t.dev y = axisOf s.dev y) ∧
      SameButReports { s.now with tick := t.dev.tick, stp := t.dev.stp } t.dev) ∧
  ∀ (s : State) (x : Fin 12) (v : Word),
    (v.getLsbD 0 = false → AnswersButReports s (.saxCmpArm x v)
      (setAxis (s.now.setReg (pageSax x.val) 0x054 (v.toNat % 16)) x.val { axisOf s.dev x.val with armed := false })) ∧
    (v.getLsbD 0 = true → bits v.toNat 1 2 = 0 → (axisOf s.dev x.val).pos < signed 32 (saxLive s.dev x.val 0x050) →
      AnswersButReports s (.saxCmpArm x v)
        (setAxis (s.now.setReg (pageSax x.val) 0x054 (v.toNat % 16)) x.val { axisOf s.dev x.val with
          armed := true, cmpPos := signed 32 (saxLive s.dev x.val 0x050), cmpDir := 0 }))

/-! ### Lanes and feedback (chapters 08, 15) -/

/-- R281, R368, R492, R516, R517, R520, R521: an uplink frame whose header, revision, reserved bits and CRC are right and that is whole by
tick 300 gives the cycle its payload; a later one is counted as late; one with a fault is discarded and counted
as bad; without a lane that is UP nothing arrives.
Where the rules leave the reading open, the statement follows the model's (log entry 59).
Under conditions on the state and the operands alone, `stationUplinkFrame`, `lineHeadUplinkFrame` answer a next state each, with
their own effect. -/
def Obligations.UplinkFrames : Prop :=
  (∀ (s : State) (u : Nat) (n : Fin 32) (hdr : BitVec 56) (payload : BitVec 256) (chk : Long) (l : Nat),
    partnerLane s.dev n.val = some l →
    let legal := uplinkOk (s.at u) l 4 hdr payload.toNat chk = true ∧ bits payload.toNat 219 37 = 0 ∧
      ((laneOf s.dev l).rev = 1 → bits payload.toNat 214 5 = 0) ∧ ((laneOf s.dev l).rev ≠ 1 → bits payload.toNat 214 2 ≠ 3)
    (legal → (s.at u).tick % 1250 ≤ 300 → Answers s (.stationUplinkFrame u n hdr payload chk) fun t =>
      t.nv = s.nv ∧ stationOf t.dev n.val = { stationOf s.dev n.val with uplink := some payload } ∧
      (∀ k, k ≠ n.val → stationOf t.dev k = stationOf s.dev k) ∧
      SameButReports { s.at u with regs := t.dev.regs, stations := t.dev.stations, par := t.dev.par } t.dev) ∧
    (legal → 300 < (s.at u).tick % 1250 → Answers s (.stationUplinkFrame u n hdr payload chk) fun t =>
      t.nv = s.nv ∧ t.dev.rfld (pageLan l) 0x070 0 32 = min (s.dev.rfld (pageLan l) 0x070 0 32 + 1) 0xFFFFFFFF ∧
      SameButReports { s.at u with regs := t.dev.regs, par := t.dev.par } t.dev) ∧
    (¬legal → Answers s (.stationUplinkFrame u n hdr payload chk) fun t =>
      t.nv = s.nv ∧ t.dev.rfld (pageLan l) 0x06C 0 32 = min (s.dev.rfld (pageLan l) 0x06C 0 32 + 1) 0xFFFFFFFF ∧
      t.dev.pennant (pageLan l) 4 = true ∧
      SameButReports { s.at u with regs := t.dev.regs, lanes := t.dev.lanes } t.dev)) ∧
  (∀ (s : State) (u : Nat) (m : Fin 16) (hdr : BitVec 56) (payload : BitVec 960) (chk : Long) (l : Nat),
    partnerLane s.dev (32 + m.val) = some l → uplinkOk (s.at u) l 15 hdr payload.toNat chk = true →
    bits payload.toNat 898 62 = 0 → ((laneOf s.dev l).rev = 1 → bits payload.toNat 893 5 = 0) →
    ((laneOf s.dev l).rev ≠ 1 → bits payload.toNat 893 2 ≠ 3) → (s.at u).tick % 1250 ≤ 300 →
    Answers s (.lineHeadUplinkFrame u m hdr payload chk) fun t =>
      t.nv = s.nv ∧ moduleOf t.dev m.val = { moduleOf s.dev m.val with up := some payload } ∧
      (∀ k, k ≠ m.val → moduleOf t.dev k = moduleOf s.dev k) ∧
      SameButReports { s.at u with regs := t.dev.regs, lhd := t.dev.lhd, par := t.dev.par } t.dev) ∧
  (∀ (s : State) (u : Nat) (m : Fin 16) (hdr : BitVec 56) (payload : BitVec 960) (chk : Long) (l : Nat),
    partnerLane s.dev (32 + m.val) = some l →
    let legal := uplinkOk (s.at u) l 15 hdr payload.toNat chk = true ∧ bits payload.toNat 898 62 = 0 ∧
      ((laneOf s.dev l).rev = 1 → bits payload.toNat 893 5 = 0) ∧ ((laneOf s.dev l).rev ≠ 1 → bits payload.toNat 893 2 ≠ 3)
    (legal → 300 < (s.at u).tick % 1250 → Answers s (.lineHeadUplinkFrame u m hdr payload chk) fun t =>
      t.nv = s.nv ∧ t.dev.rfld (pageLan l) 0x070 0 32 = min (s.dev.rfld (pageLan l) 0x070 0 32 + 1) 0xFFFFFFFF ∧
      SameButReports { s.at u with regs := t.dev.regs, par := t.dev.par } t.dev) ∧
    (¬legal → Answers s (.lineHeadUplinkFrame u m hdr payload chk) fun t =>
      t.nv = s.nv ∧ t.dev.rfld (pageLan l) 0x06C 0 32 = min (s.dev.rfld (pageLan l) 0x06C 0 32 + 1) 0xFFFFFFFF ∧
      t.dev.pennant (pageLan l) 4 = true ∧
      SameButReports { s.at u with regs := t.dev.regs, lanes := t.dev.lanes } t.dev)) ∧
  ∀ (s : State) (u : Nat) (n : Fin 32) (m : Fin 16) (hdr : BitVec 56) (a : BitVec 256) (b : BitVec 960) (chk : Long),
    (partnerLane s.dev n.val = none → AnswersButReports s (.stationUplinkFrame u n hdr a chk) (s.at u)) ∧
    (partnerLane s.dev (32 + m.val) = none → AnswersButReports s (.lineHeadUplinkFrame u m hdr b chk) (s.at u))

/-- R282, R283, R285, R286, R289, R296, R301: a device that computes for itself takes each local sample at its tick into the channel's trail and touches no other channel: the
position of an enabled channel in service moves by the predicted step and the phase's difference from it, its first sample gives the phase alone. A
standby only keeps its phase for the comparison. A channel without an edge for TIMEOUT cycles stands still. In its window an emulation output
gives the edges it owes from samples before the window, at most its number, evenly spread, and takes them from its backlog.
Where the rules leave the reading open, the statement follows the model's (log entry 58).
Under conditions on the state and the operands alone, `localChannelSample`, `standstillTimeout`, `emuEmission` answer a next
state each, with their own effect. -/
def Obligations.Feedback : Prop :=
  (∀ (s : State) (u : Nat) (ch : Fin 8) (smp : RawSample),
    (s.dev.running = true → s.dev.par.role ≠ roleStandby → Answers s (.localChannelSample u ch smp) fun t =>
      t.nv = s.nv ∧
      (channelOf t.dev (96 + ch.val)).trail.head? = some ((s.at u).tick / 125 * 125, (channelOf t.dev (96 + ch.val)).pos) ∧
      (∀ k, k ≠ 96 + ch.val → channelOf t.dev k = channelOf s.dev k) ∧
      t.dev.heats = s.dev.heats ∧ t.dev.stations = s.dev.stations ∧ t.dev.stp = s.dev.stp) ∧
    (s.dev.running = true → s.dev.par.role ≠ roleStandby → s.dev.enabled (pageFch (96 + ch.val)) = true →
      let x := channelOf s.dev (96 + ch.val)
      let v := correctSample s.dev (96 + ch.val) smp
      let m := amplitudeOf s.dev (96 + ch.val) v.1 v.2
      let phi := phaseOf v.1 v.2 x.phi
      let now := (s.at u).tick / 125 * 125
      let pred := (2 * x.v1 * max 1 ((now - x.time) / 125 : Nat) + 655360) / 1310720
      let diff := ((phi : Int) - x.phi - pred + 2048) % 4096 - 2048
      x.fault = false → s.dev.fld (pageFch (96 + ch.val)) 0x10C 0 16 ≤ m → m ≤ s.dev.fld (pageFch (96 + ch.val)) 0x10C 16 16 →
      smp.index = false → Answers s (.localChannelSample u ch smp) fun t =>
        t.nv = s.nv ∧ (channelOf t.dev (96 + ch.val)).phi = phi ∧ (channelOf t.dev (96 + ch.val)).time = now ∧
        (channelOf t.dev (96 + ch.val)).started = true ∧ (channelOf t.dev (96 + ch.val)).amp = min m 65535 ∧
        (x.started = false ∨ s.dev.fld (pageFch (96 + ch.val)) 0x048 0 16 = 0 →
          (channelOf t.dev (96 + ch.val)).fault = false ∧ (channelOf t.dev (96 + ch.val)).index = false) ∧
        (channelOf t.dev (96 + ch.val)).pos = if x.started then wrap32 (x.pos + pred + diff) else x.pos - x.pos % 4096 + phi) ∧
    (s.dev.running = true → s.dev.par.role = roleStandby → Answers s (.localChannelSample u ch smp) fun t =>
      t.nv = s.nv ∧ channelOf t.dev (96 + ch.val) = { channelOf s.dev (96 + ch.val) with
        ownPhi := (channelOf t.dev (96 + ch.val)).ownPhi, ownTick := (s.at u).tick / 125 * 125 } ∧
      SameButReports { s.at u with channels := t.dev.channels } t.dev) ∧
    (s.dev.running = false → AnswersButReports s (.localChannelSample u ch smp) (s.at u))) ∧
  (∀ (s : State) (c : Fin 104),
    let x := channelOf s.dev c.val
    (s.dev.enabled (pageFch c.val) = true → x.fault = false → x.level ≠ 2 →
      x.since + s.dev.fld (pageFch c.val) 0x044 0 16 ≤ s.dev.cycle →
      AnswersButReports s (.standstillTimeout c)
        (setChannel s.now c.val { x with level := 2, v1 := 0, repV1 := 0, e1 := none, e2 := none })) ∧
    (s.dev.cycle < x.since + s.dev.fld (pageFch c.val) 0x044 0 16 → AnswersButReports s (.standstillTimeout c) s.now)) ∧
  ∀ (s : State) (u : Nat) (e : Fin 8),
    let remote := remoteChannel (s.dev.fld (pageEmu e.val) 0x040 0 7)
    let start := if remote then s.dev.cycle * 1250 + 300 else (s.at u).tick / 125 * 125
    let x := emuOf s.dev e.val
    let span := if remote then 1250 else 125
    let owed := if start < x.newFrom then x.backlog - x.newSteps else x.backlog
    let m := min owed.natAbs (if remote then 50 else 5)
    (s.dev.enabled (pageEmu e.val) = true → start ≤ (s.at u).tick → x.last ≤ start →
      Answers s (.emuEmission u e) fun t =>
        t.nv = s.nv ∧ emuOf t.dev e.val = { x with
          backlog := if owed < 0 then x.backlog + m else x.backlog - m
          ab := if owed < 0 then (x.ab + 4 * m - m) % 4 else (x.ab + m) % 4, last := start + 1 } ∧
        t.dev.out = (if m = 0 then [] else
          [.edges e.val ((List.range m).map fun i => start + i * span / m) (decide (owed < 0))]) ∧
        t.dev.rfld (pageEmu e.val) 0x064 0 32 = (s.dev.rfld (pageEmu e.val) 0x064 0 32 + m) % 2 ^ 32 ∧
        SameButReports { s.at u with emus := t.dev.emus, regs := t.dev.regs, out := t.dev.out } t.dev ∧
        (∀ k, k ≠ e.val → emuOf t.dev k = emuOf s.dev k)) ∧
    (s.dev.enabled (pageEmu e.val) = false ∨ (s.at u).tick < start ∨ start < x.last →
      AnswersButReports s (.emuEmission u e) (s.at u))

/-- R512 to R514, R523 to R526: a lane comes up stage by stage; a partner whose identity is refused is tried again after 1 ms, and a lane that
stands longer than 10 ms below UP starts again; before that these do nothing.
Where the rules leave the reading open, the statement follows the model's (log entry 59).
Under conditions on the state and the operands alone, `laneStagePass`, `laneIdRetry`, `laneStageTimeout` answer a next state
each, with their own effect. -/
def Obligations.LaneBringUp : Prop :=
  ∀ (s : State) (u : Nat) (l : Fin 56) (bad : BitVec 16),
    let x := laneOf s.dev l.val
    let again : Lane := { stage := 1, since := (s.at u).tick, cause := x.cause, eye := x.eye, badInSuper := x.badInSuper }
    (x.stage = 1 ∨ x.stage = 2 → AnswersButReports s (.laneStagePass u l bad)
      (setLane (s.at u) l.val { x with stage := x.stage + 1, since := (s.at u).tick })) ∧
    (∀ m, x.stage = 3 → x.lastMarker = some m → AnswersButReports s (.laneStagePass u l bad)
      (setLane (s.at u) l.val { x with
        stage := 4, since := (s.at u).tick, polInv := mkInverted m.toNat, lastMarker := none, agree := 0 })) ∧
    (∀ m c, x.stage = 4 → x.retryAt = none → x.lastMarker = some m → 2 ≤ x.agree →
      identityCause (s.at u) l.val m.toNat = some c → Answers s (.laneStagePass u l bad) fun t =>
        t.nv = s.nv ∧ t.dev.pennant (pageLan l.val) 3 = true ∧
        SameButReports (setLane (s.at u) l.val { x with cause := c, retryAt := some ((s.at u).tick + 250000) }) t.dev) ∧
    (∀ m p, l.val < 48 → x.stage = 4 → x.retryAt = none → x.lastMarker = some m → 2 ≤ x.agree →
      identityCause (s.at u) l.val m.toNat = none → mkPartner m.toNat = some p → Answers s (.laneStagePass u l bad) fun t =>
        t.nv = s.nv ∧ (laneOf t.dev l.val).stage = 5 ∧ (laneOf t.dev l.val).logical = p ∧
        (∀ k, k ≠ l.val → laneOf t.dev k = laneOf s.dev k) ∧ t.dev.pennant (pageLan l.val) 0 = true ∧
        t.dev.heats = s.dev.heats ∧ t.dev.stations = s.dev.stations ∧ t.dev.stp = s.dev.stp) ∧
    (∀ m, 48 ≤ l.val → x.stage = 4 → x.retryAt = none → x.lastMarker = some m → 2 ≤ x.agree →
      identityCause (s.at u) l.val m.toNat = none → Answers s (.laneStagePass u l bad) fun t =>
        t.nv = s.nv ∧ (laneOf t.dev l.val).stage = 5 ∧ (∀ k, k ≠ l.val → laneOf t.dev k = laneOf s.dev k) ∧
        t.dev.pennant (pageLan l.val) 0 = true ∧ SameButReports { s.at u with lanes := t.dev.lanes } t.dev) ∧
    (∀ k, x.retryAt = some k → x.stage ≠ 0 →
      (k ≤ (s.at u).tick → AnswersButReports s (.laneIdRetry u l) (setLane (s.at u) l.val again)) ∧
      ((s.at u).tick < k → AnswersButReports s (.laneIdRetry u l) (s.at u))) ∧
    (1 ≤ x.stage → x.stage ≤ 4 → x.retryAt = none → x.since + 2500000 < (s.at u).tick →
      Answers s (.laneStageTimeout u l) fun t =>
        t.nv = s.nv ∧ t.dev.pennant (pageLan l.val) 6 = true ∧ SameButReports (setLane (s.at u) l.val again) t.dev) ∧
    ((s.at u).tick ≤ x.since + 2500000 → AnswersButReports s (.laneStageTimeout u l) (s.at u))

/-- R512 to R514, R524, R525, R528, R530: a MARKER or CYCLE_START block that counts is noted on its lane; a block of no known type is counted, and so is
one whose sync header is no header; a lane that is lost starts again with LANE_LOST of its page and of LNK; an eye scan of a lane that is UP ends with its counts and its opening.
Where the rules leave the reading open, the statement follows the model's (log entry 59).
Under conditions on the state and the operands alone, `laneLost`, `marker`, `cycleStartBlock`, `unknownBlock`, `lanEyeStart`,
`eyeScanDone` answer a next state each, with their own effect. -/
def Obligations.LaneBlocks : Prop :=
  ∀ (s : State) (u : Nat) (l : Fin 56) (v : Long),
    let x := laneOf s.dev l.val
    (x.stage = 3 → mkValid (v.toNat % 2 ^ 56) = true → AnswersButReports s (.marker u l v)
      (setLane (s.at u) l.val { x with lastMarker := some v, markerSeen := true })) ∧
    (x.stage < 3 ∨ mkValid (v.toNat % 2 ^ 56) = false → AnswersButReports s (.marker u l v) (s.at u)) ∧
    (∀ m : Long, 48 ≤ l.val → 4 ≤ x.stage → mkValid v.toNat = true → v.toNat < 2 ^ 56 → x.lastMarker = some m →
      mkSame m.toNat v.toNat = true → AnswersButReports s (.marker u l v) (setLane (s.at u) l.val { x with
        lastMarker := some v, agree := x.agree + 1, superframe := BitVec.ofNat 16 (mkSuper v.toNat), markerSeen := true })) ∧
    (∀ n : Nat, l.val < 48 → 3 ≤ x.stage → v.toNat % 2 ^ 56 = s.dev.cycle % 2 ^ 32 → n < 131072 →
      AnswersButReports s (.cycleStartBlock u l v n)
        (setLane (s.at u) l.val { x with startSeen := true, startsMissed := 0, latency := n / 2 })) ∧
    (∀ n : Nat, x.stage < 3 ∨ v.toNat % 2 ^ 56 ≠ s.dev.cycle % 2 ^ 32 → AnswersButReports s (.cycleStartBlock u l v n) (s.at u)) ∧
    (∀ ty : BitVec 8,
      (3 ≤ x.stage → knownBlock ty.toNat = false → AnswersButReports s (.unknownBlock u l (.reserved ty))
        ((s.at u).setReg (pageLan l.val) 0x074 (min (s.dev.rfld (pageLan l.val) 0x074 0 32 + 1) 0xFFFFFFFF))) ∧
      (knownBlock ty.toNat = true → AnswersButReports s (.unknownBlock u l (.reserved ty)) (s.at u))) ∧
    (3 ≤ x.stage → AnswersButReports s (.unknownBlock u l .syncHeader)
      ((s.at u).setReg (pageLan l.val) 0x064 (min (s.dev.rfld (pageLan l.val) 0x064 0 32 + 1) 0xFFFFFFFF))) ∧
    (x.stage < 3 → AnswersButReports s (.unknownBlock u l .syncHeader) (s.at u)) ∧
    (∀ c : LossCause,
      (lossDue s.dev l.val c = true → l.val < 48 → x.stage = 5 → x.logical < 32 → Answers s (.laneLost u l c) fun t =>
        t.nv = s.nv ∧ t.dev.pennant (pageLan l.val) 2 = true ∧ t.dev.pennant pageLnk 0 = true ∧
        laneOf t.dev l.val = { stage := 1, since := (s.at u).tick, cause := x.cause, eye := x.eye, badInSuper := x.badInSuper } ∧
        (∀ k, k ≠ l.val → laneOf t.dev k = laneOf s.dev k) ∧ (ctxOf t.dev x.logical).laneLost = true ∧
        (s.dev.enabled (pageStn x.logical) = true → (stationOf t.dev x.logical).fault = true)) ∧
      (lossDue s.dev l.val c = true → (48 ≤ l.val ∨ x.stage ≠ 5 ∨ 32 ≤ x.logical) → Answers s (.laneLost u l c) fun t =>
        t.nv = s.nv ∧ t.dev.pennant (pageLan l.val) 2 = true ∧ t.dev.pennant pageLnk 0 = true ∧
        laneOf t.dev l.val = { stage := 1, since := (s.at u).tick, cause := x.cause, eye := x.eye, badInSuper := x.badInSuper } ∧
        (∀ k, k ≠ l.val → laneOf t.dev k = laneOf s.dev k) ∧
        SameButReports { s.at u with regs := t.dev.regs, lanes := t.dev.lanes } t.dev) ∧
      (lossDue s.dev l.val c = false → AnswersButReports s (.laneLost u l c) (s.at u))) ∧
    (∀ w : Word, writeAccepted (s.at u) (pageLan l.val) 0x040 w.toNat = true → w.getLsbD 0 = true → x.stage = 5 →
      Answers s (.lanEyeStart u l w) fun t =>
        t.nv = s.nv ∧ (laneOf t.dev l.val).eyeDwell = some (bits w.toNat 8 8) ∧ (laneOf t.dev l.val).stage = 5 ∧
        SameButReports { s.at u with regs := t.dev.regs, lanes := t.dev.lanes } t.dev) ∧
    (∀ table : List Word, x.eyeDwell.isSome = true → x.stage = 5 → table.length = 4032 →
      Answers s (.eyeScanDone u l table) fun t =>
        t.nv = s.nv ∧ (laneOf t.dev l.val).eyeDwell = none ∧ t.dev.pennant (pageLan l.val) 5 = true ∧
        (∀ k, k < 4032 → (laneOf t.dev l.val).eye.get (same 0) k = table.getD k 0) ∧
        SameButReports { s.at u with regs := t.dev.regs, lanes := t.dev.lanes } t.dev)

/-! ### Imaging (chapter 09) -/

/-- R309, R313 to R315: a camera block of one row with a right header brings the row into its frame and the FIFO; a block of no open frame is
counted as discarded. A free pipeline takes the lowest waiting row of its oldest frame. A frame closes at the end of its close cycle, and not before.
Where the rules leave the reading open, the statement follows the model's (log entry 30).
Under conditions on the state and the operands alone, `cameraBlock`, `pipelineLineStart`, `coaxialFrameClose` answer a next
state each, with their own effect. -/
def Obligations.CoaxialImaging : Prop :=
  (∀ (s : State) (u : Nat) (n : Fin 32) (hdr : BitVec 56) (data : List Long), s.dev.running = true →
    ctxOn s.dev n.val = true → (partnerLane s.dev n.val).isSome = true →
    (∀ f : CamFrame, (ctxOf s.dev n.val).frames = [f] → f.number = bits hdr.toNat 0 16 → f.overflow = false →
      bits hdr.toNat 16 7 < 80 → bits hdr.toNat 23 4 = 1 → bits hdr.toNat 30 26 = 0 → data.length = 13 →
      bit hdr.toNat 27 = (bits hdr.toNat 16 7 == 0) → bit hdr.toNat 28 = (bits hdr.toNat 16 7 == 79) → bit hdr.toNat 29 = false →
      (s.at u).tick ≤ f.rowDeadline (bits hdr.toNat 16 7) → f.waiting.length < 16 →
      AnswersButReports s (.cameraBlock u n hdr data false)
        (setCtx (s.at u) n.val { ctxOf s.dev n.val with frames := [{ f with
          lines := f.lines.set (same []) (bits hdr.toNat 16 7) (blockRow (dataValue data) 0)
          waiting := f.waiting ++ [bits hdr.toNat 16 7] }] })) ∧
    ((∀ f, f ∈ (ctxOf s.dev n.val).frames → f.number ≠ bits hdr.toNat 0 16) →
      Answers s (.cameraBlock u n hdr data false) fun t =>
        t.nv = s.nv ∧ t.dev.pennant (pageCtx n.val) 3 = true ∧
        SameButReports ((s.at u).setReg (pageCtx n.val) 0x07C (min (s.dev.rfld (pageCtx n.val) 0x07C 0 32 + 1) 0xFFFFFFFF))
          t.dev)) ∧
  (∀ (s : State) (p : Fin 4) (c : Nat) (f : CamFrame), s.dev.running = true → s.dev.enabled pageImg = true →
    max (3 * s.dev.tick) (pipeOf s.dev p.val).free < 3750 * (s.dev.cycle + 1) → pickContext s.dev p.val = (some c, false) →
    (ctxOf s.dev c).frames = [f] →
    Answers s (.pipelineLineStart p) fun t =>
      t.nv = s.nv ∧ t.dev.tick = max s.dev.tick ((pipeOf s.dev p.val).free / 3) ∧
      ctxOf t.dev c = { ctxOf s.dev c with frames := [{ f with
        waiting := f.waiting.erase (f.waiting.foldl min (f.waiting.headD 0)) }] } ∧
      (pipeOf t.dev p.val).free = max (3 * s.dev.tick) (pipeOf s.dev p.val).free +
        ((f.lines.get (same []) (f.waiting.foldl min (f.waiting.headD 0))).length + 1) / 2 ∧
      SameRegs s.dev.regs t.dev.regs ∧ t.dev.stations = s.dev.stations) ∧
  ∀ (s : State) (n : Fin 32) (f : CamFrame), s.dev.running = true → (ctxOf s.dev n.val).frames = [f] →
    (f.closeCycle ≤ s.dev.cycle → Answers s (.coaxialFrameClose ⟨n.val, by omega⟩) fun t =>
      t.nv = s.nv ∧ t.dev.tick = s.dev.tick ∧ (ctxOf t.dev n.val).frames = [] ∧
      (ctxOf t.dev n.val).closed = (ctxOf s.dev n.val).closed + 1 ∧
      (∀ k, k ≠ n.val → ctxOf t.dev k = ctxOf s.dev k) ∧ (∀ k, k ≠ n.val → stationOf t.dev k = stationOf s.dev k) ∧
      t.dev.heats = s.dev.heats ∧ t.dev.mould = s.dev.mould) ∧
    (s.dev.cycle < f.closeCycle → AnswersButReports s (.coaxialFrameClose ⟨n.val, by omega⟩) s.now)

/-- R317 to R319, R341, R342, R345: on an overview port a Frame Start opens a frame of its context, a line of the context's type and width joins
it, a Frame End closes it; a packet for no enabled context is discarded and counted, as one with an uncorrectable header or payload is, and a header that was corrected counts as such. TEST and RECOVERY are entered
by command; a port that loses its synchronisation raises SYNC_LOST, and its contexts recover when it returns.
Where the rules leave the reading open, the statement follows the model's (log entry 30).
Under conditions on the state and the operands alone, `csi2FrameStart`, `csi2Line`, `csi2FrameEnd`, `csi2PacketError`,
`ctxRunTest`, `ctxRunRecover`, `csiSyncLost`, `csiPortReturn` answer a next state each, with their own effect. -/
def Obligations.OverviewImaging : Prop :=
  (∀ (s : State) (u : Nat) (p : Fin 2) (vc : Fin 16) (n : BitVec 16), portUp s.dev p.val = true →
    (vc.val < 4 → s.dev.enabled (pageCtx (overviewCtx p.val vc.val)) = true →
      ((ctxOf s.dev (overviewCtx p.val vc.val)).frames = [] → Answers s (.csi2FrameStart u p vc n false) fun t =>
        t.nv = s.nv ∧ (∃ f, ctxOf t.dev (overviewCtx p.val vc.val) = { ctxOf s.dev (overviewCtx p.val vc.val) with
          frames := [f], sofAt := (s.at u).tick + 1 } ∧ f.sof = (s.at u).tick ∧ f.number = n.toNat ∧ f.lines = [] ∧ f.waiting = []) ∧
        (∀ k, k ≠ overviewCtx p.val vc.val → ctxOf t.dev k = ctxOf s.dev k) ∧
        SameButReports { s.at u with regs := t.dev.regs, ctxs := t.dev.ctxs } t.dev) ∧
      (∀ (f : CamFrame) (dt : BitVec 6) (px : List (BitVec 16)), (ctxOf s.dev (overviewCtx p.val vc.val)).frames = [f] →
        dt.toNat = 0x2A + f.fld 0x05C 4 2 → px.length = f.fld 0x058 0 11 → f.overflow = false →
        f.arrived < f.fld 0x058 16 11 → f.waiting.length < 16 → Answers s (.csi2Line u p vc dt px false) fun t =>
          t.nv = s.nv ∧ ctxOf t.dev (overviewCtx p.val vc.val) = { ctxOf s.dev (overviewCtx p.val vc.val) with frames := [{ f with
            lines := f.lines.set (same []) f.arrived (px.map fun w => normalise (f.fld 0x05C 4 2) w.toNat)
            waiting := f.waiting ++ [f.arrived], arrived := f.arrived + 1 }] } ∧
          SameButReports { s.at u with regs := t.dev.regs, ctxs := t.dev.ctxs } t.dev) ∧
      (∀ f : CamFrame, (ctxOf s.dev (overviewCtx p.val vc.val)).frames = [f] → Answers s (.csi2FrameEnd u p vc n false) fun t =>
        t.nv = s.nv ∧ (ctxOf t.dev (overviewCtx p.val vc.val)).frames = [] ∧
        (ctxOf t.dev (overviewCtx p.val vc.val)).closed = (ctxOf s.dev (overviewCtx p.val vc.val)).closed + 1 ∧
        t.dev.stations = s.dev.stations ∧ t.dev.heats = s.dev.heats)) ∧
    (4 ≤ vc.val ∨ s.dev.enabled (pageCtx (overviewCtx p.val vc.val)) = false →
      Answers s (.csi2FrameStart u p vc n false) fun t =>
        t.nv = s.nv ∧ t.dev.rfld pageImg (0x080 + 4 * p.val) 0 32 =
          min (s.dev.rfld pageImg (0x080 + 4 * p.val) 0 32 + 1) 0xFFFFFFFF ∧
        SameButReports { s.at u with regs := t.dev.regs } t.dev)) ∧
  (∀ (s : State) (u : Nat) (p : Fin 2) (h : PacketHeader), portUp s.dev p.val = true →
    let counted : Dev := if h.corrected then (s.at u).count pageImg (0x064 + 16 * p.val) else s.at u
    (Answers s (.csi2PacketError u p 0 h) fun t =>
      t.nv = s.nv ∧ t.dev.pennant pageImg p.val = true ∧ SameButReports ((s.at u).count pageImg (0x068 + 16 * p.val)) t.dev) ∧
    (Answers s (.csi2PacketError u p 1 h) fun t =>
      t.nv = s.nv ∧ t.dev.pennant pageImg (2 + p.val) = true ∧
      SameButReports (counted.count pageImg (0x06C + 16 * p.val)) t.dev) ∧
    AnswersButReports s (.csi2PacketError u p 2 h) (counted.count pageImg (0x080 + 4 * p.val)) ∧
    Answers s (.csiSyncLost u p) fun t =>
      t.nv = s.nv ∧ t.dev.pennant pageImg (4 + p.val) = true ∧ portUp t.dev p.val = false ∧ t.dev.ctxs = s.dev.ctxs ∧
      t.dev.img.pipes = s.dev.img.pipes) ∧
  (∀ (s : State) (u : Nat) (p : Fin 2),
    (s.dev.img.lost.getLsbD p.val = true → Answers s (.csiPortReturn u p) fun t =>
      t.nv = s.nv ∧ t.dev.img.lost.getLsbD p.val = false ∧
      (∀ v, v < 4 → s.dev.enabled (pageCtx (overviewCtx p.val v)) = true →
        (ctxOf t.dev (overviewCtx p.val v)).mode = 2 ∧ (ctxOf t.dev (overviewCtx p.val v)).frames = []) ∧
      (∀ k, k < 32 → ctxOf t.dev k = ctxOf s.dev k)) ∧
    (s.dev.img.lost.getLsbD p.val = false → AnswersButReports s (.csiPortReturn u p) (s.at u))) ∧
  ∀ (s : State) (c : Fin 40), s.dev.enabled (pageCtx c.val) = true →
    AnswersButReports s (.ctxRunRecover c) (setCtx s.now c.val { ctxOf s.dev c.val with frames := [], mode := 2 }) ∧
    (Answers s (.ctxRunTest c true) fun t =>
      t.nv = s.nv ∧ ctxOf t.dev c.val = { ctxOf s.dev c.val with mode := 1 } ∧
      (∀ k, k ≠ c.val → ctxOf t.dev k = ctxOf s.dev k)) ∧
    ((ctxOf s.dev c.val).mode = 1 → Answers s (.ctxRunTest c false) fun t =>
      t.nv = s.nv ∧ ctxOf t.dev c.val = { ctxOf s.dev c.val with mode := 0 } ∧
      (∀ k, k ≠ c.val → ctxOf t.dev k = ctxOf s.dev k))

/-! ### Line head (chapter 10) -/

/-- R351, R359, R378, R382, R384, R517: the next staged line of the pass enters its free slot, at most eight in a cycle and before its
command frames; the strobe that this cycle applies fires once, at its tick; the oldest accumulator
of a module that is due closes, and its runs of gaps become the pours of one more patch island; an idle emitter test starts when nothing stands against it and ends 1,025 cycles later.
Where the rules leave the reading open, the statement follows the model's (log entry 55).
Under conditions on the state and the operands alone, `lineFetch`, `lineStrobe`, `accumulatorClose`, `emitterTestStart`,
`emitterTestDone` answer a next state each, with their own effect. -/
def Obligations.LineHead : Prop :=
  (∀ s : State, s.dev.computes = true → (mayCode s.dev = false → AnswersButReports s .lineFetch s.now)) ∧
  (∀ s : State, s.dev.computes = true → mayCode s.dev = true →
    (∀ e k, fetchable s.dev = some (e, k) → Answers s .lineFetch fun t =>
      t.nv = s.nv ∧ lineAt t.dev k = some s.dev.cycle ∧ (∀ j, j % 16 ≠ k % 16 → lineAt t.dev j = lineAt s.dev j) ∧
      SameButReports { s.now with lhd := { s.dev.lhd with slots := t.dev.lhd.slots }, out := t.dev.out } t.dev) ∧
    (∀ (x : Run) (e : Entry) (codes : List Byte) (k : Nat) (later : Tab (List Byte)), s.dev.heats.running = some x →
      x.header = some e → x.heat.lines = (8192 * psIndex e + k, codes) :: later → k < psLines e → nextStrobe s.dev ≤ k + 8 →
      slotOf s.dev k = none → Answers s .lineFetch fun t =>
        t.nv = s.nv ∧ lineAt t.dev k = some s.dev.cycle ∧ (∀ j, j % 16 ≠ k % 16 → lineAt t.dev j = lineAt s.dev j) ∧
        SameButReports { s.now with lhd := { s.dev.lhd with slots := t.dev.lhd.slots }, out := t.dev.out } t.dev) ∧
    (fetchable s.dev = none → AnswersButReports s .lineFetch s.now)) ∧
  (∀ (s : State) (o : StrobeOut), s.dev.lhd.applied = some o →
    (o.fired = false → AnswersButReports s .lineStrobe { s.now with
      tick := max s.dev.tick (min o.tick (s.dev.cycle * 1250 + 1249))
      lhd := { s.dev.lhd with applied := some { o with fired := true } } }) ∧
    (o.fired = true → AnswersButReports s .lineStrobe s.now)) ∧
  (∀ (s : State) (m : Fin 16),
    (∀ (a : Accum) (rest : List Accum), accumsOf s.dev m.val = a :: rest → a.gaps = [] → s.dev.computes = true →
      s.dev.lhd.firing = none → AnswersButReports s (.accumulatorClose m) (setAccums s.now m.val rest)) ∧
    (∀ (a : Accum) (rest : List Accum) (x : Run), accumsOf s.dev m.val = a :: rest → s.dev.computes = true →
      s.dev.lhd.firing = none → s.dev.heats.running = some x → x.patches.length < 4096 → x.abandon = false →
      let runs := (gapRuns a.header a.gaps).filter fun r => 0 < runPower s.dev r
      runs ≠ [] → runs.length ≤ min 4096 (122880 - patchPours x) →
      Answers s (.accumulatorClose m) fun t =>
        t.nv = s.nv ∧ accumsOf t.dev m.val = rest ∧ t.dev.pennant pageSch 3 = true ∧
        ∃ y i, t.dev.heats.running = some y ∧ y.patches = x.patches ++ [(i, runs.map (runPour s.dev))]) ∧
    ((∀ a, a ∈ accumsOf s.dev m.val → accumDue s.dev a = false) ∨ s.dev.computes = false →
      AnswersButReports s (.accumulatorClose m) s.now)) ∧
  (∀ s : State,
    (s.dev.computes = true → s.dev.lhd.testing = none → testAllowed s.dev = true →
      AnswersButReports s .emitterTestStart
        { s.now.setReg pageLhd 0x080 0 with lhd := { s.dev.lhd with testing := some s.dev.cycle } }) ∧
    (testAllowed s.dev = false → AnswersButReports s .emitterTestStart s.now)) ∧
  ∀ (s : State) (c : Nat), s.dev.lhd.testing = some c →
    (s.dev.computes = true → c + 1025 ≤ s.dev.cycle → Answers s .emitterTestDone fun t =>
      t.nv = s.nv ∧ t.dev.pennant pageLhd 5 = true ∧ t.dev.rfld pageLhd 0x080 16 1 = 1 ∧
      SameButReports { s.now with regs := t.dev.regs, lhd := { s.dev.lhd with testing := none, tested := true } } t.dev) ∧
    (s.dev.cycle < c + 1025 → AnswersButReports s .emitterTestDone s.now)

/-! ### The mould's own commands (chapter 13) -/

/-- R464 to R466: a write of the peak power limit of a station that lowers it waits for the start of cycle n + 3; one that
raises it, the mould not sealed, becomes a pending raise; both leave the value that is read and used as it is. Sealed, a raise is
refused. R481: without a free record slot the write waits in the host link.
Where the rules leave the reading open, the statement follows the model's (log entries 39, 40, 83 and 87).
Under conditions on the state and the operands alone, `mldLimitWrite` answers a next state, with its own effect. -/
def Obligations.MouldLimits : Prop :=
  ∀ (s : State) (u : Nat) (n : Fin 32) (v : Word) (r : Reg), v.toNat < 65536 →
    let off := 0x200 + 32 * n.val
    let now := bits (acceptedLimit s.dev off) 0 16
    let lowered : Mould := { s.dev.mould with lowers := s.dev.mould.lowers ++ [⟨off, v, 0xFFFF, s.dev.cycle⟩] }
    let raised : Mould :=
      { s.dev.mould with raises := s.dev.mould.raises ++ [⟨off, v, 0xFFFF, s.dev.cycle, !s.dev.heats.everStarted⟩] }
    PageKind.mld.reg? off = some r →
    keptForSlot s u (.mldLimitWrite u (BitVec.ofNat 12 off) v) ⟨false, wordAddr pageMld off, 4, v.toNat⟩ ∧
    ((s.at u).writeHeld = false → pendingRaise s.dev off = false →
      (mouldRefused (s.at u) off r v.toNat = none → v.toNat < now →
        Answers s (.mldLimitWrite u (BitVec.ofNat 12 off) v) fun t =>
          t.nv = s.nv ∧ (s.dev.forwards = false → t.dev.par = s.dev.par ∧ t.dev.out = []) ∧
          SameButReports { s.at u with mould := lowered, par := t.dev.par, out := t.dev.out } t.dev) ∧
      (mouldRefused (s.at u) off r v.toNat = none → now < v.toNat → s.dev.mould.locked = false →
        s.dev.mould.raises.length < 16 →
        Answers s (.mldLimitWrite u (BitVec.ofNat 12 off) v) fun t =>
          t.nv = s.nv ∧ (s.dev.forwards = false → t.dev.par = s.dev.par ∧ t.dev.out = []) ∧
          SameButReports { s.at u with mould := raised, par := t.dev.par, out := t.dev.out } t.dev) ∧
      (blockRefused (s.at u) .mld pageMld off r v.toNat = none → now < v.toNat → s.dev.mould.locked = true →
        AnswersButReports s (.mldLimitWrite u (BitVec.ofNat 12 off) v) ((s.at u).setReg pageMld 0x024
          (off + pageMld <<< 12 + s.dev.rfld pageMld 0x024 31 1 <<< 22 + refusedSealed <<< 24 + 1 <<< 31))))

/-- R481: a holder that forwards its writes stores an accepted write of the mould register at `off`, to act in its cycle on both
devices, or keeps it in the host link while it finds no record slot. -/
def Sys2Proof.Machine.mouldForwards (s : State) (u : Nat) (i : Instr) (off v : Nat) (r : Reg) : Prop :=
  keptForSlot s u i ⟨false, wordAddr pageMld off, 4, v⟩ ∧
  (s.dev.forwards = true → (s.at u).writeHeld = false → mouldRefused (s.at u) off r v = none → Answers s i fun t =>
    t.nv = s.nv ∧ SameButReports { storeWrite (s.at u) .mld pageMld off r v with par := t.dev.par, out := t.dev.out } t.dev)

/-- R467, R468, R469: an accepted SEAL seals; an accepted key word is stored. RAISE and UNSEAL end NOT_SEALED on an open mould and BAD_RESPONSE where the response is not
the HMAC, without effect; with the right response UNSEAL opens the mould, clears the key and changes no limit, and RAISE enters a pending raise with the named
register's value. A holder that forwards its writes lets each act in its cycle (R481). The seal store takes
the seal, the key and the limits as they stand.
Where the rules leave the reading open, the statement follows the model's (log entries 39 and 83).
Under conditions on the state and the operands alone, `mldAuthRaise`, `mldAuthUnseal`, `mldSeal`, `mldKeyWrite`,
`sealStoreWrite` answer a next state each, with their own effect. -/
def Obligations.MouldAuth : Prop :=
  (∀ (s : State) (u : Nat) (r : Reg), PageKind.mld.reg? 0x080 = some r →
    mouldForwards s u (.mldSeal u) 0x080 1 r ∧
    (s.dev.forwards = false → mouldRefused (s.at u) 0x080 r 1 = none → s.dev.mould.key ≠ 0 →
      AnswersButReports s (.mldSeal u) { s.at u with mould := { s.dev.mould with locked := true, storeDirty := true } })) ∧
  (∀ (s : State) (u : Nat) (i : Fin 8) (v : Word) (r : Reg), PageKind.mld.reg? (0x100 + 4 * i.val) = some r →
    mouldForwards s u (.mldKeyWrite u i v) (0x100 + 4 * i.val) v.toNat r ∧
    (s.dev.forwards = false → mouldRefused (s.at u) (0x100 + 4 * i.val) r v.toNat = none →
      Answers s (.mldKeyWrite u i v) fun t =>
        t.nv = s.nv ∧ bits t.dev.mould.key.toNat (32 * i.val) 32 = v.toNat ∧
        (∀ j, j < 8 → j ≠ i.val → bits t.dev.mould.key.toNat (32 * j) 32 = bits s.dev.mould.key.toNat (32 * j) 32) ∧
        t.dev.mould = { s.dev.mould with key := t.dev.mould.key, storeDirty := true } ∧
        SameButReports { s.at u with regs := t.dev.regs, mould := t.dev.mould } t.dev)) ∧
  (∀ (s : State) (u : Nat) (r : Reg), PageKind.mld.reg? 0x044 = some r →
    let off := s.dev.rfld pageMld 0x044 16 12
    let value := s.dev.rfld pageMld 0x048 0 32
    let failed (t : State) (result : Nat) : Prop :=
      t.nv = s.nv ∧ t.dev.mould = { s.dev.mould with result := result, challenge := t.dev.mould.challenge } ∧
      t.dev.pennant pageMld 9 = true ∧ SameRegs s.dev.regs t.dev.regs ∧ t.dev.stations = s.dev.stations ∧ t.dev.heats = s.dev.heats
    mouldForwards s u (.mldAuthRaise u) 0x044 (1 + off <<< 16) r ∧ mouldForwards s u (.mldAuthUnseal u) 0x044 2 r ∧
    (s.dev.forwards = false → mouldRefused (s.at u) 0x044 r (1 + off <<< 16) = none →
      (s.dev.mould.locked = false → Answers s (.mldAuthRaise u) fun t => failed t 4) ∧
      (s.dev.mould.locked = true → authMac s.dev 1 off value ≠ s.dev.mould.response.toNat →
        Answers s (.mldAuthRaise u) fun t => failed t 2) ∧
      (∀ q, s.dev.mould.locked = true → authMac s.dev 1 off value = s.dev.mould.response.toNat → isLimit off = true →
        PageKind.mld.reg? off = some q → valuesOk q value = true →
        let m := splitLimit off (acceptedLimit s.dev off) value
        m.1 ≠ 0 → pendingRaise s.dev off = false → s.dev.mould.raises.length < 16 → Answers s (.mldAuthRaise u) fun t =>
          t.nv = s.nv ∧ t.dev.mould = { s.dev.mould with
            result := 1, challenge := t.dev.mould.challenge
            raises := s.dev.mould.raises ++
              [⟨off, word value, word (m.1 ||| m.2), s.dev.cycle, !s.dev.heats.everStarted⟩] } ∧
          SameRegs s.dev.regs t.dev.regs)) ∧
    (s.dev.forwards = false → mouldRefused (s.at u) 0x044 r 2 = none →
      (s.dev.mould.locked = false → Answers s (.mldAuthUnseal u) fun t => failed t 4) ∧
      (s.dev.mould.locked = true → authMac s.dev 2 0 0 ≠ s.dev.mould.response.toNat →
        Answers s (.mldAuthUnseal u) fun t => failed t 2) ∧
      (s.dev.mould.locked = true → authMac s.dev 2 0 0 = s.dev.mould.response.toNat →
        Answers s (.mldAuthUnseal u) fun t =>
          t.nv = s.nv ∧ t.dev.mould = { s.dev.mould with
            result := 1, locked := false, key := 0, storeDirty := true, challenge := t.dev.mould.challenge } ∧
          (∀ o, o < 0x100 ∨ 0x200 ≤ o → o < 4096 → t.dev.regs.inUse (wordAddr pageMld o) = s.dev.regs.inUse (wordAddr pageMld o) ∨
            reportWord (wordAddr pageMld o) = true)))) ∧
  ∀ s : State,
    (s.dev.mould.storeDirty = true → Answers s .sealStoreWrite fun t =>
      t.nv.sealStore = sealStoreOf s.dev ∧ t.nv.flash = s.nv.flash ∧ t.nv.op = s.nv.op ∧
      SameButReports { s.now with mould := { s.dev.mould with storeDirty := false } } t.dev) ∧
    (s.dev.mould.storeDirty = false → AnswersButReports s .sealStoreWrite s.now)

/-! ### The pair (chapter 14) -/

/-- `t` is `d` but for reports, the state and the page of the pair, the free values taken, the records sent to the peer and what
has been streamed of the copy to it. -/
def Sys2Proof.Machine.samePair (s : State) (d : Dev) (t : State) : Prop :=
  t.nv = s.nv ∧
    (∀ a, a / 4096 ≠ pagePar → reportWord a = false →
      t.dev.regs.read a = s.dev.regs.read a ∧ t.dev.regs.inUse a = s.dev.regs.inUse a) ∧
    SameButReports
      { d with regs := t.dev.regs, par := t.dev.par, out := t.dev.out, free := t.dev.free, mirror := t.dev.mirror } t.dev

/-- R477: a SEEKING device in boot step 5 that has seen ENSIGN_IN at 0 long enough, side B for longer unless the peer's health
shows it gone, becomes HOLDER at a cycle start, alone, and keeps its EPOCH, its dispatcher's blocked times and promotions
forgotten (R144); any other device is left as it is. R488, R501, R503: the stages of a join. Every word copied, MIRROR follows COPY; at a cycle start a clean MIRROR makes the joining device
STANDBY and gives the holder its standby; a departed device joins again by itself once REJOIN_DELAY is past and its departures
are fewer than AUTO allows. Out of its stage each of these does nothing.
Where the rules leave the reading open, the statement follows the model's (log entries 60 and 61).
Under conditions on the state and the operands alone, `ensignTake`, `joinCopyDone`, `joinLockstep`, `autoRejoin` answer a next
state each, with their own effect. -/
def Obligations.PairJoin : Prop :=
  (∀ s : State,
    let may := atCycleStart s.dev = true ∧ s.dev.par.role = roleSeeking ∧ s.dev.boot.stage = 5 ∧ 2000 ≤ s.dev.par.ensignLow ∧
      (s.dev.par.sideB = false ∨ 2000 ≤ s.dev.par.unhealthy ∨ 4000 ≤ s.dev.par.ensignLow)
    (s.dev.running = true → may → Answers s .ensignTake fun t =>
      samePair s (forgetAges s.now) t ∧ t.dev.holds = true ∧ t.dev.ensignOut = true ∧
      t.dev.par = { s.dev.par with role := roleHolder, ensignFrom := s.dev.tick, withStandby := false, solo := false } ∧
      t.dev.rfld pagePar 0x090 0 32 = s.dev.cycle % 2 ^ 32 ∧ t.dev.rfld pagePar 0x094 0 32 = s.dev.cycle / 2 ^ 32 % 2 ^ 32) ∧
    (s.dev.running = false ∨ ¬may → AnswersButReports s .ensignTake s.now)) ∧
  (∀ s : State, s.dev.running = true →
    (s.dev.par.joinStage = 2 → Answers s .joinCopyDone fun t =>
      samePair s s.now t ∧ t.dev.par = { s.dev.par with mirrorClean := 0, dirty := 0, dirtyNow := 0, joinStage := 3 }) ∧
    (s.dev.par.joinStage ≠ 2 → AnswersButReports s .joinCopyDone s.now) ∧
    (atCycleStart s.dev = true → s.dev.par.joinStage = 3 → s.dev.par.dirty = 0 → 64 ≤ s.dev.par.mirrorClean →
      (s.dev.par.role = roleJoining → Answers s .joinLockstep fun t =>
        samePair s s.now t ∧ t.dev.pennant pagePar 8 = true ∧
        t.dev.par = { s.dev.par with role := roleStandby, joinStage := 4, matched := false }) ∧
      (s.dev.holds = true → Answers s .joinLockstep fun t =>
        samePair s s.now t ∧ t.dev.pairHolder = true ∧
        t.dev.par = { s.dev.par with joinStage := 4, matched := false, withStandby := true, solo := false })) ∧
    (atCycleStart s.dev = false ∨ s.dev.par.joinStage ≠ 3 ∨ s.dev.par.dirty ≠ 0 ∨ s.dev.par.mirrorClean < 64 →
      AnswersButReports s .joinLockstep s.now) ∧
    (s.dev.par.role = roleOut → s.dev.flag pagePar 0x044 0 = true → halyardUp s.dev = true →
      s.dev.par.outSince + s.dev.fld pagePar 0x044 16 16 ≤ s.dev.cycle →
      s.dev.rfld pagePar 0x080 0 32 < s.dev.fld pagePar 0x044 4 4 → Answers s .autoRejoin fun t =>
        samePair s s.now t ∧ t.dev.par.role = roleJoining ∧ t.dev.par.joinStage = 1 ∧ t.dev.par.joinFrom = roleOut) ∧
    (s.dev.par.role ≠ roleOut ∨ s.dev.cycle < s.dev.par.outSince + s.dev.fld pagePar 0x044 16 16 ∨
        s.dev.flag pagePar 0x044 0 = false ∨ halyardUp s.dev = false ∨
        s.dev.fld pagePar 0x044 4 4 ≤ s.dev.rfld pagePar 0x080 0 32 →
      AnswersButReports s .autoRejoin s.now))

/-- R486, R487, R497, R498, R501: PAR_CMD. JOIN of a SEEKING or OUT device whose halyard link is up starts a join with a HELLO; LEAVE
marks a standby to leave and makes a holder drop its standby, which ends the wait of a HEAT_CLOSE for that standby; SWAP and CANCEL_SWAP set and clear a holder's request;
a reason to yield is kept for the next CYCLE record of a holder with a standby.
Where the rules leave the reading open, the statement follows the model's (log entries 60 and 61).
Under conditions on the state and the operands alone, `parCmdJoin`, `parCmdLeave`, `parCmdSwap`, `parCmdCancelSwap`, `yield`
answer a next state each, with their own effect. -/
def Obligations.PairCommands : Prop :=
  (∀ (s : State) (u : Nat),
    (writeAccepted (s.at u) pagePar 0x040 1 = true → s.dev.par.role = roleSeeking ∨ s.dev.par.role = roleOut →
      (halyardUp s.dev = true → Answers s (.parCmdJoin u) fun t =>
        samePair s (s.at u) t ∧ t.dev.out = [.halyard 6 (halyardRecord 6 (helloBody t.dev))] ∧ t.dev.par = { s.dev.par with
          role := roleJoining, joinFrom := s.dev.par.role, joinRound := 0, refuseCause := 0, joinStage := 1 }) ∧
      (halyardUp s.dev = false → Answers s (.parCmdJoin u) fun t =>
        samePair s (s.at u) t ∧ t.dev.par = s.dev.par ∧ t.dev.out = [])) ∧
    (∀ (r : Fin 4) (h : Heat), writeAccepted (s.at u) pagePar 0x040 2 = true → s.dev.pairHolder = true →
      s.dev.heats.opening = some h → h.ring = r.val → (subOf s.dev r.val).mode = 4 → Answers s (.parCmdLeave u) fun t =>
        t.nv = s.nv ∧ t.dev.par = { s.dev.par with
          withStandby := false, solo := true, joinStage := 0, yieldDue := none, yieldMark := none } ∧
        t.dev.heats.opening = none ∧ t.dev.heats.staged = s.dev.heats.staged ++ [h] ∧ (subOf t.dev r.val).mode = 0) ∧
    (writeAccepted (s.at u) pagePar 0x040 2 = true → (∀ r, r < 4 → (subOf s.dev r).mode ≠ 4) → Answers s (.parCmdLeave u) fun t =>
      samePair s { s.at u with hif := { s.dev.hif with loads := if s.dev.pairHolder then [] else s.dev.hif.loads } } t ∧
      t.dev.out = [] ∧
      (s.dev.par.role = roleStandby → t.dev.par = { s.dev.par with leaveAsked := true }) ∧
      (s.dev.pairHolder = true → t.dev.pennant pagePar 10 = true ∧
        t.dev.par = { s.dev.par with
          withStandby := false, solo := true, joinStage := 0, yieldDue := none, yieldMark := none }) ∧
      (s.dev.par.role ≠ roleStandby → s.dev.pairHolder = false → t.dev.par = s.dev.par)) ∧
    (writeAccepted (s.at u) pagePar 0x040 4 = true → Answers s (.parCmdSwap u) fun t =>
      samePair s (s.at u) t ∧ t.dev.out = [] ∧
      t.dev.par = if s.dev.par.role = roleHolder then { s.dev.par with swapRequested := true } else s.dev.par) ∧
    (writeAccepted (s.at u) pagePar 0x040 8 = true → Answers s (.parCmdCancelSwap u) fun t =>
      samePair s (s.at u) t ∧ t.dev.out = [] ∧ t.dev.par = { s.dev.par with swapRequested := false })) ∧
  ∀ (s : State) (cause : BitVec 8),
    (s.dev.pairHolder = true → s.dev.par.yieldDue = none → s.dev.par.yieldMark = none →
      AnswersButReports s (.yield cause) { s.now with par := { s.dev.par with yieldDue := some cause.toNat } }) ∧
    (s.dev.pairHolder = false → AnswersButReports s (.yield cause) s.now)

/-- `i` is a record of the halyard link that arrives as `u` says. -/
def Sys2Proof.Machine.halyardAt (u : Arrival) : Instr → Prop
  | .cycleRecord a _ _ => a = u
  | .writeRecord a _ _ _ _ => a = u
  | .sampleRecord a _ _ _ _ => a = u
  | .bulkRecord a _ _ _ => a = u
  | .mirrorRecord a _ _ => a = u
  | .hello a _ _ _ => a = u
  | _ => False

/-- R479 to R483, R501, R502: the records of the peer. A CYCLE record of this cycle is kept, and a standby takes the holder's EPOCH and the skew
with it, and its positions in the shared rings; WRITE and BULK records act on a device that receives them, and a BULK record of a
loaded entry tells its holder that the load is confirmed; SAMPLE records of a standby take effect by KIND; MIRROR words and parts load a
joining device, which a holder streams to it from the HELLO on; a device that neither joins nor holds the ensign answers a HELLO with its own; a HELLO that R502 refuses ends the join with its cause, one it accepts goes on to COPY, the joining device with the
holder's tick. Records that these rules do not let in change nothing. A record of an unknown TYPE or a wrong CRC is counted on its lane
as a bad frame.
Where the rules leave the reading open, the statement follows the model's (log entries 21, 27, 61 and 67).
Under conditions on the state and the operands alone, `cycleRecord`, `writeRecord`, `sampleRecord`, `bulkRecord`,
`mirrorRecord`, `hello` answer a next state each, with their own effect. -/
def Obligations.PairRecords : Prop :=
  ∀ (s : State) (u : Arrival), halyardUp s.dev = true →
    (u.intact = false → ∀ i, halyardAt u i → Answers s i fun t =>
      t.nv = s.nv ∧ t.dev.rfld (pageLan (48 + u.lane.val)) 0x06C 0 32 =
        min (s.dev.rfld (pageLan (48 + u.lane.val)) 0x06C 0 32 + 1) 0xFFFFFFFF ∧
      t.dev.pennant (pageLan (48 + u.lane.val)) 4 = true ∧
      SameButReports { s.at u.tick with regs := t.dev.regs, lanes := t.dev.lanes } t.dev) ∧
    (u.intact = true →
    (∀ (rec : BitVec 4800) (skew : BitVec 16),
      (byteField rec 0 8 = s.dev.cycle → s.dev.par.role ≠ roleStandby →
        AnswersButReports s (.cycleRecord u rec skew) { s.at u.tick with par := { s.dev.par with peer := some rec } }) ∧
      (byteField rec 0 8 = s.dev.cycle → s.dev.par.role = roleStandby → byteField rec 10 1 = roleHolder →
        bit (byteField rec 27 1) 0 = false → Answers s (.cycleRecord u rec skew) fun t =>
          t.nv = s.nv ∧ t.dev.rfld pagePar 0x078 0 16 = skew.toNat ∧ t.dev.par = { s.dev.par with
            peer := some rec, lastHolder := some rec, epoch := BitVec.ofNat 16 (byteField rec 12 2) } ∧
          (∀ k, k < 64 → sharedRing k = true →
            (if deviceWrites k then ringProd t.dev k else ringCons t.dev k) = byteField rec (300 + 4 * k) 4 % 2 ^ 17) ∧
          (∀ a, a / 4096 ≠ pagePar → (a / 4096 < pageRng 0 ∨ pageRng 63 < a / 4096) → reportWord a = false →
            t.dev.regs.read a = s.dev.regs.read a ∧ t.dev.regs.inUse a = s.dev.regs.inUse a) ∧
          SameButReports { s.at u.tick with regs := t.dev.regs, par := t.dev.par, hif := { s.dev.hif with kept := t.dev.hif.kept } }
            t.dev) ∧
      (byteField rec 0 8 ≠ s.dev.cycle → AnswersButReports s (.cycleRecord u rec skew) (s.at u.tick))) ∧
    (∀ (c : Nat) (b : Bool) (a : BitVec 28) (v : Word) (i : Fin 32) (k : Fin 16384),
      (s.dev.par.role = roleStandby → groupPending s.dev (pageStn i.val) 3 = false →
        Answers s (.writeRecord u s.dev.cycle true (BitVec.ofNat 28 (baseFct + i.val * 0x20000 + 4 * k.val)) v) fun t =>
          t.nv = s.nv ∧ (∀ j, t.dev.fct.get (same 0) j =
            if j = 16384 * (2 * i.val + boolNat (!(stationOf s.dev i.val).bank)) + k.val then v else s.dev.fct.get (same 0) j) ∧
          SameButReports
            { s.at u.tick with par := { s.dev.par with writes := s.dev.par.writes + 1 }, fct := t.dev.fct } t.dev) ∧
      (∀ (j : Fin 4) (r : Reg), s.dev.par.role = roleStandby → PageKind.tmp.reg? (0x044 + 4 * j.val) = some r →
        Answers s (.writeRecord u s.dev.cycle false (BitVec.ofNat 28 (wordAddr pageTmp (0x044 + 4 * j.val))) v) fun t =>
          t.nv = s.nv ∧ t.dev.regs.read (wordAddr pageTmp (0x044 + 4 * j.val)) =
            word (mergeBits (s.dev.regs.read (wordAddr pageTmp (0x044 + 4 * j.val))).toNat v.toNat (storeMask r % 2 ^ 32)) ∧
          (∀ b, reportWord b = false → t.dev.regs.inUse b = s.dev.regs.inUse b) ∧
          (∀ b, b ≠ wordAddr pageTmp (0x044 + 4 * j.val) → reportWord b = false → t.dev.regs.read b = s.dev.regs.read b) ∧
          SameButReports
            { s.at u.tick with par := { s.dev.par with writes := s.dev.par.writes + 1 }, regs := t.dev.regs } t.dev) ∧
      (receives s.dev = false ∨ c ≠ s.dev.cycle → AnswersButReports s (.writeRecord u c b a v) (s.at u.tick))) ∧
    (∀ (kind i : BitVec 8) (k : Long) (x : BitVec 128),
      (s.dev.par.role = roleStandby → (s.at u.tick).tick ≤ k.toNat + 250 →
        (kind.toNat = 0 → i.toNat < 8 → Answers s (.sampleRecord u kind i k x) fun t =>
          t.nv = s.nv ∧ (channelOf t.dev (96 + i.toNat)).trail.head? = some (k.toNat, (channelOf t.dev (96 + i.toNat)).pos) ∧
          (∀ c, c ≠ 96 + i.toNat → channelOf t.dev c = channelOf s.dev c) ∧ t.dev.heats = s.dev.heats ∧
          t.dev.stations = s.dev.stations ∧ t.dev.stp = s.dev.stp ∧ t.dev.cal = s.dev.cal ∧ t.dev.mould = s.dev.mould) ∧
        (kind.toNat = 1 → i.toNat < 16 → Answers s (.sampleRecord u kind i k x) fun t =>
          t.nv = s.nv ∧ (s.dev.par.notes = [] → t.dev.par.notes = [⟨1, i.toNat, x.getLsbD 0, k.toNat, false⟩]) ∧
          SameButReports { s.at u.tick with
            cal := { s.dev.cal with edgesNext := s.dev.cal.edgesNext ++ [(i.toNat, k.toNat, x.getLsbD 0)] }
            par := { s.dev.par with notes := t.dev.par.notes } } t.dev) ∧
        (kind.toNat = 2 → AnswersButReports s (.sampleRecord u kind i k x)
          { s.at u.tick with cal := { s.dev.cal with codeNext := some (signed 24 (x.toNat % 2 ^ 24)) } }) ∧
        (kind.toNat = 3 → Answers s (.sampleRecord u kind i k x) fun t =>
          t.nv = s.nv ∧ SameButReports { s.at u.tick with
            mould := { s.dev.mould with challenge := x }, par := { s.dev.par with notes := t.dev.par.notes } } t.dev) ∧
        (3 < kind.toNat → AnswersButReports s (.sampleRecord u kind i k x) (s.at u.tick))) ∧
      (s.dev.par.role = roleStandby → k.toNat + 250 < (s.at u.tick).tick → Answers s (.sampleRecord u kind i k x) fun t =>
        t.nv = s.nv ∧ t.dev.par = { s.dev.par with sampleLate := true, notes := t.dev.par.notes } ∧ t.dev.regs.pend = s.dev.regs.pend) ∧
      (s.dev.par.role ≠ roleStandby → AnswersButReports s (.sampleRecord u kind i k x) (s.at u.tick))) ∧
    (∀ (a : Long) (bs : List Byte),
      (receives s.dev = true →
        let d := countBeyond (s.at u.tick) a.toNat bs.length
        let bursts : List DramReq := (burstsOf s.dev a.toNat bs.length).map fun b =>
          { port := 6, addr := b, write := true, data := (burstPart a.toNat bs b).1, mask := (burstPart a.toNat bs b).2
            cls := 1, promoted := false, at0 := (s.at u.tick).tick, client := .posted }
        (memReady s.dev = false → AnswersButReports s (.bulkRecord u none a bs)
          { d with dram := { s.dev.dram with held := s.dev.dram.held ++ bursts } }) ∧
        (∀ q, memReady s.dev = true → s.dev.dram.held = [] → bursts = [q] → q.addr < memBytes s.dev →
          queueRoom s.dev q = true → rateAdmits (s.at u.tick) 6 = true → Answers s (.bulkRecord u none a bs) fun t =>
            t.nv = s.nv ∧ SameButReports { d with
              dram := { s.dev.dram with queue := s.dev.dram.queue ++ [q], buckets := t.dev.dram.buckets } } t.dev)) ∧
      (receives s.dev = false → ∀ e, s.dev.pairHolder = false ∨ a.toNat ≠ 8 ∧ a.toNat ≠ 9 ∨ e = none →
        AnswersButReports s (.bulkRecord u e a bs) (s.at u.tick)) ∧
      (∀ (e e' : Entry) (rest : List (Nat × Entry × Nat × Option Nat)) (r : Fin 2), s.dev.pairHolder = true →
        s.dev.hif.loads = (r.val, e', 0, none) :: rest → a.toNat = 8 + r.val →
        Answers s (.bulkRecord u (some e) a bs) fun t => t.nv = s.nv ∧ SameButReports
          { s.at u.tick with hif := { s.dev.hif with loads := rest }, free := t.dev.free } t.dev)) ∧
    (∀ (a : Nat) (v : Word),
      (s.dev.par.role = roleJoining → s.dev.par.joinStage = 2 → a < 2 ^ 22 → mirroredWord a = true →
        reportWord a = false → Answers s (.mirrorRecord u a (.word v)) fun t =>
          t.nv = s.nv ∧ t.dev.regs.read a = v ∧ t.dev.regs.inUse a = v ∧
          (∀ b, b ≠ a → reportWord b = false →
            t.dev.regs.read b = s.dev.regs.read b ∧ t.dev.regs.inUse b = s.dev.regs.inUse b) ∧
          SameButReports { s.at u.tick with regs := t.dev.regs } t.dev) ∧
      (∀ (n : Nat) (k : Fin 32) (x : Station), s.dev.par.role = roleJoining → s.dev.par.joinStage = 2 →
        AnswersButReports s (.mirrorRecord u a (.part n (.station k x))) (setStation (s.at u.tick) k x)) ∧
      (s.dev.par.role ≠ roleJoining ∨ s.dev.par.joinStage < 2 → ∀ data, AnswersButReports s (.mirrorRecord u a data) (s.at u.tick))) ∧
    ∀ (rec : BitVec 216) (sealSame revOk : Bool), s.dev.running = true →
      (s.dev.par.role = roleJoining → s.dev.par.joinStage = 1 →
        (∀ c, helloCause s.dev rec sealSame revOk = some c → Answers s (.hello u rec sealSame revOk) fun t =>
          samePair s (s.at u.tick) t ∧ t.dev.par.role = s.dev.par.joinFrom ∧ t.dev.par.joinStage = 0 ∧ t.dev.par.refuseCause = c ∧
          t.dev.pennant pagePar 9 = true) ∧
        (helloCause s.dev rec sealSame revOk = none → Answers s (.hello u rec sealSame revOk) fun t =>
          t.nv = s.nv ∧ t.dev.par.role = roleJoining ∧ t.dev.par.joinStage = 2 ∧
          t.dev.tick = byteField rec 12 8 * 1250 + byteField rec 20 2 % 1250 ∧
          t.dev.heats = s.dev.heats ∧ t.dev.mould = s.dev.mould ∧ t.dev.stp = s.dev.stp)) ∧
      (s.dev.holds = true → helloCause s.dev rec sealSame revOk = none → Answers s (.hello u rec sealSame revOk) fun t =>
        samePair s (s.at u.tick) t ∧ t.dev.par.role = s.dev.par.role ∧ t.dev.par.joinStage = 2 ∧
        t.dev.mirror = some (mirrorOf t.dev) ∧
        ∃ ms, t.dev.out = .halyard 6 (halyardRecord 6 (helloBody (s.at u.tick))) :: ms ∧
          ∀ m, m ∈ ms → ∃ n p, m = .mirror true 0 (.part n p)) ∧
      (s.dev.holds = false → s.dev.par.role ≠ roleJoining → byteField rec 26 1 = roleJoining →
        AnswersButReports s (.hello u rec sealSame revOk) { s.at u.tick with out := [.halyard 6 (halyardRecord 6 (helloBody (s.at u.tick)))] }) ∧
      (s.dev.holds = false → s.dev.par.role ≠ roleJoining → byteField rec 26 1 ≠ roleJoining →
        AnswersButReports s (.hello u rec sealSame revOk) (s.at u.tick)) ∧
      (byteField rec 8 1 = boolNat s.dev.par.sideB → helloCause s.dev rec sealSame revOk = some 1))

/-! ### DRAM (chapter 16) -/

/-- R537, R541 to R544, R549: a port's request joins its subchannel's queue, or is held while the memory is not ready, the queue is
full or the port is over its rate; beyond the
capacity it is counted and a read answers 0. A request of class ST or BE at its age limit becomes RT. A column command takes the
first read in the order of R542, of which the lowest class comes first, or in a drain the first write so, whose bytes land; and its row is open then.
Where the rules leave the reading open, the statement follows the model's (log entries 62 and 89).
Under conditions on the state and the operands alone, `dramRequest`, `dramAgePromotion`, `dramColumnCommand` answer a next state
each, with their own effect. -/
def Obligations.DramTraffic : Prop :=
  (∀ (s : State) (u : Nat) (port : Fin 10) (addr : BitVec 36) (write : Bool) (data : BitVec 512),
    let q : DramReq := { port := port.val, addr := addr.toNat / 64 * 64, write := write, data := data
                         cls := portClass port.val, promoted := false, at0 := (s.at u).tick }
    (memReady s.dev = false → AnswersButReports s (.dramRequest u port addr write data)
      { s.at u with dram := { s.dev.dram with held := s.dev.dram.held ++ [q] } }) ∧
    (memReady s.dev = true → s.dev.dram.held = [] → addr.toNat / 64 * 64 < memBytes s.dev → queueRoom s.dev q = true →
      rateAdmits (s.at u) port.val = true → Answers s (.dramRequest u port addr write data) fun t =>
        t.nv = s.nv ∧ t.dev.dram = { s.dev.dram with
          queue := s.dev.dram.queue ++ [q], buckets := t.dev.dram.buckets } ∧
        SameButReports { s.at u with dram := t.dev.dram } t.dev) ∧
    (memReady s.dev = true → s.dev.dram.held = [] → addr.toNat / 64 * 64 < memBytes s.dev →
      queueRoom s.dev q = false ∨ rateAdmits (s.at u) port.val = false →
      AnswersButReports s (.dramRequest u port addr write data) { s.at u with dram := { s.dev.dram with held := [q] } }) ∧
    (memReady s.dev = true → s.dev.dram.held = [] → memBytes s.dev ≤ addr.toNat / 64 * 64 →
      Answers s (.dramRequest u port addr write data) fun t =>
        t.nv = s.nv ∧ t.dev.dram = s.dev.dram ∧
        t.dev.rfld pageMem 0x07C 0 32 = min (s.dev.rfld pageMem 0x07C 0 32 + 1) 0xFFFFFFFF ∧
        t.dev.out = (if write then [] else [.dram port.val (addr.toNat / 64 * 64) 0 false]))) ∧
  (∀ (s : State) (u : Nat), s.dev.dram.held = [] →
    AnswersButReports s (.dramAgePromotion u) { s.at u with dram := { s.dev.dram with
      queue := s.dev.dram.queue.map fun q =>
        if portClass q.port ≠ 0 ∧ q.cls ≠ 0 ∧
            100 * s.dev.fld pageMem (0x100 + 16 * q.port) 16 16 ≤ 4 * ((s.at u).tick - q.at0) then
          { q with cls := 0, promoted := true }
        else q } }) ∧
  (∀ (s : State) (u : Nat) (sc : Fin 2) (q : DramReq), memReady s.dev = true → s.dev.dram.held = [] →
    drainNow (s.at u) sc.val = false → q ∈ s.dev.dram.queue → inSub s.dev sc.val q = true → q.write = false →
    (∀ x, x ∈ s.dev.dram.queue → x ≠ q → inSub s.dev sc.val x = true → x.write = false → reqBefore (s.at u) q x = true) →
    Answers s (.dramColumnCommand u sc) fun t =>
      t.nv = s.nv ∧ t.dev.dram = { s.dev.dram with
        queue := s.dev.dram.queue.erase q, inflight := s.dev.dram.inflight ++ [{ q with data := readNow (s.at u) q }]
        rows := s.dev.dram.rows.set (same none) (memPlace s.dev q.addr).key (some (memPlace s.dev q.addr).row)
        drain := t.dev.dram.drain } ∧
      SameButReports { s.at u with dram := t.dev.dram } t.dev) ∧
  (∀ (s : State) (u : Nat) (sc : Fin 2) (q : DramReq), memReady s.dev = true → s.dev.dram.held = [] →
    drainNow (s.at u) sc.val = true → q ∈ s.dev.dram.queue → inSub s.dev sc.val q = true → q.write = true →
    writeWaits s.dev q = false → q.client ≠ .writeBack → 2 * slotBytes ≤ q.addr →
    4 * ((s.at u).tick - q.at0) ≤ portTarget s.dev q.port →
    (∀ x, x ∈ s.dev.dram.queue → x ≠ q → inSub s.dev sc.val x = true → x.write = true → writeWaits s.dev x = false →
      reqBefore (s.at u) q x = true) →
    Answers s (.dramColumnCommand u sc) fun t =>
      t.nv = s.nv ∧ t.dev.dram = { s.dev.dram with
        queue := s.dev.dram.queue.erase q
        mem := s.dev.dram.mem.set (same none) (q.addr / 64) (some (maskedBurst (burstAt s.dev (q.addr / 64)) q.data q.mask))
        rows := s.dev.dram.rows.set (same none) (memPlace s.dev q.addr).key (some (memPlace s.dev q.addr).row)
        drain := t.dev.dram.drain } ∧
      SameButReports { s.at u with dram := t.dev.dram, regs := t.dev.regs } t.dev) ∧
  (∀ (s : State) (u : Nat) (sc : Fin 2), memReady s.dev = false →
    AnswersButReports s (.dramColumnCommand u sc) (s.at u)) ∧
  ∀ (d : Dev) (a b : DramReq), a.cls < b.cls → reqBefore d a b = true

/-- R546, R547: a clean read delivers its burst; a corrected one is counted, delivered and written back in class ST; an uncorrectable
one is counted, and waits for the peer's burst, or fails: the island whose data it was completes with ECC. The peer's burst is
written and delivered. R548: a read of the patrol scrub moves it on by a burst, and from the last to the first.
Where the rules leave the reading open, the statement follows the model's (log entries 13, 62, 79 and 89).
Under conditions on the state and the operands alone, `dramReadComplete`, `eccPeerRepair` answer a next state each, with their
own effect. -/
def Obligations.DramReads : Prop :=
  (∀ (s : State) (u : Nat) (sc : Fin 2) (q : DramReq) (rest : List DramReq) (ecc : BitVec 2), s.dev.dram.held = [] →
    s.dev.dram.inflight = q :: rest → inSub s.dev sc.val q = true →
    4 * ((s.at u).tick - q.at0) ≤ portTarget s.dev q.port →
    let wb : DramReq := { port := q.port, addr := q.addr, write := true, data := q.data, cls := 1, promoted := false
                          at0 := (s.at u).tick, client := .writeBack }
    (q.client = .outside → Answers s (.dramReadComplete u sc ecc) fun t =>
      t.nv = s.nv ∧
      (ecc.toNat = 0 → t.dev.out = [.dram q.port q.addr q.data false] ∧
        SameButReports { s.at u with
          regs := t.dev.regs, dram := { s.dev.dram with inflight := rest }, out := t.dev.out } t.dev) ∧
      (ecc.toNat = 1 → q.addr < memBytes s.dev → t.dev.out = [.dram q.port q.addr q.data false] ∧
        t.dev.pennant pageMem 0 = true ∧
        t.dev.rfld pageMem 0x060 0 32 = min (s.dev.rfld pageMem 0x060 0 32 + 1) 0xFFFFFFFF ∧
        SameButReports { s.at u with
          regs := t.dev.regs, out := t.dev.out
          dram := if memReady s.dev ∧ queueRoom s.dev wb = true then
              { s.dev.dram with inflight := rest, queue := s.dev.dram.queue ++ [wb] }
            else { s.dev.dram with inflight := rest, held := [wb] } } t.dev) ∧
      (2 ≤ ecc.toNat → t.dev.pennant pageMem 1 = true ∧
        t.dev.rfld pageMem 0x064 0 32 = min (s.dev.rfld pageMem 0x064 0 32 + 1) 0xFFFFFFFF ∧
        t.dev.rfld pageMem 0x068 0 32 = q.addr % 2 ^ 32 ∧
        (peerRepairs s.dev = true → t.dev.out = [] ∧
          t.dev.dram = { s.dev.dram with inflight := rest, repairs := s.dev.dram.repairs ++ [q] }) ∧
        (peerRepairs s.dev = false → q.port ≠ 0 → q.port ≠ 1 → q.port ≠ 3 → t.dev.out = [.dram q.port q.addr 0 true] ∧
          t.dev.dram = { s.dev.dram with inflight := rest }) ∧
        (∀ x key, peerRepairs s.dev = false → q.port = 1 ∨ q.port = 3 → s.dev.heats.running = some x →
          islandAt s.dev q.addr = some key → (x.island key).state < 4 →
          (∀ k, k < 32 → (stationOf s.dev k).island ≠ some key) → t.dev.stations = s.dev.stations ∧
          ∃ y, t.dev.heats.running = some y ∧ (y.island key).state = 7 ∧ y.completed = x.completed + 1))) ∧
    (q.client = .scrub 0 → Answers s (.dramReadComplete u sc ecc) fun t =>
      t.nv = s.nv ∧
      (64 * (s.dev.rfld pageMem 0x078 0 29 + 1) < memBytes s.dev →
        t.dev.rfld pageMem 0x078 0 32 = s.dev.rfld pageMem 0x078 0 29 + 1) ∧
      (memBytes s.dev ≤ 64 * (s.dev.rfld pageMem 0x078 0 29 + 1) →
        t.dev.rfld pageMem 0x078 0 32 = 0 ∧ t.dev.pennant pageMem 7 = true) ∧
      SameButReports { s.at u with regs := t.dev.regs, dram := { s.dev.dram with inflight := rest } } t.dev)) ∧
  (∀ (s : State) (u : Nat) (sc : Fin 2) (ecc : BitVec 2), s.dev.dram.held = [] → s.dev.dram.inflight = [] →
    AnswersButReports s (.dramReadComplete u sc ecc) (s.at u)) ∧
  ∀ (s : State) (u : Nat) (data : BitVec 512),
    (∀ q rest, s.dev.dram.repairs = q :: rest → q.client = .outside → peerRepairs s.dev = true →
      4 * ((s.at u).tick - q.at0) ≤ portTarget s.dev q.port →
      (Answers s (.eccPeerRepair u data true) fun t =>
        t.nv = s.nv ∧ t.dev.out = [.dram q.port q.addr data false] ∧ t.dev.pennant pageMem 2 = true ∧
        (2 * slotBytes ≤ q.addr → burstAt t.dev (q.addr / 64) = data ∧
          (∀ b, b ≠ q.addr / 64 → burstAt t.dev b = burstAt s.dev b) ∧ t.dev.heats = s.dev.heats) ∧
        SameButReports { s.at u with
          regs := t.dev.regs, out := t.dev.out, heats := t.dev.heats
          dram := { s.dev.dram with
            repairs := rest, mem := s.dev.dram.mem.set (same none) (q.addr / 64) (some data) } } t.dev) ∧
      (q.port ≠ 0 → q.port ≠ 1 → q.port ≠ 3 → Answers s (.eccPeerRepair u data false) fun t =>
        t.nv = s.nv ∧ t.dev.out = [.dram q.port q.addr 0 true] ∧ t.dev.pennant pageMem 1 = true ∧
        t.dev.rfld pageMem 0x064 0 32 = min (s.dev.rfld pageMem 0x064 0 32 + 1) 0xFFFFFFFF)) ∧
    (s.dev.dram.repairs = [] → ∀ ok, AnswersButReports s (.eccPeerRepair u data ok) (s.at u))

/-- R538, R539, R548, R549: an interval of refresh whose rank no request wants is repaid at once; one that every bank's requests hold up
is forced once the debt reaches POSTPONE. MR4 tells a rank above its range, a retraining window closes the rank's rows and counts as a
refresh, patrol scrub asks for its burst in class BE, one at a time, and a training that ends makes the memory ready or faulty; the third
failure of a boot turns every lane off (R634).
Where the rules leave the reading open, the statement follows the model's (log entries 34 and 62).
Under conditions on the state and the operands alone, `memTrainingDone`, `refreshDebtTick`, `mr4Read`, `retrainWindow`,
`patrolScrubRead` answer a next state each, with their own effect. -/
def Obligations.DramUpkeep : Prop :=
  (∀ (s : State) (u : Nat) (sc k : Fin 2), memReady s.dev = true → rankThere s.dev sc.val k.val = true →
    (s.dev.dram.queue = [] → Answers s (.refreshDebtTick u sc k) fun t =>
      t.nv = s.nv ∧ rankOf t.dev sc.val k.val = { rankOf s.dev sc.val k.val with debt := 0, left := 15 } ∧
      t.dev.dram = { s.dev.dram with ranks := t.dev.dram.ranks, rows := t.dev.dram.rows } ∧
      SameButReports { s.at u with dram := t.dev.dram } t.dev) ∧
    ((∀ b, b < 4 → bankWanted s.dev sc.val k.val b = true) → (rankOf s.dev sc.val k.val).left = 15 →
      s.dev.fld pageMem 0x050 0 3 ≤ (rankOf s.dev sc.val k.val).debt + 1 → Answers s (.refreshDebtTick u sc k) fun t =>
        t.nv = s.nv ∧ rankOf t.dev sc.val k.val = rankOf s.dev sc.val k.val ∧ t.dev.pennant pageMem 4 = true ∧
        t.dev.rfld pageMem 0x070 0 32 = min (s.dev.rfld pageMem 0x070 0 32 + 1) 0xFFFFFFFF ∧
        t.dev.dram.queue = s.dev.dram.queue ∧ t.dev.dram.mem = s.dev.dram.mem) ∧
    (∀ r : Mr4Report, Answers s (.mr4Read u sc k r) fun t =>
      t.nv = s.nv ∧
      rankOf t.dev sc.val k.val = { rankOf s.dev sc.val k.val with hot := r.fast || r.above, above := r.above } ∧
      (r.above = true → t.dev.pennant pageMem 5 = true) ∧
      SameButReports { s.at u with dram := { s.dev.dram with ranks := t.dev.dram.ranks } } t.dev) ∧
    (Answers s (.retrainWindow u sc k) fun t =>
      t.nv = s.nv ∧ (rankOf t.dev sc.val k.val).debt = (rankOf s.dev sc.val k.val).debt - 1 ∧
      (∀ b, b < 32 → t.dev.dram.rows.get (same none) (32 * rankKey sc.val k.val + b) = none) ∧
      t.dev.dram = { s.dev.dram with ranks := t.dev.dram.ranks, rows := t.dev.dram.rows } ∧
      SameButReports { s.at u with dram := t.dev.dram } t.dev)) ∧
  (∀ (s : State) (u : Nat) (sc k : Fin 2) (r : Mr4Report), memReady s.dev = false ∨ rankThere s.dev sc.val k.val = false →
    AnswersButReports s (.refreshDebtTick u sc k) (s.at u) ∧ AnswersButReports s (.mr4Read u sc k r) (s.at u) ∧
    AnswersButReports s (.retrainWindow u sc k) (s.at u)) ∧
  (∀ (s : State) (u : Nat), s.dev.dram.held = [] →
    let under := s.dev.dram.queue ++ s.dev.dram.inflight ++ s.dev.dram.repairs
    (∀ ecc : BitVec 2,
      let q : DramReq := { port := 9, addr := 64 * s.dev.rfld pageMem 0x078 0 29, write := false, data := 0, cls := 2
                           promoted := false, at0 := (s.at u).tick, client := .scrub ecc.toNat }
      (memReady s.dev = true → s.dev.flag pageMem 0x048 16 = true → (∀ x, x ∈ under → ∀ e, x.client ≠ .scrub e) →
        q.addr < memBytes s.dev →
        (rateAdmits (s.at u) 9 = true → queueRoom s.dev q = true → Answers s (.patrolScrubRead u ecc) fun t =>
          t.nv = s.nv ∧ SameButReports { s.at u with
            dram := { s.dev.dram with queue := s.dev.dram.queue ++ [q], buckets := t.dev.dram.buckets } } t.dev) ∧
        (rateAdmits (s.at u) 9 = false ∨ queueRoom s.dev q = false →
          AnswersButReports s (.patrolScrubRead u ecc) { s.at u with dram := { s.dev.dram with held := [q] } })) ∧
      ((∃ x e, x ∈ under ∧ x.client = .scrub e) → AnswersButReports s (.patrolScrubRead u ecc) (s.at u))) ∧
    (memReady s.dev = false ∨ s.dev.flag pageMem 0x048 16 = false → ∀ ecc,
      AnswersButReports s (.patrolScrubRead u ecc) (s.at u))) ∧
  ∀ (s : State) (u : Nat),
    (s.dev.dram.training = true → s.dev.dram.held = [] → Answers s (.memTrainingDone u { step := 0 }) fun t =>
      t.nv = s.nv ∧ t.dev.dram = { s.dev.dram with training := false, trained := true, attempts := 0 } ∧
      t.dev.rfld pageMem 0x074 0 32 = 0 ∧ SameButReports { s.at u with regs := t.dev.regs, dram := t.dev.dram } t.dev) ∧
    (∀ x : TrainingEnd, s.dev.dram.training = true → x.step ≠ 0 → Answers s (.memTrainingDone u x) fun t =>
      t.nv = s.nv ∧ t.dev.pennant pageMem 6 = true ∧ t.dev.rfld pageMem 0x074 0 32 = x.step.toNat ∧
      (s.dev.boot.stage ≠ 4 → t.dev.dram = { s.dev.dram with
        training := false, fault := true, attempts := s.dev.dram.attempts + 1 } ∧ t.dev.boot = s.dev.boot) ∧
      (s.dev.boot.stage = 4 → s.dev.boot.result = 0 →
        (2 ≤ s.dev.dram.attempts → t.dev.boot = { s.dev.boot with result := 5, lanesAt := none } ∧
          ∀ l, l < 56 → (laneOf t.dev l).stage = 0 ∧ t.dev.enabled (pageLan l) = false) ∧
        (s.dev.dram.attempts < 2 → t.dev.boot = s.dev.boot ∧ t.dev.dram.training = true))) ∧
    (s.dev.dram.training = false → ∀ x, AnswersButReports s (.memTrainingDone u x) (s.at u))

/-! ### Ingot coder (chapter 17) -/

/-- R552 to R557: what the encoder writes, the decoder reads: an ingot that the encoder makes of 64 samples, with any predictors, any
ratio and any history of the stream, decodes with the same history to those samples. -/
def Obligations.IngotRoundTrip : Prop :=
  ∀ (en ratio : Nat) (history xs : List Word) (ingot : List Byte), xs.length = 64 →
    encodeIngot en ratio history xs = some ingot → decodeIngot history ingot = .ok xs

/-- A job as its entry starts it, in the buffer of its first descriptor, whose bytes are `first`. -/
def Sys2Proof.Machine.jobOfEntry (e : Entry) (decode : Bool) (first : List Byte) : CoderJob :=
  { newJob e with
    decode := decode, taken := 1, moved := 1, buffer := some (leNat (first.take 8), leNat ((first.drop 8).take 4), 0) }

/-- R558, R559, R561, R562: ENCODE and DECODE start the job of their ring in the buffer of its first descriptor, wait for that, or
end with FETCH where its read fails; RESUME gives a paused job its new buffers, and the ingot that
waited goes to the first of them; a RESUME without a job starts none; ABANDON ends the jobs it names, one in the middle of an ingot at the
ingot's end.
Where the rules leave the reading open, the statement follows the model's (log entries 19 and 63).
Under conditions on the state and the operands alone, `encode`, `decode`, `resume`, `icdJobAbandon` answer a next state each,
with their own effect. -/
def Obligations.CoderJobs : Prop :=
  (∀ (s : State) (u : Nat) (r : Fin 2) (e : Entry) (bs : List Byte), entryReady (s.at u) (12 + r.val) e = true →
    s.dev.enabled pageIcd = true → jobFormatOk e = true →
    let len := leNat ((bs.drop 8).take 4)
    (jobOf s.dev r.val = none → groupRipe s.dev pageIcd s.dev.cycle 0 = false →
      let started (t : State) (decode : Bool) : Prop :=
        t.nv = s.nv ∧ jobOf t.dev r.val = some (jobOfEntry e decode bs) ∧
        (∀ k, k ≠ r.val → jobOf t.dev k = jobOf s.dev k) ∧
        SameButReports { (consumed (s.at u) (12 + r.val)).setReg pageIcd (0x060 + 4 * r.val) 0 with
          coder := t.dev.coder } t.dev
      let waits (i : Instr) : Dev := setRing (s.at u) (12 + r.val) { ringOf s.dev (12 + r.val) with
        parked := some i, begun := true, at0 := ringCons s.dev (12 + r.val), stale := false }
      let unread (t : State) : Prop :=
        t.nv = s.nv ∧ (∀ k, jobOf t.dev k = jobOf s.dev k) ∧ t.dev.pennant pageHif 0 = true ∧
        t.dev.rfld pageHif 0x060 0 32 = min (s.dev.rfld pageHif 0x060 0 32 + 1) 0xFFFFFFFF ∧
        ringCons t.dev (12 + r.val) = ringCons (consumed (s.at u) (12 + r.val)) (12 + r.val)
      (byteField e 0 1 = 0x31 →
        (16 ≤ bs.length → 4 ≤ len → len % 4 = 0 → Answers s (.encode u r e (.ok bs)) fun t => started t false) ∧
        ((ringOf s.dev (12 + r.val)).begun = false →
          AnswersButReports s (.encode u r e .waiting) (waits (.encode 0 r e .waiting))) ∧
        Answers s (.encode u r e .failed) unread) ∧
      (byteField e 0 1 = 0x32 →
        (16 ≤ bs.length → 4 ≤ len → len % 4 = 0 → Answers s (.decode u r e (.ok bs)) fun t => started t true) ∧
        ((ringOf s.dev (12 + r.val)).begun = false →
          AnswersButReports s (.decode u r e .waiting) (waits (.decode 0 r e .waiting))) ∧
        Answers s (.decode u r e .failed) unread) ∧
      (byteField e 0 1 = 0x33 → Answers s (.resume u r e (.ok bs)) fun t =>
        t.nv = s.nv ∧ (∀ k, jobOf t.dev k = jobOf s.dev k) ∧
        SameButReports { consumed (s.at u) (12 + r.val) with coder := t.dev.coder } t.dev)) ∧
    (∀ j, jobOf s.dev r.val = some j → j.starved = true → j.decode = false → j.held ≠ [] → j.ending = false →
      j.next + 1 < byteField j.entry 16 4 → byteField e 0 1 = 0x33 → bit (byteField e 1 1) 1 = false → 16 ≤ bs.length →
      len % 4 = 0 → 4 ≤ len → j.held.length ≤ len →
      Answers s (.resume u r e (.ok bs)) fun t =>
        t.nv = s.nv ∧ t.dev.out = [.host (leNat (bs.take 8)) j.held] ∧ (∀ k, k ≠ r.val → jobOf t.dev k = jobOf s.dev k) ∧
        ∃ j', jobOf t.dev r.val = some j' ∧ j'.starved = false ∧ j'.entry = j.entry ∧ j'.next = j.next + 1 ∧
          j'.coded = j.coded + 1 ∧ j'.bytes = j.bytes + j.held.length ∧ j'.moved = j.moved + 1 ∧ j'.held = [])) ∧
  ∀ (s : State) (u : Nat) (v : Word), writeAccepted (s.at u) pageIcd 0x040 v.toNat = true →
    Answers s (.icdJobAbandon u v) fun t =>
      t.nv = s.nv ∧
      (∀ r, jobOf t.dev r = if r < 2 ∧ bit v.toNat r = true then
        (jobOf s.dev r).bind fun j => if j.reading then some { j with ending := true } else none
        else jobOf s.dev r) ∧
      ((∃ r j, r < 2 ∧ bit v.toNat r = true ∧ jobOf s.dev r = some j ∧ j.reading = false) → t.dev.pennant pageIcd 3 = true) ∧
      t.dev.heats = s.dev.heats ∧ t.dev.dram = s.dev.dram

/-- R556, R557, R560 to R562: the next ingot of a running job. One that is coded, or decoded, goes to the buffer in use where it has
room; one that does not shrink is passed over with its record and the stream begins anew; a fault ends a decode job. With IN_DEV the input is read from the device's DRAM first. A ring without a running
job of that kind does nothing.
Where the rules leave the reading open, the statement follows the model's (log entry 63).
Under conditions on the state and the operands alone, `ingotEncode`, `ingotDecode` answer a next state each, with their own
effect. -/
def Obligations.CoderIngots : Prop :=
  ∀ (s : State) (u : Nat) (r : Fin 2) (bs : List Byte),
    (∀ (j : CoderJob) (rd : HostRead), jobOf s.dev r.val = some j → j.starved = false → jobTurn s.dev r.val = true →
      (ringOf s.dev (12 + r.val)).parked = none → j.reading = false → j.input = none → bit (byteField j.entry 1 1) 0 = true →
      burstsOf s.dev (byteField j.entry 8 8 + inputLength j * j.next) (inputLength j) ≠ [] →
      Answers s (if j.decode then .ingotDecode u r rd else .ingotEncode u r rd) fun t =>
        t.nv = s.nv ∧ jobOf t.dev r.val = some { j with input := some s.dev.dram.transferCount } ∧
        (∀ k, k ≠ r.val → jobOf t.dev k = jobOf s.dev k) ∧ t.dev.dram.transferCount = s.dev.dram.transferCount + 1 ∧
        t.dev.heats = s.dev.heats) ∧
    (∀ (j : CoderJob) (a left used : Nat), jobOf s.dev r.val = some j → j.starved = false → jobTurn s.dev r.val = true →
      (ringOf s.dev (12 + r.val)).parked = none → j.reading = false → j.input = none → j.ending = false →
      bit (byteField j.entry 1 1) 0 = false → j.outDev = false →
      j.buffer = some (a, left, used) → j.next + 1 < byteField j.entry 16 4 →
      let ratio := byteField j.entry 2 1
      let placed (t : State) (bytes : List Byte) (xs : List Word) (counter : Nat) : Prop :=
        t.nv = s.nv ∧ t.dev.out = [.host a bytes] ∧
        jobOf t.dev r.val = some { j with
          buffer := some (a + bytes.length, left - bytes.length, used + bytes.length), bytes := j.bytes + bytes.length
          next := j.next + 1, coded := j.coded + 1, history := pushHistory j.history xs, held := [] } ∧
        t.dev.rfld pageIcd counter 0 32 = min (s.dev.rfld pageIcd counter 0 32 + 1) 0xFFFFFFFF ∧
        (∀ k, k ≠ r.val → jobOf t.dev k = jobOf s.dev k) ∧
        SameButReports { s.at u with regs := t.dev.regs, coder := t.dev.coder, out := t.dev.out } t.dev
      (j.decode = false → 256 ≤ bs.length →
        (∀ b, encodeIngot (s.dev.fld pageIcd 0x044 0 3) ratio j.history (wordsOf 64 (bs.take 256)) = some b → b.length ≤ left →
          b ≠ [] → Answers s (.ingotEncode u r (.ok bs)) fun t => placed t b (wordsOf 64 (bs.take 256)) 0x068) ∧
        (encodeIngot (s.dev.fld pageIcd 0x044 0 3) ratio j.history (wordsOf 64 (bs.take 256)) = none →
          Answers s (.ingotEncode u r (.ok bs)) fun t =>
            t.nv = s.nv ∧ t.dev.out = [] ∧ t.dev.pennant pageIcd 0 = true ∧
            jobOf t.dev r.val = some { j with next := j.next + 1, history := [] } ∧
            t.dev.rfld pageIcd 0x06C 0 32 = min (s.dev.rfld pageIcd 0x06C 0 32 + 1) 0xFFFFFFFF)) ∧
      (j.decode = true → ingotLength ratio ≤ bs.length →
        (∀ xs, decodeIngot j.history (bs.take (ingotLength ratio)) = .ok xs → xs ≠ [] → (bytesOf xs).length ≤ left →
          Answers s (.ingotDecode u r (.ok bs)) fun t => placed t (bytesOf xs) xs 0x070) ∧
        (∀ c, decodeIngot j.history (bs.take (ingotLength ratio)) = .error c →
          Answers s (.ingotDecode u r (.ok bs)) fun t =>
            t.nv = s.nv ∧ jobOf t.dev r.val = none ∧ t.dev.pennant pageIcd 1 = true ∧
            t.dev.rfld pageIcd 0x074 0 32 = min (s.dev.rfld pageIcd 0x074 0 32 + 1) 0xFFFFFFFF))) ∧
    (jobOf s.dev r.val = none → ∀ rd,
      AnswersButReports s (.ingotEncode u r rd) (s.at u) ∧ AnswersButReports s (.ingotDecode u r rd) (s.at u))

/-! ### Calibration (chapter 12) -/

/-- R422 to R425, R437: while no run is in hand the device takes an entry of a calibration ring: a right PLATE, POWER, BLACKBODY or
TRIM entry becomes the run, due three cycles later, with its parameters, once its buffer has been read, and a holder sends it to its standby (R427); a DRIFT entry marks its station; one with a reserved value
starts nothing.
Where the rules leave the reading open, the statement follows the model's (log entry 64).
Under conditions on the state and the operands alone, `plate`, `power`, `blackbody`, `trim`, `drift` answer a next state each,
with their own effect. -/
def Obligations.CalibrationEntries : Prop :=
  ∀ (s : State) (u : Nat) (k : Fin 2) (e : Entry), entryReady (s.at u) (16 + k.val) e = true → s.dev.par.role ≠ roleStandby →
    s.dev.cal.run = none → s.dev.enabled pageCal = true → (calType e = 0x24 ∨ drifting s.dev (calTarget e) = false) →
    (if k.val = 0 then (ringOf s.dev 17).begun = false
      else ringCons s.dev 16 = ringProd s.dev 16 ∧ (ringOf s.dev 16).begun = false) →
    let run (buffer : List Byte) : CalRun :=
      { type := calType e, target := calTarget e, tag := byteField e 4 4, ring := k.val, addr := calAddr e
        startAt := s.dev.cycle + 3, buffer := buffer }
    let runs (buffer : List Byte) : Dev :=
      { consumed (s.at u) (16 + k.val) with cal := { s.dev.cal with run := some (run buffer) } }
    (calEntryOk e = true →
      (∀ b, calType e = 0x21 → 64 ≤ calLength e → plateOk b (calLength e) = true →
        Answers s (.plate u k e (.ok b)) (LeavesForwarding s (runs b))) ∧
      ((ringOf s.dev (16 + k.val)).begun = false → ∀ i, calType e = 0x21 ∧ i = .plate u k e .waiting ∨
          calType e = 0x22 ∧ i = .power u k e .waiting → AnswersButReports s i (setRing (s.at u) (16 + k.val)
            { ringOf s.dev (16 + k.val) with
              parked := some i, begun := true, at0 := ringCons s.dev (16 + k.val), stale := false })) ∧
      (∀ b, calType e = 0x22 → 32 ≤ calLength e → powerOk b (calLength e) = true →
        Answers s (.power u k e (.ok b)) (LeavesForwarding s (runs b))) ∧
      (∀ rd, calType e = 0x23 → Answers s (.blackbody u k e rd) (LeavesForwarding s (runs (leBytes 32 e.toNat)))) ∧
      (∀ rd, calType e = 0x24 → Answers s (.trim u k e rd) (LeavesForwarding s (runs []))) ∧
      (∀ rd, calType e = 0x25 → Answers s (.drift u k e rd) fun t =>
        (∀ n, calStation t.dev n = if n = calTarget e then
          { calStation s.dev n with due := some (k.val, byteField e 4 4) } else calStation s.dev n) ∧
        t.dev.cal = { s.dev.cal with stations := t.dev.cal.stations } ∧
        LeavesForwarding s { consumed (s.at u) (16 + k.val) with cal := t.dev.cal } t)) ∧
    (calEntryOk e = false → ∀ rd (i : Instr),
      i = .plate u k e rd ∨ i = .power u k e rd ∨ i = .blackbody u k e rd ∨ i = .trim u k e rd ∨ i = .drift u k e rd →
      Answers s i fun t =>
        t.nv = s.nv ∧ SameButReports { consumed (s.at u) (16 + k.val) with free := t.dev.free } t.dev)

/-- R421, R425, R430, R431, R437, R438, R444: a run starts when it is due, with the next run number and its station in service; a drift run
starts on a free station that is due; a power run that is done ends and its trim waits to apply; CAL_RUN.ABORT ends the run
and frees its station; staged trims apply three cycles later until a heat has started. An edge of a plate's
comparator waits for the next cycle; a standby notes it for the holder's record of it (R486).
Where the rules leave the reading open, the statement follows the model's (log entry 64).
Under conditions on the state and the operands alone, `calRunStart`, `driftRunStart`, `calRunEnd`, `calRunAbort`,
`calResultApply`, `pltInEdge` answer a next state each, with their own effect. -/
def Obligations.CalibrationRuns : Prop :=
  (∀ (s : State) (r : CalRun), s.dev.cal.run = some r → s.dev.running = true → r.started = false →
    (r.startAt ≤ s.dev.cycle → Answers s .calRunStart fun t =>
      t.nv = s.nv ∧ t.dev.cal.runs = s.dev.cal.runs + 1 ∧
      (∃ temp motion, t.dev.cal.run =
        some { r with started := true, number := s.dev.cal.runs + 1, temp := temp, motion := motion }) ∧
      (r.type ≠ 0x24 → stationOf t.dev r.target = { stationOf s.dev r.target with
          service := true, serviceGate := none, denied := false, motion := 6 } ∧
        ∀ k, k ≠ r.target → stationOf t.dev k = stationOf s.dev k) ∧
      (r.type = 0x24 → t.dev.stations = s.dev.stations) ∧
      SameButReports { s.now with cal := t.dev.cal, stations := t.dev.stations } t.dev) ∧
    (s.dev.cycle < r.startAt → AnswersButReports s .calRunStart s.now)) ∧
  (∀ (s : State) (n : Fin 32),
    (∀ q, s.dev.computes = true → stationFree s.dev n.val = true → s.dev.cal.run = none → drifting s.dev n.val = false →
      s.dev.enabled pageCal = true → (calStation s.dev n.val).due = some q → Answers s (.driftRunStart n) fun t =>
        t.nv = s.nv ∧ (∃ r, getRun t.dev (some n.val) = some r ∧ r.type = 0x25 ∧ r.target = n.val ∧ r.ring = q.1 ∧
          r.tag = q.2 ∧ r.started = true ∧ r.number = s.dev.cal.runs + 1) ∧
        (calStation t.dev n.val).due = none ∧ (stationOf t.dev n.val).service = true ∧
        (∀ k, k ≠ n.val → stationOf t.dev k = stationOf s.dev k ∧ getRun t.dev (some k) = getRun s.dev (some k)) ∧
        SameButReports { s.now with cal := t.dev.cal, stations := t.dev.stations } t.dev) ∧
    (driftDue s.dev n.val = false → AnswersButReports s (.driftRunStart n) s.now)) ∧
  (∀ (s : State) (r : CalRun), s.dev.cal.run = some r →
    (r.done = true → r.type = 0x22 → r.started = true → Answers s .calRunEnd fun t =>
      t.nv = s.nv ∧ t.dev.cal.run = none ∧ (calStation t.dev r.target).ptrimStaged = some (r.detail, s.dev.cycle) ∧
      (stationOf t.dev r.target).service = false ∧ (∀ k, k ≠ r.target → stationOf t.dev k = stationOf s.dev k) ∧
      t.dev.pennant pageCal 0 = true ∧
      SameButReports { s.now with cal := t.dev.cal, stations := t.dev.stations, out := t.dev.out } t.dev) ∧
    (r.done = false → AnswersButReports s .calRunEnd s.now) ∧
    ((∀ k, getRun s.dev (some k) = none) → r.type ≠ 0x24 → r.started = true → Answers s .calRunAbort fun t =>
      t.nv = s.nv ∧ t.dev.cal = { s.dev.cal with run := none } ∧ (stationOf t.dev r.target).service = false ∧
      (∀ k, k ≠ r.target → stationOf t.dev k = stationOf s.dev k) ∧ t.dev.pennant pageCal 2 = true ∧
      SameButReports { s.now with cal := t.dev.cal, stations := t.dev.stations } t.dev)) ∧
  (∀ s : State, s.dev.cal.run = none → (∀ k, getRun s.dev (some k) = none) → AnswersButReports s .calRunAbort s.now) ∧
  (∀ s : State,
    (s.dev.running = true → s.dev.heats.everStarted = false → (∀ k, (calStation s.dev k).termStaged = none) →
      Answers s .calResultApply fun t =>
        t.nv = s.nv ∧ (∀ k, k < 32 → calStation t.dev k =
          match (calStation s.dev k).ptrimStaged with
          | some (v, n) => if n + 3 ≤ s.dev.cycle then { calStation s.dev k with ptrim := v, ptrimStaged := none }
            else calStation s.dev k
          | none => calStation s.dev k) ∧
        SameButReports { s.now with cal := { s.dev.cal with stations := t.dev.cal.stations } } t.dev) ∧
    (s.dev.heats.everStarted = true → AnswersButReports s .calResultApply s.now)) ∧
  ∀ (s : State) (u : Nat) (i : Fin 16) (rising : Bool),
    (s.dev.running = true → s.dev.holds = true → Answers s (.pltInEdge u i rising) fun t =>
      t.nv = s.nv ∧ SameButReports { s.at u with
        cal := { s.dev.cal with edgesNext := s.dev.cal.edgesNext ++ [(i.val, (s.at u).tick, rising)] }, out := t.dev.out } t.dev) ∧
    (s.dev.running = true → s.dev.par.role = roleStandby → Answers s (.pltInEdge u i rising) fun t =>
      t.nv = s.nv ∧ (s.dev.par.notes = [] → t.dev.par.notes = [⟨1, i.val, rising, (s.at u).tick, true⟩]) ∧
      SameButReports { s.at u with par := { s.dev.par with notes := t.dev.par.notes } } t.dev) ∧
    (s.dev.running = false ∨ (s.dev.holds = false ∧ s.dev.par.role ≠ roleStandby) →
      AnswersButReports s (.pltInEdge u i rising) (s.at u))

/-! ### Recorder, timebase and monitors (chapters 19, 20) -/

/-- R592, R595, R597 to R605: a manual hoist is written in the clock after its own at the end of the log with its source, kind and tick, or counted where the log
is full; HIST_RESET empties the histograms, a sample of them, PERIOD cycles after the one before, counts every selected quantity; the last word of the clear key takes the
key while there is none; a clear without the right response changes nothing but its result, one with it empties
the log but for its own hoist, and with UNKEY the key too.
Where the rules leave the reading open, the statement follows the model's (log entries 44 and 80).
Under conditions on the state and the operands alone, `recManualHoist`, `recHistReset`, `recClear`, `recClearAndUnkey`,
`recKeyWrite`, `histogramSample` answer a next state each, with their own effect. -/
def Obligations.Recorder : Prop :=
  (∀ (s : State) (u : Nat), s.dev.recorder.triggers = [] →
    (writeAccepted (s.at u) pageRec 0x044 1 = true → s.dev.enabled pageRec = true → Answers s (.recManualHoist u) fun t =>
      t.nv = s.nv ∧ t.dev.recorder.triggers = [⟨pageRec, 255, 2, (s.at u).tick⟩] ∧ t.dev.recorder.log = s.dev.recorder.log ∧
      SameButReports { s.at u with regs := t.dev.regs } t.dev ∧
      ∀ k, (s.at u).tick < k → s.dev.recorder.clock ≠ (s.at u).tick →
        (s.dev.recorder.log.length + 1 < log2Cap s.dev →
          (∃ h : BitVec 768, (t.dev.advance k).recorder.log = h :: s.dev.recorder.log ∧
            byteField h 0 8 = (s.at u).tick % 2 ^ 64 ∧ byteField h 8 4 = s.dev.recorder.serial.toNat ∧
            byteField h 12 2 = pageRec ∧ byteField h 14 1 = 255 ∧ byteField h 15 1 = 2) ∧
          (t.dev.advance k).recorder.serial = s.dev.recorder.serial + 1) ∧
        (log2Cap s.dev ≤ s.dev.recorder.log.length → s.dev.recorder.missedFull ≠ 0xFFFFFFFF →
          (t.dev.advance k).recorder.log = s.dev.recorder.log ∧
          (t.dev.advance k).recorder.missedFull = s.dev.recorder.missedFull + 1)) ∧
    (s.dev.enabled pageRec = false → writeAccepted (s.at u) pageRec 0x044 1 = true → Answers s (.recManualHoist u) fun t =>
      t.nv = s.nv ∧ t.dev.recorder.triggers = [] ∧ SameButReports { s.at u with regs := t.dev.regs } t.dev) ∧
    (writeAccepted (s.at u) pageRec 0x044 2 = true → Answers s (.recHistReset u) fun t =>
      t.nv = s.nv ∧ (∀ k, t.dev.recorder.hist.get (same {}) k = if k < 16 then emptyHist s.dev k else {}) ∧
      t.dev.recorder.log = s.dev.recorder.log ∧
      SameButReports { s.at u with
        regs := t.dev.regs, recorder := { s.dev.recorder with hist := t.dev.recorder.hist } } t.dev)) ∧
  (∀ (s : State) (u : Nat) (cmd : Nat) (i : Instr), s.dev.recorder.triggers = [] →
    (cmd = 1 ∧ i = .recClear u ∨ cmd = 2 ∧ i = .recClearAndUnkey u) → writeAccepted (s.at u) pageRec 0x054 cmd = true →
    let failed (t : State) (result : Nat) : Prop :=
      t.nv = s.nv ∧ t.dev.recorder.result.toNat = result ∧ t.dev.recorder.key = s.dev.recorder.key ∧
      t.dev.recorder.clears = s.dev.recorder.clears ∧ t.dev.recorder.hist = s.dev.recorder.hist ∧
      t.dev.pennant pageRec 3 = true ∧ t.dev.mould = s.dev.mould
    (s.dev.recorder.key = 0 → Answers s i fun t => failed t 3) ∧
    (s.dev.recorder.key ≠ 0 → clearMac s.dev cmd ≠ s.dev.recorder.response.toNat → Answers s i fun t => failed t 2) ∧
    (s.dev.recorder.key ≠ 0 → clearMac s.dev cmd = s.dev.recorder.response.toNat → Answers s i fun t =>
      t.nv = s.nv ∧ t.dev.recorder.result.toNat = 1 ∧ t.dev.recorder.clears = s.dev.recorder.clears + 1 ∧
      t.dev.recorder.key = (if cmd = 2 then 0 else s.dev.recorder.key) ∧ t.dev.pennant pageRec 2 = true ∧
      (∃ h, t.dev.recorder.log = [h] ∧ byteField h 15 1 = 3) ∧
      t.dev.mould = (if cmd = 2 then { s.dev.mould with storeDirty := true } else s.dev.mould))) ∧
  (∀ (s : State) (u : Nat) (i : Fin 8) (v : Word), writeAccepted (s.at u) pageRec (0x1A0 + 4 * i.val) v.toNat = true →
    s.dev.recorder.key = 0 → Answers s (.recKeyWrite u i v) fun t =>
      t.nv = s.nv ∧ (i.val ≠ 7 → t.dev.recorder.key = 0 ∧ t.dev.mould = s.dev.mould) ∧
      (i.val = 7 → t.dev.mould = { s.dev.mould with storeDirty := true } ∧ bits t.dev.recorder.key.toNat 224 32 = v.toNat ∧
        ∀ j, j < 7 → bits t.dev.recorder.key.toNat (32 * j) 32 = s.dev.rfld pageRec (0x1A0 + 4 * j) 0 32) ∧
      t.dev.recorder.challenge = s.dev.recorder.challenge) ∧
  ∀ s : State,
    (s.dev.enabled pageRec = true → s.dev.flag pageRec 0x040 0 = true → s.dev.tick % 1250 = 0 →
      (∀ c, s.dev.recorder.sampledAt = some c → c + max 1 (s.dev.fld pageRec 0x180 0 16) ≤ s.dev.cycle) →
      Answers s .histogramSample fun t =>
      t.nv = s.nv ∧ t.dev.recorder.sampledAt = some s.dev.cycle ∧ (∀ i, i < 16 →
        let before := s.dev.recorder.hist.get (same {}) i
        let after := t.dev.recorder.hist.get (same {}) i
        if bit (s.dev.regs.inUse (wordAddr pageRec (0x100 + 8 * i))).toNat 31 = true then
          after.used = true ∧ after.samples = (if before.samples = 0xFFFFFFFF then before.samples else before.samples + 1)
        else after = before) ∧
      SameButReports { s.now with recorder := { s.dev.recorder with
        hist := t.dev.recorder.hist, sampledAt := t.dev.recorder.sampledAt } } t.dev) ∧
    (s.dev.enabled pageRec = false ∨ s.dev.flag pageRec 0x040 0 = false ∨ s.dev.tick % 1250 ≠ 0 ∨
        (∃ c, s.dev.recorder.sampledAt = some c ∧ s.dev.cycle < c + max 1 (s.dev.fld pageRec 0x180 0 16)) →
      AnswersButReports s .histogramSample s.now)

/-- R610, R611, R614 to R618: an edge of PPS_IN sooner than half a second after the last is counted and ignored; another is taken, ends
holdover, and where it can be measured gives the frequency, and the time of day that follows from it holds from the next tick on; without edges PPS is lost. The time of day crosses into its next second, or
the one that was set, and PPS_OUT falls when its pulse is over. Before their tick these do nothing.
Where the rules leave the reading open, the statement follows the model's (log entry 42).
Under conditions on the state and the operands alone, `ppsEdge`, `ppsLoss`, `wholeSecondCrossing`, `ppsOutFall`, `timSetSeconds`
answer a next state each, with their own effect. -/
def Obligations.TimeOfDay : Prop :=
  ∀ (s : State) (u : Nat),
    (s.dev.enabled pageTim = true →
      (∀ l, s.dev.tim.lastEdge = some l → ((s.at u).tick : Int) < l + 125000000 → Answers s (.ppsEdge u) fun t =>
        t.nv = s.nv ∧ t.dev.pennant pageTim 2 = true ∧
        SameButReports ((s.at u).setReg pageTim 0x090 (min (s.dev.rfld pageTim 0x090 0 32 + 1) 0xFFFFFFFF)) t.dev) ∧
      (∀ l, s.dev.tim.lastEdge = some l → l + 125000000 ≤ ((s.at u).tick : Int) → Answers s (.ppsEdge u) fun t =>
        let n := (((s.at u).tick : Int) - l).toNat
        t.nv = s.nv ∧ t.dev.tim.lastEdge = some ((s.at u).tick : Int) ∧ t.dev.tim.holdover = false ∧ t.dev.tim.lost = false ∧
        t.dev.tim.freq = (if s.dev.tim.lost = false ∧ 248000000 ≤ n ∧ n ≤ 252000000 ∧ s.dev.par.role ≠ roleStandby then
          ppsFreq n else s.dev.tim.freq) ∧
        t.dev.rfld pageTim 0x080 0 32 = (s.at u).tick % 2 ^ 32 ∧ t.dev.rfld pageTim 0x08C 0 32 = n % 2 ^ 32 ∧
        (s.dev.tim.holdover = true → t.dev.pennant pageTim 1 = true) ∧
        (s.dev.par.role ≠ roleStandby → s.dev.tim.base ≤ (s.at u).tick → (s.at u).tick < nextCrossing s.dev.tim →
          t.dev.tim.base = (s.at u).tick + 1 ∧ todAt t.dev.tim (s.at u).tick = todAt s.dev.tim (s.at u).tick ∧
          (s.dev.flag pageTim 0x040 0 = true → t.dev.tim.slew = clampInt (-5000000) 5000000 t.dev.tim.freq)) ∧
        SameButReports { s.at u with regs := t.dev.regs, tim := t.dev.tim, free := t.dev.free } t.dev) ∧
      (s.dev.tim.lost = false → (∀ l, s.dev.tim.lastEdge = some l → l + 375000000 ≤ ((s.at u).tick : Int)) →
        Answers s (.ppsLoss u) fun t =>
          t.nv = s.nv ∧ t.dev.tim.lost = true ∧ t.dev.tim.holdover = true ∧ t.dev.pennant pageTim 0 = true ∧
          (s.dev.par.role ≠ roleStandby → t.dev.tim.slew = clampInt (-5000000) 5000000 s.dev.tim.freq) ∧
          SameButReports { s.at u with regs := t.dev.regs, tim := t.dev.tim } t.dev) ∧
      (s.dev.tim.lost = true ∨ (∃ l, s.dev.tim.lastEdge = some l ∧ ((s.at u).tick : Int) < l + 375000000) →
        AnswersButReports s (.ppsLoss u) (s.at u))) ∧
    (s.dev.enabled pageTim = false →
      AnswersButReports s (.ppsEdge u) (s.at u) ∧ AnswersButReports s (.ppsLoss u) (s.at u)) ∧
    (nextCrossing s.dev.tim ≤ (s.at u).tick → Answers s (.wholeSecondCrossing u) fun t =>
      t.nv = s.nv ∧ t.dev.tim.base = nextCrossing s.dev.tim ∧ t.dev.tim.setSeconds = none ∧
      (∀ v, s.dev.tim.setSeconds = some v → t.dev.tim.sec = v ∧ t.dev.tim.secondsValid = true) ∧
      (s.dev.tim.setSeconds = none →
        t.dev.tim.sec = (s.dev.tim.sec + 1) % 2 ^ 48 ∧ t.dev.tim.secondsValid = s.dev.tim.secondsValid) ∧
      (t.dev.tim.secondsValid = true → s.dev.flag pageTim 0x040 1 = true → t.dev.tim.ppsOut = true ∧
        t.dev.tim.ppsFall = nextCrossing s.dev.tim + s.dev.fld pageTim 0x044 0 28) ∧
      t.dev.tim.slew = s.dev.tim.slew ∧ t.dev.tim.freq = s.dev.tim.freq ∧
      SameButReports { s.at u with tim := t.dev.tim } t.dev) ∧
    ((s.at u).tick < nextCrossing s.dev.tim → AnswersButReports s (.wholeSecondCrossing u) (s.at u)) ∧
    (s.dev.tim.ppsOut = true → s.dev.tim.ppsFall ≤ (s.at u).tick →
      AnswersButReports s (.ppsOutFall u) { s.at u with tim := { s.dev.tim with ppsOut := false } }) ∧
    ((s.at u).tick < s.dev.tim.ppsFall → AnswersButReports s (.ppsOutFall u) (s.at u)) ∧
    ∀ v : Long, writeAccepted (s.at u) pageTim 0x048 v.toNat = true → Answers s (.timSetSeconds u v) fun t =>
      t.nv = s.nv ∧ t.dev.tim = { s.dev.tim with setSeconds := some (v.toNat % 2 ^ 48) } ∧
      (∀ a, a / 4096 ≠ pageTim → reportWord a = false → t.dev.regs.read a = s.dev.regs.read a) ∧
      SameButReports { s.at u with regs := t.dev.regs, tim := t.dev.tim } t.dev

/-- R620 to R623: every twentieth cycle the sensors' readings stand in MON_TEMPi and the largest in MON_TEMP_MAX; one that reaches TEMP_WARN warns
once, one that becomes critical makes a holder yield in the next cycle and halts a standby then, and one that reaches the shutdown limit halts the device. A ring oscillator's count, one a second, stands in its register and a slow one warns once. A disabled
monitor does nothing, nor does a sample at another time.
Where the rules leave the reading open, the statement follows the model's (log entries 43 and 80).
Under conditions on the state and the operands alone, `temperatureSample`, `ringOscCount` answer a next state each, with their
own effect. -/
def Obligations.Monitors : Prop :=
  (∀ (s : State) (r : Vector (BitVec 16) 24),
    (s.dev.enabled pageMon = true → s.dev.cycle % 20 = 0 → s.dev.tick % 1250 = 0 → Answers s (.temperatureSample r) fun t =>
      t.nv = s.nv ∧ (∀ i : Fin 24, t.dev.rfld pageMon (0x060 + 4 * i.val) 0 32 = (r.get i).toNat) ∧
      (∀ i : Fin 24, (r.get i).toInt ≤ signed 16 (t.dev.rfld pageMon 0x0C0 0 16)) ∧
      (∃ i : Fin 24, (r.get i).toInt = signed 16 (t.dev.rfld pageMon 0x0C0 0 16) ∧ t.dev.rfld pageMon 0x0C0 16 16 = i.val) ∧
      ((∃ i : Fin 24, s.dev.sfld pageMon 0x040 0 16 ≤ (r.get i).toInt ∧ s.dev.mon.warned.getLsbD i.val = false) →
        t.dev.pennant pageMon 0 = true) ∧
      ((∃ i : Fin 24, s.dev.sfld pageMon 0x044 0 16 ≤ (r.get i).toInt) →
        t.dev.par.role = roleHalted ∧ t.dev.boot.healthOut = false ∧ t.dev.stp.moves = []) ∧
      ((∃ i : Fin 24, s.dev.sfld pageMon 0x040 16 16 ≤ (r.get i).toInt) → s.dev.mon.crit = false →
        t.dev.pennant pageMon 1 = true ∧
        ((∀ i : Fin 24, (r.get i).toInt < s.dev.sfld pageMon 0x044 0 16) →
          (s.dev.pairHolder = true → t.dev.par = { s.dev.par with yieldAfter := true } ∧ t.dev.boot = s.dev.boot) ∧
          (s.dev.par.role = roleStandby →
            t.dev.par = s.dev.par ∧ t.dev.boot = { s.dev.boot with haltAt := some (s.dev.cycle + 1) }))) ∧
      ((∀ i : Fin 24, (r.get i).toInt < s.dev.sfld pageMon 0x044 0 16 ∧ (r.get i).toInt < s.dev.sfld pageMon 0x040 16 16) →
        t.dev.par = s.dev.par ∧ t.dev.boot = s.dev.boot ∧ t.dev.stp = s.dev.stp) ∧
      t.dev.tick = s.dev.tick ∧ t.dev.heats = s.dev.heats ∧ t.dev.mould = s.dev.mould) ∧
    (s.dev.enabled pageMon = false ∨ s.dev.cycle % 20 ≠ 0 ∨ s.dev.tick % 1250 ≠ 0 →
      AnswersButReports s (.temperatureSample r) s.now)) ∧
  ∀ (s : State) (u : Nat) (k : Fin 8) (count : Word),
    let due := s.dev.mon.oscDue.get (same 0) k.val
    (s.dev.enabled pageMon = true → due ≤ (s.at u).cycle → Answers s (.ringOscCount u k count) fun t =>
      t.nv = s.nv ∧ t.dev.mon.oscDue.get (same 0) k.val = (s.at u).cycle + 200000 ∧ t.dev.rfld pageMon (0x180 + 4 * k.val) 0 32 = count.toNat % 2 ^ 24 ∧
      (count.toNat % 2 ^ 24 < s.dev.fld pageMon 0x1A0 0 24 → s.dev.mon.slow.getLsbD k.val = false →
        t.dev.pennant pageMon 4 = true) ∧
      SameButReports { s.at u with regs := t.dev.regs, mon := t.dev.mon } t.dev) ∧
    (s.dev.enabled pageMon = false ∨ (s.at u).cycle < due →
      AnswersButReports s (.ringOscCount u k count) (s.at u))

end
end

