-- ==== Sys2Proof/Laws/State.lean ====
section
/-! SUPPORT. What each named update of the device leaves in each of its fields, all true by unfolding; and the same for
the whole state, so that no later proof unfolds a record update. -/
namespace Sys2Proof.Laws
open Sys2Proof.Machine

/-! ### setReg -/

@[simp] theorem setReg_tick (d : Dev) (p off v : Nat) : (d.setReg p off v).tick = d.tick := rfl
@[simp] theorem setReg_rings (d : Dev) (p off v : Nat) : (d.setReg p off v).rings = d.rings := rfl
@[simp] theorem setReg_hif (d : Dev) (p off v : Nat) : (d.setReg p off v).hif = d.hif := rfl
@[simp] theorem setReg_recorder (d : Dev) (p off v : Nat) : (d.setReg p off v).recorder = d.recorder := rfl
@[simp] theorem setReg_tim (d : Dev) (p off v : Nat) : (d.setReg p off v).tim = d.tim := rfl
@[simp] theorem setReg_mon (d : Dev) (p off v : Nat) : (d.setReg p off v).mon = d.mon := rfl
@[simp] theorem setReg_boot (d : Dev) (p off v : Nat) : (d.setReg p off v).boot = d.boot := rfl
@[simp] theorem setReg_par (d : Dev) (p off v : Nat) : (d.setReg p off v).par = d.par := rfl
@[simp] theorem setReg_lanes (d : Dev) (p off v : Nat) : (d.setReg p off v).lanes = d.lanes := rfl
@[simp] theorem setReg_stp (d : Dev) (p off v : Nat) : (d.setReg p off v).stp = d.stp := rfl
@[simp] theorem setReg_mould (d : Dev) (p off v : Nat) : (d.setReg p off v).mould = d.mould := rfl
@[simp] theorem setReg_dram (d : Dev) (p off v : Nat) : (d.setReg p off v).dram = d.dram := rfl
@[simp] theorem setReg_coder (d : Dev) (p off v : Nat) : (d.setReg p off v).coder = d.coder := rfl
@[simp] theorem setReg_heats (d : Dev) (p off v : Nat) : (d.setReg p off v).heats = d.heats := rfl
@[simp] theorem setReg_sched (d : Dev) (p off v : Nat) : (d.setReg p off v).sched = d.sched := rfl
@[simp] theorem setReg_ladle (d : Dev) (p off v : Nat) : (d.setReg p off v).ladle = d.ladle := rfl
@[simp] theorem setReg_map (d : Dev) (p off v : Nat) : (d.setReg p off v).map = d.map := rfl
@[simp] theorem setReg_stations (d : Dev) (p off v : Nat) : (d.setReg p off v).stations = d.stations := rfl
@[simp] theorem setReg_fct (d : Dev) (p off v : Nat) : (d.setReg p off v).fct = d.fct := rfl
@[simp] theorem setReg_cal (d : Dev) (p off v : Nat) : (d.setReg p off v).cal = d.cal := rfl
@[simp] theorem setReg_channels (d : Dev) (p off v : Nat) : (d.setReg p off v).channels = d.channels := rfl
@[simp] theorem setReg_emus (d : Dev) (p off v : Nat) : (d.setReg p off v).emus = d.emus := rfl
@[simp] theorem setReg_axes (d : Dev) (p off v : Nat) : (d.setReg p off v).axes = d.axes := rfl
@[simp] theorem setReg_traces (d : Dev) (p off v : Nat) : (d.setReg p off v).traces = d.traces := rfl
@[simp] theorem setReg_ctxs (d : Dev) (p off v : Nat) : (d.setReg p off v).ctxs = d.ctxs := rfl
@[simp] theorem setReg_img (d : Dev) (p off v : Nat) : (d.setReg p off v).img = d.img := rfl
@[simp] theorem setReg_lhd (d : Dev) (p off v : Nat) : (d.setReg p off v).lhd = d.lhd := rfl
@[simp] theorem setReg_mirror (d : Dev) (p off v : Nat) : (d.setReg p off v).mirror = d.mirror := rfl
@[simp] theorem setReg_out (d : Dev) (p off v : Nat) : (d.setReg p off v).out = d.out := rfl
@[simp] theorem setReg_free (d : Dev) (p off v : Nat) : (d.setReg p off v).free = d.free := rfl

/-! ### setFld -/

@[simp] theorem setFld_tick (d : Dev) (p off lo w v : Nat) : (d.setFld p off lo w v).tick = d.tick := rfl
@[simp] theorem setFld_rings (d : Dev) (p off lo w v : Nat) : (d.setFld p off lo w v).rings = d.rings := rfl
@[simp] theorem setFld_hif (d : Dev) (p off lo w v : Nat) : (d.setFld p off lo w v).hif = d.hif := rfl
@[simp] theorem setFld_recorder (d : Dev) (p off lo w v : Nat) : (d.setFld p off lo w v).recorder = d.recorder := rfl
@[simp] theorem setFld_tim (d : Dev) (p off lo w v : Nat) : (d.setFld p off lo w v).tim = d.tim := rfl
@[simp] theorem setFld_mon (d : Dev) (p off lo w v : Nat) : (d.setFld p off lo w v).mon = d.mon := rfl
@[simp] theorem setFld_boot (d : Dev) (p off lo w v : Nat) : (d.setFld p off lo w v).boot = d.boot := rfl
@[simp] theorem setFld_par (d : Dev) (p off lo w v : Nat) : (d.setFld p off lo w v).par = d.par := rfl
@[simp] theorem setFld_lanes (d : Dev) (p off lo w v : Nat) : (d.setFld p off lo w v).lanes = d.lanes := rfl
@[simp] theorem setFld_stp (d : Dev) (p off lo w v : Nat) : (d.setFld p off lo w v).stp = d.stp := rfl
@[simp] theorem setFld_mould (d : Dev) (p off lo w v : Nat) : (d.setFld p off lo w v).mould = d.mould := rfl
@[simp] theorem setFld_dram (d : Dev) (p off lo w v : Nat) : (d.setFld p off lo w v).dram = d.dram := rfl
@[simp] theorem setFld_coder (d : Dev) (p off lo w v : Nat) : (d.setFld p off lo w v).coder = d.coder := rfl
@[simp] theorem setFld_heats (d : Dev) (p off lo w v : Nat) : (d.setFld p off lo w v).heats = d.heats := rfl
@[simp] theorem setFld_sched (d : Dev) (p off lo w v : Nat) : (d.setFld p off lo w v).sched = d.sched := rfl
@[simp] theorem setFld_ladle (d : Dev) (p off lo w v : Nat) : (d.setFld p off lo w v).ladle = d.ladle := rfl
@[simp] theorem setFld_map (d : Dev) (p off lo w v : Nat) : (d.setFld p off lo w v).map = d.map := rfl
@[simp] theorem setFld_stations (d : Dev) (p off lo w v : Nat) : (d.setFld p off lo w v).stations = d.stations := rfl
@[simp] theorem setFld_fct (d : Dev) (p off lo w v : Nat) : (d.setFld p off lo w v).fct = d.fct := rfl
@[simp] theorem setFld_cal (d : Dev) (p off lo w v : Nat) : (d.setFld p off lo w v).cal = d.cal := rfl
@[simp] theorem setFld_channels (d : Dev) (p off lo w v : Nat) : (d.setFld p off lo w v).channels = d.channels := rfl
@[simp] theorem setFld_emus (d : Dev) (p off lo w v : Nat) : (d.setFld p off lo w v).emus = d.emus := rfl
@[simp] theorem setFld_axes (d : Dev) (p off lo w v : Nat) : (d.setFld p off lo w v).axes = d.axes := rfl
@[simp] theorem setFld_traces (d : Dev) (p off lo w v : Nat) : (d.setFld p off lo w v).traces = d.traces := rfl
@[simp] theorem setFld_ctxs (d : Dev) (p off lo w v : Nat) : (d.setFld p off lo w v).ctxs = d.ctxs := rfl
@[simp] theorem setFld_img (d : Dev) (p off lo w v : Nat) : (d.setFld p off lo w v).img = d.img := rfl
@[simp] theorem setFld_lhd (d : Dev) (p off lo w v : Nat) : (d.setFld p off lo w v).lhd = d.lhd := rfl
@[simp] theorem setFld_mirror (d : Dev) (p off lo w v : Nat) : (d.setFld p off lo w v).mirror = d.mirror := rfl
@[simp] theorem setFld_out (d : Dev) (p off lo w v : Nat) : (d.setFld p off lo w v).out = d.out := rfl
@[simp] theorem setFld_free (d : Dev) (p off lo w v : Nat) : (d.setFld p off lo w v).free = d.free := rfl

/-! ### setReg64 -/

@[simp] theorem setReg64_tick (d : Dev) (p off v : Nat) : (d.setReg64 p off v).tick = d.tick := rfl
@[simp] theorem setReg64_rings (d : Dev) (p off v : Nat) : (d.setReg64 p off v).rings = d.rings := rfl
@[simp] theorem setReg64_hif (d : Dev) (p off v : Nat) : (d.setReg64 p off v).hif = d.hif := rfl
@[simp] theorem setReg64_recorder (d : Dev) (p off v : Nat) : (d.setReg64 p off v).recorder = d.recorder := rfl
@[simp] theorem setReg64_tim (d : Dev) (p off v : Nat) : (d.setReg64 p off v).tim = d.tim := rfl
@[simp] theorem setReg64_mon (d : Dev) (p off v : Nat) : (d.setReg64 p off v).mon = d.mon := rfl
@[simp] theorem setReg64_boot (d : Dev) (p off v : Nat) : (d.setReg64 p off v).boot = d.boot := rfl
@[simp] theorem setReg64_par (d : Dev) (p off v : Nat) : (d.setReg64 p off v).par = d.par := rfl
@[simp] theorem setReg64_lanes (d : Dev) (p off v : Nat) : (d.setReg64 p off v).lanes = d.lanes := rfl
@[simp] theorem setReg64_stp (d : Dev) (p off v : Nat) : (d.setReg64 p off v).stp = d.stp := rfl
@[simp] theorem setReg64_mould (d : Dev) (p off v : Nat) : (d.setReg64 p off v).mould = d.mould := rfl
@[simp] theorem setReg64_dram (d : Dev) (p off v : Nat) : (d.setReg64 p off v).dram = d.dram := rfl
@[simp] theorem setReg64_coder (d : Dev) (p off v : Nat) : (d.setReg64 p off v).coder = d.coder := rfl
@[simp] theorem setReg64_heats (d : Dev) (p off v : Nat) : (d.setReg64 p off v).heats = d.heats := rfl
@[simp] theorem setReg64_sched (d : Dev) (p off v : Nat) : (d.setReg64 p off v).sched = d.sched := rfl
@[simp] theorem setReg64_ladle (d : Dev) (p off v : Nat) : (d.setReg64 p off v).ladle = d.ladle := rfl
@[simp] theorem setReg64_map (d : Dev) (p off v : Nat) : (d.setReg64 p off v).map = d.map := rfl
@[simp] theorem setReg64_stations (d : Dev) (p off v : Nat) : (d.setReg64 p off v).stations = d.stations := rfl
@[simp] theorem setReg64_fct (d : Dev) (p off v : Nat) : (d.setReg64 p off v).fct = d.fct := rfl
@[simp] theorem setReg64_cal (d : Dev) (p off v : Nat) : (d.setReg64 p off v).cal = d.cal := rfl
@[simp] theorem setReg64_channels (d : Dev) (p off v : Nat) : (d.setReg64 p off v).channels = d.channels := rfl
@[simp] theorem setReg64_emus (d : Dev) (p off v : Nat) : (d.setReg64 p off v).emus = d.emus := rfl
@[simp] theorem setReg64_axes (d : Dev) (p off v : Nat) : (d.setReg64 p off v).axes = d.axes := rfl
@[simp] theorem setReg64_traces (d : Dev) (p off v : Nat) : (d.setReg64 p off v).traces = d.traces := rfl
@[simp] theorem setReg64_ctxs (d : Dev) (p off v : Nat) : (d.setReg64 p off v).ctxs = d.ctxs := rfl
@[simp] theorem setReg64_img (d : Dev) (p off v : Nat) : (d.setReg64 p off v).img = d.img := rfl
@[simp] theorem setReg64_lhd (d : Dev) (p off v : Nat) : (d.setReg64 p off v).lhd = d.lhd := rfl
@[simp] theorem setReg64_mirror (d : Dev) (p off v : Nat) : (d.setReg64 p off v).mirror = d.mirror := rfl
@[simp] theorem setReg64_out (d : Dev) (p off v : Nat) : (d.setReg64 p off v).out = d.out := rfl
@[simp] theorem setReg64_free (d : Dev) (p off v : Nat) : (d.setReg64 p off v).free = d.free := rfl

/-! ### addCount -/

@[simp] theorem addCount_tick (d : Dev) (p off n : Nat) : (d.addCount p off n).tick = d.tick := rfl
@[simp] theorem addCount_rings (d : Dev) (p off n : Nat) : (d.addCount p off n).rings = d.rings := rfl
@[simp] theorem addCount_hif (d : Dev) (p off n : Nat) : (d.addCount p off n).hif = d.hif := rfl
@[simp] theorem addCount_recorder (d : Dev) (p off n : Nat) : (d.addCount p off n).recorder = d.recorder := rfl
@[simp] theorem addCount_tim (d : Dev) (p off n : Nat) : (d.addCount p off n).tim = d.tim := rfl
@[simp] theorem addCount_mon (d : Dev) (p off n : Nat) : (d.addCount p off n).mon = d.mon := rfl
@[simp] theorem addCount_boot (d : Dev) (p off n : Nat) : (d.addCount p off n).boot = d.boot := rfl
@[simp] theorem addCount_par (d : Dev) (p off n : Nat) : (d.addCount p off n).par = d.par := rfl
@[simp] theorem addCount_lanes (d : Dev) (p off n : Nat) : (d.addCount p off n).lanes = d.lanes := rfl
@[simp] theorem addCount_stp (d : Dev) (p off n : Nat) : (d.addCount p off n).stp = d.stp := rfl
@[simp] theorem addCount_mould (d : Dev) (p off n : Nat) : (d.addCount p off n).mould = d.mould := rfl
@[simp] theorem addCount_dram (d : Dev) (p off n : Nat) : (d.addCount p off n).dram = d.dram := rfl
@[simp] theorem addCount_coder (d : Dev) (p off n : Nat) : (d.addCount p off n).coder = d.coder := rfl
@[simp] theorem addCount_heats (d : Dev) (p off n : Nat) : (d.addCount p off n).heats = d.heats := rfl
@[simp] theorem addCount_sched (d : Dev) (p off n : Nat) : (d.addCount p off n).sched = d.sched := rfl
@[simp] theorem addCount_ladle (d : Dev) (p off n : Nat) : (d.addCount p off n).ladle = d.ladle := rfl
@[simp] theorem addCount_map (d : Dev) (p off n : Nat) : (d.addCount p off n).map = d.map := rfl
@[simp] theorem addCount_stations (d : Dev) (p off n : Nat) : (d.addCount p off n).stations = d.stations := rfl
@[simp] theorem addCount_fct (d : Dev) (p off n : Nat) : (d.addCount p off n).fct = d.fct := rfl
@[simp] theorem addCount_cal (d : Dev) (p off n : Nat) : (d.addCount p off n).cal = d.cal := rfl
@[simp] theorem addCount_channels (d : Dev) (p off n : Nat) : (d.addCount p off n).channels = d.channels := rfl
@[simp] theorem addCount_emus (d : Dev) (p off n : Nat) : (d.addCount p off n).emus = d.emus := rfl
@[simp] theorem addCount_axes (d : Dev) (p off n : Nat) : (d.addCount p off n).axes = d.axes := rfl
@[simp] theorem addCount_traces (d : Dev) (p off n : Nat) : (d.addCount p off n).traces = d.traces := rfl
@[simp] theorem addCount_ctxs (d : Dev) (p off n : Nat) : (d.addCount p off n).ctxs = d.ctxs := rfl
@[simp] theorem addCount_img (d : Dev) (p off n : Nat) : (d.addCount p off n).img = d.img := rfl
@[simp] theorem addCount_lhd (d : Dev) (p off n : Nat) : (d.addCount p off n).lhd = d.lhd := rfl
@[simp] theorem addCount_mirror (d : Dev) (p off n : Nat) : (d.addCount p off n).mirror = d.mirror := rfl
@[simp] theorem addCount_out (d : Dev) (p off n : Nat) : (d.addCount p off n).out = d.out := rfl
@[simp] theorem addCount_free (d : Dev) (p off n : Nat) : (d.addCount p off n).free = d.free := rfl

/-! ### count -/

@[simp] theorem count_tick (d : Dev) (p off : Nat) : (d.count p off).tick = d.tick := rfl
@[simp] theorem count_rings (d : Dev) (p off : Nat) : (d.count p off).rings = d.rings := rfl
@[simp] theorem count_hif (d : Dev) (p off : Nat) : (d.count p off).hif = d.hif := rfl
@[simp] theorem count_recorder (d : Dev) (p off : Nat) : (d.count p off).recorder = d.recorder := rfl
@[simp] theorem count_tim (d : Dev) (p off : Nat) : (d.count p off).tim = d.tim := rfl
@[simp] theorem count_mon (d : Dev) (p off : Nat) : (d.count p off).mon = d.mon := rfl
@[simp] theorem count_boot (d : Dev) (p off : Nat) : (d.count p off).boot = d.boot := rfl
@[simp] theorem count_par (d : Dev) (p off : Nat) : (d.count p off).par = d.par := rfl
@[simp] theorem count_lanes (d : Dev) (p off : Nat) : (d.count p off).lanes = d.lanes := rfl
@[simp] theorem count_stp (d : Dev) (p off : Nat) : (d.count p off).stp = d.stp := rfl
@[simp] theorem count_mould (d : Dev) (p off : Nat) : (d.count p off).mould = d.mould := rfl
@[simp] theorem count_dram (d : Dev) (p off : Nat) : (d.count p off).dram = d.dram := rfl
@[simp] theorem count_coder (d : Dev) (p off : Nat) : (d.count p off).coder = d.coder := rfl
@[simp] theorem count_heats (d : Dev) (p off : Nat) : (d.count p off).heats = d.heats := rfl
@[simp] theorem count_sched (d : Dev) (p off : Nat) : (d.count p off).sched = d.sched := rfl
@[simp] theorem count_ladle (d : Dev) (p off : Nat) : (d.count p off).ladle = d.ladle := rfl
@[simp] theorem count_map (d : Dev) (p off : Nat) : (d.count p off).map = d.map := rfl
@[simp] theorem count_stations (d : Dev) (p off : Nat) : (d.count p off).stations = d.stations := rfl
@[simp] theorem count_fct (d : Dev) (p off : Nat) : (d.count p off).fct = d.fct := rfl
@[simp] theorem count_cal (d : Dev) (p off : Nat) : (d.count p off).cal = d.cal := rfl
@[simp] theorem count_channels (d : Dev) (p off : Nat) : (d.count p off).channels = d.channels := rfl
@[simp] theorem count_emus (d : Dev) (p off : Nat) : (d.count p off).emus = d.emus := rfl
@[simp] theorem count_axes (d : Dev) (p off : Nat) : (d.count p off).axes = d.axes := rfl
@[simp] theorem count_traces (d : Dev) (p off : Nat) : (d.count p off).traces = d.traces := rfl
@[simp] theorem count_ctxs (d : Dev) (p off : Nat) : (d.count p off).ctxs = d.ctxs := rfl
@[simp] theorem count_img (d : Dev) (p off : Nat) : (d.count p off).img = d.img := rfl
@[simp] theorem count_lhd (d : Dev) (p off : Nat) : (d.count p off).lhd = d.lhd := rfl
@[simp] theorem count_mirror (d : Dev) (p off : Nat) : (d.count p off).mirror = d.mirror := rfl
@[simp] theorem count_out (d : Dev) (p off : Nat) : (d.count p off).out = d.out := rfl
@[simp] theorem count_free (d : Dev) (p off : Nat) : (d.count p off).free = d.free := rfl

/-! ### setStaged -/

@[simp] theorem setStaged_tick (d : Dev) (p off lo w v : Nat) : (d.setStaged p off lo w v).tick = d.tick := rfl
@[simp] theorem setStaged_rings (d : Dev) (p off lo w v : Nat) : (d.setStaged p off lo w v).rings = d.rings := rfl
@[simp] theorem setStaged_hif (d : Dev) (p off lo w v : Nat) : (d.setStaged p off lo w v).hif = d.hif := rfl
@[simp] theorem setStaged_recorder (d : Dev) (p off lo w v : Nat) : (d.setStaged p off lo w v).recorder = d.recorder := rfl
@[simp] theorem setStaged_tim (d : Dev) (p off lo w v : Nat) : (d.setStaged p off lo w v).tim = d.tim := rfl
@[simp] theorem setStaged_mon (d : Dev) (p off lo w v : Nat) : (d.setStaged p off lo w v).mon = d.mon := rfl
@[simp] theorem setStaged_boot (d : Dev) (p off lo w v : Nat) : (d.setStaged p off lo w v).boot = d.boot := rfl
@[simp] theorem setStaged_par (d : Dev) (p off lo w v : Nat) : (d.setStaged p off lo w v).par = d.par := rfl
@[simp] theorem setStaged_lanes (d : Dev) (p off lo w v : Nat) : (d.setStaged p off lo w v).lanes = d.lanes := rfl
@[simp] theorem setStaged_stp (d : Dev) (p off lo w v : Nat) : (d.setStaged p off lo w v).stp = d.stp := rfl
@[simp] theorem setStaged_mould (d : Dev) (p off lo w v : Nat) : (d.setStaged p off lo w v).mould = d.mould := rfl
@[simp] theorem setStaged_dram (d : Dev) (p off lo w v : Nat) : (d.setStaged p off lo w v).dram = d.dram := rfl
@[simp] theorem setStaged_coder (d : Dev) (p off lo w v : Nat) : (d.setStaged p off lo w v).coder = d.coder := rfl
@[simp] theorem setStaged_heats (d : Dev) (p off lo w v : Nat) : (d.setStaged p off lo w v).heats = d.heats := rfl
@[simp] theorem setStaged_sched (d : Dev) (p off lo w v : Nat) : (d.setStaged p off lo w v).sched = d.sched := rfl
@[simp] theorem setStaged_ladle (d : Dev) (p off lo w v : Nat) : (d.setStaged p off lo w v).ladle = d.ladle := rfl
@[simp] theorem setStaged_map (d : Dev) (p off lo w v : Nat) : (d.setStaged p off lo w v).map = d.map := rfl
@[simp] theorem setStaged_stations (d : Dev) (p off lo w v : Nat) : (d.setStaged p off lo w v).stations = d.stations := rfl
@[simp] theorem setStaged_fct (d : Dev) (p off lo w v : Nat) : (d.setStaged p off lo w v).fct = d.fct := rfl
@[simp] theorem setStaged_cal (d : Dev) (p off lo w v : Nat) : (d.setStaged p off lo w v).cal = d.cal := rfl
@[simp] theorem setStaged_channels (d : Dev) (p off lo w v : Nat) : (d.setStaged p off lo w v).channels = d.channels := rfl
@[simp] theorem setStaged_emus (d : Dev) (p off lo w v : Nat) : (d.setStaged p off lo w v).emus = d.emus := rfl
@[simp] theorem setStaged_axes (d : Dev) (p off lo w v : Nat) : (d.setStaged p off lo w v).axes = d.axes := rfl
@[simp] theorem setStaged_traces (d : Dev) (p off lo w v : Nat) : (d.setStaged p off lo w v).traces = d.traces := rfl
@[simp] theorem setStaged_ctxs (d : Dev) (p off lo w v : Nat) : (d.setStaged p off lo w v).ctxs = d.ctxs := rfl
@[simp] theorem setStaged_img (d : Dev) (p off lo w v : Nat) : (d.setStaged p off lo w v).img = d.img := rfl
@[simp] theorem setStaged_lhd (d : Dev) (p off lo w v : Nat) : (d.setStaged p off lo w v).lhd = d.lhd := rfl
@[simp] theorem setStaged_mirror (d : Dev) (p off lo w v : Nat) : (d.setStaged p off lo w v).mirror = d.mirror := rfl
@[simp] theorem setStaged_out (d : Dev) (p off lo w v : Nat) : (d.setStaged p off lo w v).out = d.out := rfl
@[simp] theorem setStaged_free (d : Dev) (p off lo w v : Nat) : (d.setStaged p off lo w v).free = d.free := rfl

/-! ### mergeRead -/

@[simp] theorem mergeRead_tick (d : Dev) (p off v m : Nat) : (d.mergeRead p off v m).tick = d.tick := rfl
@[simp] theorem mergeRead_rings (d : Dev) (p off v m : Nat) : (d.mergeRead p off v m).rings = d.rings := rfl
@[simp] theorem mergeRead_hif (d : Dev) (p off v m : Nat) : (d.mergeRead p off v m).hif = d.hif := rfl
@[simp] theorem mergeRead_recorder (d : Dev) (p off v m : Nat) : (d.mergeRead p off v m).recorder = d.recorder := rfl
@[simp] theorem mergeRead_tim (d : Dev) (p off v m : Nat) : (d.mergeRead p off v m).tim = d.tim := rfl
@[simp] theorem mergeRead_mon (d : Dev) (p off v m : Nat) : (d.mergeRead p off v m).mon = d.mon := rfl
@[simp] theorem mergeRead_boot (d : Dev) (p off v m : Nat) : (d.mergeRead p off v m).boot = d.boot := rfl
@[simp] theorem mergeRead_par (d : Dev) (p off v m : Nat) : (d.mergeRead p off v m).par = d.par := rfl
@[simp] theorem mergeRead_lanes (d : Dev) (p off v m : Nat) : (d.mergeRead p off v m).lanes = d.lanes := rfl
@[simp] theorem mergeRead_stp (d : Dev) (p off v m : Nat) : (d.mergeRead p off v m).stp = d.stp := rfl
@[simp] theorem mergeRead_mould (d : Dev) (p off v m : Nat) : (d.mergeRead p off v m).mould = d.mould := rfl
@[simp] theorem mergeRead_dram (d : Dev) (p off v m : Nat) : (d.mergeRead p off v m).dram = d.dram := rfl
@[simp] theorem mergeRead_coder (d : Dev) (p off v m : Nat) : (d.mergeRead p off v m).coder = d.coder := rfl
@[simp] theorem mergeRead_heats (d : Dev) (p off v m : Nat) : (d.mergeRead p off v m).heats = d.heats := rfl
@[simp] theorem mergeRead_sched (d : Dev) (p off v m : Nat) : (d.mergeRead p off v m).sched = d.sched := rfl
@[simp] theorem mergeRead_ladle (d : Dev) (p off v m : Nat) : (d.mergeRead p off v m).ladle = d.ladle := rfl
@[simp] theorem mergeRead_map (d : Dev) (p off v m : Nat) : (d.mergeRead p off v m).map = d.map := rfl
@[simp] theorem mergeRead_stations (d : Dev) (p off v m : Nat) : (d.mergeRead p off v m).stations = d.stations := rfl
@[simp] theorem mergeRead_fct (d : Dev) (p off v m : Nat) : (d.mergeRead p off v m).fct = d.fct := rfl
@[simp] theorem mergeRead_cal (d : Dev) (p off v m : Nat) : (d.mergeRead p off v m).cal = d.cal := rfl
@[simp] theorem mergeRead_channels (d : Dev) (p off v m : Nat) : (d.mergeRead p off v m).channels = d.channels := rfl
@[simp] theorem mergeRead_emus (d : Dev) (p off v m : Nat) : (d.mergeRead p off v m).emus = d.emus := rfl
@[simp] theorem mergeRead_axes (d : Dev) (p off v m : Nat) : (d.mergeRead p off v m).axes = d.axes := rfl
@[simp] theorem mergeRead_traces (d : Dev) (p off v m : Nat) : (d.mergeRead p off v m).traces = d.traces := rfl
@[simp] theorem mergeRead_ctxs (d : Dev) (p off v m : Nat) : (d.mergeRead p off v m).ctxs = d.ctxs := rfl
@[simp] theorem mergeRead_img (d : Dev) (p off v m : Nat) : (d.mergeRead p off v m).img = d.img := rfl
@[simp] theorem mergeRead_lhd (d : Dev) (p off v m : Nat) : (d.mergeRead p off v m).lhd = d.lhd := rfl
@[simp] theorem mergeRead_mirror (d : Dev) (p off v m : Nat) : (d.mergeRead p off v m).mirror = d.mirror := rfl
@[simp] theorem mergeRead_out (d : Dev) (p off v m : Nat) : (d.mergeRead p off v m).out = d.out := rfl
@[simp] theorem mergeRead_free (d : Dev) (p off v m : Nat) : (d.mergeRead p off v m).free = d.free := rfl

/-! ### mergeInUse -/

@[simp] theorem mergeInUse_tick (d : Dev) (p off v m : Nat) : (d.mergeInUse p off v m).tick = d.tick := rfl
@[simp] theorem mergeInUse_rings (d : Dev) (p off v m : Nat) : (d.mergeInUse p off v m).rings = d.rings := rfl
@[simp] theorem mergeInUse_hif (d : Dev) (p off v m : Nat) : (d.mergeInUse p off v m).hif = d.hif := rfl
@[simp] theorem mergeInUse_recorder (d : Dev) (p off v m : Nat) : (d.mergeInUse p off v m).recorder = d.recorder := rfl
@[simp] theorem mergeInUse_tim (d : Dev) (p off v m : Nat) : (d.mergeInUse p off v m).tim = d.tim := rfl
@[simp] theorem mergeInUse_mon (d : Dev) (p off v m : Nat) : (d.mergeInUse p off v m).mon = d.mon := rfl
@[simp] theorem mergeInUse_boot (d : Dev) (p off v m : Nat) : (d.mergeInUse p off v m).boot = d.boot := rfl
@[simp] theorem mergeInUse_par (d : Dev) (p off v m : Nat) : (d.mergeInUse p off v m).par = d.par := rfl
@[simp] theorem mergeInUse_lanes (d : Dev) (p off v m : Nat) : (d.mergeInUse p off v m).lanes = d.lanes := rfl
@[simp] theorem mergeInUse_stp (d : Dev) (p off v m : Nat) : (d.mergeInUse p off v m).stp = d.stp := rfl
@[simp] theorem mergeInUse_mould (d : Dev) (p off v m : Nat) : (d.mergeInUse p off v m).mould = d.mould := rfl
@[simp] theorem mergeInUse_dram (d : Dev) (p off v m : Nat) : (d.mergeInUse p off v m).dram = d.dram := rfl
@[simp] theorem mergeInUse_coder (d : Dev) (p off v m : Nat) : (d.mergeInUse p off v m).coder = d.coder := rfl
@[simp] theorem mergeInUse_heats (d : Dev) (p off v m : Nat) : (d.mergeInUse p off v m).heats = d.heats := rfl
@[simp] theorem mergeInUse_sched (d : Dev) (p off v m : Nat) : (d.mergeInUse p off v m).sched = d.sched := rfl
@[simp] theorem mergeInUse_ladle (d : Dev) (p off v m : Nat) : (d.mergeInUse p off v m).ladle = d.ladle := rfl
@[simp] theorem mergeInUse_map (d : Dev) (p off v m : Nat) : (d.mergeInUse p off v m).map = d.map := rfl
@[simp] theorem mergeInUse_stations (d : Dev) (p off v m : Nat) : (d.mergeInUse p off v m).stations = d.stations := rfl
@[simp] theorem mergeInUse_fct (d : Dev) (p off v m : Nat) : (d.mergeInUse p off v m).fct = d.fct := rfl
@[simp] theorem mergeInUse_cal (d : Dev) (p off v m : Nat) : (d.mergeInUse p off v m).cal = d.cal := rfl
@[simp] theorem mergeInUse_channels (d : Dev) (p off v m : Nat) : (d.mergeInUse p off v m).channels = d.channels := rfl
@[simp] theorem mergeInUse_emus (d : Dev) (p off v m : Nat) : (d.mergeInUse p off v m).emus = d.emus := rfl
@[simp] theorem mergeInUse_axes (d : Dev) (p off v m : Nat) : (d.mergeInUse p off v m).axes = d.axes := rfl
@[simp] theorem mergeInUse_traces (d : Dev) (p off v m : Nat) : (d.mergeInUse p off v m).traces = d.traces := rfl
@[simp] theorem mergeInUse_ctxs (d : Dev) (p off v m : Nat) : (d.mergeInUse p off v m).ctxs = d.ctxs := rfl
@[simp] theorem mergeInUse_img (d : Dev) (p off v m : Nat) : (d.mergeInUse p off v m).img = d.img := rfl
@[simp] theorem mergeInUse_lhd (d : Dev) (p off v m : Nat) : (d.mergeInUse p off v m).lhd = d.lhd := rfl
@[simp] theorem mergeInUse_mirror (d : Dev) (p off v m : Nat) : (d.mergeInUse p off v m).mirror = d.mirror := rfl
@[simp] theorem mergeInUse_out (d : Dev) (p off v m : Nat) : (d.mergeInUse p off v m).out = d.out := rfl
@[simp] theorem mergeInUse_free (d : Dev) (p off v m : Nat) : (d.mergeInUse p off v m).free = d.free := rfl

/-! ### send -/

@[simp] theorem send_tick (d : Dev) (o : Out) : (d.send o).tick = d.tick := rfl
@[simp] theorem send_regs (d : Dev) (o : Out) : (d.send o).regs = d.regs := rfl
@[simp] theorem send_rings (d : Dev) (o : Out) : (d.send o).rings = d.rings := rfl
@[simp] theorem send_hif (d : Dev) (o : Out) : (d.send o).hif = d.hif := rfl
@[simp] theorem send_recorder (d : Dev) (o : Out) : (d.send o).recorder = d.recorder := rfl
@[simp] theorem send_tim (d : Dev) (o : Out) : (d.send o).tim = d.tim := rfl
@[simp] theorem send_mon (d : Dev) (o : Out) : (d.send o).mon = d.mon := rfl
@[simp] theorem send_boot (d : Dev) (o : Out) : (d.send o).boot = d.boot := rfl
@[simp] theorem send_par (d : Dev) (o : Out) : (d.send o).par = d.par := rfl
@[simp] theorem send_lanes (d : Dev) (o : Out) : (d.send o).lanes = d.lanes := rfl
@[simp] theorem send_stp (d : Dev) (o : Out) : (d.send o).stp = d.stp := rfl
@[simp] theorem send_mould (d : Dev) (o : Out) : (d.send o).mould = d.mould := rfl
@[simp] theorem send_dram (d : Dev) (o : Out) : (d.send o).dram = d.dram := rfl
@[simp] theorem send_coder (d : Dev) (o : Out) : (d.send o).coder = d.coder := rfl
@[simp] theorem send_heats (d : Dev) (o : Out) : (d.send o).heats = d.heats := rfl
@[simp] theorem send_sched (d : Dev) (o : Out) : (d.send o).sched = d.sched := rfl
@[simp] theorem send_ladle (d : Dev) (o : Out) : (d.send o).ladle = d.ladle := rfl
@[simp] theorem send_map (d : Dev) (o : Out) : (d.send o).map = d.map := rfl
@[simp] theorem send_stations (d : Dev) (o : Out) : (d.send o).stations = d.stations := rfl
@[simp] theorem send_fct (d : Dev) (o : Out) : (d.send o).fct = d.fct := rfl
@[simp] theorem send_cal (d : Dev) (o : Out) : (d.send o).cal = d.cal := rfl
@[simp] theorem send_channels (d : Dev) (o : Out) : (d.send o).channels = d.channels := rfl
@[simp] theorem send_emus (d : Dev) (o : Out) : (d.send o).emus = d.emus := rfl
@[simp] theorem send_axes (d : Dev) (o : Out) : (d.send o).axes = d.axes := rfl
@[simp] theorem send_traces (d : Dev) (o : Out) : (d.send o).traces = d.traces := rfl
@[simp] theorem send_ctxs (d : Dev) (o : Out) : (d.send o).ctxs = d.ctxs := rfl
@[simp] theorem send_img (d : Dev) (o : Out) : (d.send o).img = d.img := rfl
@[simp] theorem send_lhd (d : Dev) (o : Out) : (d.send o).lhd = d.lhd := rfl
@[simp] theorem send_mirror (d : Dev) (o : Out) : (d.send o).mirror = d.mirror := rfl
@[simp] theorem send_out (d : Dev) (o : Out) : (d.send o).out = d.out ++ [o] := rfl
@[simp] theorem send_free (d : Dev) (o : Out) : (d.send o).free = d.free := rfl

/-! ### fresh -/

@[simp] theorem fresh_tick (d : Dev) : (d.fresh.2).tick = d.tick := rfl
@[simp] theorem fresh_regs (d : Dev) : (d.fresh.2).regs = d.regs := rfl
@[simp] theorem fresh_rings (d : Dev) : (d.fresh.2).rings = d.rings := rfl
@[simp] theorem fresh_hif (d : Dev) : (d.fresh.2).hif = d.hif := rfl
@[simp] theorem fresh_recorder (d : Dev) : (d.fresh.2).recorder = d.recorder := rfl
@[simp] theorem fresh_tim (d : Dev) : (d.fresh.2).tim = d.tim := rfl
@[simp] theorem fresh_mon (d : Dev) : (d.fresh.2).mon = d.mon := rfl
@[simp] theorem fresh_boot (d : Dev) : (d.fresh.2).boot = d.boot := rfl
@[simp] theorem fresh_par (d : Dev) : (d.fresh.2).par = d.par := rfl
@[simp] theorem fresh_lanes (d : Dev) : (d.fresh.2).lanes = d.lanes := rfl
@[simp] theorem fresh_stp (d : Dev) : (d.fresh.2).stp = d.stp := rfl
@[simp] theorem fresh_mould (d : Dev) : (d.fresh.2).mould = d.mould := rfl
@[simp] theorem fresh_dram (d : Dev) : (d.fresh.2).dram = d.dram := rfl
@[simp] theorem fresh_coder (d : Dev) : (d.fresh.2).coder = d.coder := rfl
@[simp] theorem fresh_heats (d : Dev) : (d.fresh.2).heats = d.heats := rfl
@[simp] theorem fresh_sched (d : Dev) : (d.fresh.2).sched = d.sched := rfl
@[simp] theorem fresh_ladle (d : Dev) : (d.fresh.2).ladle = d.ladle := rfl
@[simp] theorem fresh_map (d : Dev) : (d.fresh.2).map = d.map := rfl
@[simp] theorem fresh_stations (d : Dev) : (d.fresh.2).stations = d.stations := rfl
@[simp] theorem fresh_fct (d : Dev) : (d.fresh.2).fct = d.fct := rfl
@[simp] theorem fresh_cal (d : Dev) : (d.fresh.2).cal = d.cal := rfl
@[simp] theorem fresh_channels (d : Dev) : (d.fresh.2).channels = d.channels := rfl
@[simp] theorem fresh_emus (d : Dev) : (d.fresh.2).emus = d.emus := rfl
@[simp] theorem fresh_axes (d : Dev) : (d.fresh.2).axes = d.axes := rfl
@[simp] theorem fresh_traces (d : Dev) : (d.fresh.2).traces = d.traces := rfl
@[simp] theorem fresh_ctxs (d : Dev) : (d.fresh.2).ctxs = d.ctxs := rfl
@[simp] theorem fresh_img (d : Dev) : (d.fresh.2).img = d.img := rfl
@[simp] theorem fresh_lhd (d : Dev) : (d.fresh.2).lhd = d.lhd := rfl
@[simp] theorem fresh_mirror (d : Dev) : (d.fresh.2).mirror = d.mirror := rfl
@[simp] theorem fresh_out (d : Dev) : (d.fresh.2).out = d.out := rfl
@[simp] theorem fresh_free (d : Dev) : (d.fresh.2).free = d.free + 1 := rfl

/-! ### setRing -/

@[simp] theorem setRing_tick (d : Dev) (r : Nat) (x : Ring) : (setRing d r x).tick = d.tick := rfl
@[simp] theorem setRing_regs (d : Dev) (r : Nat) (x : Ring) : (setRing d r x).regs = d.regs := rfl
@[simp] theorem setRing_rings (d : Dev) (r : Nat) (x : Ring) : (setRing d r x).rings = d.rings.set (same {}) r x := rfl
@[simp] theorem setRing_hif (d : Dev) (r : Nat) (x : Ring) : (setRing d r x).hif = d.hif := rfl
@[simp] theorem setRing_recorder (d : Dev) (r : Nat) (x : Ring) : (setRing d r x).recorder = d.recorder := rfl
@[simp] theorem setRing_tim (d : Dev) (r : Nat) (x : Ring) : (setRing d r x).tim = d.tim := rfl
@[simp] theorem setRing_mon (d : Dev) (r : Nat) (x : Ring) : (setRing d r x).mon = d.mon := rfl
@[simp] theorem setRing_boot (d : Dev) (r : Nat) (x : Ring) : (setRing d r x).boot = d.boot := rfl
@[simp] theorem setRing_par (d : Dev) (r : Nat) (x : Ring) : (setRing d r x).par = d.par := rfl
@[simp] theorem setRing_lanes (d : Dev) (r : Nat) (x : Ring) : (setRing d r x).lanes = d.lanes := rfl
@[simp] theorem setRing_stp (d : Dev) (r : Nat) (x : Ring) : (setRing d r x).stp = d.stp := rfl
@[simp] theorem setRing_mould (d : Dev) (r : Nat) (x : Ring) : (setRing d r x).mould = d.mould := rfl
@[simp] theorem setRing_dram (d : Dev) (r : Nat) (x : Ring) : (setRing d r x).dram = d.dram := rfl
@[simp] theorem setRing_coder (d : Dev) (r : Nat) (x : Ring) : (setRing d r x).coder = d.coder := rfl
@[simp] theorem setRing_heats (d : Dev) (r : Nat) (x : Ring) : (setRing d r x).heats = d.heats := rfl
@[simp] theorem setRing_sched (d : Dev) (r : Nat) (x : Ring) : (setRing d r x).sched = d.sched := rfl
@[simp] theorem setRing_ladle (d : Dev) (r : Nat) (x : Ring) : (setRing d r x).ladle = d.ladle := rfl
@[simp] theorem setRing_map (d : Dev) (r : Nat) (x : Ring) : (setRing d r x).map = d.map := rfl
@[simp] theorem setRing_stations (d : Dev) (r : Nat) (x : Ring) : (setRing d r x).stations = d.stations := rfl
@[simp] theorem setRing_fct (d : Dev) (r : Nat) (x : Ring) : (setRing d r x).fct = d.fct := rfl
@[simp] theorem setRing_cal (d : Dev) (r : Nat) (x : Ring) : (setRing d r x).cal = d.cal := rfl
@[simp] theorem setRing_channels (d : Dev) (r : Nat) (x : Ring) : (setRing d r x).channels = d.channels := rfl
@[simp] theorem setRing_emus (d : Dev) (r : Nat) (x : Ring) : (setRing d r x).emus = d.emus := rfl
@[simp] theorem setRing_axes (d : Dev) (r : Nat) (x : Ring) : (setRing d r x).axes = d.axes := rfl
@[simp] theorem setRing_traces (d : Dev) (r : Nat) (x : Ring) : (setRing d r x).traces = d.traces := rfl
@[simp] theorem setRing_ctxs (d : Dev) (r : Nat) (x : Ring) : (setRing d r x).ctxs = d.ctxs := rfl
@[simp] theorem setRing_img (d : Dev) (r : Nat) (x : Ring) : (setRing d r x).img = d.img := rfl
@[simp] theorem setRing_lhd (d : Dev) (r : Nat) (x : Ring) : (setRing d r x).lhd = d.lhd := rfl
@[simp] theorem setRing_mirror (d : Dev) (r : Nat) (x : Ring) : (setRing d r x).mirror = d.mirror := rfl
@[simp] theorem setRing_out (d : Dev) (r : Nat) (x : Ring) : (setRing d r x).out = d.out := rfl
@[simp] theorem setRing_free (d : Dev) (r : Nat) (x : Ring) : (setRing d r x).free = d.free := rfl

/-! ### setLane -/

@[simp] theorem setLane_tick (d : Dev) (l : Nat) (x : Lane) : (setLane d l x).tick = d.tick := rfl
@[simp] theorem setLane_regs (d : Dev) (l : Nat) (x : Lane) : (setLane d l x).regs = d.regs := rfl
@[simp] theorem setLane_rings (d : Dev) (l : Nat) (x : Lane) : (setLane d l x).rings = d.rings := rfl
@[simp] theorem setLane_hif (d : Dev) (l : Nat) (x : Lane) : (setLane d l x).hif = d.hif := rfl
@[simp] theorem setLane_recorder (d : Dev) (l : Nat) (x : Lane) : (setLane d l x).recorder = d.recorder := rfl
@[simp] theorem setLane_tim (d : Dev) (l : Nat) (x : Lane) : (setLane d l x).tim = d.tim := rfl
@[simp] theorem setLane_mon (d : Dev) (l : Nat) (x : Lane) : (setLane d l x).mon = d.mon := rfl
@[simp] theorem setLane_boot (d : Dev) (l : Nat) (x : Lane) : (setLane d l x).boot = d.boot := rfl
@[simp] theorem setLane_par (d : Dev) (l : Nat) (x : Lane) : (setLane d l x).par = d.par := rfl
@[simp] theorem setLane_lanes (d : Dev) (l : Nat) (x : Lane) : (setLane d l x).lanes = d.lanes.set (same {}) l x := rfl
@[simp] theorem setLane_stp (d : Dev) (l : Nat) (x : Lane) : (setLane d l x).stp = d.stp := rfl
@[simp] theorem setLane_mould (d : Dev) (l : Nat) (x : Lane) : (setLane d l x).mould = d.mould := rfl
@[simp] theorem setLane_dram (d : Dev) (l : Nat) (x : Lane) : (setLane d l x).dram = d.dram := rfl
@[simp] theorem setLane_coder (d : Dev) (l : Nat) (x : Lane) : (setLane d l x).coder = d.coder := rfl
@[simp] theorem setLane_heats (d : Dev) (l : Nat) (x : Lane) : (setLane d l x).heats = d.heats := rfl
@[simp] theorem setLane_sched (d : Dev) (l : Nat) (x : Lane) : (setLane d l x).sched = d.sched := rfl
@[simp] theorem setLane_ladle (d : Dev) (l : Nat) (x : Lane) : (setLane d l x).ladle = d.ladle := rfl
@[simp] theorem setLane_map (d : Dev) (l : Nat) (x : Lane) : (setLane d l x).map = d.map := rfl
@[simp] theorem setLane_stations (d : Dev) (l : Nat) (x : Lane) : (setLane d l x).stations = d.stations := rfl
@[simp] theorem setLane_fct (d : Dev) (l : Nat) (x : Lane) : (setLane d l x).fct = d.fct := rfl
@[simp] theorem setLane_cal (d : Dev) (l : Nat) (x : Lane) : (setLane d l x).cal = d.cal := rfl
@[simp] theorem setLane_channels (d : Dev) (l : Nat) (x : Lane) : (setLane d l x).channels = d.channels := rfl
@[simp] theorem setLane_emus (d : Dev) (l : Nat) (x : Lane) : (setLane d l x).emus = d.emus := rfl
@[simp] theorem setLane_axes (d : Dev) (l : Nat) (x : Lane) : (setLane d l x).axes = d.axes := rfl
@[simp] theorem setLane_traces (d : Dev) (l : Nat) (x : Lane) : (setLane d l x).traces = d.traces := rfl
@[simp] theorem setLane_ctxs (d : Dev) (l : Nat) (x : Lane) : (setLane d l x).ctxs = d.ctxs := rfl
@[simp] theorem setLane_img (d : Dev) (l : Nat) (x : Lane) : (setLane d l x).img = d.img := rfl
@[simp] theorem setLane_lhd (d : Dev) (l : Nat) (x : Lane) : (setLane d l x).lhd = d.lhd := rfl
@[simp] theorem setLane_mirror (d : Dev) (l : Nat) (x : Lane) : (setLane d l x).mirror = d.mirror := rfl
@[simp] theorem setLane_out (d : Dev) (l : Nat) (x : Lane) : (setLane d l x).out = d.out := rfl
@[simp] theorem setLane_free (d : Dev) (l : Nat) (x : Lane) : (setLane d l x).free = d.free := rfl

/-! ### setChannel -/

@[simp] theorem setChannel_tick (d : Dev) (c : Nat) (x : Channel) : (setChannel d c x).tick = d.tick := rfl
@[simp] theorem setChannel_regs (d : Dev) (c : Nat) (x : Channel) : (setChannel d c x).regs = d.regs := rfl
@[simp] theorem setChannel_rings (d : Dev) (c : Nat) (x : Channel) : (setChannel d c x).rings = d.rings := rfl
@[simp] theorem setChannel_hif (d : Dev) (c : Nat) (x : Channel) : (setChannel d c x).hif = d.hif := rfl
@[simp] theorem setChannel_recorder (d : Dev) (c : Nat) (x : Channel) : (setChannel d c x).recorder = d.recorder := rfl
@[simp] theorem setChannel_tim (d : Dev) (c : Nat) (x : Channel) : (setChannel d c x).tim = d.tim := rfl
@[simp] theorem setChannel_mon (d : Dev) (c : Nat) (x : Channel) : (setChannel d c x).mon = d.mon := rfl
@[simp] theorem setChannel_boot (d : Dev) (c : Nat) (x : Channel) : (setChannel d c x).boot = d.boot := rfl
@[simp] theorem setChannel_par (d : Dev) (c : Nat) (x : Channel) : (setChannel d c x).par = d.par := rfl
@[simp] theorem setChannel_lanes (d : Dev) (c : Nat) (x : Channel) : (setChannel d c x).lanes = d.lanes := rfl
@[simp] theorem setChannel_stp (d : Dev) (c : Nat) (x : Channel) : (setChannel d c x).stp = d.stp := rfl
@[simp] theorem setChannel_mould (d : Dev) (c : Nat) (x : Channel) : (setChannel d c x).mould = d.mould := rfl
@[simp] theorem setChannel_dram (d : Dev) (c : Nat) (x : Channel) : (setChannel d c x).dram = d.dram := rfl
@[simp] theorem setChannel_coder (d : Dev) (c : Nat) (x : Channel) : (setChannel d c x).coder = d.coder := rfl
@[simp] theorem setChannel_heats (d : Dev) (c : Nat) (x : Channel) : (setChannel d c x).heats = d.heats := rfl
@[simp] theorem setChannel_sched (d : Dev) (c : Nat) (x : Channel) : (setChannel d c x).sched = d.sched := rfl
@[simp] theorem setChannel_ladle (d : Dev) (c : Nat) (x : Channel) : (setChannel d c x).ladle = d.ladle := rfl
@[simp] theorem setChannel_map (d : Dev) (c : Nat) (x : Channel) : (setChannel d c x).map = d.map := rfl
@[simp] theorem setChannel_stations (d : Dev) (c : Nat) (x : Channel) : (setChannel d c x).stations = d.stations := rfl
@[simp] theorem setChannel_fct (d : Dev) (c : Nat) (x : Channel) : (setChannel d c x).fct = d.fct := rfl
@[simp] theorem setChannel_cal (d : Dev) (c : Nat) (x : Channel) : (setChannel d c x).cal = d.cal := rfl
@[simp] theorem setChannel_channels (d : Dev) (c : Nat) (x : Channel) : (setChannel d c x).channels = d.channels.set (same {}) c x := rfl
@[simp] theorem setChannel_emus (d : Dev) (c : Nat) (x : Channel) : (setChannel d c x).emus = d.emus := rfl
@[simp] theorem setChannel_axes (d : Dev) (c : Nat) (x : Channel) : (setChannel d c x).axes = d.axes := rfl
@[simp] theorem setChannel_traces (d : Dev) (c : Nat) (x : Channel) : (setChannel d c x).traces = d.traces := rfl
@[simp] theorem setChannel_ctxs (d : Dev) (c : Nat) (x : Channel) : (setChannel d c x).ctxs = d.ctxs := rfl
@[simp] theorem setChannel_img (d : Dev) (c : Nat) (x : Channel) : (setChannel d c x).img = d.img := rfl
@[simp] theorem setChannel_lhd (d : Dev) (c : Nat) (x : Channel) : (setChannel d c x).lhd = d.lhd := rfl
@[simp] theorem setChannel_mirror (d : Dev) (c : Nat) (x : Channel) : (setChannel d c x).mirror = d.mirror := rfl
@[simp] theorem setChannel_out (d : Dev) (c : Nat) (x : Channel) : (setChannel d c x).out = d.out := rfl
@[simp] theorem setChannel_free (d : Dev) (c : Nat) (x : Channel) : (setChannel d c x).free = d.free := rfl

/-! ### setEmu -/

@[simp] theorem setEmu_tick (d : Dev) (e : Nat) (x : Emu) : (setEmu d e x).tick = d.tick := rfl
@[simp] theorem setEmu_regs (d : Dev) (e : Nat) (x : Emu) : (setEmu d e x).regs = d.regs := rfl
@[simp] theorem setEmu_rings (d : Dev) (e : Nat) (x : Emu) : (setEmu d e x).rings = d.rings := rfl
@[simp] theorem setEmu_hif (d : Dev) (e : Nat) (x : Emu) : (setEmu d e x).hif = d.hif := rfl
@[simp] theorem setEmu_recorder (d : Dev) (e : Nat) (x : Emu) : (setEmu d e x).recorder = d.recorder := rfl
@[simp] theorem setEmu_tim (d : Dev) (e : Nat) (x : Emu) : (setEmu d e x).tim = d.tim := rfl
@[simp] theorem setEmu_mon (d : Dev) (e : Nat) (x : Emu) : (setEmu d e x).mon = d.mon := rfl
@[simp] theorem setEmu_boot (d : Dev) (e : Nat) (x : Emu) : (setEmu d e x).boot = d.boot := rfl
@[simp] theorem setEmu_par (d : Dev) (e : Nat) (x : Emu) : (setEmu d e x).par = d.par := rfl
@[simp] theorem setEmu_lanes (d : Dev) (e : Nat) (x : Emu) : (setEmu d e x).lanes = d.lanes := rfl
@[simp] theorem setEmu_stp (d : Dev) (e : Nat) (x : Emu) : (setEmu d e x).stp = d.stp := rfl
@[simp] theorem setEmu_mould (d : Dev) (e : Nat) (x : Emu) : (setEmu d e x).mould = d.mould := rfl
@[simp] theorem setEmu_dram (d : Dev) (e : Nat) (x : Emu) : (setEmu d e x).dram = d.dram := rfl
@[simp] theorem setEmu_coder (d : Dev) (e : Nat) (x : Emu) : (setEmu d e x).coder = d.coder := rfl
@[simp] theorem setEmu_heats (d : Dev) (e : Nat) (x : Emu) : (setEmu d e x).heats = d.heats := rfl
@[simp] theorem setEmu_sched (d : Dev) (e : Nat) (x : Emu) : (setEmu d e x).sched = d.sched := rfl
@[simp] theorem setEmu_ladle (d : Dev) (e : Nat) (x : Emu) : (setEmu d e x).ladle = d.ladle := rfl
@[simp] theorem setEmu_map (d : Dev) (e : Nat) (x : Emu) : (setEmu d e x).map = d.map := rfl
@[simp] theorem setEmu_stations (d : Dev) (e : Nat) (x : Emu) : (setEmu d e x).stations = d.stations := rfl
@[simp] theorem setEmu_fct (d : Dev) (e : Nat) (x : Emu) : (setEmu d e x).fct = d.fct := rfl
@[simp] theorem setEmu_cal (d : Dev) (e : Nat) (x : Emu) : (setEmu d e x).cal = d.cal := rfl
@[simp] theorem setEmu_channels (d : Dev) (e : Nat) (x : Emu) : (setEmu d e x).channels = d.channels := rfl
@[simp] theorem setEmu_emus (d : Dev) (e : Nat) (x : Emu) : (setEmu d e x).emus = d.emus.set (same {}) e x := rfl
@[simp] theorem setEmu_axes (d : Dev) (e : Nat) (x : Emu) : (setEmu d e x).axes = d.axes := rfl
@[simp] theorem setEmu_traces (d : Dev) (e : Nat) (x : Emu) : (setEmu d e x).traces = d.traces := rfl
@[simp] theorem setEmu_ctxs (d : Dev) (e : Nat) (x : Emu) : (setEmu d e x).ctxs = d.ctxs := rfl
@[simp] theorem setEmu_img (d : Dev) (e : Nat) (x : Emu) : (setEmu d e x).img = d.img := rfl
@[simp] theorem setEmu_lhd (d : Dev) (e : Nat) (x : Emu) : (setEmu d e x).lhd = d.lhd := rfl
@[simp] theorem setEmu_mirror (d : Dev) (e : Nat) (x : Emu) : (setEmu d e x).mirror = d.mirror := rfl
@[simp] theorem setEmu_out (d : Dev) (e : Nat) (x : Emu) : (setEmu d e x).out = d.out := rfl
@[simp] theorem setEmu_free (d : Dev) (e : Nat) (x : Emu) : (setEmu d e x).free = d.free := rfl

/-! ### setServo -/

@[simp] theorem setServo_tick (d : Dev) (j : Nat) (x : Sys2Proof.Machine.Axis) : (setServo d j x).tick = d.tick := rfl
@[simp] theorem setServo_regs (d : Dev) (j : Nat) (x : Sys2Proof.Machine.Axis) : (setServo d j x).regs = d.regs := rfl
@[simp] theorem setServo_rings (d : Dev) (j : Nat) (x : Sys2Proof.Machine.Axis) : (setServo d j x).rings = d.rings := rfl
@[simp] theorem setServo_hif (d : Dev) (j : Nat) (x : Sys2Proof.Machine.Axis) : (setServo d j x).hif = d.hif := rfl
@[simp] theorem setServo_recorder (d : Dev) (j : Nat) (x : Sys2Proof.Machine.Axis) : (setServo d j x).recorder = d.recorder := rfl
@[simp] theorem setServo_tim (d : Dev) (j : Nat) (x : Sys2Proof.Machine.Axis) : (setServo d j x).tim = d.tim := rfl
@[simp] theorem setServo_mon (d : Dev) (j : Nat) (x : Sys2Proof.Machine.Axis) : (setServo d j x).mon = d.mon := rfl
@[simp] theorem setServo_boot (d : Dev) (j : Nat) (x : Sys2Proof.Machine.Axis) : (setServo d j x).boot = d.boot := rfl
@[simp] theorem setServo_par (d : Dev) (j : Nat) (x : Sys2Proof.Machine.Axis) : (setServo d j x).par = d.par := rfl
@[simp] theorem setServo_lanes (d : Dev) (j : Nat) (x : Sys2Proof.Machine.Axis) : (setServo d j x).lanes = d.lanes := rfl
@[simp] theorem setServo_stp (d : Dev) (j : Nat) (x : Sys2Proof.Machine.Axis) : (setServo d j x).stp = d.stp := rfl
@[simp] theorem setServo_mould (d : Dev) (j : Nat) (x : Sys2Proof.Machine.Axis) : (setServo d j x).mould = d.mould := rfl
@[simp] theorem setServo_dram (d : Dev) (j : Nat) (x : Sys2Proof.Machine.Axis) : (setServo d j x).dram = d.dram := rfl
@[simp] theorem setServo_coder (d : Dev) (j : Nat) (x : Sys2Proof.Machine.Axis) : (setServo d j x).coder = d.coder := rfl
@[simp] theorem setServo_heats (d : Dev) (j : Nat) (x : Sys2Proof.Machine.Axis) : (setServo d j x).heats = d.heats := rfl
@[simp] theorem setServo_sched (d : Dev) (j : Nat) (x : Sys2Proof.Machine.Axis) : (setServo d j x).sched = d.sched := rfl
@[simp] theorem setServo_ladle (d : Dev) (j : Nat) (x : Sys2Proof.Machine.Axis) : (setServo d j x).ladle = d.ladle := rfl
@[simp] theorem setServo_map (d : Dev) (j : Nat) (x : Sys2Proof.Machine.Axis) : (setServo d j x).map = d.map := rfl
@[simp] theorem setServo_stations (d : Dev) (j : Nat) (x : Sys2Proof.Machine.Axis) : (setServo d j x).stations = d.stations := rfl
@[simp] theorem setServo_fct (d : Dev) (j : Nat) (x : Sys2Proof.Machine.Axis) : (setServo d j x).fct = d.fct := rfl
@[simp] theorem setServo_cal (d : Dev) (j : Nat) (x : Sys2Proof.Machine.Axis) : (setServo d j x).cal = d.cal := rfl
@[simp] theorem setServo_channels (d : Dev) (j : Nat) (x : Sys2Proof.Machine.Axis) : (setServo d j x).channels = d.channels := rfl
@[simp] theorem setServo_emus (d : Dev) (j : Nat) (x : Sys2Proof.Machine.Axis) : (setServo d j x).emus = d.emus := rfl
@[simp] theorem setServo_axes (d : Dev) (j : Nat) (x : Sys2Proof.Machine.Axis) : (setServo d j x).axes = d.axes.set (same {}) j x := rfl
@[simp] theorem setServo_traces (d : Dev) (j : Nat) (x : Sys2Proof.Machine.Axis) : (setServo d j x).traces = d.traces := rfl
@[simp] theorem setServo_ctxs (d : Dev) (j : Nat) (x : Sys2Proof.Machine.Axis) : (setServo d j x).ctxs = d.ctxs := rfl
@[simp] theorem setServo_img (d : Dev) (j : Nat) (x : Sys2Proof.Machine.Axis) : (setServo d j x).img = d.img := rfl
@[simp] theorem setServo_lhd (d : Dev) (j : Nat) (x : Sys2Proof.Machine.Axis) : (setServo d j x).lhd = d.lhd := rfl
@[simp] theorem setServo_mirror (d : Dev) (j : Nat) (x : Sys2Proof.Machine.Axis) : (setServo d j x).mirror = d.mirror := rfl
@[simp] theorem setServo_out (d : Dev) (j : Nat) (x : Sys2Proof.Machine.Axis) : (setServo d j x).out = d.out := rfl
@[simp] theorem setServo_free (d : Dev) (j : Nat) (x : Sys2Proof.Machine.Axis) : (setServo d j x).free = d.free := rfl

/-! ### setTrace -/

@[simp] theorem setTrace_tick (d : Dev) (c : Nat) (x : Sys2Proof.Machine.Trace) : (setTrace d c x).tick = d.tick := rfl
@[simp] theorem setTrace_regs (d : Dev) (c : Nat) (x : Sys2Proof.Machine.Trace) : (setTrace d c x).regs = d.regs := rfl
@[simp] theorem setTrace_rings (d : Dev) (c : Nat) (x : Sys2Proof.Machine.Trace) : (setTrace d c x).rings = d.rings := rfl
@[simp] theorem setTrace_hif (d : Dev) (c : Nat) (x : Sys2Proof.Machine.Trace) : (setTrace d c x).hif = d.hif := rfl
@[simp] theorem setTrace_recorder (d : Dev) (c : Nat) (x : Sys2Proof.Machine.Trace) : (setTrace d c x).recorder = d.recorder := rfl
@[simp] theorem setTrace_tim (d : Dev) (c : Nat) (x : Sys2Proof.Machine.Trace) : (setTrace d c x).tim = d.tim := rfl
@[simp] theorem setTrace_mon (d : Dev) (c : Nat) (x : Sys2Proof.Machine.Trace) : (setTrace d c x).mon = d.mon := rfl
@[simp] theorem setTrace_boot (d : Dev) (c : Nat) (x : Sys2Proof.Machine.Trace) : (setTrace d c x).boot = d.boot := rfl
@[simp] theorem setTrace_par (d : Dev) (c : Nat) (x : Sys2Proof.Machine.Trace) : (setTrace d c x).par = d.par := rfl
@[simp] theorem setTrace_lanes (d : Dev) (c : Nat) (x : Sys2Proof.Machine.Trace) : (setTrace d c x).lanes = d.lanes := rfl
@[simp] theorem setTrace_stp (d : Dev) (c : Nat) (x : Sys2Proof.Machine.Trace) : (setTrace d c x).stp = d.stp := rfl
@[simp] theorem setTrace_mould (d : Dev) (c : Nat) (x : Sys2Proof.Machine.Trace) : (setTrace d c x).mould = d.mould := rfl
@[simp] theorem setTrace_dram (d : Dev) (c : Nat) (x : Sys2Proof.Machine.Trace) : (setTrace d c x).dram = d.dram := rfl
@[simp] theorem setTrace_coder (d : Dev) (c : Nat) (x : Sys2Proof.Machine.Trace) : (setTrace d c x).coder = d.coder := rfl
@[simp] theorem setTrace_heats (d : Dev) (c : Nat) (x : Sys2Proof.Machine.Trace) : (setTrace d c x).heats = d.heats := rfl
@[simp] theorem setTrace_sched (d : Dev) (c : Nat) (x : Sys2Proof.Machine.Trace) : (setTrace d c x).sched = d.sched := rfl
@[simp] theorem setTrace_ladle (d : Dev) (c : Nat) (x : Sys2Proof.Machine.Trace) : (setTrace d c x).ladle = d.ladle := rfl
@[simp] theorem setTrace_map (d : Dev) (c : Nat) (x : Sys2Proof.Machine.Trace) : (setTrace d c x).map = d.map := rfl
@[simp] theorem setTrace_stations (d : Dev) (c : Nat) (x : Sys2Proof.Machine.Trace) : (setTrace d c x).stations = d.stations := rfl
@[simp] theorem setTrace_fct (d : Dev) (c : Nat) (x : Sys2Proof.Machine.Trace) : (setTrace d c x).fct = d.fct := rfl
@[simp] theorem setTrace_cal (d : Dev) (c : Nat) (x : Sys2Proof.Machine.Trace) : (setTrace d c x).cal = d.cal := rfl
@[simp] theorem setTrace_channels (d : Dev) (c : Nat) (x : Sys2Proof.Machine.Trace) : (setTrace d c x).channels = d.channels := rfl
@[simp] theorem setTrace_emus (d : Dev) (c : Nat) (x : Sys2Proof.Machine.Trace) : (setTrace d c x).emus = d.emus := rfl
@[simp] theorem setTrace_axes (d : Dev) (c : Nat) (x : Sys2Proof.Machine.Trace) : (setTrace d c x).axes = d.axes := rfl
@[simp] theorem setTrace_traces (d : Dev) (c : Nat) (x : Sys2Proof.Machine.Trace) : (setTrace d c x).traces = d.traces.set (same {}) c x := rfl
@[simp] theorem setTrace_ctxs (d : Dev) (c : Nat) (x : Sys2Proof.Machine.Trace) : (setTrace d c x).ctxs = d.ctxs := rfl
@[simp] theorem setTrace_img (d : Dev) (c : Nat) (x : Sys2Proof.Machine.Trace) : (setTrace d c x).img = d.img := rfl
@[simp] theorem setTrace_lhd (d : Dev) (c : Nat) (x : Sys2Proof.Machine.Trace) : (setTrace d c x).lhd = d.lhd := rfl
@[simp] theorem setTrace_mirror (d : Dev) (c : Nat) (x : Sys2Proof.Machine.Trace) : (setTrace d c x).mirror = d.mirror := rfl
@[simp] theorem setTrace_out (d : Dev) (c : Nat) (x : Sys2Proof.Machine.Trace) : (setTrace d c x).out = d.out := rfl
@[simp] theorem setTrace_free (d : Dev) (c : Nat) (x : Sys2Proof.Machine.Trace) : (setTrace d c x).free = d.free := rfl

/-! ### setCtx -/

@[simp] theorem setCtx_tick (d : Dev) (c : Nat) (x : Ctx) : (setCtx d c x).tick = d.tick := rfl
@[simp] theorem setCtx_regs (d : Dev) (c : Nat) (x : Ctx) : (setCtx d c x).regs = d.regs := rfl
@[simp] theorem setCtx_rings (d : Dev) (c : Nat) (x : Ctx) : (setCtx d c x).rings = d.rings := rfl
@[simp] theorem setCtx_hif (d : Dev) (c : Nat) (x : Ctx) : (setCtx d c x).hif = d.hif := rfl
@[simp] theorem setCtx_recorder (d : Dev) (c : Nat) (x : Ctx) : (setCtx d c x).recorder = d.recorder := rfl
@[simp] theorem setCtx_tim (d : Dev) (c : Nat) (x : Ctx) : (setCtx d c x).tim = d.tim := rfl
@[simp] theorem setCtx_mon (d : Dev) (c : Nat) (x : Ctx) : (setCtx d c x).mon = d.mon := rfl
@[simp] theorem setCtx_boot (d : Dev) (c : Nat) (x : Ctx) : (setCtx d c x).boot = d.boot := rfl
@[simp] theorem setCtx_par (d : Dev) (c : Nat) (x : Ctx) : (setCtx d c x).par = d.par := rfl
@[simp] theorem setCtx_lanes (d : Dev) (c : Nat) (x : Ctx) : (setCtx d c x).lanes = d.lanes := rfl
@[simp] theorem setCtx_stp (d : Dev) (c : Nat) (x : Ctx) : (setCtx d c x).stp = d.stp := rfl
@[simp] theorem setCtx_mould (d : Dev) (c : Nat) (x : Ctx) : (setCtx d c x).mould = d.mould := rfl
@[simp] theorem setCtx_dram (d : Dev) (c : Nat) (x : Ctx) : (setCtx d c x).dram = d.dram := rfl
@[simp] theorem setCtx_coder (d : Dev) (c : Nat) (x : Ctx) : (setCtx d c x).coder = d.coder := rfl
@[simp] theorem setCtx_heats (d : Dev) (c : Nat) (x : Ctx) : (setCtx d c x).heats = d.heats := rfl
@[simp] theorem setCtx_sched (d : Dev) (c : Nat) (x : Ctx) : (setCtx d c x).sched = d.sched := rfl
@[simp] theorem setCtx_ladle (d : Dev) (c : Nat) (x : Ctx) : (setCtx d c x).ladle = d.ladle := rfl
@[simp] theorem setCtx_map (d : Dev) (c : Nat) (x : Ctx) : (setCtx d c x).map = d.map := rfl
@[simp] theorem setCtx_stations (d : Dev) (c : Nat) (x : Ctx) : (setCtx d c x).stations = d.stations := rfl
@[simp] theorem setCtx_fct (d : Dev) (c : Nat) (x : Ctx) : (setCtx d c x).fct = d.fct := rfl
@[simp] theorem setCtx_cal (d : Dev) (c : Nat) (x : Ctx) : (setCtx d c x).cal = d.cal := rfl
@[simp] theorem setCtx_channels (d : Dev) (c : Nat) (x : Ctx) : (setCtx d c x).channels = d.channels := rfl
@[simp] theorem setCtx_emus (d : Dev) (c : Nat) (x : Ctx) : (setCtx d c x).emus = d.emus := rfl
@[simp] theorem setCtx_axes (d : Dev) (c : Nat) (x : Ctx) : (setCtx d c x).axes = d.axes := rfl
@[simp] theorem setCtx_traces (d : Dev) (c : Nat) (x : Ctx) : (setCtx d c x).traces = d.traces := rfl
@[simp] theorem setCtx_ctxs (d : Dev) (c : Nat) (x : Ctx) : (setCtx d c x).ctxs = d.ctxs.set (same {}) c x := rfl
@[simp] theorem setCtx_img (d : Dev) (c : Nat) (x : Ctx) : (setCtx d c x).img = d.img := rfl
@[simp] theorem setCtx_lhd (d : Dev) (c : Nat) (x : Ctx) : (setCtx d c x).lhd = d.lhd := rfl
@[simp] theorem setCtx_mirror (d : Dev) (c : Nat) (x : Ctx) : (setCtx d c x).mirror = d.mirror := rfl
@[simp] theorem setCtx_out (d : Dev) (c : Nat) (x : Ctx) : (setCtx d c x).out = d.out := rfl
@[simp] theorem setCtx_free (d : Dev) (c : Nat) (x : Ctx) : (setCtx d c x).free = d.free := rfl

/-! ### setPipe -/

@[simp] theorem setPipe_tick (d : Dev) (p : Nat) (x : Pipeline) : (setPipe d p x).tick = d.tick := rfl
@[simp] theorem setPipe_regs (d : Dev) (p : Nat) (x : Pipeline) : (setPipe d p x).regs = d.regs := rfl
@[simp] theorem setPipe_rings (d : Dev) (p : Nat) (x : Pipeline) : (setPipe d p x).rings = d.rings := rfl
@[simp] theorem setPipe_hif (d : Dev) (p : Nat) (x : Pipeline) : (setPipe d p x).hif = d.hif := rfl
@[simp] theorem setPipe_recorder (d : Dev) (p : Nat) (x : Pipeline) : (setPipe d p x).recorder = d.recorder := rfl
@[simp] theorem setPipe_tim (d : Dev) (p : Nat) (x : Pipeline) : (setPipe d p x).tim = d.tim := rfl
@[simp] theorem setPipe_mon (d : Dev) (p : Nat) (x : Pipeline) : (setPipe d p x).mon = d.mon := rfl
@[simp] theorem setPipe_boot (d : Dev) (p : Nat) (x : Pipeline) : (setPipe d p x).boot = d.boot := rfl
@[simp] theorem setPipe_par (d : Dev) (p : Nat) (x : Pipeline) : (setPipe d p x).par = d.par := rfl
@[simp] theorem setPipe_lanes (d : Dev) (p : Nat) (x : Pipeline) : (setPipe d p x).lanes = d.lanes := rfl
@[simp] theorem setPipe_stp (d : Dev) (p : Nat) (x : Pipeline) : (setPipe d p x).stp = d.stp := rfl
@[simp] theorem setPipe_mould (d : Dev) (p : Nat) (x : Pipeline) : (setPipe d p x).mould = d.mould := rfl
@[simp] theorem setPipe_dram (d : Dev) (p : Nat) (x : Pipeline) : (setPipe d p x).dram = d.dram := rfl
@[simp] theorem setPipe_coder (d : Dev) (p : Nat) (x : Pipeline) : (setPipe d p x).coder = d.coder := rfl
@[simp] theorem setPipe_heats (d : Dev) (p : Nat) (x : Pipeline) : (setPipe d p x).heats = d.heats := rfl
@[simp] theorem setPipe_sched (d : Dev) (p : Nat) (x : Pipeline) : (setPipe d p x).sched = d.sched := rfl
@[simp] theorem setPipe_ladle (d : Dev) (p : Nat) (x : Pipeline) : (setPipe d p x).ladle = d.ladle := rfl
@[simp] theorem setPipe_map (d : Dev) (p : Nat) (x : Pipeline) : (setPipe d p x).map = d.map := rfl
@[simp] theorem setPipe_stations (d : Dev) (p : Nat) (x : Pipeline) : (setPipe d p x).stations = d.stations := rfl
@[simp] theorem setPipe_fct (d : Dev) (p : Nat) (x : Pipeline) : (setPipe d p x).fct = d.fct := rfl
@[simp] theorem setPipe_cal (d : Dev) (p : Nat) (x : Pipeline) : (setPipe d p x).cal = d.cal := rfl
@[simp] theorem setPipe_channels (d : Dev) (p : Nat) (x : Pipeline) : (setPipe d p x).channels = d.channels := rfl
@[simp] theorem setPipe_emus (d : Dev) (p : Nat) (x : Pipeline) : (setPipe d p x).emus = d.emus := rfl
@[simp] theorem setPipe_axes (d : Dev) (p : Nat) (x : Pipeline) : (setPipe d p x).axes = d.axes := rfl
@[simp] theorem setPipe_traces (d : Dev) (p : Nat) (x : Pipeline) : (setPipe d p x).traces = d.traces := rfl
@[simp] theorem setPipe_ctxs (d : Dev) (p : Nat) (x : Pipeline) : (setPipe d p x).ctxs = d.ctxs := rfl
@[simp] theorem setPipe_img (d : Dev) (p : Nat) (x : Pipeline) : (setPipe d p x).img = { d.img with pipes := d.img.pipes.set (same {}) p x } := rfl
@[simp] theorem setPipe_lhd (d : Dev) (p : Nat) (x : Pipeline) : (setPipe d p x).lhd = d.lhd := rfl
@[simp] theorem setPipe_mirror (d : Dev) (p : Nat) (x : Pipeline) : (setPipe d p x).mirror = d.mirror := rfl
@[simp] theorem setPipe_out (d : Dev) (p : Nat) (x : Pipeline) : (setPipe d p x).out = d.out := rfl
@[simp] theorem setPipe_free (d : Dev) (p : Nat) (x : Pipeline) : (setPipe d p x).free = d.free := rfl

/-! ### setStation -/

@[simp] theorem setStation_tick (d : Dev) (s : Nat) (x : Station) : (setStation d s x).tick = d.tick := rfl
@[simp] theorem setStation_regs (d : Dev) (s : Nat) (x : Station) : (setStation d s x).regs = d.regs := rfl
@[simp] theorem setStation_rings (d : Dev) (s : Nat) (x : Station) : (setStation d s x).rings = d.rings := rfl
@[simp] theorem setStation_hif (d : Dev) (s : Nat) (x : Station) : (setStation d s x).hif = d.hif := rfl
@[simp] theorem setStation_recorder (d : Dev) (s : Nat) (x : Station) : (setStation d s x).recorder = d.recorder := rfl
@[simp] theorem setStation_tim (d : Dev) (s : Nat) (x : Station) : (setStation d s x).tim = d.tim := rfl
@[simp] theorem setStation_mon (d : Dev) (s : Nat) (x : Station) : (setStation d s x).mon = d.mon := rfl
@[simp] theorem setStation_boot (d : Dev) (s : Nat) (x : Station) : (setStation d s x).boot = d.boot := rfl
@[simp] theorem setStation_par (d : Dev) (s : Nat) (x : Station) : (setStation d s x).par = d.par := rfl
@[simp] theorem setStation_lanes (d : Dev) (s : Nat) (x : Station) : (setStation d s x).lanes = d.lanes := rfl
@[simp] theorem setStation_stp (d : Dev) (s : Nat) (x : Station) : (setStation d s x).stp = d.stp := rfl
@[simp] theorem setStation_mould (d : Dev) (s : Nat) (x : Station) : (setStation d s x).mould = d.mould := rfl
@[simp] theorem setStation_dram (d : Dev) (s : Nat) (x : Station) : (setStation d s x).dram = d.dram := rfl
@[simp] theorem setStation_coder (d : Dev) (s : Nat) (x : Station) : (setStation d s x).coder = d.coder := rfl
@[simp] theorem setStation_heats (d : Dev) (s : Nat) (x : Station) : (setStation d s x).heats = d.heats := rfl
@[simp] theorem setStation_sched (d : Dev) (s : Nat) (x : Station) : (setStation d s x).sched = d.sched := rfl
@[simp] theorem setStation_ladle (d : Dev) (s : Nat) (x : Station) : (setStation d s x).ladle = d.ladle := rfl
@[simp] theorem setStation_map (d : Dev) (s : Nat) (x : Station) : (setStation d s x).map = d.map := rfl
@[simp] theorem setStation_stations (d : Dev) (s : Nat) (x : Station) : (setStation d s x).stations = d.stations.set (same {}) s x := rfl
@[simp] theorem setStation_fct (d : Dev) (s : Nat) (x : Station) : (setStation d s x).fct = d.fct := rfl
@[simp] theorem setStation_cal (d : Dev) (s : Nat) (x : Station) : (setStation d s x).cal = d.cal := rfl
@[simp] theorem setStation_channels (d : Dev) (s : Nat) (x : Station) : (setStation d s x).channels = d.channels := rfl
@[simp] theorem setStation_emus (d : Dev) (s : Nat) (x : Station) : (setStation d s x).emus = d.emus := rfl
@[simp] theorem setStation_axes (d : Dev) (s : Nat) (x : Station) : (setStation d s x).axes = d.axes := rfl
@[simp] theorem setStation_traces (d : Dev) (s : Nat) (x : Station) : (setStation d s x).traces = d.traces := rfl
@[simp] theorem setStation_ctxs (d : Dev) (s : Nat) (x : Station) : (setStation d s x).ctxs = d.ctxs := rfl
@[simp] theorem setStation_img (d : Dev) (s : Nat) (x : Station) : (setStation d s x).img = d.img := rfl
@[simp] theorem setStation_lhd (d : Dev) (s : Nat) (x : Station) : (setStation d s x).lhd = d.lhd := rfl
@[simp] theorem setStation_mirror (d : Dev) (s : Nat) (x : Station) : (setStation d s x).mirror = d.mirror := rfl
@[simp] theorem setStation_out (d : Dev) (s : Nat) (x : Station) : (setStation d s x).out = d.out := rfl
@[simp] theorem setStation_free (d : Dev) (s : Nat) (x : Station) : (setStation d s x).free = d.free := rfl

/-! ### setAxis -/

@[simp] theorem setAxis_tick (d : Dev) (x : Nat) (a : StepAxis) : (setAxis d x a).tick = d.tick := rfl
@[simp] theorem setAxis_regs (d : Dev) (x : Nat) (a : StepAxis) : (setAxis d x a).regs = d.regs := rfl
@[simp] theorem setAxis_rings (d : Dev) (x : Nat) (a : StepAxis) : (setAxis d x a).rings = d.rings := rfl
@[simp] theorem setAxis_hif (d : Dev) (x : Nat) (a : StepAxis) : (setAxis d x a).hif = d.hif := rfl
@[simp] theorem setAxis_recorder (d : Dev) (x : Nat) (a : StepAxis) : (setAxis d x a).recorder = d.recorder := rfl
@[simp] theorem setAxis_tim (d : Dev) (x : Nat) (a : StepAxis) : (setAxis d x a).tim = d.tim := rfl
@[simp] theorem setAxis_mon (d : Dev) (x : Nat) (a : StepAxis) : (setAxis d x a).mon = d.mon := rfl
@[simp] theorem setAxis_boot (d : Dev) (x : Nat) (a : StepAxis) : (setAxis d x a).boot = d.boot := rfl
@[simp] theorem setAxis_par (d : Dev) (x : Nat) (a : StepAxis) : (setAxis d x a).par = d.par := rfl
@[simp] theorem setAxis_lanes (d : Dev) (x : Nat) (a : StepAxis) : (setAxis d x a).lanes = d.lanes := rfl
@[simp] theorem setAxis_stp (d : Dev) (x : Nat) (a : StepAxis) : (setAxis d x a).stp = { d.stp with axes := d.stp.axes.set (same {}) x a } := rfl
@[simp] theorem setAxis_mould (d : Dev) (x : Nat) (a : StepAxis) : (setAxis d x a).mould = d.mould := rfl
@[simp] theorem setAxis_dram (d : Dev) (x : Nat) (a : StepAxis) : (setAxis d x a).dram = d.dram := rfl
@[simp] theorem setAxis_coder (d : Dev) (x : Nat) (a : StepAxis) : (setAxis d x a).coder = d.coder := rfl
@[simp] theorem setAxis_heats (d : Dev) (x : Nat) (a : StepAxis) : (setAxis d x a).heats = d.heats := rfl
@[simp] theorem setAxis_sched (d : Dev) (x : Nat) (a : StepAxis) : (setAxis d x a).sched = d.sched := rfl
@[simp] theorem setAxis_ladle (d : Dev) (x : Nat) (a : StepAxis) : (setAxis d x a).ladle = d.ladle := rfl
@[simp] theorem setAxis_map (d : Dev) (x : Nat) (a : StepAxis) : (setAxis d x a).map = d.map := rfl
@[simp] theorem setAxis_stations (d : Dev) (x : Nat) (a : StepAxis) : (setAxis d x a).stations = d.stations := rfl
@[simp] theorem setAxis_fct (d : Dev) (x : Nat) (a : StepAxis) : (setAxis d x a).fct = d.fct := rfl
@[simp] theorem setAxis_cal (d : Dev) (x : Nat) (a : StepAxis) : (setAxis d x a).cal = d.cal := rfl
@[simp] theorem setAxis_channels (d : Dev) (x : Nat) (a : StepAxis) : (setAxis d x a).channels = d.channels := rfl
@[simp] theorem setAxis_emus (d : Dev) (x : Nat) (a : StepAxis) : (setAxis d x a).emus = d.emus := rfl
@[simp] theorem setAxis_axes (d : Dev) (x : Nat) (a : StepAxis) : (setAxis d x a).axes = d.axes := rfl
@[simp] theorem setAxis_traces (d : Dev) (x : Nat) (a : StepAxis) : (setAxis d x a).traces = d.traces := rfl
@[simp] theorem setAxis_ctxs (d : Dev) (x : Nat) (a : StepAxis) : (setAxis d x a).ctxs = d.ctxs := rfl
@[simp] theorem setAxis_img (d : Dev) (x : Nat) (a : StepAxis) : (setAxis d x a).img = d.img := rfl
@[simp] theorem setAxis_lhd (d : Dev) (x : Nat) (a : StepAxis) : (setAxis d x a).lhd = d.lhd := rfl
@[simp] theorem setAxis_mirror (d : Dev) (x : Nat) (a : StepAxis) : (setAxis d x a).mirror = d.mirror := rfl
@[simp] theorem setAxis_out (d : Dev) (x : Nat) (a : StepAxis) : (setAxis d x a).out = d.out := rfl
@[simp] theorem setAxis_free (d : Dev) (x : Nat) (a : StepAxis) : (setAxis d x a).free = d.free := rfl

/-! ### setCalStation -/

@[simp] theorem setCalStation_tick (d : Dev) (s : Nat) (x : CalStation) : (setCalStation d s x).tick = d.tick := rfl
@[simp] theorem setCalStation_regs (d : Dev) (s : Nat) (x : CalStation) : (setCalStation d s x).regs = d.regs := rfl
@[simp] theorem setCalStation_rings (d : Dev) (s : Nat) (x : CalStation) : (setCalStation d s x).rings = d.rings := rfl
@[simp] theorem setCalStation_hif (d : Dev) (s : Nat) (x : CalStation) : (setCalStation d s x).hif = d.hif := rfl
@[simp] theorem setCalStation_recorder (d : Dev) (s : Nat) (x : CalStation) : (setCalStation d s x).recorder = d.recorder := rfl
@[simp] theorem setCalStation_tim (d : Dev) (s : Nat) (x : CalStation) : (setCalStation d s x).tim = d.tim := rfl
@[simp] theorem setCalStation_mon (d : Dev) (s : Nat) (x : CalStation) : (setCalStation d s x).mon = d.mon := rfl
@[simp] theorem setCalStation_boot (d : Dev) (s : Nat) (x : CalStation) : (setCalStation d s x).boot = d.boot := rfl
@[simp] theorem setCalStation_par (d : Dev) (s : Nat) (x : CalStation) : (setCalStation d s x).par = d.par := rfl
@[simp] theorem setCalStation_lanes (d : Dev) (s : Nat) (x : CalStation) : (setCalStation d s x).lanes = d.lanes := rfl
@[simp] theorem setCalStation_stp (d : Dev) (s : Nat) (x : CalStation) : (setCalStation d s x).stp = d.stp := rfl
@[simp] theorem setCalStation_mould (d : Dev) (s : Nat) (x : CalStation) : (setCalStation d s x).mould = d.mould := rfl
@[simp] theorem setCalStation_dram (d : Dev) (s : Nat) (x : CalStation) : (setCalStation d s x).dram = d.dram := rfl
@[simp] theorem setCalStation_coder (d : Dev) (s : Nat) (x : CalStation) : (setCalStation d s x).coder = d.coder := rfl
@[simp] theorem setCalStation_heats (d : Dev) (s : Nat) (x : CalStation) : (setCalStation d s x).heats = d.heats := rfl
@[simp] theorem setCalStation_sched (d : Dev) (s : Nat) (x : CalStation) : (setCalStation d s x).sched = d.sched := rfl
@[simp] theorem setCalStation_ladle (d : Dev) (s : Nat) (x : CalStation) : (setCalStation d s x).ladle = d.ladle := rfl
@[simp] theorem setCalStation_map (d : Dev) (s : Nat) (x : CalStation) : (setCalStation d s x).map = d.map := rfl
@[simp] theorem setCalStation_stations (d : Dev) (s : Nat) (x : CalStation) : (setCalStation d s x).stations = d.stations := rfl
@[simp] theorem setCalStation_fct (d : Dev) (s : Nat) (x : CalStation) : (setCalStation d s x).fct = d.fct := rfl
@[simp] theorem setCalStation_channels (d : Dev) (s : Nat) (x : CalStation) : (setCalStation d s x).channels = d.channels := rfl
@[simp] theorem setCalStation_emus (d : Dev) (s : Nat) (x : CalStation) : (setCalStation d s x).emus = d.emus := rfl
@[simp] theorem setCalStation_axes (d : Dev) (s : Nat) (x : CalStation) : (setCalStation d s x).axes = d.axes := rfl
@[simp] theorem setCalStation_traces (d : Dev) (s : Nat) (x : CalStation) : (setCalStation d s x).traces = d.traces := rfl
@[simp] theorem setCalStation_ctxs (d : Dev) (s : Nat) (x : CalStation) : (setCalStation d s x).ctxs = d.ctxs := rfl
@[simp] theorem setCalStation_img (d : Dev) (s : Nat) (x : CalStation) : (setCalStation d s x).img = d.img := rfl
@[simp] theorem setCalStation_lhd (d : Dev) (s : Nat) (x : CalStation) : (setCalStation d s x).lhd = d.lhd := rfl
@[simp] theorem setCalStation_mirror (d : Dev) (s : Nat) (x : CalStation) : (setCalStation d s x).mirror = d.mirror := rfl
@[simp] theorem setCalStation_out (d : Dev) (s : Nat) (x : CalStation) : (setCalStation d s x).out = d.out := rfl
@[simp] theorem setCalStation_free (d : Dev) (s : Nat) (x : CalStation) : (setCalStation d s x).free = d.free := rfl

/-! ### setModule -/

@[simp] theorem setModule_tick (d : Dev) (m : Nat) (x : LineModule) : (setModule d m x).tick = d.tick := rfl
@[simp] theorem setModule_regs (d : Dev) (m : Nat) (x : LineModule) : (setModule d m x).regs = d.regs := rfl
@[simp] theorem setModule_rings (d : Dev) (m : Nat) (x : LineModule) : (setModule d m x).rings = d.rings := rfl
@[simp] theorem setModule_hif (d : Dev) (m : Nat) (x : LineModule) : (setModule d m x).hif = d.hif := rfl
@[simp] theorem setModule_recorder (d : Dev) (m : Nat) (x : LineModule) : (setModule d m x).recorder = d.recorder := rfl
@[simp] theorem setModule_tim (d : Dev) (m : Nat) (x : LineModule) : (setModule d m x).tim = d.tim := rfl
@[simp] theorem setModule_mon (d : Dev) (m : Nat) (x : LineModule) : (setModule d m x).mon = d.mon := rfl
@[simp] theorem setModule_boot (d : Dev) (m : Nat) (x : LineModule) : (setModule d m x).boot = d.boot := rfl
@[simp] theorem setModule_par (d : Dev) (m : Nat) (x : LineModule) : (setModule d m x).par = d.par := rfl
@[simp] theorem setModule_lanes (d : Dev) (m : Nat) (x : LineModule) : (setModule d m x).lanes = d.lanes := rfl
@[simp] theorem setModule_stp (d : Dev) (m : Nat) (x : LineModule) : (setModule d m x).stp = d.stp := rfl
@[simp] theorem setModule_mould (d : Dev) (m : Nat) (x : LineModule) : (setModule d m x).mould = d.mould := rfl
@[simp] theorem setModule_dram (d : Dev) (m : Nat) (x : LineModule) : (setModule d m x).dram = d.dram := rfl
@[simp] theorem setModule_coder (d : Dev) (m : Nat) (x : LineModule) : (setModule d m x).coder = d.coder := rfl
@[simp] theorem setModule_heats (d : Dev) (m : Nat) (x : LineModule) : (setModule d m x).heats = d.heats := rfl
@[simp] theorem setModule_sched (d : Dev) (m : Nat) (x : LineModule) : (setModule d m x).sched = d.sched := rfl
@[simp] theorem setModule_ladle (d : Dev) (m : Nat) (x : LineModule) : (setModule d m x).ladle = d.ladle := rfl
@[simp] theorem setModule_map (d : Dev) (m : Nat) (x : LineModule) : (setModule d m x).map = d.map := rfl
@[simp] theorem setModule_stations (d : Dev) (m : Nat) (x : LineModule) : (setModule d m x).stations = d.stations := rfl
@[simp] theorem setModule_fct (d : Dev) (m : Nat) (x : LineModule) : (setModule d m x).fct = d.fct := rfl
@[simp] theorem setModule_cal (d : Dev) (m : Nat) (x : LineModule) : (setModule d m x).cal = d.cal := rfl
@[simp] theorem setModule_channels (d : Dev) (m : Nat) (x : LineModule) : (setModule d m x).channels = d.channels := rfl
@[simp] theorem setModule_emus (d : Dev) (m : Nat) (x : LineModule) : (setModule d m x).emus = d.emus := rfl
@[simp] theorem setModule_axes (d : Dev) (m : Nat) (x : LineModule) : (setModule d m x).axes = d.axes := rfl
@[simp] theorem setModule_traces (d : Dev) (m : Nat) (x : LineModule) : (setModule d m x).traces = d.traces := rfl
@[simp] theorem setModule_ctxs (d : Dev) (m : Nat) (x : LineModule) : (setModule d m x).ctxs = d.ctxs := rfl
@[simp] theorem setModule_img (d : Dev) (m : Nat) (x : LineModule) : (setModule d m x).img = d.img := rfl
@[simp] theorem setModule_mirror (d : Dev) (m : Nat) (x : LineModule) : (setModule d m x).mirror = d.mirror := rfl
@[simp] theorem setModule_out (d : Dev) (m : Nat) (x : LineModule) : (setModule d m x).out = d.out := rfl
@[simp] theorem setModule_free (d : Dev) (m : Nat) (x : LineModule) : (setModule d m x).free = d.free := rfl

/-! ### setSub -/

@[simp] theorem setSub_tick (d : Dev) (r : Nat) (x : Submission) : (setSub d r x).tick = d.tick := rfl
@[simp] theorem setSub_regs (d : Dev) (r : Nat) (x : Submission) : (setSub d r x).regs = d.regs := rfl
@[simp] theorem setSub_rings (d : Dev) (r : Nat) (x : Submission) : (setSub d r x).rings = d.rings := rfl
@[simp] theorem setSub_hif (d : Dev) (r : Nat) (x : Submission) : (setSub d r x).hif = d.hif := rfl
@[simp] theorem setSub_recorder (d : Dev) (r : Nat) (x : Submission) : (setSub d r x).recorder = d.recorder := rfl
@[simp] theorem setSub_tim (d : Dev) (r : Nat) (x : Submission) : (setSub d r x).tim = d.tim := rfl
@[simp] theorem setSub_mon (d : Dev) (r : Nat) (x : Submission) : (setSub d r x).mon = d.mon := rfl
@[simp] theorem setSub_boot (d : Dev) (r : Nat) (x : Submission) : (setSub d r x).boot = d.boot := rfl
@[simp] theorem setSub_par (d : Dev) (r : Nat) (x : Submission) : (setSub d r x).par = d.par := rfl
@[simp] theorem setSub_lanes (d : Dev) (r : Nat) (x : Submission) : (setSub d r x).lanes = d.lanes := rfl
@[simp] theorem setSub_stp (d : Dev) (r : Nat) (x : Submission) : (setSub d r x).stp = d.stp := rfl
@[simp] theorem setSub_mould (d : Dev) (r : Nat) (x : Submission) : (setSub d r x).mould = d.mould := rfl
@[simp] theorem setSub_dram (d : Dev) (r : Nat) (x : Submission) : (setSub d r x).dram = d.dram := rfl
@[simp] theorem setSub_coder (d : Dev) (r : Nat) (x : Submission) : (setSub d r x).coder = d.coder := rfl
@[simp] theorem setSub_sched (d : Dev) (r : Nat) (x : Submission) : (setSub d r x).sched = d.sched := rfl
@[simp] theorem setSub_ladle (d : Dev) (r : Nat) (x : Submission) : (setSub d r x).ladle = d.ladle := rfl
@[simp] theorem setSub_map (d : Dev) (r : Nat) (x : Submission) : (setSub d r x).map = d.map := rfl
@[simp] theorem setSub_stations (d : Dev) (r : Nat) (x : Submission) : (setSub d r x).stations = d.stations := rfl
@[simp] theorem setSub_fct (d : Dev) (r : Nat) (x : Submission) : (setSub d r x).fct = d.fct := rfl
@[simp] theorem setSub_cal (d : Dev) (r : Nat) (x : Submission) : (setSub d r x).cal = d.cal := rfl
@[simp] theorem setSub_channels (d : Dev) (r : Nat) (x : Submission) : (setSub d r x).channels = d.channels := rfl
@[simp] theorem setSub_emus (d : Dev) (r : Nat) (x : Submission) : (setSub d r x).emus = d.emus := rfl
@[simp] theorem setSub_axes (d : Dev) (r : Nat) (x : Submission) : (setSub d r x).axes = d.axes := rfl
@[simp] theorem setSub_traces (d : Dev) (r : Nat) (x : Submission) : (setSub d r x).traces = d.traces := rfl
@[simp] theorem setSub_ctxs (d : Dev) (r : Nat) (x : Submission) : (setSub d r x).ctxs = d.ctxs := rfl
@[simp] theorem setSub_img (d : Dev) (r : Nat) (x : Submission) : (setSub d r x).img = d.img := rfl
@[simp] theorem setSub_lhd (d : Dev) (r : Nat) (x : Submission) : (setSub d r x).lhd = d.lhd := rfl
@[simp] theorem setSub_mirror (d : Dev) (r : Nat) (x : Submission) : (setSub d r x).mirror = d.mirror := rfl
@[simp] theorem setSub_out (d : Dev) (r : Nat) (x : Submission) : (setSub d r x).out = d.out := rfl
@[simp] theorem setSub_free (d : Dev) (r : Nat) (x : Submission) : (setSub d r x).free = d.free := rfl

/-! ### setLink -/

@[simp] theorem setLink_tick (d : Dev) (up : Bool) (speed : BitVec 3) (width : BitVec 4) : (setLink d up speed width).tick = d.tick := rfl
@[simp] theorem setLink_regs (d : Dev) (up : Bool) (speed : BitVec 3) (width : BitVec 4) : (setLink d up speed width).regs = d.regs := rfl
@[simp] theorem setLink_rings (d : Dev) (up : Bool) (speed : BitVec 3) (width : BitVec 4) : (setLink d up speed width).rings = d.rings := rfl
@[simp] theorem setLink_recorder (d : Dev) (up : Bool) (speed : BitVec 3) (width : BitVec 4) : (setLink d up speed width).recorder = d.recorder := rfl
@[simp] theorem setLink_tim (d : Dev) (up : Bool) (speed : BitVec 3) (width : BitVec 4) : (setLink d up speed width).tim = d.tim := rfl
@[simp] theorem setLink_mon (d : Dev) (up : Bool) (speed : BitVec 3) (width : BitVec 4) : (setLink d up speed width).mon = d.mon := rfl
@[simp] theorem setLink_boot (d : Dev) (up : Bool) (speed : BitVec 3) (width : BitVec 4) : (setLink d up speed width).boot = d.boot := rfl
@[simp] theorem setLink_par (d : Dev) (up : Bool) (speed : BitVec 3) (width : BitVec 4) : (setLink d up speed width).par = d.par := rfl
@[simp] theorem setLink_lanes (d : Dev) (up : Bool) (speed : BitVec 3) (width : BitVec 4) : (setLink d up speed width).lanes = d.lanes := rfl
@[simp] theorem setLink_stp (d : Dev) (up : Bool) (speed : BitVec 3) (width : BitVec 4) : (setLink d up speed width).stp = d.stp := rfl
@[simp] theorem setLink_mould (d : Dev) (up : Bool) (speed : BitVec 3) (width : BitVec 4) : (setLink d up speed width).mould = d.mould := rfl
@[simp] theorem setLink_dram (d : Dev) (up : Bool) (speed : BitVec 3) (width : BitVec 4) : (setLink d up speed width).dram = d.dram := rfl
@[simp] theorem setLink_coder (d : Dev) (up : Bool) (speed : BitVec 3) (width : BitVec 4) : (setLink d up speed width).coder = d.coder := rfl
@[simp] theorem setLink_heats (d : Dev) (up : Bool) (speed : BitVec 3) (width : BitVec 4) : (setLink d up speed width).heats = d.heats := rfl
@[simp] theorem setLink_sched (d : Dev) (up : Bool) (speed : BitVec 3) (width : BitVec 4) : (setLink d up speed width).sched = d.sched := rfl
@[simp] theorem setLink_ladle (d : Dev) (up : Bool) (speed : BitVec 3) (width : BitVec 4) : (setLink d up speed width).ladle = d.ladle := rfl
@[simp] theorem setLink_map (d : Dev) (up : Bool) (speed : BitVec 3) (width : BitVec 4) : (setLink d up speed width).map = d.map := rfl
@[simp] theorem setLink_stations (d : Dev) (up : Bool) (speed : BitVec 3) (width : BitVec 4) : (setLink d up speed width).stations = d.stations := rfl
@[simp] theorem setLink_fct (d : Dev) (up : Bool) (speed : BitVec 3) (width : BitVec 4) : (setLink d up speed width).fct = d.fct := rfl
@[simp] theorem setLink_cal (d : Dev) (up : Bool) (speed : BitVec 3) (width : BitVec 4) : (setLink d up speed width).cal = d.cal := rfl
@[simp] theorem setLink_channels (d : Dev) (up : Bool) (speed : BitVec 3) (width : BitVec 4) : (setLink d up speed width).channels = d.channels := rfl
@[simp] theorem setLink_emus (d : Dev) (up : Bool) (speed : BitVec 3) (width : BitVec 4) : (setLink d up speed width).emus = d.emus := rfl
@[simp] theorem setLink_axes (d : Dev) (up : Bool) (speed : BitVec 3) (width : BitVec 4) : (setLink d up speed width).axes = d.axes := rfl
@[simp] theorem setLink_traces (d : Dev) (up : Bool) (speed : BitVec 3) (width : BitVec 4) : (setLink d up speed width).traces = d.traces := rfl
@[simp] theorem setLink_ctxs (d : Dev) (up : Bool) (speed : BitVec 3) (width : BitVec 4) : (setLink d up speed width).ctxs = d.ctxs := rfl
@[simp] theorem setLink_img (d : Dev) (up : Bool) (speed : BitVec 3) (width : BitVec 4) : (setLink d up speed width).img = d.img := rfl
@[simp] theorem setLink_lhd (d : Dev) (up : Bool) (speed : BitVec 3) (width : BitVec 4) : (setLink d up speed width).lhd = d.lhd := rfl
@[simp] theorem setLink_mirror (d : Dev) (up : Bool) (speed : BitVec 3) (width : BitVec 4) : (setLink d up speed width).mirror = d.mirror := rfl
@[simp] theorem setLink_out (d : Dev) (up : Bool) (speed : BitVec 3) (width : BitVec 4) : (setLink d up speed width).out = d.out := rfl
@[simp] theorem setLink_free (d : Dev) (up : Bool) (speed : BitVec 3) (width : BitVec 4) : (setLink d up speed width).free = d.free := rfl

/-! ### The whole state -/

@[simp] theorem state_dev_pending (s : State) (d : Dev) : ({ s with dev := d } : State).pending = s.pending := rfl
@[simp] theorem state_dev_nv (s : State) (d : Dev) : ({ s with dev := d } : State).nv = s.nv := rfl
@[simp] theorem state_dev_dev (s : State) (d : Dev) : ({ s with dev := d } : State).dev = d := rfl
@[simp] theorem state_pending_dev (s : State) (q : List Instr) : ({ s with pending := q } : State).dev = s.dev := rfl
@[simp] theorem state_pending_nv (s : State) (q : List Instr) : ({ s with pending := q } : State).nv = s.nv := rfl
@[simp] theorem state_pending_pending (s : State) (q : List Instr) : ({ s with pending := q } : State).pending = q := rfl

end Sys2Proof.Laws
end

