-- ==== Sys2Proof/Laws/Table.lean ====
section
/-! SUPPORT. Sparse tables: what a read after a write gives, and that writing keeps the canonical form. -/
namespace Sys2Proof.Laws
open Sys2Proof.Machine

variable {α : Type} (d : Nat → α)

theorem get_without (t : Tab α) (k i : Nat) :
    (t.without k).get d i = if i = k then d i else t.get d i := by
  induction t with
  | nil => simp [Tab.without, Tab.get]
  | cons e t ih =>
    obtain ⟨j, w⟩ := e
    by_cases hk : k = j <;> by_cases hi : i = j <;> simp_all [Tab.without, Tab.get]
    intro h
    exact absurd h.symm hk

theorem get_list (t : Tab α) (k i : Nat) (v : α) :
    (t.list k v).get d i = if i = k then v else t.get d i := by
  induction t with
  | nil => simp [Tab.list, Tab.get]
  | cons e t ih =>
    obtain ⟨j, w⟩ := e
    by_cases hk : k = j
    · subst hk; by_cases hi : i = k <;> simp [Tab.list, Tab.get, hi]
    · by_cases hl : k < j
      · simp [Tab.list, Tab.get, hk, hl]
      · by_cases hi : i = j
        · subst hi; simp [Tab.list, Tab.get, hk, hl, Ne.symm hk]
        · simp [Tab.list, Tab.get, hk, hl, hi, ih]

variable [DecidableEq α]

/-- A read after a write gives the value written, and at every other key what it gave before. -/
theorem get_set (t : Tab α) (k i : Nat) (v : α) :
    (t.set d k v).get d i = if i = k then v else t.get d i := by
  unfold Tab.set
  split
  · rename_i h; rw [get_without]; by_cases hi : i = k <;> simp [hi, h]
  · exact get_list d t k i v

@[simp] theorem get_set_same (t : Tab α) (k : Nat) (v : α) : (t.set d k v).get d k = v := by simp [get_set]

theorem get_set_other (t : Tab α) {k i : Nat} (v : α) (h : i ≠ k) : (t.set d k v).get d i = t.get d i := by
  simp [get_set, h]

theorem wfFrom_mono (t : Tab α) {a b : Nat} (h : a ≤ b) (w : t.wfFrom d b = true) : t.wfFrom d a = true := by
  cases t with
  | nil => rfl
  | cons e t => simp only [Tab.wfFrom, Bool.and_eq_true, decide_eq_true_eq] at w ⊢; exact ⟨⟨by omega, w.1.2⟩, w.2⟩

theorem wfFrom_without (t : Tab α) (k b : Nat) (w : t.wfFrom d b = true) : (t.without k).wfFrom d b = true := by
  induction t generalizing b with
  | nil => rfl
  | cons e t ih =>
    obtain ⟨j, v⟩ := e
    simp only [Tab.wfFrom, Bool.and_eq_true, decide_eq_true_eq] at w
    by_cases hk : k = j
    · simp only [Tab.without, hk, if_true]
      subst hk
      exact ih _ (wfFrom_mono d t (by omega) w.2)
    · simp only [Tab.without, hk, if_false, Tab.wfFrom, Bool.and_eq_true, decide_eq_true_eq]
      exact ⟨w.1, ih _ w.2⟩

theorem wfFrom_list (t : Tab α) (k b : Nat) (v : α) (hb : b ≤ k) (hv : v ≠ d k) (w : t.wfFrom d b = true) :
    (t.list k v).wfFrom d b = true := by
  induction t generalizing b with
  | nil => simp [Tab.list, Tab.wfFrom, hb, hv]
  | cons e t ih =>
    obtain ⟨j, u⟩ := e
    simp only [Tab.wfFrom, Bool.and_eq_true, decide_eq_true_eq] at w
    by_cases hk : k = j
    · subst hk; simp [Tab.list, Tab.wfFrom, hb, hv, w.2]
    · by_cases hl : k < j
      · simp only [Tab.list, hk, hl, if_false, if_true, Tab.wfFrom, Bool.and_eq_true, decide_eq_true_eq]
        exact ⟨⟨hb, hv⟩, ⟨by omega, w.1.2⟩, w.2⟩
      · simp only [Tab.list, hk, hl, if_false, Tab.wfFrom, Bool.and_eq_true, decide_eq_true_eq]
        exact ⟨w.1, ih _ (by omega) w.2⟩

/-- Every write keeps the canonical form. -/
theorem wf_set (t : Tab α) (k : Nat) (v : α) (w : t.wf d = true) : (t.set d k v).wf d = true := by
  unfold Tab.set Tab.wf at *
  split
  · exact wfFrom_without d t k 0 w
  · rename_i h; exact wfFrom_list d t k 0 v (Nat.zero_le _) h w

end Sys2Proof.Laws
end

