-- ==== Sys2Proof/Laws/Registers.lean ====
section
/-! SUPPORT. Register words: what a read gives after the device or the host wrote one. -/
namespace Sys2Proof.Laws
open Sys2Proof.Machine

@[simp] theorem read_setRead (f : RegFile) (a b : Nat) (w : Word) :
    (f.setRead a w).read b = if b = a then w else f.read b := get_set resetWord f.acc a b w
@[simp] theorem read_setInUse (f : RegFile) (a b : Nat) (w : Word) : (f.setInUse a w).read b = f.read b := rfl
@[simp] theorem inUse_setInUse (f : RegFile) (a b : Nat) (w : Word) :
    (f.setInUse a w).inUse b = if b = a then w else f.inUse b := get_set resetWord f.act a b w
@[simp] theorem inUse_setRead (f : RegFile) (a b : Nat) (w : Word) : (f.setRead a w).inUse b = f.inUse b := rfl

theorem wordAddr_eq {p q o u : Nat} (h : o < 4096) (h' : u < 4096) : wordAddr p o = wordAddr q u ↔ p = q ∧ o = u := by
  unfold wordAddr; omega

/-- A word that the device writes reads as written, and every other word as before. -/
theorem setReg_read (d : Dev) (p off v b : Nat) :
    (d.setReg p off v).regs.read b = if b = wordAddr p off then word v else d.regs.read b := by
  simp [Dev.setReg]
theorem setReg_inUse (d : Dev) (p off v b : Nat) :
    (d.setReg p off v).regs.inUse b = if b = wordAddr p off then word v else d.regs.inUse b := by
  simp [Dev.setReg]
theorem setFld_read (d : Dev) (p off lo w v b : Nat) :
    (d.setFld p off lo w v).regs.read b =
      if b = wordAddr p off then setBits (d.regs.read b) lo w v else d.regs.read b := by
  simp only [Dev.setFld, read_setInUse, read_setRead]; split <;> simp_all
theorem setFld_inUse (d : Dev) (p off lo w v b : Nat) :
    (d.setFld p off lo w v).regs.inUse b =
      if b = wordAddr p off then setBits (d.regs.inUse b) lo w v else d.regs.inUse b := by
  simp only [Dev.setFld, inUse_setInUse, inUse_setRead]; split <;> simp_all

/-- A field that the device writes leaves the fields of other words alone. -/
theorem setReg_fld (d : Dev) (p off v q o lo w : Nat) (h : wordAddr q o ≠ wordAddr p off) :
    (d.setReg p off v).fld q o lo w = d.fld q o lo w := by simp [Dev.fld, setReg_inUse, h]
theorem setFld_fld (d : Dev) (p off l n v q o lo w : Nat) (h : wordAddr q o ≠ wordAddr p off) :
    (d.setFld p off l n v).fld q o lo w = d.fld q o lo w := by simp [Dev.fld, setFld_inUse, h]

end Sys2Proof.Laws
end

