-- ==== Sys2Proof/Laws/Reports.lean ====
section
/-! SUPPORT. Reporting (raising pennants, writing events and records, hoisting) touches nothing but what
`SameButReports` names. One lemma per operation; later proofs cite these and never unfold reporting. -/
namespace Sys2Proof.Laws
open Sys2Proof.Machine

theorem sameRegs_refl (f : RegFile) : SameRegs f f := by constructor <;> first | exact fun _ _ => rfl | exact fun _ _ h => h | rfl

theorem sameRegs_trans {f g h : RegFile} (a : SameRegs f g) (b : SameRegs g h) : SameRegs f h :=
  ⟨fun x hx => (b.read x hx).trans (a.read x hx), fun x hx => (b.inUse x hx).trans (a.inUse x hx), b.pend.trans a.pend,
    b.live.trans a.live, b.rdHold.trans a.rdHold, b.wrHold.trans a.wrHold, b.released.trans a.released,
    b.everHeld.trans a.everHeld, b.boundaryHeld.trans a.boundaryHeld, fun p k h => b.pens p k (a.pens p k h)⟩

theorem same_refl (d : Dev) : SameButReports d d := by
  constructor <;> first | exact sameRegs_refl _ | (intros; rfl)

theorem same_trans {a b c : Dev} (h : SameButReports a b) (k : SameButReports b c) : SameButReports a c := by
  constructor
  case regs => exact sameRegs_trans h.regs k.regs
  case hif => rw [k.hif, h.hif]
  case ringFault => exact fun r => (k.ringFault r).trans (h.ringFault r)
  case ringParked => exact fun r => (k.ringParked r).trans (h.ringParked r)
  case ringUnsignalled => exact fun r => (k.ringUnsignalled r).trans (h.ringUnsignalled r)
  case ringOldest => exact fun r => (k.ringOldest r).trans (h.ringOldest r)
  case ringIdle => exact fun r => (k.ringIdle r).trans (h.ringIdle r)
  case ringBegun => exact fun r => (k.ringBegun r).trans (h.ringBegun r)
  case ringAt0 => exact fun r => (k.ringAt0 r).trans (h.ringAt0 r)
  case ringStale => exact fun r => (k.ringStale r).trans (h.ringStale r)
  all_goals first
    | exact k.tick.trans h.tick | exact k.hist.trans h.hist | exact k.sampledAt.trans h.sampledAt | exact k.clearKey.trans h.clearKey
    | exact k.challenge.trans h.challenge | exact k.response.trans h.response | exact k.result.trans h.result
    | exact k.clears.trans h.clears | exact k.tim.trans h.tim | exact k.mon.trans h.mon | exact k.boot.trans h.boot
    | exact k.par.trans h.par | exact k.lanes.trans h.lanes | exact k.stp.trans h.stp | exact k.mould.trans h.mould
    | exact k.dram.trans h.dram | exact k.coder.trans h.coder | exact k.heats.trans h.heats
    | exact k.sched.trans h.sched | exact k.ladle.trans h.ladle | exact k.map.trans h.map
    | exact k.stations.trans h.stations | exact k.fct.trans h.fct | exact k.cal.trans h.cal
    | exact k.channels.trans h.channels | exact k.emus.trans h.emus | exact k.axes.trans h.axes
    | exact k.traces.trans h.traces | exact k.ctxs.trans h.ctxs | exact k.img.trans h.img | exact k.lhd.trans h.lhd
    | exact k.mirror.trans h.mirror | exact k.out.trans h.out | exact k.free.trans h.free

/-- A change of the register file alone, within the words of reporting. -/
theorem same_regs (d : Dev) (f : RegFile) (h : SameRegs d.regs f) : SameButReports d { d with regs := f } := by
  constructor <;> first | exact h | (intros; rfl)

/-- A change of one ring's queue and sequence number. -/
theorem same_setRing (d : Dev) (r : Nat) (x : Ring) (f : x.fault = (ringOf d r).fault)
    (p : x.parked = (ringOf d r).parked) (u : x.unsignalled = (ringOf d r).unsignalled)
    (o : x.oldest = (ringOf d r).oldest) (i : x.idle = (ringOf d r).idle := by rfl)
    (b : x.begun = (ringOf d r).begun := by rfl) (a : x.at0 = (ringOf d r).at0 := by rfl)
    (t : x.stale = (ringOf d r).stale := by rfl) :
    SameButReports d (setRing d r x) := by
  have ring (k : Nat) : ringOf (setRing d r x) k = if k = r then x else ringOf d k := get_set _ _ _ _ _
  constructor
  case regs => exact sameRegs_refl _
  case ringFault => intro k; rw [ring]; split <;> simp_all
  case ringParked => intro k; rw [ring]; split <;> simp_all
  case ringUnsignalled => intro k; rw [ring]; split <;> simp_all
  case ringOldest => intro k; rw [ring]; split <;> simp_all
  case ringIdle => intro k; rw [ring]; split <;> simp_all
  case ringBegun => intro k; rw [ring]; split <;> simp_all
  case ringAt0 => intro k; rw [ring]; split <;> simp_all
  case ringStale => intro k; rw [ring]; split <;> simp_all
  all_goals rfl

/-- A change of the recorder's log, triggers and counters. -/
theorem same_recorder (d : Dev) (x : Recorder) (a : x.hist = d.recorder.hist) (b : x.key = d.recorder.key)
    (c : x.challenge = d.recorder.challenge) (e : x.response = d.recorder.response) (f : x.result = d.recorder.result)
    (g : x.clears = d.recorder.clears) (i : x.sampledAt = d.recorder.sampledAt := by rfl) :
    SameButReports d { d with recorder := x } := by
  constructor <;> first | exact sameRegs_refl _ | (intros; rfl) | assumption

/-- A change of what is kept. -/
theorem same_kept (d : Dev) (k : List Kept) : SameButReports d { d with hif := { d.hif with kept := k } } := by
  constructor <;> first | exact sameRegs_refl _ | (intros; rfl)

/-- A change of the open windows. -/
theorem same_windows (d : Dev) (w : List Window) : SameButReports d { d with hif := { d.hif with windows := w } } := by
  constructor <;> first | exact sameRegs_refl _ | (intros; rfl)

theorem sameRegs_words (f : RegFile) (a : Nat) (u v : Word) (h : reportWord a = true)
    (k : ∀ b, bit (f.read a).toNat b = true → bit u.toNat b = true ∨ a % 4096 ≠ 0x010) :
    SameRegs f ((f.setRead a u).setInUse a v) := by
  constructor
  case read => intro b hb; rw [read_setInUse, read_setRead, if_neg]; rintro rfl; simp [h] at hb
  case inUse => intro b hb; rw [inUse_setInUse, if_neg, inUse_setRead]; rintro rfl; simp [h] at hb
  case pens =>
    intro p b hb
    rw [read_setInUse, read_setRead]
    split
    · rename_i e
      subst e
      rcases k b hb with x | x
      · exact x
      · exact absurd (by unfold wordAddr; omega) x
    · exact hb
  all_goals rfl

theorem same_setReg (d : Dev) (p off v : Nat) (h : reportWord (wordAddr p off) = true)
    (n : (wordAddr p off) % 4096 ≠ 0x010) : SameButReports d (d.setReg p off v) :=
  same_regs d _ (sameRegs_words _ _ _ _ h fun _ _ => .inr n)
theorem same_count (d : Dev) (p off : Nat) (h : reportWord (wordAddr p off) = true)
    (n : (wordAddr p off) % 4096 ≠ 0x010) : SameButReports d (d.count p off) := same_setReg d p off _ h n

/-- Setting one bit of a word. -/
theorem setBits_one (w : Word) (b : Nat) (h : b < 32) : setBits w b 1 1 = w ||| word (2 ^ b) := by
  have hw := w.isLt
  unfold setBits bits word
  apply BitVec.eq_of_toNat_eq
  have two : 2 ^ b < 2 ^ 32 := Nat.pow_lt_pow_right (by decide) h
  simp only [BitVec.toNat_ofNat, BitVec.toNat_or, Nat.shiftRight_eq_div_pow, Nat.shiftLeft_eq, pow_one, Nat.mod_eq_of_lt two]
  have key : w.toNat - w.toNat / 2 ^ b % 2 * 2 ^ b + 1 % 2 * 2 ^ b = w.toNat ||| 2 ^ b := by
    rw [Nat.or_comm]
    cases hb : w.toNat.testBit b
    · have z : w.toNat / 2 ^ b % 2 = 0 := by
        have := hb; rw [Nat.testBit_eq_decide_div_mod_eq] at this; simp at this; omega
      rw [z]
      apply Nat.eq_of_testBit_eq
      intro i
      rw [Nat.testBit_or, Nat.testBit_two_pow]
      have e : w.toNat - 0 * 2 ^ b + 1 % 2 * 2 ^ b = 2 ^ b + w.toNat := by omega
      rw [e]
      rcases Nat.lt_trichotomy i b with l | l | l
      · rw [Nat.testBit_two_pow_add_gt l]; simp; omega
      · subst l; rw [Nat.testBit_two_pow_add_eq]; simp [hb]
      · have low : w.toNat % 2 ^ (b + 1) < 2 ^ b := by
          rw [Nat.pow_succ, Nat.mod_mul, z]; simpa using Nat.mod_lt _ (Nat.two_pow_pos b)
        have d : (2 ^ b + w.toNat) / 2 ^ (b + 1) = w.toNat / 2 ^ (b + 1) := by
          have e1 := Nat.div_add_mod w.toNat (2 ^ (b + 1))
          have e2 : 2 ^ (b + 1) = 2 * 2 ^ b := by rw [Nat.pow_succ, Nat.mul_comm]
          rw [show 2 ^ b + w.toNat = (2 ^ b + w.toNat % 2 ^ (b + 1)) + 2 ^ (b + 1) * (w.toNat / 2 ^ (b + 1)) by omega,
            Nat.add_mul_div_left _ _ (Nat.two_pow_pos _), Nat.div_eq_of_lt (by omega), Nat.zero_add]
        have t := congrArg (fun x => x.testBit (i - (b + 1))) d
        simp only [Nat.testBit_div_two_pow] at t
        rw [show i - (b + 1) + (b + 1) = i by omega] at t
        rw [t]; simp; omega
    · have z : w.toNat / 2 ^ b % 2 = 1 := by
        have := hb; rw [Nat.testBit_eq_decide_div_mod_eq] at this; simpa using this
      rw [z]
      have le : 2 ^ b ≤ w.toNat := by
        by_contra hh
        rw [Nat.div_eq_of_lt (by omega)] at z; cases z
      have e : w.toNat - 1 * 2 ^ b + 1 % 2 * 2 ^ b = w.toNat := by omega
      rw [e]
      apply Nat.eq_of_testBit_eq
      intro i
      rw [Nat.testBit_or, Nat.testBit_two_pow]
      by_cases q : b = i
      · subst q; simp [hb]
      · simp [q]
  rw [key, Nat.mod_eq_of_lt (Nat.or_lt_two_pow hw two)]

theorem reportWord_pen (p : Nat) : reportWord (wordAddr p 0x010) = true := by
  simp [reportWord, wordAddr, Nat.add_mod]
theorem reportWord_lost (r : Nat) (h : r < 64) : reportWord (wordAddr (pageRng r) 0x074) = true := by
  have a : wordAddr (pageRng r) 116 / 4096 = 32 + r := by unfold wordAddr pageRng; omega
  have b : wordAddr (pageRng r) 116 % 4096 = 116 := by unfold wordAddr pageRng; omega
  have c : 32 ≤ 32 + r ∧ 32 + r ≤ 95 := by omega
  simp only [reportWord, a, b, c, decide_true, and_self, Bool.true_and, beq_self_eq_true, Bool.or_true]
theorem reportWord_evq : reportWord (wordAddr pageEvq 0x064) = true := by simp [reportWord]

/-- Setting a pennant bit leaves the others (R36). -/
theorem same_penFld (d : Dev) (p b : Nat) : SameButReports d (d.setFld p 0x010 b 1 1) := by
  unfold Dev.setFld
  refine same_regs d _ (sameRegs_words _ _ _ _ (reportWord_pen p) fun k hk => .inl ?_)
  by_cases h : b < 32
  · rw [setBits_one _ _ h]; simp only [bit, BitVec.toNat_or, Nat.testBit_or] at *; simp [hk]
  · have e : setBits (d.regs.read (wordAddr p 0x010)) b 1 1 = d.regs.read (wordAddr p 0x010) := by
      have hw := (d.regs.read (wordAddr p 0x010)).isLt
      have le : 2 ^ 32 ≤ 2 ^ b := Nat.pow_le_pow_right (by decide) (by omega)
      unfold setBits bits word
      apply BitVec.eq_of_toNat_eq
      have split : 2 ^ b = 2 ^ 32 * 2 ^ (b - 32) := by rw [← Nat.pow_add]; congr 1; omega
      simp only [BitVec.toNat_ofNat, Nat.shiftRight_eq_div_pow, Nat.shiftLeft_eq, Nat.div_eq_of_lt (Nat.lt_of_lt_of_le hw le)]
      rw [split]; simp; omega
    rw [e]; exact hk

/-- Noting the tick of a pennant's cause changes no register (R36). -/
theorem same_stampPen (d : Dev) (p b : Nat) : SameButReports d (stampPen d p b) :=
  same_regs d _ ⟨fun _ _ => rfl, fun _ _ => rfl, rfl, rfl, rfl, rfl, rfl, rfl, rfl, fun _ _ h => h⟩

/-- Setting a pennant (R36, R38). -/
theorem same_setPen (d : Dev) (p bitNo : Nat) : SameButReports d (setPen d p bitNo) := by
  have h := same_trans (same_penFld d p bitNo) (same_stampPen _ p bitNo)
  unfold setPen
  simp only
  split
  · exact same_trans h (same_recorder _ _ rfl rfl rfl rfl rfl rfl)
  · exact h

/-- A record joins its ring's queue (R585). -/
theorem same_enqueue (d : Dev) (r : Nat) (q : QRec) : SameButReports d (enqueue d r q).1 := by
  unfold enqueue
  simp only
  repeat' split
  all_goals first | with_reducible exact same_refl _ | exact same_setRing _ _ _ rfl rfl rfl rfl

/-- A dropped record is counted (R585). -/
theorem same_countDrop (d : Dev) (r : Nat) (h : r < 64) : SameButReports d (countDrop d r).1 :=
  same_trans (same_count _ _ _ (reportWord_lost r h) (by unfold wordAddr pageRng; omega)) (same_setPen _ _ _)

theorem same_pushBody (d : Dev) (r body : Nat) (bitmap : BitVec 512) (withMap : Bool) :
    SameButReports d (pushBody d r body bitmap withMap).1 := by
  unfold pushBody
  refine same_trans ?_ (same_enqueue _ _ _)
  split
  · exact same_setRing _ _ _ rfl rfl rfl rfl
  · exact same_refl _
theorem same_pushEvent (d : Dev) (r : Nat) (w : Window) : SameButReports d (pushEvent d r w).1 := same_pushBody _ _ _ _ _

/-- Whatever delivers a record and only reports. -/
def Quiet (deliver : Dev → Nat → Window → Dev) : Prop := ∀ d r w, r < 64 → SameButReports d (deliver d r w)

theorem eventRing_lt {d : Dev} {p cls r : Nat} (hc : cls < 8) (h : eventRing d p cls = some r) : r < 64 := by
  unfold eventRing at h
  split at h
  · simp at h; omega
  · split at h
    · cases h
    · simp at h; omega

theorem same_keep (d : Dev) (k : Kept) : SameButReports d (keep d k) := by
  unfold keep
  split
  · exact same_kept _ _
  · exact same_refl _

theorem same_routeEvent {f : Dev → Nat → Window → Dev} (q : Quiet f) (d : Dev) (w : Window) (hc : w.cls < 8) :
    SameButReports d (routeEvent f d w) := by
  unfold routeEvent
  split
  · exact same_keep _ _
  · rename_i r h; exact q _ _ _ (eventRing_lt hc h)

/-- A report, by whatever delivery (R581 to R584). -/
theorem same_reportVia {f : Dev → Nat → Window → Dev} (q : Quiet f) (d : Dev) (p cls sev code payload : Nat)
    (hc : cls < 8) : SameButReports d (reportVia f d p cls sev code payload) := by
  unfold reportVia
  simp only
  repeat' split
  all_goals first
    | with_reducible exact same_refl _
    | with_reducible exact same_windows _ _
    | exact same_routeEvent q _ _ hc
    | exact same_trans (same_count _ _ _ reportWord_evq (by decide)) (same_routeEvent q _ _ hc)

theorem quiet_deliverPlain : Quiet deliverPlain := by
  intro d r w h
  unfold deliverPlain
  simp only
  split
  · exact same_trans (same_pushEvent _ _ _) (same_countDrop _ _ h)
  · exact same_pushEvent _ _ _

theorem same_ringLost (d : Dev) (r : Nat) (h : r < 64) : SameButReports d (ringLost d r) := by
  unfold ringLost
  simp only
  split
  · exact same_trans (same_countDrop _ _ h) (same_reportVia quiet_deliverPlain _ _ _ _ _ _ (by decide))
  · exact same_countDrop _ _ h

theorem quiet_deliver : Quiet deliver := by
  intro d r w h
  unfold deliver
  simp only
  split
  · exact same_trans (same_pushEvent _ _ _) (same_ringLost _ _ h)
  · exact same_pushEvent _ _ _

theorem same_report (d : Dev) (p cls sev code payload : Nat) (hc : cls < 8) :
    SameButReports d (report d p cls sev code payload) := same_reportVia quiet_deliver _ _ _ _ _ _ hc

/-- A pennant's cause occurs (R37). -/
theorem same_raise (d : Dev) (p bitNo cls sev code payload : Nat) (hc : cls < 8) :
    SameButReports d (raise d p bitNo cls sev code payload) := by
  unfold raise
  simp only
  split
  · exact same_trans (same_setPen _ _ _) (same_report _ _ _ _ _ _ hc)
  · exact same_setPen _ _ _

theorem same_raiseLimited (d : Dev) (once : Bool) (p bitNo cls sev code payload : Nat) (hc : cls < 8) :
    SameButReports d (raiseLimited d once p bitNo cls sev code payload) := by
  unfold raiseLimited
  split
  · exact same_raise _ _ _ _ _ _ _ hc
  · exact same_setPen _ _ _

/-- A record other than an event (R585, R660). -/
theorem same_emit (d : Dev) (r : Nat) (kind : RecKind) (data : Nat) (h : r < 64) :
    SameButReports d (emit d r kind data) := by
  unfold emit
  simp only
  split
  · exact same_trans (same_enqueue _ _ _) (same_ringLost _ _ h)
  · exact same_enqueue _ _ _

theorem same_emitShared (d : Dev) (r : Nat) (kind : RecKind) (data : Nat) (h : r < 64) :
    SameButReports d (emitShared d r kind data) := by
  unfold emitShared
  split
  · exact same_emit _ _ _ _ h
  · exact same_keep _ _

/-- A hoist (R597 to R599). -/
theorem same_writeHoist (d : Dev) (tick source bitNo kind : Nat) (vals : List Nat) :
    SameButReports d (writeHoist d tick source bitNo kind vals) := by
  unfold writeHoist
  simp only
  split
  · exact same_recorder _ _ rfl rfl rfl rfl rfl rfl
  split
  · refine same_trans ?_ (same_raise _ _ _ clsHousekeeping _ _ _ (by decide))
    exact same_recorder _ _ rfl rfl rfl rfl rfl rfl
  · exact same_recorder _ _ rfl rfl rfl rfl rfl rfl

/-- Two devices that differ in reports alone do so at any tick. -/
theorem same_tick {d e : Dev} (h : SameButReports d e) (k : Nat) :
    SameButReports { d with tick := k } { e with tick := k } := by
  obtain ⟨_, _, _, _, _, _, _, _, _, _, _, _⟩ := h
  constructor <;> first | rfl | assumption

theorem same_missFull (d : Dev) : SameButReports d (missFull d) := by
  exact same_recorder _ _ rfl rfl rfl rfl rfl rfl

/-- A trigger that is taken at its clock is one more hoist, or is counted (R594, R595). -/
theorem same_captureTrigger (d : Dev) (t : Trigger) :
    SameButReports { d with tick := t.tick + 1 } (captureTrigger d t) := by
  unfold captureTrigger
  extract_lets d0 x n d1 e1 once d2 src d3
  split
  · refine same_trans ?_ (same_writeHoist _ _ _ _ _ _)
    exact same_recorder _ _ rfl rfl rfl rfl rfl rfl
  · have k : SameButReports d0 d2 := 
      same_trans (same_recorder d0 e1.recorder rfl rfl rfl rfl rfl rfl)
        (same_raiseLimited e1 once pageRec 1 clsHousekeeping _ _ _ (by decide))
    have h : SameButReports d0 d3 := by
      simp only [d3]
      split
      · exact same_trans k (same_recorder _ _ rfl rfl rfl rfl rfl rfl)
      · exact k
    split
    · exact same_trans h (same_missFull _)
    · exact h

/-- Any repeated operation that only reports. -/
theorem same_foldl {α : Type} (f : Dev → α → Dev) (h : ∀ d x, SameButReports d (f d x)) (l : List α) (d : Dev) :
    SameButReports d (l.foldl f d) := by
  induction l generalizing d with
  | nil => exact same_refl _
  | cons x l ih => exact same_trans (h d x) (ih _)

theorem same_captureRound (t : Nat) (d : Dev) : SameButReports d (captureRound t d) := by
  unfold captureRound
  extract_lets due rest
  have step (l : List Trigger) : ∀ e : Dev, SameButReports { e with tick := d.tick } { l.foldl captureTrigger e with tick := d.tick } := by
    induction l with
    | nil => exact fun _ => same_refl _
    | cons x l ih => exact fun e => same_trans (same_tick (same_captureTrigger e x) d.tick) (ih _)
  exact same_trans (same_recorder d { d.recorder with triggers := rest } rfl rfl rfl rfl rfl rfl) (step (sortTriggers due) { d with recorder := { d.recorder with triggers := rest } })

/-- Time goes on, and with it the recorder takes its hoists (R594): nothing changes but the tick and reports. -/
theorem same_advance (d : Dev) (t : Nat) (h : d.tick ≤ t) : SameButReports { d with tick := t } (d.advance t) := by
  unfold Dev.advance
  split
  · refine same_tick ?_ t
    split
    · exact same_refl _
    · exact same_trans (same_trans (same_captureRound _ _) (same_captureRound _ _)) (same_captureRound _ _)
  · have e : d.tick = t := by omega
    subst e; exact same_refl _

/-- A command arrives in the current cycle: the same holds. -/
theorem same_arrive (d : Dev) (t : Nat) :
    SameButReports { d with tick := max d.tick (d.cycle * 1250 + min t 1249) } (d.arrive t) := by
  unfold Dev.arrive
  by_cases h : d.tick ≤ d.cycle * 1250 + min t 1249
  · rw [Nat.max_eq_right h]; exact same_advance _ _ h
  · rw [Nat.max_eq_left (by omega)]; unfold Dev.advance; rw [if_neg (by omega)]; exact same_refl _

/-! ### What arriving leaves -/

@[simp] theorem arrive_tick (d : Dev) (t : Nat) : (d.arrive t).tick = max d.tick (d.cycle * 1250 + min t 1249) :=
  (same_arrive d t).tick
@[simp] theorem arrive_tim (d : Dev) (t : Nat) : (d.arrive t).tim = d.tim := (same_arrive d t).tim
@[simp] theorem arrive_mon (d : Dev) (t : Nat) : (d.arrive t).mon = d.mon := (same_arrive d t).mon
@[simp] theorem arrive_boot (d : Dev) (t : Nat) : (d.arrive t).boot = d.boot := (same_arrive d t).boot
@[simp] theorem arrive_par (d : Dev) (t : Nat) : (d.arrive t).par = d.par := (same_arrive d t).par
@[simp] theorem arrive_lanes (d : Dev) (t : Nat) : (d.arrive t).lanes = d.lanes := (same_arrive d t).lanes
@[simp] theorem arrive_stp (d : Dev) (t : Nat) : (d.arrive t).stp = d.stp := (same_arrive d t).stp
@[simp] theorem arrive_mould (d : Dev) (t : Nat) : (d.arrive t).mould = d.mould := (same_arrive d t).mould
@[simp] theorem arrive_dram (d : Dev) (t : Nat) : (d.arrive t).dram = d.dram := (same_arrive d t).dram
@[simp] theorem arrive_coder (d : Dev) (t : Nat) : (d.arrive t).coder = d.coder := (same_arrive d t).coder
@[simp] theorem arrive_heats (d : Dev) (t : Nat) : (d.arrive t).heats = d.heats := (same_arrive d t).heats
@[simp] theorem arrive_sched (d : Dev) (t : Nat) : (d.arrive t).sched = d.sched := (same_arrive d t).sched
@[simp] theorem arrive_ladle (d : Dev) (t : Nat) : (d.arrive t).ladle = d.ladle := (same_arrive d t).ladle
@[simp] theorem arrive_map (d : Dev) (t : Nat) : (d.arrive t).map = d.map := (same_arrive d t).map
@[simp] theorem arrive_stations (d : Dev) (t : Nat) : (d.arrive t).stations = d.stations := (same_arrive d t).stations
@[simp] theorem arrive_fct (d : Dev) (t : Nat) : (d.arrive t).fct = d.fct := (same_arrive d t).fct
@[simp] theorem arrive_cal (d : Dev) (t : Nat) : (d.arrive t).cal = d.cal := (same_arrive d t).cal
@[simp] theorem arrive_channels (d : Dev) (t : Nat) : (d.arrive t).channels = d.channels := (same_arrive d t).channels
@[simp] theorem arrive_emus (d : Dev) (t : Nat) : (d.arrive t).emus = d.emus := (same_arrive d t).emus
@[simp] theorem arrive_axes (d : Dev) (t : Nat) : (d.arrive t).axes = d.axes := (same_arrive d t).axes
@[simp] theorem arrive_traces (d : Dev) (t : Nat) : (d.arrive t).traces = d.traces := (same_arrive d t).traces
@[simp] theorem arrive_ctxs (d : Dev) (t : Nat) : (d.arrive t).ctxs = d.ctxs := (same_arrive d t).ctxs
@[simp] theorem arrive_img (d : Dev) (t : Nat) : (d.arrive t).img = d.img := (same_arrive d t).img
@[simp] theorem arrive_lhd (d : Dev) (t : Nat) : (d.arrive t).lhd = d.lhd := (same_arrive d t).lhd
@[simp] theorem arrive_mirror (d : Dev) (t : Nat) : (d.arrive t).mirror = d.mirror := (same_arrive d t).mirror
@[simp] theorem arrive_out (d : Dev) (t : Nat) : (d.arrive t).out = d.out := (same_arrive d t).out
@[simp] theorem arrive_free (d : Dev) (t : Nat) : (d.arrive t).free = d.free := (same_arrive d t).free

/-- Every meaning that acts on the device alone answers exactly its effect. -/
theorem onDev_answers (s : State) (f : Dev → Dev) :
    ∃ t, onDev s f = .next t ∧ t.pending = s.pending ∧ t.nv = s.nv ∧
      SameButReports (f { s.dev with out := [] }) t.dev :=
  ⟨_, rfl, rfl, rfl, same_refl _⟩

theorem onBoth_answers (s : State) (f : NonVolatile → Dev → NonVolatile × Dev) :
    ∃ t, onBoth s f = .next t ∧ t.pending = s.pending ∧ t.nv = (f s.nv { s.dev with out := [] }).1 ∧
      SameButReports (f s.nv { s.dev with out := [] }).2 t.dev :=
  ⟨_, rfl, rfl, rfl, same_refl _⟩

end Sys2Proof.Laws
end

