-- ==== Sys2Proof/Laws/Shapes.lean ====
section
/-! SUPPORT. The shape of every meaning: what `exec` answers follows from what the command does to the device. -/
namespace Sys2Proof.Laws
open Sys2Proof.Machine

/-- A meaning on the device alone answers its effect. -/
theorem answers_of_onDev {s : State} {i : Instr} {f : Dev → Dev} (h : exec i s = onDev s f) :
    AnswersButReports s i (f s.now) :=
  ⟨_, h, rfl, rfl, same_refl _⟩

/-- A meaning that takes part in the non-volatile stores. -/
theorem answers_of_onBoth {s : State} {i : Instr} {f : NonVolatile → Dev → NonVolatile × Dev}
    (h : exec i s = onBoth s f) :
    Answers s i fun t => t.nv = (f s.nv s.now).1 ∧ SameButReports (f s.nv s.now).2 t.dev :=
  ⟨_, h, rfl, rfl, same_refl _⟩

theorem answers_mono {s : State} {i : Instr} {P Q : State → Prop} (h : Answers s i P) (k : ∀ t, P t → Q t) :
    Answers s i Q := by
  obtain ⟨t, a, b, c⟩ := h
  exact ⟨t, a, b, k t c⟩

/-- Reports that the effect itself makes may be dropped from what is said of the next state. -/
theorem answers_same {s : State} {i : Instr} {d e : Dev} (h : AnswersButReports s i e) (k : SameButReports d e) :
    AnswersButReports s i d := answers_mono h fun _ x => ⟨x.1, same_trans k x.2⟩

/-- An accepted write is stored, and then acts. -/
theorem withWrite_accepted (d : Dev) (p off v : Nat) (f : Dev → Dev) (h : writeAccepted d p off v = true) :
    ∃ k r, kindOf p = some k ∧ k.reg? off = some r ∧ withWrite d p off v f = f (storeWrite d k p off r v) := by
  unfold writeAccepted at h
  split at h
  · cases h
  rename_i k hk
  split at h
  · cases h
  rename_i r hr
  refine ⟨k, r, hk, hr, ?_⟩
  have n : blockRefused d k p off r v = none := by simpa using h
  simp [withWrite, hk, hr, n]

end Sys2Proof.Laws
end

