-- ==== Sys2Proof/Laws/Answers.lean ====
section
/-! SUPPORT. One lemma per command: it answers a next state whose device is, but for reports, what the shared
operation of its meaning gives. Later proofs cite these and never unfold `exec`. -/
namespace Sys2Proof.Laws
open Sys2Proof.Machine

/-- The command runs, and but for reports it leaves the stores and the device of `r`. -/
def AnswersBoth (s : State) (i : Instr) (r : NonVolatile × Dev) : Prop :=
  Answers s i fun t => t.nv = r.1 ∧ SameButReports r.2 t.dev

/-- An intact record of the halyard link is taken by its operation. -/
theorem receive_intact {s : State} {a : Arrival} (f : Dev → Dev) (h : a.intact = true) :
    receive s.now a f = f (s.at a.tick) := by
  unfold receive; rw [if_pos h]; rfl

theorem answers_powerOnReset (s : State) (strapB sealOk testEn : Bool) :
    AnswersButReports s (.powerOnReset strapB sealOk testEn) (
      powerOn s.nv s.now strapB sealOk testEn) :=
  answers_of_onBoth (f := fun nv d => (nv, powerOn nv d strapB sealOk testEn)) rfl

theorem answers_bootRomVerify (s : State) (sfdpOk : Bool) :
    AnswersButReports s (.bootRomVerify sfdpOk) (
      verifyImages s.nv s.now sfdpOk) :=
  answers_of_onBoth (f := fun nv d => (nv, verifyImages nv d sfdpOk)) rfl

theorem answers_bootReady (s : State) :
    AnswersButReports s (.bootReady) (reachReady s.now) :=
  answers_of_onDev (f := reachReady) rfl

theorem answers_resetNSample (s : State) (low : Bool) :
    AnswersBoth s (.resetNSample low) (
      let d := if s.dev.boot.engine then s.at 1100 else s.now
      if low then resetPin s.nv d else (s.nv, d)) :=
  answers_of_onBoth (f := fun nv d =>
    let d := if d.boot.engine then d.arrive 1100 else d
    if low then resetPin nv d else (nv, d)) rfl

theorem answers_devResetWarm (s : State) (t : Nat) (value : Word) :
    AnswersButReports s (.devResetWarm t value) (withWrite (s.at t) pageDev 0x100 value.toNat fun d => resetWrite d
        value.toNat) :=
  answers_of_onDev (f := fun d => withWrite (d.arrive t) pageDev 0x100 value.toNat fun d => resetWrite d value.toNat)
      rfl

theorem answers_warmReset (s : State) : AnswersBoth s .warmReset (warmNow s.nv s.now) :=
  answers_of_onBoth (f := warmNow) rfl

theorem answers_rootPllLockLoss (s : State) :
    AnswersButReports s (.rootPllLockLoss) (if s.now.boot.poreset then s.now else halt s.now) :=
  answers_of_onDev (f := fun d => if d.boot.poreset then d else halt d) rfl

theorem answers_registerWrite (s : State) (t : Nat) (addr : BitVec 22) (bytes : Nat) (data : Long) :
    AnswersBoth s (.registerWrite t addr bytes data) (
      match flashOffset addr.toNat bytes with
        | some off => flashWrite s.nv (s.at t) off (data.toNat % 2 ^ 32)
        | none => (s.nv, hostWrite (s.at t) addr.toNat bytes data.toNat)) :=
  answers_of_onBoth (f := fun nv d =>
    match flashOffset addr.toNat bytes with
    | some off => flashWrite nv (d.arrive t) off (data.toNat % 2 ^ 32)
    | none => (nv, hostWrite (d.arrive t) addr.toNat bytes data.toNat)) rfl

theorem answers_lowWordRead (s : State) (t : Nat) (r : ReadRequest) :
    Answers s (.lowWordRead t r) fun x =>
      x.nv = ((fun nv d => (nv, hostRead nv (d.arrive t) r.bar2 r.addr.toNat r.bytes)) s.nv s.now).1 ∧ SameButReports
          ((fun nv d => (nv, hostRead nv (d.arrive t) r.bar2 r.addr.toNat r.bytes)) s.nv s.now).2 x.dev :=
  answers_of_onBoth (f := fun nv d => (nv, hostRead nv (d.arrive t) r.bar2 r.addr.toNat r.bytes)) rfl

theorem answers_commitWrite (s : State) (t : Nat) (page : Fin 1024) (value : Word) :
    AnswersButReports s (.commitWrite t page value) (
      if isMirrored page.val && (s.at t).writeHeld then holdWrite (s.at t) ⟨false, wordAddr page.val 0x01C, 4, value.toNat⟩
      else commitWrite (s.at t) page.val value.toNat) :=
  answers_of_onDev (f := fun d =>
    if isMirrored page.val && (d.arrive t).writeHeld then holdWrite (d.arrive t) ⟨false, wordAddr page.val 0x01C, 4, value.toNat⟩
    else commitWrite (d.arrive t) page.val value.toNat) rfl

theorem answers_commitApply (s : State) (page : Fin 1024) (group : Fin 32) :
    AnswersButReports s (.commitApply page group) (commitApply s.now page.val group.val) :=
  answers_of_onDev (f := fun d => commitApply d page.val group.val) rfl

theorem answers_liveWriteApply (s : State) :
    AnswersButReports s (.liveWriteApply) (liveWriteApply s.now) :=
  answers_of_onDev (f := liveWriteApply) rfl

theorem answers_devCommitHold (s : State) (t : Nat) (value : Word) :
    AnswersButReports s (.devCommitHold t value) (registerWrite (s.at t) 0x040 4 value.toNat) :=
  answers_of_onDev (f := fun d => registerWrite (d.arrive t) 0x040 4 value.toNat) rfl

theorem answers_bar2TableWrite (s : State) (t : Nat) (addr : BitVec 28) (data : Word) :
    AnswersButReports s (.bar2TableWrite t addr data) (
      windowWrite (s.at t) addr.toNat data) :=
  answers_of_onDev (f := fun d => windowWrite (d.arrive t) addr.toNat data) rfl

theorem answers_heatOpen (s : State) (t : Nat) (r : Fin 4) (e : Entry) :
    AnswersButReports s (.heatOpen t r e) (submissionCommand (s.at t) r.val e .failed (.heatOpen 0 r e)) :=
  answers_of_onDev (f := fun d => submissionCommand (d.arrive t) r.val e .failed (.heatOpen 0 r e)) rfl

theorem answers_islands (s : State) (t : Nat) (r : Fin 4) (e : Entry) (rd : HostRead) :
    AnswersButReports s (.islands t r e rd) (submissionCommand (s.at t) r.val e rd (.islands 0 r e rd)) :=
  answers_of_onDev (f := fun d => submissionCommand (d.arrive t) r.val e rd (.islands 0 r e rd)) rfl

theorem answers_pours (s : State) (t : Nat) (r : Fin 4) (e : Entry) (rd : HostRead) :
    AnswersButReports s (.pours t r e rd) (submissionCommand (s.at t) r.val e rd (.pours 0 r e rd)) :=
  answers_of_onDev (f := fun d => submissionCommand (d.arrive t) r.val e rd (.pours 0 r e rd)) rfl

theorem answers_recoat (s : State) (t : Nat) (r : Fin 4) (e : Entry) (rd : HostRead) :
    AnswersButReports s (.recoat t r e rd) (submissionCommand (s.at t) r.val e rd (.recoat 0 r e rd)) :=
  answers_of_onDev (f := fun d => submissionCommand (d.arrive t) r.val e rd (.recoat 0 r e rd)) rfl

theorem answers_pass (s : State) (t : Nat) (r : Fin 4) (e : Entry) :
    AnswersButReports s (.pass t r e) (submissionCommand (s.at t) r.val e .failed (.pass 0 r e)) :=
  answers_of_onDev (f := fun d => submissionCommand (d.arrive t) r.val e .failed (.pass 0 r e)) rfl

theorem answers_heatClose (s : State) (t : Nat) (r : Fin 4) (e : Entry) :
    AnswersButReports s (.heatClose t r e) (submissionCommand (s.at t) r.val e .failed (.heatClose 0 r e)) :=
  answers_of_onDev (f := fun d => submissionCommand (d.arrive t) r.val e .failed (.heatClose 0 r e)) rfl

theorem answers_standbyHeatConfirm (s : State) (t : Nat) (r : Fin 4) :
    AnswersButReports s (.standbyHeatConfirm t r) (standbyConfirm (s.at t) r.val) :=
  answers_of_onDev (f := fun d => standbyConfirm (d.arrive t) r.val) rfl

theorem answers_heatCancel (s : State) (t : Nat) (r : Fin 4) (e : Entry) :
    AnswersButReports s (.heatCancel t r e) (submissionCommand (s.at t) r.val e .failed (.heatCancel 0 r e)) :=
  answers_of_onDev (f := fun d => submissionCommand (d.arrive t) r.val e .failed (.heatCancel 0 r e)) rfl

theorem answers_heatRingResume (s : State) (t : Nat) (r : Fin 4) :
    AnswersButReports s (.heatRingResume t r) (ringResume (s.at t) r.val) :=
  answers_of_onDev (f := fun d => ringResume (d.arrive t) r.val) rfl

theorem answers_lines (s : State) (t : Nat) (r : Fin 4) (e : Entry) (rd : HostRead) :
    AnswersButReports s (.lines t r e rd) (linesCommand (s.at t) r.val e rd (.lines 0 r e rd)) :=
  answers_of_onDev (f := fun d => linesCommand (d.arrive t) r.val e rd (.lines 0 r e rd)) rfl

theorem answers_heatStart (s : State) :
    AnswersButReports s (.heatStart) (
      if heatMayStart s.now then startHeat s.now else if heatStartsElsewhere s.now then clearHeatMarks s.now else s.now) :=
  answers_of_onDev (f := fun d => if heatMayStart d then startHeat d else if heatStartsElsewhere d then clearHeatMarks d else d) rfl

theorem answers_heatMoveStart (s : State) :
    AnswersButReports s (.heatMoveStart) (heatMovesStart s.now) :=
  answers_of_onDev (f := heatMovesStart) rfl

theorem answers_stepperMoveEnd (s : State) (t : Nat) (axis : Fin 12) :
    AnswersButReports s (.stepperMoveEnd t axis) (moveEnd (s.at t) axis.val) :=
  answers_of_onDev (f := fun d => moveEnd (d.arrive t) axis.val) rfl

theorem answers_passTest (s : State) :
    AnswersButReports s (.passTest) (passTestNow s.now) :=
  answers_of_onDev (f := passTestNow) rfl

theorem answers_passEnd (s : State) (t : Nat) :
    AnswersButReports s (.passEnd t) (endPass (s.at t)) :=
  answers_of_onDev (f := fun d => endPass (d.arrive t)) rfl

theorem answers_heatBoundary (s : State) :
    AnswersButReports s (.heatBoundary) (if boundaryDue s.now then declareBoundary s.now else s.now) :=
  answers_of_onDev (f := fun d => if boundaryDue d then declareBoundary d else d) rfl

theorem answers_cycleStart (s : State) (supplies : Vector (BitVec 16) 16) (head : BitVec 24) :
    AnswersButReports s (.cycleStart supplies head) (cycleStart s.now supplies head) :=
  answers_of_onDev (f := fun d => cycleStart d supplies head) rfl

theorem answers_uplinkDeadline (s : State) :
    AnswersButReports s (.uplinkDeadline) (uplinkDeadline s.now) :=
  answers_of_onDev (f := uplinkDeadline) rfl

theorem answers_commandFrameSend (s : State) :
    AnswersButReports s (.commandFrameSend) (commandFrames s.now) :=
  answers_of_onDev (f := commandFrames) rfl

theorem answers_watchdogCheck (s : State) (framesSent : Bool) (sramError : Bool) :
    AnswersButReports s (.watchdogCheck framesSent sramError) (watchdog s.now framesSent sramError) :=
  answers_of_onDev (f := fun d => watchdog d framesSent sramError) rfl

theorem answers_peerPinSample (s : State) (health : Bool) (ensign : Bool) :
    AnswersButReports s (.peerPinSample health ensign) (samplePins (s.at 1150) health ensign) :=
  answers_of_onDev (f := fun d => samplePins (d.arrive 1150) health ensign) rfl

theorem answers_dispatchStalled (s : State) :
    AnswersButReports s (.dispatchStalled) (stalled s.now) :=
  answers_of_onDev (f := stalled) rfl

theorem answers_holdResume (st : State) (s : Fin 32) :
    AnswersButReports st (.holdResume s) (resumeStation (st.at 300) s.val) :=
  answers_of_onDev (f := fun d => resumeStation (d.arrive 300) s.val) rfl

theorem answers_loopStale (st : State) (s : Fin 32) :
    AnswersButReports st (.loopStale s) (staleLoop st.now s.val) :=
  answers_of_onDev (f := fun d => staleLoop d s.val) rfl

theorem answers_schRunAbandon (s : State) :
    AnswersButReports s (.schRunAbandon) (if s.now.computes then abandonHeat s.now else s.now) :=
  answers_of_onDev (f := fun d => if d.computes then abandonHeat d else d) rfl

theorem answers_pourPrefetch (st : State) (s : Fin 32) :
    AnswersButReports st (.pourPrefetch s) (prefetch st.now s.val) :=
  answers_of_onDev (f := fun d => prefetch d s.val) rfl

theorem answers_srvTraceArm (s : State) (mask : Word) :
    AnswersButReports s (.srvTraceArm mask) (if s.now.computes then armTraces s.now mask.toNat else s.now) :=
  answers_of_onDev (f := fun d => if d.computes then armTraces d mask.toNat else d) rfl

theorem answers_srvTraceFire (s : State) (mask : Word) :
    AnswersButReports s (.srvTraceFire mask) (if s.now.computes then fireTraces s.now mask.toNat else s.now) :=
  answers_of_onDev (f := fun d => if d.computes then fireTraces d mask.toNat else d) rfl

theorem answers_stationUplinkFrame (st : State) (t : Nat) (s : Fin 32) (hdr : BitVec 56) (payload : BitVec 256) (chk
    : Long) :
    AnswersButReports st (.stationUplinkFrame t s hdr payload chk) (stationUplink (st.at t) s.val hdr payload chk) :=
  answers_of_onDev (f := fun d => stationUplink (d.arrive t) s.val hdr payload chk) rfl

theorem answers_lineHeadUplinkFrame (s : State) (t : Nat) (m : Fin 16) (hdr : BitVec 56) (payload : BitVec 960) (chk
    : Long) :
    AnswersButReports s (.lineHeadUplinkFrame t m hdr payload chk) (lineHeadUplink (s.at t) m.val hdr payload chk) :=
  answers_of_onDev (f := fun d => lineHeadUplink (d.arrive t) m.val hdr payload chk) rfl

theorem answers_localChannelSample (s : State) (t : Nat) (ch : Fin 8) (smp : RawSample) :
    AnswersButReports s (.localChannelSample t ch smp) (takeLocal (s.at t) ch.val smp) :=
  answers_of_onDev (f := fun d => takeLocal (d.arrive t) ch.val smp) rfl

theorem answers_standstillTimeout (s : State) (ch : Fin 104) :
    AnswersButReports s (.standstillTimeout ch) (standstill s.now ch.val) :=
  answers_of_onDev (f := fun d => standstill d ch.val) rfl

theorem answers_emuEmission (s : State) (t : Nat) (e : Fin 8) :
    AnswersButReports s (.emuEmission t e) (emuWindow (s.at t) e.val) :=
  answers_of_onDev (f := fun d => emuWindow (d.arrive t) e.val) rfl

theorem answers_cameraBlock (s : State) (t : Nat) (st : Fin 32) (hdr : BitVec 56) (data : List Long) (broken : Bool) :
    AnswersButReports s (.cameraBlock t st hdr data broken) (cameraBlock (s.at t) st.val hdr.toNat data broken) :=
  answers_of_onDev (f := fun d => cameraBlock (d.arrive t) st.val hdr.toNat data broken) rfl

theorem answers_pipelineLineStart (s : State) (p : Fin 4) :
    AnswersButReports s (.pipelineLineStart p) (lineStart s.now p.val) :=
  answers_of_onDev (f := fun d => lineStart d p.val) rfl

theorem answers_coaxialFrameClose (s : State) (c : Fin 32) :
    AnswersButReports s (.coaxialFrameClose c) (closeCoaxial (blackbodyFrame s.now c.val) c.val) :=
  answers_of_onDev (f := fun d => closeCoaxial (blackbodyFrame d c.val) c.val) rfl

theorem answers_csi2FrameStart (s : State) (t : Nat) (p : Fin 2) (vc : Fin 16) (frameNo : BitVec 16) (corrected :
    Bool) :
    AnswersButReports s (.csi2FrameStart t p vc frameNo corrected) (withContext (s.at t) p.val vc.val corrected fun d
        c => frameStart d c frameNo.toNat) :=
  answers_of_onDev (f := fun d => withContext (d.arrive t) p.val vc.val corrected fun d c => frameStart d c
      frameNo.toNat) rfl

theorem answers_csi2Line (s : State) (t : Nat) (p : Fin 2) (vc : Fin 16) (dt : BitVec 6) (pixels : List (BitVec 16))
    (corrected : Bool) :
    AnswersButReports s (.csi2Line t p vc dt pixels corrected) (withContext (s.at t) p.val vc.val corrected fun d c
        => overviewLine d p.val c dt.toNat pixels) :=
  answers_of_onDev (f := fun d => withContext (d.arrive t) p.val vc.val corrected fun d c => overviewLine d p.val c
      dt.toNat pixels) rfl

theorem answers_csi2FrameEnd (s : State) (t : Nat) (p : Fin 2) (vc : Fin 16) (frameNo : BitVec 16) (corrected : Bool)
    :
    AnswersButReports s (.csi2FrameEnd t p vc frameNo corrected) (withContext (s.at t) p.val vc.val corrected
        closeOverview) :=
  answers_of_onDev (f := fun d => withContext (d.arrive t) p.val vc.val corrected closeOverview) rfl

theorem answers_csi2PacketError (s : State) (t : Nat) (p : Fin 2) (kind : BitVec 2) (header : PacketHeader) :
    AnswersButReports s (.csi2PacketError t p kind header) (packetError (s.at t) p.val kind.toNat header) :=
  answers_of_onDev (f := fun d => packetError (d.arrive t) p.val kind.toNat header) rfl

theorem answers_ctxRunTest (s : State) (c : Fin 40) (on : Bool) :
    AnswersButReports s (.ctxRunTest c on) (setTest (s.now.setFld (pageCtx c.val) 0x040 0 1 (boolNat on)) c.val on) :=
  answers_of_onDev (f := fun d => setTest (d.setFld (pageCtx c.val) 0x040 0 1 (boolNat on)) c.val on) rfl

theorem answers_ctxRunRecover (s : State) (c : Fin 40) :
    AnswersButReports s (.ctxRunRecover c) (enterRecovery s.now c.val) :=
  answers_of_onDev (f := fun d => enterRecovery d c.val) rfl

theorem answers_lineFetch (s : State) :
    AnswersButReports s (.lineFetch) (fetchLine s.now) :=
  answers_of_onDev (f := fetchLine) rfl

theorem answers_lineStrobe (s : State) :
    AnswersButReports s (.lineStrobe) (fireStrobe s.now) :=
  answers_of_onDev (f := fireStrobe) rfl

theorem answers_accumulatorClose (s : State) (m : Fin 16) :
    AnswersButReports s (.accumulatorClose m) (closeAccumulator s.now m.val) :=
  answers_of_onDev (f := fun d => closeAccumulator d m.val) rfl

theorem answers_emitterTestStart (s : State) :
    AnswersButReports s (.emitterTestStart) (startTest s.now) :=
  answers_of_onDev (f := startTest) rfl

theorem answers_emitterTestDone (s : State) :
    AnswersButReports s (.emitterTestDone) (finishTest s.now) :=
  answers_of_onDev (f := finishTest) rfl

theorem answers_stpMovePosition (s : State) (mask : BitVec 12) :
    AnswersButReports s (.stpMovePosition mask) (stpMove s.now mask.toNat 0) :=
  answers_of_onDev (f := fun d => stpMove d mask.toNat 0) rfl

theorem answers_stpMoveVelocity (s : State) (mask : BitVec 12) :
    AnswersButReports s (.stpMoveVelocity mask) (stpMove s.now mask.toNat 1) :=
  answers_of_onDev (f := fun d => stpMove d mask.toNat 1) rfl

theorem answers_stpMoveStop (s : State) (mask : BitVec 12) :
    AnswersButReports s (.stpMoveStop mask) (stpMove s.now mask.toNat 2) :=
  answers_of_onDev (f := fun d => stpMove d mask.toNat 2) rfl

theorem answers_stepIssue (s : State) (t : Nat) (axis : Fin 12) :
    AnswersButReports s (.stepIssue t axis) (issueStep (s.at t) axis.val) :=
  answers_of_onDev (f := fun d => issueStep (d.arrive t) axis.val) rfl

theorem answers_saxCmpArm (s : State) (axis : Fin 12) (value : Word) :
    AnswersButReports s (.saxCmpArm axis value) (cmpArm (s.now.setReg (pageSax axis.val) 0x054 (value.toNat % 16))
        axis.val value.toNat) :=
  answers_of_onDev (f := fun d => cmpArm (d.setReg (pageSax axis.val) 0x054 (value.toNat % 16)) axis.val value.toNat)
      rfl

theorem answers_chopperSenseTrip (s : State) (t : Nat) (axis : Fin 12) (coil : Fin 2) :
    AnswersButReports s (.chopperSenseTrip t axis coil) (senseTrip (s.at t) axis.val coil.val) :=
  answers_of_onDev (f := fun d => senseTrip (d.arrive t) axis.val coil.val) rfl

theorem answers_chopperBlankEnd (s : State) (t : Nat) (axis : Fin 12) (coil : Fin 2) (above : Bool) :
    AnswersButReports s (.chopperBlankEnd t axis coil above) (blankEnd (s.at t) axis.val coil.val above) :=
  answers_of_onDev (f := fun d => blankEnd (d.arrive t) axis.val coil.val above) rfl

theorem answers_chopperOffTimeEnd (s : State) (t : Nat) (axis : Fin 12) (coil : Fin 2) :
    AnswersButReports s (.chopperOffTimeEnd t axis coil) (offTimeEnd (s.at t) axis.val coil.val) :=
  answers_of_onDev (f := fun d => offTimeEnd (d.arrive t) axis.val coil.val) rfl

theorem answers_gateDeadTimeEnd (s : State) (t : Nat) (axis : Fin 12) (coil : Fin 2) :
    AnswersButReports s (.gateDeadTimeEnd t axis coil) (deadTimeEnd (s.at t) axis.val coil.val) :=
  answers_of_onDev (f := fun d => deadTimeEnd (d.arrive t) axis.val coil.val) rfl

theorem answers_holdCurrentTimeout (s : State) (axis : Fin 12) :
    AnswersButReports s (.holdCurrentTimeout axis) (holdTimeout s.now axis.val) :=
  answers_of_onDev (f := fun d => holdTimeout d axis.val) rfl

theorem answers_ilkInputOpen (s : State) (t : Nat) (i : Fin 4) :
    AnswersButReports s (.ilkInputOpen t i) (sampleInput (s.at t) i.val true) :=
  answers_of_onDev (f := fun d => sampleInput (d.arrive t) i.val true) rfl

theorem answers_interlockLatch (s : State) (t : Nat) :
    AnswersButReports s (.interlockLatch t) (openInterlock (s.at t)) :=
  answers_of_onDev (f := fun d => openInterlock (d.arrive t)) rfl

theorem answers_mldIlkRearm (s : State) :
    AnswersButReports s (.mldIlkRearm) (rearm s.now) :=
  answers_of_onDev (f := rearm) rfl

theorem answers_mldLimitWrite (s : State) (t : Nat) (off : BitVec 12) (value : Word) :
    AnswersButReports s (.mldLimitWrite t off value) (
      if isLimit off.toNat && (s.at t).writeHeld then holdWrite (s.at t) ⟨false, wordAddr pageMld off.toNat, 4, value.toNat⟩
      else if isLimit off.toNat then
        mouldWrite (s.at t) off.toNat value.toNat fun d r => acceptWrite d .mld pageMld off.toNat r value.toNat
      else refuse (s.at t) pageMld off.toNat refusedRange) :=
  answers_of_onDev (f := fun d =>
    let d := d.arrive t
    if isLimit off.toNat && d.writeHeld then holdWrite d ⟨false, wordAddr pageMld off.toNat, 4, value.toNat⟩
    else if isLimit off.toNat then
      mouldWrite d off.toNat value.toNat fun d r => acceptWrite d .mld pageMld off.toNat r value.toNat
    else refuse d pageMld off.toNat refusedRange) rfl

theorem answers_mldAuthRaise (s : State) (t : Nat) :
    AnswersButReports s (.mldAuthRaise t) (
      mouldRow (s.at t) 0x044 (1 + ((s.at t).rfld pageMld 0x044 16 12) <<< 16) fun d =>
        authRaise d (d.rfld pageMld 0x044 16 12) (d.rfld pageMld 0x048 0 32)) :=
  answers_of_onDev (f := fun d =>
    let d := d.arrive t
    mouldRow d 0x044 (1 + (d.rfld pageMld 0x044 16 12) <<< 16) fun d =>
      authRaise d (d.rfld pageMld 0x044 16 12) (d.rfld pageMld 0x048 0 32)) rfl

theorem answers_mldAuthUnseal (s : State) (t : Nat) :
    AnswersButReports s (.mldAuthUnseal t) (
      mouldRow (s.at t) 0x044 2 authUnseal) :=
  answers_of_onDev (f := fun d => mouldRow (d.arrive t) 0x044 2 authUnseal) rfl

theorem answers_mldSeal (s : State) (t : Nat) :
    AnswersButReports s (.mldSeal t) (
      mouldRow (s.at t) 0x080 1 setSeal) :=
  answers_of_onDev (f := fun d => mouldRow (d.arrive t) 0x080 1 setSeal) rfl

theorem answers_mldKeyWrite (s : State) (t : Nat) (i : Fin 8) (value : Word) :
    AnswersButReports s (.mldKeyWrite t i value) (
      mouldRow (s.at t) (0x100 + 4 * i.val) value.toNat fun d =>
        setKeyWord (d.setReg pageMld (0x100 + 4 * i.val) value.toNat) i.val value.toNat) :=
  answers_of_onDev (f := fun d => mouldRow (d.arrive t) (0x100 + 4 * i.val) value.toNat fun d =>
    setKeyWord (d.setReg pageMld (0x100 + 4 * i.val) value.toNat) i.val value.toNat) rfl

theorem answers_sealStoreWrite (s : State) :
    AnswersBoth s .sealStoreWrite (
      if s.dev.mould.storeDirty then
        ({ s.nv with sealStore := sealStoreOf s.now }, { s.now with mould := { s.dev.mould with storeDirty := false }
            })
      else (s.nv, s.now)) :=
  answers_of_onBoth (f := fun nv d =>
    if d.mould.storeDirty then
      ({ nv with sealStore := sealStoreOf d }, { d with mould := { d.mould with storeDirty := false } })
    else (nv, d)) rfl

theorem answers_ensignTake (s : State) :
    AnswersButReports s (.ensignTake) (if s.now.running then seekerTakes s.now else s.now) :=
  answers_of_onDev (f := fun d => if d.running then seekerTakes d else d) rfl

theorem answers_parCmdJoin (s : State) (t : Nat) :
    AnswersButReports s (.parCmdJoin t) (withWrite (s.at t) pagePar 0x040 1 parJoin) :=
  answers_of_onDev (f := fun d => withWrite (d.arrive t) pagePar 0x040 1 parJoin) rfl

theorem answers_parCmdLeave (s : State) (t : Nat) :
    AnswersButReports s (.parCmdLeave t) (withWrite (s.at t) pagePar 0x040 2 parLeave) :=
  answers_of_onDev (f := fun d => withWrite (d.arrive t) pagePar 0x040 2 parLeave) rfl

theorem answers_parCmdSwap (s : State) (t : Nat) :
    AnswersButReports s (.parCmdSwap t) (withWrite (s.at t) pagePar 0x040 4 parSwap) :=
  answers_of_onDev (f := fun d => withWrite (d.arrive t) pagePar 0x040 4 parSwap) rfl

theorem answers_parCmdCancelSwap (s : State) (t : Nat) :
    AnswersButReports s (.parCmdCancelSwap t) (withWrite (s.at t) pagePar 0x040 8 parCancel) :=
  answers_of_onDev (f := fun d => withWrite (d.arrive t) pagePar 0x040 8 parCancel) rfl

theorem answers_yield (s : State) (cause : BitVec 8) :
    AnswersButReports s (.yield cause) (requestYield s.now cause.toNat) :=
  answers_of_onDev (f := fun d => requestYield d cause.toNat) rfl

theorem answers_cycleRecord (s : State) (t : Arrival) (rec : BitVec 4800) (skew : BitVec 16) :
    AnswersButReports s (.cycleRecord t rec skew) (receive s.now t fun d => takeCycleRecord d rec skew.toNat) :=
  answers_of_onDev (f := fun d => receive d t fun d => takeCycleRecord d rec skew.toNat) rfl

theorem answers_writeRecord (s : State) (t : Arrival) (cycle : Nat) (bar2 : Bool) (addr : BitVec 28) (data : Word) :
    AnswersButReports s (.writeRecord t cycle bar2 addr data) (receive s.now t fun d => takeWriteRecord d cycle bar2 addr.toNat data) :=
  answers_of_onDev (f := fun d => receive d t fun d => takeWriteRecord d cycle bar2 addr.toNat data) rfl

theorem answers_sampleRecord (s : State) (t : Arrival) (kind : BitVec 8) (index : BitVec 8) (tick : Long) (data : BitVec 128) :
    AnswersButReports s (.sampleRecord t kind index tick data) (receive s.now t fun d => takeSampleRecord d kind.toNat index.toNat tick.toNat data) :=
  answers_of_onDev (f := fun d => receive d t fun d => takeSampleRecord d kind.toNat index.toNat tick.toNat data) rfl

theorem answers_bulkRecord (s : State) (t : Arrival) (entry : Option Entry) (addr : Long) (bytes : List Byte) :
    AnswersButReports s (.bulkRecord t entry addr bytes) (receive s.now t fun d => takeBulk d entry addr.toNat bytes) :=
  answers_of_onDev (f := fun d => receive d t fun d => takeBulk d entry addr.toNat bytes) rfl

theorem answers_mirrorRecord (s : State) (t : Arrival) (addr : Nat) (data : MirrorData) :
    AnswersButReports s (.mirrorRecord t addr data) (receive s.now t fun d => takeMirror d addr data) :=
  answers_of_onDev (f := fun d => receive d t fun d => takeMirror d addr data) rfl

theorem answers_hello (s : State) (t : Arrival) (rec : BitVec 216) (sealSame : Bool) (revOk : Bool) :
    AnswersButReports s (.hello t rec sealSame revOk) (receive s.now t fun d => if d.running then takeHello d rec sealSame revOk else d) :=
  answers_of_onDev (f := fun d => receive d t fun d => if d.running then takeHello d rec sealSame revOk else d) rfl

theorem answers_joinCopyDone (s : State) :
    AnswersButReports s (.joinCopyDone) (if s.now.running then copyDone s.now else s.now) :=
  answers_of_onDev (f := fun d => if d.running then copyDone d else d) rfl

theorem answers_joinLockstep (s : State) :
    AnswersButReports s (.joinLockstep) (if s.now.running then joinDone s.now else s.now) :=
  answers_of_onDev (f := fun d => if d.running then joinDone d else d) rfl

theorem answers_autoRejoin (s : State) :
    AnswersButReports s (.autoRejoin) (if s.now.running then rejoin s.now else s.now) :=
  answers_of_onDev (f := fun d => if d.running then rejoin d else d) rfl

theorem answers_laneStagePass (s : State) (t : Nat) (lane : Fin 56) (badTables : BitVec 16) :
    AnswersButReports s (.laneStagePass t lane badTables) (stagePass (s.at t) lane.val badTables) :=
  answers_of_onDev (f := fun d => stagePass (d.arrive t) lane.val badTables) rfl

theorem answers_laneIdRetry (s : State) (t : Nat) (lane : Fin 56) :
    AnswersButReports s (.laneIdRetry t lane) (retryLane (s.at t) lane.val) :=
  answers_of_onDev (f := fun d => retryLane (d.arrive t) lane.val) rfl

theorem answers_laneStageTimeout (s : State) (t : Nat) (lane : Fin 56) :
    AnswersButReports s (.laneStageTimeout t lane) (stageTimeout (s.at t) lane.val) :=
  answers_of_onDev (f := fun d => stageTimeout (d.arrive t) lane.val) rfl

theorem answers_laneLost (s : State) (t : Nat) (lane : Fin 56) (cause : LossCause) :
    AnswersButReports s (.laneLost t lane cause) (laneLoss (s.at t) lane.val cause) :=
  answers_of_onDev (f := fun d => laneLoss (d.arrive t) lane.val cause) rfl

theorem answers_marker (s : State) (t : Nat) (lane : Fin 56) (block : Long) :
    AnswersButReports s (.marker t lane block) (takeMarker (s.at t) lane.val block.toNat) :=
  answers_of_onDev (f := fun d => takeMarker (d.arrive t) lane.val block.toNat) rfl

theorem answers_cycleStartBlock (s : State) (t : Nat) (lane : Fin 56) (block : Long) (roundTrip : Nat) :
    AnswersButReports s (.cycleStartBlock t lane block roundTrip) (takeCycleStart (s.at t) lane.val block.toNat
        roundTrip) :=
  answers_of_onDev (f := fun d => takeCycleStart (d.arrive t) lane.val block.toNat roundTrip) rfl

theorem answers_unknownBlock (s : State) (t : Nat) (lane : Fin 56) (block : BadBlock) :
    AnswersButReports s (.unknownBlock t lane block) (
      takeUnknown (s.at t) lane.val block) :=
  answers_of_onDev (f := fun d => takeUnknown (d.arrive t) lane.val block) rfl

theorem answers_lanEyeStart (s : State) (t : Nat) (lane : Fin 56) (value : Word) :
    AnswersButReports s (.lanEyeStart t lane value) (withWrite (s.at t) (pageLan lane.val) 0x040 value.toNat fun d =>
        eyeCommand d lane.val value.toNat) :=
  answers_of_onDev (f := fun d => withWrite (d.arrive t) (pageLan lane.val) 0x040 value.toNat fun d => eyeCommand d
      lane.val value.toNat) rfl

theorem answers_eyeScanDone (s : State) (t : Nat) (lane : Fin 56) (table : List Word) :
    AnswersButReports s (.eyeScanDone t lane table) (eyeDone (s.at t) lane.val table) :=
  answers_of_onDev (f := fun d => eyeDone (d.arrive t) lane.val table) rfl

theorem answers_memTrainingDone (s : State) (t : Nat) (result : TrainingEnd) :
    AnswersButReports s (.memTrainingDone t result) (trainingDone (s.at t) result) :=
  answers_of_onDev (f := fun d => trainingDone (d.arrive t) result) rfl

theorem answers_dramRequest (s : State) (t : Nat) (port : Fin 10) (addr : BitVec 36) (write : Bool) (data : BitVec
    512) :
    AnswersButReports s (.dramRequest t port addr write data) (requestBurst (s.at t) port.val addr.toNat write data)
        :=
  answers_of_onDev (f := fun d => requestBurst (d.arrive t) port.val addr.toNat write data) rfl

theorem answers_dramAgePromotion (s : State) (t : Nat) :
    AnswersButReports s (.dramAgePromotion t) (promote (acceptHeld (s.at t))) :=
  answers_of_onDev (f := fun d => promote (acceptHeld (d.arrive t))) rfl

theorem answers_dramColumnCommand (s : State) (t : Nat) (sc : Fin 2) :
    AnswersButReports s (.dramColumnCommand t sc) (columnCommand (s.at t) sc.val) :=
  answers_of_onDev (f := fun d => columnCommand (d.arrive t) sc.val) rfl

theorem answers_dramReadComplete (s : State) (t : Nat) (sc : Fin 2) (ecc : BitVec 2) :
    AnswersButReports s (.dramReadComplete t sc ecc) (readComplete (acceptHeld (s.at t)) sc.val ecc.toNat) :=
  answers_of_onDev (f := fun d => readComplete (acceptHeld (d.arrive t)) sc.val ecc.toNat) rfl

theorem answers_eccPeerRepair (s : State) (t : Nat) (data : BitVec 512) (ok : Bool) :
    AnswersButReports s (.eccPeerRepair t data ok) (peerRepair (s.at t) data ok) :=
  answers_of_onDev (f := fun d => peerRepair (d.arrive t) data ok) rfl

theorem answers_refreshDebtTick (s : State) (t : Nat) (sc : Fin 2) (k : Fin 2) :
    AnswersButReports s (.refreshDebtTick t sc k) (refreshTick (s.at t) sc.val k.val) :=
  answers_of_onDev (f := fun d => refreshTick (d.arrive t) sc.val k.val) rfl

theorem answers_mr4Read (s : State) (t : Nat) (sc : Fin 2) (k : Fin 2) (report : Mr4Report) :
    AnswersButReports s (.mr4Read t sc k report) (mr4 (s.at t) sc.val k.val report) :=
  answers_of_onDev (f := fun d => mr4 (d.arrive t) sc.val k.val report) rfl

theorem answers_retrainWindow (s : State) (t : Nat) (sc : Fin 2) (k : Fin 2) :
    AnswersButReports s (.retrainWindow t sc k) (retrain (s.at t) sc.val k.val) :=
  answers_of_onDev (f := fun d => retrain (d.arrive t) sc.val k.val) rfl

theorem answers_patrolScrubRead (s : State) (t : Nat) (ecc : BitVec 2) :
    AnswersButReports s (.patrolScrubRead t ecc) (patrolScrub (acceptHeld (s.at t)) ecc.toNat) :=
  answers_of_onDev (f := fun d => patrolScrub (acceptHeld (d.arrive t)) ecc.toNat) rfl

theorem answers_encode (s : State) (t : Nat) (r : Fin 2) (e : Entry) (rd : HostRead) :
    AnswersButReports s (.encode t r e rd) (jobEntry (s.at t) r.val e rd (.encode 0 r e rd)) :=
  answers_of_onDev (f := fun d => jobEntry (d.arrive t) r.val e rd (.encode 0 r e rd)) rfl

theorem answers_decode (s : State) (t : Nat) (r : Fin 2) (e : Entry) (rd : HostRead) :
    AnswersButReports s (.decode t r e rd) (jobEntry (s.at t) r.val e rd (.decode 0 r e rd)) :=
  answers_of_onDev (f := fun d => jobEntry (d.arrive t) r.val e rd (.decode 0 r e rd)) rfl

theorem answers_resume (s : State) (t : Nat) (r : Fin 2) (e : Entry) (rd : HostRead) :
    AnswersButReports s (.resume t r e rd) (jobEntry (s.at t) r.val e rd (.resume 0 r e rd)) :=
  answers_of_onDev (f := fun d => jobEntry (d.arrive t) r.val e rd (.resume 0 r e rd)) rfl

theorem answers_ingotEncode (s : State) (t : Nat) (r : Fin 2) (rd : HostRead) :
    AnswersButReports s (.ingotEncode t r rd) (ingotStep (s.at t) r.val false rd (.ingotEncode 0 r rd)) :=
  answers_of_onDev (f := fun d => ingotStep (d.arrive t) r.val false rd (.ingotEncode 0 r rd)) rfl

theorem answers_ingotDecode (s : State) (t : Nat) (r : Fin 2) (rd : HostRead) :
    AnswersButReports s (.ingotDecode t r rd) (ingotStep (s.at t) r.val true rd (.ingotDecode 0 r rd)) :=
  answers_of_onDev (f := fun d => ingotStep (d.arrive t) r.val true rd (.ingotDecode 0 r rd)) rfl

theorem answers_icdJobAbandon (s : State) (t : Nat) (value : Word) :
    AnswersButReports s (.icdJobAbandon t value) (withWrite (s.at t) pageIcd 0x040 value.toNat fun d =>
        jobAbandonWrite d value.toNat) :=
  answers_of_onDev (f := fun d => withWrite (d.arrive t) pageIcd 0x040 value.toNat fun d => jobAbandonWrite d
      value.toNat) rfl

theorem answers_rngProdDoorbell (s : State) (t : Nat) (ring : Fin 64) (value : Word) :
    AnswersButReports s (.rngProdDoorbell t ring value) (prodDoorbell (s.at t) ring.val value.toNat) :=
  answers_of_onDev (f := fun d => prodDoorbell (d.arrive t) ring.val value.toNat) rfl

theorem answers_rngConsDoorbell (s : State) (t : Nat) (ring : Fin 64) (value : Word) :
    AnswersButReports s (.rngConsDoorbell t ring value) (consDoorbell (s.at t) ring.val value.toNat) :=
  answers_of_onDev (f := fun d => consDoorbell (d.arrive t) ring.val value.toNat) rfl

theorem answers_rngAuxCons (s : State) (t : Nat) (ring : Fin 64) (value : Word) :
    AnswersButReports s (.rngAuxCons t ring value) (auxDoorbell (s.at t) ring.val value.toNat) :=
  answers_of_onDev (f := fun d => auxDoorbell (d.arrive t) ring.val value.toNat) rfl

theorem answers_ringRecordWrite (s : State) (t : Nat) (ring : Fin 64) :
    AnswersButReports s (.ringRecordWrite t ring) (writeRecord (s.at t) ring.val) :=
  answers_of_onDev (f := fun d => writeRecord (d.arrive t) ring.val) rfl

theorem answers_coalesceWindowEnd (s : State) :
    AnswersButReports s (.coalesceWindowEnd) (closeWindow s.now) :=
  answers_of_onDev (f := closeWindow) rfl

theorem answers_msixModerationTimer (s : State) (t : Nat) (ring : Fin 64) :
    AnswersButReports s (.msixModerationTimer t ring) (moderationTimer (s.at t) ring.val) :=
  answers_of_onDev (f := fun d => moderationTimer (d.arrive t) ring.val) rfl

theorem answers_hostReadCompletion (s : State) (t : Nat) (ring : Fin 64) (rd : HostRead) :
    AnswersButReports s (.hostReadCompletion t ring rd) (hostReadDone (s.at t) ring.val rd) :=
  answers_of_onDev (f := fun d => hostReadDone (d.arrive t) ring.val rd) rfl

theorem answers_linkDegraded (s : State) (t : Nat) (speed : BitVec 3) (width : BitVec 4) :
    AnswersButReports s (.linkDegraded t speed width) (linkRetrained (s.at t) speed width) :=
  answers_of_onDev (f := fun d => linkRetrained (d.arrive t) speed width) rfl

theorem answers_linkDown (s : State) (t : Nat) :
    AnswersButReports s (.linkDown t) (linkWentDown (s.at t)) :=
  answers_of_onDev (f := fun d => linkWentDown (d.arrive t)) rfl

theorem answers_load (s : State) (t : Nat) (r : Fin 2) (e : Entry) (rd : HostRead) :
    AnswersButReports s (.load t r e rd) (loadEntry (s.at t) r.val e rd (.load 0 r e rd)) :=
  answers_of_onDev (f := fun d => loadEntry (d.arrive t) r.val e rd (.load 0 r e rd)) rfl

theorem answers_identify (s : State) (t : Nat) (r : Fin 4) (e : Entry) :
    AnswersButReports s (.identify t r e) (mailboxEntry (s.at t) r.val e) :=
  answers_of_onDev (f := fun d => mailboxEntry (d.arrive t) r.val e) rfl

theorem answers_echo (s : State) (t : Nat) (r : Fin 4) (e : Entry) :
    AnswersButReports s (.echo t r e) (mailboxEntry (s.at t) r.val e) :=
  answers_of_onDev (f := fun d => mailboxEntry (d.arrive t) r.val e) rfl

theorem answers_mailboxUnsupported (s : State) (t : Nat) (r : Fin 4) (e : Entry) :
    AnswersButReports s (.mailboxUnsupported t r e) (mailboxEntry (s.at t) r.val e) :=
  answers_of_onDev (f := fun d => mailboxEntry (d.arrive t) r.val e) rfl

theorem answers_plate (s : State) (t : Nat) (r : Fin 2) (e : Entry) (rd : HostRead) :
    AnswersButReports s (.plate t r e rd) (calEntry (s.at t) r.val e rd (.plate t r e rd)) :=
  answers_of_onDev (f := fun d => calEntry (d.arrive t) r.val e rd (.plate t r e rd)) rfl

theorem answers_power (s : State) (t : Nat) (r : Fin 2) (e : Entry) (rd : HostRead) :
    AnswersButReports s (.power t r e rd) (calEntry (s.at t) r.val e rd (.power t r e rd)) :=
  answers_of_onDev (f := fun d => calEntry (d.arrive t) r.val e rd (.power t r e rd)) rfl

theorem answers_blackbody (s : State) (t : Nat) (r : Fin 2) (e : Entry) (rd : HostRead) :
    AnswersButReports s (.blackbody t r e rd) (calEntry (s.at t) r.val e rd (.blackbody t r e rd)) :=
  answers_of_onDev (f := fun d => calEntry (d.arrive t) r.val e rd (.blackbody t r e rd)) rfl

theorem answers_trim (s : State) (t : Nat) (r : Fin 2) (e : Entry) (rd : HostRead) :
    AnswersButReports s (.trim t r e rd) (calEntry (s.at t) r.val e rd (.trim t r e rd)) :=
  answers_of_onDev (f := fun d => calEntry (d.arrive t) r.val e rd (.trim t r e rd)) rfl

theorem answers_drift (s : State) (t : Nat) (r : Fin 2) (e : Entry) (rd : HostRead) :
    AnswersButReports s (.drift t r e rd) (calEntry (s.at t) r.val e rd (.drift t r e rd)) :=
  answers_of_onDev (f := fun d => calEntry (d.arrive t) r.val e rd (.drift t r e rd)) rfl

theorem answers_calRunStart (s : State) :
    AnswersButReports s (.calRunStart) (calStart s.now) :=
  answers_of_onDev (f := calStart) rfl

theorem answers_driftRunStart (st : State) (s : Fin 32) :
    AnswersButReports st (.driftRunStart s) (driftStart st.now s.val) :=
  answers_of_onDev (f := fun d => driftStart d s.val) rfl

theorem answers_calRunEnd (s : State) :
    AnswersButReports s (.calRunEnd) (calEnd s.now) :=
  answers_of_onDev (f := calEnd) rfl

theorem answers_calRunAbort (s : State) :
    AnswersButReports s (.calRunAbort) (abortAll s.now 1) :=
  answers_of_onDev (f := fun d => abortAll d 1) rfl

theorem answers_calResultApply (s : State) :
    AnswersButReports s (.calResultApply) (calResultApply s.now) :=
  answers_of_onDev (f := calResultApply) rfl

theorem answers_pltInEdge (s : State) (t : Nat) (i : Fin 16) (rising : Bool) :
    AnswersButReports s (.pltInEdge t i rising) (pltEdge (s.at t) i.val rising) :=
  answers_of_onDev (f := fun d => pltEdge (d.arrive t) i.val rising) rfl

theorem answers_ppsEdge (s : State) (t : Nat) :
    AnswersButReports s (.ppsEdge t) (if (s.at t).enabled pageTim then ppsIn (s.at t) else (s.at t)) :=
  answers_of_onDev (f := fun d =>
    let d := d.arrive t
    if d.enabled pageTim then ppsIn d else d) rfl

theorem answers_ppsLoss (s : State) (t : Nat) :
    AnswersButReports s (.ppsLoss t) (if (s.at t).enabled pageTim then ppsLost (s.at t) else (s.at t)) :=
  answers_of_onDev (f := fun d =>
    let d := d.arrive t
    if d.enabled pageTim then ppsLost d else d) rfl

theorem answers_wholeSecondCrossing (s : State) (t : Nat) :
    AnswersButReports s (.wholeSecondCrossing t) (wholeSecond (s.at t)) :=
  answers_of_onDev (f := fun d => wholeSecond (d.arrive t)) rfl

theorem answers_ppsOutFall (s : State) (t : Nat) :
    AnswersButReports s (.ppsOutFall t) (ppsFall (s.at t)) :=
  answers_of_onDev (f := fun d => ppsFall (d.arrive t)) rfl

theorem answers_timSetSeconds (s : State) (t : Nat) (value : Long) :
    AnswersButReports s (.timSetSeconds t value) (withWrite (s.at t) pageTim 0x048 value.toNat fun d => setSeconds d
        value.toNat) :=
  answers_of_onDev (f := fun d => withWrite (d.arrive t) pageTim 0x048 value.toNat fun d => setSeconds d value.toNat)
      rfl

theorem answers_timTickLowRead (s : State) (t : Nat) :
    AnswersButReports s (.timTickLowRead t) ((latchTick (s.at t)).send (.read (word (s.at t).tick))) :=
  answers_of_onDev (f := fun d =>
    let d := d.arrive t
    (latchTick d).send (.read (word d.tick))) rfl

theorem answers_temperatureSample (s : State) (readings : Vector (BitVec 16) 24) :
    AnswersButReports s (.temperatureSample readings) (sampleTemperatures s.now readings) :=
  answers_of_onDev (f := fun d => sampleTemperatures d readings) rfl

theorem answers_ringOscCount (s : State) (t : Nat) (k : Fin 8) (count : Word) :
    AnswersButReports s (.ringOscCount t k count) (oscillatorCount (s.at t) k.val count.toNat) :=
  answers_of_onDev (f := fun d => oscillatorCount (d.arrive t) k.val count.toNat) rfl

theorem answers_recManualHoist (s : State) (t : Nat) :
    AnswersButReports s (.recManualHoist t) (withWrite (s.at t) pageRec 0x044 1 manualHoist) :=
  answers_of_onDev (f := fun d => withWrite (d.arrive t) pageRec 0x044 1 manualHoist) rfl

theorem answers_recHistReset (s : State) (t : Nat) :
    AnswersButReports s (.recHistReset t) (withWrite (s.at t) pageRec 0x044 2 histReset) :=
  answers_of_onDev (f := fun d => withWrite (d.arrive t) pageRec 0x044 2 histReset) rfl

theorem answers_recClear (s : State) (t : Nat) :
    AnswersButReports s (.recClear t) (withWrite (s.at t) pageRec 0x054 1 fun d => recorderCommand d 1) :=
  answers_of_onDev (f := fun d => withWrite (d.arrive t) pageRec 0x054 1 fun d => recorderCommand d 1) rfl

theorem answers_recClearAndUnkey (s : State) (t : Nat) :
    AnswersButReports s (.recClearAndUnkey t) (withWrite (s.at t) pageRec 0x054 2 fun d => recorderCommand d 2) :=
  answers_of_onDev (f := fun d => withWrite (d.arrive t) pageRec 0x054 2 fun d => recorderCommand d 2) rfl

theorem answers_recKeyWrite (s : State) (t : Nat) (i : Fin 8) (value : Word) :
    AnswersButReports s (.recKeyWrite t i value) (recKeyWrite (s.at t) i.val value.toNat) :=
  answers_of_onDev (f := fun d => recKeyWrite (d.arrive t) i.val value.toNat) rfl

theorem answers_histogramSample (s : State) :
    AnswersButReports s (.histogramSample) (histogramSample s.now) :=
  answers_of_onDev (f := histogramSample) rfl

theorem answers_devFlashDataRead (s : State) (t : Nat) :
    AnswersButReports s (.devFlashDataRead t) (
      flashRead s.nv (s.at t)) :=
  answers_of_onBoth (f := fun nv d => (nv, flashRead nv (d.arrive t))) rfl

theorem answers_devFlashDataWrite (s : State) (t : Nat) (value : Word) :
    AnswersBoth s (.devFlashDataWrite t value) (
      flashWrite s.nv (s.at t) 0x108 value.toNat) :=
  answers_of_onBoth (f := fun nv d => flashWrite nv (d.arrive t) 0x108 value.toNat) rfl

theorem answers_devFlashErase (s : State) (t : Nat) (value : Word) :
    AnswersBoth s (.devFlashErase t value) (
      flashWrite s.nv (s.at t) 0x10C value.toNat) :=
  answers_of_onBoth (f := fun nv d => flashWrite nv (d.arrive t) 0x10C value.toNat) rfl

theorem answers_flashOperationDone (s : State) (t : Nat) (ok : Bool) :
    AnswersBoth s (.flashOperationDone t ok) (
      endFlash s.nv (s.at t) ok) :=
  answers_of_onBoth (f := fun nv d => endFlash nv (d.arrive t) ok) rfl

theorem answers_poresetNLow (s : State) :
    AnswersBoth s .poresetNLow (
      powerDown s.nv s.now) :=
  answers_of_onBoth (f := powerDown) rfl

theorem answers_pcieLinkUp (s : State) (t : Nat) (speed : BitVec 3) (width : BitVec 4) :
    AnswersButReports s (.pcieLinkUp t speed width) (linkTrained (s.at t) speed width) :=
  answers_of_onDev (f := fun d => linkTrained (d.arrive t) speed width) rfl

theorem answers_ilkInputClosed (s : State) (t : Nat) (i : Fin 4) :
    AnswersButReports s (.ilkInputClosed t i) (sampleInput (s.at t) i.val false) :=
  answers_of_onDev (f := fun d => sampleInput (d.arrive t) i.val false) rfl

theorem answers_csiSyncLost (s : State) (t : Nat) (p : Fin 2) :
    AnswersButReports s (.csiSyncLost t p) (syncLost (s.at t) p.val) :=
  answers_of_onDev (f := fun d => syncLost (d.arrive t) p.val) rfl

theorem answers_csiPortReturn (s : State) (t : Nat) (p : Fin 2) :
    AnswersButReports s (.csiPortReturn t p) (portReturn (s.at t) p.val) :=
  answers_of_onDev (f := fun d => portReturn (d.arrive t) p.val) rfl

theorem answers_pcieErrorLogged (s : State) (t : Nat) (correctable : Bool) :
    AnswersButReports s (.pcieErrorLogged t correctable) ((s.at t).count pageHif (if correctable then 0x064 else
        0x068)) :=
  answers_of_onDev (f := fun d => (d.arrive t).count pageHif (if correctable then 0x064 else 0x068)) rfl

end Sys2Proof.Laws
end

