-- ==== Sys2Proof/Laws/Dram.lean ====
section
/-! SUPPORT. What asking for bursts, and sending on the halyard link, can change: the requests' lists and their counters, and
what goes out. -/
namespace Sys2Proof.Laws
open Sys2Proof.Machine

/-- `e` is `d` but for the registers' counters, the DRAM controller and what goes out. -/
def OnlyDram (d e : Dev) : Prop := e = { d with regs := e.regs, dram := e.dram, out := e.out }

theorem onlyDram_refl (d : Dev) : OnlyDram d d := rfl
theorem onlyDram_trans {a b c : Dev} (h : OnlyDram a b) (k : OnlyDram b c) : OnlyDram a c := by
  unfold OnlyDram at *; rw [k, h]

/-- A request that is accepted is queued, spends its port's budget or counts as beyond the capacity. -/
theorem acceptReq_onlyDram (d : Dev) (q : DramReq) : OnlyDram d (acceptReq d q) := by
  unfold acceptReq spend
  dsimp only
  repeat' split
  all_goals rfl

theorem acceptHeld_onlyDram (d : Dev) : OnlyDram d (acceptHeld d) := by
  unfold acceptHeld
  split
  case isFalse => rfl
  dsimp only
  generalize hx : ({ d with dram := { d.dram with held := [] } }, ([] : List DramReq)) = x
  have h0 : OnlyDram d x.1 := by subst hx; rfl
  clear hx
  generalize d.dram.held = l
  suffices h : ∀ x : Dev × List DramReq, OnlyDram d x.1 → OnlyDram d (l.foldl _ x).1 from
    onlyDram_trans (h x h0) rfl
  induction l with
  | nil => exact fun _ h => h
  | cons q l ih =>
    intro x h
    rw [List.foldl_cons]
    refine ih _ ?_
    split
    · exact onlyDram_trans h (acceptReq_onlyDram x.1 q)
    · exact h

/-- Bursts that are asked for touch the DRAM controller alone; nothing else of the device moves until they complete. -/
theorem requestBursts_onlyDram (d : Dev) (qs : List DramReq) : OnlyDram d (requestBursts d qs) :=
  onlyDram_trans (show OnlyDram d { d with dram := { d.dram with held := d.dram.held ++ qs } } from rfl) (acceptHeld_onlyDram _)

theorem countBeyond_onlyDram (d : Dev) (a n : Nat) : OnlyDram d (countBeyond d a n) := by
  unfold countBeyond; split <;> rfl

theorem dramWrite_onlyDram (d : Dev) (port a : Nat) (bs : List Byte) (c : DramClient) : OnlyDram d (dramWrite d port a bs c) :=
  onlyDram_trans (countBeyond_onlyDram d a bs.length) (requestBursts_onlyDram _ _)

theorem dramRead_onlyDram (d : Dev) (port a n : Nat) (use : TransferUse) : OnlyDram d (dramRead d port a n use).2 := by
  unfold dramRead
  dsimp only
  split
  · exact countBeyond_onlyDram d a n
  · refine onlyDram_trans (onlyDram_trans (countBeyond_onlyDram d a n) ?_) (requestBursts_onlyDram _ _)
    rfl

/-! ### The halyard link -/

/-- A record sent on the halyard link is an output and nothing else. -/
theorem sendHalyard_out (d : Dev) (type : Nat) (body : List Byte) :
    sendHalyard d type body = { d with out := (sendHalyard d type body).out } := by
  unfold sendHalyard; split <;> rfl

theorem sendCopy_out (type n : Nat) (d : Dev) (a : Nat) (bs : List Byte) :
    sendCopy type n d a bs = { d with out := (sendCopy type n d a bs).out } := by
  induction n generalizing d a bs with
  | zero => rfl
  | succ n ih =>
    rw [sendCopy]
    split
    · exact sendHalyard_out _ _ _
    · rw [ih, sendHalyard_out]

/-- A forwarded write takes a slot of the cycle and goes out. -/
theorem forwardWrite_frame (d : Dev) (bar2 : Bool) (addr value : Nat) :
    forwardWrite d bar2 addr value =
      { d with par := (forwardWrite d bar2 addr value).par, out := (forwardWrite d bar2 addr value).out } := by
  unfold forwardWrite
  split
  · dsimp only
    rw [sendHalyard_out]
  · rfl

end Sys2Proof.Laws
end

