-- ==== Sys2Proof/Laws/Entries.lean ====
section
/-! SUPPORT. What commands of the rings rest on: reading an entry, reporting its end, and a command whose meaning
reports nothing. -/
namespace Sys2Proof.Laws
open Sys2Proof.Machine

/-- A command that acts on the device alone answers exactly what its operation gives. -/
theorem exactly_of_onDev {s : State} {i : Instr} {f : Dev → Dev} (h : exec i s = onDev s f) :
    AnswersExactly s i (f s.now) := ⟨_, h, rfl, rfl, rfl⟩

/-- A completion status changes reports only. -/
theorem same_statusReport (d : Dev) (st heat index : Nat) : SameButReports d (statusReport d st heat index) := by
  unfold statusReport
  split
  · exact same_refl _
  · simp only
    repeat' split
    all_goals first | exact same_raise _ _ _ _ _ _ _ (by decide) | exact same_report _ _ _ _ _ _ (by decide)

/-- ENTRY_DONE changes reports only. -/
theorem same_entryDone (d : Dev) (r index status code heat detail dropped : Nat) (h : r < 16) :
    SameButReports d (entryDone d r index status code heat detail dropped) :=
  same_trans (same_emitShared _ _ _ _ (by omega)) (same_statusReport _ _ _ _)
/-- HEAT_DONE changes reports only. -/
theorem same_heatDone (d : Dev) (at0 r a b c e f g k : Nat) (h : r < 16) :
    SameButReports d (heatDone d at0 r a b c e f g k) :=
  same_trans (same_emitShared _ _ _ _ (by omega)) (same_statusReport _ _ _ _)

/-- An entry that is ready can be read, and its phase is the ring's. -/
theorem entryReady_canRead {d : Dev} {r : Nat} {e : Entry} (h : entryReady d r e = true) :
    canRead d r = true ∧ bits e.toNat 248 1 = phaseAt (entryPos d r) := by
  unfold entryReady at h; simpa using h

/-- A ready entry is consumed and its operation runs. -/
theorem takeEntry_ready {d : Dev} {r : Nat} {e : Entry} (f : Dev → Nat → Dev) (h : entryReady d r e = true) :
    takeEntry d r e f = f (consumed d r) (bits (entryPos d r) 0 16) := by
  obtain ⟨a, b⟩ := entryReady_canRead h
  simp [takeEntry, a, b, consumed]

/-- A ready entry of a heat ring reaches a device that holds the ensign. -/
theorem opening_holds {d : Dev} {r : Nat} {e : Entry} (hr : r < 4) (h : entryReady d r e = true) : d.holds = true := by
  obtain ⟨a, -⟩ := entryReady_canRead h
  unfold canRead at a
  simp only [Bool.and_eq_true, Bool.or_eq_true, Bool.not_eq_true'] at a
  rcases a.1.1 with x | x
  · unfold sharedRing at x; interval_cases r <;> simp at x
  · exact x

end Sys2Proof.Laws
end

