-- ==== Sys2Proof/Laws/PerInstr.lean ====
section
/-! SUPPORT. Statements about every command as syntax, one lemma per constructor. -/
namespace Sys2Proof.Laws.Offset

/-- A well-formed command arrives within its cycle (R22). -/
def Statement (i : Instr) : Prop := i.wf = true → i.offset < 1250

/-- The first conjunct of well-formedness. -/
theorem of_wf (i : Instr) : Statement i := fun h => of_decide_eq_true ((Bool.and_eq_true _ _).mp h).1

theorem powerOnReset (strapB : Bool) (sealOk : Bool) (testEn : Bool) : Statement (.powerOnReset strapB sealOk testEn) := of_wf _
theorem bootRomVerify (sfdpOk : Bool) : Statement (.bootRomVerify sfdpOk) := of_wf _
theorem bootReady : Statement (.bootReady) := of_wf _
theorem resetNSample (low : Bool) : Statement (.resetNSample low) := of_wf _
theorem devResetWarm (t : Nat) (value : Word) : Statement (.devResetWarm t value) := of_wf _
theorem warmReset : Statement (.warmReset) := of_wf _
theorem rootPllLockLoss : Statement (.rootPllLockLoss) := of_wf _
theorem registerWrite (t : Nat) (addr : BitVec 22) (bytes : Nat) (data : Long) : Statement (.registerWrite t addr bytes data) := of_wf _
theorem lowWordRead (t : Nat) (request : ReadRequest) : Statement (.lowWordRead t request) := of_wf _
theorem commitWrite (t : Nat) (page : Fin 1024) (value : Word) : Statement (.commitWrite t page value) := of_wf _
theorem commitApply (page : Fin 1024) (group : Fin 32) : Statement (.commitApply page group) := of_wf _
theorem liveWriteApply : Statement (.liveWriteApply) := of_wf _
theorem devCommitHold (t : Nat) (value : Word) : Statement (.devCommitHold t value) := of_wf _
theorem bar2TableWrite (t : Nat) (addr : BitVec 28) (data : Word) : Statement (.bar2TableWrite t addr data) := of_wf _
theorem heatOpen (t : Nat) (r : Fin 4) (e : Entry) : Statement (.heatOpen t r e) := of_wf _
theorem islands (t : Nat) (r : Fin 4) (e : Entry) (rd : HostRead) : Statement (.islands t r e rd) := of_wf _
theorem pours (t : Nat) (r : Fin 4) (e : Entry) (rd : HostRead) : Statement (.pours t r e rd) := of_wf _
theorem recoat (t : Nat) (r : Fin 4) (e : Entry) (rd : HostRead) : Statement (.recoat t r e rd) := of_wf _
theorem pass (t : Nat) (r : Fin 4) (e : Entry) : Statement (.pass t r e) := of_wf _
theorem heatClose (t : Nat) (r : Fin 4) (e : Entry) : Statement (.heatClose t r e) := of_wf _
theorem standbyHeatConfirm (t : Nat) (r : Fin 4) : Statement (.standbyHeatConfirm t r) := of_wf _
theorem heatCancel (t : Nat) (r : Fin 4) (e : Entry) : Statement (.heatCancel t r e) := of_wf _
theorem heatRingResume (t : Nat) (r : Fin 4) : Statement (.heatRingResume t r) := of_wf _
theorem lines (t : Nat) (r : Fin 4) (e : Entry) (rd : HostRead) : Statement (.lines t r e rd) := of_wf _
theorem heatStart : Statement (.heatStart) := of_wf _
theorem heatMoveStart : Statement (.heatMoveStart) := of_wf _
theorem stepperMoveEnd (t : Nat) (axis : Fin 12) : Statement (.stepperMoveEnd t axis) := of_wf _
theorem passTest : Statement (.passTest) := of_wf _
theorem passEnd (t : Nat) : Statement (.passEnd t) := of_wf _
theorem heatBoundary : Statement (.heatBoundary) := of_wf _
theorem cycleStart (supplies : Vector (BitVec 16) 16) (head : BitVec 24) : Statement (.cycleStart supplies head) := of_wf _
theorem uplinkDeadline : Statement (.uplinkDeadline) := of_wf _
theorem commandFrameSend : Statement (.commandFrameSend) := of_wf _
theorem watchdogCheck (framesSent : Bool) (sramError : Bool) : Statement (.watchdogCheck framesSent sramError) := of_wf _
theorem peerPinSample (health : Bool) (ensign : Bool) : Statement (.peerPinSample health ensign) := of_wf _
theorem dispatchStalled : Statement (.dispatchStalled) := of_wf _
theorem holdResume (s : Fin 32) : Statement (.holdResume s) := of_wf _
theorem loopStale (s : Fin 32) : Statement (.loopStale s) := of_wf _
theorem schRunAbandon : Statement (.schRunAbandon) := of_wf _
theorem pourPrefetch (s : Fin 32) : Statement (.pourPrefetch s) := of_wf _
theorem srvTraceArm (mask : Word) : Statement (.srvTraceArm mask) := of_wf _
theorem srvTraceFire (mask : Word) : Statement (.srvTraceFire mask) := of_wf _
theorem stationUplinkFrame (t : Nat) (s : Fin 32) (hdr : BitVec 56) (payload : BitVec 256) (chk : Long) : Statement (.stationUplinkFrame t s hdr payload chk) := of_wf _
theorem lineHeadUplinkFrame (t : Nat) (m : Fin 16) (hdr : BitVec 56) (payload : BitVec 960) (chk : Long) : Statement (.lineHeadUplinkFrame t m hdr payload chk) := of_wf _
theorem localChannelSample (t : Nat) (ch : Fin 8) (smp : RawSample) : Statement (.localChannelSample t ch smp) := of_wf _
theorem standstillTimeout (ch : Fin 104) : Statement (.standstillTimeout ch) := of_wf _
theorem emuEmission (t : Nat) (e : Fin 8) : Statement (.emuEmission t e) := of_wf _
theorem cameraBlock (t : Nat) (s : Fin 32) (hdr : BitVec 56) (data : List Long) (broken : Bool) : Statement (.cameraBlock t s hdr data broken) := of_wf _
theorem pipelineLineStart (p : Fin 4) : Statement (.pipelineLineStart p) := of_wf _
theorem coaxialFrameClose (c : Fin 32) : Statement (.coaxialFrameClose c) := of_wf _
theorem csi2FrameStart (t : Nat) (p : Fin 2) (vc : Fin 16) (frameNo : BitVec 16) (corrected : Bool) : Statement (.csi2FrameStart t p vc frameNo corrected) := of_wf _
theorem csi2Line (t : Nat) (p : Fin 2) (vc : Fin 16) (dt : BitVec 6) (pixels : List (BitVec 16)) (corrected : Bool) : Statement (.csi2Line t p vc dt pixels corrected) := of_wf _
theorem csi2FrameEnd (t : Nat) (p : Fin 2) (vc : Fin 16) (frameNo : BitVec 16) (corrected : Bool) : Statement (.csi2FrameEnd t p vc frameNo corrected) := of_wf _
theorem csi2PacketError (t : Nat) (p : Fin 2) (kind : BitVec 2) (header : PacketHeader) : Statement (.csi2PacketError t p kind header) := of_wf _
theorem ctxRunTest (c : Fin 40) (on : Bool) : Statement (.ctxRunTest c on) := of_wf _
theorem ctxRunRecover (c : Fin 40) : Statement (.ctxRunRecover c) := of_wf _
theorem lineFetch : Statement (.lineFetch) := of_wf _
theorem lineStrobe : Statement (.lineStrobe) := of_wf _
theorem accumulatorClose (m : Fin 16) : Statement (.accumulatorClose m) := of_wf _
theorem emitterTestStart : Statement (.emitterTestStart) := of_wf _
theorem emitterTestDone : Statement (.emitterTestDone) := of_wf _
theorem stpMovePosition (mask : BitVec 12) : Statement (.stpMovePosition mask) := of_wf _
theorem stpMoveVelocity (mask : BitVec 12) : Statement (.stpMoveVelocity mask) := of_wf _
theorem stpMoveStop (mask : BitVec 12) : Statement (.stpMoveStop mask) := of_wf _
theorem stepIssue (t : Nat) (axis : Fin 12) : Statement (.stepIssue t axis) := of_wf _
theorem saxCmpArm (axis : Fin 12) (value : Word) : Statement (.saxCmpArm axis value) := of_wf _
theorem chopperSenseTrip (t : Nat) (axis : Fin 12) (coil : Fin 2) : Statement (.chopperSenseTrip t axis coil) := of_wf _
theorem chopperBlankEnd (t : Nat) (axis : Fin 12) (coil : Fin 2) (above : Bool) : Statement (.chopperBlankEnd t axis coil above) := of_wf _
theorem chopperOffTimeEnd (t : Nat) (axis : Fin 12) (coil : Fin 2) : Statement (.chopperOffTimeEnd t axis coil) := of_wf _
theorem gateDeadTimeEnd (t : Nat) (axis : Fin 12) (coil : Fin 2) : Statement (.gateDeadTimeEnd t axis coil) := of_wf _
theorem holdCurrentTimeout (axis : Fin 12) : Statement (.holdCurrentTimeout axis) := of_wf _
theorem ilkInputOpen (t : Nat) (i : Fin 4) : Statement (.ilkInputOpen t i) := of_wf _
theorem interlockLatch (t : Nat) : Statement (.interlockLatch t) := of_wf _
theorem mldIlkRearm : Statement (.mldIlkRearm) := of_wf _
theorem mldLimitWrite (t : Nat) (off : BitVec 12) (value : Word) : Statement (.mldLimitWrite t off value) := of_wf _
theorem mldAuthRaise (t : Nat) : Statement (.mldAuthRaise t) := of_wf _
theorem mldAuthUnseal (t : Nat) : Statement (.mldAuthUnseal t) := of_wf _
theorem mldSeal (t : Nat) : Statement (.mldSeal t) := of_wf _
theorem mldKeyWrite (t : Nat) (i : Fin 8) (value : Word) : Statement (.mldKeyWrite t i value) := of_wf _
theorem sealStoreWrite : Statement (.sealStoreWrite) := of_wf _
theorem ensignTake : Statement (.ensignTake) := of_wf _
theorem parCmdJoin (t : Nat) : Statement (.parCmdJoin t) := of_wf _
theorem parCmdLeave (t : Nat) : Statement (.parCmdLeave t) := of_wf _
theorem parCmdSwap (t : Nat) : Statement (.parCmdSwap t) := of_wf _
theorem parCmdCancelSwap (t : Nat) : Statement (.parCmdCancelSwap t) := of_wf _
theorem yield (cause : BitVec 8) : Statement (.yield cause) := of_wf _
theorem cycleRecord (t : Arrival) (rec : BitVec 4800) (skew : BitVec 16) : Statement (.cycleRecord t rec skew) := of_wf _
theorem writeRecord (t : Arrival) (cycle : Nat) (bar2 : Bool) (addr : BitVec 28) (data : Word) : Statement (.writeRecord t cycle bar2 addr data) := of_wf _
theorem sampleRecord (t : Arrival) (kind : BitVec 8) (index : BitVec 8) (tick : Long) (data : BitVec 128) : Statement (.sampleRecord t kind index tick data) := of_wf _
theorem bulkRecord (t : Arrival) (entry : Option Entry) (addr : Long) (bytes : List Byte) : Statement (.bulkRecord t entry addr bytes) := of_wf _
theorem mirrorRecord (t : Arrival) (addr : Nat) (data : Machine.MirrorData) : Statement (.mirrorRecord t addr data) := of_wf _
theorem hello (t : Arrival) (rec : BitVec 216) (sealSame : Bool) (revOk : Bool) : Statement (.hello t rec sealSame revOk) := of_wf _
theorem joinCopyDone : Statement (.joinCopyDone) := of_wf _
theorem joinLockstep : Statement (.joinLockstep) := of_wf _
theorem autoRejoin : Statement (.autoRejoin) := of_wf _
theorem laneStagePass (t : Nat) (lane : Fin 56) (badTables : BitVec 16) : Statement (.laneStagePass t lane badTables) := of_wf _
theorem laneIdRetry (t : Nat) (lane : Fin 56) : Statement (.laneIdRetry t lane) := of_wf _
theorem laneStageTimeout (t : Nat) (lane : Fin 56) : Statement (.laneStageTimeout t lane) := of_wf _
theorem laneLost (t : Nat) (lane : Fin 56) (cause : LossCause) : Statement (.laneLost t lane cause) := of_wf _
theorem marker (t : Nat) (lane : Fin 56) (block : Long) : Statement (.marker t lane block) := of_wf _
theorem cycleStartBlock (t : Nat) (lane : Fin 56) (block : Long) (roundTrip : Nat) : Statement (.cycleStartBlock t lane block roundTrip) := of_wf _
theorem unknownBlock (t : Nat) (lane : Fin 56) (block : BadBlock) : Statement (.unknownBlock t lane block) := of_wf _
theorem lanEyeStart (t : Nat) (lane : Fin 56) (value : Word) : Statement (.lanEyeStart t lane value) := of_wf _
theorem eyeScanDone (t : Nat) (lane : Fin 56) (table : List Word) : Statement (.eyeScanDone t lane table) := of_wf _
theorem memTrainingDone (t : Nat) (result : TrainingEnd) : Statement (.memTrainingDone t result) := of_wf _
theorem dramRequest (t : Nat) (port : Fin 10) (addr : BitVec 36) (write : Bool) (data : BitVec 512) : Statement (.dramRequest t port addr write data) := of_wf _
theorem dramAgePromotion (t : Nat) : Statement (.dramAgePromotion t) := of_wf _
theorem dramColumnCommand (t : Nat) (sc : Fin 2) : Statement (.dramColumnCommand t sc) := of_wf _
theorem dramReadComplete (t : Nat) (sc : Fin 2) (ecc : BitVec 2) : Statement (.dramReadComplete t sc ecc) := of_wf _
theorem eccPeerRepair (t : Nat) (data : BitVec 512) (ok : Bool) : Statement (.eccPeerRepair t data ok) := of_wf _
theorem refreshDebtTick (t : Nat) (sc : Fin 2) (k : Fin 2) : Statement (.refreshDebtTick t sc k) := of_wf _
theorem mr4Read (t : Nat) (sc : Fin 2) (k : Fin 2) (report : Mr4Report) : Statement (.mr4Read t sc k report) := of_wf _
theorem retrainWindow (t : Nat) (sc : Fin 2) (k : Fin 2) : Statement (.retrainWindow t sc k) := of_wf _
theorem patrolScrubRead (t : Nat) (ecc : BitVec 2) : Statement (.patrolScrubRead t ecc) := of_wf _
theorem encode (t : Nat) (r : Fin 2) (e : Entry) (rd : HostRead) : Statement (.encode t r e rd) := of_wf _
theorem decode (t : Nat) (r : Fin 2) (e : Entry) (rd : HostRead) : Statement (.decode t r e rd) := of_wf _
theorem resume (t : Nat) (r : Fin 2) (e : Entry) (rd : HostRead) : Statement (.resume t r e rd) := of_wf _
theorem ingotEncode (t : Nat) (r : Fin 2) (rd : HostRead) : Statement (.ingotEncode t r rd) := of_wf _
theorem ingotDecode (t : Nat) (r : Fin 2) (rd : HostRead) : Statement (.ingotDecode t r rd) := of_wf _
theorem icdJobAbandon (t : Nat) (value : Word) : Statement (.icdJobAbandon t value) := of_wf _
theorem rngProdDoorbell (t : Nat) (ring : Fin 64) (value : Word) : Statement (.rngProdDoorbell t ring value) := of_wf _
theorem rngConsDoorbell (t : Nat) (ring : Fin 64) (value : Word) : Statement (.rngConsDoorbell t ring value) := of_wf _
theorem rngAuxCons (t : Nat) (ring : Fin 64) (value : Word) : Statement (.rngAuxCons t ring value) := of_wf _
theorem ringRecordWrite (t : Nat) (ring : Fin 64) : Statement (.ringRecordWrite t ring) := of_wf _
theorem coalesceWindowEnd : Statement (.coalesceWindowEnd) := of_wf _
theorem msixModerationTimer (t : Nat) (ring : Fin 64) : Statement (.msixModerationTimer t ring) := of_wf _
theorem hostReadCompletion (t : Nat) (ring : Fin 64) (rd : HostRead) : Statement (.hostReadCompletion t ring rd) := of_wf _
theorem linkDegraded (t : Nat) (speed : BitVec 3) (width : BitVec 4) : Statement (.linkDegraded t speed width) := of_wf _
theorem linkDown (t : Nat) : Statement (.linkDown t) := of_wf _
theorem load (t : Nat) (r : Fin 2) (e : Entry) (rd : HostRead) : Statement (.load t r e rd) := of_wf _
theorem identify (t : Nat) (r : Fin 4) (e : Entry) : Statement (.identify t r e) := of_wf _
theorem echo (t : Nat) (r : Fin 4) (e : Entry) : Statement (.echo t r e) := of_wf _
theorem mailboxUnsupported (t : Nat) (r : Fin 4) (e : Entry) : Statement (.mailboxUnsupported t r e) := of_wf _
theorem plate (t : Nat) (r : Fin 2) (e : Entry) (rd : HostRead) : Statement (.plate t r e rd) := of_wf _
theorem power (t : Nat) (r : Fin 2) (e : Entry) (rd : HostRead) : Statement (.power t r e rd) := of_wf _
theorem blackbody (t : Nat) (r : Fin 2) (e : Entry) (rd : HostRead) : Statement (.blackbody t r e rd) := of_wf _
theorem trim (t : Nat) (r : Fin 2) (e : Entry) (rd : HostRead) : Statement (.trim t r e rd) := of_wf _
theorem drift (t : Nat) (r : Fin 2) (e : Entry) (rd : HostRead) : Statement (.drift t r e rd) := of_wf _
theorem calRunStart : Statement (.calRunStart) := of_wf _
theorem driftRunStart (s : Fin 32) : Statement (.driftRunStart s) := of_wf _
theorem calRunEnd : Statement (.calRunEnd) := of_wf _
theorem calRunAbort : Statement (.calRunAbort) := of_wf _
theorem calResultApply : Statement (.calResultApply) := of_wf _
theorem pltInEdge (t : Nat) (i : Fin 16) (rising : Bool) : Statement (.pltInEdge t i rising) := of_wf _
theorem ppsEdge (t : Nat) : Statement (.ppsEdge t) := of_wf _
theorem ppsLoss (t : Nat) : Statement (.ppsLoss t) := of_wf _
theorem wholeSecondCrossing (t : Nat) : Statement (.wholeSecondCrossing t) := of_wf _
theorem ppsOutFall (t : Nat) : Statement (.ppsOutFall t) := of_wf _
theorem timSetSeconds (t : Nat) (value : Long) : Statement (.timSetSeconds t value) := of_wf _
theorem timTickLowRead (t : Nat) : Statement (.timTickLowRead t) := of_wf _
theorem temperatureSample (readings : Vector (BitVec 16) 24) : Statement (.temperatureSample readings) := of_wf _
theorem ringOscCount (t : Nat) (k : Fin 8) (count : Word) : Statement (.ringOscCount t k count) := of_wf _
theorem recManualHoist (t : Nat) : Statement (.recManualHoist t) := of_wf _
theorem recHistReset (t : Nat) : Statement (.recHistReset t) := of_wf _
theorem recClear (t : Nat) : Statement (.recClear t) := of_wf _
theorem recClearAndUnkey (t : Nat) : Statement (.recClearAndUnkey t) := of_wf _
theorem recKeyWrite (t : Nat) (i : Fin 8) (value : Word) : Statement (.recKeyWrite t i value) := of_wf _
theorem histogramSample : Statement (.histogramSample) := of_wf _
theorem devFlashDataRead (t : Nat) : Statement (.devFlashDataRead t) := of_wf _
theorem devFlashDataWrite (t : Nat) (value : Word) : Statement (.devFlashDataWrite t value) := of_wf _
theorem devFlashErase (t : Nat) (value : Word) : Statement (.devFlashErase t value) := of_wf _
theorem flashOperationDone (t : Nat) (ok : Bool) : Statement (.flashOperationDone t ok) := of_wf _
theorem poresetNLow : Statement (.poresetNLow) := of_wf _
theorem pcieLinkUp (t : Nat) (speed : BitVec 3) (width : BitVec 4) : Statement (.pcieLinkUp t speed width) := of_wf _
theorem ilkInputClosed (t : Nat) (i : Fin 4) : Statement (.ilkInputClosed t i) := of_wf _
theorem csiSyncLost (t : Nat) (p : Fin 2) : Statement (.csiSyncLost t p) := of_wf _
theorem csiPortReturn (t : Nat) (p : Fin 2) : Statement (.csiPortReturn t p) := of_wf _
theorem pcieErrorLogged (t : Nat) (correctable : Bool) : Statement (.pcieErrorLogged t correctable) := of_wf _

end Sys2Proof.Laws.Offset
end

