-- ==== Sys2Proof/Tests/Slice0.lean ====
section
/-! SUPPORT. Tests. The smoke tests show an ill-formed term that each check of WellFormed refuses; the witnesses show,
for every statement with hypotheses, states and operands that meet them; the last section checks worked examples of the
spec and single steps worked out by hand from the rule each names. -/
namespace Sys2Proof.Tests
set_option Elab.async false
open Sys2Proof.Machine

/-! ### WellFormed: a term that each check refuses -/

/-- An offset past the cycle's last tick. -/
theorem smoke_offset : (Instr.linkDown 1250).wf = false ∧ (Instr.linkDown 1249).wf = true := by decide +kernel
/-- A write of no byte, of nine bytes, and of a value wider than its bytes. -/
theorem smoke_registerWrite : (Instr.registerWrite 0 0 0 0).wf = false ∧ (Instr.registerWrite 0 0 9 0).wf = false ∧
    (Instr.registerWrite 0 0 1 256).wf = false ∧ (Instr.registerWrite 0 0 1 255).wf = true := by decide +kernel
theorem smoke_lowWordRead : (Instr.lowWordRead 0 ⟨false, 2, 0⟩).wf = false := by decide +kernel
theorem smoke_mldLimitWrite : (Instr.mldLimitWrite 0 0x201 0).wf = false := by decide +kernel
/-- A camera block of more words than a frame carries. -/
theorem smoke_cameraBlock : (Instr.cameraBlock 0 0 0 (List.replicate 126 0) true).wf = false := by decide +kernel
theorem smoke_csi2PacketError : (Instr.csi2PacketError 0 0 3 { vc := none }).wf = false := by decide +kernel
/-- A WRITE record beyond BAR0, a SAMPLE of an unknown kind or index, a BULK entry beyond its kinds, a MIRROR beyond its space. -/
theorem smoke_pairRecords : (Instr.writeRecord ⟨0, 0, true⟩ 0 false 4194304 0).wf = false ∧
    (Instr.sampleRecord ⟨0, 0, true⟩ 4 0 0 0).wf = false ∧ (Instr.sampleRecord ⟨0, 0, true⟩ 0 8 0 0).wf = false ∧
    (Instr.sampleRecord ⟨0, 0, true⟩ 1 16 0 0).wf = false ∧ (Instr.bulkRecord ⟨0, 0, true⟩ (some 0) 10 []).wf = false ∧
    (Instr.mirrorRecord ⟨0, 0, true⟩ 1073741824 (.word 0)).wf = false ∧
    (Instr.hello ⟨1250, 0, true⟩ 0 true true).wf = false := by decide +kernel
/-- Blocks longer than a block, and an eye of too few points. -/
theorem smoke_lanes : (Instr.marker 0 0 (2 ^ 57)).wf = false ∧ (Instr.cycleStartBlock 0 0 (2 ^ 56) 0).wf = false ∧
    (Instr.eyeScanDone 0 0 []).wf = false := by decide +kernel
/-- DRAM addresses inside a burst and results of an unknown kind. -/
theorem smoke_dram : (Instr.dramRequest 0 0 32 false 0).wf = false ∧ (Instr.dramReadComplete 0 0 3).wf = false ∧
    (Instr.patrolScrubRead 0 3).wf = false := by decide +kernel
/-- Link speeds and widths that PCIe has not. -/
theorem smoke_link : (Instr.linkDegraded 0 0 4).wf = false ∧ (Instr.pcieLinkUp 0 6 4).wf = false ∧
    (Instr.pcieLinkUp 0 5 3).wf = false ∧ (Instr.pcieLinkUp 0 5 8).wf = true := by decide +kernel
theorem smoke_timSetSeconds : (Instr.timSetSeconds 0 (2 ^ 48)).wf = false := by decide +kernel

/-! ### States the witnesses are made of -/

/-- Registers with the words listed as page, offset and value, read and in use. -/
def regsOf (l : List (Nat × Nat × Nat)) : RegFile :=
  l.foldl (fun f x => (f.setRead (wordAddr x.1 x.2.1) (word x.2.2)).setInUse (wordAddr x.1 x.2.1) (word x.2.2)) {}
/-- A device that is ready, ALONE, at the start of cycle 1,000. -/
def readyDev : Dev :=
  { tick := 1250000, boot := { poreset := false, stage := 5, engine := true }, par := { role := roleAlone } }
def readyWith (l : List (Nat × Nat × Nat)) : State := { dev := { readyDev with regs := regsOf l } }
def ready : State := readyWith []
def withPar (s : State) (p : Par) : State := { s with dev := { s.dev with par := p } }
/-- A CTL word with ENABLE and EXPERT. -/
def ctlOn (p : Nat) : Nat × Nat × Nat := (p, 0x008, 3)
/-- An entry of the byte fields listed. -/
def entryOf (l : List (Nat × Nat)) : Entry := BitVec.ofNat 256 (l.foldl (fun a x => a + atByte x.1 x.2) (2 ^ 248))
/-- Ring `r` enabled with one entry to read and its link up. -/
def ringReady (r : Nat) (l : List (Nat × Nat × Nat)) (d : Dev := readyDev) : State :=
  { dev := { d with
    regs := regsOf ([ctlOn (pageRng r), (pageRng r, 0x048, 4), (pageRng r, 0x04C, 1)] ++ l), hif := { linkUp := true } } }

/-! ### Witnesses: for every statement a state that meets its hypotheses, clause by clause -/

theorem witness_StepRunsFront : State.reset.pending = [] := rfl
theorem witness_StepKeepsStores :
    State.reset.nv.wf = true ∧ step { State.reset with pending := [.yield 0] } =
      .next { State.reset with dev := { State.reset.dev with out := [] } } := ⟨by decide +kernel, rfl⟩
/-- A seal store that differs from the device's limits. -/
def dirty : State := { ready with dev := { readyDev with mould := { storeDirty := true, locked := true } } }
theorem witness_StoresChangeOnlyBy :
    ∃ t, exec .sealStoreWrite dirty = .next t ∧ t.nv ≠ dirty.nv := ⟨_, rfl, by decide +kernel⟩
theorem witness_PowerOnReset : State.reset.dev.boot.poreset = true := rfl
/-- A device in boot step 2 and one in step 4 with a trained memory. -/
def booting (stage : Nat) : State :=
  { dev := { boot := { poreset := false, stage := stage, engine := stage == 4 }, dram := { trained := true } } }
/-- A flash with a boot record and no image. -/
def recorded : NonVolatile :=
  let rec0 : List Byte := [1, 0, 0, 0, 1, 1] ++ List.replicate 22 0
  { flash := ((rec0 ++ leBytes 4 (crc32 rec0)).foldl (fun (x : Tab Byte × Nat) b => (x.1.set (same 0xFF) x.2 b, x.2 + 1))
      (([] : Tab Byte), 0)).1 }
theorem witness_BootSteps :
    (booting 2).dev.boot.stage = 2 ∧ (booting 2).dev.boot.result = 0 ∧ (booting 2).dev.par.role ≠ roleHalted ∧
    recordOk (booting 2).nv = false ∧ recordOk recorded = true ∧ bootSlot recorded = none ∧
    (booting 4).dev.boot.stage = 4 ∧ (booting 4).dev.boot.result = 0 ∧ (booting 4).dev.dram.trained = true ∧
    (booting 4).dev.par.role ≠ roleHalted ∧ (booting 4).dev.heats.running = none ∧
    (∀ r, r < 4 → (subOf (booting 4).dev r).mode ≠ 4) ∧ (booting 2).dev.boot.stage ≠ 4 ∧
    ready.dev.boot.poreset = false := by decide +kernel
theorem witness_WarmReset :
    let s := readyWith [ctlOn pageDev]
    let w : State := { ready with dev := { readyDev with boot := { readyDev.boot with warm := some (1000, 2) } } }
    2 ≤ s.dev.boot.stage ∧ s.dev.boot.engine = true ∧ s.dev.boot.warm = none ∧
    writeAccepted (s.at 1099) pageDev 0x100 1 = true ∧ writeAccepted (s.at 1100) pageDev 0x100 1 = true ∧
    w.dev.boot.warm.isSome = true ∧ w.dev.boot.warm = some (1000, 2) ∧ 1000 ≤ w.dev.cycle := by decide +kernel
theorem witness_WarmReset_held :
    let s : State := { dev := { boot := { poreset := false, held := true } } }
    s.dev.boot.held = true ∧ s.dev.boot.engine = false ∧ State.reset.dev.boot.stage < 2 ∧ State.reset.dev.boot.engine = false ∧
    ready.dev.boot.held = false := by decide +kernel
/-- A flash whose sector 2 is being erased. -/
def erasing : State := { ready with nv := { op := some (.erase 2) } }
theorem witness_PowerLoss :
    ready.dev.boot.poreset = false ∧ ready.dev.par.role ≠ roleHalted ∧ ready.nv.op = none ∧
    erasing.nv.op = some (.erase 2) ∧ 131071 < (FlashOp.erase 2).span.1 ∧
    (FlashOp.erase 2).span.1 + (FlashOp.erase 2).span.2 ≤ 196608 := by decide +kernel
theorem witness_FlashCommands :
    let s := readyWith [ctlOn pageDev]
    2 ≤ s.dev.boot.stage ∧ s.nv.op = none ∧ writeAccepted (s.at 0) pageDev 0x108 0xFFFFFFFF = true ∧
    writeAccepted (s.at 0) pageDev 0x10C 1 = true ∧ erasing.nv.op.isSome = true := by decide +kernel
theorem witness_FlashDone : erasing.nv.op = some (.erase 2) := rfl
/-- Input 0 open since tick 0, the latch as given. -/
def opened (latched : Bool) : State :=
  { ready with dev := { readyDev with regs := regsOf [(pageMld, 0x040, 1)], mould := { latched := latched, openSince := [(0, some 0)] } } }
def closedInputs (latched : Bool) : State := { ready with dev := { readyDev with mould := { latched := latched } } }
theorem witness_Interlock :
    (opened false).dev.mould.latched = false ∧
    (∃ i t0, i < 4 ∧ bit (ilkMask (opened false).dev) i = true ∧
      (opened false).dev.mould.openSince.get (same none) i = some t0 ∧ t0 + ilkFilter (opened false).dev ≤ ((opened false).at 0).tick) ∧
    (∀ i t0, i < 4 → bit (ilkMask (closedInputs false).dev) i = true →
      (closedInputs false).dev.mould.openSince.get (same none) i = some t0 →
      ((closedInputs false).at 0).tick < t0 + ilkFilter (closedInputs false).dev) ∧
    (opened true).dev.mould.latched = true ∧
    (∀ i, i < 4 → bit (ilkMask (closedInputs true).dev) i = true →
      (closedInputs true).dev.mould.openSince.get (same none) i = none) :=
  ⟨rfl, ⟨0, 0, by decide +kernel⟩, fun _ _ _ _ h => (nomatch h), rfl, fun _ _ _ => rfl⟩
/-- A holder with a standby whose 256 record slots of the cycle are used, and one with slots free. -/
def slotsFull : State := withPar ready { role := roleHolder, withStandby := true, slotCycle := 1000, writesSent := 256 }
def slotsFree : State := withPar ready { role := roleHolder, withStandby := true, slotCycle := 1000, writesSent := 255 }
theorem witness_keptForSlot :
    (slotsFull.at 0).writeHeld = true ∧ (slotsFree.at 0).writeHeld = false ∧ slotsFree.dev.forwards = true ∧
    (ready.at 0).writeHeld = false ∧ ready.dev.forwards = false ∧ isMirrored pageSch = true ∧ windowMirrored baseFct = true ∧
    isMirrored pageMld = true := by decide +kernel
/-- The header of EVQ, MON and LNK, and of a mirrored page. -/
theorem witness_RegisterWrite_header :
    (∀ x ∈ [(PageKind.evq, pageEvq), (.mon, pageMon), (.lnk, pageLnk)], kindOf x.2 = some x.1 ∧
      headerRefused (ready.at 0) x.1 x.2 0x008 3 = none) ∧
    (∀ x ∈ [(PageKind.evq, pageEvq), (.sch, pageSch)], kindOf x.2 = some x.1 ∧
      ∀ off ∈ [0x010, 0x014, 0x018, 0x024], headerRefused (ready.at 0) x.1 x.2 off 0xFFFFFFFF = none) ∧
    PageKind.evq.mirrored = false ∧ PageKind.sch.mirrored = true := by decide +kernel
/-- One register of each page kind that RegisterWrite covers, at the lowest and highest offsets it admits there. -/
theorem witness_RegisterWrite :
    ((PageKind.evq.reg? 0x040).isSome = true ∧ reportWord (wordAddr pageEvq 0x040) = false ∧
      (PageKind.evq.reg? 0x040).map Reg.wide = some false ∧
      (PageKind.evq.reg? 0x040).map (fun r => blockRefused (ready.at 0) .evq pageEvq 0x040 r 5) = some none) ∧
    ((PageKind.mon.reg? 0x040).map (fun r => blockRefused (ready.at 0) .mon pageMon 0x040 r 0) = some none) ∧
    ((PageKind.lnk.reg? 0x100).map (fun r => blockRefused ((readyWith [(pageLnk, 0x008, 2)]).at 0) .lnk pageLnk 0x100 r 0x03020100) = some none) ∧
    ((PageKind.rng.reg? 0x058).map (fun r => blockRefused (ready.at 0) .rng (pageRng 24) 0x058 r 9) = some none) := by
  decide +kernel
theorem witness_RegisterWriteRefused :
    (PageKind.mon.reg? 0x100).map (fun r => blockRefused (ready.at 0) .mon pageMon 0x100 r 5) = some (some refusedRange) ∧
    kindOf 0x3FF = none ∧
    (let s := withPar ready { role := roleStandby }
     (PageKind.sch.reg? 0x048).map (fun r => blockRefused (s.at 0) .sch pageSch 0x048 r 0) = some (some refusedStandby) ∧
       PageKind.sch.mirrored = true ∧ (s.at 0).writeHeld = false) := by decide +kernel
theorem witness_Reads :
    kindOf (0x1040 / 4096) = some .tim ∧ (PageKind.tim.reg? 0x040).map Reg.wide = some false ∧
    (PageKind.tim.reg? 0x080).map Reg.wide = some true ∧ 0x1080 ≠ wordAddr pageTim 0x060 ∧ 0x1080 ≠ wordAddr pageDev 0x108 ∧
    0x1040 % 4 = 0 ∧ 0x1084 % 4 = 0 ∧ 0x1084 ≠ wordAddr pageTim 0x064 ∧ 0x3FFFFD + 3 ≤ 2 ^ 22 ∧ 2 ≤ ready.dev.boot.stage ∧
    ready.nv.op = none ∧
    (PageKind.tim.regAt? 0x084).map Prod.snd = some true ∧
    (let s : State := { ready with dev := { readyDev with regs := { rdHold := [(1, (0x080, 7#32))] } } }
     s.dev.regs.rdHold.get (same (0, 0)) (0x1084 / 4096) = (0x1084 % 4096 - 4, 7#32)) := by decide +kernel
/-- A COMMIT of group 0 of SCH, pending since cycle 997. -/
def pendingDev (p g : Nat) : State := { ready with dev := { readyDev with regs := { pend := [⟨p, g, 997, false⟩] } } }
theorem witness_CommitWrite :
    kindOf pageSch = some .sch ∧ PageKind.sch ≠ .axs ∧ newGroups ready.dev pageSch 1 = [0] ∧
    PageKind.sch.defines 0 = true ∧ groupRefused (ready.at 0) pageSch 0 = false ∧ PageKind.sch.mirrored = true ∧
    pageRefused (ready.at 0) .sch pageSch 0x01C = none ∧
    31 ∈ newGroups ready.dev pageSch 0x80000000 ∧ PageKind.sch.defines 31 = false ∧ (ready.at 0).writeHeld = false := by decide +kernel
theorem witness_CommitApply :
    commitReady (pendingDev pageSch 0).dev pageSch 0 = true ∧ commitReady (pendingDev pageTmp 1).dev pageTmp 1 = true ∧
    commitReady ready.dev pageSch 0 = false ∧
    (PageKind.dev.reg? 0x040).map (fun r => (blockRefused (ready.at 0) .dev pageDev 0x040 r 1,
      blockRefused ((readyWith [(pageDev, 0x040, 1)]).at 0) .dev pageDev 0x040 r 0)) = some (none, none) ∧
    (readyWith [(pageDev, 0x040, 1)]).dev.flag pageDev 0x040 0 = true := by decide +kernel
/-- The same of a group committed before the first heat. -/
def earlyDev (p g : Nat) : State := { ready with dev := { readyDev with regs := { pend := [⟨p, g, 997, true⟩] } } }
/-- A quiet group of a page of another kind, an axis's program, a station's bank; a refused write of HOLD. -/
theorem witness_CommitApply_more :
    kindOf pageLdl = some .ldl ∧ quietGroup .ldl 1 = true ∧ commitReady (pendingDev pageLdl 1).dev pageLdl 1 = true ∧
    kindOf (pageAxs 95) = some .axs ∧ commitReady (earlyDev (pageAxs 95) 3).dev (pageAxs 95) 3 = true ∧
    kindOf (pageStn 31) = some .stn ∧ commitReady (earlyDev (pageStn 31) 3).dev (pageStn 31) 3 = true ∧
    (axisOfServo (earlyDev (pageAxs 95) 3).dev 95).staged.keepState = true ∧
    (let x : Axis := { staged := { words := [(2, 0)] } }
     let s : State := { earlyDev (pageAxs 95) 3 with dev := { (earlyDev (pageAxs 95) 3).dev with axes := [(95, x)] } }
     (axisOfServo s.dev 95).staged.keepState = false ∧ commitReady s.dev (pageAxs 95) 3 = true) := by
  decide +kernel
def liveAt (c : Nat) : State :=
  { ready with dev := { readyDev with regs := { live := [⟨wordAddr pageTmp 0x068, 5, false, c⟩] } } }
theorem witness_LiveWriteApply :
    ready.dev.mould.lowers = [] ∧ ready.dev.mould.raises = [] ∧
    (∀ m, m ∈ ready.dev.stp.moves → m.finished = false → ∀ x, x ∈ m.axes → mouldStep ready.dev x ≠ 0) ∧
    (∀ l, l ∈ (liveAt 998).dev.regs.live → (liveAt 998).dev.cycle < l.cycle + 3) ∧
    (liveAt 997).dev.regs.live = [⟨wordAddr pageTmp 0x068, 5, false, 997⟩] ∧ 997 + 3 ≤ (liveAt 997).dev.cycle :=
  ⟨rfl, rfl, fun _ h => (nomatch h), by decide +kernel, rfl, by decide +kernel⟩
/-- A LOAD of one word to the last word of station 31's window. -/
def loadOne : Entry :=
  entryOf [(0, 0x41), (16, baseFct + 31 * 0x20000 + 4 * 16383), (20, 4)]
theorem witness_TableWrites :
    ready.dev.par.role ≠ roleStandby ∧ ready.dev.par.role ≠ roleJoining ∧ ready.dev.par.role ≠ roleOut ∧
    (ready.at 0).writeHeld = false ∧ groupPending ready.dev (pageStn 31) 3 = false ∧
    groupPending (pendingDev (pageStn 31) 3).dev (pageStn 31) 3 = true ∧
    entryReady ((ringReady 8 []).at 0) 8 loadOne = true ∧ byteField loadOne 0 1 = 0x41 ∧ byteField loadOne 1 3 = 0 ∧
    byteField loadOne 24 7 = 0 ∧ byteField loadOne 16 4 = baseFct + 31 * 0x20000 + 4 * 16383 ∧
    byteField loadOne 20 4 = 4 ∧ (ringReady 8 []).dev.pairHolder = false ∧
    (let s := withPar (ringReady 8 []) { role := roleHolder, withStandby := true }
     s.dev.pairHolder = true ∧ entryReady (s.at 0) 8 loadOne = true ∧ groupPending s.dev (pageStn 31) 3 = false) := by decide +kernel
/-- Ring 24 with two records in use of sixteen. -/
def ring24 : State := readyWith [ctlOn (pageRng 24), (pageRng 24, 0x048, 4), (pageRng 24, 0x04C, 2)]
theorem witness_Doorbells :
    let s := ringReady 0 []
    writeAccepted (s.at 0) (pageRng 0) 0x04C 0x10000 = true ∧ deviceWrites 0 = false ∧ bits 0x10000 0 16 < 2 ^ ringLog2 s.dev 0 ∧
    ringUsed s.dev 0 ≤ posDist (ringLog2 s.dev 0) (ringCons s.dev 0) 0x10000 ∧
    posDist (ringLog2 s.dev 0) (ringCons s.dev 0) 0x10000 ≤ 2 ^ ringLog2 s.dev 0 ∧
    posDist (ringLog2 s.dev 0) (ringCons s.dev 0) 0 < ringUsed s.dev 0 ∧
    writeAccepted (ring24.at 0) (pageRng 24) 0x050 2 = true ∧ deviceWrites 24 = true ∧
    posDist (ringLog2 ring24.dev 24) 0 (ringProd ring24.dev 24) ≤ ringUsed ring24.dev 24 ∧
    bits 2 0 16 < 2 ^ ringLog2 ring24.dev 24 ∧
    ringUsed ring24.dev 24 < posDist (ringLog2 ring24.dev 24) 3 (ringProd ring24.dev 24) := by decide +kernel
/-- Archive ring 32 with 64 bytes of its data area in use. -/
def ring32 : State := readyWith [ctlOn (pageRng 32), (pageRng 32, 0x048, 4), (pageRng 32, 0x068, 16), (pageRng 32, 0x070, 64)]
theorem witness_Doorbells_aux :
    writeAccepted (ring32.at 0) (pageRng 32) 0x06C 64 = true ∧ bits 64 0 30 < 2 ^ auxLog2 ring32.dev 32 ∧
    auxDist (auxLog2 ring32.dev 32) 64 (ring32.dev.rfld (pageRng 32) 0x070 0 31) ≤ auxUsed ring32.dev 32 := by decide +kernel
/-- The refusals, and a standby, which checks the index alone. -/
theorem witness_Doorbells_refused :
    checksDoorbell (ringReady 0 []).dev 0 = true ∧ deviceWrites 24 = true ∧ deviceWrites 0 = false ∧
    2 ^ ringLog2 (ringReady 0 []).dev 0 ≤ bits 0xFFFF 0 16 ∧ checksDoorbell ring24.dev 24 = true ∧
    checksDoorbell ring32.dev 32 = true ∧ 2 ^ auxLog2 ring32.dev 32 ≤ bits 65536 0 30 ∧
    auxUsed ring32.dev 32 < auxDist (auxLog2 ring32.dev 32) 128 (ring32.dev.rfld (pageRng 32) 0x070 0 31) ∧
    (let s := withPar ring24 { role := roleStandby }
     checksDoorbell s.dev 24 = false ∧ writeAccepted (s.at 0) (pageRng 24) 0x050 15 = true ∧
       bits 15 0 16 < 2 ^ ringLog2 s.dev 24) := by decide +kernel
/-- A record that waits for ring 24. -/
def queued24 (l : List (Nat × Nat × Nat)) : State :=
  { ready with dev := { readyDev with
    regs := regsOf ([ctlOn (pageRng 24), (pageRng 24, 0x048, 1)] ++ l), hif := { linkUp := true }
    rings := [(24, { queue := [⟨7, 0, false, .plain⟩] })] } }
theorem witness_RingRecordWrite :
    ready.dev.recorder.triggers = [] ∧ (ringOf (queued24 []).dev 24).queue = [⟨7, 0, false, .plain⟩] ∧
    mayWriteRing (queued24 []).dev 24 = true ∧ ringFull (queued24 []).dev 24 = false ∧
    ringFull (queued24 [(pageRng 24, 0x04C, 0x10000)]).dev 24 = true ∧ mayWriteRing ready.dev 24 = false ∧
    (ringOf ready.dev 24).queue = [] := by decide +kernel
def withRole (r : Nat) : State := withPar ready { role := r }
/-- Ring 24 with one record without its message since tick 0, MOD_TIME 1 µs and MSI-X, the vector masked or not. -/
def moderated (mask : Word) : State :=
  { ready with dev := { readyDev with
    regs := regsOf [ctlOn (pageRng 24), (pageRng 24, 0x048, 4), (pageRng 24, 0x054, 0x103), (pageRng 24, 0x058, 1)]
    hif := { linkUp := true, msix := [(15, mask)] }, rings := [(24, { unsignalled := 1 })] } }
/-- One coalesced report of class 0 from cycle 0. -/
def windowOne : Window := ⟨0, 0, 0, 0, 0, 0, 0, 0, 1, 0, 0⟩
def coalesced : State :=
  { ready with dev := { readyDev with
    regs := regsOf [ctlOn (pageRng 24), (pageRng 24, 0x048, 4)]
    hif := { linkUp := true, windows := [windowOne] } } }
theorem witness_RingTimers :
    (let d := (moderated 0).dev
     d.recorder.triggers = [] ∧ d.flag (pageRng 24) 0x054 8 = true ∧ 0 < (ringOf d 24).unsignalled ∧
       d.fld (pageRng 24) 0x058 0 16 ≠ 0 ∧ (ringOf d 24).oldest + 250 * d.fld (pageRng 24) 0x058 0 16 ≤ ((moderated 0).at 0).tick ∧
       d.holds = true ∧ bit (d.hif.msix.get msixReset (4 * d.fld (pageRng 24) 0x054 0 6 + 3)).toNat 0 = false ∧
       d.hif.lastMsg.get (same 0) (d.fld (pageRng 24) 0x054 0 6) = 0) ∧
    bit ((moderated 1).dev.hif.msix.get msixReset (4 * 3 + 3)).toNat 0 = true ∧
    ¬(0 < (ringOf ready.dev 24).unsignalled) ∧
    (let w := windowOne
     coalesced.dev.hif.windows = [w] ∧ w.upTo ≤ coalesced.dev.cycle ∧
       w.cls < 7 ∧ coalesced.dev.holds = true ∧ (ringOf coalesced.dev (24 + w.cls)).queue.length < 64 ∧
       coalesced.dev.enabled (pageRng (24 + w.cls)) = true) ∧
    (∀ x ∈ [{ windowOne with upTo := 1001 }], coalesced.dev.cycle < x.upTo) := by decide +kernel
/-- A message went out for another ring 100 ticks ago; a report of class 7, of an unmirrored page on a device that does not
hold the ensign, and of a mirrored one on a standby. -/
theorem witness_RingTimers_more :
    (let s : State := { moderated 0 with dev := { (moderated 0).dev with hif := { (moderated 0).dev.hif with
       lastMsg := [(3, 1250000 - 100 + 1)], lastRing := [(3, 26)] } } }
     s.dev.hif.lastMsg.get (same 0) 3 = 1249901 ∧ (s.at 0).tick < 1249901 - 1 + 250 ∧
       s.dev.hif.lastRing.get (same 0) 3 ≠ 24 + 1 ∧ sharedRing 24 = true ∧ s.dev.holds = true) ∧
    (let w : Window := { windowOne with cls := 7 }
     let s : State := { coalesced with dev := { coalesced.dev with
       regs := regsOf [ctlOn (pageRng 31), (pageRng 31, 0x048, 4)], hif := { linkUp := true, windows := [w] } } }
     eventRing s.dev w.page w.cls = some 31 ∧ queueRoomFor s.dev 31 = true ∧ s.dev.enabled (pageRng 31) = true ∧
       w.upTo ≤ s.dev.cycle) ∧
    eventRing (withRole roleOut).dev pageMon 0 = some 63 ∧ eventRing (withRole roleStandby).dev pageSch 0 = none := by
  decide +kernel
theorem witness_LinkEvents :
    2 ≤ ready.dev.boot.stage ∧ (coalesced).dev.hif.linkUp = true ∧ ready.dev.hif.linkUp = false ∧
    (0 : BitVec 4) < 1 := by decide +kernel
theorem witness_Mailbox :
    (∀ k : Fin 4, (ringReady (20 + k.val) []).dev.recorder.triggers = [] ∧
      entryReady ((ringReady (20 + k.val) []).at 0) (20 + k.val) (entryOf [(0, 1)]) = true ∧
      (ringOf (ringReady (20 + k.val) []).dev (60 + k.val)).queue.length < 16) ∧
    4 ≤ ready.dev.boot.stage ∧ byteField (entryOf [(0, 1)]) 0 2 = 1 ∧ byteField (entryOf [(0, 2)]) 0 2 = 2 ∧
    byteField (entryOf [(0, 3)]) 0 2 ≠ 1 ∧ byteField (entryOf [(0, 3)]) 0 2 ≠ 2 := by decide +kernel

/-! #### Heat submission -/

/-- Heat 7 under construction on ring 3. -/
def heat7 : Heat := { number := 7, ring := 3, thickness := 100000, passCount := 1 }
def building (l : List (Nat × Nat × Nat)) (h : Heat := heat7) (mode : Nat := 1) : State :=
  ringReady 3 l { readyDev with heats := { opening := some h, sub := [(3, { mode := mode, number := 7 })] } }
/-- An entry of heat 7. -/
def ofHeat (ty : Nat) (l : List (Nat × Nat)) : Entry := entryOf ([(0, ty), (4, 7)] ++ l)
/-- A state in which an entry of ring `r` waits for its host read. -/
def parkedAt (r : Nat) (i : Instr) : State :=
  { ready with dev := { readyDev with rings := [(r, { parked := some i })] } }
theorem witness_HostReads :
    (∀ e, e = ofHeat 3 [] → entryFor ((building []).at 0) 3 3 e heat7) ∧
    HostRead.failed ≠ .waiting ∧ enType (ofHeat 3 []) ≠ 1 ∧
    (ringOf (parkedAt 3 (.pours 0 3 (ofHeat 3 []) .waiting)).dev 3).parked = some (.pours 0 3 (ofHeat 3 []) .waiting) ∧
    (ringOf (parkedAt 13 (.encode 0 1 0 .waiting)).dev 13).parked = some (.encode 0 1 0 .waiting) ∧
    (ringOf (parkedAt 9 (.load 0 1 loadOne .waiting)).dev 9).parked = some (.load 0 1 loadOne .waiting) ∧
    (ringOf (parkedAt 17 (.plate 0 1 0 .waiting)).dev 17).parked = some (.plate 0 1 0 .waiting) ∧
    (∀ i, i = .islands 0 3 (ofHeat 2 []) .waiting ∨ i = .recoat 0 3 (ofHeat 4 []) .waiting ∨ i = .decode 0 1 0 .waiting ∨
        i = .resume 0 1 0 .waiting ∨ i = .ingotEncode 0 1 .waiting ∨ i = .ingotDecode 0 1 .waiting ∨ i = .power 0 1 0 .waiting →
      ∀ r, (ringOf (parkedAt r i).dev r).parked = some i) := by
  refine ⟨fun e h => h ▸ ?_, ?_⟩
  · exact ⟨by decide +kernel, by decide +kernel, rfl, by decide +kernel, by decide +kernel, by decide +kernel⟩
  · refine ⟨by decide +kernel, by decide +kernel, by decide +kernel, by decide +kernel, by decide +kernel, by decide +kernel, fun i _ r => ?_⟩
    simp [parkedAt, ringOf, Tab.get]
/-- An entry of ring `r` that the device has begun, waiting for its host read. -/
def begunAt (r : Nat) (i : Instr) (s : State) : State :=
  { s with dev := setRing s.dev r { ringOf s.dev r with parked := some i, begun := true, at0 := ringCons s.dev r } }
/-- The read of a begun entry has ended. -/
def backAt (r : Nat) (s : State) : State := { s with dev := setRing s.dev r { ringOf s.dev r with parked := none } }
theorem witness_HostReads_ready :
    (let s := begunAt 3 (.pours 0 3 (ofHeat 3 []) .waiting) (building [])
     (ringOf s.dev 3).begun = true ∧ entryReady ((backAt 3 s).at 0) 3 (ofHeat 3 []) = true ∧ (subOf s.dev 3).mode ≠ 4 ∧
       s.dev.recorder.triggers = []) ∧
    (∀ r ∈ [4, 9, 13, 17], let s := begunAt r (.linkDown 0) (ringReady r [])
      (ringOf s.dev r).begun = true ∧ entryReady ((backAt r s).at 0) r (entryOf [(0, 1)]) = true) := by decide +kernel
/-- A HEAT_OPEN of heat 1 with eight passes. -/
def openOne : Entry := entryOf [(0, 1), (4, 1), (8, 100000), (12, 8)]
/-- Two heats staged, the third not opened yet. -/
def twoStaged : State :=
  ringReady 3 [] { readyDev with heats := { staged := [{ number := 1 }, { number := 2 }], accepted := some 2 } }
/-- A HEAT_OPEN of heat 3. -/
def openThree : Entry := entryOf [(0, 1), (4, 3), (12, 1)]
theorem witness_HeatOpen :
    let s := ringReady 3 []
    entryReady (s.at 0) 3 openOne = true ∧ (subOf s.dev 3).mode = 0 ∧ enType openOne = 1 ∧
    openWaits s.dev (BitVec.ofNat 32 (enHeat openOne)) = false ∧ s.dev.heats.opening = none ∧ nextHeat s.dev = none ∧
    (∀ h, h = ({ first := some 1 } : Heats) ∨ h = { accepted := some 0, first := some 0 } →
      nextHeat { s.dev with heats := h } = some (BitVec.ofNat 32 (enHeat openOne))) ∧
    entryShape openOne = true ∧ byteField openOne 13 3 = 0 ∧ byteField openOne 16 12 = 0 ∧ byteField openOne 12 1 = 8 ∧
    entryReady (twoStaged.at 0) 3 openThree = true ∧ openWaits twoStaged.dev (BitVec.ofNat 32 (enHeat openThree)) = true ∧
    (let p := (setRing s.dev 3 { ringOf s.dev 3 with parked := some (.heatOpen 0 3 openOne) })
     (ringOf p 3).parked = some (.heatOpen 0 3 openOne) ∧
       entryReady (unpark ({ s with dev := p }.at 0) 3) 3 openOne = true) := by
  refine ⟨by decide +kernel, by decide +kernel, by decide +kernel, by decide +kernel, by decide +kernel, by decide +kernel, ?_,
    by decide +kernel⟩
  rintro h (rfl | rfl) <;> decide +kernel
/-- One pour of one millimetre, an island of it, a recoat record and a pass that fit each other. -/
def pourOne : BitVec 256 := BitVec.ofNat 256 (atByte 8 1000000 + atByte 16 100 + atByte 18 1000)
def islandOne : BitVec 512 := BitVec.ofNat 512 (atByte 4 1 + atByte 24 100)
def recoatOne : BitVec 512 := BitVec.ofNat 512 (atByte 0 100000 + atByte 12 400000000 + atByte 20 100 + atByte 22 100)
def dataOf : EntryData → Option (List Nat)
  | .data l => some l
  | .fault _ _ _ => none
theorem witness_HeatEntries_pours :
    let e := ofHeat 3 [(16, 32), (24, 1)]
    let rd : HostRead := .ok (leBytes 32 pourOne.toNat)
    entryReady ((building []).at 0) 3 e = true ∧ entryShape e = true ∧ byteField e 20 4 = heat7.pours.length ∧
    byteField e 20 4 + byteField e 24 4 ≤ 16777216 ∧ dataOf (entryData e 32 (byteField e 24 4) rd) = some [pourOne.toNat] ∧
    pourValid pourOne = true := by decide +kernel
def passOne : Entry := ofHeat 5 [(8, 125000), (16, 100), (21, 7)]
theorem witness_HeatEntries :
    (let e := ofHeat 2 [(16, 64), (24, 1)]
     entryReady ((building []).at 0) 3 e = true ∧ entryShape e = true ∧ byteField e 20 4 = heat7.islands.length ∧
       byteField e 20 4 + byteField e 24 4 ≤ 65536 ∧
       dataOf (entryData e 64 (byteField e 24 4) (.ok (leBytes 64 islandOne.toNat))) = some [islandOne.toNat] ∧
       islandFault islandOne = none) ∧
    (let e := ofHeat 4 [(16, 64)]
     entryReady ((building []).at 0) 3 e = true ∧ entryShape e = true ∧ heat7.recoat = none ∧ byteField e 16 4 = 64 ∧
       byteField e 20 8 = 0 ∧ (leBytes 64 recoatOne.toNat).length = 64 ∧
       BitVec.ofNat 512 (leNat ((leBytes 64 recoatOne.toNat).take 64)) = recoatOne ∧ recoatValid recoatOne = true ∧
       passFits passOne recoatOne = true) ∧
    (entryReady ((building []).at 0) 3 passOne = true ∧ entryShape passOne = true ∧ psIndex passOne < heat7.passCount ∧
      psIndex passOne = heat7.passes.length ∧ passValid passOne = true) := by decide +kernel
/-- Heat 7 with everything it announced, and its HEAT_CLOSE. -/
def heat7Full : Heat :=
  { heat7 with islands := [islandOne], pours := [pourOne], recoat := some recoatOne, passes := [passOne] }
def closeSeven : Entry := ofHeat 6 [(8, 1), (12, 1), (16, heatCrc heat7Full)]
def paired (s : State) : State := withPar s { role := roleHolder, withStandby := true }
theorem witness_HeatClose :
    closeFault heat7Full 1 1 (heatCrc heat7Full) = none ∧
    (let s := building [] heat7Full
     entryReady (s.at 0) 3 closeSeven = true ∧ (subOf s.dev 3).mode = 1 ∧ enType closeSeven = 6 ∧ entryShape closeSeven = true ∧
       byteField closeSeven 20 8 = 0 ∧
       closeFault heat7Full (byteField closeSeven 8 4) (byteField closeSeven 12 4) (byteField closeSeven 16 4) = none ∧
       s.dev.pairHolder = false ∧ (paired s).dev.pairHolder = true ∧ entryReady ((paired s).at 0) 3 closeSeven = true) ∧
    (let s := building [] heat7Full 4
     s.dev.heats.opening = some heat7Full ∧ heat7Full.ring = 3 ∧ (subOf s.dev 3).mode = 4) := by decide +kernel
theorem witness_HeatDiscarded :
    (∀ ty, ty ∈ [2, 3, 4, 5, 6] →
      entryReady ((building []).at 0) 3 (entryOf [(0, ty), (4, 8)]) = true ∧ enHeat (entryOf [(0, ty), (4, 8)]) ≠ heat7.number.toNat ∧
      enType (entryOf [(0, ty), (4, 8)]) = ty) ∧
    (subOf (building []).dev 3).mode = 1 ∧ (building []).dev.heats.opening = some heat7 ∧ heat7.ring = 3 ∧
    entryReady ((building []).at 0) 3 (ofHeat 7 []) = true ∧ enType (ofHeat 7 []) = 7 ∧ entryShape (ofHeat 7 []) = true ∧
    byteField (ofHeat 7 []) 8 20 = 0 ∧ (subOf (building [] heat7 3).dev 3).mode = 3 ∧
    entryReady ((building []).at 0) 3 (ofHeat 7 [(1, 2)]) = true ∧ enType (ofHeat 7 [(1, 2)]) = 7 ∧
    enHeat (ofHeat 7 [(1, 2)]) = heat7.number.toNat ∧ entryShape (ofHeat 7 [(1, 2)]) = false ∧
    (∀ ty, ty ∈ [2, 3, 4, 5, 6] → ∀ m, m ∈ [2, 3] →
      entryReady ((building [] heat7 m).at 0) 3 (ofHeat ty []) = true ∧ enType (ofHeat ty []) = ty ∧
      (subOf (building [] heat7 m).dev 3).mode = m) := by decide +kernel
/-- A staged heat 7 whose only pass fires eight lines, and LINES of its first line. -/
def passEight : Entry := ofHeat 5 [(8, 1000000), (16, 100), (21, 4)]
def staged7 : State := ringReady 4 [] { readyDev with heats := { staged := [{ heat7Full with passes := [passEight] }] } }
def linesOne (n : Nat) : Entry := entryOf [(0, 0x10), (4, n), (16, 8192), (20, 7), (24, 1)]
theorem witness_Lines :
    entryReady (staged7.at 0) 4 (linesOne 7) = true ∧ linesShape (linesOne 7) = true ∧ enIngot (linesOne 7) = false ∧
    heatPast staged7.dev 7 = false ∧ findHeat staged7.dev 7 = some { heat7Full with passes := [passEight] } ∧
    ([passEight].find? fun p => psIndex p == byteField (linesOne 7) 26 1) = some passEight ∧ psRing passEight = 4 ∧
    byteField (linesOne 7) 16 4 = byteField (linesOne 7) 24 2 * 8192 ∧ psLines passEight = 8 ∧
    nextLine (staged7.at 0) heat7Full passEight = 0 ∧ byteField (linesOne 7) 20 4 + byteField (linesOne 7) 24 2 = 8 ∧
    holdsLine heat7Full 0 7 = false ∧
    entryReady (staged7.at 0) 4 (linesOne 9) = true ∧ findHeat staged7.dev 9 = none ∧ heatPast staged7.dev 9 = false ∧
    linesShape (linesOne 9) = true ∧ enIngot (linesOne 9) = false ∧ (ringOf staged7.dev 4).begun = false ∧
    (let s := backAt 4 (begunAt 4 (.lines 0 0 (linesOne 9) .waiting) staged7)
     (ringOf s.dev 4).begun = true ∧ entryReady (s.at 0) 4 (linesOne 9) = true ∧ findHeat s.dev 9 = none ∧
       heatPast s.dev 9 = false) := by
  decide +kernel
/-- Heat 7 running with its pass over: the lines of that pass have all fired. -/
def pastLines : State :=
  ringReady 4 [] { readyDev with heats := { running := some { heat := { heat7Full with passes := [passEight] }, started := 0, pass := 1 } } }
/-- The same LINES waiting at the head of its ring. -/
theorem witness_HostReads_lines :
    let s : State := { staged7 with dev := { staged7.dev with rings := [(4, { parked := some (.lines 0 0 (linesOne 7) .waiting) })] } }
    (ringOf s.dev 4).parked = some (.lines 0 0 (linesOne 7) .waiting) ∧
    findHeat s.dev (BitVec.ofNat 32 (enHeat (linesOne 7))) = some { heat7Full with passes := [passEight] } ∧
    (({ heat7Full with passes := [passEight] } : Heat).passes.find? fun p => psIndex p == byteField (linesOne 7) 26 1) =
      some passEight := by decide +kernel
theorem witness_Lines_fired :
    entryReady (pastLines.at 0) 4 (linesOne 7) = true ∧ nextLine (pastLines.at 0) heat7Full passEight = 8 ∧
    findHeat pastLines.dev 7 = some { heat7Full with passes := [passEight] } := by decide +kernel

/-! #### The cycle and the run of a heat -/

theorem witness_Cycle :
    State.reset.dev.boot.stage < 2 ∧ 2 ≤ ready.dev.boot.stage ∧
    (let d : Dev := { (booting 2).dev with regs := regsOf [(pageMon, 0x008, 0)] }
     2 ≤ d.boot.stage ∧ d.boot.engine = false ∧ d.boot.haltAt = none ∧ d.enabled pageMon = false ∧ d.par.heldWrites = [] ∧
       d.mirror = none) ∧
    ready.dev.running = true ∧ (withRole roleHalted).dev.running = false ∧ ready.dev.boot.engine = true ∧
    framesMissing { readyDev with lanes := [(31, { stage := 5, logical := 31 })] } = true ∧ framesMissing ready.dev = false := by
  decide +kernel
/-- The deadline of the cycle, and its frames, are past. -/
def pastDeadline (sent : Nat) : State :=
  { ready with dev := { readyDev with boot := { readyDev.boot with deadlineOf := 1001, sentOf := sent } } }
theorem witness_Computation :
    ready.dev.running = true ∧ ready.dev.boot.deadlineOf ≠ ready.dev.cycle + 1 ∧ (withRole roleOut).dev.computes = false ∧
    (withRole roleHalted).dev.running = false ∧ (pastDeadline 0).dev.boot.deadlineOf = (pastDeadline 0).dev.cycle + 1 ∧
    (pastDeadline 0).dev.boot.sentOf ≠ (pastDeadline 0).dev.cycle + 1 ∧
    (pastDeadline 1001).dev.boot.sentOf = (pastDeadline 1001).dev.cycle + 1 := by decide +kernel
/-- The mould latched; SCH on with an island READY for the one idle station 31. -/
def dispatching (ctl : Nat) (isl : List (Nat × IslandRun)) (heat : Heat) : State :=
  { ready with dev := { readyDev with
    regs := regsOf [(pageSch, 0x008, ctl), (pageStn 31, 0x008, 1), (pageSch, 0x044, 0), (pageSch, 0x100, 8)]
    stp := { carriage0 := 100000000 }
    heats := { running := some { heat := heat, started := 0, spread := true, isl := isl } } } }
/-- Island 0 is for no station, island 1 for station 31. -/
def twoIslands : Heat :=
  { heat7Full with islands := [islandOne, BitVec.ofNat 512 (islandOne.toNat + atByte 16 (2 ^ 31))] }
def twoReady : Run :=
  { heat := twoIslands, started := 0, spread := true, isl := [(0, { state := 1 }), (1, { state := 1 })] }
theorem witness_Computation_deadline :
    ready.dev.computes = true ∧ axisRuns ready.dev 95 = false ∧ (axisOfServo ready.dev 95).iCmd = 0 ∧
    (closedInputs true).dev.mould.latched = true ∧ (closedInputs true).dev.computes = true ∧
    (let s := dispatching 0 [] twoIslands
     s.dev.computes = true ∧ s.dev.holds = true ∧ s.dev.heats.running.isSome = true ∧ s.dev.enabled pageSch = false) ∧
    (let s := dispatching 1 [(0, { state := 1 }), (1, { state := 1 })] twoIslands
     let x := twoReady
     s.dev.heats.running = some x ∧ s.dev.enabled pageSch = true ∧ draining s.dev = false ∧ x.passPending = false ∧
       x.spread = true ∧ s.dev.fld pageSch 0x044 0 32 = 0 ∧ x.head = none ∧ idleStations (trackIdle s.dev) = [31] ∧
       x.ready.take (s.dev.fld pageSch 0x100 0 11) = [0] ++ 1 :: [] ∧ eligibility s.dev x 0 31 none ≠ 0 ∧
       eligibility s.dev x 1 31 none = 0) := by decide +kernel
/-- Axis 95 on, with no sample in time and `h` holds in a row; station 31 at rest, or in service on a path that ends so. -/
def axisLate (h : Nat) : State :=
  { ready with dev := { readyDev with
    regs := regsOf [(pageSrv, 0x008, 1), (pageAxs 95, 0x008, 1)], axes := [(95, { holdRun := h })] } }
def pathTo (finish : Nat) : Path :=
  { onPour := false, pour := 0, index := 0, start := 0, finish := finish, px := ⟨0, 0, 0, []⟩, py := ⟨0, 0, 0, []⟩, ex := 0, ey := 0, evx := 0, evy := 0
    dark := false, f0 := 0, f1 := 0, flim := (0, 0), fstop := none }
theorem witness_Computation_parts :
    (∀ h ∈ [1, 2], let d := (axisLate h).dev
      (stationOf d (95 / 3)).uplink = none ∧ axisRuns d 95 = true ∧ (axisOfServo d 95).fault = false ∧
      (axisOfServo d 95).laneLost = false ∧ (channelOf d 95).fault = false ∧ (axisOfServo d 95).holdRun = h) ∧
    (let st := stationOf ready.dev 31
     st.service = false ∧ st.island = none ∧ st.active = false ∧ st.path = none ∧ st.motion ≠ 2) ∧
    (∀ f ∈ [0, cycleAt 1001, cycleAt 1002], let st : Station := { service := true, path := some (pathTo f) }
      st.service = true ∧ st.path = some (pathTo f) ∧ (pathTo f).start ≤ cycleAt 1001 ∧ (pathTo f).evx = 0 ∧ (pathTo f).evy = 0) ∧
    cycleAt 1001 < (pathTo (cycleAt 1002)).finish ∧ (pathTo (cycleAt 1001)).finish ≤ cycleAt 1001 := by decide +kernel
/-- Tick 800 is due, TMP on, station 31 emitting alone. -/
def sending : State :=
  { ready with dev := { readyDev with
    regs := regsOf [(pageTmp, 0x008, 1)], boot := { readyDev.boot with deadlineOf := 1001 }
    stations := [(31, { applied := { gate0 := true, power := 8000 } })], lanes := [(31, { stage := 5, logical := 31 })] } }
theorem witness_Computation_frames :
    sending.dev.running = true ∧ sending.dev.computes = true ∧ sending.dev.boot.deadlineOf = sending.dev.cycle + 1 ∧
    sending.dev.boot.sentOf ≠ sending.dev.cycle + 1 ∧ sending.dev.enabled pageTmp = true ∧ sending.dev.lhd.applied = none ∧
    (stationOf sending.dev 31).applied.openTicks ≠ 0 ∧
    (∀ k, k < 32 → k ≠ 31 → (stationOf sending.dev k).applied.openTicks = 0) ∧ ready.dev.enabled pageTmp = false ∧
    partnerLane sending.dev 31 = some 31 ∧
    (let s := withPar (pastDeadline 0) { role := roleOut }
     s.dev.running = true ∧ s.dev.computes = false ∧ s.dev.boot.deadlineOf = s.dev.cycle + 1) := by decide +kernel
/-- Heat 7 staged alone; heat 7 running to its end with another staged. -/
def toStart : State := { ready with dev := { readyDev with heats := { staged := [heat7Full] } } }
def toEnd : State :=
  { ready with dev := { readyDev with heats := { running := some { heat := { heat7 with passes := [passOne] }, started := 0, spread := true, stroke := 4, pass := 1 }, staged := [heat7] } } }
theorem witness_HeatRun :
    toStart.dev.computes = true ∧ toStart.dev.heats.running = none ∧ toStart.dev.heats.staged = [heat7Full] ∧
    heat7Full.recoat = some recoatOne ∧ toStart.dev.heats.boundaryAt = none ∧ toStart.dev.tick % 1250 = 0 ∧
    (toStart.at 1).tick % 1250 ≠ 0 ∧ toStart.dev.heats.settingsOf = none ∧
    toStart.dev.cal.run = none ∧ ready.dev.heats.staged = [] ∧ toEnd.dev.heats.running.isSome = true ∧
    boundaryDue toEnd.dev = true ∧ toEnd.dev.heats.staged ≠ [] ∧ toEnd.dev.par.swapRequested = false ∧
    boundaryDue ready.dev = false ∧ heatStartsElsewhere ready.dev = false ∧
    (∀ r ∈ [roleOut, roleJoining], (withRole r).dev.running = true ∧ (withRole r).dev.tick % 1250 = 0 ∧
      (withRole r).dev.par.role = r) := by decide +kernel
/-- The pass of heat 7 pending, LDL on or off, its budget 10,000. -/
def passTesting (ctl budget : Nat) : State :=
  { ready with dev := { readyDev with
    regs := regsOf [(pageLdl, 0x008, ctl), (pageLdl, 0x040, budget)]
    heats := { running := some { heat := { heat7 with passes := [passNeedy] }, started := 0, passPending := true } } } }
where passNeedy : Entry := ofHeat 5 [(8, 1000000), (16, 100), (21, 4), (24, 10000)]
theorem witness_Passes_test :
    (∀ ctl, ctl < 2 → ∀ b, b = 9999 ∨ b = 10000 → (passTesting ctl b).dev.computes = true ∧
      (passTesting ctl b).dev.tick % 1250 ≤ 750) ∧
    (passTesting 0 0).dev.enabled pageLdl = false ∧ (passTesting 1 0).dev.enabled pageLdl = true ∧
    psNeed passTesting.passNeedy = 10000 ∧
    (passTesting 0 0).dev.heats.running.bind (·.header) = some passTesting.passNeedy ∧ ladleBudget (passTesting 1 9999).dev = 9999 ∧ ladleBudget (passTesting 1 10000).dev = 10000 ∧
    (passTesting 1 10000).dev.ladle.short = false ∧ ladleHeld (passTesting 1 10000).dev = 0 := by
  refine ⟨fun ctl hc b hb => ?_, by decide +kernel⟩
  rcases hb with rfl | rfl <;> interval_cases ctl <;> decide +kernel
/-- The last strobe of a pass of eight lines is past, or not computed yet. -/
def firing7 (next : Nat) : State :=
  { ready with dev := { readyDev with
    lhd := { firing := some { header := passEight, refused := false, next := next } }
    heats := { running := some { heat := { heat7 with passes := [passEight] }, started := 0 } } } }
/-- The cycle after a pass's end, and the pass's last. -/
def freed (c : Nat) : Run := { heat := heat7, started := 0, pass := 1, passHeld := true, passFreeAt := some c }
theorem witness_Passes_freed :
    (freed 1000).passFreeAt = some 1000 ∧ 1000 ≤ ready.dev.cycle ∧ ¬1001 ≤ ready.dev.cycle := by decide +kernel
theorem witness_Passes_end :
    (firing7 16).dev.computes = true ∧ (firing7 16).dev.lhd.firing.isSome = true ∧ (firing7 16).dev.heats.running.isSome = true ∧
    passOver ((firing7 16).at 0) { header := passEight, refused := false, next := 16 } = true ∧ psLines passEight + 8 ≤ 16 ∧
    passOver ((firing7 0).at 0) { header := passEight, refused := false, next := 0 } = false := by decide +kernel
/-- Station 31 on island 0 of heat 7, at pour `pour` with `loaded` of its pours fetched, held for `hold`. -/
def onIsland (st : Station) (l : List (Nat × Nat × Nat)) : State :=
  { ready with dev := { readyDev with
    regs := regsOf l, stations := [(31, st)]
    heats := { running := some { heat := heat7Full, started := 0, isl := [(0, { state := 2 })] } } } }
theorem witness_Dispatcher :
    (let s : State := { ready with dev := { readyDev with
       sched := { stall := 20000 }, heats := { running := some { heat := heat7Full, started := 0, isl := [(0, { state := 1 })] } } } }
     (s.dev.heats.running.map fun x => x.ready) = some [0] ∧ s.dev.running = true ∧ s.dev.holds = true ∧ 1 ≤ s.dev.fld pageSch 0x054 0 32 ∧
       s.dev.fld pageSch 0x054 0 32 ≤ s.dev.sched.stall ∧ s.dev.flag pageSch 0x040 0 = false) ∧
    ready.dev.sched.stall < ready.dev.fld pageSch 0x054 0 32 ∧
    ready.dev.computes = true ∧ ready.dev.heats.running = none ∧ toEnd.dev.heats.running.isSome = true ∧
    (let d := (onIsland { island := some 0 } []).dev
     (stationOf d 31).island.isSome = true ∧ (stationOf d 31).loaded < (islandPoursOf d 31).length ∧
       (stationOf d 31).loaded - (stationOf d 31).pour < 256) ∧
    (let d := (onIsland { island := some 0, loaded := 1 } []).dev
     (islandPoursOf d 31).length ≤ (stationOf d 31).loaded) ∧
    (let d := (onIsland { island := some 0, openCycles := 4000 } [(pageStn 31, 0x048, 1)]).dev
     d.computes = true ∧ (islandPoursOf d 31)[(stationOf d 31).pour]? = some pourOne ∧ d.flag (pageStn 31) 0x048 0 = true ∧
       8 * d.fld (pageStn 31) 0x124 0 8 ≤ (stationOf d 31).openCycles) := by decide +kernel
/-- Station 31 holding for permission, the mould's interlock latched or not. -/
def holdingStation (latched : Bool) : State :=
  let s := onIsland { island := some 0, motion := 5, holding := true, heldCell := true, hold := some .permission, resume := (0, 200000000 * 65536) }
    [(pageMld, 0x214 + 32 * 31, 1000)]
  { s with dev := { s.dev with mould := { latched := latched } } }
theorem witness_Dispatcher_hold :
    (∀ b, ((holdingStation b).dev.computes = true ∧
      (islandPoursOf (holdingStation b).dev 31)[(stationOf (holdingStation b).dev 31).pour]? = some pourOne ∧
      (stationOf (holdingStation b).dev 31).motion = 5 ∧ (stationOf (holdingStation b).dev 31).holding = true ∧
      (stationOf (holdingStation b).dev 31).path = none ∧ (stationOf (holdingStation b).dev 31).hold = some .permission)) ∧
    HoldCause.permission ≠ .starved ∧
    mayResume ((holdingStation false).at 300) 31 = true ∧ mayResume ((holdingStation true).at 300) 31 = false := by
  decide +kernel

/-! #### Steppers -/

/-- Axis 10 with limits −1,000 to 1,000 and target `goal`, STP on, its step-rate limit set. -/
def axis10 (goal : Nat) (moves : List Move) (ctl : Nat := 1) : State :=
  { ready with dev := { readyDev with
    regs := regsOf [(pageStp, 0x008, 1), (pageSax 10, 0x008, ctl), (pageSax 10, 0x040, goal),
      (pageSax 10, 0x048, 2 ^ 32 - 1000), (pageSax 10, 0x04C, 1000), (pageMld, 0x600 + 40, 1000)]
    stp := { moves := moves } } }
def move10 (issued : Nat) (heat : Option HeatMove := none) : Move :=
  { mask := 0x400, lead := 10, kind := 0, heat := heat, negative := false, total := 100, issued := issued, last := 100, v := 1, a := 0,
    iv := 0, time := 0, vmax := 1, vs := 1, acc := 1, dec := 1, jerk := 0, scurve := false, abortDec := 1, stopping := false,
    aborted := false, nextVel := none, clamped := false, began := 0 }
theorem witness_StepperCommands :
    (axis10 1000 []).dev.running = true ∧ (axis10 1000 []).dev.enabled pageStp = true ∧ (0x400 : BitVec 12) ≠ 0 ∧
    (axis10 1000 []).dev.stp.moves = [] ∧ moveResult (axis10 1000 []).dev 0x400 0 = 0 ∧
    bit 0x400 10 = true ∧ saxTarget (axis10 1000 []).dev 10 ≠ (axisOf (axis10 1000 []).dev 10).pos ∧
    moveResult (axis10 0 []).dev 0x400 1 = 0 ∧
    stepsToLimit (axis10 0 []).dev 0x400 (saxVdir (axis10 0 []).dev ((maskAxes 0x400).headD 0)) ≠ 0 ∧
    moveResult (axis10 0 []).dev 0x400 2 = 0 ∧
    (let s := axis10 0 [move10 5]
     s.dev.stp.moves = [move10 5] ∧ (move10 5).mask = 0x400 ∧ (move10 5).finished = false ∧ (move10 5).stopping = false ∧
       moveResult s.dev 0x400 2 = 0) ∧
    moveResult (axis10 1001 []).dev 0x400 0 = 1 ∧ moveResult (axis10 0 [] 0).dev 0x400 1 = 5 ∧
    moveResult (axis10 0 [] 0).dev 0x400 2 = 5 := by decide +kernel
def heatMove2 : HeatMove := { group := 0, targets := [], speed := 1, phase := 0, since := 0 }
/-- The return stroke of heat 7 under way. -/
def stroking : State :=
  { ready with dev := { readyDev with
    stp := { moves := [{ move10 100 (some heatMove2) with mask := 0x003, lead := 0 }] }
    heats := { running := some { heat := heat7Full, started := 0, stroke := 1 } } } }
theorem witness_StepperMotion :
    (let s := axis10 0 [move10 5]
     (move10 5).mask.getLsbD 10 = true ∧ (move10 5).finished = false ∧ (∀ y, y ∈ (move10 5).axes → mouldStep s.dev y ≠ 0) ∧
       stepTick (s.at 0) (move10 5) ≤ (s.at 0).tick) ∧
    ((axis10 0 []).at 0).tick < stepTick ((axis10 0 []).at 0) { move10 5 with time := 65536 * 1250001 } ∧
    ((move10 100).finished = true ∧ (move10 100).heat = none ∧ (move10 100).kind = 0 ∧ (move10 100).aborted = false ∧
      (move10 100).nextVel = none ∧ (∀ y, y ∈ (move10 100).axes → (axisOf (axis10 0 [move10 100]).dev y).next = none)) ∧
    (∃ m, stroking.dev.stp.moves = [m] ∧ m.mask.getLsbD 1 = true ∧ m.finished = true ∧ m.heat = some heatMove2 ∧ m.kind = 0 ∧
      m.aborted = false ∧ m.total ≤ m.issued ∧ heatMove2.group = 0) ∧
    (∃ y, stroking.dev.heats.running = some y ∧ y.stroke = 1) := by
  refine ⟨by decide +kernel, by decide +kernel, by decide +kernel, ⟨_, rfl, by decide +kernel⟩, ⟨_, rfl, by decide +kernel⟩⟩
/-- The gantry's heat move waits, its axes on or off. -/
def gantryWaits (ctl : Nat) : State :=
  { ready with dev := { readyDev with
    regs := regsOf ([0, 1].flatMap fun x => [(pageSax x, 0x008, ctl), (pageSax x, 0x04C, 1000), (pageMld, 0x600 + 4 * x, 1000)])
    stp := { waiting := [gantryMove] } } }
where gantryMove : HeatMove := { group := 0, targets := [(0, 1000), (1, 1000)], speed := 1, phase := 0, since := 0 }
theorem witness_StepperMotion_start :
    (gantryWaits 1).dev.computes = true ∧ (gantryWaits 1).dev.stp.waiting = [gantryWaits.gantryMove] ∧
    (gantryWaits 1).dev.stp.moves = [] ∧ gantryWaits.gantryMove.since ≤ (gantryWaits 1).dev.cycle * 1250 ∧
    (gantryWaits 1).dev.heats.running = none ∧ heatMoveBlocked (gantryWaits 1).dev gantryWaits.gantryMove = none ∧
    (planTravel (gantryWaits 1).dev (groupMask 0) gantryWaits.gantryMove.targets).2.2 ≠ 0 ∧
    heatMoveBlocked (gantryWaits 0).dev gantryWaits.gantryMove = some 0 := by decide +kernel
/-- Axis 11 on, its coil A as given. -/
def coil11 (k : Coil) : State :=
  { ready with dev := { readyDev with regs := regsOf [(pageSax 11, 0x008, 1)], stp := { axes := [(11, { coilA := k })] } } }
theorem witness_Coils :
    (coil11 {}).dev.enabled (pageSax 11) = true ∧ (coilOf (axisOf (coil11 {}).dev 11) 0).blank = false ∧
    (coilOf (axisOf (coil11 { mode := .drive true }).dev 11) 0).mode = .drive true ∧
    (coilOf (axisOf (coil11 { mode := .drive true, blank := true, negative := true }).dev 11) 0) =
      { mode := .drive true, blank := true, negative := true } ∧
    (let k : Coil := { mode := .drive true, blank := true, thr := 1 }
     (coilOf (axisOf (coil11 k).dev 11) 0) = k ∧ k.blank = true ∧ true ≠ k.negative ∧ k.thr ≠ 0) ∧
    (coilOf (axisOf (coil11 { mode := .fast true }).dev 11) 0).mode = .fast true ∧
    (coilOf (axisOf (coil11 { mode := .slow, thr := 1 }).dev 11) 0) = { mode := .slow, thr := 1 } ∧
    ready.dev.enabled (pageSax 11) = false ∧
    (let s : State := { ready with dev := { readyDev with regs := regsOf [(pageSax 11, 0x12C, 1)], stp := { axes := [(11, { holding := false, lastStep := some 0 })] } } }
     axisMoving s.dev 11 = false ∧ (axisOf s.dev 11).lastStep = some 0 ∧ (axisOf s.dev 11).holding = false ∧
       0 + 1250 * bits (saxWord s.dev 11 0x12C) 0 16 < (s.dev.cycle + 1) * 1250) ∧
    (1#32).getLsbD 0 = true ∧ (0#32).getLsbD 0 = false ∧ bits 1 1 2 = 0 ∧
    (axisOf (readyWith [(pageSax 11, 0x050, 1)]).dev 11).pos < signed 32 (saxLive (readyWith [(pageSax 11, 0x050, 1)]).dev 11 0x050) := by decide +kernel

/-! #### Lanes and feedback -/

/-- Partner lane 47 up for partner 47, at tick 300 or 301 of cycle 1,000. -/
def laneUp : State :=
  { ready with dev := { readyDev with regs := regsOf [(pageLnk, 0x100 + 44, 47 * 2 ^ 24)], lanes := [(47, { stage := 5, logical := 47 }), (31, { stage := 5, logical := 31 })] } }
def upHeader (count : Nat) : BitVec 56 := BitVec.ofNat 56 (1000 + count * 2 ^ 39)
theorem witness_UplinkFrames :
    partnerLane laneUp.dev 31 = some 31 ∧ partnerLane laneUp.dev 47 = some 47 ∧
    uplinkOk (laneUp.at 300) 31 4 (upHeader 4) 0 (BitVec.ofNat 64 (payloadCrc 0 4)) = true ∧
    uplinkOk (laneUp.at 301) 31 4 (upHeader 4) 0 (BitVec.ofNat 64 (payloadCrc 0 4)) = true ∧
    uplinkOk (laneUp.at 301) 31 4 (upHeader 4) 1 (BitVec.ofNat 64 (payloadCrc 0 4)) = false ∧
    uplinkOk (laneUp.at 300) 47 15 (upHeader 15) 0 (BitVec.ofNat 64 (payloadCrc 0 15)) = true ∧
    uplinkOk (laneUp.at 301) 47 15 (upHeader 15) 0 (BitVec.ofNat 64 (payloadCrc 0 15)) = true ∧
    uplinkOk (laneUp.at 301) 47 15 (upHeader 15) 1 (BitVec.ofNat 64 (payloadCrc 0 15)) = false ∧
    (laneUp.at 300).tick % 1250 = 300 ∧ 300 < (laneUp.at 301).tick % 1250 ∧ (laneOf laneUp.dev 47).rev ≠ 1 ∧
    partnerLane ready.dev 31 = none ∧ partnerLane ready.dev 47 = none := by decide +kernel
/-- Channel 103 on at level 0 since cycle 0; output 7 on with a backlog. -/
def channelOn : State :=
  { ready with dev := { readyDev with regs := regsOf [(pageFch 103, 0x008, 1), (pageEmu 7, 0x008, 1), (pageEmu 7, 0x040, 96)], channels := [(103, { level := 0 })] } }
theorem witness_Feedback :
    ready.dev.running = true ∧ ready.dev.par.role ≠ roleStandby ∧ (withRole roleStandby).dev.running = true ∧
    (withRole roleHalted).dev.running = false ∧
    channelOn.dev.enabled (pageFch 103) = true ∧ (channelOf channelOn.dev 103).fault = false ∧
    (channelOf channelOn.dev 103).level ≠ 2 ∧
    (channelOf channelOn.dev 103).since + channelOn.dev.fld (pageFch 103) 0x044 0 16 ≤ channelOn.dev.cycle ∧
    (let s : State := { ready with dev := { readyDev with channels := [(103, { since := 1000 })], regs := regsOf [(pageFch 103, 0x044, 1)] } }
     s.dev.cycle < (channelOf s.dev 103).since + s.dev.fld (pageFch 103) 0x044 0 16) ∧
    channelOn.dev.enabled (pageEmu 7) = true ∧ remoteChannel (channelOn.dev.fld (pageEmu 7) 0x040 0 7) = false ∧
    (emuOf channelOn.dev 7).last ≤ (channelOn.at 0).tick / 125 * 125 ∧
    ready.dev.enabled (pageEmu 0) = false := by decide +kernel
/-- Channel 103 without a speed limit, or with one and its first sample still to come; a sample of amplitude 16,384 at phase 1,024. -/
def channelInService (started : Bool) : State :=
  { ready with dev := { readyDev with
    regs := regsOf [(pageFch 103, 0x008, 1), (pageFch 103, 0x048, if started then 0 else 1)]
    channels := [(103, { started := started, pos := 4096 * 7, phi := 0 })] } }
def quarterTurn : RawSample := { sin := 16384, cos := 0, index := false }
theorem witness_Feedback_sample :
    ∀ b, let s := channelInService b
      let v := correctSample s.dev 103 quarterTurn
      let m := amplitudeOf s.dev 103 v.1 v.2
      s.dev.enabled (pageFch 103) = true ∧ (channelOf s.dev 103).started = b ∧ (channelOf s.dev 103).fault = false ∧
      s.dev.fld (pageFch 103) 0x10C 0 16 ≤ m ∧ m ≤ s.dev.fld (pageFch 103) 0x10C 16 16 ∧
      ((channelOf s.dev 103).started = false ∨ s.dev.fld (pageFch 103) 0x048 0 16 = 0) ∧ quarterTurn.index = false ∧ phaseOf v.1 v.2 0 = 1024 := by decide +kernel
/-- Lane `l` in the state given. -/
def laneIs (l : Nat) (x : Lane) : State := { ready with dev := { readyDev with lanes := [(l, x)] } }
/-- A marker of kind 0, which no lane accepts. -/
def marker55 : Long := BitVec.ofNat 64 (0x5C * 2 ^ 48)
/-- Lane 7 of side B. -/
def marker55Good : Long := BitVec.ofNat 64 (0x5C * 2 ^ 48 + 3 * 2 ^ 4 + 7 * 2 ^ 6 + 2 ^ 12)
/-- The marker of station 31 on side A. -/
def marker47Good : Long := BitVec.ofNat 64 (0x5C * 2 ^ 48 + 1 + 2 ^ 4 + 31 * 2 ^ 6)
theorem witness_LaneBringUp_partner :
    let s : State := { ready with dev := { readyDev with
      regs := regsOf [(pageLnk, 0x040, 1)], lanes := [(47, { stage := 4, lastMarker := some marker47Good, agree := 2 })] } }
    (laneOf s.dev 47).stage = 4 ∧ (laneOf s.dev 47).retryAt = none ∧ (laneOf s.dev 47).lastMarker = some marker47Good ∧
    2 ≤ (laneOf s.dev 47).agree ∧ identityCause (s.at 0) 47 marker47Good.toNat = none ∧
    mkPartner marker47Good.toNat = some 31 := by decide +kernel
theorem witness_LaneBringUp :
    (laneOf (laneIs 55 { stage := 1 }).dev 55).stage = 1 ∧ (laneOf (laneIs 55 { stage := 2 }).dev 55).stage = 2 ∧
    (laneOf (laneIs 55 { stage := 3, lastMarker := some marker55 }).dev 55).lastMarker = some marker55 ∧
    (let x := laneOf (laneIs 55 { stage := 4, lastMarker := some marker55, agree := 2 }).dev 55
     x.stage = 4 ∧ x.retryAt = none ∧ x.lastMarker = some marker55 ∧ 2 ≤ x.agree) ∧
    identityCause ((laneIs 55 {}).at 0) 55 marker55.toNat = some 1 ∧
    identityCause ((laneIs 55 {}).at 0) 55 marker55Good.toNat = none ∧
    (laneOf (laneIs 55 { stage := 4, retryAt := some 1250000 }).dev 55).retryAt = some 1250000 ∧
    1250000 ≤ ((laneIs 55 {}).at 0).tick ∧ ((laneIs 55 {}).at 0).tick < 1250001 ∧
    (let s : State := { ready with dev := { readyDev with tick := 2500001, lanes := [(55, { stage := 4 })] } }
     (laneOf s.dev 55).since + 2500000 < (s.at 1).tick) ∧
    ((laneIs 55 { stage := 4 }).at 0).tick ≤ (laneOf (laneIs 55 { stage := 4 }).dev 55).since + 2500000 := by decide +kernel
theorem witness_LaneBlocks :
    (List.replicate 4032 (0 : Word)).length = 4032 ∧ mkValid (marker55.toNat % 2 ^ 56) = true ∧ mkValid 0 = false ∧ marker55.toNat < 2 ^ 56 ∧
    mkSame marker55.toNat marker55.toNat = true ∧ (0x3E8 : Nat) % 2 ^ 56 = ready.dev.cycle % 2 ^ 32 ∧
    knownBlock 0xFF = false ∧ knownBlock 0x1E = true ∧ 3 ≤ (laneOf (laneIs 55 { stage := 3 }).dev 55).stage ∧
    (laneOf (laneIs 55 { stage := 2 }).dev 55).stage < 3 ∧
    lossDue (laneIs 55 { stage := 3 }).dev 55 .lockLost = true ∧ lossDue (laneIs 55 { stage := 2 }).dev 55 .lockLost = false ∧
    lossDue (laneIs 48 { stage := 5, markersMissed := 2 }).dev 48 .markers = true ∧
    lossDue (laneIs 47 { stage := 5, logical := 31 }).dev 47 .lockLost = true ∧
    lossDue (laneIs 47 { stage := 5, logical := 32 }).dev 47 .lockLost = true ∧
    writeAccepted ((laneIs 55 { stage := 5 }).at 0) (pageLan 55) 0x040 0x101 = true ∧
    (laneOf (laneIs 55 { stage := 5, eyeDwell := some 1 }).dev 55).eyeDwell.isSome = true :=
  ⟨List.length_replicate .., by decide +kernel⟩

/-! #### Imaging -/

/-- Context `c` and its page on, IMG on, partner lane 31 up, with the frames given. -/
def imaging (c : Nat) (x : Ctx) : State :=
  { ready with dev := { readyDev with
    regs := regsOf [(pageImg, 0x008, 1), (pageCtx c, 0x008, 1)], ctxs := [(c, x)]
    lanes := [(31, { stage := 5, logical := 31 })] } }
/-- Camera frame 7, its rows due at the end of the cycle; row 79 of it as a block of CAMERA DATA. -/
def frame7 (rows : Nat) : CamFrame := { sof := 1250000, start := 1000, number := 7, regs := [], tables := [], waiting := List.range rows }
def row79 : BitVec 56 := BitVec.ofNat 56 (7 + 79 * 2 ^ 16 + 2 ^ 23 + 2 ^ 28)
theorem witness_CoaxialImaging :
    let s := imaging 31 { frames := [frame7 15] }
    s.dev.running = true ∧ ctxOn s.dev 31 = true ∧ (partnerLane s.dev 31).isSome = true ∧ (ctxOf s.dev 31).frames = [frame7 15] ∧
    (frame7 15).number = bits row79.toNat 0 16 ∧ bits row79.toNat 16 7 = 79 ∧ bits row79.toNat 23 4 = 1 ∧
    bits row79.toNat 30 26 = 0 ∧ bit row79.toNat 27 = (bits row79.toNat 16 7 == 0) ∧
    bit row79.toNat 28 = (bits row79.toNat 16 7 == 79) ∧ bit row79.toNat 29 = false ∧ (s.at 0).tick ≤ (frame7 15).rowDeadline 79 ∧
    (frame7 15).waiting.length < 16 ∧ (ctxOf (imaging 31 {}).dev 31).frames = [] ∧
    max (3 * s.dev.tick) (pipeOf s.dev 3).free < 3750 * (s.dev.cycle + 1) ∧ pickContext s.dev 3 = (some 31, false) ∧
    s.dev.cycle < (frame7 0).closeCycle := by decide +kernel
/-- Its close cycle has come. -/
def frameOld : CamFrame := { frame7 0 with start := 0 }
theorem witness_CoaxialImaging_close :
    (ctxOf (imaging 31 { frames := [frameOld] }).dev 31).frames = [frameOld] ∧
    frameOld.closeCycle ≤ (imaging 31 { frames := [frameOld] }).dev.cycle := by decide +kernel
/-- An overview frame of 2 × 2 pixels of 8 bits. -/
def frame2 : CamFrame := { sof := 0, number := 1, regs := [(0x058, 0x00020002)], tables := [] }
def portLost (lost : BitVec 2) : State :=
  { ready with dev := { readyDev with regs := regsOf [(pageImg, 0x008, 1)], img := { lost := lost } } }
theorem witness_OverviewImaging :
    let s := imaging (overviewCtx 1 3) { frames := [frame2] }
    portUp s.dev 1 = true ∧ s.dev.enabled (pageCtx (overviewCtx 1 3)) = true ∧
    (ctxOf (imaging (overviewCtx 1 3) {}).dev (overviewCtx 1 3)).frames = [] ∧
    (ctxOf s.dev (overviewCtx 1 3)).frames = [frame2] ∧ (0x2A : Nat) = 0x2A + frame2.fld 0x05C 4 2 ∧ frame2.fld 0x058 0 11 = 2 ∧
    frame2.overflow = false ∧ frame2.arrived < frame2.fld 0x058 16 11 ∧ frame2.waiting.length < 16 ∧
    s.dev.enabled (pageCtx (overviewCtx 1 2)) = false ∧ (portLost 2).dev.img.lost.getLsbD 1 = true ∧
    (portLost 0).dev.img.lost.getLsbD 1 = false ∧ portUp (portLost 0).dev 1 = true ∧
    (ctxOf (imaging 39 { mode := 1 }).dev 39).mode = 1 := by decide +kernel

/-! #### Line head -/

/-- Heat 7 with its first line staged; the line head on for a test. -/
def lineStaged : State :=
  { ready with dev := { readyDev with
    heats := { running := some { heat := { heat7 with passes := [passEight], lines := [(0, [1])] }, started := 0 } } } }
def testReady (t : Option Nat) : State :=
  { ready with dev := { readyDev with regs := regsOf [(pageLhd, 0x008, 1), (pageLhd, 0x05C, 1)], lhd := { testing := t } } }
/-- The command frames of the cycle are out. -/
def codesSent : State :=
  { lineStaged with dev := { lineStaged.dev with boot := { readyDev.boot with sentOf := 1001 } } }
theorem witness_LineHead :
    (mayCode lineStaged.dev = true ∧ mayCode codesSent.dev = false ∧ codesSent.dev.computes = true) ∧
    lineStaged.dev.computes = true ∧ fetchable lineStaged.dev = some (passEight, 0) ∧ fetchable ready.dev = none ∧
    (testReady none).dev.lhd.testing = none ∧ testAllowed (testReady none).dev = true ∧ testAllowed ready.dev = false ∧
    (testReady (some 0)).dev.lhd.testing = some 0 ∧ 0 + 1025 ≤ (testReady (some 0)).dev.cycle + 25 ∧
    (testReady (some 0)).dev.cycle < 0 + 1025 ∧
    (let s : State := { testReady (some 0) with dev := { (testReady (some 0)).dev with tick := 1025 * 1250 } }
     0 + 1025 ≤ s.dev.cycle ∧ s.dev.computes = true) ∧
    (let s : State := { ready with dev := { readyDev with lhd := { applied := some ⟨0, 1250700, 0, [], false⟩, accums := [(15, [⟨passEight, 0, []⟩])] } } }
     s.dev.lhd.applied = some ⟨0, 1250700, 0, [], false⟩ ∧ accumsOf s.dev 15 = [⟨passEight, 0, []⟩] ∧ s.dev.lhd.firing = none) ∧
    accumsOf ready.dev 15 = [] := by decide +kernel

/-- Strobe 8 of a pass of 32 lines is next, line `k` staged first. -/
def lineAhead (k : Nat) : State :=
  { ready with dev := { readyDev with
    lhd := { firing := some { header := passLong, refused := false, next := 8 } }
    heats := { running := some { heat := { heat7 with passes := [passLong], lines := [(k, [1]), (31, [])] }, started := 0 } } } }
where passLong : Entry := ofHeat 5 [(8, 4000000), (16, 100), (21, 4)]
theorem witness_LineHead_fetch :
    (∀ k, k = 0 ∨ k = 16 → (lineAhead k).dev.computes = true ∧ mayCode (lineAhead k).dev = true ∧
      ((lineAhead k).dev.heats.running.bind (·.header)) = some lineAhead.passLong ∧ k < psLines lineAhead.passLong ∧
      nextStrobe (lineAhead k).dev ≤ k + 8 ∧ slotOf (lineAhead k).dev k = none) := by
  rintro k (rfl | rfl) <;> decide +kernel
/-- A gap of the given light in the accumulator of module 15, no pass firing. -/
def gapLeft (u : Nat) : State :=
  { ready with dev := { readyDev with
    regs := regsOf [(pageTmp, 0x054, 1000), (pageLhd, 0x050, 1000 * 2 ^ 16), (pageLhd, 0x054, 500 + 256 * 2 ^ 16)]
    lhd := { accums := [(15, [⟨passEight, 0, [⟨0, 0, u⟩]⟩])] }
    heats := { running := some { heat := { heat7 with passes := [passEight] }, started := 0 } } } }
theorem witness_LineHead_patch :
    (∀ u, accumsOf (gapLeft u).dev 15 = [⟨passEight, 0, [⟨0, 0, u⟩]⟩]) ∧ (gapLeft 255).dev.computes = true ∧
    (gapLeft 255).dev.lhd.firing = none ∧
    ((gapRuns passEight [⟨0, 0, 4000000000⟩]).map fun r => decide (0 < runPower (gapLeft 0).dev r)) = [true] :=
  ⟨fun _ => rfl, by decide +kernel⟩

/-! #### The mould -/

/-- Peak power of station 31 limited to 1,000, EXPERT on, the mould sealed or not. -/
def limited (locked : Bool) : State :=
  { ready with dev := { readyDev with
    regs := regsOf [(pageMld, 0x008, 3), (pageMld, 0x200 + 32 * 31, 1000)], mould := { locked := locked } } }
theorem witness_MouldLimits :
    (∀ b, pendingRaise (limited b).dev 0x5E0 = false ∧ (limited b).dev.rfld pageMld 0x5E0 16 16 = 0 ∧
      (limited b).dev.rfld pageMld 0x5E0 0 16 = 1000 ∧
      bits (acceptedLimit (limited b).dev 0x5E0) 0 16 = 1000 ∧ ((limited b).at 0).writeHeld = false ∧
      (PageKind.mld.reg? 0x5E0).map (fun r => mouldRefused ((limited b).at 0) 0x5E0 r 999) = some none) ∧
    (PageKind.mld.reg? 0x5E0).map (fun r => mouldRefused ((limited false).at 0) 0x5E0 r 1001) = some none ∧
    (PageKind.mld.reg? 0x5E0).map (fun r => blockRefused ((limited true).at 0) .mld pageMld 0x5E0 r 1001) = some none ∧
    (limited false).dev.mould.raises.length < 16 ∧ (limited false).dev.mould.locked = false ∧
    (limited true).dev.mould.locked = true := by decide +kernel
/-- A key, EXPERT on; the response that the device's challenge asks for is put in by hand. -/
def keyed : State :=
  { ready with dev := { readyDev with regs := regsOf [(pageMld, 0x008, 2), (pageMld, 0x100, 1)], mould := { key := 1 } } }
def answered (cmd off v : Nat) : State :=
  let d := { readyDev with
    regs := regsOf [(pageMld, 0x044, off <<< 16), (pageMld, 0x048, v)], mould := { locked := true, key := 1, storeDirty := false } }
  { ready with dev := { d with mould := { d.mould with response := BitVec.ofNat 256 (authMac d cmd off v) } } }
theorem witness_MouldAuth :
    (PageKind.mld.reg? 0x080).map (fun r => mouldRefused (keyed.at 0) 0x080 r 1) = some none ∧ keyed.dev.mould.key ≠ 0 ∧
    (PageKind.mld.reg? 0x11C).map (fun r => mouldRefused (keyed.at 0) 0x11C r 0xFFFFFFFF) = some none ∧
    (PageKind.mld.reg? 0x044).map (fun r => mouldRefused (keyed.at 0) 0x044 r 2) = some none ∧
    keyed.dev.forwards = false ∧ keyed.dev.mould.locked = false ∧ dirty.dev.mould.storeDirty = true ∧ ready.dev.mould.storeDirty = false := by decide +kernel
/-- The same of a holder that forwards its writes. -/
theorem witness_MouldAuth_forwards :
    let s := withPar keyed { role := roleHolder, withStandby := true }
    s.dev.forwards = true ∧ (s.at 0).writeHeld = false ∧
    (∀ x ∈ [(0x080, 1), (0x100, 1), (0x11C, 1), (0x044, 1), (0x044, 2)],
      (PageKind.mld.reg? x.1).map (fun r => mouldRefused (s.at 0) x.1 r x.2) = some none) := by decide +kernel
theorem witness_MouldAuth_response :
    (∀ x ∈ [(2, 0, 0), (1, 0x200, 5)], (answered x.1 x.2.1 x.2.2).dev.forwards = false ∧
      (PageKind.mld.reg? 0x044).map (fun r => mouldRefused ((answered x.1 x.2.1 x.2.2).at 0) 0x044 r (x.1 + x.2.1 <<< 16)) =
        some none) ∧
    (answered 2 0 0).dev.mould.locked = true ∧
    authMac (answered 2 0 0).dev 2 0 0 = (answered 2 0 0).dev.mould.response.toNat ∧
    authMac (answered 2 0 0).dev 1 0 0 ≠ (answered 2 0 0).dev.mould.response.toNat ∧
    authMac (answered 1 0x200 5).dev 1 0x200 5 = (answered 1 0x200 5).dev.mould.response.toNat ∧
    authMac (answered 1 0x200 5).dev 2 0 0 ≠ (answered 1 0x200 5).dev.mould.response.toNat ∧
    (answered 1 0x200 5).dev.rfld pageMld 0x044 16 12 = 0x200 ∧ (answered 1 0x200 5).dev.rfld pageMld 0x048 0 32 = 5 ∧
    isLimit 0x200 = true ∧ (PageKind.mld.reg? 0x200).map (fun r => valuesOk r 5) = some true ∧
    (splitLimit 0x200 (acceptedLimit (answered 1 0x200 5).dev 0x200) 5).1 ≠ 0 ∧
    (answered 1 0x200 5).dev.mould.raises.length < 16 ∧
    pendingRaise (answered 1 0x200 5).dev 0x200 = false := by decide +kernel
/-! #### The pair -/

/-- The eight halyard lanes up, in the role and join stage given. -/
def halyard (p : Par) (l : List (Nat × Nat × Nat) := []) : State :=
  { ready with dev := { readyDev with
    regs := regsOf l, par := p, lanes := (List.range 8).map fun q => (48 + q, { stage := 5 }) } }
theorem witness_PairJoin :
    (let s := withPar ready { role := roleSeeking, ensignLow := 4000, sideB := true }
     atCycleStart s.dev = true ∧ s.dev.running = true ∧ s.dev.par.role = roleSeeking ∧ s.dev.boot.stage = 5 ∧
       2000 ≤ s.dev.par.ensignLow ∧ 4000 ≤ s.dev.par.ensignLow) ∧
    (withRole roleHalted).dev.running = false ∧
    ¬(2000 ≤ (withPar ready { role := roleSeeking, ensignLow := 1999 }).dev.par.ensignLow) ∧
    (halyard { role := roleJoining, joinStage := 2 }).dev.running = true ∧
    (halyard { role := roleJoining, joinStage := 2 }).dev.par.joinStage = 2 ∧
    (∀ r, r = roleJoining ∨ r = roleHolder → let s := halyard { role := r, joinStage := 3, mirrorClean := 64 }
      atCycleStart s.dev = true ∧ s.dev.running = true ∧ s.dev.par.joinStage = 3 ∧ s.dev.par.dirty = 0 ∧
        64 ≤ s.dev.par.mirrorClean ∧ s.dev.par.role = r ∧ s.dev.holds = (r == roleHolder)) ∧
    atCycleStart { readyDev with tick := 1250001 } = false ∧
    (halyard { joinStage := 3, mirrorClean := 63 }).dev.par.mirrorClean < 64 ∧
    (let s := halyard { role := roleOut, outSince := 999 } [(pagePar, 0x044, 1 * 2 ^ 16 + 1 * 2 ^ 4 + 1)]
     s.dev.par.role = roleOut ∧ s.dev.flag pagePar 0x044 0 = true ∧ halyardUp s.dev = true ∧
       s.dev.par.outSince + s.dev.fld pagePar 0x044 16 16 ≤ s.dev.cycle ∧
       s.dev.rfld pagePar 0x080 0 32 < s.dev.fld pagePar 0x044 4 4) := by
  refine ⟨by decide +kernel, by decide +kernel, by decide +kernel, by decide +kernel, by decide +kernel, ?_, by decide +kernel⟩
  rintro r (rfl | rfl) <;> decide +kernel
theorem witness_PairCommands :
    (∀ v, v = 1 ∨ v = 2 ∨ v = 4 ∨ v = 8 → writeAccepted ((halyard { role := roleOut }).at 0) pagePar 0x040 v = true) ∧
    halyardUp (halyard { role := roleOut }).dev = true ∧ (halyard { role := roleOut }).dev.par.role = roleOut ∧
    halyardUp (withRole roleSeeking).dev = false ∧ writeAccepted ((withRole roleSeeking).at 0) pagePar 0x040 1 = true ∧
    (withRole roleStandby).dev.par.role = roleStandby ∧ (paired ready).dev.pairHolder = true ∧
    (paired ready).dev.par.yieldDue = none ∧ (paired ready).dev.par.yieldMark = none ∧ ready.dev.pairHolder = false := by
  refine ⟨?_, by decide +kernel⟩
  rintro v (rfl | rfl | rfl | rfl) <;> decide +kernel
theorem witness_PairCommands_close :
    let s := paired (building [] heat7Full 4)
    writeAccepted (s.at 0) pagePar 0x040 2 = true ∧ s.dev.pairHolder = true ∧ s.dev.heats.opening = some heat7Full ∧
    heat7Full.ring = 3 ∧ (subOf s.dev 3).mode = 4 ∧ (∀ r, r < 4 → (subOf (paired ready).dev r).mode ≠ 4) := by decide +kernel
/-- A CYCLE record of cycle 1,000 by a holder, and of cycle 999. -/
def recordOf (cycle role : Nat) : BitVec 4800 := BitVec.ofNat 4800 (cycle + role <<< 80)
theorem witness_PairRecords :
    let s := halyard { role := roleStandby }
    halyardUp s.dev = true ∧ byteField (recordOf 1000 2) 0 8 = s.dev.cycle ∧ s.dev.par.role = roleStandby ∧
    byteField (recordOf 1000 2) 10 1 = roleHolder ∧ bit (byteField (recordOf 1000 2) 27 1) 0 = false ∧
    byteField (recordOf 999 2) 0 8 ≠ s.dev.cycle ∧ (halyard { role := roleHolder }).dev.par.role ≠ roleStandby ∧
    groupPending s.dev (pageStn 31) 3 = false ∧ receives (halyard { role := roleHolder }).dev = false ∧
    (s.at 1249).tick ≤ 1250999 + 250 ∧ 1250998 + 250 < (s.at 1249).tick ∧ receives s.dev = true ∧
    (let b : Long := BitVec.ofNat 64 (memBytes s.dev - 1); b.toNat + 1 ≤ memBytes s.dev) ∧
    (halyard { role := roleJoining, joinStage := 2 }).dev.par.joinStage = 2 ∧ isMirrored pageTmp = true ∧
    reportWord (wordAddr pageTmp 0x040) = false ∧ s.dev.running = true ∧
    (let j := (halyard { role := roleJoining, joinStage := 1 }).dev
     j.par.joinStage = 1 ∧ helloCause j 0 true true = some 1) := by decide +kernel
/-- The write that a BULK record of one byte at 4,100 makes of the burst `b`. -/
def bulkBurst (b : Nat) : DramReq :=
  { port := 6, addr := b, write := true, data := (burstPart 4100 [7] b).1, mask := (burstPart 4100 [7] b).2, cls := 1
    promoted := false, at0 := 1250000, client := .posted }
/-- That record, the memory not ready, and ready. -/
theorem witness_PairRecords_bulk :
    let s := halyard { role := roleStandby }
    let m : State := { s with dev := { s.dev with regs := regsOf [(pageMem, 0x008, 1)], dram := { trained := true } } }
    receives s.dev = true ∧ memReady s.dev = false ∧ receives m.dev = true ∧ memReady m.dev = true ∧ m.dev.dram.held = [] ∧
    (m.at 0).tick = 1250000 ∧ (burstsOf m.dev 4100 1).map bulkBurst = [bulkBurst 4096] ∧
    (bulkBurst 4096).addr < memBytes m.dev ∧ queueRoom m.dev (bulkBurst 4096) = true ∧
    rateAdmits (m.at 0) 6 = true := by decide +kernel
/-- A record of each kind that comes with a wrong CRC on lane 55. -/
theorem witness_PairRecords_bad :
    let u : Arrival := { tick := 0, lane := 7, intact := false }
    u.intact = false ∧ halyardUp (halyard {}).dev = true ∧
    (halyardAt u (.cycleRecord u 0 0) ∧ halyardAt u (.writeRecord u 0 false 0 0) ∧ halyardAt u (.sampleRecord u 0 0 0 0) ∧
      halyardAt u (.bulkRecord u none 0 []) ∧ halyardAt u (.mirrorRecord u 0 (.word 0)) ∧ halyardAt u (.hello u 0 true true)) :=
  ⟨rfl, by decide +kernel, rfl, rfl, rfl, rfl, rfl, rfl⟩
/-- A HELLO of a HOLDER on side B with this device's revision and schema. -/
def helloB (d : Dev) : BitVec 216 :=
  BitVec.ofNat 216 (atByte 8 1 + atByte 9 helloBody.deviceRevision + atByte 10 d.boot.schema.toNat + atByte 26 roleHolder)
theorem witness_PairRecords_hello :
    let j := { (halyard { role := roleJoining, joinStage := 1 }).dev with boot := { readyDev.boot with schema := 1 } }
    let k := { (halyard { role := roleHolder }).dev with boot := { readyDev.boot with schema := 1 } }
    helloCause j (helloB j) true true = none ∧ helloCause k (helloB k) true true = none ∧ k.holds = true ∧
    (let s := halyard { role := roleOut }
     halyardUp s.dev = true ∧ s.dev.running = true ∧ s.dev.holds = false ∧ s.dev.par.role ≠ roleJoining ∧
       byteField (BitVec.ofNat 216 (atByte 26 roleJoining)) 26 1 = roleJoining ∧ byteField (helloB k) 26 1 ≠ roleJoining) := by
  decide +kernel
/-- A holder whose standby has the data of one load to confirm. -/
def loadWaits : State :=
  let s := halyard { role := roleHolder, withStandby := true }
  { s with dev := { s.dev with hif := { loads := [(1, loadOne, 0, none)] } } }
theorem witness_PairRecords_confirm :
    halyardUp loadWaits.dev = true ∧ loadWaits.dev.pairHolder = true ∧ loadWaits.dev.hif.loads = [(1, loadOne, 0, none)] ∧
    (9 : Long).toNat = 8 + 1 ∧ receives loadWaits.dev = false := by decide +kernel

/-! #### DRAM -/

/-- A trained memory with the requests given. -/
def memory (m : Dram) (l : List (Nat × Nat × Nat) := []) : State :=
  { ready with dev := { readyDev with regs := regsOf ([(pageMem, 0x008, 1)] ++ l), dram := { m with trained := true } } }
def reqOf (port : Nat) (write : Bool) (at0 : Nat) : DramReq :=
  { port := port, addr := 0, write := write, data := 0, cls := portClass port, promoted := false, at0 := at0 }
/-- A write of one byte above the staging slots. -/
def writeAbove : DramReq := { reqOf 8 true 1250000 with addr := 2 * slotBytes, mask := 1 }
theorem witness_DramTraffic :
    memReady ready.dev = false ∧ memReady (memory {}).dev = true ∧ (memory {}).dev.dram.held = [] ∧
    64 / 64 * 64 < memBytes (memory {}).dev ∧ queueRoom (memory {}).dev (reqOf 9 true 1250000) = true ∧
    rateAdmits ((memory {}).at 0) 9 = true ∧ memBytes (memory {}).dev ≤ (0xFFFFFFFFF#36).toNat / 64 * 64 ∧
    (let s := memory { queue := [reqOf 0 false 1250000, reqOf 8 false 1250000] }
     drainNow (s.at 0) 0 = false ∧ reqOf 0 false 1250000 ∈ s.dev.dram.queue ∧ inSub s.dev 0 (reqOf 0 false 1250000) = true ∧
       (∀ x, x ∈ s.dev.dram.queue → x ≠ reqOf 0 false 1250000 → inSub s.dev 0 x = true → x.write = false →
         reqBefore (s.at 0) (reqOf 0 false 1250000) x = true) ∧
       (reqOf 0 false 1250000).cls < (reqOf 8 false 1250000).cls) := by decide +kernel
theorem witness_DramTraffic_write :
    (let s := memory { queue := [writeAbove] }
     memReady s.dev = true ∧ s.dev.dram.held = [] ∧ drainNow (s.at 0) 0 = true ∧ writeAbove ∈ s.dev.dram.queue ∧
       inSub s.dev 0 writeAbove = true ∧ writeAbove.write = true ∧ writeWaits s.dev writeAbove = false ∧
       writeAbove.client ≠ .writeBack ∧ 2 * slotBytes ≤ writeAbove.addr ∧
       4 * ((s.at 0).tick - writeAbove.at0) ≤ portTarget s.dev writeAbove.port ∧
       ∀ x, x ∈ s.dev.dram.queue → x ≠ writeAbove → inSub s.dev 0 x = true → x.write = true → writeWaits s.dev x = false →
         reqBefore (s.at 0) writeAbove x = true) ∧
    (let s := memory {} [(pageMem, 0x104 + 16 * 9, 1)]
     let full : State := { s with dev := { s.dev with dram := { s.dev.dram with buckets := [(9, 1250000, 4096000)] } } }
     rateAdmits (full.at 0) 9 = false ∧ memReady full.dev = true ∧ full.dev.dram.held = []) := by decide +kernel
theorem witness_DramReads :
    (let s := memory { inflight := [reqOf 8 false 1250000], repairs := [reqOf 8 false 1250000] }
     s.dev.dram.held = [] ∧ s.dev.dram.inflight = [reqOf 8 false 1250000] ∧ inSub s.dev 0 (reqOf 8 false 1250000) = true ∧
       (reqOf 8 false 1250000).client = .outside ∧ 4 * ((s.at 0).tick - (reqOf 8 false 1250000).at0) ≤ portTarget s.dev 8 ∧
       (reqOf 8 false 1250000).addr < memBytes s.dev ∧ (reqOf 8 false 1250000).port ≠ 3 ∧
       s.dev.dram.repairs = [reqOf 8 false 1250000] ∧ peerRepairs s.dev = false ∧ peerRepairs (paired s).dev = true) ∧
    ready.dev.dram.inflight = [] ∧ ready.dev.dram.repairs = [] := by decide +kernel
/-- A scrub of the first burst has been read, and of the last. -/
def scrubbed (pos : Nat) : State :=
  memory { inflight := [{ reqOf 9 false 1250000 with cls := 2, client := .scrub 0 }] } [(pageMem, 0x078, pos)]
/-- The pours of heat 7, running in slot 0, have been read through port 3; no station is on island 0. -/
def pourRead : State :=
  let s := memory { inflight := [{ reqOf 3 false 1250000 with addr := slotPours }] }
  { s with dev := { s.dev with heats := { running := some { heat := heat7Full, started := 0 } } } }
theorem witness_DramReads_use :
    (let s := scrubbed 0
     s.dev.dram.inflight = [{ reqOf 9 false 1250000 with cls := 2, client := .scrub 0 }] ∧
       64 * (s.dev.rfld pageMem 0x078 0 29 + 1) < memBytes s.dev ∧ 4 * ((s.at 0).tick - 1250000) ≤ portTarget s.dev 9) ∧
    (let s := scrubbed (memBytes (memory {}).dev / 64 - 1)
     memBytes s.dev ≤ 64 * (s.dev.rfld pageMem 0x078 0 29 + 1)) ∧
    (let s := pourRead
     s.dev.dram.inflight = [{ reqOf 3 false 1250000 with addr := slotPours }] ∧ peerRepairs s.dev = false ∧
       islandAt s.dev slotPours = some 0 ∧ 4 * ((s.at 0).tick - 1250000) ≤ portTarget s.dev 3 ∧
       (∀ k, k < 32 → (stationOf s.dev k).island ≠ some 0) ∧
       (s.dev.heats.running.map fun x => decide ((x.island 0).state < 4)) = some true) ∧
    (let s := paired (memory { repairs := [writeAbove] })
     s.dev.dram.repairs = [writeAbove] ∧ writeAbove.client = .outside ∧ peerRepairs s.dev = true ∧
       2 * slotBytes ≤ writeAbove.addr ∧ writeAbove.port ≠ 0 ∧ writeAbove.port ≠ 1 ∧ writeAbove.port ≠ 3) := by
  decide +kernel
/-- Requests to all four bank indices of rank 0. -/
def wantAll : State :=
  memory { ranks := [(0, { debt := 7 })], queue := (List.range 4).map fun b => { reqOf 8 false 1250000 with addr := 64 * 64 * 2 * b } }
    ((List.range 5).map fun k => (pageMem, 0x1B0 + 4 * k, 0))
theorem witness_DramUpkeep :
    memReady (memory {}).dev = true ∧ rankThere (memory {}).dev 0 0 = true ∧ (memory {}).dev.dram.queue = [] ∧
    memReady ready.dev = false ∧ (memory {} [(pageMem, 0x048, 65536)]).dev.flag pageMem 0x048 16 = true ∧
    rateAdmits ((memory {} [(pageMem, 0x048, 65536)]).at 0) 9 = true ∧ 64 * (0 + 1) < memBytes (memory {}).dev ∧
    memBytes (memory {}).dev ≤ 64 * (memBytes (memory {}).dev / 64 - 1 + 1) ∧
    (let s : State := { ready with dev := { readyDev with dram := { training := true, attempts := 2 }, boot := { readyDev.boot with stage := 4 } } }
     s.dev.dram.training = true ∧ s.dev.dram.held = [] ∧ s.dev.boot.stage = 4 ∧ s.dev.boot.result = 0 ∧ 2 ≤ s.dev.dram.attempts) ∧
    ready.dev.dram.training = false ∧ ready.dev.boot.stage ≠ 4 ∧ ({ step := 3 } : TrainingEnd).step ≠ 0 ∧
    ({ above := true, fast := false, code := 0 } : Mr4Report).above = true ∧
    (let s := memory { queue := [{ reqOf 9 false 1250000 with cls := 2, client := .scrub 0 }] }
     s.dev.dram.held = [] ∧ ∃ x e, x ∈ s.dev.dram.queue ++ s.dev.dram.inflight ++ s.dev.dram.repairs ∧ x.client = .scrub e) := by
  refine ⟨by decide +kernel, by decide +kernel, by decide +kernel, by decide +kernel, by decide +kernel, by decide +kernel,
    by decide +kernel, by decide +kernel, by decide +kernel, by decide +kernel, by decide +kernel, by decide +kernel,
    by decide +kernel, by decide +kernel, ⟨_, 0, List.mem_singleton_self _, rfl⟩⟩
theorem witness_DramUpkeep_forced :
    (∀ b, b < 4 → bankWanted wantAll.dev 0 0 b = true) ∧ (rankOf wantAll.dev 0 0).left = 15 ∧
    wantAll.dev.fld pageMem 0x050 0 3 ≤ (rankOf wantAll.dev 0 0).debt + 1 := by decide +kernel

/-! #### Ingot coder -/

/-- Sixty-four zeros, which shrink with any predictor. -/
def zeros : List Word := List.replicate 64 0
theorem witness_CoderIngots_encode :
    zeros.length = 64 ∧ (encodeIngot 1 3 [] zeros).isSome = true ∧ encodeIngot 0 3 [] zeros = none ∧
    (encodeIngot 1 3 [] (wordsOf 64 (List.replicate 256 (0 : Byte)))).map List.length = some 64 := by decide +kernel
/-- A job entry of its type with one descriptor, and a job of it. -/
def jobEntryOf (ty count : Nat) : Entry :=
  entryOf ([(0, ty), (3, 1)] ++ (if ty = 0x33 then [] else [(2, 3), (16, count)]))
def coding (j : Option CoderJob) (l : List (Nat × Nat × Nat) := []) : State :=
  let s := ringReady 13 ([(pageIcd, 0x008, 1)] ++ l)
  { s with dev := { s.dev with coder := { jobs := [(1, j)] } } }
/-- A descriptor of a buffer of 64 bytes at 4,096. -/
def descriptorOf : List Byte := leBytes 8 4096 ++ leBytes 4 64 ++ leBytes 4 0
theorem witness_CoderJobs :
    (∀ ty, ty = 0x31 ∨ ty = 0x32 ∨ ty = 0x33 → entryReady ((coding none).at 0) 13 (jobEntryOf ty 2) = true ∧
      jobFormatOk (jobEntryOf ty 2) = true ∧ byteField (jobEntryOf ty 2) 0 1 = ty) ∧
    (coding none).dev.enabled pageIcd = true ∧ jobOf (coding none).dev 1 = none ∧
    groupRipe (coding none).dev pageIcd (coding none).dev.cycle 0 = false ∧
    (ringOf (coding none).dev 13).begun = false ∧
    (let j : CoderJob := { newJob (jobEntryOf 0x31 2) with starved := true, held := [1, 2] }
     jobOf (coding (some j)).dev 1 = some j ∧ j.decode = false ∧ j.ending = false ∧ j.next + 1 < byteField j.entry 16 4 ∧
       j.held ≠ [] ∧ bit (byteField (jobEntryOf 0x33 2) 1 1) 1 = false ∧
       16 ≤ descriptorOf.length ∧ leNat ((descriptorOf.drop 8).take 4) % 4 = 0 ∧ 4 ≤ leNat ((descriptorOf.drop 8).take 4) ∧
       j.held.length ≤ leNat ((descriptorOf.drop 8).take 4)) ∧
    (∀ b, let j : CoderJob := { newJob (jobEntryOf 0x31 2) with reading := b }
      jobOf (coding (some j)).dev 1 = some j ∧ j.reading = b) ∧
    writeAccepted ((coding none).at 0) pageIcd 0x040 2 = true := by
  refine ⟨?_, by decide +kernel⟩
  rintro ty (rfl | rfl | rfl) <;> decide +kernel
/-- A running job of ring 13 with 64 bytes of buffer. -/
def runningJob (decode : Bool) : CoderJob :=
  jobOfEntry (jobEntryOf (if decode then 0x32 else 0x31) 2) decode descriptorOf
theorem witness_CoderIngots :
    (∀ b, jobOf (coding (some (runningJob b))).dev 1 = some (runningJob b) ∧ (runningJob b).starved = false ∧
      jobTurn (coding (some (runningJob b))).dev 1 = true ∧ (ringOf (coding (some (runningJob b))).dev 13).parked = none ∧
      (runningJob b).reading = false ∧ (runningJob b).input = none ∧ (runningJob b).ending = false ∧
      bit (byteField (runningJob b).entry 1 1) 0 = false ∧ (runningJob b).outDev = false ∧
      (runningJob b).buffer = some (4096, 64, 0) ∧ (runningJob b).next + 1 < byteField (runningJob b).entry 16 4) ∧
    (let j : CoderJob := newJob (entryOf [(0, 0x31), (1, 1), (2, 3), (3, 1), (8, 4096), (16, 2)])
     jobOf (coding (some j)).dev 1 = some j ∧ j.starved = false ∧ j.reading = false ∧ j.input = none ∧
       bit (byteField j.entry 1 1) 0 = true ∧ burstsOf (coding (some j)).dev (byteField j.entry 8 8) (inputLength j) ≠ []) ∧
    ingotLength 3 ≤ 64 ∧ decodeIngot [] (List.replicate 64 (0 : Byte)) = .error illegalCode ∧
    (match encodeIngot 1 3 [] zeros with
     | some b => match decodeIngot [] b with | .ok xs => xs == zeros | .error _ => false
     | none => false) = true := by decide +kernel
/-! #### Calibration -/

/-- Calibration ring `k` with one entry and the calibration block enabled. -/
def calReady (k : Nat) (l : List (Nat × Nat × Nat) := []) : State := ringReady (16 + k) ([(pageCal, 0x008, 3)] ++ l)
/-- Calibration entry of its type, target and buffer length. -/
def calEntryOf (ty target len : Nat) : Entry :=
  entryOf ([(0, ty), (1, target), (4, 77), (16, len)] ++ (if ty = 0x23 then [(18, 1)] else []))
/-- A buffer of zeros but for the fields listed as offset, bytes and value. -/
def bufferOf (n : Nat) (l : List (Nat × Nat × Nat)) : List Byte :=
  leBytes n (l.foldl (fun a x => a + atByte x.1 (x.2.2 % 256 ^ x.2.1)) 0)
/-- A PLATE buffer of one target and a POWER buffer of one level. -/
def plateBuffer : List Byte := bufferOf 96 [(4, 2, 100), (8, 2, 500), (10, 1, 1)]
def powerBuffer : List Byte := bufferOf 40 [(4, 4, 65536), (16, 1, 1), (17, 1, 10), (18, 2, 1000), (20, 2, 100), (32, 2, 20000)]
theorem witness_CalibrationEntries :
    (∀ k : Fin 2, ∀ x ∈ [(0x21, 3, 96), (0x22, 31, 40), (0x23, 0, 0), (0x24, 4, 0), (0x25, 31, 0), (0x26, 0, 0)],
      let s := calReady k.val
      let e := calEntryOf x.1 x.2.1 x.2.2
      entryReady (s.at 0) (16 + k.val) e = true ∧ s.dev.par.role ≠ roleStandby ∧ s.dev.cal.run = none ∧
      s.dev.enabled pageCal = true ∧ drifting s.dev (calTarget e) = false ∧ calType e = x.1 ∧
      (if k.val = 0 then (ringOf s.dev 17).begun = false
        else ringCons s.dev 16 = ringProd s.dev 16 ∧ (ringOf s.dev 16).begun = false) ∧
      (ringOf s.dev (16 + k.val)).begun = false ∧ calEntryOk e = (x.1 != 0x26) ∧ (x.1 = 0x23 ∨ calLength e = x.2.2)) ∧
    plateOk plateBuffer 96 = true ∧ powerOk powerBuffer 40 = true := by decide +kernel
/-- A device with the run given in hand. -/
def running (r : CalRun) (l : List (Nat × Nat × Nat) := []) : State :=
  let s := readyWith ([(pageCal, 0x008, 3)] ++ l)
  { s with dev := { s.dev with cal := { run := some r } } }
/-- A POWER run of station 31 that was given before the cycle `n`. -/
def runFrom (n : Nat) : CalRun :=
  { type := 0x22, target := 31, tag := 5, ring := 0, addr := 4096, startAt := n, buffer := powerBuffer }
theorem witness_CalibrationRuns :
    (let s := running (runFrom 1000)
     s.dev.cal.run = some (runFrom 1000) ∧ s.dev.running = true ∧ (runFrom 1000).started = false ∧
       (runFrom 1000).startAt ≤ s.dev.cycle ∧ s.dev.cycle < (runFrom 1001).startAt ∧ (runFrom 1000).type ≠ 0x24 ∧
       (runFrom 1000).done = false) ∧
    (let r := { runFrom 900 with started := true, done := true, detail := 16000 }
     (running r).dev.cal.run = some r ∧ r.done = true ∧ r.type = 0x22 ∧ r.started = true) ∧
    (let s := readyWith [(pageCal, 0x008, 3), (pageStn 31, 0x008, 1)]
     let d : State := { s with dev := { s.dev with cal := { stations := [(31, { due := some (0, 5) })] } } }
     d.dev.computes = true ∧ stationFree d.dev 31 = true ∧ d.dev.cal.run = none ∧ drifting d.dev 31 = false ∧
       d.dev.enabled pageCal = true ∧ (calStation d.dev 31).due = some (0, 5) ∧ driftDue s.dev 31 = false) ∧
    (let c : CalStation := { ptrimStaged := some (16000, 997) }
     let s : State := { ready with dev := { readyDev with cal := { stations := [(0, c), (31, { c with ptrimStaged := some (1, 998) })] } } }
     s.dev.running = true ∧ s.dev.heats.everStarted = false ∧ (calStation s.dev 0).ptrimStaged = some (16000, 997) ∧
       997 + 3 ≤ s.dev.cycle ∧ (calStation s.dev 31).ptrimStaged = some (1, 998) ∧ s.dev.cycle < 998 + 3) ∧
    ready.dev.holds = true ∧ (withRole roleOut).dev.holds = false ∧ (withRole roleOut).dev.par.role ≠ roleStandby ∧
    (withRole roleStandby).dev.running = true ∧ (withRole roleStandby).dev.par.role = roleStandby ∧
    (withRole roleStandby).dev.par.notes = [] := by decide +kernel
theorem witness_CalibrationRuns_none :
    (∀ k, getRun (running (runFrom 900)).dev (some k) = none) ∧ ready.dev.cal.run = none ∧
    (∀ k, getRun ready.dev (some k) = none) ∧ (∀ k, (calStation ready.dev k).termStaged = none) :=
  ⟨fun _ => rfl, rfl, fun _ => rfl, fun _ => rfl⟩

/-! #### Recorder, timebase and monitors -/

theorem witness_Recorder :
    (let s := readyWith [ctlOn pageRec]
     s.dev.recorder.triggers = [] ∧ s.dev.enabled pageRec = true ∧ s.dev.recorder.clock ≠ (s.at 0).tick ∧
       s.dev.recorder.log.length + 1 < log2Cap s.dev ∧
       (∀ v, v = 1 ∨ v = 2 → writeAccepted (s.at 0) pageRec 0x044 v = true ∧ writeAccepted (s.at 0) pageRec 0x054 v = true) ∧
       s.dev.recorder.key = 0 ∧ s.dev.recorder.missedFull ≠ 0xFFFFFFFF) := by
  refine ⟨by decide +kernel, by decide +kernel, by decide +kernel, by decide +kernel, ?_, by decide +kernel, by decide +kernel⟩
  rintro v (rfl | rfl) <;> decide +kernel
/-- A recorder with a full log and a key. -/
def fullLog : State :=
  let s := readyWith [ctlOn pageRec]
  { s with dev := { s.dev with recorder := { log := List.replicate 8192 0, key := 1 } } }
theorem witness_Recorder_full : log2Cap fullLog.dev ≤ fullLog.dev.recorder.log.length := by
  rw [show fullLog.dev.recorder.log = List.replicate 8192 0 from rfl, List.length_replicate]; decide +kernel
theorem witness_Recorder_keys :
    fullLog.dev.recorder.key ≠ 0 ∧ clearMac fullLog.dev 1 ≠ fullLog.dev.recorder.response.toNat := by decide +kernel
theorem witness_Recorder_cleared : ∃ s : State,
    s.dev.recorder.triggers = [] ∧ s.dev.recorder.key ≠ 0 ∧ clearMac s.dev 2 = s.dev.recorder.response.toNat ∧
    writeAccepted (s.at 0) pageRec 0x054 2 = true :=
  ⟨{ fullLog with dev := { fullLog.dev with recorder := { key := 1, response := BitVec.ofNat 256 (clearMac
      { fullLog.dev with recorder := { key := 1 } } 2) } } }, by decide +kernel⟩
theorem witness_Recorder_histograms :
    (∀ i : Fin 8, writeAccepted ((readyWith [ctlOn pageRec]).at 0) pageRec (0x1A0 + 4 * i.val) 0xFFFFFFFF = true) ∧
    (let s := readyWith [ctlOn pageRec, (pageRec, 0x040, 1), (pageRec, 0x100 + 8 * 15, 2 ^ 31)]
     s.dev.enabled pageRec = true ∧ s.dev.flag pageRec 0x040 0 = true ∧
       bit (s.dev.regs.inUse (wordAddr pageRec (0x100 + 8 * 15))).toNat 31 = true ∧
       bit (s.dev.regs.inUse (wordAddr pageRec 0x100)).toNat 31 = false ∧ s.dev.tick % 1250 = 0 ∧
       s.dev.recorder.sampledAt = none ∧ 800 + max 1 (s.dev.fld pageRec 0x180 0 16) ≤ s.dev.cycle ∧
       s.dev.cycle < 801 + max 1 (s.dev.fld pageRec 0x180 0 16)) ∧
    ready.dev.enabled pageRec = false := by decide +kernel
/-- A timebase in use. -/
def timed (m : Timebase) (l : List (Nat × Nat × Nat) := []) : State :=
  let s := readyWith ([(pageTim, 0x008, 3)] ++ l)
  { s with dev := { s.dev with tim := m } }
theorem witness_TimeOfDay :
    (timed {}).dev.enabled pageTim = true ∧ (timed {} [(pageTim, 0x008, 0)]).dev.enabled pageTim = false ∧
    (∀ l, l = 1250000 - 125000000 + 1 ∨ l = 1000 → 1250000 < l + 125000000) ∧
    (let s := { timed { lastEdge := some 1000, holdover := true, ppsOut := true } with dev :=
       { (timed { lastEdge := some 1000, holdover := true, ppsOut := true }).dev with tick := 200 * 1250000 } }
     s.dev.tim.lastEdge = some 1000 ∧ 1000 + 248000000 ≤ (s.at 0).tick ∧ (s.at 0).tick ≤ 1000 + 252000000 ∧
       s.dev.tim.lost = false ∧ s.dev.par.role ≠ roleStandby ∧ nextCrossing s.dev.tim ≤ (s.at 0).tick ∧
       s.dev.tim.setSeconds = none ∧ s.dev.tim.ppsOut = true ∧ s.dev.tim.ppsFall ≤ (s.at 0).tick) ∧
    (let s : State := { timed { lastEdge := some 1000 } with dev := { (timed { lastEdge := some 1000 }).dev with tick := 375001250 } }
     s.dev.tim.lost = false ∧ 1000 + 375000000 ≤ (s.at 0).tick) ∧
    (timed { lost := true }).dev.tim.lost = true ∧ ((timed {}).at 0).tick < nextCrossing (timed {}).dev.tim ∧
    ((timed { ppsFall := 1250001 }).at 0).tick < (timed { ppsFall := 1250001 }).dev.tim.ppsFall ∧
    writeAccepted ((timed {}).at 0) pageTim 0x048 (0xFFFFFFFFFFFF : Long).toNat = true := by
  refine ⟨by decide +kernel, by decide +kernel, by omega, ?_⟩
  decide +kernel
/-- An edge on a device that counts as PPS is to be followed, before its next second. -/
theorem witness_TimeOfDay_edge :
    let s : State := { timed { lastEdge := some (-100), holdover := true } [(pageTim, 0x040, 1)] with dev :=
      { (timed { lastEdge := some (-100), holdover := true } [(pageTim, 0x040, 1)]).dev with tick := 125000000 } }
    s.dev.tim.lastEdge = some (-100) ∧ (-100 : Int) + 125000000 ≤ ((s.at 0).tick : Int) ∧ s.dev.par.role ≠ roleStandby ∧
    s.dev.tim.base ≤ (s.at 0).tick ∧ (s.at 0).tick < nextCrossing s.dev.tim ∧ s.dev.flag pageTim 0x040 0 = true := by
  decide +kernel
theorem witness_Reads_latch : (timed { latch := some (1, 2 ^ 32 + 2, 3) }).dev.tim.latch = some (1, 2 ^ 32 + 2, 3) := rfl
theorem witness_Monitors :
    (let s := readyWith [ctlOn pageMon, (pageMon, 0x040, 100 * 2 ^ 16 + 105), (pageMon, 0x044, 115), (pageMon, 0x1A0, 1000)]
     s.dev.enabled pageMon = true ∧ s.dev.cycle % 20 = 0 ∧ s.dev.tick % 1250 = 0 ∧ s.dev.mon.oscDue.get (same 0) 7 ≤ (s.at 0).cycle ∧ s.dev.sfld pageMon 0x040 0 16 ≤ (105#16).toInt ∧
       s.dev.sfld pageMon 0x044 0 16 ≤ (115#16).toInt ∧ (99#16).toInt < s.dev.sfld pageMon 0x040 16 16 ∧
       s.dev.mon.warned.getLsbD 23 = false ∧ 999 < s.dev.fld pageMon 0x1A0 0 24 ∧ s.dev.mon.slow.getLsbD 7 = false) ∧
    (let s : State := { ready with dev := { readyDev with mon := { oscDue := [(7, 1001)] } } }
     (s.at 0).cycle < s.dev.mon.oscDue.get (same 0) 7) ∧
    (∀ p, p = { role := roleHolder, withStandby := true } ∨ p = { role := roleStandby } →
      let s := withPar (readyWith [ctlOn pageMon, (pageMon, 0x040, 100 * 2 ^ 16 + 105), (pageMon, 0x044, 115)]) p
      s.dev.enabled pageMon = true ∧ s.dev.sfld pageMon 0x040 16 16 ≤ (101#16).toInt ∧ s.dev.mon.crit = false ∧
      (101#16).toInt < s.dev.sfld pageMon 0x044 0 16 ∧ (s.dev.pairHolder = true ∨ s.dev.par.role = roleStandby)) ∧
    (readyWith [(pageMon, 0x008, 0)]).dev.enabled pageMon = false := by
  refine ⟨by decide +kernel, by decide +kernel, ?_, by decide +kernel⟩
  rintro p (rfl | rfl) <;> decide +kernel
/-! ### Worked examples of the spec -/

/-- What holds of the state an outcome gives. -/
def after (o : Host.Outcome State Fault Refusal) (p : State → Bool) : Bool :=
  match o with
  | .next t => p t
  | _ => false

/-- Chapter 2, a commit during heat 1,284: the second write of SCH_AGE_LIMIT, while group 0 is pending. -/
theorem test_registerWrite_pending :
    after (exec (.registerWrite 250 0xA044 4 100)
      { ready with dev := { readyDev with regs := { pend := [⟨0xA, 0, 1000, false⟩] } } })
      (fun t => t.dev.rfld 0xA 0x024 0 32 == 0x8500A044 && t.dev.pennant 0xA 31) = true := by decide +kernel
/-- Chapter 13, raising station 11's power: 14,400 written to MLD_PWR11 over 12,800 while the mould is sealed. -/
theorem test_mldLimitWrite_raise :
    after (exec (.mldLimitWrite 0 0x360 14400) (let s := readyWith [(pageMld, 0x008, 3), (pageMld, 0x360, 12800)]
      { s with dev := { s.dev with mould := { locked := true } } }))
      (fun t => t.dev.rfld pageMld 0x024 0 32 == 0x82003360 && mouldPower t.dev 11 == 12800) = true := by decide +kernel
/-- Chapter 5, cycle 2,000,000,000: island 1,207 takes 925 W and 282 W of idle power on station 11. -/
theorem test_ladle_example :
    ladleReservation (readyWith [(pageLdl, 0x100 + 4 * 11, 400 + 282 * 2 ^ 16)]).dev 11840 11 = 1207 := by decide +kernel
/-- Chapter 16, one archive address: subchannel B, rank 0, bank group 0, bank 3, row 17,383, column 24; the bank of row 17,382. -/
def wholeMemory : State := memory {} ([(pageMem, 0x040, 3)] ++ (List.range 5).map fun k => (pageMem, 0x1B0 + 4 * k, 0x0421 * 2 ^ k))
theorem test_address_example :
    memPlace wholeMemory.dev 0x21F3A4C40 = ⟨1, 0, 3, 17383, 24⟩ ∧
    (memPlace wholeMemory.dev (0x21F3A4C40 - 2 ^ 19)).bank = 1 := by decide +kernel

/-! ### One step each, by hand from the rule named -/

/-- R612: the latched words answer the reads that follow a read of TIM_TICK's low word. -/
theorem test_lowWordRead_latched :
    (∀ x ∈ [(0x064, 1), (0x070, 2), (0x078, 3)],
      after (exec (.lowWordRead 700 ⟨false, BitVec.ofNat 28 (wordAddr pageTim x.1), 4⟩) (timed { latch := some (1, 2 ^ 32 + 2, 3) }))
        (fun t => decide (t.dev.out = [.read (word x.2)])) = true) ∧
    after (exec (.lowWordRead 700 ⟨false, BitVec.ofNat 28 (wordAddr pageTim 0x070), 4⟩) (timed { latch := some (1, 2 ^ 32 + 2, 3) }))
      (fun t => t.dev.regs.rdHold.get (same (0, 0)) pageTim == (0x070, 1)) = true := by decide +kernel
/-- R177: the word of map cell (511, 511) at (511 * 512 + 511) * 4 of BAR2, ENERGY in bits 15:0, STAMP in bits 31:16. -/
theorem test_lowWordRead_map :
    after (exec (.lowWordRead 0 ⟨true, 0xFFFFC, 4⟩)
      { ready with dev := { readyDev with map := { cells := [(262143, { energy := 0x1234, stamp := 0x5678 })] } } })
      (fun t => decide (t.dev.out = [.bytes [0x34, 0x12, 0x78, 0x56]])) = true := by decide +kernel
/-- R22: the tick of a cycle start is the next multiple of 1,250. -/
theorem test_cycleStart_tick : after (exec (.cycleStart (Vector.replicate 16 0) 0) ready) (fun t => t.dev.tick == 1251250) = true := by
  decide +kernel

/-- R575: the consumer count of a ring goes no further than its producer count. -/
theorem test_consDoorbell_range :
    after (exec (.rngConsDoorbell 0 24 4) (readyWith [(pageRng 24, 0x008, 1), (pageRng 24, 0x048, 4), (pageRng 24, 0x04C, 3)]))
      (fun t => t.dev.rfld (pageRng 24) 0x024 31 1 == 1) = true := by decide +kernel
/-- R622: 1,200 tenths of a degree at sensor 5 halts the device. -/
theorem test_temperatureSample_halt :
    after (exec (.temperatureSample ((Vector.replicate 24 400).set 5 1200))
      (readyWith [(pageMon, 0x008, 1), (pageMon, 0x040, 1000 + 1100 * 2 ^ 16), (pageMon, 0x044, 1200)]))
      (fun t => t.dev.par.role == roleHalted && t.dev.rfld pageMon 0x0C0 0 32 == 1200 + 5 * 2 ^ 16) = true := by decide +kernel
/-- R615: 250,001,250 ticks between two edges: the local clock is fast by 5,000 parts in 10⁹, so f is -5,000. -/
theorem test_ppsEdge_frequency :
    after (exec (.ppsEdge 0) (let s := timed { lastEdge := some 1250 }
      { s with dev := { s.dev with tick := 250002500 } }))
      (fun t => t.dev.tim.freq == -5000) = true := by decide +kernel
/-- R477: 4,000 cycles without the partner's ensign, and a SEEKING device takes it and becomes HOLDER. -/
theorem test_ensignTake :
    after (exec .ensignTake (withPar ready { role := roleSeeking, ensignLow := 4000, sideB := true }))
      (fun t => t.dev.par.role == roleHolder) = true := by decide +kernel
/-- R592: a manual hoist stands in the log, and the next has the next number. -/
theorem test_recManualHoist :
    after (exec (.recManualHoist 100) (readyWith [ctlOn pageRec]))
      (fun t => (t.dev.advance 1250101).recorder.log.length == 1 && (t.dev.advance 1250101).recorder.serial == 1) = true := by decide +kernel
/-- R461: input 0, in use and open for longer than FILTER, latches the interlock. -/
theorem test_interlockLatch :
    after (exec (.interlockLatch 10) { (opened false) with dev := { (opened false).dev with mould :=
      { (opened false).dev.mould with latched := false } } }) (fun t => t.dev.mould.latched) = true := by decide +kernel
/-- R28: a write of 2 bytes is refused. -/
theorem test_registerWrite_width :
    after (exec (.registerWrite 0 0xA044 2 1) ready) (fun t => t.dev.pennant 0xA 31) = true := by decide +kernel
/-- R557: an ingot of zeros names width 0, which is no code. -/
theorem test_decode_illegal : decodeIngot [] (List.replicate 64 (0 : Byte)) = .error illegalCode := by decide +kernel

end Sys2Proof.Tests
end

section
/-! The start of a cycle, the watchdog and the peer pins: O30. -/
namespace Sys2Proof.Proofs
open Sys2Proof.Machine Sys2Proof.Laws

/-! ### Repetition -/

theorem upto_succ {α : Type} (n : Nat) (f : α → Nat → α) (x : α) : upto (n + 1) f x = f (upto n f x) n := by
  simp [upto, List.range_succ]

/-- What one further round keeps true of the number of rounds made holds after all of them. -/
theorem upto_induct {α : Type} {n : Nat} {f : α → Nat → α} {x : α} (P : Nat → α → Prop) (start : P 0 x)
    (round : ∀ k y, k < n → P k y → P (k + 1) (f y k)) : P n (upto n f x) := by
  induction n with
  | zero => exact start
  | succ n ih =>
    rw [upto_succ]
    exact round n _ (Nat.lt_succ_self n) (ih fun k y hk => round k y (Nat.lt_succ_of_lt hk))

/-- What every round keeps the value of, all of them do. -/
theorem upto_keeps {α β : Type} {n : Nat} {f : α → Nat → α} {x : α} (view : α → β) (round : ∀ y k, view (f y k) = view y) :
    view (upto n f x) = view x :=
  upto_induct (fun _ y => view y = view x) rfl fun k y _ h => (round y k).trans h

/-! ### Time -/


/-- A time within the current cycle does not change the cycle (R22). -/
theorem arrive_cycle (d : Dev) (t : Nat) : (d.arrive t).cycle = d.cycle := by
  simp only [Dev.cycle, arrive_tick]; omega

@[simp] theorem at_cycle (s : State) (t : Nat) : (s.at t).cycle = s.dev.cycle := arrive_cycle s.now t

theorem tick_lt_next (d : Dev) : d.tick < (d.cycle + 1) * 1250 := by
  simp only [Dev.cycle]; omega

/-- Nothing but the tick and reports changes while time goes on to the next cycle start (R594). -/
theorem same_advance_next (d : Dev) :
    SameButReports { d with tick := (d.cycle + 1) * 1250 } (d.advance ((d.cycle + 1) * 1250)) :=
  same_advance d _ (tick_lt_next d).le

/-! ### Reports beside other changes -/

/-- Two devices that differ in reports alone do so with the same registers and stations put into both. -/
theorem same_regs_stations {d e : Dev} (h : SameButReports d e) (f : RegFile) (t : Tab Station) :
    SameButReports { d with regs := f, stations := t } { e with regs := f, stations := t } :=
  { h with regs := sameRegs_refl _, stations := rfl }

/-! ### The parts of a cycle start -/

theorem releaseWrites_none (d : Dev) (h : d.par.heldWrites = []) : releaseWrites d = d := by
  unfold releaseWrites
  rw [h, List.foldl_nil, ← h]

theorem sampleSupplies_off (d : Dev) (r : Vector (BitVec 16) 16) (h : d.enabled pageMon = false) : sampleSupplies d r = d := by
  simp [sampleSupplies, h]

theorem mirrorStream_none (d : Dev) (h : d.mirror = none) : mirrorStream d = d := by
  simp [mirrorStream, h]

/-- A station whose gate the engine's rest closes (R473). -/
def shut (x : Station) : Station := { x with applied := {}, sent := {}, openSince := none, openBefore := x.openSince }

theorem stationOf_setStation (d : Dev) (s k : Nat) (x : Station) :
    stationOf (setStation d s x) k = if k = s then x else stationOf d k := get_set _ _ _ _ _

/-- `e` is `d` but for register words and stations. -/
def OnlyRegsStations (d e : Dev) : Prop := e = { d with regs := e.regs, stations := e.stations }

theorem onlyRegsStations_trans {a b c : Dev} (h : OnlyRegsStations a b) (k : OnlyRegsStations b c) : OnlyRegsStations a c := by
  unfold OnlyRegsStations at *; rw [k, h]

/-- The gates of the first `n` stations are closed, and nothing else changes. -/
theorem closeGates (n : Nat) (d : Dev) :
    OnlyRegsStations d (upto n closeGate d) ∧ (upto n closeGate d).regs = d.regs ∧
    ∀ k, stationOf (upto n closeGate d) k = if k < n then shut (stationOf d k) else stationOf d k := by
  refine upto_induct
    (fun m (e : Dev) => OnlyRegsStations d e ∧ e.regs = d.regs ∧
      ∀ k, stationOf e k = if k < m then shut (stationOf d k) else stationOf d k)
    ⟨rfl, rfl, fun k => by simp⟩ ?_
  rintro m e - ⟨only, regs, hk⟩
  refine ⟨onlyRegsStations_trans only rfl, regs, fun k => ?_⟩
  have hm : stationOf e m = stationOf d m := by simp [hk]
  rw [show closeGate e m = setStation e m (shut (stationOf e m)) from rfl, stationOf_setStation, hm, hk]
  rcases Nat.lt_trichotomy k m with h | rfl | h
  · simp [h, h.ne, Nat.lt_succ_of_lt h]
  · simp
  · simp [h.ne', show ¬ k < m by omega, show ¬ k < m + 1 by omega]

/-- A device that writes within one page leaves the words of every other page. -/
theorem setReg_read_page (d : Dev) {p off v a : Nat} (ho : off < 4096) (h : a / 4096 ≠ p) :
    (d.setReg p off v).regs.read a = d.regs.read a := by
  rw [setReg_read, if_neg]
  rintro rfl
  exact h (by unfold wordAddr; omega)

/-- Rebuilding LGY changes words of that page alone (R607). -/
theorem lgyRebuild_frame (d : Dev) :
    OnlyRegsStations d (lgyRebuild d) ∧ (lgyRebuild d).stations = d.stations ∧
    ∀ a, a / 4096 ≠ pageLgy → (lgyRebuild d).regs.read a = d.regs.read a := by
  have step (e : Dev) (off v : Nat) (ho : off < 4096)
      (he : OnlyRegsStations d e ∧ e.stations = d.stations ∧ ∀ a, a / 4096 ≠ pageLgy → e.regs.read a = d.regs.read a) :
      OnlyRegsStations d (e.setReg pageLgy off v) ∧ (e.setReg pageLgy off v).stations = d.stations ∧
        ∀ a, a / 4096 ≠ pageLgy → (e.setReg pageLgy off v).regs.read a = d.regs.read a :=
    ⟨onlyRegsStations_trans he.1 rfl, he.2.1, fun a ha => (setReg_read_page e ho ha).trans (he.2.2 a ha)⟩
  unfold lgyRebuild
  refine step _ _ _ (by decide) (step _ _ _ (by decide) ?_)
  exact upto_induct
    (fun _ (e : Dev) => OnlyRegsStations d e ∧ e.stations = d.stations ∧ ∀ a, a / 4096 ≠ pageLgy → e.regs.read a = d.regs.read a)
    ⟨rfl, rfl, fun _ _ => rfl⟩ fun k e hk he => step e _ _ (by omega) he

/-! ### HALTED (R476) -/

/-- What the steppers' stop leaves: everything but the steppers. -/
theorem stopSteppers_frame (d : Dev) : stopSteppers d = { d with stp := (stopSteppers d).stp } := by
  have axes : upto 12 (fun d x => setAxis d x (axisOff (axisOf d x))) d =
      { d with stp := (upto 12 (fun d x => setAxis d x (axisOff (axisOf d x))) d).stp } :=
    upto_induct (fun _ (e : Dev) => e = { d with stp := e.stp }) rfl fun k e _ he => by
      conv_lhs => rw [he]
      rfl
  unfold stopSteppers
  conv_lhs => rw [axes]

/-- A number that no rule states may take a free value, and takes nothing else. -/
theorem orFree_frame (d : Dev) (w : Nat) (v : Option Nat) : (orFree d w v).2 = { d with free := (orFree d w v).2.free } := by
  cases v <;> rfl

/-- A pair status record is a report but for the free values that it takes (R507). -/
theorem same_pairRecord (d : Dev) (kind : Nat) (cause partner : Option Nat) (h : kind < 8) :
    SameButReports { d with free := (pairRecord d kind cause partner).free } (pairRecord d kind cause partner) := by
  have free : ∃ n, (orFree (orFree d 16 cause).2 16 partner).2 = { d with free := n } :=
    ⟨_, by rw [orFree_frame (orFree d 16 cause).2, orFree_frame d]⟩
  obtain ⟨n, hn⟩ := free
  have k : SameButReports { d with free := n } (pairRecord d kind cause partner) := by
    unfold pairRecord
    dsimp only
    rw [hn]
    exact same_emit _ _ _ _ (by omega)
  rw [k.free]
  exact k

/-- A device enters another role: the role, PAR_LAST_TAKEOVER and a record; the rest stays (R507). -/
theorem setRole_frame (d : Dev) (role : Nat) (cause : Option Nat) (h : d.par.role ≠ role) :
    (setRole d role cause).par = { d.par with role := role } ∧ (setRole d role cause).boot = d.boot ∧
      (setRole d role cause).stp = d.stp ∧ (setRole d role cause).tick = d.tick ∧ (setRole d role cause).heats = d.heats ∧
      (setRole d role cause).lanes = d.lanes ∧ (setRole d role cause).mould = d.mould ∧ (setRole d role cause).dram = d.dram := by
  unfold setRole
  rw [if_neg h]
  have k := same_pairRecord (({ d with par := { d.par with role := role } } : Dev).setReg64 pagePar 0x090 d.cycle) 0 cause none
    (by decide)
  exact ⟨k.par, k.boot, k.stp, k.tick, k.heats, k.lanes, k.mould, k.dram⟩

/-- A device becomes HALTED: its role, the steppers stopped, HEALTH_OUT at 0; the work in progress stays (R476). -/
theorem halt_effect (d : Dev) (h : d.par.role ≠ roleHalted) :
    (halt d).par.role = roleHalted ∧ (halt d).boot.healthOut = false ∧ (halt d).stp.moves = [] ∧ (halt d).stp.waiting = [] ∧
      (halt d).tick = d.tick ∧ (halt d).heats = d.heats ∧ (halt d).lanes = d.lanes ∧ (halt d).mould = d.mould ∧
      (halt d).dram = d.dram := by
  have stopped := stopSteppers_frame d
  have moves : (stopSteppers d).stp.moves = [] := rfl
  have waiting : (stopSteppers d).stp.waiting = [] := rfl
  unfold halt watchdogOutputs
  generalize stopSteppers d = e at *
  have role : e.par.role ≠ roleHalted := by rwa [stopped]
  obtain ⟨par, boot, stp, tick, heats, lanes, mould, dram⟩ := setRole_frame
    { e with boot := { e.boot with healthOut := false }
             par := { e.par with yieldDue := none, yieldAfter := false, yieldMark := none, swapMark := false } }
    roleHalted none role
  refine ⟨by rw [par], by rw [boot], by rw [stp]; exact moves, by rw [stp]; exact waiting, tick.trans ?_, heats.trans ?_,
    lanes.trans ?_, mould.trans ?_, dram.trans ?_⟩ <;> rw [stopped]

/-! ### The cycle's commands -/

theorem exactly_cycleStart (s : State) (supplies : Vector (BitVec 16) 16) (head : BitVec 24) :
    AnswersExactly s (.cycleStart supplies head) (cycleStart s.now supplies head) :=
  exactly_of_onDev (f := fun d => cycleStart d supplies head) rfl

theorem exactly_watchdogCheck (s : State) (sent sram : Bool) :
    AnswersExactly s (.watchdogCheck sent sram) (watchdog s.now sent sram) :=
  exactly_of_onDev (f := fun d => watchdog d sent sram) rfl

/-- What is said of the device that a command leaves holds of its answer. -/
theorem answers_of_exactly {s : State} {i : Instr} {d : Dev} {P : State → Prop} (h : AnswersExactly s i d)
    (k : ∀ t : State, t.nv = s.nv → t.dev = d → P t) : Answers s i P :=
  answers_mono h fun t ht => k t ht.1 ht.2

/-- From boot step 2 on the tick goes to the next cycle start (R22). -/
theorem cycleStart_tick (d : Dev) (supplies : Vector (BitVec 16) 16) (head : BitVec 24) (h : 2 ≤ d.boot.stage) :
    (cycleStart d supplies head).tick = (d.cycle + 1) * 1250 := by
  unfold cycleStart
  rw [if_neg (by omega)]
  exact (same_advance_next d).tick

/-- On a device whose engine rests a cycle start closes the gates and rebuilds LGY (R22, R473, R607). -/
theorem cycleStart_resting (d : Dev) (supplies : Vector (BitVec 16) 16) (head : BitVec 24) (stage : 2 ≤ d.boot.stage)
    (engine : d.boot.engine = false) (haltAt : d.boot.haltAt = none) (mon : d.enabled pageMon = false)
    (held : d.par.heldWrites = []) (mirror : d.mirror = none) :
    cycleStart d supplies head =
      { lgyRebuild (upto 32 closeGate (d.advance ((d.cycle + 1) * 1250))) with
        tick := (d.advance ((d.cycle + 1) * 1250)).tick } := by
  have adv := same_advance_next d
  have restE : (d.advance ((d.cycle + 1) * 1250)).running = false := by simp [Dev.running, adv.boot, engine]
  have haltE : (d.advance ((d.cycle + 1) * 1250)).boot.haltAt = none := by rw [adv.boot]; exact haltAt
  have monE : (d.advance ((d.cycle + 1) * 1250)).enabled pageMon = false :=
    (congrArg (fun w : Word => bit w.toNat 0) (adv.regs.inUse (wordAddr pageMon 0x008) (by decide))).trans mon
  unfold cycleStart
  rw [if_neg (by omega)]
  dsimp only
  generalize d.advance ((d.cycle + 1) * 1250) = e at *
  rw [haltE]
  simp only [restE, Bool.false_eq_true, if_false]
  have closed : OnlyRegsStations e (upto 32 closeGate e) := (closeGates 32 e).1
  have closedRegs : (upto 32 closeGate e).regs = e.regs := (closeGates 32 e).2.1
  generalize upto 32 closeGate e = c at *
  have par : c.par = e.par := by rw [closed]
  have monC : c.enabled pageMon = false := by rw [Dev.enabled, Dev.flag, closedRegs]; exact monE
  have mirrorC : (lgyRebuild c).mirror = none :=
    (congrArg Dev.mirror (onlyRegsStations_trans closed (lgyRebuild_frame c).1)).trans (adv.mirror.trans mirror)
  rw [releaseWrites_none c (by rw [par, adv.par]; exact held), sampleSupplies_off c supplies monC, mirrorStream_none _ mirrorC]

/-- What such a cycle start leaves (R22, R473). -/
theorem cycleStart_resting_effect (d : Dev) (supplies : Vector (BitVec 16) 16) (head : BitVec 24) (stage : 2 ≤ d.boot.stage)
    (engine : d.boot.engine = false) (haltAt : d.boot.haltAt = none) (mon : d.enabled pageMon = false)
    (held : d.par.heldWrites = []) (mirror : d.mirror = none) :
    let e := cycleStart d supplies head
    (∀ a, a / 4096 ≠ pageLgy → reportWord a = false → e.regs.read a = d.regs.read a) ∧
    (∀ k, k < 32 → stationOf e k = shut (stationOf d k)) ∧
    SameButReports { d with tick := (d.cycle + 1) * 1250, regs := e.regs, stations := e.stations } e := by
  have adv := same_advance_next d
  rw [cycleStart_resting d supplies head stage engine haltAt mon held mirror]
  generalize d.advance ((d.cycle + 1) * 1250) = e at *
  obtain ⟨closed, closedRegs, gates⟩ := closeGates 32 e
  generalize upto 32 closeGate e = c at *
  obtain ⟨lgy, lgyStations, words⟩ := lgyRebuild_frame c
  have only : OnlyRegsStations e { lgyRebuild c with tick := e.tick } := by
    have h := onlyRegsStations_trans closed lgy
    generalize lgyRebuild c = l at h
    rw [h]; rfl
  generalize lgyRebuild c = l at *
  refine ⟨fun a page report => ?_, fun k hk => ?_, ?_⟩
  · exact (words a page).trans (by rw [closedRegs]; exact adv.regs.read a report)
  · calc (l.stations.get (same {}) k : Station)
        = stationOf c k := by rw [lgyStations]; rfl
      _ = shut (stationOf e k) := by rw [gates, if_pos hk]
      _ = shut (stationOf d k) := by rw [stationOf, adv.stations]; rfl
  · have k := same_regs_stations adv l.regs l.stations
    rw [only]
    exact k

/-- A device on which the cycle's frames were not sent becomes HALTED (R476). -/
theorem watchdog_trips (d : Dev) (sent sram : Bool) (run : d.running = true)
    (cause : sent = false ∨ framesMissing d = true ∨ sram = true) : watchdog d sent sram = halt (d.arrive 1100) := by
  unfold watchdog
  rw [if_pos]
  rcases cause with rfl | h | rfl <;> simp [*]

theorem watchdog_rests (d : Dev) (sent sram : Bool)
    (fine : d.running = false ∨ sent = true ∧ framesMissing d = false ∧ sram = false) : watchdog d sent sram = d := by
  unfold watchdog
  rw [if_neg]
  rcases fine with h | ⟨rfl, h, rfl⟩ <;> simp [h]

theorem running_not_halted {d : Dev} (h : d.running = true) : d.par.role ≠ roleHalted := by
  simp only [Dev.running, Bool.and_eq_true, bne_iff_ne] at h
  exact h.2

/-- Settles O30: each of the three commands by the lemma on its operation. -/
theorem cycle : Obligations.Cycle := by
  unfold Obligations.Cycle
  refine ⟨fun s supplies head => ⟨fun early => ?_, fun stage => ?_, fun stage engine haltAt mon held mirror => ?_⟩,
    fun s sent sram => ⟨fun run cause => ?_, fun fine => ?_⟩, fun s health ensign engine => ?_⟩
  · have idle : cycleStart s.now supplies head = s.now := by
      unfold cycleStart
      exact if_pos early
    exact idle ▸ answers_cycleStart s supplies head
  · refine answers_of_exactly (exactly_cycleStart s supplies head) fun t nv dev => ⟨nv, ?_, ?_⟩
    · rw [dev]; exact cycleStart_tick s.now supplies head stage
    · rw [Dev.cycle, dev, cycleStart_tick s.now supplies head stage]
      exact Nat.mul_div_cancel _ (by decide)
  · refine answers_of_exactly (exactly_cycleStart s supplies head) fun t nv dev => ⟨nv, ?_⟩
    rw [dev]
    exact cycleStart_resting_effect s.now supplies head stage engine haltAt mon held mirror
  · refine answers_of_exactly (exactly_watchdogCheck s sent sram) fun t nv dev => ⟨nv, ?_⟩
    rw [dev, watchdog_trips s.now sent sram run cause]
    have role : (s.at 1100).par.role ≠ roleHalted := by
      rw [State.at, arrive_par]
      exact running_not_halted run
    obtain ⟨halted, health, moves, waiting, tick, heats, lanes, mould, dram⟩ := halt_effect (s.at 1100) role
    exact ⟨halted, health, moves, waiting, tick, heats.trans (arrive_heats _ _), lanes.trans (arrive_lanes _ _),
      mould.trans (arrive_mould _ _), dram.trans (arrive_dram _ _)⟩
  · exact watchdog_rests s.now sent sram fine ▸ answers_watchdogCheck s sent sram
  · have sampled := answers_peerPinSample s health ensign
    have boot : (s.at 1150).boot.engine = true := by rw [State.at, arrive_boot]; exact engine
    have par : (s.at 1150).par = s.dev.par := arrive_par _ _
    rw [samplePins, if_pos boot, par] at sampled
    exact sampled

end Sys2Proof.Proofs
end

section
/-! The refutation of O32. -/
namespace Sys2Proof.Proofs
open Sys2Proof.Machine Sys2Proof.Laws

/-- A finished heat whose record goes to ring 64, which does not exist; that ring's queue is full of ISLAND_DONE records. -/
def boundaryRun : Run := { heat := { ring := 16 }, started := 0, spread := true, stroke := 4 }

def fullQueue : State :=
  { dev := {
      tick := 1250
      boot := { engine := true }
      par := { role := roleAlone }
      heats := { running := some boundaryRun, staged := [{}] }
      rings := [(64, { queue := List.replicate 256 { data := 0, bitmap := 0, withMap := false, kind := .islandDone } })] } }

/-- The count of lost records that a ring 64 would have; it is no word of reporting. -/
def lostWord64 : Nat := wordAddr (pageRng 64) 0x074

theorem lostWord64_not_reportWord : reportWord lostWord64 = false := by decide +kernel

theorem fullQueue_counts_loss :
    ((declareBoundary fullQueue.now).regs.read lostWord64) = 1 := by decide +kernel

theorem fullQueue_due : boundaryDue fullQueue.dev = true := by decide +kernel

/-- Refutes O32: the boundary clause says that the boundary changes no register word but those of reporting, for heats of every
ring number. -/
theorem not_heatRun : ¬ Obligations.HeatRun := by
  rintro ⟨-, -, -, boundary, -, -⟩
  obtain ⟨t, ht, -, -, claimed⟩ := boundary fullQueue boundaryRun rfl fullQueue_due (by decide) rfl
  obtain ⟨u, hu, -, -, actual⟩ := answers_heatBoundary fullQueue
  cases ht.symm.trans hu
  have kept := claimed.regs.read _ lostWord64_not_reportWord
  have counted := actual.regs.read _ lostWord64_not_reportWord
  rw [if_pos (show boundaryDue fullQueue.now = true from fullQueue_due), fullQueue_counts_loss] at counted
  exact absurd (kept.symm.trans counted) (by decide +kernel)

end Sys2Proof.Proofs
end

section
namespace Sys2Proof.Proofs
open Sys2Proof.Machine Sys2Proof.Laws

/-- What the computation of a cycle leaves alone outside the servo windows and the dispatcher: the axes, the interlock's latch and the decision. -/
def held (d : Dev) : Tab Axis × Bool × Option Decision := (d.axes, d.mould.latched, d.sched.decision)

/-- The same with the gates of the next cycle: which stations' frames emit. -/
def gates (d : Dev) : (Nat → Bool) × Tab Axis × Bool × Option Decision := (fun k => (stationOf d k).sent.emits, held d)

theorem gates_of_fields {d e : Dev} (stations : e.stations = d.stations) (axes : e.axes = d.axes) (mould : e.mould = d.mould)
    (sched : e.sched = d.sched) : gates e = gates d := by
  simp only [gates, held, stationOf, stations, axes, mould, sched]

theorem gates_of_same {d e : Dev} (h : SameButReports d e) : gates e = gates d :=
  gates_of_fields h.stations h.axes h.mould h.sched

/-- The gates that the view shows. -/
theorem emits_of_gates (d : Dev) (k : Nat) : (stationOf d k).sent.emits = (gates d).1 k := rfl


@[simp] theorem gates_setReg (d : Dev) (p off v : Nat) : gates (d.setReg p off v) = gates d := rfl
@[simp] theorem gates_setReg64 (d : Dev) (p off v : Nat) : gates (d.setReg64 p off v) = gates d := rfl
@[simp] theorem gates_setFld (d : Dev) (p off lo w v : Nat) : gates (d.setFld p off lo w v) = gates d := rfl
@[simp] theorem gates_addCount (d : Dev) (p off n : Nat) : gates (d.addCount p off n) = gates d := rfl
@[simp] theorem gates_count (d : Dev) (p off : Nat) : gates (d.count p off) = gates d := rfl
@[simp] theorem gates_setRing (d : Dev) (r : Nat) (x : Ring) : gates (setRing d r x) = gates d := rfl
@[simp] theorem gates_setPen (d : Dev) (p b : Nat) : gates (setPen d p b) = gates d := gates_of_same (same_setPen d p b)
@[simp] theorem gates_enqueue (d : Dev) (r : Nat) (q : QRec) : gates (enqueue d r q).1 = gates d :=
  gates_of_same (same_enqueue d r q)
@[simp] theorem gates_pushEvent (d : Dev) (r : Nat) (w : Window) : gates (pushEvent d r w).1 = gates d :=
  gates_of_same (same_pushEvent d r w)
@[simp] theorem gates_keep (d : Dev) (k : Kept) : gates (keep d k) = gates d := gates_of_same (same_keep d k)
@[simp] theorem gates_countDrop (d : Dev) (r : Nat) : gates (countDrop d r).1 = gates d := by simp [countDrop]

/-- A report leaves it alone where its delivery does, whatever the ring. -/
theorem gates_reportVia {f : Dev → Nat → Window → Dev} (quiet : ∀ d r w, gates (f d r w) = gates d) (d : Dev)
    (p cls sev code payload : Nat) : gates (reportVia f d p cls sev code payload) = gates d := by
  have route (d : Dev) (w : Window) : gates (routeEvent f d w) = gates d := by
    unfold routeEvent
    split
    · exact gates_keep _ _
    · exact quiet _ _ _
  unfold reportVia
  split
  · rfl
  extract_lets _ block multi _ w
  split
  · exact route d w
  split
  · rfl
  split
  · rfl
  · exact route (d.count pageEvq 0x064) w

@[simp] theorem gates_ringLost (d : Dev) (r : Nat) : gates (ringLost d r) = gates d := by
  have plain : ∀ d r w, gates (deliverPlain d r w) = gates d := fun d r w => by
    unfold deliverPlain; dsimp only; split <;> simp
  unfold ringLost
  dsimp only
  split <;> simp [gates_reportVia plain]

@[simp] theorem gates_report (d : Dev) (p cls sev code payload : Nat) : gates (report d p cls sev code payload) = gates d :=
  gates_reportVia (fun d r w => by unfold deliver; dsimp only; split <;> simp) d p cls sev code payload

@[simp] theorem gates_raise (d : Dev) (p b cls sev code payload : Nat) : gates (raise d p b cls sev code payload) = gates d := by
  unfold raise; dsimp only; split <;> simp

@[simp] theorem gates_raiseLimited (d : Dev) (once : Bool) (p b cls sev code payload : Nat) :
    gates (raiseLimited d once p b cls sev code payload) = gates d := by
  unfold raiseLimited; split <;> simp

@[simp] theorem gates_emitShared (d : Dev) (r : Nat) (kind : RecKind) (data : Nat) : gates (emitShared d r kind data) = gates d := by
  unfold emitShared emit; dsimp only; repeat' split
  all_goals simp

@[simp] theorem gates_statusReport (d : Dev) (st heat index : Nat) : gates (statusReport d st heat index) = gates d := by
  unfold statusReport; dsimp only; repeat' split
  all_goals simp

@[simp] theorem gates_setRun (d : Dev) (x : Run) : gates (setRun d x) = gates d := rfl
@[simp] theorem gates_updRun (d : Dev) (f : Run → Run) : gates (updRun d f) = gates d := rfl
@[simp] theorem gates_islandDone (d : Dev) (x : Run) (key final status : Nat) (station : Option Nat) :
    gates (islandDone d x key final status station) = gates d := by
  unfold islandDone; dsimp only; split <;> simp

theorem gates_foldl {α : Type} (f : Dev → α → Dev) (h : ∀ d x, gates (f d x) = gates d) (l : List α) (d : Dev) :
    gates (l.foldl f d) = gates d := by
  induction l generalizing d with
  | nil => rfl
  | cons x l ih => exact (ih _).trans (h d x)

theorem gates_upto (n : Nat) (f : Dev → Nat → Dev) (h : ∀ d k, gates (f d k) = gates d) (d : Dev) :
    gates (upto n f d) = gates d := gates_foldl f h _ _

/-! ### The line head -/

@[simp] theorem gates_setFiring (d : Dev) (f : Firing) : gates (setFiring d f) = gates d := rfl
@[simp] theorem gates_setAccums (d : Dev) (m : Nat) (l : List Accum) : gates (setAccums d m l) = gates d := rfl
@[simp] theorem gates_setModule (d : Dev) (m : Nat) (x : LineModule) : gates (setModule d m x) = gates d := rfl
@[simp] theorem gates_setStrobe (d : Dev) (s : Strobe) : gates (setStrobe d s) = gates d := rfl
@[simp] theorem gates_mergeInUse (d : Dev) (p off v m : Nat) : gates (d.mergeInUse p off v m) = gates d := rfl
@[simp] theorem gates_mergeRead (d : Dev) (p off v m : Nat) : gates (d.mergeRead p off v m) = gates d := rfl

theorem gates_mergeWide {f : Dev → Nat → Nat → Nat → Nat → Dev} (h : ∀ d p off v m, gates (f d p off v m) = gates d) (d : Dev)
    (p off v m : Nat) (wide : Bool) : gates (Dev.mergeWide f d p off v m wide) = gates d := by
  unfold Dev.mergeWide
  dsimp only
  split
  · exact (h _ _ _ _ _).trans (h _ _ _ _ _)
  · exact h _ _ _ _ _

@[simp] theorem gates_takeGroup (d : Dev) (p g : Nat) : gates (takeGroup d p g) = gates d := by
  unfold takeGroup
  split
  · rfl
  · refine gates_foldl _ (fun d r => ?_) _ _
    extract_lets m
    split
    · rfl
    · refine gates_upto _ _ (fun d j => ?_) _
      exact (gates_mergeWide gates_mergeRead _ _ _ _ _ _).trans (gates_mergeWide gates_mergeInUse _ _ _ _ _ _)

@[simp] theorem gates_strandIslands (d : Dev) : gates (strandIslands d) = gates d := by
  unfold strandIslands
  split
  · rfl
  · refine gates_foldl _ (fun d k => ?_) _ _
    split <;> simp

@[simp] theorem gates_abandonIslands (d : Dev) (keys : List Nat) : gates (abandonIslands d keys) = gates d := by
  refine gates_foldl _ (fun d k => ?_) _ _
  split <;> simp

@[simp] theorem gates_addPatch (d : Dev) (box : CellBox) (pours : List (BitVec 256)) : gates (addPatch d box pours) = gates d := by
  unfold addPatch
  split
  · rfl
  · dsimp only
    split <;> simp

@[simp] theorem gates_patchOverflow (d : Dev) (pass first last : Nat) : gates (patchOverflow d pass first last) = gates d :=
  gates_raise _ _ _ _ _ _ _

@[simp] theorem gates_buildPatch (d : Dev) (a : Accum) : gates (buildPatch d a) = gates d := by
  unfold buildPatch
  dsimp only
  repeat' split
  all_goals simp

@[simp] theorem gates_gatherGap (d : Dev) (e : Entry) (g : Gap) : gates (gatherGap d e g) = gates d := by
  unfold gatherGap
  dsimp only
  repeat' split
  all_goals simp

@[simp] theorem gates_takeGaps (d : Dev) (f : Firing) (gaps : List Gap) : gates (takeGaps d f gaps) = gates d := by
  have segments (n : Nat → Nat) (l : List Nat) (e : Dev) :
      gates (l.foldl (fun d s => if n s = 0 then d else d.addCount (pageSeg s) 0x06C (n s)) e) = gates e :=
    gates_foldl _ (fun d s => by split <;> rfl) _ _
  unfold takeGaps
  dsimp only
  split
  · rfl
  · split
    · exact (gates_foldl _ (fun d g => gates_gatherGap d _ g) _ _).trans (segments _ _ _)
    · exact segments _ _ _

@[simp] theorem gates_lateGaps (d : Dev) (f : Firing) (k : Nat) (b : Strobe) : gates (lateGaps d f k b) = gates d := by
  unfold lateGaps lateUnpatched
  split <;> simp

@[simp] theorem gates_clampWidth (d : Dev) (g : Nat) : gates (clampWidth d g) = gates d := gates_raiseLimited _ _ _ _ _ _ _ _

@[simp] theorem gates_widthClamps (d : Dev) (e : Entry) (k : Nat) (s : Strobe) (q : Nat → Nat → Bool) :
    gates (widthClamps d e k s q) = gates d := by
  unfold widthClamps
  exact gates_foldl _ (fun d r => (gates_clampWidth _ _).trans (gates_addCount _ _ _ _)) _ _

@[simp] theorem gates_lineGroups (d : Dev) : gates (lineGroups d) = gates d := by
  refine gates_foldl _ (fun d x => ?_) _ _
  repeat' split
  all_goals simp

@[simp] theorem gates_derateStep (d : Dev) (g : Nat) : gates (derateStep d g) = gates d := by
  unfold derateStep
  dsimp only
  repeat' split
  · exact gates_raise _ _ _ _ _ _ _
  · rfl
  · rfl

@[simp] theorem gates_supplyLow (d : Dev) (g : Nat) : gates (supplyLow d g) = gates d := by
  unfold supplyLow
  dsimp only
  split <;> simp

@[simp] theorem gates_lateLine (d : Dev) (e : Entry) (j : Nat) : gates (lateLine d e j) = gates d := gates_raise _ _ _ _ _ _ _

theorem gates_lhd (d : Dev) (x : LineHead) : gates { d with lhd := x } = gates d := rfl

@[simp] theorem gates_latchStrobe (d : Dev) (f : Firing) (t : Nat) : gates (latchStrobe d f t) = gates d := by
  unfold latchStrobe
  extract_lets d0 j e count on dev d1 f1 late d2 f2 d3 off lim lateB kill blankA blankB s l3 d4 d5 rowA dead rowB lost firedA firedB d6
    d7a d7 out l7 d8
  have h0 : gates d0 = gates d := gates_lineGroups d
  have h1 : gates d1 = gates d := by
    clear_value d0 dev
    unfold d1; split <;> simp [h0]
  have h2 : gates d2 = gates d := by
    clear_value d1
    unfold d2; split <;> simp [h1]
  have h3 : gates d3 = gates d := (gates_upto _ _ (fun d g => by simp) _).trans h2
  clear_value d3
  have h4 : gates d4 = gates d := (gates_setFiring _ _).trans ((gates_lhd d3 _).trans h3)
  clear_value d4
  have h5 : gates d5 = gates d := (gates_setFld _ _ _ _ _ _).trans ((gates_setFld _ _ _ _ _ _).trans h4)
  clear_value d5
  have h6 : gates d6 = gates d := (gates_takeGaps _ _ _).trans h5
  clear_value d6
  have h7a : gates d7a = gates d := by
    unfold d7a; split <;> simp [h6]
  clear_value d7a
  have h7 : gates d7 = gates d := by
    unfold d7; split <;> simp [h7a]
  clear_value d7
  have h8 : gates d8 = gates d := (gates_lhd d7 _).trans h7
  split
  · exact (gates_lateGaps _ _ _ _).trans h8
  · exact h8

@[simp] theorem gates_codeMiss (d : Dev) (m rows strobe : Nat) : gates (codeMiss d m rows strobe) = gates d := by
  unfold codeMiss
  split
  · rfl
  · dsimp only
    split <;> simp

@[simp] theorem gates_cutNew (d : Dev) (g strobe offset : Nat) : gates (cutNew d g strobe offset) = gates d := by
  unfold cutNew
  dsimp only
  split <;> simp

@[simp] theorem gates_measureEmitter (d : Dev) (m index vf : Nat) : gates (measureEmitter d m index vf) = gates d := by
  unfold measureEmitter
  dsimp only
  split
  · exact (gates_raise _ _ _ _ _ _ _).trans rfl
  · rfl

@[simp] theorem gates_moduleUplink (d : Dev) (m : Nat) : gates (moduleUplink d m) = gates d := by
  unfold moduleUplink
  dsimp only
  split
  · simp
  · rw [apply_ite gates, gates_measureEmitter, ite_self]
    refine (gates_upto _ _ (fun d i => ?_) _).trans (by simp)
    simp [apply_ite gates]

@[simp] theorem gates_lineHeadCycle (d : Dev) : gates (lineHeadCycle d) = gates d := by
  unfold lineHeadCycle
  dsimp only
  repeat' split
  all_goals simp [gates_upto, ↓gates_lhd]

end Sys2Proof.Proofs
end

section
namespace Sys2Proof.Proofs
open Sys2Proof.Machine Sys2Proof.Laws

/-! ### Traces -/

@[simp] theorem gates_setTrace (d : Dev) (c : Nat) (x : Trace) : gates (setTrace d c x) = gates d := rfl

theorem gates_of_onlyDram {d e : Dev} (h : OnlyDram d e) : gates e = gates d := by
  rw [h]; rfl

@[simp] theorem gates_dramWrite (d : Dev) (port a : Nat) (bs : List Byte) (c : DramClient) : gates (dramWrite d port a bs c) = gates d :=
  gates_of_onlyDram (dramWrite_onlyDram d port a bs c)
@[simp] theorem gates_dramRead (d : Dev) (port a n : Nat) (use : TransferUse) : gates (dramRead d port a n use).2 = gates d :=
  gates_of_onlyDram (dramRead_onlyDram d port a n use)

theorem gates_dram (d : Dev) (x : Dram) : gates { d with dram := x } = gates d := rfl

@[simp] theorem gates_traceDone (d : Dev) (c samples : Nat) (data : Option (List Byte)) :
    gates (traceDone d c samples data) = gates d := by
  unfold traceDone
  dsimp only
  repeat' split
  all_goals simp

@[simp] theorem gates_writeTrace (d : Dev) (c flags index : Nat) (ss : List (Nat × Word)) :
    gates (writeTrace d c flags index ss) = gates d := by
  unfold writeTrace
  split
  · rfl
  · suffices h : ∀ (a : Nat) (e : Dev) (bs : List Byte), gates e = gates d →
        gates (match dramRead (dramWrite e 5 (traceBase + a) bs) 5 (traceBase + a) 32 (.trace c ss.length) with
          | (none, d2) => traceDone d2 c ss.length (some (List.replicate 32 0))
          | (some _, d2) => d2) = gates d from h _ _ _ (gates_dram d _)
    intro a e bs he
    have staged := (gates_dramRead (dramWrite e 5 (traceBase + a) bs) 5 (traceBase + a) 32 (.trace c ss.length)).trans
      ((gates_dramWrite _ _ _ _ _).trans he)
    revert staged
    generalize dramRead _ _ _ _ _ = r
    obtain ⟨_ | _, e⟩ := r
    · exact (gates_traceDone e c _ _).trans
    · exact id

@[simp] theorem gates_writeSnapshot (d : Dev) (c : Nat) : gates (writeSnapshot d c) = gates d := by
  unfold writeSnapshot
  dsimp only
  generalize groupFour 1024 _ = recs
  suffices h : ∀ (l : List (List (Nat × Word))) (n : Nat) (F : Dev × Nat → List (Nat × Word) → Dev × Nat),
      (∀ a r, gates (F a r).1 = gates a.1) → ∀ a, gates (l.foldl F a).1 = gates a.1 from
    (h recs 0 _ (fun a r => gates_writeTrace _ _ _ _ _) _).trans (gates_setTrace d c _)
  intro l _ F hF
  induction l with
  | nil => exact fun a => rfl
  | cons r l ih => exact fun a => (ih (F a r)).trans (hF a r)

@[simp] theorem gates_traceSample (d : Dev) (c : Nat) (fires : Bool) : gates (traceSample d c fires) = gates d := by
  unfold traceSample
  dsimp only
  repeat' split
  all_goals simp

@[simp] theorem gates_traceCycle (d : Dev) : gates (traceCycle d) = gates d :=
  gates_upto _ _ (fun _ _ => gates_traceSample _ _ _) _

/-! ### The mould's denials and clamps -/

@[simp] theorem gates_denyField (d : Dev) (s : Nat) (x : Int) : gates (denyField d s x) = gates d :=
  (gates_raiseLimited _ _ _ _ _ _ _ _).trans rfl
@[simp] theorem gates_denySpeed (d : Dev) (s v : Nat) : gates (denySpeed d s v) = gates d :=
  (gates_raiseLimited _ _ _ _ _ _ _ _).trans rfl
@[simp] theorem gates_denyCell (d : Dev) (s col row : Nat) : gates (denyCell d s col row) = gates d :=
  (gates_raiseLimited _ _ _ _ _ _ _ _).trans rfl
@[simp] theorem gates_clampPower (d : Dev) (s cmd : Nat) : gates (clampPower d s cmd) = gates d :=
  (gates_raiseLimited _ _ _ _ _ _ _ _).trans rfl

@[simp] theorem gates_mouldDenies (d : Dev) (s : Nat) (x y px py : Int) (vv ll v : Nat) (cell : Option Nat) :
    gates (mouldDenies d s x y px py vv ll v cell).2 = gates d := by
  cases cell <;> simp [mouldDenies, apply_ite gates]

@[simp] theorem gates_mouldCheck (d : Dev) (s : Nat) : gates (mouldCheck d s).2 = gates d := by
  unfold mouldCheck
  extract_lets st px py lim sq c r
  show gates r.2 = gates d
  exact gates_mouldDenies d s _ _ px py sq (lim * lim) _ _

@[simp] theorem gates_limitPower (d : Dev) (s cmd : Nat) : gates (limitPower d s cmd).2 = gates d := by
  unfold limitPower
  split <;> simp

end Sys2Proof.Proofs
end

section
namespace Sys2Proof.Proofs
open Sys2Proof.Machine Sys2Proof.Laws

/-! ### Stations -/

/-- The view once station `s` emits or not, as `b` says. -/
def reframe {α : Type} (s : Nat) (b : Bool) (g : (Nat → Bool) × α) : (Nat → Bool) × α := (fun k => if k = s then b else g.1 k, g.2)

@[simp] theorem reframe_same {α : Type} (s : Nat) (b : Bool) (g : (Nat → Bool) × α) : (reframe s b g).1 s = b := if_pos rfl
theorem reframe_other {α : Type} {s k : Nat} (h : k ≠ s) (b : Bool) (g : (Nat → Bool) × α) : (reframe s b g).1 k = g.1 k := if_neg h
@[simp] theorem reframe_self {α : Type} (s : Nat) (g : (Nat → Bool) × α) : reframe s (g.1 s) g = g := by
  refine Prod.ext (funext fun k => ?_) rfl
  by_cases h : k = s
  · rw [h, reframe_same]
  · exact reframe_other h _ _
@[simp] theorem reframe_reframe {α : Type} (s : Nat) (b c : Bool) (g : (Nat → Bool) × α) : reframe s b (reframe s c g) = reframe s b g := by
  refine Prod.ext (funext fun k => ?_) rfl
  by_cases h : k = s
  · rw [h, reframe_same, reframe_same]
  · rw [reframe_other h, reframe_other h, reframe_other h]

/-- A station's change reaches its own gate alone. -/
@[simp] theorem gates_setStation (d : Dev) (s : Nat) (x : Station) : gates (setStation d s x) = reframe s x.sent.emits (gates d) := by
  refine Prod.ext (funext fun k => ?_) rfl
  show (stationOf (setStation d s x) k).sent.emits = _
  rw [stationOf_setStation]
  by_cases h : k = s
  · rw [if_pos h, h, reframe_same]
  · rw [if_neg h, reframe_other h]
    rfl

@[simp] theorem gates_cmpEnds (d : Dev) (s b sev code : Nat) (coord : Int) : gates (cmpEnds d s b sev code coord) = gates d := by
  simp [cmpEnds, emits_of_gates]

@[simp] theorem gates_spotCompare (d : Dev) (s : Nat) : gates (spotCompare d s) = gates d := by
  unfold spotCompare
  dsimp only
  repeat' split
  all_goals simp [emits_of_gates]

@[simp] theorem gates_meltLoop (d : Dev) (s : Nat) : gates (meltLoop d s) = gates d := by
  unfold meltLoop
  extract_lets st _ _
  split
  · simp [st, emits_of_gates]
  · split
    · simp [st, emits_of_gates]
    · extract_lets n lo hi src level cam y set e raw k hit d1
      have cam_sent : cam.1.sent = st.sent := by
        unfold cam; split <;> rfl
      have h1 : gates d1 = gates d := by
        simp [d1, y, cam_sent, st, emits_of_gates]
      split
      · exact (gates_raise _ _ _ _ _ _ _).trans h1
      · exact h1

@[simp] theorem gates_reportHold (d : Dev) (s : Nat) (c : HoldCause × Nat) : gates (reportHold d s c) = gates d := by
  unfold reportHold
  split <;> simp

@[simp] theorem gates_yieldStation (d : Dev) (s : Nat) (c : HoldCause × Nat) (t1 : Nat) : gates (yieldStation d s c t1) = gates d := by
  unfold yieldStation
  dsimp only
  repeat' split
  all_goals simp [emits_of_gates]

@[simp] theorem gates_checkYield (d : Dev) (s t1 : Nat) : gates (checkYield d s t1) = gates d := by
  unfold checkYield
  dsimp only
  repeat' split
  all_goals simp

@[simp] theorem gates_starve (d : Dev) (s : Nat) : gates (starve d s) = gates d := by
  unfold starve
  dsimp only
  split <;> simp [emits_of_gates]

@[simp] theorem gates_holdStarved (d : Dev) (s : Nat) : gates (holdStarved d s) = gates d := by
  simp [holdStarved, emits_of_gates]

@[simp] theorem gates_countShortPour (d : Dev) (s i : Nat) : gates (countShortPour d s i) = gates d := by
  unfold countShortPour
  dsimp only
  split <;> simp [emits_of_gates]

@[simp] theorem gates_beginMark (d : Dev) (s i : Nat) (p : BitVec 256) (t : Nat) (v0 : Int) : gates (beginMark d s i p t v0) = gates d := by
  unfold beginMark
  dsimp only
  split <;> simp [emits_of_gates]

@[simp] theorem gates_firstPour (d : Dev) (s : Nat) (p : BitVec 256) : gates (firstPour d s p) = gates d := by
  simp [firstPour, emits_of_gates]

@[simp] theorem jumpToPour_sent (d : Dev) (s : Nat) (st : Station) (i : Nat) (p : BitVec 256) (k : Kin) (f0 : Int) (t : Nat) :
    (jumpToPour d s st i p k f0 t).sent = st.sent := rfl
@[simp] theorem jumpToRest_sent (d : Dev) (s : Nat) (st : Station) (x y : Int) (k : Kin) (f0 f1 : Int) (t : Nat) :
    (jumpToRest d s st x y k f0 f1 t).sent = st.sent := rfl
@[simp] theorem stopPath_sent (d : Dev) (s : Nat) (st : Station) (k : Kin) (f vf : Int) (t : Nat) :
    (stopPath d s st k f vf t).sent = st.sent := rfl

@[simp] theorem gates_nextTarget (d : Dev) (s : Nat) (k : Kin) (ex ey f0 : Int) (t : Nat) : gates (nextTarget d s k ex ey f0 t) = gates d := by
  unfold nextTarget
  dsimp only
  repeat' split
  all_goals simp [emits_of_gates]

@[simp] theorem gates_brakeCheck (d : Dev) (s t t2 : Nat) : gates (brakeCheck d s t t2) = gates d := by
  unfold brakeCheck
  dsimp only
  repeat' split
  all_goals simp [emits_of_gates]

@[simp] theorem gates_chainOn (s t1 n : Nat) (d : Dev) : gates (chainOn s t1 n d) = gates d := by
  induction n generalizing d with
  | zero => rfl
  | succ n ih =>
    unfold chainOn
    dsimp only
    repeat' split
    all_goals simp [ih, emits_of_gates]

@[simp] theorem gates_advanceMotion (s t1 n : Nat) (d : Dev) : gates (advanceMotion s t1 n d) = gates d := by
  induction n generalizing d with
  | zero => rfl
  | succ n ih =>
    unfold advanceMotion
    dsimp only
    repeat' split
    all_goals simp [ih, emits_of_gates]

@[simp] theorem gates_takePour (d : Dev) (s t1 : Nat) : gates (takePour d s t1) = gates d := by
  unfold takePour
  dsimp only
  repeat' split
  all_goals simp [emits_of_gates]

@[simp] theorem gates_countSettle (d : Dev) (s : Nat) : gates (countSettle d s) = gates d := by
  unfold countSettle
  dsimp only
  split <;> simp [emits_of_gates]

@[simp] theorem gates_newSetpoint (d : Dev) (s t1 : Nat) (old : Option Path) : gates (newSetpoint d s t1 old) = gates d := by
  simp [newSetpoint, emits_of_gates]

@[simp] theorem gates_serviceMotion (d : Dev) (s t1 : Nat) : gates (serviceMotion d s t1) = gates d := by
  unfold serviceMotion
  dsimp only
  repeat' split
  all_goals simp [emits_of_gates]

@[simp] theorem gates_trajectory (d : Dev) (s : Nat) : gates (trajectory d s) = gates d := by
  unfold trajectory
  dsimp only
  split <;> simp [emits_of_gates]

@[simp] theorem gates_fresh (d : Dev) : gates d.fresh.2 = gates d := rfl

@[simp] theorem gates_measureSpot (d : Dev) (s : Nat) : gates (measureSpot d s) = gates d := by
  unfold measureSpot
  dsimp only
  repeat' split
  all_goals simp [emits_of_gates]

@[simp] theorem gates_placeStation (d : Dev) (s : Nat) : gates (placeStation d s) = gates d := by
  unfold placeStation
  dsimp only
  split <;> simp [emits_of_gates]

/-! ### Station faults and moves -/

@[simp] theorem gates_releasePower (d : Dev) (k : Nat) : gates (releasePower d k) = gates d := rfl

@[simp] theorem gates_leaveIsland (d : Dev) (s : Nat) : gates (leaveIsland d s) = gates d := by
  simp [leaveIsland, emits_of_gates]

@[simp] theorem gates_interruptIsland (d : Dev) (s : Nat) : gates (interruptIsland d s) = gates d := by
  unfold interruptIsland
  split <;> simp

@[simp] theorem gates_decelerate (d : Dev) (s : Nat) : gates (decelerate d s) = gates d := by
  simp [decelerate, emits_of_gates]

@[simp] theorem gates_stationFault (d : Dev) (s cause : Nat) : gates (stationFault d s cause) = gates d := by
  unfold stationFault
  dsimp only
  split <;> simp [emits_of_gates]

@[simp] theorem gates_faultStations (d : Dev) : gates (faultStations d) = gates d := by
  refine gates_upto _ _ (fun d s => ?_) _
  repeat' split
  all_goals simp

@[simp] theorem gates_remapMove (d : Dev) (s : Nat) : gates (remapMove d s) = gates d := by
  unfold remapMove
  dsimp only
  repeat' split
  all_goals simp [emits_of_gates]

@[simp] theorem gates_setCtx (d : Dev) (c : Nat) (x : Ctx) : gates (setCtx d c x) = gates d := rfl

/-! ### Calibration -/

@[simp] theorem gates_putRun (d : Dev) (h : Option Nat) (r : Option CalRun) : gates (putRun d h r) = gates d := by
  cases h <;> rfl

@[simp] theorem gates_setCalStation (d : Dev) (s : Nat) (x : CalStation) : gates (setCalStation d s x) = gates d := rfl
@[simp] theorem gates_send (d : Dev) (o : Out) : gates (d.send o) = gates d := rfl

@[simp] theorem gates_setRaw (d : Dev) (s : Nat) (c v : Int × Int) : gates (setRaw d s c v) = gates d := by
  simp [setRaw, emits_of_gates]

@[simp] theorem gates_leaveRaw (d : Dev) (s : Nat) (r : CalRun) : gates (leaveRaw d s r) = gates d := by
  simp [leaveRaw, emits_of_gates]

@[simp] theorem gates_endRaw (d : Dev) (s : Nat) (r : CalRun) : gates (endRaw d s r) = gates d := by
  unfold endRaw
  extract_lets p0 st
  repeat' split
  all_goals simp [st, emits_of_gates]

@[simp] theorem gates_releaseStation (d : Dev) (s : Nat) (r : CalRun) : gates (releaseStation d s r) = gates d := by
  unfold releaseStation
  dsimp only
  split <;> simp [emits_of_gates]

@[simp] theorem gates_calRecord (d : Dev) (ring status type target tag number cause step detail : Nat) :
    gates (calRecord d ring status type target tag number cause step detail) = gates d := gates_emitShared _ _ _ _

@[simp] theorem gates_endRun (d : Dev) (h : Option Nat) (r : CalRun) (status cause : Nat) : gates (endRun d h r status cause) = gates d := by
  unfold endRun
  extract_lets d1 d2 back d3 d4
  have h2 : gates d2 = gates d := by
    unfold d2; repeat' split
    all_goals simp [d1]
  have h3 : gates d3 = gates d := by
    unfold d3; split <;> simp [h2]
  have h4 : gates d4 = gates d := (gates_calRecord _ _ _ _ _ _ _ _ _ _).trans h3
  repeat' split
  all_goals exact (gates_raise _ _ _ _ _ _ _).trans h4

@[simp] theorem gates_calAbort (d : Dev) (h : Option Nat) (r : CalRun) (cause : Nat) : gates (calAbort d h r cause) = gates d :=
  gates_endRun _ _ _ _ _

@[simp] theorem gates_calFail (d : Dev) (h : Option Nat) (r : CalRun) (cause : Nat) : gates (calFail d h r cause) = gates d := by
  refine (gates_endRun _ _ _ _ _).trans ?_
  cases h <;> rfl

/-- The device that a scan's step leads to. -/
def scanDev (d : Dev) : ScanStep → Dev
  | .go e _ | .over e _ | .mark e _ => e
  | .stuck => d

@[simp] theorem gates_scanStep (d : Dev) (s p0 : Nat) (r : CalRun) : gates (scanDev d (scanStep d s p0 r)) = gates d := by
  unfold scanStep
  dsimp only
  repeat' split
  all_goals simp [scanDev]

/-- The device that every outcome of a scan's step shows keeps the view. -/
theorem gates_of_scanStep {d e : Dev} {s p0 : Nat} {r : CalRun} {x : ScanStep} (h : scanStep d s p0 r = x) (he : scanDev d x = e) :
    gates e = gates d := by
  rw [← he, ← h, gates_scanStep]

@[simp] theorem gates_driftCompute (d : Dev) (s : Nat) (r : CalRun) : gates (driftCompute d s r) = gates d := by
  unfold driftCompute
  dsimp only
  split
  case h_1 e r1 h => exact (gates_putRun _ _ _).trans (gates_of_scanStep h rfl)
  case h_2 h => simp
  case h_3 e r1 h => exact (gates_calFail _ _ _ _).trans (gates_of_scanStep h rfl)
  case h_4 e r1 h =>
    have he := gates_of_scanStep h rfl
    simp only [scanDev] at he
    split <;> simp [he]

@[simp] theorem gates_setDac (d : Dev) (i v : Nat) : gates (setDac d i v) = gates d := rfl

@[simp] theorem gates_setDacs (v : Nat) (l : List Nat) (d : Dev) : gates (l.foldl (fun d i => setDac d i v) d) = gates d :=
  gates_foldl _ (fun d i => gates_setDac d i v) _ _

@[simp] theorem gates_darkStep (d : Dev) (r : CalRun) : gates (darkStep d r) = gates d := by
  unfold darkStep
  dsimp only
  repeat' split
  all_goals simp

@[simp] theorem gates_settleStep (d : Dev) (s : Nat) : gates (settleStep d s) = gates d := by
  simp [settleStep, emits_of_gates]
@[simp] theorem gates_closeService (d : Dev) (s : Nat) : gates (closeService d s) = gates d := by
  simp [closeService, emits_of_gates]
@[simp] theorem gates_openService (d : Dev) (s level : Nat) : gates (openService d s level) = gates d := by
  simp [openService, emits_of_gates]

theorem gates_serviceJump {d e : Dev} {s : Nat} {x y : Int} (h : serviceJump d s x y = some e) : gates e = gates d := by
  unfold serviceJump at h
  split at h
  · cases h
  · cases h
    simp [emits_of_gates]

theorem gates_serviceMark {d e : Dev} {s : Nat} {p : BitVec 256} {level : Nat} (h : serviceMark d s p level = some e) :
    gates e = gates d := by
  unfold serviceMark at h
  split at h
  · cases h
  · cases h
    simp [emits_of_gates]

@[simp] theorem gates_orFree (d : Dev) (w : Nat) (o : Option Nat) : gates (orFree d w o).2 = gates d := by
  cases o <;> rfl

theorem gates_plateMeasure {d e : Dev} {r r1 : CalRun} {xAxis : Bool} (h : plateMeasure d r xAxis = some (r1, e)) :
    gates e = gates d := by
  unfold plateMeasure at h
  split at h
  · cases h
    simp [countAt]
  · cases h

@[simp] theorem gates_plateDone (d : Dev) (r : CalRun) : gates (plateDone d r) = gates d := gates_putRun _ _ _

@[simp] theorem gates_plateCompute (d : Dev) (r : CalRun) : gates (plateCompute d r) = gates d := by
  unfold plateCompute
  extract_lets s x y h keep stuck p d1 speed pour r1
  have kept (e : Dev) (r1 : CalRun) : gates (keep e r1) = gates e := gates_putRun _ _ _
  have given_up : gates stuck = gates d := gates_calAbort _ _ _ _
  have h1 : gates d1 = gates d := gates_settleStep d s
  clear_value keep stuck d1 r1
  split
  · exact gates_darkStep d r
  split
  · repeat' split
    case h_1 e hj => rw [kept, gates_serviceJump hj]
    all_goals simp [kept, given_up]
  split
  · split
    · split
      case h_1 e hm => rw [kept, gates_serviceMark hm, h1]
      case h_2 => exact given_up
    · rw [kept, h1]
  split
  · split <;> simp [kept]
  split
  · split
    case h_1 => exact gates_calFail _ _ _ _
    case h_2 r2 e hm =>
      have he := gates_plateMeasure hm
      repeat' split
      all_goals simp [kept, he]
  · split
    case h_1 e r1 hs => exact (kept _ _).trans (gates_of_scanStep hs rfl)
    case h_2 => exact given_up
    case h_3 e r1 hs => exact (gates_calFail _ _ _ _).trans (gates_of_scanStep hs rfl)
    case h_4 e r1 hs => exact (gates_plateDone _ _).trans (gates_of_scanStep hs rfl)

@[simp] theorem gates_powerCompute (d : Dev) (r : CalRun) : gates (powerCompute d r) = gates d := by
  unfold powerCompute
  dsimp only
  repeat' split
  case h_1 e h => simpa using gates_serviceJump h
  all_goals simp

@[simp] theorem gates_blackbodyCompute (d : Dev) (r : CalRun) : gates (blackbodyCompute d r) = gates d := by
  unfold blackbodyCompute
  dsimp only
  repeat' split
  case h_1 e h => simpa using gates_serviceJump h
  all_goals simp

@[simp] theorem gates_trimCompute (d : Dev) (r : CalRun) : gates (trimCompute d r) = gates d := by
  unfold trimCompute
  dsimp only
  repeat' split
  all_goals simp

@[simp] theorem gates_computeRun (d : Dev) (h : Option Nat) : gates (computeRun d h) = gates d := by
  unfold computeRun
  dsimp only
  repeat' split
  all_goals simp

@[simp] theorem gates_calCycle (d : Dev) : gates (calCycle d) = gates d :=
  (gates_upto _ _ (fun d _ => gates_computeRun d _) _).trans (gates_computeRun d _)

@[simp] theorem gates_calDenied (d : Dev) : gates (calDenied d) = gates d := by
  unfold calDenied
  repeat' split
  all_goals simp

end Sys2Proof.Proofs
end

section
namespace Sys2Proof.Proofs
open Sys2Proof.Machine Sys2Proof.Laws

/-! ### Frames: a latched interlock leaves no gate open (R229, R463) -/

@[simp] theorem gates_armCompare (d : Dev) (s i : Nat) (p : BitVec 256) : gates (armCompare d s i p) = gates d := by
  unfold armCompare
  dsimp only
  repeat' split
  all_goals simp [emits_of_gates]

/-- Station `s` has its frame for the next cycle: its own gate alone changes, and stays shut under a latched interlock. -/
def Framed (s : Nat) (d e : Dev) : Prop := ∃ b, gates e = reframe s b (gates d) ∧ (d.mould.latched = true → b = false)

/-- A station's change that leaves its frame. -/
theorem gates_sameFrame {d : Dev} {s : Nat} {x : Station} (h : x.sent = (stationOf d s).sent) : gates (setStation d s x) = gates d := by
  rw [gates_setStation, h]
  exact reframe_self s (gates d)

theorem framed_shut {s : Nat} {d e : Dev} {x : Station} (he : gates e = gates d) (hx : x.sent.emits = false) :
    Framed s d (setStation e s x) := ⟨false, by rw [gates_setStation, hx, he], fun _ => rfl⟩

/-- A frame that needs the permission of R229 meets no latched interlock. -/
theorem framed_permitted {s : Nat} {d e f : Dev} {x : Station} (he : gates e = gates d) (hf : gates f = gates d)
    (hp : permitted f = true) : Framed s d (setStation e s x) := by
  refine ⟨x.sent.emits, by rw [gates_setStation, he], fun hl => ?_⟩
  have latched : f.mould.latched = d.mould.latched := congrArg (fun g => g.2.2.1) hf
  simp [permitted, latched, hl] at hp

theorem latched_of_gates {d e : Dev} (h : gates e = gates d) : e.mould.latched = d.mould.latched := congrArg (fun g => g.2.2.1) h

theorem framed_gateFrame (d : Dev) (s : Nat) (st0 : Station) : Framed s d (gateFrame d s st0) := by
  unfold gateFrame
  extract_lets ps d1 own kept l st none0
  have h1 : gates d1 = gates d := by
    unfold d1
    repeat' split
    all_goals simp
  clear_value d1
  split
  · exact framed_shut h1 rfl
  · extract_lets m base begun close closed offOpen offClose want fired e1 l1 e2 lateral wants e3 marked s0 q asked mould l2 pw l3 f
    have he1 : gates e1 = gates d := by
      unfold e1; split <;> simp [h1]
    have he2 : gates e2 = gates d := by
      unfold e2
      rw [gates_sameFrame, he1]
      rfl
    have he3 : gates e3 = gates d := by
      unfold e3; split <;> simp [he2]
    have hm : gates mould.2 = gates d := by
      unfold mould; split <;> simp [he3]
    split
    case isTrue => exact framed_shut hm rfl
    case isFalse hd =>
      have granted : asked = true := by
        by_contra ha
        exact hd (by simp only [mould, if_neg ha])
      simp only [asked, Bool.and_eq_true] at granted
      exact framed_permitted ((gates_limitPower _ _ _).trans hm) h1 granted.1.1.1.1.2

theorem framed_serviceFrame (d : Dev) (s : Nat) : Framed s d (serviceFrame d s) := by
  unfold serviceFrame
  dsimp only
  split
  · split
    case isTrue h =>
      simp only [Bool.and_eq_true] at h
      exact framed_permitted (by simp) rfl h.2
    case isFalse => exact framed_shut (by simp) rfl
  · exact framed_shut rfl rfl

theorem framed_stationCycle (d : Dev) (s : Nat) : Framed s d (stationCycle d s) := by
  unfold stationCycle
  extract_lets exp d1 st0 d2 _ d3 st
  have h2 : gates d2 = gates d := by simp [d2, d1]
  have h3 : Framed s d2 d3 := by
    unfold d3
    split
    · exact framed_serviceFrame d2 s
    · split
      · exact framed_gateFrame d2 s st0
      · exact framed_shut rfl rfl
  obtain ⟨b, hb, shut⟩ := h3
  refine ⟨b, ?_, fun hl => shut ((latched_of_gates h2).trans hl)⟩
  have own : st.sent.emits = b := by
    rw [show st.sent.emits = (gates d3).1 s from rfl, hb, reframe_same]
  rw [gates_setStation, hb, h2, reframe_reframe]
  exact congrArg (reframe s · (gates d)) own

@[simp] theorem gates_exposeStep (d : Dev) (c : Nat) : gates (exposeStep d c) = gates d := by
  unfold exposeStep
  dsimp only
  rw [gates_setStation, gates_setCtx]
  exact reframe_self c (gates d)

end Sys2Proof.Proofs
end

section
namespace Sys2Proof.Proofs
open Sys2Proof.Machine Sys2Proof.Laws

/-! ### Which blocks are enabled -/

theorem enabled_of_inUse {d e : Dev} (h : ∀ p, e.regs.inUse (wordAddr p 0x008) = d.regs.inUse (wordAddr p 0x008)) :
    e.enabled = d.enabled := by
  funext p
  simp only [Dev.enabled, Dev.flag, h]

theorem reportWord_enable (p : Nat) : reportWord (wordAddr p 0x008) = false := by
  simp [reportWord, wordAddr, pageEvq]
  omega

theorem enabled_of_same {d e : Dev} (h : SameButReports d e) : e.enabled = d.enabled :=
  enabled_of_inUse fun p => h.regs.inUse _ (reportWord_enable p)

theorem enabled_setReg (d : Dev) (p off v : Nat) (h : off % 4096 ≠ 8) : (d.setReg p off v).enabled = d.enabled := by
  refine enabled_of_inUse fun q => ?_
  rw [setReg_inUse, if_neg]
  simp only [wordAddr]
  omega

theorem enabled_setFld (d : Dev) (p off lo w v : Nat) (h : off % 4096 ≠ 8) : (d.setFld p off lo w v).enabled = d.enabled := by
  refine enabled_of_inUse fun q => ?_
  rw [setFld_inUse, if_neg]
  simp only [wordAddr]
  omega

/-! ### The channels of the stations -/

/-- What the samples of the feedback channels leave alone. -/
def aside (d : Dev) : Tab Axis × Heats × Sched × Mould × (Nat → Bool) := (d.axes, d.heats, d.sched, d.mould, d.enabled)

theorem aside_of_same {d e : Dev} (h : SameButReports d e) : aside e = aside d := by
  simp only [aside, h.axes, h.heats, h.sched, h.mould, enabled_of_same h]

@[simp] theorem aside_setChannel (d : Dev) (c : Nat) (x : Channel) : aside (setChannel d c x) = aside d := rfl
@[simp] theorem aside_setEmu (d : Dev) (e : Nat) (x : Emu) : aside (setEmu d e x) = aside d := rfl
@[simp] theorem aside_setStation (d : Dev) (s : Nat) (x : Station) : aside (setStation d s x) = aside d := rfl

theorem aside_addCount (d : Dev) (p off n : Nat) (h : off % 4096 ≠ 8) : aside (d.addCount p off n) = aside d := by
  simp only [aside, Dev.addCount, enabled_setReg _ _ _ _ h, setReg_axes, setReg_heats, setReg_sched, setReg_mould]
theorem aside_setFld (d : Dev) (p off lo w v : Nat) (h : off % 4096 ≠ 8) : aside (d.setFld p off lo w v) = aside d := by
  simp only [aside, enabled_setFld _ _ _ _ _ _ h, setFld_axes, setFld_heats, setFld_sched, setFld_mould]

/-- The classes of a motion's reports are among the eight of R581. -/
@[simp] theorem aside_raise_motion (d : Dev) (p b sev code payload : Nat) : aside (raise d p b clsMotion sev code payload) = aside d :=
  aside_of_same (same_raise d p b clsMotion sev code payload (by decide))

theorem aside_upto (n : Nat) (f : Dev → Nat → Dev) (h : ∀ d k, aside (f d k) = aside d) (d : Dev) : aside (upto n f d) = aside d :=
  upto_keeps aside h

@[simp] theorem aside_channelFault (d : Dev) (c cause : Nat) : aside (channelFault d c cause) = aside d := aside_raise_motion _ _ _ _ _ _

@[simp] theorem aside_takeIndex (d : Dev) (c : Nat) (level : Bool) : aside (takeIndex d c level) = aside d := by
  unfold takeIndex
  dsimp only
  repeat' split
  all_goals simp [aside_setFld]

@[simp] theorem aside_emulateStep (d : Dev) (c : Nat) (step : Int) (from0 : Nat) : aside (emulateStep d c step from0) = aside d := by
  refine aside_upto _ _ (fun d e => ?_) _
  dsimp only
  repeat' split
  all_goals simp

@[simp] theorem aside_checkAmplitude (d : Dev) (c m : Nat) : aside (checkAmplitude d c m) = aside d := by
  unfold checkAmplitude
  dsimp only
  repeat' split
  all_goals simp [Dev.count, aside_addCount]

@[simp] theorem aside_useSample (d : Dev) (c : Nat) (smp : RawSample) (now sub : Nat) : aside (useSample d c smp now sub) = aside d := by
  unfold useSample
  dsimp only
  repeat' split
  all_goals simp

@[simp] theorem aside_reportChannel (d : Dev) (c : Nat) : aside (reportChannel d c) = aside d := rfl

@[simp] theorem aside_lateSample (d : Dev) (c : Nat) : aside (lateSample d c) = aside d := by
  unfold lateSample
  dsimp only
  split <;> simp [Dev.count, aside_addCount]

@[simp] theorem aside_stationChannels (d : Dev) (s : Nat) : aside (stationChannels d s) = aside d := by
  unfold stationChannels
  extract_lets _ e
  have he : aside e = aside d := by
    unfold e; split <;> simp
  refine (aside_upto _ _ (fun d k => ?_) _).trans he
  dsimp only
  split <;> simp

end Sys2Proof.Proofs
end

section
namespace Sys2Proof.Proofs
open Sys2Proof.Machine Sys2Proof.Laws

/-! ### One servo axis through the POST window -/

/-- A command of a power stage in 16 bits. -/
def InWord (v : Int) : Prop := -32768 ≤ v ∧ v ≤ 32767

theorem inWord_clamp (v : Int) : InWord (clampInt (-32768) 32767 v) := by
  unfold InWord clampInt
  omega

/-- A window of an axis leaves its program, tables and bank, and its output in 16 bits. -/
structure Tended (x y : Axis) : Prop where
  active : y.active = x.active
  staged : y.staged = x.staged
  bank : y.bank = x.bank
  word : InWord x.iCmd → InWord y.iCmd

theorem Tended.refl (x : Axis) : Tended x x := ⟨rfl, rfl, rfl, id⟩

theorem Tended.trans {x y z : Axis} (h : Tended x y) (k : Tended y z) : Tended x z :=
  ⟨k.active.trans h.active, k.staged.trans h.staged, k.bank.trans h.bank, fun w => k.word (h.word w)⟩

/-- An axis that puts out nothing. -/
theorem Tended.zero {x y : Axis} (active : y.active = x.active) (staged : y.staged = x.staged) (bank : y.bank = x.bank)
    (zero : y.iCmd = 0) : Tended x y := ⟨active, staged, bank, fun _ => by rw [zero]; exact ⟨by decide, by decide⟩⟩

/-- The mark of a lost lane is no part of it. -/
theorem Tended.laneHere {x y : Axis} (h : Tended x y) : Tended x { y with laneLost := false } := ⟨h.active, h.staged, h.bank, h.word⟩

theorem tended_runIns (d : Dev) (j n : Nat) (i : Ins) (x : Axis) : Tended x (runIns d j n i x).1 := by
  unfold runIns
  dsimp only
  split
  · exact ⟨rfl, rfl, rfl, id⟩
  split
  · split <;> exact ⟨rfl, rfl, rfl, id⟩
  split
  · exact ⟨rfl, rfl, rfl, id⟩
  split
  · exact ⟨rfl, rfl, rfl, id⟩
  split
  · exact ⟨rfl, rfl, rfl, fun _ => inWord_clamp _⟩
  · split <;> exact ⟨rfl, rfl, rfl, id⟩

theorem tended_runWindow (d : Dev) (j : Nat) (post : Bool) (x : Axis) : Tended x (runWindow d j post x).1 := by
  unfold runWindow
  refine List.foldlRecOn (motive := fun r : Axis × Bool => Tended x r.1) x.active.list _ (Tended.refl x) fun y hy i _ => ?_
  dsimp only
  split
  · exact hy.trans (tended_runIns d j i.1 i.2 y.1)
  · exact hy

/-! ### The axes of the other stations -/

@[simp] theorem axisOfServo_setServo (d : Dev) (j : Nat) (x : Axis) : axisOfServo (setServo d j x) j = x := by
  simp [axisOfServo]

theorem axisOfServo_other {d : Dev} {j k : Nat} {x : Axis} (h : k ≠ j) : axisOfServo (setServo d j x) k = axisOfServo d k := by
  rw [axisOfServo, setServo_axes, get_set, if_neg h, axisOfServo]

@[simp] theorem axisOfServo_raise_motion (d : Dev) (p b sev code payload k : Nat) :
    axisOfServo (raise d p b clsMotion sev code payload) k = axisOfServo d k := by
  rw [axisOfServo, (same_raise d p b clsMotion sev code payload (by decide)).axes, axisOfServo]

@[simp] theorem axisOfServo_count (d : Dev) (p off k : Nat) : axisOfServo (d.count p off) k = axisOfServo d k := rfl

/-- What the window of axis `j` leaves alone: the other axes, the interlock's latch, the decision and what is enabled. -/
def spared (j : Nat) (d : Dev) : (Nat → Axis) × Bool × Option Decision × (Nat → Bool) :=
  (fun k => if k = j then {} else axisOfServo d k, d.mould.latched, d.sched.decision, d.enabled)

theorem spared_of_same {d e : Dev} (j : Nat) (h : SameButReports d e) : spared j e = spared j d := by
  simp only [spared, axisOfServo, h.axes, h.sched, h.mould, enabled_of_same h]

@[simp] theorem spared_setServo (d : Dev) (j : Nat) (x : Axis) : spared j (setServo d j x) = spared j d := by
  refine Prod.ext (funext fun k => ?_) rfl
  by_cases h : k = j
  · simp [spared, h]
  · simp [spared, h, axisOfServo_other h]

@[simp] theorem spared_raise_motion (d : Dev) (j p b sev code payload : Nat) :
    spared j (raise d p b clsMotion sev code payload) = spared j d :=
  spared_of_same j (same_raise d p b clsMotion sev code payload (by decide))

theorem spared_count (d : Dev) (j p off : Nat) (h : off % 4096 ≠ 8) : spared j (d.count p off) = spared j d := by
  simp only [spared, axisOfServo, Dev.count, Dev.addCount, enabled_setReg _ _ _ _ h, setReg_axes, setReg_sched, setReg_mould]

@[simp] theorem spared_axisFault (d : Dev) (j cause : Nat) : spared j (axisFault d j cause) = spared j d := by
  simp [axisFault]

@[simp] theorem spared_holdAxis (d : Dev) (j : Nat) : spared j (holdAxis d j) = spared j d := by
  unfold holdAxis
  dsimp only
  split <;> simp [spared_count]

@[simp] theorem spared_servoPost (d : Dev) (j : Nat) : spared j (servoPost d j) = spared j d := by
  unfold servoPost
  dsimp only
  repeat' split
  all_goals simp

/-- The faulted axis is left as it is but for its fault. -/
theorem axisOfServo_axisFault (d : Dev) (j cause : Nat) :
    axisOfServo (axisFault d j cause) j = { axisOfServo d j with fault := true, cause := cause, event := true } := by
  unfold axisFault
  dsimp only
  rw [axisOfServo_raise_motion, axisOfServo_setServo]

theorem tended_holdAxis (d : Dev) (j : Nat) : Tended (axisOfServo d j) (axisOfServo (holdAxis d j) j) := by
  unfold holdAxis
  dsimp only
  split
  all_goals simp only [axisOfServo_setServo, axisOfServo_axisFault, axisOfServo_raise_motion, axisOfServo_count]
  all_goals exact ⟨rfl, rfl, rfl, id⟩

theorem tended_inputs (d : Dev) (j : Nat) (u : BitVec 256) (x : Axis) : Tended x (placeAxis d j (takeInputs d j u x)) := by
  unfold placeAxis takeInputs
  dsimp only
  split <;> exact ⟨rfl, rfl, rfl, id⟩

theorem tended_runChecks (d : Dev) (j : Nat) (x : Axis) (sat : Bool) : Tended x (runChecks d j x sat).1 := ⟨rfl, rfl, rfl, id⟩

/-- A fault in the POST window stops the output. -/
def stopAxis (d : Dev) (j cause : Nat) : Dev :=
  setServo (axisFault d j cause) j { axisOfServo (axisFault d j cause) j with iCmd := 0, disabled := true }

theorem tended_stopAxis (d : Dev) (j cause : Nat) : Tended (axisOfServo d j) (axisOfServo (stopAxis d j cause) j) := by
  unfold stopAxis
  rw [axisOfServo_setServo, axisOfServo_axisFault]
  exact .zero rfl rfl rfl rfl

theorem tended_servoPost (d : Dev) (j : Nat) : Tended (axisOfServo d j) (axisOfServo (servoPost d j) j) := by
  unfold servoPost
  extract_lets x off
  split
  case h_1 u _ =>
    extract_lets y _ r c _ d1 d2
    split
    · rw [axisOfServo_setServo]
      exact .zero rfl rfl rfl rfl
    split
    · rw [axisOfServo_setServo]
      exact .zero rfl rfl rfl rfl
    have window : Tended x c.1 := by
      have h := (tended_inputs d j u x).trans (z := { y with held := false, idle := false, disabled := false, holdRun := 0, lastHold := false })
        ⟨rfl, rfl, rfl, id⟩
      exact (h.trans (tended_runWindow d j true _)).trans (tended_runChecks _ _ _ _)
    have used : Tended x (axisOfServo d2 j) := by
      have h : axisOfServo d2 j = { c.1 with laneLost := false } := by
        unfold d2
        split
        · exact (axisOfServo_raise_motion _ _ _ _ _ _ _).trans (axisOfServo_setServo _ _ _)
        · exact axisOfServo_setServo _ _ _
      rw [h]
      exact window.laneHere
    split
    · exact used.trans (tended_stopAxis _ _ _)
    · exact used
  case h_2 =>
    split
    · rw [axisOfServo_setServo]
      exact .zero rfl rfl rfl rfl
    · have free : Tended x (axisOfServo (setServo d j { x with laneLost := false }) j) := by
        rw [axisOfServo_setServo]
        exact ⟨rfl, rfl, rfl, id⟩
      have hold := free.trans (tended_holdAxis (setServo d j { x with laneLost := false }) j)
      split
      · exact hold.trans (tended_stopAxis _ _ _)
      · exact hold

/-- An axis that puts out nothing. -/
def Off (y : Axis) : Prop := y.iCmd = 0 ∧ y.disabled = true ∧ y.held = false

/-- An axis that does not run is off (R262). -/
theorem off_servoPost (d : Dev) (j : Nat) (h : axisRuns d j = false) : Off (axisOfServo (servoPost d j) j) := by
  unfold servoPost
  extract_lets x off
  split
  · rw [if_pos (by rw [h]; rfl), axisOfServo_setServo]
    exact ⟨rfl, rfl, rfl⟩
  · rw [if_pos (by rw [h]; rfl), axisOfServo_setServo]
    exact ⟨rfl, rfl, rfl⟩

end Sys2Proof.Proofs
end

section
namespace Sys2Proof.Proofs
open Sys2Proof.Machine Sys2Proof.Laws

/-! ### Pennants -/

/-- A field of one bit that is set, among the two lowest. -/
theorem bit_setBits_one (w : Word) (b : Nat) (h : b < 2) : bit (setBits w b 1 1).toNat b = true := by
  have hw := w.isLt
  obtain rfl | rfl : b = 0 ∨ b = 1 := by omega
  · simp only [bit, Nat.testBit_eq_decide_div_mod_eq, setBits, bits, word, BitVec.toNat_ofNat, Nat.shiftLeft_eq,
      Nat.shiftRight_eq_div_pow, decide_eq_true_eq]
    omega
  · simp only [bit, Nat.testBit_eq_decide_div_mod_eq, setBits, bits, word, BitVec.toNat_ofNat, Nat.shiftLeft_eq,
      Nat.shiftRight_eq_div_pow, decide_eq_true_eq]
    omega

theorem pennant_of_same {d e : Dev} (h : SameButReports d e) {p b : Nat} (hp : d.pennant p b = true) : e.pennant p b = true :=
  h.regs.pens p b hp

/-- A pennant whose cause occurs is set (R36). -/
theorem pennant_raise (d : Dev) (p b cls sev code payload : Nat) (hb : b < 2) (hc : cls < 8) :
    (raise d p b cls sev code payload).pennant p b = true := by
  have set : (setPen d p b).pennant p b = true := by
    have field : (stampPen (d.setFld p 0x010 b 1 1) p b).pennant p b = true := by
      show bit ((d.setFld p 0x010 b 1 1).regs.read (wordAddr p 0x010)).toNat b = true
      rw [setFld_read, if_pos rfl]
      exact bit_setBits_one _ _ hb
    unfold setPen
    dsimp only
    split <;> exact field
  unfold raise
  dsimp only
  split
  · exact pennant_of_same (same_report _ _ _ _ _ _ hc) set
  · exact set

/-! ### The hold of an axis without samples (R263, R264) -/

@[simp] theorem channelOf_setServo (d : Dev) (j c : Nat) (x : Axis) : channelOf (setServo d j x) c = channelOf d c := rfl

theorem channelOf_of_same {d e : Dev} (h : SameButReports d e) (c : Nat) : channelOf e c = channelOf d c := by
  simp only [channelOf, h.channels]


/-- The axis as a hold leaves it, but for its fault. -/
def heldAxis (x : Axis) : Axis :=
  { x with
    held := true, idle := false, disabled := false, event := true, holdRun := min 3 (x.holdRun + 1), ferrRun := 0, satRun := 0
    work := x.savedWork, acc := x.savedAcc, filt := x.savedFilt, deferred := [] }

/-- The axis holds and reports it, before it may fault. -/
def holdReported (d : Dev) (j : Nat) : Dev :=
  raise (((setServo d j (heldAxis (axisOfServo d j))).count (pageAxs j) 0x054).count pageSrv 0x04C) (pageAxs j) 0 clsMotion sevWarning
    0x0500 (pay j ((axisOfServo d j).holdRun + 1) 0 0)

/-- A hold and, as the third in a row, its fault. -/
theorem holdAxis_eq (d : Dev) (j : Nat) : holdAxis d j = if 3 ≤ (axisOfServo d j).holdRun + 1 then
    setServo (axisFault (holdReported d j) j 1) j { axisOfServo (axisFault (holdReported d j) j 1) j with lastHold := true }
  else holdReported d j := rfl

theorem holdReported_axis (d : Dev) (j : Nat) : axisOfServo (holdReported d j) j = heldAxis (axisOfServo d j) := by
  simp [holdReported]

theorem holdReported_pennant (d : Dev) (j : Nat) : (holdReported d j).pennant (pageAxs j) 0 = true :=
  pennant_raise _ _ _ _ _ _ _ (by decide) (by decide)

theorem holdReported_channel (d : Dev) (j : Nat) : channelOf (holdReported d j) j = channelOf d j :=
  channelOf_of_same (same_raise _ _ _ _ _ _ _ (by decide)) j

theorem axisFault_pennant (d : Dev) (j cause : Nat) : (axisFault d j cause).pennant (pageAxs j) 1 = true :=
  pennant_raise _ _ _ _ _ _ _ (by decide) (by decide)

theorem axisFault_keeps_pennant {d : Dev} {j cause p b : Nat} (h : d.pennant p b = true) : (axisFault d j cause).pennant p b = true :=
  pennant_of_same (same_raise _ _ _ _ _ _ _ (by decide)) h

theorem axisFault_channel (d : Dev) (j cause : Nat) : channelOf (axisFault d j cause) j = channelOf d j :=
  channelOf_of_same (same_raise _ _ _ _ _ _ _ (by decide)) j

/-- A hold leaves the channel, and the pennant of holds set. -/
theorem holdAxis_pennant (d : Dev) (j : Nat) : (holdAxis d j).pennant (pageAxs j) 0 = true ∧ channelOf (holdAxis d j) j = channelOf d j := by
  rw [holdAxis_eq]
  split
  · exact ⟨axisFault_keeps_pennant (holdReported_pennant d j), (axisFault_channel _ _ _).trans (holdReported_channel d j)⟩
  · exact ⟨holdReported_pennant d j, holdReported_channel d j⟩

/-- The first and second hold in a row. -/
theorem holdAxis_below (d : Dev) (j : Nat) (h : (axisOfServo d j).holdRun < 2) :
    axisOfServo (holdAxis d j) j = heldAxis (axisOfServo d j) := by
  rw [holdAxis_eq, if_neg (by omega), holdReported_axis]

/-- The third hold in a row (R264). -/
theorem holdAxis_third (d : Dev) (j : Nat) (h : 2 ≤ (axisOfServo d j).holdRun) :
    axisOfServo (holdAxis d j) j = { heldAxis (axisOfServo d j) with fault := true, cause := 1, lastHold := true } ∧
      (holdAxis d j).pennant (pageAxs j) 1 = true := by
  rw [holdAxis_eq, if_pos (by omega), axisOfServo_setServo, axisOfServo_axisFault, holdReported_axis]
  exact ⟨rfl, axisFault_pennant _ _ _⟩

/-- An axis without samples holds where neither its channel nor its lane is at fault. -/
theorem servoPost_holds (d : Dev) (j : Nat) (late : (stationOf d (j / 3)).uplink = none) (runs : axisRuns d j = true)
    (clear : (axisOfServo d j).fault = false) (lane : (axisOfServo d j).laneLost = false) (channel : (channelOf d j).fault = false) :
    servoPost d j = holdAxis (setServo d j { axisOfServo d j with laneLost := false }) j := by
  unfold servoPost
  dsimp only
  rw [late]
  dsimp only
  rw [if_neg (by simp [runs, clear]), if_neg]
  rw [(holdAxis_pennant _ _).2, channelOf_setServo, channel, lane]
  simp

theorem servoPost_other {d : Dev} {j k : Nat} (h : k ≠ j) : axisOfServo (servoPost d j) k = axisOfServo d k := by
  have spare := congrFun (congrArg Prod.fst (spared_servoPost d j)) k
  simpa [spared, h] using spare

theorem servoPost_hold (d : Dev) (j : Nat) :
    let x := axisOfServo d j
    let e := servoPost d j
    let y := axisOfServo e j
    (stationOf d (j / 3)).uplink = none → axisRuns d j = true → x.fault = false → x.laneLost = false →
    (channelOf d j).fault = false →
      y.iCmd = x.iCmd ∧ y.work = x.savedWork ∧ y.acc = x.savedAcc ∧ y.filt = x.savedFilt ∧ y.held = true ∧
      y.holdRun = min 3 (x.holdRun + 1) ∧ e.pennant (pageAxs j) 0 = true ∧
      (x.holdRun < 2 → y.fault = false) ∧
      (2 ≤ x.holdRun → y.fault = true ∧ y.cause = 1 ∧ e.pennant (pageAxs j) 1 = true) ∧
      ∀ k, k ≠ j → axisOfServo e k = axisOfServo d k := by
  intro x e y late runs clear lane channel
  have he : e = holdAxis (setServo d j { x with laneLost := false }) j := servoPost_holds d j late runs clear lane channel
  have others : ∀ k, k ≠ j → axisOfServo e k = axisOfServo d k := fun k hk => servoPost_other hk
  have pen : e.pennant (pageAxs j) 0 = true := by rw [he]; exact (holdAxis_pennant _ _).1
  have own := axisOfServo_setServo d j { x with laneLost := false }
  by_cases h : x.holdRun < 2
  · have hy : y = heldAxis { x with laneLost := false } := by
      show axisOfServo e j = _
      rw [he, holdAxis_below _ _ (by rw [own]; exact h), own]
    rw [hy]
    exact ⟨rfl, rfl, rfl, rfl, rfl, rfl, pen, fun _ => clear, fun h2 => by omega, others⟩
  · obtain ⟨axis, pen1⟩ := holdAxis_third (setServo d j { x with laneLost := false }) j (by rw [own]; exact Nat.le_of_not_lt h)
    have hy : y = { heldAxis { x with laneLost := false } with fault := true, cause := 1, lastHold := true } := by
      show axisOfServo e j = _
      rw [he, axis, own]
    rw [hy]
    exact ⟨rfl, rfl, rfl, rfl, rfl, rfl, pen, fun h2 => absurd h2 h, fun _ => ⟨rfl, rfl, by rw [he]; exact pen1⟩, others⟩

end Sys2Proof.Proofs
end

section
namespace Sys2Proof.Proofs
open Sys2Proof.Machine Sys2Proof.Laws

/-! ### The trajectory of a station (R197) -/

/-- The setpoint on a path depends on the station's bank alone. -/
theorem pathSetpoint_setStation (d : Dev) (s : Nat) (x : Station) (p : Path) (t : Nat) (h : x.bank = (stationOf d s).bank) :
    pathSetpoint (setStation d s x) s p t = pathSetpoint d s p t := by
  have bank : (stationOf (setStation d s x) s).bank = (stationOf d s).bank := by rw [stationOf_setStation, if_pos rfl, h]
  simp only [pathSetpoint, tableFocus, bank]
  rfl

theorem stationOf_own (d : Dev) (s : Nat) (x : Station) : stationOf (setStation d s x) s = x := by
  rw [stationOf_setStation, if_pos rfl]

theorem stationOf_other {d : Dev} {s k : Nat} {x : Station} (h : k ≠ s) : stationOf (setStation d s x) k = stationOf d k := by
  rw [stationOf_setStation, if_neg h]

/-- The runs along pours that the cycle begins with. -/
def runsUnder (st : Station) : List (Nat × Nat) :=
  match st.path with | some p => if p.onPour then [(p.start, p.index)] else [] | none => []

/-- One out of service: settling, chained pours, the yield, the next motion, the setpoint and the pour that a wait ends with. -/
theorem trajectory_motion (d : Dev) (n : Nat) (h : (stationOf d n).service = false) :
    let t1 := cycleAt (d.cycle + 1)
    let d2 := checkYield (chainOn n t1 64 (countSettle (setStation d n { stationOf d n with runs := runsUnder (stationOf d n) }) n)) n t1
    trajectory d n = takePour (newSetpoint (brakeCheck (advanceMotion n t1 64 d2) n t1 (t1 + cycleSub)) n t1 (stationOf d2 n).path) n t1 := by
  unfold trajectory
  dsimp only
  rw [if_neg (by rw [h]; decide)]
  rfl

/-- One in service: its motion and the setpoint. -/
theorem trajectory_service (d : Dev) (n : Nat) (h : (stationOf d n).service = true) :
    trajectory d n = newSetpoint (serviceMotion (setStation d n { stationOf d n with runs := runsUnder (stationOf d n) }) n
      (cycleAt (d.cycle + 1))) n (cycleAt (d.cycle + 1)) (stationOf d n).path := by
  unfold trajectory
  dsimp only
  rw [if_pos h]
  rfl

/-- A station without island, path and motion stays where it is. -/
theorem trajectory_rest (d : Dev) (n : Nat) :
    let st := stationOf d n
    st.service = false → st.island = none → st.active = false → st.path = none → st.motion ≠ 2 →
      stationOf (trajectory d n) n = { st with runs := [], next := st.cmd.rest } := by
  intro st service island active path motion
  have settle : countSettle (setStation d n { st with runs := [] }) n = setStation d n { st with runs := [] } := by
    unfold countSettle
    dsimp only
    rw [stationOf_own, if_neg motion]
  generalize hd : setStation d n { st with runs := [] } = d1 at settle
  have own : stationOf d1 n = { st with runs := [] } := by rw [← hd, stationOf_own]
  have chain (t : Nat) : chainOn n t 64 d1 = d1 := by
    unfold chainOn
    simp only [own, path]
  have yield (t : Nat) : checkYield d1 n t = d1 := by
    unfold checkYield
    simp only [own, active, Bool.false_and, Bool.false_eq_true, if_false]
  have advance (t : Nat) : advanceMotion n t 64 d1 = d1 := by
    unfold advanceMotion
    simp only [own, path, if_neg motion]
  have brake (t u : Nat) : brakeCheck d1 n t u = d1 := by
    unfold brakeCheck
    simp only [own, path]
  have next : newSetpoint d1 n (cycleAt (d.cycle + 1)) none = setStation d1 n { st with runs := [], next := st.cmd.rest } := by
    unfold newSetpoint
    simp only [own, path, Option.isSome_none, Bool.false_eq_true, if_false]
  have pour (e : Dev) (t : Nat) (h : (stationOf e n).island = none) : takePour e n t = e := by
    unfold takePour
    simp only [h, Option.isSome_none, Bool.false_and, Bool.false_eq_true, if_false]
  have steps : trajectory d n = setStation d1 n { st with runs := [], next := st.cmd.rest } := by
    have at0 : (stationOf d1 n).path = none := by rw [own]; exact path
    have under : runsUnder (stationOf d n) = [] := by
      unfold runsUnder
      rw [show (stationOf d n).path = none from path]
    rw [trajectory_motion d n service, under, hd, settle, chain, yield, advance, brake, at0, next,
      pour _ _ (by rw [stationOf_own]; exact island)]
  rw [steps, stationOf_own]

/-- One in service follows its path. -/
theorem trajectory_other (d : Dev) {n k : Nat} (hk : k ≠ n) (h : (stationOf d n).service = true) :
    stationOf (trajectory d n) k = stationOf d k := by
  have e := trajectory_service d n h
  have motion (e : Dev) (t : Nat) : stationOf (serviceMotion e n t) k = stationOf e k := by
    unfold serviceMotion
    dsimp only
    repeat' split
    all_goals simp [stationOf_other hk]
  rw [e]
  unfold newSetpoint
  dsimp only
  rw [stationOf_other hk, motion, stationOf_other hk]

theorem trajectory_follows (d : Dev) (n : Nat) (p : Machine.Path) (h : (stationOf d n).service = true)
    (hp : (stationOf d n).path = some p) (started : p.start ≤ cycleAt (d.cycle + 1)) (under : cycleAt (d.cycle + 1) < p.finish) :
    (stationOf (trajectory d n) n).path = some p ∧
      (stationOf (trajectory d n) n).next = pathSetpoint d n p (cycleAt (d.cycle + 1)) := by
  have e := trajectory_service d n h
  have own := stationOf_own d n { stationOf d n with runs := runsUnder (stationOf d n) }
  have same := pathSetpoint_setStation d n { stationOf d n with runs := runsUnder (stationOf d n) } p (cycleAt (d.cycle + 1)) rfl
  rw [e]
  generalize setStation d n { stationOf d n with runs := runsUnder (stationOf d n) } = d1 at own same
  have stays : serviceMotion d1 n (cycleAt (d.cycle + 1)) = d1 := by
    unfold serviceMotion
    simp only [own, hp, if_pos under]
  rw [stays]
  unfold newSetpoint
  simp only [stationOf_own, own, hp, if_pos started, same, and_self]

theorem trajectory_ends (d : Dev) (n : Nat) (p : Machine.Path) (h : (stationOf d n).service = true)
    (hp : (stationOf d n).path = some p) (past : p.finish ≤ cycleAt (d.cycle + 1)) (x : p.evx = 0) (y : p.evy = 0) :
    (stationOf (trajectory d n) n).path = none ∧
      (stationOf (trajectory d n) n).next = (pathSetpoint d n p (cycleAt (d.cycle + 1))).rest := by
  have e := trajectory_service d n h
  have own := stationOf_own d n { stationOf d n with runs := runsUnder (stationOf d n) }
  have same := pathSetpoint_setStation d n { stationOf d n with runs := runsUnder (stationOf d n) } p (cycleAt (d.cycle + 1)) rfl
  rw [e]
  generalize setStation d n { stationOf d n with runs := runsUnder (stationOf d n) } = d1 at own same
  have ends : serviceMotion d1 n (cycleAt (d.cycle + 1)) = setStation d1 n { stationOf d1 n with path := none } := by
    unfold serviceMotion
    simp only [own, hp, if_neg (Nat.not_lt.mpr past), x, y, and_self, if_true]
  have same1 := pathSetpoint_setStation d1 n { stationOf d1 n with path := none } p (cycleAt (d.cycle + 1)) rfl
  rw [ends]
  unfold newSetpoint
  simp only [stationOf_own, hp, same1, same, and_self]

end Sys2Proof.Proofs
end

section
namespace Sys2Proof.Proofs
open Sys2Proof.Machine Sys2Proof.Laws

/-! ### What the frames and accounts of a cycle rest on -/

/-- The words of the ladle, the thermal map and the links, but for those of reporting. -/
def watched (a : Nat) : Bool := !reportWord a && (a / 4096 == pageLdl || a / 4096 == pageTmp || a / 4096 == pageLnk)

/-- The state that the partners' frames leave and the accounts read. -/
def prior (d : Dev) :=
  (d.ladle, d.map, d.lhd, (fun k => { stationOf d k with powerSent := 0 }), (fun a => if watched a = true then d.regs.inUse a else 0),
    d.cycle, d.lanes, d.par.role, d.par.sideB, d.par.epoch)

theorem prior_of_same {d e : Dev} (h : SameButReports d e) : prior e = prior d := by
  have words : (fun a => if watched a = true then e.regs.inUse a else 0) = fun a => if watched a = true then d.regs.inUse a else 0 := by
    funext a
    split
    case isTrue hw =>
      simp only [watched, Bool.and_eq_true, Bool.not_eq_true'] at hw
      exact h.regs.inUse a hw.1
    case isFalse => rfl
  simp only [prior, words, Dev.cycle, stationOf, h.ladle, h.map, h.lhd, h.stations, h.tick, h.lanes, h.par]

/-- Words of the axes' pages are not among them. -/
theorem prior_count (d : Dev) (j off : Nat) (h : j < 96) (ho : off < 4096) : prior (d.count (pageAxs j) off) = prior d := by
  have words : (fun a => if watched a = true then (d.count (pageAxs j) off).regs.inUse a else 0) =
      fun a => if watched a = true then d.regs.inUse a else 0 := by
    funext a
    split
    case isTrue hw =>
      rw [Dev.count, Dev.addCount, setReg_inUse, if_neg]
      simp only [watched, Bool.and_eq_true, Bool.or_eq_true, beq_iff_eq, pageLdl, pageTmp, pageLnk] at hw
      simp only [wordAddr, pageAxs]
      omega
    case isFalse => rfl
  simp only [prior, words]
  rfl

@[simp] theorem prior_setServo (d : Dev) (j : Nat) (x : Axis) : prior (setServo d j x) = prior d := rfl

theorem prior_setStation {d : Dev} {s : Nat} {x : Station} (h : { x with powerSent := 0 } = { stationOf d s with powerSent := 0 }) :
    prior (setStation d s x) = prior d := by
  have stations : (fun k => { stationOf (setStation d s x) k with powerSent := 0 }) = fun k => { stationOf d k with powerSent := 0 } := by
    funext k
    rw [stationOf_setStation]
    split
    case isTrue hk => rw [h, hk]
    case isFalse => rfl
  simp only [prior, stations]
  rfl

@[simp] theorem prior_raise_motion (d : Dev) (p b sev code payload : Nat) : prior (raise d p b clsMotion sev code payload) = prior d :=
  prior_of_same (same_raise d p b clsMotion sev code payload (by decide))

theorem prior_servoPre (d : Dev) (j : Nat) (h : j < 96) : prior (servoPre d j) = prior d := by
  unfold servoPre
  dsimp only
  repeat' split
  all_goals simp [prior_count, h]

theorem prior_noteSent (d : Dev) (s : Nat) : prior (noteSent d s) = prior d := by
  unfold noteSent
  exact (upto_keeps prior fun d k => prior_setServo _ _ _).trans (prior_setStation rfl)

theorem prior_partnerFrame (d : Dev) (p : Nat) : prior (partnerFrame d p) = prior d := by
  unfold partnerFrame
  split
  · dsimp only
    split
    · exact prior_noteSent d p
    · rfl
  · rfl

/-- The frames among what the device sends. -/
def Out.isFrame : Out → Bool
  | .frame .. => true
  | _ => false

/-- The frames sent in the cycle, and the check words kept of them. -/
def framesOf (d : Dev) : List Out × Tab Word := (d.out.filter Out.isFrame, d.par.frameCrc)

end Sys2Proof.Proofs
end

section
namespace Sys2Proof.Proofs
open Sys2Proof.Machine Sys2Proof.Laws

/-! ### What `prior` determines -/

section
variable {d e : Dev} (h : prior e = prior d)
include h

theorem ladle_of_prior : e.ladle = d.ladle := congrArg (fun v => v.1) h
theorem map_of_prior : e.map = d.map := congrArg (fun v => v.2.1) h
theorem lhd_of_prior : e.lhd = d.lhd := congrArg (fun v => v.2.2.1) h
theorem station_of_prior (k : Nat) : { stationOf e k with powerSent := 0 } = { stationOf d k with powerSent := 0 } :=
  congrFun (congrArg (fun v => v.2.2.2.1) h) k
theorem cycle_of_prior : e.cycle = d.cycle := congrArg (fun v => v.2.2.2.2.2.1) h
theorem lanes_of_prior : e.lanes = d.lanes := congrArg (fun v => v.2.2.2.2.2.2.1) h
theorem role_of_prior : e.par.role = d.par.role := congrArg (fun v => v.2.2.2.2.2.2.2.1) h
theorem side_of_prior : e.par.sideB = d.par.sideB := congrArg (fun v => v.2.2.2.2.2.2.2.2.1) h
theorem epoch_of_prior : e.par.epoch = d.par.epoch := congrArg (fun v => v.2.2.2.2.2.2.2.2.2) h

theorem inUse_of_prior {a : Nat} (ha : watched a = true) : e.regs.inUse a = d.regs.inUse a := by
  have w := congrFun (congrArg (fun v => v.2.2.2.2.1) h) a
  dsimp only [prior] at w
  rwa [if_pos ha, if_pos ha] at w

theorem fld_of_prior {p off : Nat} (lo w : Nat) (hp : p = pageLdl ∨ p = pageTmp ∨ p = pageLnk) (ho : off < 4096) (hr : off ≠ 0x010) :
    e.fld p off lo w = d.fld p off lo w := by
  have page : wordAddr p off / 4096 = p := by unfold wordAddr; omega
  have place : wordAddr p off % 4096 = off := by unfold wordAddr; omega
  have silent : reportWord (wordAddr p off) = false := by
    simp only [pageLdl, pageTmp, pageLnk] at hp
    simp only [reportWord, page, place, Bool.or_eq_false_iff, Bool.and_eq_false_iff, beq_eq_false_iff_ne, decide_eq_false_iff_not]
    simp only [wordAddr, pageEvq]
    omega
  have ha : watched (wordAddr p off) = true := by
    rcases hp with rfl | rfl | rfl <;> simp [watched, silent, page]
  simp only [Dev.fld, inUse_of_prior h ha]

theorem frameRole_of_prior : frameRole e = frameRole d := by
  have holds : e.holds = d.holds := by simp only [Dev.holds, role_of_prior h]
  simp only [frameRole, holds]

theorem laneOf_of_prior (l : Nat) : laneOf e l = laneOf d l := by
  simp only [laneOf, lanes_of_prior h]

theorem partnerLane_of_prior {p : Nat} (hp : p < 48) : partnerLane e p = partnerLane d p := by
  have map : mapLane e p = mapLane d p :=
    fld_of_prior h _ _ (.inr (.inr rfl)) (by omega) (by omega)
  simp only [partnerLane, map, laneOf_of_prior h]

end

/-! ### The partners' frames (R513, R515) -/

/-- Partner `p` has its frame of the cycle, on lane `l`, and its check word is kept. `d` is the device before the frames. -/
def PartnerTold (d e : Dev) (p l : Nat) : Prop :=
  ∃ payload,
    let count := if p < 32 then 2 else 14
    Out.frame l commandHdr (frameHeader d.cycle (frameRole d) (boolNat d.par.sideB) d.par.epoch.toNat (laneOf d l).rev count 0)
      (payloadCrc payload count) payload ∈ e.out ∧
    e.par.frameCrc.get (same 0) p = BitVec.ofNat 32 (payloadCrc payload count)

theorem noteSent_frame (d : Dev) (s : Nat) : (noteSent d s).out = d.out ∧ (noteSent d s).par = d.par := by
  have h := upto_keeps (fun e : Dev => (e.out, e.par)) (n := 3) (x := setStation d s { stationOf d s with powerSent := (stationOf d s).sent.power })
    (f := fun d k => setServo d (3 * s + k) { axisOfServo d (3 * s + k) with sentOut := (axisOfServo d (3 * s + k)).iCmd }) (fun _ _ => rfl)
  exact ⟨congrArg Prod.fst h, congrArg Prod.snd h⟩

/-- Sending to a partner adds at most its frame, and touches no other check word. -/
theorem partnerFrame_none {d : Dev} {p : Nat} (h : partnerLane d p = none) : partnerFrame d p = d := by
  unfold partnerFrame
  rw [h]

theorem partnerFrame_some {d : Dev} {p l : Nat} (h : partnerLane d p = some l) :
    ∃ payload,
      let count := if p < 32 then 2 else 14
      (partnerFrame d p).out = d.out ++ [Out.frame l commandHdr (frameHeader d.cycle (frameRole d) (boolNat d.par.sideB) d.par.epoch.toNat
        (laneOf d l).rev count 0) (payloadCrc payload count) payload] ∧
      (partnerFrame d p).par.frameCrc = d.par.frameCrc.set (same 0) p (BitVec.ofNat 32 (payloadCrc payload count)) := by
  unfold partnerFrame
  rw [h]
  dsimp only
  obtain ⟨out, par⟩ := noteSent_frame d p
  generalize noteSent d p = e at out par
  refine ⟨if p < 32 then stationPayload d p else lineHeadPayload d (p - 32), ?_, ?_⟩
  · split <;> simp [sendFrame, Dev.send, out]
  · split <;> simp [sendFrame, Dev.send, par]

/-- Later frames leave what a partner got. -/
theorem partnerTold_later {d e : Dev} {p k l : Nat} (told : PartnerTold d e p l) (hk : p ≠ k) : PartnerTold d (partnerFrame e k) p l := by
  obtain ⟨payload, sent, check⟩ := told
  cases hl : partnerLane e k with
  | none =>
    rw [partnerFrame_none hl]
    exact ⟨payload, sent, check⟩
  | some m =>
    obtain ⟨other, out, crc⟩ := partnerFrame_some hl
    refine ⟨payload, ?_, ?_⟩
    · rw [out]
      exact List.mem_append_left _ sent
    · rw [crc, get_set, if_neg hk]
      exact check

theorem partnerTold_now {d e : Dev} {p l : Nat} (h : prior e = prior d) (hp : p < 48) (hl : partnerLane d p = some l) :
    PartnerTold d (partnerFrame e p) p l := by
  rw [← partnerLane_of_prior h hp] at hl
  obtain ⟨payload, out, crc⟩ := partnerFrame_some hl
  rw [cycle_of_prior h, frameRole_of_prior h, side_of_prior h, epoch_of_prior h, laneOf_of_prior h] at out
  refine ⟨payload, ?_, ?_⟩
  · rw [out]
    exact List.mem_append_right _ (List.mem_singleton_self _)
  · rw [crc, get_set, if_pos rfl]

/-- All partners with a lane that is UP get their frames. -/
theorem partnersTold (d : Dev) :
    prior (upto 48 partnerFrame d) = prior d ∧ ∀ p l, p < 48 → partnerLane d p = some l → PartnerTold d (upto 48 partnerFrame d) p l := by
  refine upto_induct (fun k e => prior e = prior d ∧ ∀ p l, p < k → partnerLane d p = some l → PartnerTold d e p l) ?_ ?_
  · exact ⟨rfl, fun p l h => absurd h (Nat.not_lt_zero p)⟩
  · rintro k e hk ⟨he, told⟩
    refine ⟨(prior_partnerFrame e k).trans he, fun p l hp hl => ?_⟩
    obtain hp | rfl := Nat.lt_succ_iff_lt_or_eq.mp hp
    · exact partnerTold_later (told p l hp hl) hp.ne
    · exact partnerTold_now he hk hl

end Sys2Proof.Proofs
end

section
namespace Sys2Proof.Proofs
open Sys2Proof.Machine Sys2Proof.Laws

/-! ### The ladle's account (R173) -/

/-- What later accounts and records leave of the ladle, of the frames sent and of pennants set. -/
structure Onward (d e : Dev) : Prop where
  ladle : e.ladle = d.ladle
  frames : framesOf e = framesOf d
  pens : ∀ p b, d.pennant p b = true → e.pennant p b = true

theorem Onward.refl (d : Dev) : Onward d d := ⟨rfl, rfl, fun _ _ h => h⟩

theorem Onward.trans {d e f : Dev} (h : Onward d e) (k : Onward e f) : Onward d f :=
  ⟨k.ladle.trans h.ladle, k.frames.trans h.frames, fun p b w => k.pens p b (h.pens p b w)⟩

theorem onward_of_same {d e : Dev} (h : SameButReports d e) : Onward d e :=
  ⟨h.ladle, by simp only [framesOf, h.out, h.par], h.regs.pens⟩

/-- The level after a cycle's draw, before it is cut to the capacity. -/
def nextLevel (d : Dev) (draw : Nat) : Int := d.ladle.level + ladleBudget d * 5 - draw

/-- The level as it is kept. -/
def keptLevel (d : Dev) (draw : Nat) : Nat := min (nextLevel d draw).toNat (ladleCapacity d)

/-- The ladle after the draw, and the deficit told, before LADLE_SHORT is looked at. -/
def drawn (d : Dev) (draw : Nat) : Dev :=
  let deficit := (-nextLevel d draw).toNat / 1000
  let d1 := { d with ladle := { d.ladle with level := keptLevel d draw, lastDraw := draw } }
  if nextLevel d draw < 0 then raise (d1.addCount pageLdl 0x074 deficit) pageLdl 1 clsProcess sevWarning 0x0411 (deficit % 2 ^ 32) else d1

theorem drawn_ladle (d : Dev) (draw : Nat) : (drawn d draw).ladle = { d.ladle with level := keptLevel d draw, lastDraw := draw } := by
  unfold drawn
  dsimp only
  split
  · exact (same_raise _ _ _ _ _ _ _ (by decide)).ladle
  · rfl

theorem drawn_pennant (d : Dev) (draw : Nat) (h : nextLevel d draw < 0) : (drawn d draw).pennant pageLdl 1 = true := by
  unfold drawn
  dsimp only
  rw [if_pos h]
  exact pennant_raise _ _ _ _ _ _ _ (by decide) (by decide)

theorem ladleUpdate_eq (d : Dev) (draw : Nat) :
    ladleUpdate d draw =
      if (drawn d draw).ladle.short = false ∧ keptLevel d draw < ladleLow d then
        raise { drawn d draw with ladle := { (drawn d draw).ladle with short := true } } pageLdl 0 clsProcess sevWarning 0x0410
          (pay 0 0 0 (ladleHeld d) + keptLevel d draw / 1000 % 2 ^ 32)
      else if (drawn d draw).ladle.short = true ∧ ladleHigh d ≤ keptLevel d draw then
        { drawn d draw with ladle := { (drawn d draw).ladle with short := false } }
      else drawn d draw := rfl

/-- The ladle after the update: LADLE_SHORT comes below LOW and goes at HIGH. -/
theorem ladleUpdate_ladle (d : Dev) (draw : Nat) :
    (ladleUpdate d draw).ladle = { d.ladle with
      level := keptLevel d draw, lastDraw := draw
      short := decide (keptLevel d draw < if d.ladle.short then ladleHigh d else ladleLow d) } := by
  rw [ladleUpdate_eq]
  have h := drawn_ladle d draw
  generalize drawn d draw = e at h
  have short : e.ladle.short = d.ladle.short := by rw [h]
  rw [short]
  split
  case isTrue low =>
    rw [(same_raise _ _ _ _ _ _ _ (by decide)).ladle]
    simp [h, low]
  case isFalse low =>
    split
    case isTrue high => simp [h, high]
    case isFalse high =>
      cases hs : d.ladle.short <;> simp_all

theorem ladleUpdate_pennant (d : Dev) (draw : Nat) (h : nextLevel d draw < 0) : (ladleUpdate d draw).pennant pageLdl 1 = true := by
  rw [ladleUpdate_eq]
  have pen := drawn_pennant d draw h
  generalize drawn d draw = e at pen
  split
  · exact pennant_of_same (same_raise _ _ _ _ _ _ _ (by decide)) pen
  · split <;> exact pen

theorem framesOf_of_same {d e : Dev} (h : SameButReports d e) : framesOf e = framesOf d := by
  simp only [framesOf, h.out, h.par]

theorem ladleUpdate_frames (d : Dev) (draw : Nat) : framesOf (ladleUpdate d draw) = framesOf d := by
  have kept : framesOf (drawn d draw) = framesOf d := by
    unfold drawn
    dsimp only
    split
    · exact (framesOf_of_same (same_raise _ _ _ _ _ _ _ (by decide))).trans rfl
    · rfl
  rw [ladleUpdate_eq, ← kept]
  generalize drawn d draw = e
  split
  · exact (framesOf_of_same (same_raise _ _ _ _ _ _ _ (by decide))).trans rfl
  · split <;> rfl

end Sys2Proof.Proofs
end

section
namespace Sys2Proof.Proofs
open Sys2Proof.Machine Sys2Proof.Laws

/-! ### The thermal map's account (R184, R186) -/

/-- What the updates of a cycle leave of the map, and what they reckon with. -/
def chart (d : Dev) := (d.map.cells, d.map.stations, d.map.columns, d.map.deposited, decayFactor d, d.cycle)

theorem decayFactor_of_same {d e : Dev} (h : SameButReports d e) : decayFactor e = decayFactor d := by
  simp only [decayFactor, Dev.fld, h.regs.inUse (wordAddr pageTmp 0x040) (by decide)]

theorem chart_of_same {d e : Dev} (h : SameButReports d e) : chart e = chart d := by
  simp only [chart, h.map, decayFactor_of_same h, Dev.cycle, h.tick]

theorem chart_saturate (d : Dev) (cell : Nat) : chart (saturate d cell) = chart d := by
  refine (chart_of_same (same_raiseLimited _ _ _ _ _ _ _ _ (by decide))).trans ?_
  have decay : decayFactor (d.count pageTmp 0x070) = decayFactor d :=
    setReg_fld _ _ _ _ _ _ _ _ (by decide)
  exact congrArg (fun f => (d.map.cells, d.map.stations, d.map.columns, d.map.deposited, f, d.cycle)) decay

theorem saturate_updates (d : Dev) (cell : Nat) : (saturate d cell).map.updates = d.map.updates := by
  unfold saturate
  dsimp only
  rw [(same_raiseLimited _ _ _ _ _ _ _ _ (by decide)).map]

theorem cellEnergy_of_chart {d e : Dev} (h : chart e = chart d) (i : Nat) : cellEnergy e i = cellEnergy d i := by
  have cells : e.map.cells = d.map.cells := congrArg (fun v => v.1) h
  have decay : decayFactor e = decayFactor d := congrArg (fun v => v.2.2.2.2.1) h
  have cycle : e.cycle = d.cycle := congrArg (fun v => v.2.2.2.2.2) h
  simp only [cellEnergy, decay, mapCell, cells, mapNow, cycle]

/-- One cell's update. -/
def updateCell (d : Dev) (x : Nat × Nat) : Dev :=
  let d1 := if 65535 < cellEnergy d x.1 + x.2 then saturate d x.1 else d
  { d1 with map := { d1.map with updates := d1.map.updates ++ [(x.1, ⟨min (cellEnergy d x.1 + x.2) 65535, mapNow d⟩)] } }

/-- The update that a cell takes. -/
def cellUpdate (d : Dev) (x : Nat × Nat) : Nat × MapCell := (x.1, ⟨min (cellEnergy d x.1 + x.2) 65535, mapNow d⟩)

theorem onward_count (d : Dev) (p off : Nat) (h : off % 4096 ≠ 0x010) : Onward d (d.count p off) := by
  refine ⟨rfl, rfl, fun q b hb => ?_⟩
  rw [Dev.pennant, Dev.count, Dev.addCount, setReg_read, if_neg]
  · exact hb
  · simp only [wordAddr]
    omega

theorem onward_map (d : Dev) (m : Machine.Map) : Onward d { d with map := m } := ⟨rfl, rfl, fun _ _ h => h⟩

theorem onward_saturate (d : Dev) (cell : Nat) : Onward d (saturate d cell) :=
  ((onward_count d pageTmp 0x070 (by decide)).trans (onward_map _ _)).trans
    (onward_of_same (same_raiseLimited _ _ _ _ _ _ _ _ (by decide)))

theorem updateCell_chart (d : Dev) (x : Nat × Nat) : chart (updateCell d x) = chart d := by
  unfold updateCell
  dsimp only
  split
  · exact Eq.trans rfl (chart_saturate d x.1)
  · rfl

theorem updateCell_updates (d : Dev) (x : Nat × Nat) : (updateCell d x).map.updates = d.map.updates ++ [cellUpdate d x] := by
  unfold updateCell cellUpdate
  dsimp only
  split
  · rw [saturate_updates]
  · rfl

theorem onward_updateCell (d : Dev) (x : Nat × Nat) : Onward d (updateCell d x) := by
  unfold updateCell
  dsimp only
  split
  · exact (onward_saturate d x.1).trans (onward_map _ _)
  · exact onward_map _ _

theorem cellUpdate_of_chart {d e : Dev} (h : chart e = chart d) (x : Nat × Nat) : cellUpdate e x = cellUpdate d x := by
  have cycle : e.cycle = d.cycle := congrArg (fun v => v.2.2.2.2.2) h
  simp only [cellUpdate, cellEnergy_of_chart h, mapNow, cycle]

/-- The updates of a cycle, in their order. -/
theorem updateCells_effect (l : List (Nat × Nat)) (d : Dev) :
    let e := l.foldl updateCell d
    chart e = chart d ∧ e.map.updates = d.map.updates ++ l.map (cellUpdate d) ∧ Onward d e := by
  induction l generalizing d with
  | nil => exact ⟨rfl, (List.append_nil _).symm, Onward.refl d⟩
  | cons x l ih =>
    obtain ⟨hc, hu, ho⟩ := ih (updateCell d x)
    have same := updateCell_chart d x
    refine ⟨hc.trans same, ?_, (onward_updateCell d x).trans ho⟩
    rw [List.foldl_cons, hu, updateCell_updates, List.append_assoc, funext (cellUpdate_of_chart same)]
    rfl

/-- The cells that a cycle updates: those of its deposits, and the swept one, by rising number. -/
def updatedCells (swept : Nat) (deposits : Tab Nat) : List (Nat × Nat) :=
  deposits.filter (fun x => x.1 < swept) ++ [(swept, deposits.get (same 0) swept)] ++ deposits.filter (fun x => swept < x.1)

theorem mapUpdates_eq (d : Dev) (deposits : Tab Nat) : mapUpdates d deposits = (updatedCells (mapSweep d) deposits).foldl updateCell d := rfl

/-- The deposits of the stations in one cycle: accumulators, and whole mJ by cell. -/
def stationDeposits (d : Dev) (spot : Nat → Nat) : Tab Nat × Tab Nat :=
  (List.range 32).foldl (fun x s =>
    let f := (stationOf d s).applied
    if f.openTicks = 0 then x else stationDeposit x s (spot s) (f.power * f.openTicks)) (d.map.stations, [])

theorem mapCycle_off (d : Dev) (spot : Nat → Nat) (columns : List (Nat × Nat × Nat)) (h : d.enabled pageTmp = false) :
    mapCycle d spot columns = { d with map := { d.map with deposited := 0 } } := by
  unfold mapCycle
  rw [if_neg (by rw [h]; decide)]

theorem mapCycle_on (d : Dev) (spot : Nat → Nat) (h : d.enabled pageTmp = true) :
    mapCycle d spot [] = mapUpdates { d with map := { d.map with
      stations := (stationDeposits d spot).1, columns := d.map.columns
      deposited := (stationDeposits d spot).2.foldl (fun a x => a + x.2) 0 } } (stationDeposits d spot).2 := by
  unfold mapCycle
  rw [if_pos h]
  rfl

/-- One emitting station: its deposit is the cycle's. -/
theorem stationDeposits_one (d : Dev) (spot : Nat → Nat) (n : Nat) (hn : n < 32) (emitting : (stationOf d n).applied.openTicks ≠ 0)
    (others : ∀ k, k < 32 → k ≠ n → (stationOf d k).applied.openTicks = 0) :
    stationDeposits d spot = stationDeposit (d.map.stations, []) n (spot n) ((stationOf d n).applied.power * (stationOf d n).applied.openTicks) := by
  have h := upto_induct (n := 32) (x := (d.map.stations, ([] : Tab Nat)))
    (f := fun x s => if (stationOf d s).applied.openTicks = 0 then x
      else stationDeposit x s (spot s) ((stationOf d s).applied.power * (stationOf d s).applied.openTicks))
    (fun k y => y = if n < k then stationDeposit (d.map.stations, []) n (spot n)
      ((stationOf d n).applied.power * (stationOf d n).applied.openTicks) else (d.map.stations, [])) ?_ ?_
  · rw [if_pos hn] at h
    exact h
  · rw [if_neg (Nat.not_lt_zero n)]
  · intro k y hk hy
    by_cases hkn : k = n
    · rw [hkn, if_neg emitting, hy, hkn, if_neg (Nat.lt_irrefl n), if_pos (Nat.lt_succ_self n)]
    · rw [if_pos (others k hk hkn), hy]
      exact if_congr (by omega) rfl rfl

/-- The cell of the deposit and the swept one, as R184 and R186 order their updates. -/
theorem updatedCells_one (swept cell mj : Nat) :
    updatedCells swept (addDeposit [] cell mj) =
      if mj = 0 then [(swept, 0)] else if cell = swept then [(cell, mj)]
      else if cell < swept then [(cell, mj), (swept, 0)] else [(swept, 0), (cell, mj)] := by
  unfold addDeposit
  by_cases h0 : mj = 0
  · rw [if_pos h0, if_pos h0]
    rfl
  have one : Tab.upd (same 0) ([] : Tab Nat) cell (· + mj) = [(cell, mj)] := by
    simp [Tab.upd, Tab.set, Tab.get, Tab.list, same, h0]
  rw [if_neg h0, if_neg h0, one, updatedCells]
  by_cases h : cell = swept
  · simp [h, Tab.get]
  · by_cases hl : cell < swept
    · simp [h, hl, Tab.get, Ne.symm h, Nat.le_of_lt hl, same]
    · have hg : swept < cell := by omega
      simp [h, hl, hg, Tab.get, Ne.symm h, same]

theorem addDeposit_sum (cell mj : Nat) : (addDeposit [] cell mj).foldl (fun a x => a + x.2) 0 = mj := by
  unfold addDeposit
  by_cases h0 : mj = 0
  · simp [h0]
  · simp [Tab.upd, Tab.set, Tab.get, Tab.list, same, h0]

end Sys2Proof.Proofs
end

section
namespace Sys2Proof.Proofs
open Sys2Proof.Machine Sys2Proof.Laws

/-! ### The accounts of a cycle -/

/-- What the map's account reads. -/
def warm (d : Dev) := (chart d, d.map, d.stations, d.enabled, d.tick)

theorem warm_of_same {d e : Dev} (h : SameButReports d e) : warm e = warm d := by
  simp only [warm, chart_of_same h, h.map, h.stations, enabled_of_same h, h.tick]

theorem warm_ladle (d : Dev) (x : Ladle) : warm { d with ladle := x } = warm d := rfl

theorem warm_deficit (d : Dev) (n : Nat) : warm (d.addCount pageLdl 0x074 n) = warm d := by
  have enabled := enabled_setReg d pageLdl 0x074 (min (d.rfld pageLdl 0x074 0 32 + n) 0xFFFFFFFF) (by decide)
  have decay : decayFactor (d.addCount pageLdl 0x074 n) = decayFactor d := setReg_fld _ _ _ _ _ _ _ _ (by decide)
  have same : chart (d.addCount pageLdl 0x074 n) = chart d :=
    congrArg (fun f => (d.map.cells, d.map.stations, d.map.columns, d.map.deposited, f, d.cycle)) decay
  simp only [warm, same]
  exact congrArg (fun f => (chart d, d.map, d.stations, f, d.tick)) enabled

theorem warm_ladleUpdate (d : Dev) (draw : Nat) : warm (ladleUpdate d draw) = warm d := by
  have kept : warm (drawn d draw) = warm d := by
    unfold drawn
    dsimp only
    split
    · exact (warm_of_same (same_raise _ _ _ _ _ _ _ (by decide))).trans ((warm_deficit _ _).trans (warm_ladle _ _))
    · exact warm_ladle _ _
  rw [ladleUpdate_eq, ← kept]
  generalize drawn d draw = e
  split
  · exact (warm_of_same (same_raise _ _ _ _ _ _ _ (by decide))).trans (warm_ladle _ _)
  · split
    · exact warm_ladle _ _
    · rfl

theorem onward_stationEnergy (d : Dev) (s : Nat) : Onward d (stationEnergy d s) ∧ (stationEnergy d s).map = d.map := by
  have deposit (c : Option Nat) (n : Nat) : Onward d (mouldDeposit d s c n) ∧ (mouldDeposit d s c n).map = d.map := by
    unfold mouldDeposit
    dsimp only
    repeat' split
    all_goals exact ⟨⟨rfl, rfl, fun _ _ h => h⟩, rfl⟩
  unfold stationEnergy
  dsimp only
  split
  · exact ⟨Onward.refl d, rfl⟩
  · obtain ⟨h, m⟩ := deposit (some (spotCellIndex d s)) ((stationOf d s).applied.power * (stationOf d s).applied.openTicks)
    split
    · exact ⟨h.trans ⟨rfl, rfl, fun _ _ h => h⟩, m⟩
    · exact ⟨h, m⟩

theorem onward_stationEnergies (d : Dev) : Onward d (upto 32 stationEnergy d) ∧ (upto 32 stationEnergy d).map = d.map :=
  upto_induct (fun _ e => Onward d e ∧ e.map = d.map) ⟨Onward.refl d, rfl⟩ fun k e _ h =>
    ⟨h.1.trans (onward_stationEnergy e k).1, (onward_stationEnergy e k).2.trans h.2⟩

theorem onward_mapCycle (d : Dev) (spot : Nat → Nat) (columns : List (Nat × Nat × Nat)) : Onward d (mapCycle d spot columns) := by
  unfold mapCycle
  split
  · dsimp only
    rw [mapUpdates_eq]
    exact (onward_map d _).trans (updateCells_effect _ _).2.2
  · exact onward_map d _

/-- The strobe's widths and columns that the accounts take. -/
def strobeWidths (d : Dev) : Nat := match d.lhd.applied with | some o => o.widths | none => 0
def strobeColumns (d : Dev) : List (Nat × Nat × Nat) :=
  match d.lhd.applied with | some o => o.columns.map fun c => (c.1, c.2.1, c.2.2 * 4 * d.fld pageTmp 0x054 0 16) | none => []

/-- The draw of a cycle in µJ (R172). -/
def cycleDraw (d : Dev) : Nat := stationsDraw d + strobeDraw d (strobeWidths d)

theorem accountCycle_eq (d : Dev) :
    accountCycle d = upto 32 stationEnergy (mapCycle (ladleUpdate d (cycleDraw d)) (spotCellIndex (ladleUpdate d (cycleDraw d))) (strobeColumns d)) :=
  rfl

theorem onward_accountCycle (d : Dev) : Onward (ladleUpdate d (cycleDraw d)) (accountCycle d) := by
  rw [accountCycle_eq]
  exact (onward_mapCycle _ _ _).trans (onward_stationEnergies _).1

theorem accountCycle_map (d : Dev) :
    (accountCycle d).map = (mapCycle (ladleUpdate d (cycleDraw d)) (spotCellIndex (ladleUpdate d (cycleDraw d))) (strobeColumns d)).map := by
  rw [accountCycle_eq]
  exact (onward_stationEnergies _).2

theorem accountCycle_map_off (d : Dev) (h : d.enabled pageTmp = false) : (accountCycle d).map = { d.map with deposited := 0 } := by
  have w := warm_ladleUpdate d (cycleDraw d)
  have enabled : (ladleUpdate d (cycleDraw d)).enabled = d.enabled := congrArg (fun v => v.2.2.2.1) w
  have map : (ladleUpdate d (cycleDraw d)).map = d.map := congrArg (fun v => v.2.1) w
  rw [accountCycle_map, mapCycle_off _ _ _ (by rw [enabled, h]), map]

/-- The deposit of one emitting station, and the swept cell, with the map of `d`. -/
structure OneDeposit (d : Dev) (n : Nat) (m : Machine.Map) : Prop where
  station : m.stations.get (same 0) n =
    (d.map.stations.get (same 0) n + (stationOf d n).applied.power * (stationOf d n).applied.openTicks) % 8000000
  deposited : m.deposited =
    (d.map.stations.get (same 0) n + (stationOf d n).applied.power * (stationOf d n).applied.openTicks) / 8000000
  cells : m.cells = d.map.cells
  columns : m.columns = d.map.columns
  updates : m.updates = d.map.updates ++ (updatedCells (mapSweep d) (addDeposit [] (spotCellIndex d n)
    ((d.map.stations.get (same 0) n + (stationOf d n).applied.power * (stationOf d n).applied.openTicks) / 8000000))).map (cellUpdate d)

theorem mapCycle_one (d : Dev) (n : Nat) (hn : n < 32) (on : d.enabled pageTmp = true)
    (emitting : (stationOf d n).applied.openTicks ≠ 0)
    (others : ∀ k, k < 32 → k ≠ n → (stationOf d k).applied.openTicks = 0) :
    OneDeposit d n (mapCycle d (spotCellIndex d) []).map := by
  rw [mapCycle_on d _ on, stationDeposits_one d _ n hn emitting others, stationDeposit, mapUpdates_eq]
  dsimp only
  rw [addDeposit_sum]
  generalize hm : ({ d.map with stations := _, columns := _, deposited := _ } : Machine.Map) = m
  obtain ⟨kept, updates, -⟩ := updateCells_effect (updatedCells (mapSweep { d with map := m }) (addDeposit [] (spotCellIndex d n)
    ((d.map.stations.get (same 0) n + (stationOf d n).applied.power * (stationOf d n).applied.openTicks) / 8000000))) { d with map := m }
  generalize List.foldl updateCell _ _ = e at kept updates
  have cells : e.map.cells = m.cells := congrArg (fun v => v.1) kept
  have stations : e.map.stations = m.stations := congrArg (fun v => v.2.1) kept
  have columns : e.map.columns = m.columns := congrArg (fun v => v.2.2.1) kept
  have deposited : e.map.deposited = m.deposited := congrArg (fun v => v.2.2.2.1) kept
  constructor
  · rw [stations, ← hm]
    exact get_set_same _ _ _ _
  · rw [deposited, ← hm]
  · rw [cells, ← hm]
  · rw [columns, ← hm]
  · rw [updates, ← hm]
    rfl

theorem OneDeposit.of_same {d e : Dev} {n : Nat} {m : Machine.Map} (h : OneDeposit e n m) (map : e.map = d.map)
    (applied : (stationOf e n).applied = (stationOf d n).applied) (spot : spotCellIndex e n = spotCellIndex d n)
    (sweep : mapSweep e = mapSweep d) (update : cellUpdate e = cellUpdate d) : OneDeposit d n m := by
  obtain ⟨station, deposited, cells, columns, updates⟩ := h
  rw [map, applied] at station deposited
  rw [map] at cells columns
  rw [map, applied, spot, sweep, update] at updates
  exact ⟨station, deposited, cells, columns, updates⟩

theorem accountCycle_map_one (d : Dev) (n : Nat) (hn : n < 32) (on : d.enabled pageTmp = true) (dark : d.lhd.applied = none)
    (emitting : (stationOf d n).applied.openTicks ≠ 0)
    (others : ∀ k, k < 32 → k ≠ n → (stationOf d k).applied.openTicks = 0) : OneDeposit d n (accountCycle d).map := by
  have columns : strobeColumns d = [] := by rw [strobeColumns, dark]
  rw [accountCycle_map, columns]
  have w := warm_ladleUpdate d (cycleDraw d)
  generalize ladleUpdate d (cycleDraw d) = e at w
  have chart : chart e = chart d := congrArg (fun v => v.1) w
  have map : e.map = d.map := congrArg (fun v => v.2.1) w
  have stations : e.stations = d.stations := congrArg (fun v => v.2.2.1) w
  have enabled : e.enabled = d.enabled := congrArg (fun v => v.2.2.2.1) w
  have tick : e.tick = d.tick := congrArg (fun v => v.2.2.2.2) w
  have station (k : Nat) : stationOf e k = stationOf d k := by simp only [stationOf, stations]
  have one := mapCycle_one e n hn (by rw [enabled, on]) (by rw [station]; exact emitting)
    fun k hk hkn => by rw [station]; exact others k hk hkn
  exact one.of_same map (by rw [station]) (by simp only [spotCellIndex, station]) (by simp only [mapSweep, Dev.cycle, tick])
    (funext (cellUpdate_of_chart chart))

end Sys2Proof.Proofs
end

section
namespace Sys2Proof.Proofs
open Sys2Proof.Machine Sys2Proof.Laws

/-! ### The mirror, the cycle record and the markers -/

/-- What goes out after the accounts leaves heats, ladle, map and mould, and the frames. -/
structure Sent (d e : Dev) : Prop extends Onward d e where
  heats : e.heats = d.heats
  map : e.map = d.map
  mould : e.mould = d.mould

theorem Sent.refl (d : Dev) : Sent d d := ⟨Onward.refl d, rfl, rfl, rfl⟩

theorem Sent.trans {d e f : Dev} (h : Sent d e) (k : Sent e f) : Sent d f :=
  ⟨h.toOnward.trans k.toOnward, k.heats.trans h.heats, k.map.trans h.map, k.mould.trans h.mould⟩

theorem sent_of_same {d e : Dev} (h : SameButReports d e) : Sent d e := ⟨onward_of_same h, h.heats, h.map, h.mould⟩

/-- What is no frame is sent. -/
theorem sent_send (d : Dev) (o : Out) (h : Out.isFrame o = false) : Sent d (d.send o) := by
  refine ⟨⟨rfl, ?_, fun _ _ h => h⟩, rfl, rfl, rfl⟩
  simp [framesOf, Dev.send, List.filter_append, h]

/-- A change of the mirror, of what is kept, or of the pair's bookkeeping but its check words. -/
theorem sent_mirror (d : Dev) (m : Option Mirror) : Sent d { d with mirror := m } := ⟨⟨rfl, rfl, fun _ _ h => h⟩, rfl, rfl, rfl⟩
theorem sent_hif (d : Dev) (x : Hif) : Sent d { d with hif := x } := ⟨⟨rfl, rfl, fun _ _ h => h⟩, rfl, rfl, rfl⟩
theorem sent_par (d : Dev) (x : Par) (h : x.frameCrc = d.par.frameCrc) : Sent d { d with par := x } :=
  ⟨⟨rfl, congrArg (Prod.mk _) h, fun _ _ h => h⟩, rfl, rfl, rfl⟩
theorem sent_free (d : Dev) (n : Nat) : Sent d { d with free := n } := ⟨⟨rfl, rfl, fun _ _ h => h⟩, rfl, rfl, rfl⟩

theorem sent_foldl {α : Type} (f : Dev → α → Dev) (h : ∀ d x, Sent d (f d x)) (l : List α) (d : Dev) : Sent d (l.foldl f d) := by
  induction l generalizing d with
  | nil => exact Sent.refl d
  | cons x l ih => exact (h d x).trans (ih _)

theorem sent_pairRecord (d : Dev) (kind : Nat) (cause partner : Option Nat) (h : kind < 8) : Sent d (pairRecord d kind cause partner) :=
  (sent_free d _).trans (sent_of_same (same_pairRecord d kind cause partner h))

theorem sent_setJoinStage (d : Dev) (stage : Nat) : Sent d (setJoinStage d stage) := by
  unfold setJoinStage
  refine Sent.trans ?_ (sent_pairRecord _ 3 (some stage) none (by decide))
  exact ⟨⟨rfl, rfl, fun _ _ h => h⟩, rfl, rfl, rfl⟩

theorem sent_sendHalyard (d : Dev) (type : Nat) (body : List Byte) : Sent d (sendHalyard d type body) := by
  unfold sendHalyard
  split
  · exact sent_send _ _ rfl
  · exact Sent.refl d

theorem sent_sendState (d : Dev) : Sent d (sendState d) := by
  unfold sendState
  exact (sent_mirror d _).trans (sent_foldl _ (fun d p => sent_send d _ rfl) _ _)

theorem sent_sendChanges (m : Mirror) (d : Dev) : Sent d (sendChanges m d).1 := by
  have words := (sent_mirror d (some (mirrorOf d))).trans
    (sent_foldl (fun d (w : Nat × Word) => d.send (.mirror false w.1 (.word w.2))) (fun d w => sent_send d _ rfl) (mirrorWordsOf m d) _)
  unfold sendChanges
  exact List.foldlRecOn (motive := fun r : Dev × Nat => Sent d r.1) _ _ words fun r h p _ => h.trans (sent_send r.1 _ rfl)

theorem sent_mirrorWords (d : Dev) (n : Nat) : Sent d (mirrorWords d n) := by
  unfold mirrorWords
  split
  · extract_lets p d1 p2 d2
    have h1 : Sent d d1 := sent_par d _ rfl
    have h2 : Sent d d2 := by
      refine h1.trans (Sent.trans ?_ (sent_setJoinStage _ 2))
      exact ⟨⟨rfl, rfl, fun _ _ h => h⟩, rfl, rfl, rfl⟩
    split
    · split
      · exact h2.trans (sent_sendState d2)
      · exact h2
    · exact h1
  · exact Sent.refl d

theorem sent_mirrorStream (d : Dev) : Sent d (mirrorStream d) := by
  unfold mirrorStream
  split
  · split
    · exact (sent_sendChanges _ d).trans (sent_mirrorWords _ _)
    · exact Sent.refl d
  · exact Sent.refl d

theorem sent_ageKept (d : Dev) : Sent d (ageKept d) := by
  have limit (e : Dev) (r : BitVec 4800) : Sent e (limitKept e r) :=
    sent_foldl _ (fun e i => sent_hif e _) _ _
  unfold ageKept
  extract_lets age hif d1
  have h1 : Sent d d1 := sent_hif d _
  clear_value d1
  split
  · split
    · exact h1.trans (limit _ _)
    · exact h1
  · exact h1

theorem sent_sendCycleRecord (d : Dev) : Sent d (sendCycleRecord d) := by
  unfold sendCycleRecord
  refine (sent_ageKept d).trans (Sent.trans ?_ (sent_sendHalyard _ _ _))
  exact ⟨⟨rfl, rfl, fun _ _ h => h⟩, rfl, rfl, rfl⟩

theorem sent_sendMarkers (d : Dev) : Sent d (sendMarkers d) := by
  unfold sendMarkers
  split
  · refine sent_foldl _ (fun d l => ?_) _ _
    split
    · exact Sent.refl d
    · exact sent_send _ _ rfl
  · exact Sent.refl d

end Sys2Proof.Proofs
end

section
namespace Sys2Proof.Proofs
open Sys2Proof.Machine Sys2Proof.Laws

/-! ### Tick 800 -/

/-- The windows, frames and accounts of a device that computes. -/
def computedFrames (d : Dev) : Dev := accountCycle (upto 48 partnerFrame (upto 96 servoPre d))

/-- What the device sends of the cycle after them. -/
def sendRecords (d : Dev) : Dev := sendMarkers (sendCycleRecord (mirrorStream d))

theorem sent_sendRecords (d : Dev) : Sent d (sendRecords d) :=
  ((sent_mirrorStream d).trans (sent_sendCycleRecord _)).trans (sent_sendMarkers _)

/-- All that the device does at tick 800. -/
def framesAt800 (d : Dev) : Dev := sendRecords (if d.computes then computedFrames d else d)

theorem commandFrames_due (d : Dev) (running : d.running = true) (deadline : d.boot.deadlineOf = d.cycle + 1)
    (due : d.boot.sentOf ≠ d.cycle + 1) :
    commandFrames d = { framesAt800 (d.arrive 800) with
      tick := (d.arrive 800).tick, boot := { (framesAt800 (d.arrive 800)).boot with sentOf := (d.arrive 800).cycle + 1 } } := by
  unfold commandFrames
  rw [if_pos (by simp [running, deadline, due])]
  rfl

theorem commandFrames_idle (d : Dev) (h : d.running = false ∨ d.boot.deadlineOf ≠ d.cycle + 1 ∨ d.boot.sentOf = d.cycle + 1) :
    commandFrames d = d := by
  unfold commandFrames
  rw [if_neg]
  rintro hc
  simp only [Bool.and_eq_true, beq_iff_eq, bne_iff_ne] at hc
  obtain ⟨⟨running, deadline⟩, due⟩ := hc
  rcases h with h | h | h
  · simp [h] at running
  · exact h deadline
  · exact due h

theorem prior_servoPres (d : Dev) : prior (upto 96 servoPre d) = prior d :=
  upto_induct (fun _ e => prior e = prior d) rfl fun k e hk h => (prior_servoPre e k hk).trans h

theorem prior_arrive (d : Dev) (t : Nat) : prior (d.arrive t) = prior d := by
  have cycle : Dev.cycle { d with tick := max d.tick (d.cycle * 1250 + min t 1249) } = d.cycle := by
    simp only [Dev.cycle]
    omega
  refine (prior_of_same (same_arrive d t)).trans ?_
  simp only [prior, cycle]
  rfl

theorem computes_arrive (d : Dev) (t : Nat) : (d.arrive t).computes = d.computes := by
  simp only [Dev.computes, Dev.running, Dev.holds, arrive_boot, arrive_par]

/-- A device that does not compute sends no frame, and its heats, ladle, map and mould stay. -/
theorem framesAt800_idle (d : Dev) (h : d.computes = false) : Sent d (framesAt800 d) := by
  unfold framesAt800
  rw [if_neg (by rw [h]; decide)]
  exact sent_sendRecords d

/-- The device before the accounts, in terms of the one before its frames. -/
def accounted (d : Dev) : Dev := upto 48 partnerFrame (upto 96 servoPre d)

theorem prior_accounted (d : Dev) : prior (accounted d) = prior d := (partnersTold _).1.trans (prior_servoPres d)

theorem framesAt800_computed (d : Dev) (h : d.computes = true) : Sent (accountCycle (accounted d)) (framesAt800 d) := by
  unfold framesAt800
  rw [if_pos h]
  exact sent_sendRecords _

theorem framesAt800_onward (d : Dev) (h : d.computes = true) :
    Onward (ladleUpdate (accounted d) (cycleDraw (accounted d))) (framesAt800 d) :=
  (onward_accountCycle _).trans (framesAt800_computed d h).toOnward

theorem PartnerTold.of_frames {d e f : Dev} {p l : Nat} (told : PartnerTold d e p l) (h : framesOf f = framesOf e) : PartnerTold d f p l := by
  obtain ⟨payload, sent, check⟩ := told
  have crc : f.par.frameCrc = e.par.frameCrc := congrArg Prod.snd h
  refine ⟨payload, ?_, by rw [crc]; exact check⟩
  have mem := List.mem_filter.mpr ⟨sent, (rfl : Out.isFrame (.frame l commandHdr _ _ _) = true)⟩
  have out : f.out.filter Out.isFrame = e.out.filter Out.isFrame := congrArg Prod.fst h
  rw [← out] at mem
  exact (List.mem_filter.mp mem).1

theorem PartnerTold.of_prior {d d1 e : Dev} {p l : Nat} (told : PartnerTold d1 e p l) (h : prior d1 = prior d) : PartnerTold d e p l := by
  obtain ⟨payload, sent, check⟩ := told
  rw [cycle_of_prior h, frameRole_of_prior h, side_of_prior h, epoch_of_prior h, laneOf_of_prior h] at sent
  exact ⟨payload, sent, check⟩

/-- Every partner with a lane that is UP gets its frame (R513, R515). -/
theorem framesAt800_told (d : Dev) (h : d.computes = true) {p l : Nat} (hp : p < 48) (hl : partnerLane d p = some l) :
    PartnerTold d (framesAt800 d) p l := by
  have pre := prior_servoPres d
  have told := (partnersTold (upto 96 servoPre d)).2 p l hp ((partnerLane_of_prior pre hp).trans hl)
  have frames : framesOf (framesAt800 d) = framesOf (accounted d) :=
    (framesAt800_onward d h).frames.trans (ladleUpdate_frames _ _)
  exact (told.of_frames frames).of_prior pre

/-! ### The accounts of tick 800, in terms of the device before it -/

section
variable {d e : Dev} (h : prior e = prior d)
include h

theorem applied_of_prior (k : Nat) : (stationOf e k).applied = (stationOf d k).applied := (congrArg Station.applied (station_of_prior h k) :)
theorem island_of_prior (k : Nat) : (stationOf e k).island = (stationOf d k).island := (congrArg Station.island (station_of_prior h k) :)

theorem spotCellIndex_of_prior (k : Nat) : spotCellIndex e k = spotCellIndex d k := by
  have cell : (stationOf e k).spotCell = (stationOf d k).spotCell := (congrArg Station.spotCell (station_of_prior h k) :)
  simp only [spotCellIndex, cell]

theorem ladleBudget_of_prior : ladleBudget e = ladleBudget d := fld_of_prior h _ _ (.inl rfl) (by decide) (by decide)
theorem ladleCapacity_of_prior : ladleCapacity e = ladleCapacity d :=
  congrArg (· * 1000000) (fld_of_prior h _ _ (.inl rfl) (by decide) (by decide))
theorem ladleLow_of_prior : ladleLow e = ladleLow d := congrArg (· * 1000000) (fld_of_prior h _ _ (.inl rfl) (by decide) (by decide))
theorem ladleHigh_of_prior : ladleHigh e = ladleHigh d := congrArg (· * 1000000) (fld_of_prior h _ _ (.inl rfl) (by decide) (by decide))

theorem stationDraw_of_prior {k : Nat} (hk : k < 32) : stationDraw e k = stationDraw d k := by
  have eff : stationEff e k = stationEff d k := congrArg (max 1) (fld_of_prior h _ _ (.inl rfl) (by omega) (by omega))
  have idle : stationIdle e k = stationIdle d k := fld_of_prior h _ _ (.inl rfl) (by omega) (by omega)
  simp only [stationDraw, applied_of_prior h, island_of_prior h, ladle_of_prior h, eff, idle]

theorem stationsDraw_of_prior : stationsDraw e = stationsDraw d :=
  List.foldl_ext _ _ _ fun a _ hk => congrArg (a + ·) (stationDraw_of_prior h (List.mem_range.mp hk))

theorem strobeDraw_of_prior (w : Nat) : strobeDraw e w = strobeDraw d w := by
  have factor : e.fld pageLdl 0x04C 0 16 = d.fld pageLdl 0x04C 0 16 := fld_of_prior h _ _ (.inl rfl) (by decide) (by decide)
  simp only [strobeDraw, factor]

theorem cycleDraw_of_prior : cycleDraw e = cycleDraw d := by
  simp only [cycleDraw, stationsDraw_of_prior h, strobeDraw_of_prior h, strobeWidths, lhd_of_prior h]

theorem nextLevel_of_prior : nextLevel e (cycleDraw e) = nextLevel d (cycleDraw d) := by
  simp only [nextLevel, ladle_of_prior h, ladleBudget_of_prior h, cycleDraw_of_prior h]

theorem mapSweep_of_prior : mapSweep e = mapSweep d := by simp only [mapSweep, cycle_of_prior h]

theorem cellUpdate_of_prior : cellUpdate e = cellUpdate d := by
  have decay : decayFactor e = decayFactor d := fld_of_prior h _ _ (.inr (.inl rfl)) (by decide) (by decide)
  refine funext (cellUpdate_of_chart ?_)
  simp only [chart, map_of_prior h, decay, cycle_of_prior h]

theorem mapEnabled_of_prior : e.enabled pageTmp = d.enabled pageTmp := by
  simp only [Dev.enabled, Dev.flag, inUse_of_prior h (a := wordAddr pageTmp 0x008) (by decide)]

end

/-- The ladle after tick 800 (R173). -/
theorem framesAt800_ladle (d : Dev) (h : d.computes = true) :
    (framesAt800 d).ladle = { d.ladle with
      level := keptLevel d (cycleDraw d), lastDraw := cycleDraw d
      short := decide (keptLevel d (cycleDraw d) < if d.ladle.short then ladleHigh d else ladleLow d) } := by
  have pre := prior_accounted d
  have kept : keptLevel (accounted d) (cycleDraw (accounted d)) = keptLevel d (cycleDraw d) := by
    simp only [keptLevel, nextLevel_of_prior pre, ladleCapacity_of_prior pre]
  rw [(framesAt800_onward d h).ladle, ladleUpdate_ladle, kept, ladle_of_prior pre, cycleDraw_of_prior pre, ladleHigh_of_prior pre,
    ladleLow_of_prior pre]

theorem framesAt800_pennant (d : Dev) (h : d.computes = true) (low : nextLevel d (cycleDraw d) < 0) :
    (framesAt800 d).pennant pageLdl 1 = true := by
  rw [← nextLevel_of_prior (prior_accounted d)] at low
  exact (framesAt800_onward d h).pens _ _ (ladleUpdate_pennant _ _ low)

theorem framesAt800_map_off (d : Dev) (h : d.computes = true) (off : d.enabled pageTmp = false) :
    (framesAt800 d).map = { d.map with deposited := 0 } := by
  have pre := prior_accounted d
  rw [(framesAt800_computed d h).map, accountCycle_map_off _ (by rw [mapEnabled_of_prior pre, off]), map_of_prior pre]

theorem framesAt800_map_one (d : Dev) (h : d.computes = true) (n : Nat) (hn : n < 32) (on : d.enabled pageTmp = true)
    (dark : d.lhd.applied = none) (emitting : (stationOf d n).applied.openTicks ≠ 0)
    (others : ∀ k, k < 32 → k ≠ n → (stationOf d k).applied.openTicks = 0) : OneDeposit d n (framesAt800 d).map := by
  have pre := prior_accounted d
  have one := accountCycle_map_one (accounted d) n hn (by rw [mapEnabled_of_prior pre, on]) (by rw [lhd_of_prior pre, dark])
    (by rw [applied_of_prior pre]; exact emitting) fun k hk hkn => by rw [applied_of_prior pre]; exact others k hk hkn
  rw [(framesAt800_computed d h).map]
  exact one.of_same (map_of_prior pre) (applied_of_prior pre n) (spotCellIndex_of_prior pre n) (mapSweep_of_prior pre)
    (cellUpdate_of_prior pre)

end Sys2Proof.Proofs
end

section
namespace Sys2Proof.Proofs
open Sys2Proof.Machine Sys2Proof.Laws

/-! ### COMMAND_FRAME_SEND -/

/-- What the command leaves where its moment has come. -/
def sentAt800 (s : State) : Dev :=
  { framesAt800 (s.at 800) with
    tick := (s.at 800).tick, boot := { (framesAt800 (s.at 800)).boot with sentOf := (s.at 800).cycle + 1 } }

theorem exactly_commandFrameSend (s : State) (running : s.dev.running = true) (deadline : s.dev.boot.deadlineOf = s.dev.cycle + 1)
    (due : s.dev.boot.sentOf ≠ s.dev.cycle + 1) : AnswersExactly s .commandFrameSend (sentAt800 s) := by
  have h : AnswersExactly s .commandFrameSend (commandFrames s.now) := exactly_of_onDev (f := commandFrames) rfl
  rw [commandFrames_due s.now running deadline due] at h
  exact h

section
variable (s : State)

theorem prior_at (t : Nat) : prior (s.at t) = prior s.dev := (prior_arrive s.now t).trans rfl

theorem computes_at (t : Nat) : (s.at t).computes = s.dev.computes := computes_arrive s.now t

/-- A device that does not compute sends no frame. -/
theorem sentAt800_silent (h : s.dev.computes = false) (l type hdr check payload : Nat) :
    Out.frame l type hdr check payload ∉ (sentAt800 s).out := by
  intro sent
  have frames : framesOf (framesAt800 (s.at 800)) = framesOf (s.at 800) :=
    (framesAt800_idle _ ((computes_at s 800).trans h)).frames
  have none : (framesAt800 (s.at 800)).out.filter Out.isFrame = [] := by
    refine (congrArg Prod.fst frames).trans ?_
    rw [State.at, framesOf, arrive_out]
    rfl
  have kept : Out.frame l type hdr check payload ∈ (framesAt800 (s.at 800)).out.filter Out.isFrame :=
    List.mem_filter.mpr ⟨sent, rfl⟩
  rw [none] at kept
  exact List.not_mem_nil kept

section
variable (computes : s.dev.computes = true)
include computes

theorem sentAt800_told {p l : Nat} (hp : p < 48) (hl : partnerLane s.dev p = some l) : PartnerTold s.dev (sentAt800 s) p l := by
  have told := framesAt800_told (s.at 800) ((computes_at s 800).trans computes) hp ((partnerLane_of_prior (prior_at s 800) hp).trans hl)
  exact told.of_prior (prior_at s 800)

theorem sentAt800_ladle :
    (sentAt800 s).ladle = { s.dev.ladle with
      level := keptLevel s.dev (cycleDraw s.dev), lastDraw := cycleDraw s.dev
      short := decide (keptLevel s.dev (cycleDraw s.dev) < if s.dev.ladle.short then ladleHigh s.dev else ladleLow s.dev) } := by
  have pre := prior_at s 800
  have kept : keptLevel (s.at 800) (cycleDraw (s.at 800)) = keptLevel s.dev (cycleDraw s.dev) := by
    simp only [keptLevel, nextLevel_of_prior pre, ladleCapacity_of_prior pre]
  refine (framesAt800_ladle (s.at 800) ((computes_at s 800).trans computes)).trans ?_
  rw [kept, ladle_of_prior pre, cycleDraw_of_prior pre, ladleHigh_of_prior pre, ladleLow_of_prior pre]

theorem sentAt800_pennant (low : nextLevel s.dev (cycleDraw s.dev) < 0) : (sentAt800 s).pennant pageLdl 1 = true :=
  framesAt800_pennant (s.at 800) ((computes_at s 800).trans computes) (by rwa [nextLevel_of_prior (prior_at s 800)])

theorem sentAt800_map_off (off : s.dev.enabled pageTmp = false) : (sentAt800 s).map = { s.dev.map with deposited := 0 } :=
  (framesAt800_map_off (s.at 800) ((computes_at s 800).trans computes) ((mapEnabled_of_prior (prior_at s 800)).trans off)).trans
    (by rw [map_of_prior (prior_at s 800)])

theorem sentAt800_map_one (n : Nat) (hn : n < 32) (on : s.dev.enabled pageTmp = true) (dark : s.dev.lhd.applied = none)
    (emitting : (stationOf s.dev n).applied.openTicks ≠ 0)
    (others : ∀ k, k < 32 → k ≠ n → (stationOf s.dev k).applied.openTicks = 0) : OneDeposit s.dev n (sentAt800 s).map := by
  have pre := prior_at s 800
  have one := framesAt800_map_one (s.at 800) ((computes_at s 800).trans computes) n hn ((mapEnabled_of_prior pre).trans on)
    ((congrArg LineHead.applied (lhd_of_prior pre)).trans dark) (by rwa [applied_of_prior pre])
    fun k hk hkn => (congrArg Frame.openTicks (applied_of_prior pre k)).trans (others k hk hkn)
  exact one.of_same (map_of_prior pre) (applied_of_prior pre n) (spotCellIndex_of_prior pre n) (mapSweep_of_prior pre) (cellUpdate_of_prior pre)

end
end

theorem commandFrameSend_due (s : State) (running : s.dev.running = true) (deadline : s.dev.boot.deadlineOf = s.dev.cycle + 1)
    (due : s.dev.boot.sentOf ≠ s.dev.cycle + 1) :
    Answers s .commandFrameSend fun t =>
      t.nv = s.nv ∧ t.dev.tick = (s.at 800).tick ∧ t.dev.boot.sentOf = s.dev.cycle + 1 ∧
      (s.dev.computes = false →
        t.dev.heats = s.dev.heats ∧ t.dev.ladle = s.dev.ladle ∧ t.dev.map = s.dev.map ∧ t.dev.mould = s.dev.mould) := by
  refine answers_of_exactly (exactly_commandFrameSend s running deadline due) fun t nv dev => ⟨nv, ?_, ?_, fun idle => ?_⟩
  · rw [dev]
    rfl
  · rw [dev]
    exact congrArg (· + 1) (at_cycle s 800)
  · obtain ⟨onward, heats, map, mould⟩ := framesAt800_idle (s.at 800) ((computes_at s 800).trans idle)
    rw [dev]
    exact ⟨heats.trans (arrive_heats _ _), onward.ladle.trans (arrive_ladle _ _), map.trans (arrive_map _ _),
      mould.trans (arrive_mould _ _)⟩

theorem commandFrameSend_idle (s : State)
    (h : s.dev.running = false ∨ s.dev.boot.deadlineOf ≠ s.dev.cycle + 1 ∨ s.dev.boot.sentOf = s.dev.cycle + 1) :
    AnswersButReports s .commandFrameSend s.now := by
  have w := answers_commandFrameSend s
  rwa [commandFrames_idle s.now h] at w

/-- What the map holds after one station's deposit, as a list of updates in order of cells (R184, R186). -/
theorem OneDeposit.ordered {d : Dev} {n : Nat} {m : Machine.Map} (h : OneDeposit d n m) :
    let total := d.map.stations.get (same 0) n + (stationOf d n).applied.power * (stationOf d n).applied.openTicks
    let cell := spotCellIndex d n
    let swept := mapSweep d
    m.updates = d.map.updates ++
      (if total / 8000000 = 0 then [cellUpdate d (swept, 0)] else if cell = swept then [cellUpdate d (cell, total / 8000000)]
       else if cell < swept then [cellUpdate d (cell, total / 8000000), cellUpdate d (swept, 0)]
       else [cellUpdate d (swept, 0), cellUpdate d (cell, total / 8000000)]) := by
  dsimp only
  rw [h.updates, updatedCells_one]
  repeat' split
  all_goals rfl

/-- The frames and the accounts of a cycle, as COMMAND_FRAME_SEND leaves them. -/
theorem commandFrameSend_accounts (s : State) (running : s.dev.running = true) (deadline : s.dev.boot.deadlineOf = s.dev.cycle + 1)
    (due : s.dev.boot.sentOf ≠ s.dev.cycle + 1) (computes : s.dev.computes = true) :
    Answers s .commandFrameSend fun t =>
      (∀ p l, p < 48 → partnerLane s.dev p = some l → PartnerTold s.dev t.dev p l) ∧
      (t.dev.ladle.level = min (nextLevel s.dev (cycleDraw s.dev)).toNat (ladleCapacity s.dev) ∧
       t.dev.ladle.lastDraw = cycleDraw s.dev ∧ t.dev.ladle.held = s.dev.ladle.held ∧
       (nextLevel s.dev (cycleDraw s.dev) < 0 → t.dev.pennant pageLdl 1 = true) ∧
       (s.dev.ladle.short = false → t.dev.ladle.short = decide (t.dev.ladle.level < ladleLow s.dev)) ∧
       (s.dev.ladle.short = true → t.dev.ladle.short = decide (t.dev.ladle.level < ladleHigh s.dev))) ∧
      (s.dev.enabled pageTmp = false → t.dev.map = { s.dev.map with deposited := 0 }) ∧
      (∀ n, n < 32 → s.dev.enabled pageTmp = true → s.dev.lhd.applied = none → (stationOf s.dev n).applied.openTicks ≠ 0 →
        (∀ k, k < 32 → k ≠ n → (stationOf s.dev k).applied.openTicks = 0) → OneDeposit s.dev n t.dev.map) := by
  refine answers_of_exactly (exactly_commandFrameSend s running deadline due) fun t _ dev => ?_
  rw [dev]
  refine ⟨fun p l hp hl => sentAt800_told s computes hp hl, ?_, sentAt800_map_off s computes,
    fun n hn on dark emitting others => sentAt800_map_one s computes n hn on dark emitting others⟩
  rw [sentAt800_ladle s computes]
  refine ⟨rfl, rfl, rfl, sentAt800_pennant s computes, fun full => ?_, fun short => ?_⟩
  · simp [full]
  · simp [short]

end Sys2Proof.Proofs
end

section
namespace Sys2Proof.Proofs
open Sys2Proof.Machine Sys2Proof.Laws

/-! ### The deadline (R23, R492) -/

/-- `e` is `d` but for reports, free values and the partners' reports of the cycle. -/
def Noted (d e : Dev) : Prop := SameButReports { d with free := e.free, par := e.par } e ∧ e.par.role = d.par.role

theorem Noted.refl (d : Dev) : Noted d d := ⟨same_refl d, rfl⟩

theorem Noted.of_same {d e : Dev} (h : SameButReports d e) : Noted d e := by
  refine ⟨?_, congrArg Par.role h.par⟩
  rw [h.free, h.par]
  exact h

theorem Noted.trans {d e f : Dev} (h : Noted d e) (k : Noted e f) : Noted d f := by
  have first : SameButReports { d with free := f.free, par := f.par } { e with free := f.free, par := f.par } :=
    { h.1 with free := rfl, par := rfl }
  exact ⟨same_trans first k.1, k.2.trans h.2⟩

/-- The event of one kind of partner reports, where any came and it is enabled. -/
def reportKind (d : Dev) (m : BitVec 48) (bitNo sev code : Nat) : Dev :=
  if m ≠ 0 ∧ d.flag pagePar 0x014 bitNo = true then report d pagePar clsPair sev code (pay (countBits m) 0 0 0) else d

theorem same_reportKind (d : Dev) (m : BitVec 48) (bitNo sev code : Nat) : SameButReports d (reportKind d m bitNo sev code) := by
  unfold reportKind
  split
  · exact same_report _ _ _ _ _ _ (by decide)
  · exact same_refl d

/-- The events of all three kinds. -/
def reportKinds (d : Dev) : Dev :=
  reportKind (reportKind (reportKind d d.par.mismatch 5 sevWarning 0x0C05) d.par.noEnsign 6 sevNotice 0x0C06)
    d.par.conflict 7 sevCritical 0x0C07

/-- The record of mismatches and conflicts, where there were any in the cycle that `d` ends. -/
def reportRecord (d e : Dev) : Dev :=
  if d.par.mismatch ≠ 0 ∨ d.par.conflict ≠ 0 then pairRecord e 2 none (some (countBits (d.par.mismatch ||| d.par.conflict))) else e

/-- The cycle's reports are over. -/
def reportsOver (d : Dev) : Dev := { d with par := { d.par with noEnsign := 0, mismatch := 0, conflict := 0 } }

theorem reportEvents_eq (d : Dev) : reportEvents d = reportsOver (reportRecord d (reportKinds d)) := rfl

theorem noted_reportRecord (d e : Dev) : Noted e (reportRecord d e) := by
  unfold reportRecord
  split
  · have k := same_pairRecord e 2 none (some (countBits (d.par.mismatch ||| d.par.conflict))) (by decide)
    have par : (pairRecord e 2 none (some (countBits (d.par.mismatch ||| d.par.conflict)))).par = e.par := k.par
    refine ⟨?_, congrArg Par.role par⟩
    rw [par]
    exact k
  · exact Noted.refl e

theorem noted_reportsOver (d : Dev) : Noted d (reportsOver d) := ⟨same_refl _, rfl⟩

theorem noted_reportEvents (d : Dev) : Noted d (reportEvents d) := by
  have events : Noted d (reportKinds d) :=
    Noted.of_same (same_trans (same_trans (same_reportKind _ _ _ _ _) (same_reportKind _ _ _ _ _)) (same_reportKind _ _ _ _ _))
  rw [reportEvents_eq]
  exact (events.trans (noted_reportRecord _ _)).trans (noted_reportsOver _)

theorem Noted.computes {d e : Dev} (h : Noted d e) : e.computes = d.computes := by
  have boot : e.boot = d.boot := h.1.boot
  simp only [Dev.computes, Dev.running, Dev.holds, boot, h.2]

/-- The device at the deadline, once the partners' reports are told. -/
def noted300 (d : Dev) : Dev := reportEvents (d.arrive 300)

/-- What a device that does not compute does with the samples of the cycle. -/
def takeSamples (d : Dev) : Dev :=
  upto 16 (fun d m => setModule d m { moduleOf d m with up := none }) (upto 32 stationChannels d)

/-- The deadline's mark on the device `d` that stood as the command's work began (`e` after it). -/
def marked300 (d e : Dev) : Dev := { e with tick := d.tick, boot := { e.boot with deadlineOf := d.cycle + 1 } }

theorem uplinkDeadline_due (d : Dev) (running : d.running = true) (due : d.boot.deadlineOf ≠ d.cycle + 1) :
    uplinkDeadline d =
      marked300 (noted300 d) (if (noted300 d).computes then computeCycle (noted300 d) else takeSamples (noted300 d)) := by
  unfold uplinkDeadline
  rw [if_pos (by simp [running, due])]
  rfl

theorem uplinkDeadline_idle (d : Dev) (h : d.running = false ∨ d.boot.deadlineOf = d.cycle + 1) : uplinkDeadline d = d := by
  unfold uplinkDeadline
  rw [if_neg]
  rcases h with h | h <;> simp [h]

@[simp] theorem aside_setModule (d : Dev) (m : Nat) (x : LineModule) : aside (setModule d m x) = aside d := rfl

theorem aside_takeSamples (d : Dev) : aside (takeSamples d) = aside d := by
  unfold takeSamples
  rw [aside_upto 16, aside_upto 32]
  · exact aside_stationChannels
  · exact fun d m => aside_setModule d m _

theorem noted300_tick (d : Dev) : (noted300 d).tick = (d.arrive 300).tick := (noted_reportEvents _).1.tick

theorem noted300_cycle (d : Dev) : (noted300 d).cycle = d.cycle := by
  rw [Dev.cycle, noted300_tick]
  exact arrive_cycle d 300

theorem noted300_computes (d : Dev) : (noted300 d).computes = d.computes :=
  (noted_reportEvents _).computes.trans (computes_arrive d 300)

theorem uplinkDeadline_tick (s : State) (running : s.dev.running = true) (due : s.dev.boot.deadlineOf ≠ s.dev.cycle + 1) :
    Answers s .uplinkDeadline fun t =>
      t.nv = s.nv ∧ t.dev.tick = (s.at 300).tick ∧ t.dev.boot.deadlineOf = s.dev.cycle + 1 ∧
      (s.dev.computes = false → t.dev.heats = s.dev.heats ∧ t.dev.sched = s.dev.sched ∧ t.dev.mould = s.dev.mould) := by
  have exact : AnswersExactly s .uplinkDeadline (uplinkDeadline s.now) := exactly_of_onDev (f := uplinkDeadline) rfl
  rw [uplinkDeadline_due s.now running due] at exact
  refine answers_of_exactly exact fun t nv dev => ⟨nv, ?_, ?_, fun idle => ?_⟩
  · rw [dev]
    exact noted300_tick s.now
  · rw [dev]
    exact congrArg (· + 1) (noted300_cycle s.now)
  · have notComputes : ¬ (noted300 s.now).computes = true := by
      rw [noted300_computes]
      exact ne_true_of_eq_false idle
    rw [dev, if_neg notComputes]
    have kept := aside_takeSamples (noted300 s.now)
    obtain ⟨same, -⟩ := noted_reportEvents (s.now.arrive 300)
    exact ⟨(congrArg (fun v => v.2.1) kept).trans (same.heats.trans (arrive_heats _ _)),
      (congrArg (fun v => v.2.2.1) kept).trans (same.sched.trans (arrive_sched _ _)),
      (congrArg (fun v => v.2.2.2.1) kept).trans (same.mould.trans (arrive_mould _ _))⟩

theorem uplinkDeadline_rest (s : State) (h : s.dev.running = false ∨ s.dev.boot.deadlineOf = s.dev.cycle + 1) :
    AnswersButReports s .uplinkDeadline s.now := by
  have w := answers_uplinkDeadline s
  rwa [uplinkDeadline_idle s.now h] at w

end Sys2Proof.Proofs
end

section
namespace Sys2Proof.Proofs
open Sys2Proof.Machine Sys2Proof.Laws

/-! ### What the dispatcher looks at (R119 to R134) -/

/-- The words of the dispatcher's failure counts (R122). -/
def failureWord (a : Nat) : Bool := decide (wordAddr pageSch 0x104 ≤ a ∧ a < wordAddr pageSch 0x11C)

/-- A run as the dispatcher's conditions see it: without the blocked times. -/
def shown (x : Run) : Run × (Nat → IslandRun) := ({ x with isl := [] }, fun k => { x.island k with blockedSince := none })

/-- `e` is `d` to the conditions of a decision, and has the same decision. -/
structure Alike (d e : Dev) : Prop where
  words : ∀ a, reportWord a = false → failureWord a = false → e.regs.inUse a = d.regs.inUse a
  live : e.regs.live = d.regs.live
  cycle : e.cycle = d.cycle
  stations : e.stations = d.stations
  ladle : e.ladle = d.ladle
  map : e.map = d.map
  stp : e.stp = d.stp
  run : e.heats.running.map shown = d.heats.running.map shown
  axes : e.axes = d.axes
  mould : e.mould = d.mould
  decision : e.sched.decision = d.sched.decision

theorem Alike.refl (d : Dev) : Alike d d := ⟨fun _ _ _ => rfl, rfl, rfl, rfl, rfl, rfl, rfl, rfl, rfl, rfl, rfl⟩

theorem Alike.trans {d e f : Dev} (h : Alike d e) (k : Alike e f) : Alike d f where
  words a r w := (k.words a r w).trans (h.words a r w)
  live := k.live.trans h.live
  cycle := k.cycle.trans h.cycle
  stations := k.stations.trans h.stations
  ladle := k.ladle.trans h.ladle
  map := k.map.trans h.map
  stp := k.stp.trans h.stp
  run := k.run.trans h.run
  axes := k.axes.trans h.axes
  mould := k.mould.trans h.mould
  decision := k.decision.trans h.decision

theorem alike_of_same {d e : Dev} (h : SameButReports d e) : Alike d e where
  words a r _ := h.regs.inUse a r
  live := h.regs.live
  cycle := congrArg (· / 1250) h.tick
  stations := h.stations
  ladle := h.ladle
  map := h.map
  stp := h.stp
  run := by rw [h.heats]
  axes := h.axes
  mould := h.mould
  decision := by rw [h.sched]

theorem insertIdle_of_spells {d e : Dev} (spells : e.sched.idleSince = d.sched.idleSince) (s : Nat) (l : List Nat) : insertIdle e s l = insertIdle d s l := by
  induction l with
  | nil => rfl
  | cons t l ih =>
    unfold insertIdle
    rw [ih, idleSinceOf, idleSinceOf, spells]
    rfl

section
variable {d e : Dev} (h : Alike d e)
include h

theorem Alike.word {p off : Nat} (ho : off < 4096) (report : off ≠ 0x010) (loss : off < 0x064 ∨ p < 0x020 ∧ p ≠ pageEvq ∨ 0x05F < p)
    (failure : p ≠ pageSch ∨ off < 0x104) : e.regs.inUse (wordAddr p off) = d.regs.inUse (wordAddr p off) := by
  refine h.words _ ?_ ?_
  · simp only [pageEvq] at loss
    have page : wordAddr p off / 4096 = p := by unfold wordAddr; omega
    have place : wordAddr p off % 4096 = off := by unfold wordAddr; omega
    simp only [reportWord, page, place, Bool.or_eq_false_iff, Bool.and_eq_false_iff, beq_eq_false_iff_ne, decide_eq_false_iff_not]
    simp only [wordAddr, pageEvq]
    omega
  · rw [failureWord, decide_eq_false_iff_not]
    simp only [wordAddr, pageSch] at failure ⊢
    omega

theorem Alike.enabled (p : Nat) : e.enabled p = d.enabled p := by
  rw [Dev.enabled, Dev.flag, h.word (by decide) (by decide) (.inl (by decide)) (.inr (by decide))]
  rfl

theorem Alike.schFlag (off lo : Nat) (ho : off < 0x064) (report : off ≠ 0x010) : e.flag pageSch off lo = d.flag pageSch off lo := by
  rw [Dev.flag, h.word (by omega) report (.inl ho) (.inr (by omega))]
  rfl

theorem Alike.schFld (off lo w : Nat) (ho : off < 0x104) (report : off ≠ 0x010) :
    e.fld pageSch off lo w = d.fld pageSch off lo w := by
  rw [Dev.fld, h.word (by omega) report (.inr (.inl (by decide))) (.inr ho)]
  rfl

theorem Alike.enabledAt (p k : Nat) : Machine.enabledAt e p k = Machine.enabledAt d p k := by
  simp only [Machine.enabledAt, inUseAt, h.live, h.word (p := p) (off := 0x008) (by decide) (by decide) (.inl (by decide)) (.inr (by decide))]

theorem Alike.stationOf (s : Nat) : Machine.stationOf e s = Machine.stationOf d s := by
  rw [Machine.stationOf, h.stations]
  rfl

theorem Alike.stationOk (s : Nat) : Machine.stationOk e s = Machine.stationOk d s := by
  simp only [Machine.stationOk, h.enabledAt, h.cycle, h.stationOf]

theorem Alike.stationIdleNow (s : Nat) : Machine.stationIdleNow e s = Machine.stationIdleNow d s := by
  simp only [Machine.stationIdleNow, h.stationOk, h.stationOf]

theorem Alike.stationFree (s : Nat) : Machine.stationFree e s = Machine.stationFree d s := by
  simp only [Machine.stationFree, h.stationIdleNow, h.stationOf]

theorem Alike.idleStations (spells : e.sched.idleSince = d.sched.idleSince) : Machine.idleStations e = Machine.idleStations d := by
  have free : Machine.stationFree e = Machine.stationFree d := funext h.stationFree
  simp only [Machine.idleStations, insertIdle_of_spells spells, free]

theorem Alike.ladleReservation (peak : Nat) {s : Nat} (hs : s < 32) :
    Machine.ladleReservation e peak s = Machine.ladleReservation d peak s := by
  have word : e.regs.inUse (wordAddr pageLdl (0x100 + 4 * s)) = d.regs.inUse (wordAddr pageLdl (0x100 + 4 * s)) :=
    h.word (by omega) (by omega) (.inr (.inl (by decide))) (.inl (by decide))
  simp only [Machine.ladleReservation, stationEff, stationIdle, Dev.fld, word]

theorem Alike.ladleCanReserve (need : Nat) : Machine.ladleCanReserve e need = Machine.ladleCanReserve d need := by
  have budget : ladleBudget e = ladleBudget d := by
    rw [ladleBudget, Dev.fld, h.word (by decide) (by decide) (.inr (.inl (by decide))) (.inl (by decide))]
    rfl
  unfold Machine.ladleCanReserve ladleHeld
  rw [h.enabled, h.ladle, budget]

theorem Alike.cellEnergy (i : Nat) : Machine.cellEnergy e i = Machine.cellEnergy d i := by
  have decay : decayFactor e = decayFactor d := by
    rw [decayFactor, Dev.fld, h.word (by decide) (by decide) (.inr (.inl (by decide))) (.inl (by decide))]
    rfl
  simp only [Machine.cellEnergy, decay, mapCell, h.map, mapNow, h.cycle]

theorem Alike.bedCooled (i : BitVec 512) : Machine.bedCooled e i = Machine.bedCooled d i := by
  have threshold : readyThreshold e (islCool i) = readyThreshold d (islCool i) := by
    have small : islCool i < 256 := Nat.mod_lt _ (by decide)
    rw [readyThreshold, Dev.fld, h.word (by omega) (by omega) (.inr (.inl (by decide))) (.inl (by decide))]
    rfl
  have hottest (c0 r0 c1 r1 : Nat) : thermalMax e c0 r0 c1 r1 = thermalMax d c0 r0 c1 r1 := by
    simp only [thermalMax, h.cellEnergy]
  unfold Machine.bedCooled
  rw [h.enabled, hottest, threshold]

theorem Alike.bandClear (box : CellBox) : Machine.bandClear e box = Machine.bandClear d box := by
  have sax (off lo w : Nat) (ho : off < 4096) (report : off ≠ 0x010) : e.fld (pageSax 0) off lo w = d.fld (pageSax 0) off lo w := by
    rw [Dev.fld, h.word ho report (.inr (.inr (by decide))) (.inl (by decide))]
    rfl
  have steps (pos : Int) : stepsToBed e 0 pos = stepsToBed d 0 pos := by
    simp only [stepsToBed, axisOrigin, axisScale, Dev.sfld, sax 0x118 0 32 (by decide) (by decide), sax 0x114 0 32 (by decide) (by decide)]
  have margin (lo : Nat) : e.fld pageSch 0x04C lo 8 = d.fld pageSch 0x04C lo 8 := h.schFld _ _ _ (by decide) (by decide)
  have band : carriageBand e = carriageBand d := by
    unfold carriageBand
    rw [h.stp]
    simp only [steps, margin]
  unfold Machine.bandClear
  rw [band]

theorem Alike.corridor (box : CellBox) : Machine.corridor e box = Machine.corridor d box := by
  have field (lo w : Nat) : e.fld pageSch 0x048 lo w = d.fld pageSch 0x048 lo w := h.schFld _ _ _ (by decide) (by decide)
  simp only [Machine.corridor, field]

end

/-! ### Runs that differ in blocked times -/

section
variable {x y : Run} (h : shown y = shown x)
include h

theorem heat_of_shown : y.heat = x.heat := congrArg (fun v => v.1.heat) h
theorem patches_of_shown : y.patches = x.patches := congrArg (fun v => v.1.patches) h
theorem state_of_shown (k : Nat) : (y.island k).state = (x.island k).state := congrArg (fun v => (v.2 k).state) h
theorem promoted_of_shown (k : Nat) : (y.island k).promoted = (x.island k).promoted := congrArg (fun v => (v.2 k).promoted) h

theorem descriptor_of_shown (k : Nat) : y.descriptor k = x.descriptor k := by
  simp only [Run.descriptor, heat_of_shown h, patches_of_shown h]

theorem pours_of_shown (k : Nat) : y.pours k = x.pours k := by
  simp only [Run.pours, heat_of_shown h, patches_of_shown h, descriptor_of_shown h]

theorem keys_of_shown : y.keys = x.keys := by simp only [Run.keys, heat_of_shown h, patches_of_shown h]

theorem ready_of_shown : y.ready = x.ready := by simp only [Run.ready, keys_of_shown h, state_of_shown h]

theorem head_of_shown : y.head = x.head := by simp only [Run.head, ready_of_shown h, promoted_of_shown h]

theorem stitchClear_of_shown (k : Nat) : stitchClear y k = stitchClear x k := by
  have busy (j : Nat) : y.busy j = x.busy j := by simp only [Run.busy, state_of_shown h]
  simp only [stitchClear, descriptor_of_shown h, keys_of_shown h, busy]

end

/-- A run before and after, but for blocked times. -/
theorem Alike.running {d e : Dev} (h : Alike d e) {x : Run} (hx : d.heats.running = some x) :
    ∃ y, e.heats.running = some y ∧ shown y = shown x := by
  have run := h.run
  rw [hx] at run
  exact Option.map_eq_some_iff.mp run

theorem Alike.castingCells {d e : Dev} (h : Alike d e) (t : Nat) : Machine.castingCells e t = Machine.castingCells d t := by
  unfold Machine.castingCells
  rw [h.stationOf]
  cases hx : d.heats.running with
  | none =>
    have idle := h.run
    rw [hx, Option.map_none, Option.map_eq_none_iff] at idle
    rw [idle]
  | some x =>
    obtain ⟨y, hy, hs⟩ := h.running hx
    rw [hy]
    cases hi : (Machine.stationOf d t).island with
    | none => simp only [hi]
    | some key => simp only [hi, pours_of_shown hs]

theorem Alike.plumeClear {d e : Dev} (h : Alike d e) (s : Nat) (box : CellBox) : Machine.plumeClear e s box = Machine.plumeClear d s box := by
  have reverse : e.flag pageSch 0x048 2 = d.flag pageSch 0x048 2 := h.schFlag _ _ (by decide) (by decide)
  simp only [Machine.plumeClear, h.castingCells, h.corridor, reverse]

/-- The conditions of R121 do not see reports, failure counts and blocked times. -/
theorem Alike.eligibility {d e : Dev} (h : Alike d e) {x y : Run} (hxy : shown y = shown x) (k : Nat) {s : Nat} (hs : s < 32) :
    Machine.eligibility e y k s none = Machine.eligibility d x k s none := by
  unfold Machine.eligibility
  simp only [descriptor_of_shown hxy, h.ladleReservation _ hs, h.ladleCanReserve, h.bedCooled, h.plumeClear, h.bandClear,
    stitchClear_of_shown hxy]

end Sys2Proof.Proofs
end

section
namespace Sys2Proof.Proofs
open Sys2Proof.Machine Sys2Proof.Laws

/-! ### A decision (R116, R119) -/

theorem eligibility_le (d : Dev) (x : Run) (k s : Nat) (head : Option Nat) : eligibility d x k s head ≤ 6 := by
  unfold eligibility
  dsimp only
  repeat' split
  all_goals omega

/-- An examined island's blocked time begins. -/
theorem shown_blocked (x : Run) (k : Nat) (b : Option Nat) : shown (x.setIsland k { x.island k with blockedSince := b }) = shown x := by
  refine Prod.ext rfl (funext fun j => ?_)
  by_cases h : j = k
  · simp [shown, Run.island, Run.setIsland, get_set, h]
  · simp [shown, Run.island, Run.setIsland, get_set, h]

/-- Counting a failed examination changes nothing that the conditions see. -/
theorem alike_countFailure (d : Dev) (k : Nat) {cond : Nat} (low : 1 ≤ cond) (high : cond ≤ 6) : Alike d (countFailure d k cond) := by
  have counted : Alike d (d.count pageSch (0x100 + 4 * cond)) := by
    refine { Alike.refl d with words := fun a _ ha => ?_ }
    rw [Dev.count, Dev.addCount, setReg_inUse, if_neg]
    rintro rfl
    rw [failureWord, decide_eq_false_iff_not] at ha
    simp only [wordAddr, pageSch] at ha
    omega
  unfold countFailure
  dsimp only
  split
  · refine { counted with run := ?_ }
    refine (Option.map_map _ _ _).trans (Eq.trans ?_ counted.run)
    refine congrArg (fun f => Option.map f _) (funext fun x => ?_)
    dsimp only [Function.comp]
    split
    · exact shown_blocked x k _
    · rfl
  · exact counted

/-- The island that a decision names. -/
theorem decideIsland_decision (d : Dev) (x : Run) (k s : Nat) :
    (decideIsland d x k s).sched.decision =
      some ⟨d.cycle, k, s, ladleReservation d (islPeak (x.descriptor k)) s, (x.island k).promoted⟩ := rfl

/-- The scan decides for the first island that is eligible (R119). `d` and `x` are as before the scan. -/
theorem scanIslands_decision {d : Dev} {x : Run} {s k : Nat} {after : List Nat} (hs : s < 32) (hx : d.heats.running = some x)
    (fits : eligibility d x k s none = 0) (before : List Nat) (fail : ∀ i, i ∈ before → eligibility d x i s none ≠ 0) {e : Dev}
    (h : Alike d e) :
    (scanIslands s none (before ++ k :: after) e).2 = true ∧
    (scanIslands s none (before ++ k :: after) e).1.sched.decision =
      some ⟨d.cycle, k, s, ladleReservation d (islPeak (x.descriptor k)) s, (x.island k).promoted⟩ := by
  induction before generalizing e with
  | nil =>
    obtain ⟨y, hy, same⟩ := h.running hx
    rw [List.nil_append, scanIslands, hy]
    dsimp only
    rw [if_pos ((h.eligibility same k hs).trans fits)]
    refine ⟨rfl, ?_⟩
    rw [decideIsland_decision, h.cycle, descriptor_of_shown same, h.ladleReservation _ hs, promoted_of_shown same]
  | cons i before ih =>
    obtain ⟨y, hy, same⟩ := h.running hx
    have not : eligibility e y i s none ≠ 0 := by
      rw [h.eligibility same i hs]
      exact fail i List.mem_cons_self
    rw [List.cons_append, scanIslands, hy]
    dsimp only
    rw [if_neg not]
    exact ih (fun j hj => fail j (List.mem_cons_of_mem i hj))
      (h.trans (alike_countFailure e i (Nat.one_le_iff_ne_zero.mpr not) (eligibility_le e y i s none)))

/-- The idle spells of the cycle are noted alike. -/
theorem Alike.spells {d e : Dev} (h : Alike d e) (spells : e.sched.idleSince = d.sched.idleSince) :
    (trackIdle e).sched.idleSince = (trackIdle d).sched.idleSince := by
  have idle : Machine.stationIdleNow e = Machine.stationIdleNow d := funext h.stationIdleNow
  simp only [trackIdle, spells, idle, h.cycle]

/-- The device as the dispatcher's cycle begins. -/
def dispatchStart (d : Dev) : Dev := { trackIdle d with sched := { (trackIdle d).sched with heldMask := 0 } }

theorem alike_trackIdle (d : Dev) : Alike d (trackIdle d) := { Alike.refl d with }

theorem alike_dispatchStart (d : Dev) : Alike d (dispatchStart d) := { alike_trackIdle d with }

theorem countStall_decision (d : Dev) (ready idle decided : Bool) : (countStall d ready idle decided).sched.decision = d.sched.decision := by
  unfold countStall
  split <;> rfl

/-- What keeps the dispatcher from examining any island (R117, R119). -/
def blocked (d : Dev) (x : Run) : Bool := !d.enabled pageSch || draining d || x.passPending || !x.spread

/-- The islands in the order in which an idle station examines them (R119, R138). -/
def examined (d : Dev) (y : Run) : List Nat :=
  let rest := y.ready.filter fun k => y.head != some k
  (rest.filter (fun k => (y.island k).promoted) ++ rest.filter fun k => !(y.island k).promoted).take (d.fld pageSch 0x100 0 11)

/-- The dispatcher's work in a cycle that nothing blocks. `d` is the device before the promotions, `e` after them. -/
def examine (d e : Dev) (y : Run) : Dev :=
  let idle := idleStations d
  let r := scanStations y.head (examined d y) idle e
  countStall r.1 (!y.ready.isEmpty) (!idle.isEmpty) r.2

theorem dispatchCycle_eq (e : Dev) {y : Run} (hy : e.heats.running = some y) :
    dispatchCycle e =
      if blocked (dispatchStart e) y then
        countStall (dispatchStart e) (!y.ready.isEmpty) (!(idleStations (dispatchStart e)).isEmpty) false
      else
        match (promoteIslands (dispatchStart e)).heats.running with
        | none => promoteIslands (dispatchStart e)
        | some z => examine (dispatchStart e) (promoteIslands (dispatchStart e)) z := by
  have run : (dispatchStart e).heats.running = some y := hy
  unfold dispatchCycle
  extract_lets _ _ d
  have start : d = dispatchStart e := rfl
  clear_value d
  subst start
  rw [run]
  rfl

/-- Where the promotion limit is 0 no island is promoted (R136). -/
theorem promoteIslands_off {d : Dev} (h : d.fld pageSch 0x044 0 32 = 0) : promoteIslands d = d := by
  unfold promoteIslands
  dsimp only
  split
  · rfl
  · exact if_pos h

/-- Where no island is promoted, all that are READY stand in their order. -/
theorem examined_plain (d : Dev) {y : Run} (h : y.head = none) : examined d y = y.ready.take (d.fld pageSch 0x100 0 11) := by
  have plain : ∀ k, k ∈ y.ready → (y.island k).promoted = false := fun k hk => by
    have w := List.find?_eq_none.mp h k hk
    exact eq_false_of_ne_true w
  have all : (y.ready.filter fun k => y.head != some k) = y.ready := by
    rw [h]
    exact List.filter_eq_self.mpr fun _ _ => rfl
  unfold examined
  dsimp only
  rw [all, List.filter_eq_nil_iff.mpr fun k hk => by simp [plain k hk], List.filter_eq_self.mpr fun k hk => by simp [plain k hk],
    List.nil_append]

theorem alike_blocked {d e : Dev} (h : Alike d e) {x y : Run} (same : shown y = shown x) : blocked e y = blocked d x := by
  have drain : draining e = draining d := h.schFlag 0x040 0 (by decide) (by decide)
  have pending : y.passPending = x.passPending := congrArg (fun v => v.1.passPending) same
  have spread : y.spread = x.spread := congrArg (fun v => v.1.spread) same
  rw [blocked, h.enabled, drain, pending, spread, blocked]

/-- A blocked dispatcher decides nothing (R117, R119). -/
theorem dispatchCycle_blocked {d e : Dev} (h : Alike d e) {x : Run} (hx : d.heats.running = some x) (hb : blocked d x = true) :
    (dispatchCycle e).sched.decision = d.sched.decision := by
  have start := h.trans (alike_dispatchStart e)
  obtain ⟨y, hy, same⟩ := h.running hx
  rw [dispatchCycle_eq e hy, alike_blocked start same, if_pos hb, countStall_decision]
  exact h.decision

/-! The one idle station takes the first island that is eligible. -/

theorem mem_insertIdle (d : Dev) (s a : Nat) (l : List Nat) : a ∈ insertIdle d s l → a = s ∨ a ∈ l := by
  induction l with
  | nil => exact fun h => .inl (List.mem_singleton.mp h)
  | cons t l ih =>
    unfold insertIdle
    split
    · intro h
      rcases List.mem_cons.mp h with rfl | h
      · exact .inr List.mem_cons_self
      · exact (ih h).imp_right (List.mem_cons_of_mem t)
    · exact List.mem_cons.mp

theorem idleStations_lt (d : Dev) {s : Nat} (h : s ∈ idleStations d) : s < 32 := by
  have all : ∀ a, a ∈ idleStations d → a < 32 := by
    unfold idleStations
    refine List.foldlRecOn (motive := fun l : List Nat => ∀ a, a ∈ l → a < 32) _ _ (fun a ha => absurd ha List.not_mem_nil)
      fun l hl t ht a ha => ?_
    rcases mem_insertIdle d t a l ha with rfl | ha
    · exact List.mem_range.mp (List.mem_filter.mp ht).1
    · exact hl a ha
  exact all s h

/-- One idle station and no head island: the scan is that of the station. -/
theorem scanStations_one (order : List Nat) (n : Nat) (d : Dev) (h : (scanIslands n none order d).2 = true) :
    scanStations none order [n] d = scanIslands n none order d := by
  unfold scanStations
  cases d.heats.running with
  | none => exact if_pos h
  | some x => exact if_pos h

/-- An unblocked dispatcher without promotions gives the one idle station the first READY island that is eligible (R119). -/
theorem dispatchCycle_decides {d e : Dev} (h : Alike d e) (spells : e.sched.idleSince = d.sched.idleSince) {x : Run}
    (hx : d.heats.running = some x) (unblocked : blocked d x = false) (limit : d.fld pageSch 0x044 0 32 = 0) (head : x.head = none)
    {n k : Nat} {before after : List Nat} (idle : idleStations (trackIdle d) = [n])
    (order : x.ready.take (d.fld pageSch 0x100 0 11) = before ++ k :: after)
    (fail : ∀ i, i ∈ before → eligibility d x i n none ≠ 0) (fits : eligibility d x k n none = 0) :
    (dispatchCycle e).sched.decision =
      some ⟨d.cycle, k, n, ladleReservation d (islPeak (x.descriptor k)) n, (x.island k).promoted⟩ := by
  have start := h.trans (alike_dispatchStart e)
  obtain ⟨y, hy, same⟩ := h.running hx
  have hn : n < 32 := idleStations_lt (trackIdle d) (idle ▸ List.mem_singleton_self n)
  have headY : y.head = none := (head_of_shown same).trans head
  have orderY : examined (dispatchStart e) y = before ++ k :: after := by
    rw [examined_plain _ headY, ready_of_shown same, start.schFld 0x100 0 11 (by decide) (by decide), order]
  have idleY : idleStations (dispatchStart e) = [n] := by
    have track : Alike (trackIdle d) (dispatchStart e) := { start with }
    exact (track.idleStations (h.spells spells)).trans idle
  obtain ⟨found, decision⟩ := scanIslands_decision hn hx fits before fail start
  have promote : promoteIslands (dispatchStart e) = dispatchStart e :=
    promoteIslands_off ((start.schFld 0x044 0 32 (by decide) (by decide)).trans limit)
  have run : (dispatchStart e).heats.running = some y := hy
  rw [dispatchCycle_eq e hy, alike_blocked start same, unblocked, if_neg Bool.false_ne_true, promote, run]
  dsimp only
  rw [examine, headY, orderY, idleY]
  rw [countStall_decision, scanStations_one _ _ _ found]
  exact decision

end Sys2Proof.Proofs
end

section
namespace Sys2Proof.Proofs
open Sys2Proof.Machine Sys2Proof.Laws

/-! ### The dispatcher leaves the axes, the interlock and what is enabled -/

def bench (d : Dev) : Tab Axis × Mould × (Nat → Bool) := (d.axes, d.mould, d.enabled)

theorem bench_of_alike {d e : Dev} (h : Alike d e) : bench e = bench d := by
  have enabled : e.enabled = d.enabled := funext h.enabled
  simp only [bench, h.axes, h.mould, enabled]

theorem bench_setReg (d : Dev) (p off v : Nat) (h : off % 4096 ≠ 8) : bench (d.setReg p off v) = bench d := by
  simp only [bench, enabled_setReg _ _ _ _ h, setReg_axes, setReg_mould]

theorem bench_setReg64 (d : Dev) (p off v : Nat) (h : off % 4096 ≠ 8) (k : (off + 4) % 4096 ≠ 8) :
    bench (d.setReg64 p off v) = bench d := (bench_setReg _ _ _ _ k).trans (bench_setReg _ _ _ _ h)

theorem bench_count (d : Dev) (p off : Nat) (h : off % 4096 ≠ 8) : bench (d.count p off) = bench d := bench_setReg _ _ _ _ h

theorem bench_decided (d : Dev) (c : Option Decision) (x : Run) :
    bench (setRun { d with sched := { d.sched with decision := c } } x) = bench d := rfl

theorem bench_decideIsland (d : Dev) (x : Run) (k s : Nat) : bench (decideIsland d x k s) = bench d := by
  unfold decideIsland
  dsimp only
  rw [bench_decided, bench_count _ _ _ (by decide), bench_setReg64 _ _ _ _ (by decide) (by decide), bench_setReg _ _ _ _ (by decide)]

theorem bench_countFailure (d : Dev) (x : Run) (k j s : Nat) (head : Option Nat) (h : eligibility d x k s head ≠ 0) :
    bench (countFailure d j (eligibility d x k s head)) = bench d :=
  bench_of_alike (alike_countFailure d j (Nat.one_le_iff_ne_zero.mpr h) (eligibility_le d x k s head))

theorem bench_scanIslands (s : Nat) (head : Option Nat) (l : List Nat) (d : Dev) : bench (scanIslands s head l d).1 = bench d := by
  induction l generalizing d with
  | nil => rfl
  | cons k t ih =>
    unfold scanIslands
    split
    · rfl
    · dsimp only
      split
      · exact bench_decideIsland _ _ _ _
      case isFalse h => exact (ih _).trans (bench_countFailure _ _ _ _ _ _ h)

theorem bench_scanStations (head : Option Nat) (order l : List Nat) (d : Dev) : bench (scanStations head order l d).1 = bench d := by
  induction l generalizing d with
  | nil => rfl
  | cons s t ih =>
    have scanned (e : Dev) (he : bench e = bench d) : bench (scanStations head order t e).1 = bench d := (ih e).trans he
    unfold scanStations
    split
    · split
      · dsimp only
        split
        · exact bench_decideIsland _ _ _ _
        case isFalse h => exact scanned _ (bench_countFailure _ _ _ _ _ _ h)
      · dsimp only
        split
        · exact bench_scanIslands _ _ _ _
        · exact scanned _ (bench_scanIslands _ _ _ _)
    · dsimp only
      split
      · exact bench_scanIslands _ _ _ _
      · exact scanned _ (bench_scanIslands _ _ _ _)

theorem bench_promoteIslands (d : Dev) : bench (promoteIslands d) = bench d := by
  unfold promoteIslands
  dsimp only
  split
  · rfl
  split
  · rfl
  refine List.foldlRecOn (motive := fun e => bench e = bench d) _ _ rfl fun e he k _ => ?_
  refine (bench_of_alike (alike_of_same (same_raise _ _ _ _ _ _ _ (by decide)))).trans ?_
  rw [bench_count _ _ _ (by decide)]
  exact he

theorem bench_countStall (d : Dev) (ready idle decided : Bool) : bench (countStall d ready idle decided) = bench d := by
  unfold countStall
  split <;> rfl

theorem bench_dispatchCycle (d : Dev) : bench (dispatchCycle d) = bench d := by
  have start : bench (dispatchStart d) = bench d := rfl
  cases h : d.heats.running with
  | none =>
    have w : dispatchCycle d = countStall (dispatchStart d) false false false := by
      unfold dispatchCycle
      extract_lets _ _ e
      have run : e.heats.running = none := h
      rw [run]
      rfl
    rw [w, bench_countStall, start]
  | some y =>
    rw [dispatchCycle_eq d h]
    split
    · rw [bench_countStall, start]
    · split
      · rw [bench_promoteIslands, start]
      · rw [examine, bench_countStall, bench_scanStations, bench_promoteIslands, start]

end Sys2Proof.Proofs
end

section
namespace Sys2Proof.Proofs
open Sys2Proof.Machine Sys2Proof.Laws

/-! ### The servo windows of the computation (R262) -/

/-- What no servo window changes. -/
def lasting (d : Dev) : Bool × Option Decision × (Nat → Bool) := (d.mould.latched, d.sched.decision, d.enabled)

theorem lasting_of_spared {d e : Dev} {j : Nat} (h : spared j e = spared j d) : lasting e = lasting d := congrArg Prod.snd h

theorem axisRuns_of_lasting {d e : Dev} (h : lasting e = lasting d) (j : Nat) : axisRuns e j = axisRuns d j := by
  have enabled : e.enabled = d.enabled := congrArg (fun v => v.2.2) h
  simp only [axisRuns, enabled]

theorem other_of_spared {d e : Dev} {j k : Nat} (h : spared j e = spared j d) (hk : k ≠ j) : axisOfServo e k = axisOfServo d k := by
  have w := congrFun (congrArg Prod.fst h) k
  simpa [spared, hk] using w

@[simp] theorem spared_setStation (d : Dev) (j s : Nat) (x : Station) : spared j (setStation d s x) = spared j d := rfl

@[simp] theorem spared_putRun (d : Dev) (j : Nat) (h : Option Nat) (r : Option CalRun) : spared j (putRun d h r) = spared j d := by
  cases h <;> rfl

@[simp] theorem axisOfServo_setStation (d : Dev) (j s : Nat) (x : Station) : axisOfServo (setStation d s x) j = axisOfServo d j := rfl

@[simp] theorem axisOfServo_putRun (d : Dev) (j : Nat) (h : Option Nat) (r : Option CalRun) : axisOfServo (putRun d h r) j = axisOfServo d j := by
  cases h <;> rfl

@[simp] theorem spared_shiftReference (d : Dev) (j : Nat) : spared j (shiftReference d j) = spared j d := by
  unfold shiftReference
  dsimp only
  repeat' split
  all_goals simp

theorem tended_shiftReference (d : Dev) (j : Nat) : Tended (axisOfServo d j) (axisOfServo (shiftReference d j) j) := by
  have shifted (v : Nat) : Tended (axisOfServo d j) { axisOfServo d j with refPos := v } := ⟨rfl, rfl, rfl, id⟩
  unfold shiftReference
  dsimp only
  repeat' split
  · exact Tended.refl _
  all_goals
    simp only [axisOfServo_setStation, axisOfServo_putRun, axisOfServo_setServo]
    exact shifted _

/-- Every axis has been through windows that leave its program and keep its output in 16 bits. -/
structure AllTended (d e : Dev) : Prop where
  axis : ∀ j, Tended (axisOfServo d j) (axisOfServo e j)
  lasting : lasting e = lasting d

theorem AllTended.refl (d : Dev) : AllTended d d := ⟨fun _ => Tended.refl _, rfl⟩

theorem AllTended.trans {d e f : Dev} (h : AllTended d e) (k : AllTended e f) : AllTended d f :=
  ⟨fun j => (h.axis j).trans (k.axis j), k.lasting.trans h.lasting⟩

/-- A window of one axis, the others left alone. -/
theorem allTended_of_spared {d e : Dev} (j : Nat) (own : Tended (axisOfServo d j) (axisOfServo e j)) (h : spared j e = spared j d) :
    AllTended d e := by
  refine ⟨fun k => ?_, lasting_of_spared h⟩
  by_cases hk : k = j
  · exact hk ▸ own
  · rw [other_of_spared h hk]
    exact Tended.refl _

theorem allTended_shiftReferences (d : Dev) : AllTended d (upto 96 shiftReference d) :=
  upto_induct (fun _ e => AllTended d e) (AllTended.refl d) fun k e _ he =>
    he.trans (allTended_of_spared k (tended_shiftReference e k) (spared_shiftReference e k))

theorem allTended_servoPosts (d : Dev) :
    AllTended d (upto 96 servoPost d) ∧ ∀ j, j < 96 → axisRuns d j = false → Off (axisOfServo (upto 96 servoPost d) j) := by
  refine upto_induct (fun k e => AllTended d e ∧ ∀ j, j < k → axisRuns d j = false → Off (axisOfServo e j))
    ⟨AllTended.refl d, fun j hj => absurd hj (Nat.not_lt_zero j)⟩ ?_
  rintro k e - ⟨he, off⟩
  refine ⟨he.trans (allTended_of_spared k (tended_servoPost e k) (spared_servoPost e k)), fun j hj rests => ?_⟩
  obtain hj | rfl := Nat.lt_succ_iff_lt_or_eq.mp hj
  · rw [other_of_spared (spared_servoPost e k) hj.ne]
    exact off j hj rests
  · exact off_servoPost e j ((axisRuns_of_lasting he.lasting j).trans rests)

/-! ### The whole computation -/

/-- The dispatcher's part of the computation. -/
def dispatched (d : Dev) : Dev := if d.holds then dispatchCycle d else trackIdle d

/-- The computation up to the servo windows, and the windows. -/
def servoed (d : Dev) : Dev := upto 96 servoPost (upto 96 shiftReference (upto 32 stationChannels (dispatched d)))

/-- The stations' motion and the calibration, on what the windows leave. -/
def moved (d : Dev) : Dev := calCycle (upto 32 remapMove (faultStations (upto 32 placeStation (upto 32 measureSpot d))))

/-- What follows the stations' frames. -/
def traced (d : Dev) : Dev := traceCycle (lineHeadCycle (upto 32 exposeStep (calDenied d)))

/-- The computation but for the event marks of the traces. -/
def computed (d : Dev) : Dev := traced (upto 32 stationCycle (moved (servoed d)))

theorem computeCycle_eq (d : Dev) : computeCycle d = clearAxisEvents (computed d) := rfl

theorem gates_moved (d : Dev) : gates (moved d) = gates d := by
  rw [moved, gates_calCycle, gates_upto 32 _ gates_remapMove, gates_faultStations, gates_upto 32 _ gates_placeStation,
    gates_upto 32 _ gates_measureSpot]

theorem gates_traced (d : Dev) : gates (traced d) = gates d := by
  rw [traced, gates_traceCycle, gates_lineHeadCycle, gates_upto 32 _ gates_exposeStep, gates_calDenied]

theorem held_of_gates {d e : Dev} (h : gates e = gates d) : held e = held d := congrArg Prod.snd h

/-- Framing the stations leaves axes, interlock and decision; a latched interlock shuts every gate (R229, R463). -/
theorem framed_stationCycles (d : Dev) :
    held (upto 32 stationCycle d) = held d ∧
      (d.mould.latched = true → ∀ n, n < 32 → (stationOf (upto 32 stationCycle d) n).sent.emits = false) := by
  refine upto_induct (fun k e => held e = held d ∧ (d.mould.latched = true → ∀ n, n < k → (stationOf e n).sent.emits = false))
    ⟨rfl, fun _ n hn => absurd hn (Nat.not_lt_zero n)⟩ ?_
  rintro k e - ⟨kept, shut⟩
  obtain ⟨b, frame, closed⟩ := framed_stationCycle e k
  have latch : e.mould.latched = d.mould.latched := congrArg (fun v => v.2.1) kept
  refine ⟨(congrArg Prod.snd frame).trans kept, fun latched n hn => ?_⟩
  rw [emits_of_gates, frame]
  obtain hn | rfl := Nat.lt_succ_iff_lt_or_eq.mp hn
  · rw [reframe_other hn.ne]
    exact shut latched n hn
  · rw [reframe_same]
    exact closed (latch.trans latched)

/-- What a trace's event mark leaves. -/
theorem clearAxisEvents_effect (d : Dev) :
    (clearAxisEvents d).stations = d.stations ∧ lasting (clearAxisEvents d) = lasting d ∧
      ∀ j, ∃ b, axisOfServo (clearAxisEvents d) j = { axisOfServo d j with event := b } := by
  unfold clearAxisEvents
  refine upto_induct (fun _ e => e.stations = d.stations ∧ lasting e = lasting d ∧
    ∀ j, ∃ b, axisOfServo e j = { axisOfServo d j with event := b }) ⟨rfl, rfl, fun j => ⟨_, rfl⟩⟩ ?_
  rintro k e - ⟨stations, last, axes⟩
  refine ⟨stations, last, fun j => ?_⟩
  by_cases h : j = k
  · obtain ⟨b, hb⟩ := axes k
    subst h
    exact ⟨false, by rw [axisOfServo_setServo, hb]⟩
  · rw [axisOfServo_other h]
    exact axes j

end Sys2Proof.Proofs
end

section
namespace Sys2Proof.Proofs
open Sys2Proof.Machine Sys2Proof.Laws

/-! ### What the computation leaves -/

section
variable {d e : Dev}

theorem axes_of_aside (h : aside e = aside d) : e.axes = d.axes := congrArg (fun v => v.1) h
theorem sched_of_aside (h : aside e = aside d) : e.sched = d.sched := congrArg (fun v => v.2.2.1) h
theorem mould_of_aside (h : aside e = aside d) : e.mould = d.mould := congrArg (fun v => v.2.2.2.1) h
theorem enabled_of_aside (h : aside e = aside d) : e.enabled = d.enabled := congrArg (fun v => v.2.2.2.2) h

theorem axes_of_bench (h : bench e = bench d) : e.axes = d.axes := congrArg (fun v => v.1) h
theorem mould_of_bench (h : bench e = bench d) : e.mould = d.mould := congrArg (fun v => v.2.1) h
theorem enabled_of_bench (h : bench e = bench d) : e.enabled = d.enabled := congrArg (fun v => v.2.2) h

theorem latched_of_lasting (h : lasting e = lasting d) : e.mould.latched = d.mould.latched := congrArg (fun v => v.1) h
theorem decision_of_lasting (h : lasting e = lasting d) : e.sched.decision = d.sched.decision := congrArg (fun v => v.2.1) h

theorem axes_of_held (h : held e = held d) : e.axes = d.axes := congrArg (fun v => v.1) h
theorem decision_of_held (h : held e = held d) : e.sched.decision = d.sched.decision := congrArg (fun v => v.2.2) h

theorem axisOfServo_of_axes (h : e.axes = d.axes) (j : Nat) : axisOfServo e j = axisOfServo d j := by rw [axisOfServo, h, axisOfServo]
theorem stationOf_of_stations (h : e.stations = d.stations) (k : Nat) : stationOf e k = stationOf d k := by rw [stationOf, h, stationOf]
theorem axisRuns_of_enabled (h : e.enabled = d.enabled) (j : Nat) : axisRuns e j = axisRuns d j := by simp only [axisRuns, h]

end

theorem bench_dispatched (d : Dev) : bench (dispatched d) = bench d := by
  unfold dispatched
  split
  · exact bench_dispatchCycle d
  · rfl

/-- The dispatcher's work and the samples of the cycle. -/
def sampled (d : Dev) : Dev := upto 32 stationChannels (dispatched d)

theorem aside_sampled (d : Dev) : aside (sampled d) = aside (dispatched d) := aside_upto 32 _ aside_stationChannels _


theorem lasting_servoed (d : Dev) : lasting (servoed d) = lasting (sampled d) :=
  ((allTended_servoPosts _).1.lasting).trans (allTended_shiftReferences _).lasting

theorem latched_servoed (d : Dev) : (servoed d).mould.latched = d.mould.latched := by
  rw [latched_of_lasting (lasting_servoed d), mould_of_aside (aside_sampled d), mould_of_bench (bench_dispatched d)]

theorem decision_servoed (d : Dev) : (servoed d).sched.decision = (dispatched d).sched.decision := by
  rw [decision_of_lasting (lasting_servoed d), sched_of_aside (aside_sampled d)]

/-- The servo axes after the windows (R262). -/
theorem servoed_axes (d : Dev) (j : Nat) :
    Tended (axisOfServo d j) (axisOfServo (servoed d) j) ∧ (j < 96 → axisRuns d j = false → Off (axisOfServo (servoed d) j)) := by
  have shift := allTended_shiftReferences (sampled d)
  obtain ⟨post, off⟩ := allTended_servoPosts (upto 96 shiftReference (sampled d))
  have axes : (sampled d).axes = d.axes := (axes_of_aside (aside_sampled d)).trans (axes_of_bench (bench_dispatched d))
  have enabled : (sampled d).enabled = d.enabled := (enabled_of_aside (aside_sampled d)).trans (enabled_of_bench (bench_dispatched d))
  refine ⟨?_, fun hj rests => off j hj ?_⟩
  · rw [← axisOfServo_of_axes axes]
    exact (shift.trans post).axis j
  · rw [axisRuns_of_lasting shift.lasting, axisRuns_of_enabled enabled, rests]

/-- The frames and what follows them keep the axes, the latch and the decision. -/
theorem held_stationed (d : Dev) : held (traced (upto 32 stationCycle (moved d))) = held d :=
  (held_of_gates (gates_traced _)).trans ((framed_stationCycles _).1.trans (held_of_gates (gates_moved d)))

theorem held_computed (d : Dev) : held (computed d) = held (servoed d) := held_stationed (servoed d)

/-- The event mark of a trace is no part of either. -/
theorem Tended.marked {x y : Axis} (h : Tended x y) (b : Bool) : Tended x { y with event := b } := ⟨h.active, h.staged, h.bank, h.word⟩
theorem Off.marked {y : Axis} (h : Off y) (b : Bool) : Off { y with event := b } := h

theorem computeCycle_axes (d : Dev) (j : Nat) :
    Tended (axisOfServo d j) (axisOfServo (computeCycle d) j) ∧
      (j < 96 → axisRuns d j = false → Off (axisOfServo (computeCycle d) j)) := by
  obtain ⟨tended, off⟩ := servoed_axes d j
  obtain ⟨b, hb⟩ := (clearAxisEvents_effect (computed d)).2.2 j
  have axis : axisOfServo (computeCycle d) j = { axisOfServo (servoed d) j with event := b } := by
    rw [computeCycle_eq, ← axisOfServo_of_axes (axes_of_held (held_computed d))]
    exact hb
  rw [axis]
  exact ⟨tended.marked b, fun hj rests => (off hj rests).marked b⟩

theorem computed_gates (d : Dev) (latched : d.mould.latched = true) {n : Nat} (hn : n < 32) :
    (stationOf (computed d) n).sent.emits = false := by
  have latch : (moved (servoed d)).mould.latched = true :=
    (latched_of_gates (gates_moved _)).trans ((latched_servoed d).trans latched)
  have shut := (framed_stationCycles (moved (servoed d))).2 latch n hn
  rw [emits_of_gates] at shut ⊢
  rw [computed, gates_traced]
  exact shut

theorem computeCycle_gates (d : Dev) (latched : d.mould.latched = true) {n : Nat} (hn : n < 32) :
    (stationOf (computeCycle d) n).sent.emits = false := by
  have station : stationOf (computeCycle d) n = stationOf (computed d) n := by
    rw [computeCycle_eq]
    exact stationOf_of_stations (clearAxisEvents_effect (computed d)).1 n
  rw [station]
  exact computed_gates d latched hn

theorem computeCycle_decision (d : Dev) : (computeCycle d).sched.decision = (dispatched d).sched.decision := by
  rw [computeCycle_eq, decision_of_lasting (clearAxisEvents_effect (computed d)).2.1, decision_of_held (held_computed d),
    decision_servoed]

/-! ### UPLINK_DEADLINE of a device that computes -/

/-- What the command leaves where its moment has come. -/
def computedAt300 (s : State) : Dev := marked300 (noted300 s.now) (computeCycle (noted300 s.now))

theorem marked300_axis (d e : Dev) (j : Nat) : axisOfServo (marked300 d e) j = axisOfServo e j := rfl
theorem marked300_station (d e : Dev) (n : Nat) : stationOf (marked300 d e) n = stationOf e n := rfl
theorem marked300_sched (d e : Dev) : (marked300 d e).sched = e.sched := rfl

theorem exactly_uplinkDeadline (s : State) (computes : s.dev.computes = true) (due : s.dev.boot.deadlineOf ≠ s.dev.cycle + 1) :
    AnswersExactly s .uplinkDeadline (computedAt300 s) := by
  have exact : AnswersExactly s .uplinkDeadline (uplinkDeadline s.now) := exactly_of_onDev (f := uplinkDeadline) rfl
  have running : s.dev.running = true := (Bool.and_eq_true_iff.mp computes).1
  have still : (noted300 s.now).computes = true := (noted300_computes s.now).trans computes
  rw [uplinkDeadline_due s.now running due] at exact
  rw [if_pos still] at exact
  exact exact

/-- The conditions of the computation are those that stand as the command comes. -/
theorem alike_noted300 (s : State) : Alike s.dev (noted300 s.now) := by
  have arrived : Alike s.dev (s.now.arrive 300) := by
    have time : Alike s.dev { s.now with tick := (s.now.arrive 300).tick } :=
      { Alike.refl s.dev with cycle := arrive_cycle s.now 300 }
    have here := alike_of_same (same_arrive s.now 300)
    rw [← arrive_tick] at here
    exact time.trans here
  obtain ⟨same, -⟩ := noted_reportEvents (s.now.arrive 300)
  have reports : Alike (s.now.arrive 300) { s.now.arrive 300 with free := (noted300 s.now).free, par := (noted300 s.now).par } :=
    { Alike.refl (s.now.arrive 300) with }
  exact (arrived.trans reports).trans (alike_of_same same)

end Sys2Proof.Proofs
end

section
namespace Sys2Proof.Proofs
open Sys2Proof.Machine Sys2Proof.Laws

/-! ### The computation of a cycle: O31 -/

theorem noted300_sched (s : State) : (noted300 s.now).sched = s.dev.sched := (noted_reportEvents _).1.sched.trans (arrive_sched _ _)

theorem noted300_holds (s : State) : (noted300 s.now).holds = s.dev.holds := by
  have role : (noted300 s.now).par.role = s.dev.par.role :=
    (noted_reportEvents _).2.trans (congrArg Par.role (arrive_par _ _))
  simp only [Dev.holds, role]

section
variable (s : State) (computes : s.dev.computes = true) (due : s.dev.boot.deadlineOf ≠ s.dev.cycle + 1)
include computes due

/-- The axes after the computation (R262). -/
theorem uplinkDeadline_axes (j : Fin 96) :
    Answers s .uplinkDeadline fun t =>
      Tended (axisOfServo s.dev j.val) (axisOfServo t.dev j.val) ∧
        (axisRuns s.dev j.val = false → Off (axisOfServo t.dev j.val)) := by
  refine answers_of_exactly (exactly_uplinkDeadline s computes due) fun t _ dev => ?_
  have alike := alike_noted300 s
  have axis : axisOfServo (noted300 s.now) j.val = axisOfServo s.dev j.val := axisOfServo_of_axes alike.axes _
  have runs : axisRuns (noted300 s.now) j.val = axisRuns s.dev j.val := axisRuns_of_enabled (funext alike.enabled) _
  obtain ⟨tended, off⟩ := computeCycle_axes (noted300 s.now) j.val
  rw [dev, computedAt300, marked300_axis, ← axis, ← runs]
  exact ⟨tended, off j.isLt⟩

/-- A latched interlock closes every gate of the next cycle (R229, R463). -/
theorem uplinkDeadline_gates (latched : s.dev.mould.latched = true) :
    Answers s .uplinkDeadline fun t => ∀ n, n < 32 → (stationOf t.dev n).sent.emits = false := by
  refine answers_of_exactly (exactly_uplinkDeadline s computes due) fun t _ dev n hn => ?_
  have latch : (noted300 s.now).mould.latched = true := (congrArg Mould.latched (alike_noted300 s).mould).trans latched
  rw [dev, computedAt300, marked300_station]
  exact computeCycle_gates (noted300 s.now) latch hn

/-- On the holder the decision of the cycle is the dispatcher's. -/
theorem uplinkDeadline_decision (holds : s.dev.holds = true) {c : Option Decision}
    (h : (dispatchCycle (noted300 s.now)).sched.decision = c) :
    Answers s .uplinkDeadline fun t => t.dev.sched.decision = c := by
  refine answers_of_exactly (exactly_uplinkDeadline s computes due) fun t _ dev => ?_
  have dispatch : dispatched (noted300 s.now) = dispatchCycle (noted300 s.now) := if_pos ((noted300_holds s).trans holds)
  rw [dev, computedAt300, marked300_sched, computeCycle_decision, dispatch, h]

end

theorem blocked_iff (d : Dev) (x : Run) :
    blocked d x = true ↔ d.enabled pageSch = false ∨ draining d = true ∨ x.passPending = true ∨ x.spread = false := by
  simp only [blocked, Bool.or_eq_true, Bool.not_eq_true', or_assoc]

/-- Settles O31: the deadline and the frames each by the lemma on its operation, the clauses of the computation by what
its parts keep. -/
theorem computation : Obligations.Computation := by
  unfold Obligations.Computation
  refine ⟨fun s => ⟨uplinkDeadline_tick s, uplinkDeadline_rest s, commandFrameSend_due s, commandFrameSend_idle s⟩,
    fun s computes due => ⟨fun j => ?_, uplinkDeadline_gates s computes due, fun x holds hx => ⟨fun stop => ?_, ?_⟩⟩,
    fun d j => servoPost_hold d j.val,
    fun d n => ⟨?_, ?_, ?_⟩,
    fun s running deadline due => ⟨fun idle => ?_, fun computes => ?_⟩⟩
  · exact answers_mono (uplinkDeadline_axes s computes due j) fun t ⟨tended, off⟩ =>
      ⟨tended.active, tended.staged, tended.bank, off, tended.word⟩
  · exact uplinkDeadline_decision s computes due holds
      (dispatchCycle_blocked (alike_noted300 s) hx ((blocked_iff s.dev x).mpr stop))
  · intro n k before after enabled drain pending spread limit head idle order fail fits
    have unblocked : blocked s.dev x = false := by
      rw [blocked, enabled, drain, pending, spread]
      rfl
    exact uplinkDeadline_decision s computes due holds
      (dispatchCycle_decides (alike_noted300 s) (congrArg Sched.idleSince (noted300_sched s)) hx unblocked limit head idle order fail fits)
  · exact trajectory_rest d n
  · exact fun p service path begun => ⟨trajectory_follows d n p service path begun, trajectory_ends d n p service path⟩
  · exact fun k hk service => trajectory_other d hk service
  · exact answers_of_exactly (exactly_commandFrameSend s running deadline due) fun t _ dev l type hdr check payload => by
      rw [dev]
      exact sentAt800_silent s idle l type hdr check payload
  · refine answers_mono (commandFrameSend_accounts s running deadline due computes) fun t ⟨told, ladle, off, one⟩ =>
      ⟨told, ladle, off, fun n hn on dark emitting others => ?_⟩
    have deposit := one n hn on dark emitting others
    exact ⟨deposit.station, deposit.deposited, deposit.cells, deposit.columns, deposit.ordered⟩

end Sys2Proof.Proofs
end

section
/-! Bits of words: what merging under a mask leaves of each field (R33, R42). -/
namespace Sys2Proof.Proofs
open Sys2Proof.Machine Sys2Proof.Laws

/-! ### Bits -/

theorem testBit_bits (v lo w i : Nat) : (bits v lo w).testBit i = (decide (i < w) && v.testBit (lo + i)) := by
  rw [bits, Nat.testBit_mod_two_pow, Nat.testBit_shiftRight]

theorem testBit_word (n i : Nat) : (word n).toNat.testBit i = (decide (i < 32) && n.testBit i) := by
  rw [word, BitVec.toNat_ofNat, Nat.testBit_mod_two_pow]

theorem word_toNat (v : Word) : word v.toNat = v := by simp [word]

theorem toNat_word {n : Nat} (h : n < 2 ^ 32) : (word n).toNat = n := by
  rw [word, BitVec.toNat_ofNat, Nat.mod_eq_of_lt h]

/-- Numbers without a common bit are added bit by bit. -/
theorem add_eq_or_of_disjoint {a b : Nat} (h : a &&& b = 0) : a + b = a ||| b := by
  have below : a + b < 2 ^ (a + b) := Nat.lt_two_pow_self
  have left : a < 2 ^ (a + b) := by omega
  have right : b < 2 ^ (a + b) := by omega
  have sum := congrArg BitVec.toNat (BitVec.add_eq_or_of_and_eq_zero (BitVec.ofNat (a + b) a) (BitVec.ofNat (a + b) b)
    (BitVec.eq_of_toNat_eq (by simp [Nat.mod_eq_of_lt left, Nat.mod_eq_of_lt right, h])))
  simpa [Nat.mod_eq_of_lt left, Nat.mod_eq_of_lt right, Nat.mod_eq_of_lt below] using sum

theorem sub_and_eq_ldiff (a m : Nat) : a - (a &&& m) = Nat.ldiff a m := by
  have parts : (a &&& m) + Nat.ldiff a m = a := by
    rw [add_eq_or_of_disjoint]
    · refine Nat.eq_of_testBit_eq fun i => ?_
      rw [Nat.testBit_or, Nat.testBit_and, Nat.testBit_ldiff]
      cases a.testBit i <;> cases m.testBit i <;> rfl
    · refine Nat.eq_of_testBit_eq fun i => ?_
      rw [Nat.testBit_and, Nat.testBit_and, Nat.testBit_ldiff, Nat.zero_testBit]
      cases a.testBit i <;> cases m.testBit i <;> rfl
  omega

/-- Under the mask the new value, elsewhere the old one. -/
theorem testBit_mergeBits (old v m i : Nat) :
    (mergeBits old v m).testBit i = if m.testBit i then v.testBit i else old.testBit i := by
  rw [mergeBits, sub_and_eq_ldiff, add_eq_or_of_disjoint]
  · rw [Nat.testBit_or, Nat.testBit_and, Nat.testBit_ldiff]
    cases m.testBit i <;> simp
  · refine Nat.eq_of_testBit_eq fun j => ?_
    rw [Nat.testBit_and, Nat.testBit_and, Nat.testBit_ldiff, Nat.zero_testBit]
    cases m.testBit j <;> simp

theorem mergeBits_none (old v : Nat) : mergeBits old v 0 = old := by simp [mergeBits]

/-- A mask of a whole word takes the whole value. -/
theorem mergeBits_whole {old v : Nat} (ho : old < 2 ^ 32) (hv : v < 2 ^ 32) : mergeBits old v (2 ^ 32 - 1) = v := by
  rw [mergeBits, Nat.and_two_pow_sub_one_of_lt_two_pow ho, Nat.and_two_pow_sub_one_of_lt_two_pow hv, Nat.sub_self, Nat.zero_add]

theorem word_mergeBits_none (w : Word) (v : Nat) : word (mergeBits w.toNat v 0) = w := by rw [mergeBits_none, word_toNat]

theorem word_mergeBits_whole (w v : Word) : word (mergeBits w.toNat v.toNat (2 ^ 32 - 1)) = v := by
  rw [mergeBits_whole w.isLt v.isLt, word_toNat]

/-- A field that the mask covers takes its bits of the new value. -/
theorem bits_mergeBits {old v m lo w : Nat} (fits : lo + w ≤ 32) (covers : ∀ i, i < w → m.testBit (lo + i) = true) :
    bits (word (mergeBits old v m)).toNat lo w = bits v lo w := by
  refine Nat.eq_of_testBit_eq fun i => ?_
  rw [testBit_bits, testBit_bits, testBit_word, testBit_mergeBits]
  by_cases hi : i < w
  · rw [covers i hi, if_pos rfl, decide_eq_true (show lo + i < 32 by omega), Bool.true_and]
  · rw [decide_eq_false hi, Bool.false_and, Bool.false_and]

theorem bit_mergeBits {old v m i : Nat} (hi : i < 32) (hm : m.testBit i = true) :
    bit (word (mergeBits old v m)).toNat i = bit v i := by
  rw [bit, testBit_word, testBit_mergeBits, hm, if_pos rfl, decide_eq_true hi, Bool.true_and, bit]

theorem bits_whole (v : Word) : bits v.toNat 0 32 = v.toNat := by
  rw [bits, Nat.shiftRight_zero, Nat.mod_eq_of_lt v.isLt]

/-- A set of numbers below `n` as a mask. -/
theorem testBit_maskOf (n : Nat) (f : Nat → Bool) (i : Nat) : (maskOf n f).testBit i = (decide (i < n) && f i) := by
  induction n generalizing i with
  | zero => simp [maskOf]
  | succ n ih =>
    have step : maskOf (n + 1) f = if f n then maskOf n f + 2 ^ n else maskOf n f := by simp [maskOf, List.range_succ]
    have apart : maskOf n f &&& 2 ^ n = 0 := by
      refine Nat.eq_of_testBit_eq fun j => ?_
      rw [Nat.testBit_and, ih, Nat.testBit_two_pow, Nat.zero_testBit]
      by_cases hj : n = j <;> simp [hj]
    rw [step, add_eq_or_of_disjoint apart, apply_ite (Nat.testBit · i), Nat.testBit_or, Nat.testBit_two_pow, ih]
    rcases Nat.lt_trichotomy i n with low | rfl | high
    · simp [low, Nat.lt_succ_of_lt low, Nat.ne_of_gt low]
    · cases f i <;> simp
    · simp [Nat.ne_of_lt high, Nat.not_lt_of_gt high, show ¬ i < n + 1 by omega]

end Sys2Proof.Proofs
end

section
/-! The way of a bus write: from the command to its register, and what storing and refusing it leave (R28, R33, R55). -/
namespace Sys2Proof.Proofs
open Sys2Proof.Machine Sys2Proof.Laws

/-! ### Addresses and pages -/

theorem wordAddr_page {p off : Nat} (h : off < 4096) : wordAddr p off / 4096 = p := by unfold wordAddr; omega
theorem wordAddr_offset {p off : Nat} (h : off < 4096) : wordAddr p off % 4096 = off := by unfold wordAddr; omega

/-- The page map ends at page 0x327 (R61). -/
theorem kindOf_lt {p : Nat} {k : PageKind} (h : kindOf p = some k) : p < 0x328 := by
  by_contra high
  have none : kindOf p = none := by
    unfold kindOf pageOf
    repeat rw [if_neg (by omega)]
    rfl
  rw [none] at h
  cases h

theorem isMirrored_of_kindOf {p : Nat} {k : PageKind} (h : kindOf p = some k) : isMirrored p = k.mirrored := by
  rw [isMirrored, h]

theorem pageOf_of_kindOf {p : Nat} {k : PageKind} (h : kindOf p = some k) : ∃ first, pageOf p = some (k, first) := by
  unfold kindOf at h
  match hp : pageOf p with
  | none => rw [hp] at h; cases h
  | some (j, first) => rw [hp] at h; cases h; exact ⟨first, rfl⟩

/-! ### Words that no report writes -/

/-- A word that no report writes: of a page's header any but PEN. -/
theorem reportWord_of_offset {p off : Nat} (h : off < 0x064) (pen : off ≠ 0x010) : reportWord (wordAddr p off) = false := by
  simp [reportWord, wordAddr, pageEvq]
  omega

/-- What is said of `SameButReports` at a word holds of the device at any time of the cycle. -/
theorem at_regs (s : State) (u : Nat) : SameRegs s.dev.regs (s.at u).regs := (same_arrive s.now u).regs

theorem at_read (s : State) (u : Nat) {a : Nat} (h : reportWord a = false) : (s.at u).regs.read a = s.dev.regs.read a :=
  (at_regs s u).read a h

theorem at_inUse (s : State) (u : Nat) {a : Nat} (h : reportWord a = false) : (s.at u).regs.inUse a = s.dev.regs.inUse a :=
  (at_regs s u).inUse a h

/-! ### Changes of the registers alone -/

/-- `e` is `d` but for the registers. -/
def OnlyRegs (d e : Dev) : Prop := e = { d with regs := e.regs }

theorem OnlyRegs.trans {a b c : Dev} (h : OnlyRegs a b) (k : OnlyRegs b c) : OnlyRegs a c := by
  unfold OnlyRegs at *
  rw [k, h]

theorem OnlyRegs.same {d e : Dev} (h : OnlyRegs d e) : SameButReports { d with regs := e.regs } e := by
  rw [← h]
  exact same_refl e


@[simp] theorem mergeRead_read (d : Dev) (p off v m a : Nat) : (d.mergeRead p off v m).regs.read a =
    if a = wordAddr p off then word (mergeBits (d.regs.read (wordAddr p off)).toNat v m) else d.regs.read a := by
  simp [Dev.mergeRead]
@[simp] theorem mergeRead_inUse (d : Dev) (p off v m a : Nat) : (d.mergeRead p off v m).regs.inUse a = d.regs.inUse a := rfl
@[simp] theorem mergeInUse_read (d : Dev) (p off v m a : Nat) : (d.mergeInUse p off v m).regs.read a = d.regs.read a := rfl
@[simp] theorem mergeInUse_inUse (d : Dev) (p off v m a : Nat) : (d.mergeInUse p off v m).regs.inUse a =
    if a = wordAddr p off then word (mergeBits (d.regs.inUse (wordAddr p off)).toNat v m) else d.regs.inUse a := by
  simp [Dev.mergeInUse]

/-- A word taken whole, as read and in use, is a word that the device writes. -/
theorem mergeRead_mergeInUse_whole (d : Dev) (p off : Nat) (v : Word) :
    (d.mergeRead p off v.toNat (2 ^ 32 - 1)).mergeInUse p off v.toNat (2 ^ 32 - 1) = d.setReg p off v.toNat := by
  unfold Dev.mergeInUse Dev.mergeRead Dev.setReg
  dsimp only
  rw [word_mergeBits_whole, word_mergeBits_whole, word_toNat]

/-! ### The command and its write -/

theorem toNat_addr {p off : Nat} (hp : p < 1024) (ho : off < 4096) : (BitVec.ofNat 22 (wordAddr p off)).toNat = wordAddr p off := by
  rw [BitVec.toNat_ofNat, Nat.mod_eq_of_lt]
  unfold wordAddr
  omega

/-- A write of BAR0 that is none of the flash's registers leaves what the bus makes of it. -/
theorem exactly_registerWrite (s : State) (u : Nat) (a : BitVec 22) (n : Nat) (v : Long) (flash : flashOffset a.toNat n = none) :
    AnswersExactly s (.registerWrite u a n v) (hostWrite (s.at u) a.toNat n v.toNat) := by
  refine ⟨_, rfl, rfl, ?_, ?_⟩
  · dsimp only
    rw [flash]
  · dsimp only
    rw [flash]
    rfl

theorem hostWrite_free {d : Dev} {a n v : Nat} (h : isMirrored (a / 4096) = true → d.writeHeld = false) :
    hostWrite d a n v = registerWrite d a n v := by
  unfold hostWrite
  cases hm : isMirrored (a / 4096)
  · rfl
  · rw [h hm]; rfl

theorem hostWrite_held {d : Dev} {a n v : Nat} (hm : isMirrored (a / 4096) = true) (h : d.writeHeld = true) :
    hostWrite d a n v = holdWrite d ⟨false, a, n, v⟩ := by
  rw [hostWrite, hm, h]
  rfl

theorem flashOffset_none {a n : Nat} (h : a ≠ 0x108 ∧ a ≠ 0x10C) : flashOffset a n = none :=
  if_neg (by omega)

/-- A 32-bit write of a word of a block, to no register of the flash, reaches the bus unless it waits for a slot (R481). -/
theorem exactly_write32 (s : State) (u : Nat) {p off : Nat} (v : Word) {k : PageKind} (hp : kindOf p = some k) (ho : off < 4096)
    (flash : ¬(p = 0 ∧ (off = 0x108 ∨ off = 0x10C))) (free : k.mirrored = true → (s.at u).writeHeld = false) :
    AnswersExactly s (write32 u p off v) (registerWrite (s.at u) (wordAddr p off) 4 v.toNat) := by
  have addr := toNat_addr (Nat.lt_trans (kindOf_lt hp) (by decide)) ho
  have value : (v.setWidth 64).toNat = v.toNat := by
    rw [BitVec.toNat_setWidth, Nat.mod_eq_of_lt (Nat.lt_trans v.isLt (by decide))]
  have sent := exactly_registerWrite s u (BitVec.ofNat 22 (wordAddr p off)) 4 (v.setWidth 64)
    (flashOffset_none (by rw [addr]; unfold wordAddr; omega))
  rwa [addr, value, hostWrite_free (by rwa [wordAddr_page ho, isMirrored_of_kindOf hp])] at sent

/-- A 32-bit write goes to COMMIT, to the header or to a register of the block. -/
theorem registerWrite_word {d : Dev} {p off : Nat} {v : Word} {k : PageKind} (hp : kindOf p = some k) (ho : off < 4096)
    (aligned : off % 4 = 0) (table : ¬(k = .hif ∧ 0x800 ≤ off)) :
    registerWrite d (wordAddr p off) 4 v.toNat =
      if off = 0x01C then commitWrite d p v.toNat else if off < 0x040 then headerWrite d k p off v.toNat else wordWrite d k p off v.toNat := by
  unfold registerWrite
  dsimp only
  rw [wordAddr_page ho, wordAddr_offset ho, hp]
  dsimp only
  rw [if_neg fun h => table ⟨h.1, h.2.1⟩, if_neg fun h => table ⟨h.1, by omega⟩, if_pos ⟨rfl, aligned⟩, Nat.mod_eq_of_lt v.isLt]

/-- A word of a 32-bit register is that register. -/
theorem wordWrite_narrow {d : Dev} {k : PageKind} {p off v : Nat} {r : Reg} (hr : k.reg? off = some r) (narrow : r.wide = false) :
    wordWrite d k p off v = takeWrite d k p off off r v := by
  unfold wordWrite PageKind.regAt?
  rw [hr]
  dsimp only
  rw [if_neg (by decide), if_neg (by rw [narrow]; decide)]

end Sys2Proof.Proofs
end

section
/-! Refused writes: O13. -/
namespace Sys2Proof.Proofs
open Sys2Proof.Machine Sys2Proof.Laws

/-! ### Refusals (R55 to R57) -/

/-- What ERRW of page `q` holds after a write at `off` of page `p` is refused (R55). -/
def refusalWord (d : Dev) (q p off reason : Nat) : Nat :=
  off + p <<< 12 + d.rfld q 0x024 31 1 <<< 22 + reason <<< 24 + 1 <<< 31

/-- A refusal is recorded in ERRW of the page, and reported. -/
theorem same_refuse {d : Dev} {p off reason : Nat} {k : PageKind} (hp : kindOf p = some k) (ho : off < 4096) :
    SameButReports (d.setReg p 0x024 (refusalWord d p p off reason)) (refuse d p off reason) := by
  obtain ⟨first, home⟩ := pageOf_of_kindOf hp
  unfold refuse
  rw [home]
  dsimp only
  rw [Nat.mod_eq_of_lt ho, Nat.mod_eq_of_lt (Nat.lt_trans (kindOf_lt hp) (by decide))]
  exact same_raise _ _ _ _ _ _ _ (by decide)

/-- A refusal of a page that no block has is recorded on DEV (R56). -/
theorem same_refuse_unassigned {d : Dev} {p off reason : Nat} (hp : kindOf p = none) (hl : p < 1024) (ho : off < 4096) :
    SameButReports (d.setReg pageDev 0x024 (refusalWord d pageDev p off reason)) (refuse d p off reason) := by
  have home : pageOf p = none := Option.map_eq_none_iff.mp hp
  unfold refuse
  rw [home]
  dsimp only
  rw [Nat.mod_eq_of_lt ho, Nat.mod_eq_of_lt hl]
  exact same_raise _ _ _ _ _ _ _ (by decide)

/-- No report writes ERRW, so the MORE of a refusal is that of the state before the command. -/
theorem at_refusalWord (s : State) (u q p off reason : Nat) : refusalWord (s.at u) q p off reason = refusalWord s.dev q p off reason := by
  unfold refusalWord Dev.rfld
  rw [at_read s u (reportWord_of_offset (by decide) (by decide))]

theorem answersButReports_of_exactly {s : State} {i : Instr} {d e : Dev} (h : AnswersExactly s i e) (k : SameButReports d e) :
    AnswersButReports s i d := answers_of_exactly h fun _ nv dev => ⟨nv, dev ▸ k⟩

/-- A write of a register that no operation of its own checks is refused, or accepted. -/
theorem takeWrite_checked {d : Dev} {k : PageKind} {p at0 off v : Nat} {r : Reg} (ring : k ≠ .rng) (recorder : k ≠ .recd) (mould : k ≠ .mld) :
    (∀ c, blockRefused d k p off r v = some c → takeWrite d k p at0 off r v = refuse d p at0 c) ∧
    (blockRefused d k p off r v = none → ¬(k = .dev ∧ off = 0x040) → takeWrite d k p at0 off r v = acceptWrite d k p off r v) := by
  unfold takeWrite
  rw [if_neg (by tauto), if_neg (by tauto), if_neg (by tauto), if_neg (by tauto), if_neg mould]
  refine ⟨fun c refused => ?_, fun passed other => ?_⟩
  · rw [refused]
  · rw [passed]
    exact if_neg other

/-- A refused 32-bit write of a 32-bit register is recorded and reported (R55, R57). -/
theorem registerWrite_refused {s : State} {u p off : Nat} {v : Word} {k : PageKind} {r : Reg} {c : Nat} (hp : kindOf p = some k)
    (mould : k ≠ .mld) (recorder : k ≠ .recd) (ring : k ≠ .rng) (block : 0x040 ≤ off) (table : off < 0x800) (aligned : off % 4 = 0)
    (flash : ¬(k = .dev ∧ (off = 0x108 ∨ off = 0x10C))) (hr : k.reg? off = some r) (narrow : r.wide = false)
    (refused : blockRefused (s.at u) k p off r v.toNat = some c) (free : k.mirrored = true → (s.at u).writeHeld = false) :
    AnswersButReports s (write32 u p off v) ((s.at u).setReg p 0x024 (refusalWord s.dev p p off c)) := by
  have ho : off < 4096 := Nat.lt_trans table (by decide)
  have away : ¬(p = 0 ∧ (off = 0x108 ∨ off = 0x10C)) := by
    rintro ⟨rfl, h⟩
    cases hp
    exact flash ⟨rfl, h⟩
  refine answersButReports_of_exactly (exactly_write32 s u v hp ho away free) ?_
  rw [registerWrite_word hp ho aligned (by omega), if_neg (by omega), if_neg (by omega), wordWrite_narrow hr narrow,
    (takeWrite_checked ring recorder mould).1 c refused, ← at_refusalWord s u]
  exact same_refuse hp ho

/-- A write of a page that no block has is recorded on DEV with RANGE (R56). -/
theorem registerWrite_unassigned {s : State} {u : Nat} {a : BitVec 22} {v : Long} (hp : kindOf (a.toNat / 4096) = none) :
    AnswersButReports s (.registerWrite u a 4 v)
      ((s.at u).setReg pageDev 0x024 (refusalWord s.dev pageDev (a.toNat / 4096) (a.toNat % 4096) refusedRange)) := by
  have away : a.toNat ≠ 0x108 ∧ a.toNat ≠ 0x10C := by
    constructor <;> intro h <;> rw [h] at hp <;> cases hp
  refine answersButReports_of_exactly (exactly_registerWrite s u a 4 v (flashOffset_none away)) ?_
  rw [hostWrite_free (by rw [isMirrored, hp]; exact fun h => by cases h), registerWrite, hp, ← at_refusalWord s u]
  exact same_refuse_unassigned hp (by have := a.isLt; omega) (by omega)

/-- Settles O13: a refused write of a block's register, and a write of a page that no block has. -/
theorem registerWriteRefused : Obligations.RegisterWriteRefused := by
  unfold Obligations.RegisterWriteRefused
  refine ⟨?_, fun s u a v hp => registerWrite_unassigned hp⟩
  intro s u p off v k r c hp mould recorder ring block table aligned flash hr narrow refused free
  exact registerWrite_refused hp mould recorder ring block table aligned flash hr narrow refused free

end Sys2Proof.Proofs
end

section
/-! Accepted writes: O12. -/
namespace Sys2Proof.Proofs
open Sys2Proof.Machine Sys2Proof.Laws

/-! ### Storing -/

/-- A page without presets that is not mirrored stores a write at once: the writable bits as read, the Live ones in use (R33, R42). -/
def stored (d : Dev) (p off : Nat) (r : Reg) (v : Nat) : Dev :=
  let d1 := d.mergeRead p off v (storeMask r % 2 ^ 32)
  if hasLive r then d1.mergeInUse p off v (liveMask r % 2 ^ 32) else d1

theorem storeWrite_plain {d : Dev} {k : PageKind} {p off : Nat} {r : Reg} {v : Word} (near : k.mirrored = false) (preset : presetField k = none)
    (narrow : r.wide = false) : storeWrite d k p off r v.toNat = stored d p off r v.toNat := by
  unfold storeWrite stored applyPreset Dev.mergeWide
  simp [preset, near, narrow, Nat.mod_eq_of_lt v.isLt]

theorem onlyRegs_stored (d : Dev) (p off : Nat) (r : Reg) (v : Nat) : OnlyRegs d (stored d p off r v) := by
  unfold stored
  dsimp only
  split <;> rfl

theorem stored_read (d : Dev) (p off : Nat) (r : Reg) (v a : Nat) : (stored d p off r v).regs.read a =
    if a = wordAddr p off then word (mergeBits (d.regs.read (wordAddr p off)).toNat v (storeMask r % 2 ^ 32)) else d.regs.read a := by
  unfold stored
  dsimp only
  split <;> simp

theorem stored_inUse (d : Dev) (p off : Nat) (r : Reg) (v a : Nat) : (stored d p off r v).regs.inUse a =
    if a = wordAddr p off then
      (if hasLive r then word (mergeBits (d.regs.inUse (wordAddr p off)).toNat v (liveMask r % 2 ^ 32)) else d.regs.inUse (wordAddr p off))
    else d.regs.inUse a := by
  unfold stored
  dsimp only
  split
  · simp
  · simp only [mergeRead_inUse]
    split <;> simp_all

/-- The kinds whose register writes set nothing else off, the doorbells of RNG aside. -/
def plainKind (k : PageKind) : Prop := k = .evq ∨ k = .mon ∨ k = .lnk ∨ k = .rng

theorem mirrored_of_plain {k : PageKind} (plain : plainKind k) : k.mirrored = false := by
  obtain rfl | rfl | rfl | rfl := plain <;> rfl

theorem presetField_of_plain {k : PageKind} (plain : plainKind k) : presetField k = none := by
  obtain rfl | rfl | rfl | rfl := plain <;> rfl

theorem busEffect_plain {k : PageKind} (plain : plainKind k) (d : Dev) (held : Bool) (p off v : Nat) : busEffect d held k p off v = d := by
  obtain rfl | rfl | rfl | rfl := plain <;> rfl

theorem acceptWrite_plain {d : Dev} {k : PageKind} {p off : Nat} {r : Reg} {v : Word} (plain : plainKind k) (narrow : r.wide = false) :
    acceptWrite d k p off r v.toNat = stored d p off r v.toNat := by
  have mould : k ≠ .mld := by rintro rfl; simp [plainKind] at plain
  have near := mirrored_of_plain plain
  simp only [acceptWrite, mould, near, false_and, if_false, Bool.false_eq_true, busEffect_plain plain,
    storeWrite_plain near (presetField_of_plain plain) narrow]

/-- An accepted 32-bit write of a register that sets nothing else off is stored. -/
theorem takeWrite_plain {d : Dev} {k : PageKind} {p off : Nat} {r : Reg} {v : Word} (plain : plainKind k)
    (bell : k = .rng → off ≠ 0x04C ∧ off ≠ 0x050 ∧ off ≠ 0x06C) (narrow : r.wide = false)
    (passed : blockRefused d k p off r v.toNat = none) : takeWrite d k p off off r v.toNat = stored d p off r v.toNat := by
  have recorder : k ≠ .recd := by rintro rfl; simp [plainKind] at plain
  have mould : k ≠ .mld := by rintro rfl; simp [plainKind] at plain
  have dev : k ≠ .dev := by rintro rfl; simp [plainKind] at plain
  unfold takeWrite
  rw [if_neg fun h => (bell h.1).1 h.2, if_neg fun h => (bell h.1).2.1 h.2, if_neg fun h => (bell h.1).2.2 h.2.1,
    if_neg fun h => recorder h.1, if_neg mould, passed]
  dsimp only
  rw [if_neg fun h => dev h.1, acceptWrite_plain plain narrow]

/-! ### The header -/

theorem forwards_of_par {d e : Dev} (h : e.par = d.par) : e.forwards = d.forwards := by simp only [Dev.forwards, Dev.holds, h]

theorem OnlyRegs.forwards {d e : Dev} (h : OnlyRegs d e) : e.forwards = d.forwards := by
  rw [h]
  rfl

theorem forwardWrite_alone {d : Dev} (h : d.forwards = false) (bar2 : Bool) (addr value : Nat) : forwardWrite d bar2 addr value = d :=
  if_neg (by rw [h]; decide)

theorem onlyRegs_storeHeader (d : Dev) (k : PageKind) (p off v : Nat) : OnlyRegs d (storeHeader d k p off v) := by
  unfold storeHeader
  dsimp only
  repeat' split
  all_goals rfl

/-- An accepted header write that nothing forwards is stored, and but for CTL of an unmirrored page does no more (R34). -/
theorem headerWrite_stores {d : Dev} {k : PageKind} {p off v : Nat} (passed : headerRefused d k p off v = none)
    (alone : k.mirrored = true → d.forwards = false) (other : off ≠ 0x008) : headerWrite d k p off v = storeHeader d k p off v := by
  unfold headerWrite
  rw [passed]
  dsimp only
  rw [if_neg other]
  split
  · next far => exact forwardWrite_alone ((onlyRegs_storeHeader d k p off v).forwards.trans (alone far)) _ _ _
  · rfl

/-- CTL of an unmirrored page is in use at once, and a change of ENABLE has its effect (R39, R54). -/
theorem headerWrite_control {d : Dev} {k : PageKind} {p v : Nat} (passed : headerRefused d k p 0x008 v = none) (near : k.mirrored = false) :
    headerWrite d k p 0x008 v = enableChange ((d.mergeRead p 0x008 v 3).mergeInUse p 0x008 v 3) p (d.enabled p) := by
  unfold headerWrite storeHeader
  rw [passed]
  simp [near]

theorem storeHeader_pennants (d : Dev) (k : PageKind) (p v : Nat) :
    storeHeader d k p 0x010 v =
      d.setReg p 0x010 (d.rfld p 0x010 0 32 - (d.rfld p 0x010 0 32 &&& v) + (d.rfld p 0x010 0 32 &&& v &&& pensNow d p)) := rfl

theorem storeHeader_errors (d : Dev) (k : PageKind) (p : Nat) (v : Word) :
    storeHeader d k p 0x024 v.toNat = if v.getLsbD 31 then d.setReg p 0x024 0 else d := rfl

/-- A whole word of a mirrored page that is Live: it reads as written, and waits for its cycle (R45). -/
def waiting (d : Dev) (p off : Nat) (v : Word) : Dev :=
  let d1 := d.mergeRead p off v.toNat (2 ^ 32 - 1)
  { d1 with regs := { d1.regs with live := d1.regs.live ++ [⟨wordAddr p off, v.setWidth 64, false, d.cycle⟩] } }

theorem waiting_read (d : Dev) (p off : Nat) (v : Word) : (waiting d p off v).regs.read (wordAddr p off) = v :=
  (mergeRead_read d p off _ _ _).trans ((if_pos rfl).trans (word_mergeBits_whole _ v))
theorem waiting_live (d : Dev) (p off : Nat) (v : Word) :
    (waiting d p off v).regs.live = d.regs.live ++ [⟨wordAddr p off, v.setWidth 64, false, d.cycle⟩] := rfl
theorem onlyRegs_waiting (d : Dev) (p off : Nat) (v : Word) : OnlyRegs d (waiting d p off v) := rfl

/-- PEN_EVT and PEN_HOIST are stored whole; those of an unmirrored page are in use at once (R37, R38, R40). -/
theorem storeHeader_masks {d : Dev} {k : PageKind} {p off : Nat} {v : Word} (h : off = 0x014 ∨ off = 0x018) :
    storeHeader d k p off v.toNat = if k.mirrored then waiting d p off v else d.setReg p off v.toNat := by
  have wide : BitVec.ofNat 64 v.toNat = v.setWidth 64 := BitVec.ofNat_toNat 64 v
  rw [← mergeRead_mergeInUse_whole, waiting, ← wide]
  obtain rfl | rfl := h <;> rfl

/-- A page without Locked fields takes none at a rise of CTL.ENABLE (R54). -/
theorem takeLocked_none {d : Dev} {p : Nat} {k : PageKind} (hp : kindOf p = some k)
    (h : ∀ r ∈ k.regs, maskWhere r (fun f => f.app == .locked) = 0) : takeLocked d p = d := by
  unfold takeLocked
  rw [hp]
  dsimp only
  generalize k.regs = l at h
  induction l with
  | nil => rfl
  | cons r l ih =>
    rw [List.foldl_cons, if_pos (h r List.mem_cons_self)]
    exact ih fun x hx => h x (List.mem_cons_of_mem r hx)

/-- ENABLE of EVQ, MON and LNK sets nothing off. -/
theorem enableChange_plain {d : Dev} {p : Nat} {k : PageKind} (hp : kindOf p = some k) (kind : k = .evq ∨ k = .mon ∨ k = .lnk)
    (before : Bool) : enableChange d p before = d := by
  have effect (on : Bool) : enableEffect d p on = d := by
    unfold enableEffect
    rw [hp]
    obtain rfl | rfl | rfl := kind <;> rfl
  have locked : takeLocked d p = d := takeLocked_none hp (by obtain rfl | rfl | rfl := kind <;> decide)
  unfold enableChange
  dsimp only
  rw [locked, effect, effect]
  repeat' split
  all_goals rfl

/-! ### The clauses -/

section
variable {s : State} {u p off : Nat} {v : Word} {k : PageKind}

/-- A write of a mirrored page without a free record slot waits (R481). -/
theorem registerWrite_kept {a : BitVec 22} {n : Nat} {x : Long} (mirrored : isMirrored (a.toNat / 4096) = true) :
    keptForSlot s u (.registerWrite u a n x) ⟨false, a.toNat, n, x.toNat⟩ := by
  have away : a.toNat ≠ 0x108 ∧ a.toNat ≠ 0x10C := by
    constructor <;> intro h <;> rw [h] at mirrored <;> cases mirrored
  intro held
  refine answersButReports_of_exactly (exactly_registerWrite s u a n x (flashOffset_none away)) ?_
  rw [hostWrite_held mirrored held]
  exact same_refl _

/-- An accepted header write other than COMMIT. -/
theorem exactly_header (hp : kindOf p = some k) (ho : off < 0x040) (aligned : off % 4 = 0) (commit : off ≠ 0x01C)
    (free : k.mirrored = true → (s.at u).writeHeld = false) :
    AnswersExactly s (write32 u p off v) (headerWrite (s.at u) k p off v.toNat) := by
  have sent := exactly_write32 s u v hp (Nat.lt_trans ho (by decide)) (by omega) free
  rwa [registerWrite_word hp (Nat.lt_trans ho (by decide)) aligned (by omega), if_neg commit, if_pos ho] at sent

theorem registerWrite_control (hp : kindOf p = some k) (kind : k = .evq ∨ k = .mon ∨ k = .lnk)
    (passed : headerRefused (s.at u) k p 0x008 v.toNat = none) :
    Answers s (write32 u p 0x008 v) fun t =>
      t.nv = s.nv ∧ t.dev.enabled p = v.getLsbD 0 ∧ t.dev.flag p 0x008 1 = v.getLsbD 1 ∧
      t.dev.rfld p 0x008 0 2 = bits v.toNat 0 2 ∧
      (∀ a, a / 4096 ≠ p → reportWord a = false →
        t.dev.regs.read a = s.dev.regs.read a ∧ t.dev.regs.inUse a = s.dev.regs.inUse a) ∧
      SameButReports { s.at u with regs := t.dev.regs } t.dev := by
  have near : k.mirrored = false := by obtain rfl | rfl | rfl := kind <;> rfl
  refine answers_of_exactly (exactly_header hp (by decide) (by decide) (by decide) (by rw [near]; exact fun h => by cases h))
    fun t nv dev => ?_
  rw [headerWrite_control passed near, enableChange_plain hp kind] at dev
  rw [dev]
  refine ⟨nv, ?_, ?_, ?_, fun a page report => ?_, same_refl _⟩
  · simp only [Dev.enabled, Dev.flag, mergeInUse_inUse, if_true]
    exact bit_mergeBits (by decide) (by decide)
  · simp only [Dev.flag, mergeInUse_inUse, if_true]
    exact bit_mergeBits (by decide) (by decide)
  · simp only [Dev.rfld, mergeInUse_read, mergeRead_read, if_true]
    exact bits_mergeBits (by decide) (by decide)
  · have other : a ≠ wordAddr p 0x008 := by rintro rfl; exact page (wordAddr_page (by decide))
    simp only [mergeInUse_read, mergeInUse_inUse, mergeRead_read, mergeRead_inUse, if_neg other]
    exact ⟨at_read s u report, at_inUse s u report⟩

/-- A 1 written to PEN clears a pennant without a cause in the same tick (R36). -/
theorem pennant_cleared (d : Dev) (k : PageKind) (p : Nat) (v : Word) {b : Nat} (hb : b < 32) :
    (storeHeader d k p 0x010 v.toNat).pennant p b =
      (d.pennant p b && (!v.getLsbD b || decide (d.regs.penAt.get (same 0) (32 * p + b) = d.tick + 1))) := by
  have taken (old m : Nat) : old - (old &&& v.toNat) + (old &&& v.toNat &&& m) = mergeBits old (old &&& m) v.toNat := by
    rw [mergeBits, Nat.and_assoc, Nat.and_assoc, Nat.and_comm v.toNat m]
  rw [storeHeader_pennants, taken, Dev.pennant, setReg_read, if_pos rfl, bit, testBit_word, testBit_mergeBits, Nat.testBit_and,
    Dev.rfld, bits_whole, pensNow, testBit_maskOf, decide_eq_true hb, Dev.pennant, bit, BitVec.getLsbD]
  cases v.toNat.testBit b
  · simp
  · simp [beq_eq_decide]

theorem registerWrite_pennants (hp : kindOf p = some k) (passed : headerRefused (s.at u) k p 0x010 v.toNat = none)
    (slot : k.mirrored = true → (s.at u).writeHeld = false ∧ s.dev.forwards = false) :
    Answers s (write32 u p 0x010 v) fun t =>
      t.nv = s.nv ∧
      (∀ b, b < 32 → t.dev.pennant p b = ((s.at u).pennant p b &&
        (!v.getLsbD b || decide ((s.at u).regs.penAt.get (same 0) (32 * p + b) = (s.at u).tick + 1)))) ∧
      (∀ a, a ≠ wordAddr p 0x010 → t.dev.regs.read a = (s.at u).regs.read a ∧ t.dev.regs.inUse a = (s.at u).regs.inUse a) ∧
      { t.dev with regs := s.dev.regs } = { s.at u with regs := s.dev.regs } := by
  have alone (far : k.mirrored = true) : (s.at u).forwards = false := (forwards_of_par (arrive_par s.now u)).trans (slot far).2
  refine answers_of_exactly (exactly_header hp (by decide) (by decide) (by decide) fun far => (slot far).1) fun t nv dev => ?_
  rw [headerWrite_stores passed alone (by decide)] at dev
  rw [dev]
  refine ⟨nv, fun b hb => pennant_cleared _ k p v hb, fun a other => ?_, ?_⟩
  · rw [storeHeader_pennants, setReg_read, setReg_inUse, if_neg other, if_neg other]
    exact ⟨rfl, rfl⟩
  · rw [storeHeader_pennants]
    rfl

theorem registerWrite_masks (hp : kindOf p = some k) (passed : headerRefused (s.at u) k p off v.toNat = none)
    (slot : k.mirrored = true → (s.at u).writeHeld = false ∧ s.dev.forwards = false) (mask : off = 0x014 ∨ off = 0x018) :
    (k.mirrored = false → AnswersButReports s (write32 u p off v) ((s.at u).setReg p off v.toNat)) ∧
    (k.mirrored = true → Answers s (write32 u p off v) fun t =>
      t.nv = s.nv ∧ t.dev.rfld p off 0 32 = v.toNat ∧
      t.dev.regs.live = s.dev.regs.live ++ [⟨wordAddr p off, v.setWidth 64, false, s.dev.cycle⟩] ∧
      (∀ a, reportWord a = false → t.dev.regs.inUse a = s.dev.regs.inUse a) ∧
      SameButReports { s.at u with regs := t.dev.regs } t.dev) := by
  have alone (far : k.mirrored = true) : (s.at u).forwards = false := (forwards_of_par (arrive_par s.now u)).trans (slot far).2
  have sent := exactly_header (v := v) (off := off) hp (by omega) (by omega) (by omega) fun far => (slot far).1
  rw [headerWrite_stores passed alone (by omega), storeHeader_masks mask] at sent
  refine ⟨fun near => ?_, fun far => ?_⟩
  · rw [near] at sent
    exact answersButReports_of_exactly sent (same_refl _)
  · rw [far] at sent
    refine answers_of_exactly sent fun t nv dev => ?_
    rw [if_pos rfl] at dev
    rw [dev]
    refine ⟨nv, ?_, ?_, fun a report => at_inUse s u report, (onlyRegs_waiting _ _ _ _).same⟩
    · rw [Dev.rfld, waiting_read, bits_whole]
    · rw [waiting_live, (at_regs s u).live, at_cycle]

theorem registerWrite_errors (hp : kindOf p = some k) (passed : headerRefused (s.at u) k p 0x024 v.toNat = none)
    (slot : k.mirrored = true → (s.at u).writeHeld = false ∧ s.dev.forwards = false) :
    AnswersButReports s (write32 u p 0x024 v) (if v.getLsbD 31 then (s.at u).setReg p 0x024 0 else s.at u) := by
  have alone (far : k.mirrored = true) : (s.at u).forwards = false := (forwards_of_par (arrive_par s.now u)).trans (slot far).2
  refine answersButReports_of_exactly (exactly_header hp (by decide) (by decide) (by decide) fun far => (slot far).1) ?_
  rw [headerWrite_stores passed alone (by decide), storeHeader_errors]
  exact same_refl _

/-- An accepted write of a register that sets nothing else off (R33, R42, R46). -/
theorem registerWrite_plain {r : Reg} (hp : kindOf p = some k) (plain : plainKind k)
    (bell : k = .rng → off ≠ 0x04C ∧ off ≠ 0x050 ∧ off ≠ 0x06C) (block : 0x040 ≤ off) (table : off < 0x800) (aligned : off % 4 = 0)
    (hr : k.reg? off = some r) (narrow : r.wide = false) (passed : blockRefused (s.at u) k p off r v.toNat = none)
    (report : reportWord (wordAddr p off) = false) :
    Answers s (write32 u p off v) fun t =>
      t.nv = s.nv ∧
      t.dev.regs.read (wordAddr p off) =
        word (mergeBits (s.dev.regs.read (wordAddr p off)).toNat v.toNat (storeMask r % 2 ^ 32)) ∧
      t.dev.regs.inUse (wordAddr p off) =
        (if hasLive r then word (mergeBits (s.dev.regs.inUse (wordAddr p off)).toNat v.toNat (liveMask r % 2 ^ 32))
         else s.dev.regs.inUse (wordAddr p off)) ∧
      (∀ a, a ≠ wordAddr p off → reportWord a = false →
        t.dev.regs.read a = s.dev.regs.read a ∧ t.dev.regs.inUse a = s.dev.regs.inUse a) ∧
      SameButReports { s.at u with regs := t.dev.regs } t.dev := by
  have ho : off < 4096 := Nat.lt_trans table (by decide)
  have near := mirrored_of_plain plain
  have away : ¬(p = 0 ∧ (off = 0x108 ∨ off = 0x10C)) := by
    rintro ⟨rfl, -⟩
    cases hp
    simp [plainKind] at plain
  refine answers_of_exactly (exactly_write32 s u v hp ho away (by rw [near]; exact fun h => by cases h)) fun t nv dev => ?_
  rw [registerWrite_word hp ho aligned (by omega), if_neg (by omega), if_neg (by omega), wordWrite_narrow hr narrow,
    takeWrite_plain plain bell narrow passed] at dev
  rw [dev]
  refine ⟨nv, ?_, ?_, fun a other quiet => ?_, (onlyRegs_stored _ _ _ _ _).same⟩
  · rw [stored_read, if_pos rfl, at_read s u report]
  · rw [stored_inUse, if_pos rfl, at_inUse s u report]
  · rw [stored_read, stored_inUse, if_neg other, if_neg other]
    exact ⟨at_read s u quiet, at_inUse s u quiet⟩

end

/-- Settles O12: each clause by the lemma on its kind of write. -/
theorem registerWrite : Obligations.RegisterWrite := by
  unfold Obligations.RegisterWrite
  refine ⟨fun s u a n v mirrored => registerWrite_kept mirrored, fun s u p v k hp kind passed => registerWrite_control hp kind passed,
    fun s u p off v k hp passed slot => ⟨?_, registerWrite_masks hp passed slot, ?_⟩, ?_⟩
  · rintro rfl
    exact registerWrite_pennants hp passed slot
  · rintro rfl
    exact registerWrite_errors hp passed slot
  · intro s u p off v k r hp kind block table aligned hr narrow passed report
    have plain : plainKind k := by unfold plainKind; tauto
    refine registerWrite_plain hp plain (fun ring => ?_) block table aligned hr narrow passed report
    obtain rfl | rfl | rfl | ⟨-, bell⟩ := kind
    · cases ring
    · cases ring
    · cases ring
    · exact bell

end Sys2Proof.Proofs
end

section
/-! COMMIT makes groups pending: O15. -/
namespace Sys2Proof.Proofs
open Sys2Proof.Machine Sys2Proof.Laws

section
variable {s : State} {u : Nat} {p : Fin 1024} {v : Word}

/-! ### The command -/

theorem exactly_commitWrite (s : State) (u : Nat) (p : Fin 1024) (v : Word) :
    AnswersExactly s (.commitWrite u p v) (
      if isMirrored p.val && (s.at u).writeHeld then holdWrite (s.at u) ⟨false, wordAddr p.val 0x01C, 4, v.toNat⟩
      else commitWrite (s.at u) p.val v.toNat) :=
  exactly_of_onDev (f := fun d =>
    if isMirrored p.val && (d.arrive u).writeHeld then holdWrite (d.arrive u) ⟨false, wordAddr p.val 0x01C, 4, v.toNat⟩
    else commitWrite (d.arrive u) p.val v.toNat) rfl

/-- A COMMIT of a mirrored page without a free record slot waits (R481). -/
theorem commitWrite_kept (mirrored : isMirrored p.val = true) :
    keptForSlot s u (.commitWrite u p v) ⟨false, wordAddr p.val 0x01C, 4, v.toNat⟩ := fun held => by
  have sent := exactly_commitWrite s u p v
  rw [mirrored, held] at sent
  exact answersButReports_of_exactly sent (same_refl _)

theorem exactly_commitWrite_free {k : PageKind} (hp : kindOf p.val = some k) (free : k.mirrored = true → (s.at u).writeHeld = false) :
    AnswersExactly s (.commitWrite u p v) (commitWrite (s.at u) p.val v.toNat) := by
  have sent := exactly_commitWrite s u p v
  rw [isMirrored_of_kindOf hp] at sent
  cases hm : k.mirrored
  · rwa [hm] at sent
  · rwa [hm, free hm] at sent

/-! ### The checks of a COMMIT (R47, R48) -/

theorem groupPending_of_pend {d e : Dev} (h : e.regs.pend = d.regs.pend) (p g : Nat) : groupPending e p g = groupPending d p g := by
  rw [groupPending, h, groupPending]

theorem setReg_pend (d : Dev) (p off v : Nat) : (d.setReg p off v).regs.pend = d.regs.pend := rfl

theorem newGroups_of_pend {d e : Dev} (h : e.regs.pend = d.regs.pend) (p v : Nat) : newGroups e p v = newGroups d p v := by
  unfold newGroups
  simp only [groupPending_of_pend h]

theorem at_newGroups (s : State) (u p v : Nat) : newGroups (s.at u) p v = newGroups s.dev p v := newGroups_of_pend (at_regs s u).pend p v

theorem recordAdmission_other {d : Dev} {p v : Nat} {k : PageKind} (hp : kindOf p = some k) (other : k ≠ .axs) :
    recordAdmission d p v = d := if_neg (by rw [hp]; rintro ⟨h, -⟩; cases h; exact other rfl)

/-- A COMMIT that names a group which fails its check is refused (R48). -/
theorem commitWrite_range {d : Dev} {p v : Nat} {k : PageKind} (hp : kindOf p = some k) (other : k ≠ .axs)
    (bad : ∃ g, g ∈ newGroups d p v ∧ (k.defines g = false ∨ groupRefused d p g = true)) :
    commitWrite d p v = refuse d p 0x01C refusedRange := by
  have any : ((newGroups d p v).any fun g => !k.defines g || groupRefused d p g) = true := by simpa using bad
  unfold commitWrite
  rw [hp]
  dsimp only
  rw [recordAdmission_other hp other, if_pos any]

/-- A COMMIT that passes the checks is accepted (R47). -/
theorem commitWrite_accepted {d : Dev} {p v : Nat} {k : PageKind} (hp : kindOf p = some k) (other : k ≠ .axs)
    (good : ∀ g, g ∈ newGroups d p v → k.defines g = true ∧ groupRefused d p g = false)
    (passed : pageRefused d k p 0x01C = none) : commitWrite d p v = acceptCommit d k p v := by
  have any : ¬((newGroups d p v).any fun g => !k.defines g || groupRefused d p g) = true := by simpa using good
  unfold commitWrite
  rw [hp]
  dsimp only
  rw [recordAdmission_other hp other, if_neg any, passed]

/-- The groups of an accepted COMMIT wait from this cycle on (R43, R50). -/
def committed (d : Dev) (p v : Nat) : Dev :=
  { d with regs := { d.regs with
      pend := d.regs.pend ++ (newGroups d p v).map fun g => ⟨p, g, d.cycle, !d.heats.everStarted⟩ } }

theorem acceptCommit_mirrored {d : Dev} {k : PageKind} {p v : Nat} (far : k.mirrored = true) :
    acceptCommit d k p v = forwardWrite (committed d p v) false (wordAddr p 0x01C) v := if_pos far

/-! ### The clauses -/

/-- What a forwarded write leaves of the device: everything but the record slots and what goes out. -/
theorem same_forwardWrite (d : Dev) (bar2 : Bool) (addr value : Nat) :
    SameButReports { d with par := (forwardWrite d bar2 addr value).par, out := (forwardWrite d bar2 addr value).out }
      (forwardWrite d bar2 addr value) := by
  rw [← forwardWrite_frame]
  exact same_refl _

theorem forwardWrite_regs (d : Dev) (bar2 : Bool) (addr value : Nat) : (forwardWrite d bar2 addr value).regs = d.regs := by
  rw [forwardWrite_frame]

/-- Registers with other groups pending differ in reports alone where the registers do. -/
theorem sameRegs_pend {f g : RegFile} (h : SameRegs f g) (l : List PendGroup) : SameRegs { f with pend := l } { g with pend := l } :=
  { h with pend := rfl }

theorem commitWrite_pends {k : PageKind} (hp : kindOf p.val = some k) (other : k ≠ .axs)
    (free : k.mirrored = true → (s.at u).writeHeld = false)
    (good : ∀ g, g ∈ newGroups s.dev p.val v.toNat → k.defines g = true ∧ groupRefused (s.at u) p.val g = false)
    (far : k.mirrored = true) (passed : pageRefused (s.at u) k p.val 0x01C = none) :
    Answers s (.commitWrite u p v) fun t =>
      t.nv = s.nv ∧
      t.dev.regs.pend = s.dev.regs.pend ++ (newGroups s.dev p.val v.toNat).map (fun g => ⟨p.val, g, s.dev.cycle, !s.dev.heats.everStarted⟩) ∧
      SameButReports
        { s.at u with regs := { s.dev.regs with pend := t.dev.regs.pend }, par := t.dev.par, out := t.dev.out } t.dev := by
  refine answers_of_exactly (exactly_commitWrite_free hp free) fun t nv dev => ?_
  rw [commitWrite_accepted hp other (by rwa [at_newGroups]) passed, acceptCommit_mirrored far] at dev
  have heats : (s.at u).heats = s.dev.heats := arrive_heats s.now u
  have pend : t.dev.regs.pend = (committed (s.at u) p.val v.toNat).regs.pend := by rw [dev, forwardWrite_regs]
  refine ⟨nv, ?_, ?_⟩
  · rw [pend, committed, at_newGroups, at_cycle, heats, (at_regs s u).pend]
  · have sent := same_forwardWrite (committed (s.at u) p.val v.toNat) false (wordAddr p.val 0x01C) v.toNat
    rw [← dev] at sent
    rw [pend]
    exact same_trans (same_regs _ _ (sameRegs_pend (at_regs s u) _)) sent

/-- The reason of a refusal, as ERRW shows it. -/
theorem refusal_reason {d : Dev} {q p off reason : Nat} (hp : p < 1024) (ho : off < 4096) (hr : reason < 128) :
    bits (word (refusalWord d q p off reason)).toNat 24 7 = reason := by
  have more : d.rfld q 0x024 31 1 < 2 := Nat.mod_lt _ (by decide)
  unfold refusalWord
  simp only [bits, word, BitVec.toNat_ofNat, Nat.shiftRight_eq_div_pow, Nat.shiftLeft_eq]
  omega

theorem commitWrite_undefined {k : PageKind} (hp : kindOf p.val = some k) (other : k ≠ .axs)
    (free : k.mirrored = true → (s.at u).writeHeld = false)
    (bad : ∃ g, g ∈ newGroups s.dev p.val v.toNat ∧ k.defines g = false) :
    Answers s (.commitWrite u p v) fun t =>
      t.nv = s.nv ∧ t.dev.regs.pend = s.dev.regs.pend ∧ t.dev.rfld p.val 0x024 24 7 = refusedRange := by
  obtain ⟨g, new, undefined⟩ := bad
  refine answers_of_exactly (exactly_commitWrite_free hp free) fun t nv dev => ?_
  rw [commitWrite_range hp other ⟨g, by rwa [at_newGroups], .inl undefined⟩] at dev
  have left := (same_refuse (d := s.at u) (off := 0x01C) (reason := refusedRange) hp (by decide)).regs
  rw [← dev] at left
  refine ⟨nv, (left.pend.trans (setReg_pend _ _ _ _)).trans (at_regs s u).pend, ?_⟩
  rw [Dev.rfld, left.read _ (reportWord_of_offset (p := p.val) (off := 0x024) (by decide) (by decide)), setReg_read, if_pos rfl]
  exact refusal_reason (Nat.lt_trans (kindOf_lt hp) (by decide)) (by decide) (by decide)

end

/-- Settles O15: a COMMIT that waits, that is accepted, and that names a group which the page does not have. -/
theorem commitWrite : Obligations.CommitWrite := by
  unfold Obligations.CommitWrite
  refine ⟨fun s u p v mirrored => commitWrite_kept mirrored, fun s u p v k hp other free => ⟨?_, commitWrite_undefined hp other free⟩⟩
  exact fun good far passed => commitWrite_pends hp other free good far passed

end Sys2Proof.Proofs
end

section
/-! Live writes of mirrored pages act three cycles later: O17. -/
namespace Sys2Proof.Proofs
open Sys2Proof.Machine Sys2Proof.Laws

theorem exactly_liveWriteApply (s : State) : AnswersExactly s .liveWriteApply (liveWriteApply s.now) :=
  exactly_of_onDev (f := liveWriteApply) rfl

/-! ### What else acts at the start of a cycle (R464, R465) -/

theorem applyLowers_none {d : Dev} (h : d.mould.lowers = []) : applyLowers d = d := by
  unfold applyLowers
  dsimp only
  rw [h, List.filter_nil, List.filter_nil, List.foldl_nil, ← h]

theorem applyEarlyRaises_none {d : Dev} (h : d.mould.raises = []) : applyEarlyRaises d = d := by
  unfold applyEarlyRaises
  rw [h, List.filter_nil, List.foldl_nil]

/-- Every move in progress has a rate that the mould admits. -/
def ratesAdmitted (d : Dev) : Prop :=
  ∀ m, m ∈ d.stp.moves → m.finished = false → ∀ x, x ∈ m.axes → mouldStep d x ≠ 0

theorem stepRateCheck_admitted {d : Dev} (h : ratesAdmitted d) : stepRateCheck d = d := by
  have none : (d.stp.moves.filter fun m => !m.finished && m.axes.any fun x => mouldStep d x == 0) = [] := by
    refine List.filter_eq_nil_iff.mpr fun m hm stops => ?_
    obtain ⟨going, zero⟩ : m.finished = false ∧ ∃ x ∈ m.axes, mouldStep d x = 0 := by simpa using stops
    obtain ⟨x, hx, hz⟩ := zero
    exact h m hm going x hx hz
  unfold stepRateCheck
  rw [none, List.foldl_nil]

/-- Without lowered or raised limits and with no rate that the mould cuts to 0, only the Live writes act. -/
theorem liveSettings_idle {d : Dev} (lowers : d.mould.lowers = []) (raises : d.mould.raises = []) (rates : ratesAdmitted d) :
    stepRateCheck (applyEarlyRaises (applyLowers d)) = d := by
  rw [applyLowers_none lowers, applyEarlyRaises_none raises, stepRateCheck_admitted rates]

/-! ### The write of TMP_PEEK -/

/-- TMP_PEEK, the register of the map that is Live. -/
def peekReg : Reg := ⟨0x068, 0, 1, [rw 0 9 .live 0 [], rw 16 9 .live 0 []]⟩

theorem peekReg_found : PageKind.tmp.reg? 0x068 = some peekReg := by decide

/-- The device with the word of TMP_PEEK in use. -/
def peeked (d : Dev) (v : Long) : Dev := d.mergeInUse pageTmp 0x068 (v.toNat % 2 ^ 32) (liveMask peekReg % 2 ^ 32)

theorem applyLive_peek (d : Dev) (v : Long) (n : Nat) :
    applyLive d ⟨wordAddr pageTmp 0x068, v, false, n⟩ = peeked d v := by
  unfold applyLive
  dsimp only
  rw [wordAddr_page (by decide), wordAddr_offset (by decide), show kindOf pageTmp = some .tmp from rfl]
  dsimp only
  rw [if_neg (by decide), if_neg (by decide), peekReg_found]
  rfl

/-- A rate of the mould stands in another word. -/
theorem mouldStep_peeked (d : Dev) (v : Long) {x : Nat} (hx : x < 12) : mouldStep (peeked d v) x = mouldStep d x := by
  have other : wordAddr pageMld (0x600 + 4 * x) ≠ wordAddr pageTmp 0x068 := by
    simp only [wordAddr, pageMld, pageTmp]
    omega
  simp only [mouldStep, Dev.fld, peeked, mergeInUse_inUse, if_neg other]

theorem axes_lt {m : Move} {x : Nat} (h : x ∈ m.axes) : x < 12 :=
  List.mem_range.mp (List.mem_of_mem_filter h)

theorem ratesAdmitted_peeked {d : Dev} {v : Long} (h : ratesAdmitted d) : ratesAdmitted (peeked d v) := fun m hm going x hx => by
  rw [mouldStep_peeked d v (axes_lt hx)]
  exact h m hm going x hx

/-! ### The command -/

/-- Writes that are not due stay (R45). -/
theorem liveWriteApply_early {d : Dev} (lowers : d.mould.lowers = []) (raises : d.mould.raises = []) (rates : ratesAdmitted d)
    (early : ∀ l, l ∈ d.regs.live → d.cycle < l.cycle + 3) : liveWriteApply d = d := by
  have due : (d.regs.live.filter fun l => decide (l.cycle + 3 ≤ d.cycle)) = [] :=
    List.filter_eq_nil_iff.mpr fun l hl now => absurd (early l hl) (Nat.not_lt.mpr (of_decide_eq_true now))
  have stay : (d.regs.live.filter fun l => !decide (l.cycle + 3 ≤ d.cycle)) = d.regs.live :=
    List.filter_eq_self.mpr fun l hl => by rw [decide_eq_false (Nat.not_le.mpr (early l hl))]; rfl
  unfold liveWriteApply
  dsimp only
  rw [due, stay, List.foldl_nil]
  exact liveSettings_idle lowers raises rates

/-- A write of TMP_PEEK that waits alone acts when it is due (R45). -/
theorem liveWriteApply_peek {d : Dev} {v : Long} {n : Nat} (lowers : d.mould.lowers = []) (raises : d.mould.raises = [])
    (rates : ratesAdmitted d) (alone : d.regs.live = [⟨wordAddr pageTmp 0x068, v, false, n⟩]) (due : n + 3 ≤ d.cycle) :
    liveWriteApply d = peeked { d with regs := { d.regs with live := [] } } v := by
  have acts : (d.regs.live.filter fun l => decide (l.cycle + 3 ≤ d.cycle)) = d.regs.live := by rw [alone]; simp [due]
  have stay : (d.regs.live.filter fun l => !decide (l.cycle + 3 ≤ d.cycle)) = [] := by rw [alone]; simp [due]
  unfold liveWriteApply
  dsimp only
  rw [acts, stay, alone, List.foldl_cons, List.foldl_nil, applyLive_peek]
  exact liveSettings_idle lowers raises (ratesAdmitted_peeked rates)

/-- Both fields of TMP_PEEK are Live. -/
theorem peeked_fields (d : Dev) (v : Long) :
    (peeked d v).fld pageTmp 0x068 0 9 = bits v.toNat 0 9 ∧ (peeked d v).fld pageTmp 0x068 16 9 = bits v.toNat 16 9 := by
  have low (lo : Nat) (h : lo + 9 ≤ 32) : bits (v.toNat % 2 ^ 32) lo 9 = bits v.toNat lo 9 := by
    refine Nat.eq_of_testBit_eq fun i => ?_
    rw [testBit_bits, testBit_bits, Nat.testBit_mod_two_pow]
    by_cases hi : i < 9
    · rw [decide_eq_true (show lo + i < 32 by omega), Bool.true_and]
    · rw [decide_eq_false hi, Bool.false_and, Bool.false_and]
  simp only [Dev.fld, peeked, mergeInUse_inUse, if_true]
  exact ⟨(bits_mergeBits (by decide) (by decide)).trans (low 0 (by decide)),
    (bits_mergeBits (by decide) (by decide)).trans (low 16 (by decide))⟩

/-- Settles O17: the Live writes before their cycle, and that of TMP_PEEK at it. -/
theorem liveWriteApply : Obligations.LiveWriteApply := by
  unfold Obligations.LiveWriteApply
  intro s lowers raises rates
  refine ⟨fun early => ?_, fun v n alone due => ?_⟩
  · refine answersButReports_of_exactly (exactly_liveWriteApply s) ?_
    rw [liveWriteApply_early (d := s.now) lowers raises rates early]
    exact same_refl _
  · refine answers_of_exactly (exactly_liveWriteApply s) fun t nv dev => ?_
    rw [liveWriteApply_peek (d := s.now) lowers raises rates alone due] at dev
    obtain ⟨column, row⟩ := peeked_fields { s.now with regs := { s.now.regs with live := [] } } v
    rw [dev]
    refine ⟨nv, column, row, rfl, fun a other _ => ?_, same_refl _⟩
    rw [peeked, mergeInUse_inUse, if_neg other]
    rfl

end Sys2Proof.Proofs
end

section
/-! Words of the field-correction window, by the host and by LOAD: O18. -/
namespace Sys2Proof.Proofs
open Sys2Proof.Machine Sys2Proof.Laws

/-! ### The word and its place (R210) -/

/-- The BAR2 address of word `k` of station `i`'s field-correction window (R62). -/
def fctAddr (i : Fin 32) (k : Fin 16384) : Nat := baseFct + i.val * 0x20000 + 4 * k.val

/-- Where the word goes: in the bank that is not in use. -/
def fctSlot (d : Dev) (i : Fin 32) (k : Fin 16384) : Nat :=
  16384 * (2 * i.val + boolNat (!(stationOf d i.val).bank)) + k.val

theorem fctAddr_station (i : Fin 32) (k : Fin 16384) : (fctAddr i k - baseFct) / 0x20000 = i.val := by
  unfold fctAddr; omega
theorem fctAddr_word (i : Fin 32) (k : Fin 16384) : (fctAddr i k - baseFct) % 0x10000 / 4 = k.val := by
  unfold fctAddr; omega
theorem fctAddr_window (i : Fin 32) (k : Fin 16384) : baseFct ≤ fctAddr i k ∧ fctAddr i k + 4 ≤ baseProg := by
  unfold fctAddr baseFct baseProg; omega

/-- The word `v` in that place. -/
def fctWritten (d : Dev) (i : Fin 32) (k : Fin 16384) (v : Word) : Dev := { d with fct := d.fct.set (same 0) (fctSlot d i k) v }

theorem fctWritten_get (d : Dev) (i : Fin 32) (k : Fin 16384) (v : Word) (a : Nat) :
    (fctWritten d i k v).fct.get (same 0) a = if a = fctSlot d i k then v else d.fct.get (same 0) a := get_set _ _ _ _ _

theorem fctSlot_of_stations {d e : Dev} (h : e.stations = d.stations) (i : Fin 32) (k : Fin 16384) : fctSlot e i k = fctSlot d i k := by
  rw [fctSlot, stationOf_of_stations h, fctSlot]

theorem kindOf_pageStn (i : Fin 32) : kindOf (pageStn i.val) = some .stn := by
  revert i
  decide

theorem tableWrite_fct (d : Dev) (i : Fin 32) (k : Fin 16384) (v : Word) :
    (groupPending d (pageStn i.val) 3 = false →
      tableWrite d (fctAddr i k) v = (fctWritten d i k v, .stored)) ∧
    (groupPending d (pageStn i.val) 3 = true →
      tableWrite d (fctAddr i k) v = (refuseTable d (pageStn i.val) refusedPending, .pending)) := by
  obtain ⟨low, high⟩ := fctAddr_window i k
  unfold tableWrite
  rw [if_neg (by omega), if_pos (by omega)]
  dsimp only
  rw [fctAddr_station, fctAddr_word]
  exact ⟨fun free => if_neg (by rw [free]; decide), fun waits => if_pos waits⟩

theorem toNat_fctAddr (i : Fin 32) (k : Fin 16384) : (BitVec.ofNat 28 (fctAddr i k)).toNat = fctAddr i k := by
  have h := (fctAddr_window i k).2
  rw [BitVec.toNat_ofNat, Nat.mod_eq_of_lt (by unfold baseProg at h; omega)]

/-! ### The command of the host -/

theorem exactly_bar2TableWrite (s : State) (u : Nat) (a : BitVec 28) (v : Word) :
    AnswersExactly s (.bar2TableWrite u a v) (windowWrite (s.at u) a.toNat v) :=
  exactly_of_onDev (f := fun d => windowWrite (d.arrive u) a.toNat v) rfl

/-- A word for a mirrored window without a free record slot waits (R481). -/
theorem bar2TableWrite_kept {s : State} {u : Nat} {a : BitVec 28} {v : Word} (mirrored : windowMirrored a.toNat = true) :
    keptForSlot s u (.bar2TableWrite u a v) ⟨true, a.toNat, 4, v.toNat⟩ := fun held => by
  have sent := exactly_bar2TableWrite s u a v
  rw [windowWrite, mirrored, held] at sent
  exact answersButReports_of_exactly sent (same_refl _)

/-- A device that may take writes of mirrored pages itself (R58, R59). -/
def takesWrites (d : Dev) : Prop := d.par.role ≠ roleStandby ∧ d.par.role ≠ roleJoining ∧ d.par.role ≠ roleOut

theorem bar2Write_fct {d : Dev} (i : Fin 32) (k : Fin 16384) (v : Word) (takes : takesWrites d) :
    (groupPending d (pageStn i.val) 3 = false → bar2Write d (fctAddr i k) v =
      forwardWrite (fctWritten d i k v) true (fctAddr i k) v.toNat) ∧
    (groupPending d (pageStn i.val) 3 = true → bar2Write d (fctAddr i k) v = refuseTable d (pageStn i.val) refusedPending) := by
  have aligned : ¬ fctAddr i k % 4 ≠ 0 := by unfold fctAddr baseFct; omega
  have mirrored : windowMirrored (fctAddr i k) = true := by
    have h := (fctAddr_window i k).2
    exact decide_eq_true (by unfold baseProg at h; unfold baseLog; omega)
  have mine : decide (d.par.role = roleStandby ∨ d.par.role = roleJoining ∨ d.par.role = roleOut) = false :=
    decide_eq_false (by unfold takesWrites at takes; tauto)
  refine ⟨fun free => ?_, fun waits => ?_⟩
  · unfold bar2Write
    rw [(tableWrite_fct d i k v).1 free]
    simp [aligned, mirrored, mine]
  · unfold bar2Write
    rw [(tableWrite_fct d i k v).2 waits]
    simp [aligned, mirrored, mine]

section
variable {s : State} {u : Nat} (i : Fin 32) (k : Fin 16384) {v : Word}

theorem exactly_bar2TableWrite_fct (free : (s.at u).writeHeld = false) :
    AnswersExactly s (.bar2TableWrite u (BitVec.ofNat 28 (fctAddr i k)) v) (bar2Write (s.at u) (fctAddr i k) v) := by
  have sent := exactly_bar2TableWrite s u (BitVec.ofNat 28 (fctAddr i k)) v
  rwa [windowWrite, free, Bool.and_false, if_neg (by decide), toNat_fctAddr] at sent

theorem at_takesWrites (takes : takesWrites s.dev) : takesWrites (s.at u) := by
  have par : (s.at u).par = s.dev.par := arrive_par s.now u
  unfold takesWrites
  rwa [par]

theorem bar2TableWrite_stored (slot : (s.at u).writeHeld = false) (takes : takesWrites s.dev)
    (free : groupPending s.dev (pageStn i.val) 3 = false) :
    Answers s (.bar2TableWrite u (BitVec.ofNat 28 (fctAddr i k)) v) fun t =>
      t.nv = s.nv ∧
      (∀ a, t.dev.fct.get (same 0) a = if a = fctSlot s.dev i k then v else s.dev.fct.get (same 0) a) ∧
      SameButReports { s.at u with fct := t.dev.fct, par := t.dev.par, out := t.dev.out } t.dev := by
  have fct : (s.at u).fct = s.dev.fct := arrive_fct s.now u
  have stations : (s.at u).stations = s.dev.stations := arrive_stations s.now u
  have free' : groupPending (s.at u) (pageStn i.val) 3 = false := (groupPending_of_pend (at_regs s u).pend _ _).trans free
  refine answers_of_exactly (exactly_bar2TableWrite_fct i k slot) fun t nv dev => ?_
  rw [(bar2Write_fct i k v (at_takesWrites takes)).1 free'] at dev
  have sent := same_forwardWrite (fctWritten (s.at u) i k v) true (fctAddr i k) v.toNat
  rw [← dev] at sent
  have written : t.dev.fct = (fctWritten (s.at u) i k v).fct := sent.fct
  rw [written]
  exact ⟨nv, fun a => by rw [fctWritten_get, fct, fctSlot_of_stations stations], sent⟩

theorem bar2TableWrite_pending (slot : (s.at u).writeHeld = false) (takes : takesWrites s.dev)
    (waits : groupPending s.dev (pageStn i.val) 3 = true) :
    AnswersButReports s (.bar2TableWrite u (BitVec.ofNat 28 (fctAddr i k)) v)
      ((s.at u).setReg (pageStn i.val) 0x024 (refusalWord s.dev (pageStn i.val) (pageStn i.val) 0x01C refusedPending)) := by
  have waits' : groupPending (s.at u) (pageStn i.val) 3 = true := (groupPending_of_pend (at_regs s u).pend _ _).trans waits
  refine answersButReports_of_exactly (exactly_bar2TableWrite_fct i k slot) ?_
  rw [(bar2Write_fct i k v (at_takesWrites takes)).2 waits', ← at_refusalWord s u]
  exact same_refuse (kindOf_pageStn i) (by decide)

end

/-! ### LOAD (R587) -/

/-- Consuming an entry touches its ring's registers and state alone, and no group. -/
theorem consumed_frame (d : Dev) (r : Nat) :
    consumed d r = { d with regs := (consumed d r).regs, rings := (consumed d r).rings } ∧ (consumed d r).regs.pend = d.regs.pend := by
  unfold consumed
  dsimp only
  split <;> exact ⟨rfl, rfl⟩

/-- The word in its place, and what went out. -/
def wordLoaded (d : Dev) (out : List Out) (i : Fin 32) (k : Fin 16384) (v : Word) : Dev := { fctWritten d i k v with out := out }

/-- A LOAD of one word of the field-correction window. -/
def loadsWord (e : Entry) (i : Fin 32) (k : Fin 16384) : Prop :=
  byteField e 0 1 = 0x41 ∧ byteField e 1 3 = 0 ∧ byteField e 24 7 = 0 ∧ byteField e 16 4 = fctAddr i k ∧ byteField e 20 4 = 4

section
variable {e : Entry} {i : Fin 32} {k : Fin 16384} (word1 : loadsWord e i k)
include word1

theorem loadShape_word : loadShape e = true := by
  obtain ⟨type, reserved, rest, offset, length⟩ := word1
  have aligned : fctAddr i k % 4 = 0 := by unfold fctAddr baseFct; omega
  unfold loadShape loadOffset loadLength
  rw [type, reserved, rest, offset, length, aligned]
  rfl

theorem loadInside_word : loadInside e = true := by
  obtain ⟨-, -, -, offset, length⟩ := word1
  obtain ⟨low, high⟩ := fctAddr_window i k
  have window : tableWindow (fctAddr i k) = some (baseFct, 0x400000) := by
    unfold tableWindow
    rw [List.find?_cons_of_pos]
    exact decide_eq_true ⟨low, by unfold baseProg at high; unfold baseFct; omega⟩
  unfold loadInside loadOffset loadLength
  rw [offset, length, window]
  exact decide_eq_true (by unfold baseProg at high; unfold baseFct; omega)

theorem loadTable_word {d : Dev} {r : Nat} {bs : List Byte} (free : groupPending d (pageStn i.val) 3 = false) :
    loadTable d r e bs = loadResult (fctWritten d i k (word (leNat (bs.take 4)))) r e 0x00 none := by
  obtain ⟨-, -, -, offset, length⟩ := word1
  have near : ¬ baseDram ≤ fctAddr i k := by
    have h := (fctAddr_window i k).2
    unfold baseProg at h
    unfold baseDram
    omega
  have words : loadWords (fctAddr i k) d (wordsOf (4 / 4) bs) = (fctWritten d i k (word (leNat (bs.take 4))), none) := by
    rw [show wordsOf (4 / 4) bs = [word (leNat (bs.take 4))] from rfl, loadWords, (tableWrite_fct d i k _).1 free]
    rfl
  unfold loadTable loadOffset loadLength
  rw [offset, length, if_neg near, words]

/-- The entry's data go to a device that follows, and the word to its place. -/
theorem loadAct_word {d : Dev} {r : Nat} {bs : List Byte} (free : groupPending d (pageStn i.val) 3 = false) :
    ∃ out, (d.forwards = false → out = d.out) ∧
      loadAct d r e (.ok bs) = loadResult (wordLoaded d out i k (word (leNat (bs.take 4)))) r e 0x00 none := by
  unfold loadAct
  rw [loadShape_word word1, loadInside_word word1]
  dsimp only
  rw [if_neg (by decide), if_neg (by decide)]
  by_cases follows : d.forwards = true
  · refine ⟨(sendCopy 4 (bs.length / 4088 + 2) d (8 + r) (leBytes 32 e.toNat ++ bs)).out,
      fun alone => absurd (follows.symm.trans alone) (by decide), ?_⟩
    rw [if_pos follows, sendCopy_out, loadTable_word word1 (by exact free)]
    rfl
  · refine ⟨d.out, fun _ => rfl, ?_⟩
    rw [if_neg follows, loadTable_word word1 free]
    rfl

end

/-- LOAD_DONE is a record, and takes free values (log entry 34). -/
theorem same_loadDone (d : Dev) {r : Nat} (hr : r < 2) (e : Entry) (status : Nat) (detail : Option Nat) :
    SameButReports { d with free := (loadDone d r e status detail).free } (loadDone d r e status detail) := by
  have record (x : Dev) (data : Nat) : SameButReports x (emitShared x (10 + r) .plain data) := same_emitShared _ _ _ _ (by omega)
  unfold loadDone
  dsimp only
  refine same_trans ?_ (record _ _)
  rw [(record _ _).free, orFree_frame]
  exact same_refl _

/-- The host link's state, but for its coalescing windows and what a standby keeps, in the place of another. -/
theorem same_hif (d : Dev) {x y : Hif} (h : y = { x with windows := y.windows, kept := y.kept }) :
    SameButReports { d with hif := x } { d with hif := y } :=
  { same_refl { d with hif := x } with hif := h }

theorem exactly_load (s : State) (u : Nat) (r : Fin 2) (e : Entry) (rd : HostRead) :
    AnswersExactly s (.load u r e rd) (loadEntry (s.at u) r.val e rd (.load 0 r e rd)) :=
  exactly_of_onDev (f := fun d => loadEntry (d.arrive u) r.val e rd (.load 0 r e rd)) rfl

/-- An entry whose data have been read is consumed and acts. -/
theorem loadEntry_read {d : Dev} {r : Nat} {e : Entry} {bs : List Byte} {self : Instr} (ready : entryReady d (8 + r) e = true) :
    loadEntry d r e (.ok bs) self = loadAct (consumed d (8 + r)) r e (.ok bs) := by
  have read : (HostRead.ok bs == HostRead.waiting) = false := rfl
  unfold loadEntry
  rw [read, Bool.and_false, Bool.false_and, Bool.false_and, if_neg (by decide), takeEntry_ready _ ready]

section
variable {s : State} {u : Nat} {r : Fin 2} {e : Entry} {bs : List Byte} {i : Fin 32} {k : Fin 16384}

/-- A LOAD of one word leaves the word in its place, and its result. -/
theorem load_leaves (ready : entryReady (s.at u) (8 + r.val) e = true) (word1 : loadsWord e i k)
    (free : groupPending s.dev (pageStn i.val) 3 = false) :
    ∃ out, (s.dev.forwards = false → out = []) ∧
      AnswersExactly s (.load u r e (.ok bs))
        (loadResult (wordLoaded (consumed (s.at u) (8 + r.val)) out i k (word (leNat (bs.take 4)))) r.val e 0x00 none) := by
  obtain ⟨frame, pend⟩ := consumed_frame (s.at u) (8 + r.val)
  have forwards : (consumed (s.at u) (8 + r.val)).forwards = s.dev.forwards :=
    forwards_of_par ((congrArg Dev.par frame).trans (arrive_par s.now u))
  have silent : (consumed (s.at u) (8 + r.val)).out = [] := (congrArg Dev.out frame).trans (arrive_out s.now u)
  have free' : groupPending (consumed (s.at u) (8 + r.val)) (pageStn i.val) 3 = false :=
    (groupPending_of_pend (pend.trans (at_regs s u).pend) _ _).trans free
  obtain ⟨out, alone, acts⟩ := loadAct_word (r := r.val) (bs := bs) word1 free'
  refine ⟨out, fun h => (alone (forwards.trans h)).trans silent, ?_⟩
  have sent := exactly_load s u r e (.ok bs)
  rwa [loadEntry_read ready, acts] at sent

theorem load_word (ready : entryReady (s.at u) (8 + r.val) e = true) (word1 : loadsWord e i k)
    (free : groupPending s.dev (pageStn i.val) 3 = false) :
    Answers s (.load u r e (.ok bs)) fun t =>
      t.nv = s.nv ∧
      (∀ a, t.dev.fct.get (same 0) a = if a = fctSlot s.dev i k then word (leNat (bs.take 4)) else s.dev.fct.get (same 0) a) ∧
      (s.dev.pairHolder = false →
        SameButReports { consumed (s.at u) (8 + r.val) with fct := t.dev.fct, free := t.dev.free, out := t.dev.out } t.dev) ∧
      (s.dev.forwards = false → t.dev.out = []) ∧
      (s.dev.pairHolder = true → SameButReports { consumed (s.at u) (8 + r.val) with
        fct := t.dev.fct, out := t.dev.out, hif := { s.dev.hif with loads := s.dev.hif.loads ++ [(r.val, e, 0, none)] } } t.dev) := by
  obtain ⟨out, silent, leaves⟩ := load_leaves (bs := bs) ready word1 free
  obtain ⟨frame, -⟩ := consumed_frame (s.at u) (8 + r.val)
  have stations : (consumed (s.at u) (8 + r.val)).stations = s.dev.stations :=
    (congrArg Dev.stations frame).trans (arrive_stations s.now u)
  have fct : (consumed (s.at u) (8 + r.val)).fct = s.dev.fct := (congrArg Dev.fct frame).trans (arrive_fct s.now u)
  have par : (consumed (s.at u) (8 + r.val)).par = s.dev.par := (congrArg Dev.par frame).trans (arrive_par s.now u)
  have hif : (consumed (s.at u) (8 + r.val)).hif = { s.dev.hif with windows := (s.at u).hif.windows, kept := (s.at u).hif.kept } :=
    (congrArg Dev.hif frame).trans (same_arrive s.now u).hif
  generalize consumed (s.at u) (8 + r.val) = c at *
  have place (a : Nat) : (fctWritten c i k (word (leNat (bs.take 4)))).fct.get (same 0) a =
      if a = fctSlot s.dev i k then word (leNat (bs.take 4)) else s.dev.fct.get (same 0) a := by
    rw [fctWritten_get, fctSlot_of_stations stations, fct]
  have holder : (wordLoaded c out i k (word (leNat (bs.take 4)))).pairHolder = s.dev.pairHolder := by
    show (c.holds && c.par.withStandby) = _
    simp only [Dev.pairHolder, Dev.holds, par]
  refine answers_of_exactly leaves fun t nv dev => ?_
  unfold loadResult at dev
  rw [holder] at dev
  cases pair : s.dev.pairHolder
  · rw [pair, if_neg (by decide)] at dev
    have done := same_loadDone (wordLoaded c out i k (word (leNat (bs.take 4)))) r.isLt e 0x00 none
    rw [← dev] at done
    have written : t.dev.fct = (fctWritten c i k (word (leNat (bs.take 4)))).fct := done.fct
    have sent : t.dev.out = out := done.out
    rw [written, sent]
    exact ⟨nv, place, fun _ => done, silent, nofun⟩
  · rw [pair, if_pos rfl] at dev
    have waits : SameButReports { wordLoaded c out i k (word (leNat (bs.take 4))) with
        hif := { s.dev.hif with loads := s.dev.hif.loads ++ [(r.val, e, 0, none)] } } t.dev := by
      rw [dev]
      refine same_hif (wordLoaded c out i k (word (leNat (bs.take 4)))) ?_
      show ({ c.hif with loads := c.hif.loads ++ [(r.val, e, 0, none)] } : Hif) =
        { s.dev.hif with loads := s.dev.hif.loads ++ [(r.val, e, 0, none)], windows := c.hif.windows, kept := c.hif.kept }
      rw [hif]
    have written : t.dev.fct = (fctWritten c i k (word (leNat (bs.take 4)))).fct := waits.fct
    have sent : t.dev.out = out := waits.out
    rw [written, sent]
    exact ⟨nv, place, nofun, silent, fun _ => waits⟩

end

/-- Settles O18: the host's word that waits, is stored and is discarded, and the word of a LOAD. -/
theorem tableWrites : Obligations.TableWrites := by
  unfold Obligations.TableWrites
  refine ⟨fun s u a v mirrored => bar2TableWrite_kept mirrored, ?_, ?_⟩
  · intro s u i k v slot standby joining away
    exact ⟨bar2TableWrite_stored i k slot ⟨standby, joining, away⟩, bar2TableWrite_pending i k slot ⟨standby, joining, away⟩⟩
  · intro s u r e bs i k ready type reserved rest offset length _ free
    exact load_word ready ⟨type, reserved, rest, offset, length⟩ free

end Sys2Proof.Proofs
end

section
/-! What a group takes when it applies: its fields in every register of its page, and nothing else (R46). -/
namespace Sys2Proof.Proofs
open Sys2Proof.Machine Sys2Proof.Laws

/-! ### The places of a page's registers -/

/-- Every register of a kind, each of a row by itself, with its offset. -/
def slots (k : PageKind) : List (Reg × Nat) := k.regs.flatMap fun r => (List.range r.count).map fun j => (r, r.off + j * r.stride)

/-- The offsets of the words of a register. -/
def slotWords (x : Reg × Nat) : List Nat := if x.1.wide then [x.2, x.2 + 4] else [x.2]

theorem mem_slots {k : PageKind} {r : Reg} {j : Nat} (hr : r ∈ k.regs) (hj : j < r.count) : (r, r.off + j * r.stride) ∈ slots k :=
  List.mem_flatMap.mpr ⟨r, hr, List.mem_map.mpr ⟨j, List.mem_range.mpr hj, rfl⟩⟩

/-- Two registers of a page have no word in common. -/
theorem slotWords_nodup (k : PageKind) : ((slots k).flatMap slotWords).Nodup := by
  cases k <;> decide +kernel

theorem slotWords_lt {k : PageKind} {x : Reg × Nat} (hx : x ∈ slots k) {o : Nat} (ho : o ∈ slotWords x) : o < 4096 := by
  have all : ((slots k).flatMap slotWords).all (fun o => decide (o < 4096)) = true := by cases k <;> decide +kernel
  exact of_decide_eq_true (List.all_eq_true.mp all o (List.mem_flatMap.mpr ⟨x, hx, ho⟩))

/-! ### One register -/

/-- The bits of a register that group `g` takes, and those of them that read 0 afterwards. -/
def groupMask (g : Nat) (r : Reg) : Nat := maskWhere r fun f => f.commitGroup == some g
def onceMask (g : Nat) (r : Reg) : Nat := maskWhere r fun f => f.commitGroup == some g && f.acc == .wo

/-- Group `g` takes its fields of one register that has any. -/
def groupFields (p g : Nat) (d : Dev) (r : Reg) (off : Nat) : Dev :=
  Dev.mergeWide Dev.mergeRead (Dev.mergeWide Dev.mergeInUse d p off (regValue d p r off) (groupMask g r) r.wide) p off 0
    (onceMask g r) r.wide
def takeSlot (p g : Nat) (d : Dev) (x : Reg × Nat) : Dev := if groupMask g x.1 = 0 then d else groupFields p g d x.1 x.2

theorem word_mergeBits_mod (w : Word) (v m : Nat) : word (mergeBits w.toNat v (m % 2 ^ 32)) = word (mergeBits w.toNat v m) := by
  refine BitVec.eq_of_toNat_eq (Nat.eq_of_testBit_eq fun i => ?_)
  rw [testBit_word, testBit_word, testBit_mergeBits, testBit_mergeBits, Nat.testBit_mod_two_pow]
  by_cases hi : i < 32 <;> simp [hi]

theorem onlyRegs_takeSlot (p g : Nat) (d : Dev) (x : Reg × Nat) : OnlyRegs d (takeSlot p g d x) := by
  unfold takeSlot groupFields Dev.mergeWide
  dsimp only
  repeat' split
  all_goals rfl

theorem takeSlot_pend (p g : Nat) (d : Dev) (x : Reg × Nat) : (takeSlot p g d x).regs.pend = d.regs.pend := by
  unfold takeSlot groupFields Dev.mergeWide
  dsimp only
  repeat' split
  all_goals rfl

/-- A word of another register stands. -/
theorem takeSlot_other {p g a : Nat} {x : Reg × Nat} (d : Dev) (h : ∀ o ∈ slotWords x, a ≠ wordAddr p o) :
    (takeSlot p g d x).regs.inUse a = d.regs.inUse a ∧ (takeSlot p g d x).regs.read a = d.regs.read a := by
  unfold takeSlot groupFields Dev.mergeWide
  dsimp only
  cases wide : x.1.wide
  · have first : a ≠ wordAddr p x.2 := h _ (by simp [slotWords, wide])
    split <;> simp [first]
  · have first : a ≠ wordAddr p x.2 := h _ (by simp [slotWords, wide])
    have second : a ≠ wordAddr p (x.2 + 4) := h _ (by simp [slotWords, wide])
    split <;> simp [first, second]

/-- The word of a 32-bit register takes the bits of the group as they read. -/
theorem takeSlot_inUse {p g : Nat} {x : Reg × Nat} (d : Dev) (narrow : x.1.wide = false) :
    (takeSlot p g d x).regs.inUse (wordAddr p x.2) =
      word (mergeBits (d.regs.inUse (wordAddr p x.2)).toNat (d.regs.read (wordAddr p x.2)).toNat (groupMask g x.1)) := by
  unfold takeSlot groupFields Dev.mergeWide
  split
  · next none => rw [none, word_mergeBits_none]
  · simpa [narrow, regValue, Nat.mod_eq_of_lt (BitVec.isLt _)] using
      word_mergeBits_mod (d.regs.inUse (wordAddr p x.2)) (d.regs.read (wordAddr p x.2)).toNat (groupMask g x.1)

theorem mergeRead_nothing (d : Dev) (p off v : Nat) : (d.mergeRead p off v 0).regs.read = d.regs.read := by
  funext a
  rw [mergeRead_read, word_mergeBits_none]
  split
  · next here => rw [here]
  · rfl

/-- What reads stands where no field of the group is taken once. -/
theorem takeSlot_read {p g : Nat} {x : Reg × Nat} (d : Dev) (kept : onceMask g x.1 = 0) :
    (takeSlot p g d x).regs.read = d.regs.read := by
  unfold takeSlot groupFields Dev.mergeWide
  rw [kept, Nat.zero_mod, Nat.zero_shiftRight]
  dsimp only
  split
  · rfl
  · cases x.1.wide
    · exact mergeRead_nothing _ _ _ _
    · exact (mergeRead_nothing _ _ _ _).trans (mergeRead_nothing _ _ _ _)

/-! ### Registers in turn -/

section
variable {p g : Nat} {l : List (Reg × Nat)}

theorem onlyRegs_takeSlots (d : Dev) : OnlyRegs d (l.foldl (takeSlot p g) d) := by
  induction l generalizing d with
  | nil => rfl
  | cons x l ih => exact (onlyRegs_takeSlot p g d x).trans (ih _)

theorem takeSlots_pend (d : Dev) : (l.foldl (takeSlot p g) d).regs.pend = d.regs.pend := by
  induction l generalizing d with
  | nil => rfl
  | cons x l ih => exact (ih _).trans (takeSlot_pend p g d x)

theorem takeSlots_other {a : Nat} (d : Dev) (h : ∀ o ∈ l.flatMap slotWords, a ≠ wordAddr p o) :
    (l.foldl (takeSlot p g) d).regs.inUse a = d.regs.inUse a ∧ (l.foldl (takeSlot p g) d).regs.read a = d.regs.read a := by
  induction l generalizing d with
  | nil => exact ⟨rfl, rfl⟩
  | cons x l ih =>
    obtain ⟨used, reads⟩ := ih (takeSlot p g d x) fun o ho => h o (by simp [ho])
    obtain ⟨used', reads'⟩ := takeSlot_other (g := g) (x := x) d fun o ho => h o (by simp [ho])
    exact ⟨used.trans used', reads.trans reads'⟩

theorem takeSlots_read (d : Dev) (kept : ∀ x ∈ l, onceMask g x.1 = 0) : (l.foldl (takeSlot p g) d).regs.read = d.regs.read := by
  induction l generalizing d with
  | nil => rfl
  | cons x l ih =>
    exact (ih _ fun y hy => kept y (List.mem_cons_of_mem x hy)).trans (takeSlot_read d (kept x List.mem_cons_self))

theorem wordAddr_ne {p o o' : Nat} (h : o ≠ o') : wordAddr p o ≠ wordAddr p o' := by unfold wordAddr; omega

/-- Each 32-bit register takes its own bits: the others do not reach it. -/
theorem takeSlots_inUse {x : Reg × Nat} (d : Dev) (apart : (l.flatMap slotWords).Nodup) (hx : x ∈ l) (narrow : x.1.wide = false) :
    (l.foldl (takeSlot p g) d).regs.inUse (wordAddr p x.2) =
      word (mergeBits (d.regs.inUse (wordAddr p x.2)).toNat (d.regs.read (wordAddr p x.2)).toNat (groupMask g x.1)) := by
  have own : x.2 ∈ slotWords x := by simp [slotWords, narrow]
  induction l generalizing d with
  | nil => cases hx
  | cons y l ih =>
    rw [List.flatMap_cons, List.nodup_append] at apart
    obtain ⟨-, rest, disjoint⟩ := apart
    rw [List.foldl_cons]
    rcases List.mem_cons.mp hx with rfl | later
    · rw [(takeSlots_other _ fun o ho => wordAddr_ne (disjoint x.2 own o ho)).1, takeSlot_inUse d narrow]
    · obtain ⟨used, reads⟩ := takeSlot_other (g := g) (x := y) (a := wordAddr p x.2) d fun o ho =>
        wordAddr_ne (disjoint o ho x.2 (List.mem_flatMap.mpr ⟨x, later, own⟩)).symm
      rw [ih _ rest later, used, reads]

end

/-! ### The group -/

/-- The group of a page is no longer pending. -/
def unpended (d : Dev) (p g : Nat) : Dev :=
  { d with regs := { d.regs with pend := d.regs.pend.filter fun x => !(x.page == p && x.group == g) } }

theorem groupPending_unpended (d : Dev) (p g q h : Nat) :
    groupPending (unpended d p g) q h = (groupPending d q h && !decide (q = p ∧ h = g)) := by
  simp only [groupPending, unpended, List.any_filter]
  by_cases own : q = p ∧ h = g
  · obtain ⟨rfl, rfl⟩ := own
    rw [decide_eq_true ⟨rfl, rfl⟩, Bool.not_true, Bool.and_false]
    refine List.any_eq_false.mpr fun x _ => ?_
    rw [Bool.not_and_self]
    exact Bool.false_ne_true
  · rw [decide_eq_false own, Bool.not_false, Bool.and_true]
    congr 1
    funext x
    by_cases named : x.page = q ∧ x.group = h
    · obtain ⟨rfl, rfl⟩ := named
      simpa [← not_and_or] using own
    · have other : (x.page == q && x.group == h) = false := by simpa using named
      rw [other, Bool.and_false]

theorem takeGroup_slots {p : Nat} {k : PageKind} (d : Dev) (g : Nat) (hp : kindOf p = some k) :
    takeGroup d p g = unpended ((slots k).foldl (takeSlot p g) d) p g := by
  have row (d : Dev) (r : Reg) : ((List.range r.count).map fun j => (r, r.off + j * r.stride)).foldl (takeSlot p g) d =
      if groupMask g r = 0 then d else upto r.count (fun d j => groupFields p g d r (r.off + j * r.stride)) d := by
    rw [List.foldl_map]
    unfold takeSlot
    by_cases none : groupMask g r = 0
    · simp only [none, if_true]
      exact List.foldl_fixed _
    · simp only [none, if_false]
      rfl
  unfold takeGroup slots
  rw [hp, List.foldl_flatMap]
  simp only [row]
  rfl

/-- A group changes only registers. -/
theorem onlyRegs_takeGroup {p : Nat} {k : PageKind} (d : Dev) (g : Nat) (hp : kindOf p = some k) : OnlyRegs d (takeGroup d p g) := by
  rw [takeGroup_slots d g hp]
  exact (onlyRegs_takeSlots d).trans rfl

theorem groupPending_takeGroup {p : Nat} {k : PageKind} (d : Dev) (g q h : Nat) (hp : kindOf p = some k) :
    groupPending (takeGroup d p g) q h = (groupPending d q h && !decide (q = p ∧ h = g)) := by
  rw [takeGroup_slots d g hp, groupPending_unpended, groupPending_of_pend (takeSlots_pend d)]

/-- Another page's words stand. -/
theorem takeGroup_page {p a : Nat} {k : PageKind} (d : Dev) (g : Nat) (hp : kindOf p = some k) (other : a / 4096 ≠ p) :
    (takeGroup d p g).regs.inUse a = d.regs.inUse a ∧ (takeGroup d p g).regs.read a = d.regs.read a := by
  rw [takeGroup_slots d g hp]
  refine takeSlots_other d fun o ho here => other ?_
  obtain ⟨x, hx, hox⟩ := List.mem_flatMap.mp ho
  rw [here, wordAddr_page (slotWords_lt hx hox)]

/-- No word that reads changes, but where the group has a field that is taken once. -/
theorem takeGroup_read {p : Nat} {k : PageKind} (d : Dev) (g : Nat) (hp : kindOf p = some k) (kept : ∀ r ∈ k.regs, onceMask g r = 0) :
    (takeGroup d p g).regs.read = d.regs.read := by
  rw [takeGroup_slots d g hp]
  refine takeSlots_read d fun x hx => ?_
  obtain ⟨r, hr, hx⟩ := List.mem_flatMap.mp hx
  obtain ⟨j, -, rfl⟩ := List.mem_map.mp hx
  exact kept r hr

section
variable {p g : Nat} {k : PageKind} {r : Reg} {j : Nat}

/-- A 32-bit register takes the bits of the group as they read, and keeps the others. -/
theorem takeGroup_inUse (d : Dev) (hp : kindOf p = some k) (hr : r ∈ k.regs) (hj : j < r.count) (narrow : r.wide = false) :
    (takeGroup d p g).regs.inUse (wordAddr p (r.off + j * r.stride)) =
      word (mergeBits (d.regs.inUse (wordAddr p (r.off + j * r.stride))).toNat
        (d.regs.read (wordAddr p (r.off + j * r.stride))).toNat (groupMask g r)) := by
  rw [takeGroup_slots d g hp]
  exact takeSlots_inUse d (slotWords_nodup k) (mem_slots hr hj) narrow

/-- A field of the group takes its staged value. -/
theorem takeGroup_fld {lo w : Nat} (d : Dev) (hp : kindOf p = some k) (hr : r ∈ k.regs) (hj : j < r.count) (narrow : r.wide = false)
    (fits : lo + w ≤ 32) (covers : ∀ i, i < w → (groupMask g r).testBit (lo + i) = true) :
    (takeGroup d p g).fld p (r.off + j * r.stride) lo w = d.rfld p (r.off + j * r.stride) lo w := by
  rw [Dev.fld, takeGroup_inUse d hp hr hj narrow, bits_mergeBits fits covers, Dev.rfld]

/-- A register without a field of the group stays as it is in use. -/
theorem takeGroup_unnamed (d : Dev) (hp : kindOf p = some k) (hr : r ∈ k.regs) (hj : j < r.count) (narrow : r.wide = false)
    (none : groupMask g r = 0) :
    (takeGroup d p g).regs.inUse (wordAddr p (r.off + j * r.stride)) = d.regs.inUse (wordAddr p (r.off + j * r.stride)) := by
  rw [takeGroup_inUse d hp hr hj narrow, none, word_mergeBits_none]

end

end Sys2Proof.Proofs
end

section
/-! A pending group applies at its boundary (R44, R46, R49, R52). -/
namespace Sys2Proof.Proofs
open Sys2Proof.Machine Sys2Proof.Laws

/-! ### The command -/

theorem exactly_commitApply (s : State) (p : Fin 1024) (g : Fin 32) :
    AnswersExactly s (.commitApply p g) (commitApply s.now p.val g.val) :=
  exactly_of_onDev (f := fun d => commitApply d p.val g.val) rfl

theorem commitReady_now (s : State) (p g : Nat) : commitReady s.now p g = commitReady s.dev p g := rfl

theorem exactly_commitApply_ready {s : State} {p : Fin 1024} {g : Fin 32} (ready : commitReady s.dev p.val g.val = true) :
    AnswersExactly s (.commitApply p g) (applyGroup s.now p.val g.val) := by
  have sent := exactly_commitApply s p g
  rwa [Machine.commitApply, commitReady_now, if_pos ready] at sent

/-- Before its boundary a group leaves everything (R44). -/
theorem commitApply_early {s : State} {p : Fin 1024} {g : Fin 32} (early : commitReady s.dev p.val g.val = false) :
    AnswersButReports s (.commitApply p g) s.now := by
  have sent := exactly_commitApply s p g
  rw [Machine.commitApply, commitReady_now, if_neg (by rw [early]; decide)] at sent
  exact answersButReports_of_exactly sent (same_refl _)

/-- DEV_COMMIT_HOLD at 1 lets no group apply (R52). -/
theorem commitReady_held {d : Dev} (hold : d.flag pageDev 0x040 0 = true) (p g : Nat) : commitReady d p g = false := by
  have none (c : Nat) : holdAllows d c = false := by rw [holdAllows, hold]; rfl
  have unripe (c : Nat) : groupRipe d p c g = false := by rw [groupRipe, none, Bool.false_and]
  unfold commitReady
  split
  · rfl
  · next k _ =>
    dsimp only
    rw [none, unripe, Bool.false_and, Bool.false_and, Bool.and_false, Bool.and_false, ite_self]
    cases k.boundary <;> exact ite_self false

/-! ### Groups that set nothing else off -/

/-- A quiet group takes its fields and does no more. -/
theorem applyGroup_quiet {d : Dev} {p g : Nat} {k : PageKind} (hp : kindOf p = some k) (quiet : quietGroup k g = true) :
    applyGroup d p g = takeGroup d p g := by
  unfold applyGroup
  rw [hp]
  cases k <;> simp_all [quietGroup]

section
variable {s : State}

theorem exactly_quiet {p : Fin 1024} {g : Fin 32} {k : PageKind} (hp : kindOf p.val = some k) (quiet : quietGroup k g.val = true)
    (ready : commitReady s.dev p.val g.val = true) : AnswersExactly s (.commitApply p g) (takeGroup s.now p.val g.val) := by
  have sent := exactly_commitApply_ready ready
  rwa [applyGroup_quiet hp quiet] at sent

/-- A group of a page that has applied is no longer pending. -/
theorem groupPending_taken {p : Nat} {k : PageKind} (d : Dev) (g : Nat) (hp : kindOf p = some k) :
    groupPending (takeGroup d p g) p g = false := by
  rw [groupPending_takeGroup d g p g hp, decide_eq_true ⟨rfl, rfl⟩, Bool.not_true, Bool.and_false]

theorem commitApply_quiet {p : Fin 1024} {g : Fin 32} {k : PageKind} (hp : kindOf p.val = some k) (quiet : quietGroup k g.val = true)
    (ready : commitReady s.dev p.val g.val = true) :
    Answers s (.commitApply p g) fun t =>
      t.nv = s.nv ∧ groupPending t.dev p.val g.val = false ∧
      (∀ q h, ¬(q = p.val ∧ h = g.val) → groupPending t.dev q h = groupPending s.dev q h) ∧
      (∀ r j, r ∈ k.regs → j < r.count → r.wide = false →
        t.dev.regs.inUse (wordAddr p.val (r.off + j * r.stride)) =
          word (mergeBits (s.dev.regs.inUse (wordAddr p.val (r.off + j * r.stride))).toNat
            (s.dev.regs.read (wordAddr p.val (r.off + j * r.stride))).toNat
            (maskWhere r fun f => f.commitGroup == some g.val))) ∧
      (∀ a, a / 4096 ≠ p.val → t.dev.regs.inUse a = s.dev.regs.inUse a ∧ t.dev.regs.read a = s.dev.regs.read a) ∧
      SameButReports { s.now with regs := t.dev.regs } t.dev := by
  refine answers_of_exactly (exactly_quiet hp quiet ready) fun t nv dev => ?_
  rw [dev]
  refine ⟨nv, groupPending_taken s.now g.val hp, fun q h other => ?_, fun r j hr hj narrow => takeGroup_inUse s.now hp hr hj narrow,
    fun a other => takeGroup_page s.now g.val hp other, (onlyRegs_takeGroup s.now g.val hp).same⟩
  rw [groupPending_takeGroup s.now g.val q h hp, decide_eq_false other, Bool.not_false, Bool.and_true]
  rfl

/-! ### The scheduler and the map -/

theorem kindOf_pageSch : kindOf pageSch = some .sch := rfl
theorem kindOf_pageTmp : kindOf pageTmp = some .tmp := rfl

/-- TMP_READY01 to TMP_READY67, whole words of group 1. -/
def readyReg (j : Nat) : Reg := ⟨0x044 + 4 * j, 0, 1, [rw 0 16 (.commit 1) 1000 [], rw 16 16 (.commit 1) 1000 []]⟩

theorem readyReg_mem {j : Nat} (hj : j < 4) : readyReg j ∈ tmpRegs := by
  have all : ∀ i : Fin 4, readyReg i.val ∈ tmpRegs := by decide
  exact all ⟨j, hj⟩

theorem commitApply_limits (ready : commitReady s.dev pageSch 0 = true) :
    Answers s (.commitApply 0x00A 0) fun t =>
      t.nv = s.nv ∧ t.dev.fld pageSch 0x044 0 32 = s.dev.rfld pageSch 0x044 0 32 ∧
      t.dev.fld pageSch 0x050 0 3 = s.dev.rfld pageSch 0x050 0 3 ∧
      t.dev.fld pageSch 0x054 0 32 = s.dev.rfld pageSch 0x054 0 32 ∧
      t.dev.regs.inUse (wordAddr pageSch 0x048) = s.dev.regs.inUse (wordAddr pageSch 0x048) ∧
      (∀ a, reportWord a = false → t.dev.regs.read a = s.dev.regs.read a) ∧ groupPending t.dev pageSch 0 = false ∧
      SameButReports { s.now with regs := t.dev.regs } t.dev := by
  refine answers_of_exactly (exactly_quiet (p := 0x00A) (g := 0) kindOf_pageSch rfl ready) fun t nv dev => ?_
  replace dev : t.dev = takeGroup s.now pageSch 0 := dev
  rw [dev]
  have limit := takeGroup_fld (g := 0) (r := schRegs[1]) (j := 0) (lo := 0) (w := 32) s.now kindOf_pageSch
    (List.getElem_mem _) (by decide) (by decide) (by decide) (by decide)
  have patch := takeGroup_fld (g := 0) (r := schRegs[4]) (j := 0) (lo := 0) (w := 3) s.now kindOf_pageSch
    (List.getElem_mem _) (by decide) (by decide) (by decide) (by decide)
  have stall := takeGroup_fld (g := 0) (r := schRegs[5]) (j := 0) (lo := 0) (w := 32) s.now kindOf_pageSch
    (List.getElem_mem _) (by decide) (by decide) (by decide) (by decide)
  have plume := takeGroup_unnamed (g := 0) (r := schRegs[2]) (j := 0) s.now kindOf_pageSch
    (List.getElem_mem _) (by decide) (by decide) (by decide)
  have reads := takeGroup_read s.now 0 kindOf_pageSch (by decide)
  exact ⟨nv, limit, patch, stall, plume, fun a _ => congrFun reads a, groupPending_taken _ _ kindOf_pageSch,
    (onlyRegs_takeGroup _ _ kindOf_pageSch).same⟩

theorem commitApply_classes (ready : commitReady s.dev pageTmp 1 = true) :
    Answers s (.commitApply 0x00C 1) fun t =>
      t.nv = s.nv ∧ (∀ j, j < 4 → t.dev.regs.inUse (wordAddr pageTmp (0x044 + 4 * j)) =
        s.dev.regs.read (wordAddr pageTmp (0x044 + 4 * j))) ∧
      t.dev.fld pageTmp 0x040 0 24 = s.dev.fld pageTmp 0x040 0 24 ∧ groupPending t.dev pageTmp 1 = false ∧
      SameButReports { s.now with regs := t.dev.regs } t.dev := by
  refine answers_of_exactly (exactly_quiet (p := 0x00C) (g := 1) kindOf_pageTmp rfl ready) fun t nv dev => ?_
  replace dev : t.dev = takeGroup s.now pageTmp 1 := dev
  rw [dev]
  have classes (j : Nat) (hj : j < 4) := takeGroup_inUse (g := 1) (r := readyReg j) (j := 0) s.now kindOf_pageTmp
    (readyReg_mem hj) Nat.zero_lt_one rfl
  have decay := takeGroup_unnamed (g := 1) (r := tmpRegs[0]) (j := 0) s.now kindOf_pageTmp
    (List.getElem_mem _) (by decide) (by decide) (by decide)
  refine ⟨nv, fun j hj => (classes j hj).trans (word_mergeBits_whole _ _), ?_, groupPending_taken _ _ kindOf_pageTmp,
    (onlyRegs_takeGroup _ _ kindOf_pageTmp).same⟩
  exact congrArg (fun w : Word => bits w.toNat 0 24) decay

end

/-! ### The programs of an axis (R252) -/

theorem pageAxs_instOf {p : Fin 1024} (hp : kindOf p.val = some .axs) : pageAxs (instOf p.val) = p.val := by
  revert p
  decide +kernel

theorem pageStn_instOf {p : Fin 1024} (hp : kindOf p.val = some .stn) : pageStn (instOf p.val) = p.val := by
  revert p
  decide +kernel

/-- An axis after the exchange of its programs. -/
def exchangedAxis (x : Axis) : Axis :=
  let y := { x with active := x.staged, staged := x.active, used := [] }
  if y.active.keepState then y else { zeroStates y with zeroDue := true }

theorem exchangeProgram_eq (d : Dev) (j : Nat) : exchangeProgram d j =
    (setServo d j (exchangedAxis (axisOfServo d j))).setReg (pageAxs j) 0x060 ((axisOfServo d j).staged.word 1) := rfl

theorem exchangedAxis_programs (x : Axis) :
    (exchangedAxis x).active = x.staged ∧ (exchangedAxis x).staged = x.active ∧ (exchangedAxis x).iCmd = x.iCmd := by
  unfold exchangedAxis
  dsimp only
  split <;> exact ⟨rfl, rfl, rfl⟩

theorem exchangedAxis_kept {x : Axis} (keep : x.staged.keepState = true) :
    (exchangedAxis x).work = x.work ∧ (exchangedAxis x).acc = x.acc ∧ (exchangedAxis x).filt = x.filt := by
  unfold exchangedAxis
  rw [if_pos keep]
  exact ⟨rfl, rfl, rfl⟩

theorem exchangedAxis_zero {x : Axis} (fresh : x.staged.keepState = false) :
    (exchangedAxis x).work = [] ∧ (exchangedAxis x).acc = [] ∧ (exchangedAxis x).filt = [] := by
  unfold exchangedAxis
  rw [if_neg (by rw [fresh]; decide)]
  exact ⟨rfl, rfl, rfl⟩

theorem applyGroup_programs {d : Dev} {p : Nat} (hp : kindOf p = some .axs) :
    applyGroup d p 3 = exchangeProgram (takeGroup d p 3) (instOf p) := by
  unfold applyGroup
  rw [hp]
  rfl

section
variable {s : State} {p : Fin 1024}

theorem commitApply_programs (hp : kindOf p.val = some .axs) (ready : commitReady s.dev p.val 3 = true) :
    let j := instOf p.val
    let x := axisOfServo s.dev j
    Answers s (.commitApply p 3) fun t =>
      let y := axisOfServo t.dev j
      t.nv = s.nv ∧ groupPending t.dev p.val 3 = false ∧ y.active = x.staged ∧ y.staged = x.active ∧ y.iCmd = x.iCmd ∧
      (x.staged.keepState = true → y.work = x.work ∧ y.acc = x.acc ∧ y.filt = x.filt) ∧
      (x.staged.keepState = false → y.work = [] ∧ y.acc = [] ∧ y.filt = []) ∧
      t.dev.rfld p.val 0x060 0 32 = x.staged.word 1 ∧ (∀ k, k ≠ j → axisOfServo t.dev k = axisOfServo s.dev k) ∧
      SameButReports { s.now with regs := t.dev.regs, axes := t.dev.axes } t.dev := by
  intro j x
  have sent := exactly_commitApply_ready (g := 3) ready
  rw [show (3 : Fin 32).val = 3 from rfl, applyGroup_programs hp, exchangeProgram_eq, pageAxs_instOf hp] at sent
  have frame := onlyRegs_takeGroup s.now 3 hp
  have free := groupPending_taken s.now 3 hp
  generalize takeGroup s.now p.val 3 = e at *
  have axis (k : Nat) : axisOfServo e k = axisOfServo s.dev k := axisOfServo_of_axes (congrArg Dev.axes frame) k
  refine answers_of_exactly sent fun t nv dev => ?_
  have own : axisOfServo t.dev j = exchangedAxis x := by
    rw [dev, axisOfServo_of_axes (setReg_axes _ _ _ _), axisOfServo_setServo, axis]
  obtain ⟨active, staged, command⟩ := exchangedAxis_programs x
  dsimp only
  rw [own]
  refine ⟨nv, ?_, active, staged, command, exchangedAxis_kept, exchangedAxis_zero, ?_, fun k other => ?_, ?_⟩
  · rw [dev]
    exact (groupPending_of_pend (setReg_pend _ _ _ _) _ _).trans free
  · rw [dev, Dev.rfld, setReg_read, if_pos rfl, axis, bits_whole]
    exact toNat_word (BitVec.isLt _)
  · rw [dev, axisOfServo_of_axes (setReg_axes _ _ _ _), axisOfServo_other other, axis]
  · rw [dev, frame]
    exact same_refl _

end

/-! ### The banks of a station (R211) -/

/-- A pennant whose cause occurs is set (R36), whichever it is. -/
theorem pennant_raised (d : Dev) {p b cls sev code payload : Nat} (hb : b < 32) (hc : cls < 8) :
    (raise d p b cls sev code payload).pennant p b = true := by
  have field : (d.setFld p 0x010 b 1 1).pennant p b = true := by
    rw [Dev.pennant, setFld_read, if_pos rfl, setBits_one _ _ hb, bit, BitVec.toNat_or, Nat.testBit_or, testBit_word,
      Nat.testBit_two_pow_self, decide_eq_true hb, Bool.and_true, Bool.or_true]
  have set : (setPen d p b).pennant p b = true := by
    unfold setPen
    dsimp only
    split <;> exact field
  unfold raise
  dsimp only
  split
  · exact pennant_of_same (same_report _ _ _ _ _ _ hc) set
  · exact set

/-- A station after the exchange of its banks. -/
def exchangedStation (d : Dev) (n : Nat) : Station :=
  { stationOf d n with bank := !(stationOf d n).bank, remap := some (heldCounts d n) }

/-- The exchange of a station's banks before it is reported. -/
def exchanged (d : Dev) (n : Nat) : Dev :=
  exchangeRefs ((setStation d n (exchangedStation d n)).setReg (pageStn n) 0x04C (boolNat (!(stationOf d n).bank))) n

theorem exchangeBanks_eq (d : Dev) (n : Nat) : exchangeBanks d n =
    raise (exchanged d n) (pageStn n) 8 clsCal sevInfo 0x0538
      (pay n (boolNat (!(stationOf d n).bank)) 0 (fctHeader (exchanged d n) n (!(stationOf d n).bank) 4)) := rfl

theorem exchangeRefs_frame (d : Dev) (n : Nat) : exchangeRefs d n = { d with cal := (exchangeRefs d n).cal } := by
  unfold exchangeRefs
  dsimp only
  split <;> rfl

theorem exchanged_frame (d : Dev) (n : Nat) : exchanged d n =
    { (setStation d n (exchangedStation d n)).setReg (pageStn n) 0x04C (boolNat (!(stationOf d n).bank)) with
      cal := (exchanged d n).cal } := exchangeRefs_frame _ _

theorem exchanged_stations (d : Dev) (n : Nat) : (exchanged d n).stations = (setStation d n (exchangedStation d n)).stations := by
  rw [exchanged_frame]
  rfl
theorem exchanged_pend (d : Dev) (n : Nat) : (exchanged d n).regs.pend = d.regs.pend := by
  rw [exchanged_frame]
  rfl
theorem exchanged_fct (d : Dev) (n : Nat) : (exchanged d n).fct = d.fct := by
  rw [exchanged_frame]
  rfl

theorem applyGroup_banks {d : Dev} {p : Nat} (hp : kindOf p = some .stn) :
    applyGroup d p 3 = exchangeBanks (takeGroup d p 3) (instOf p) := by
  unfold applyGroup
  rw [hp]
  rfl

section
variable {s : State} {p : Fin 1024}

theorem commitApply_banks (hp : kindOf p.val = some .stn) (ready : commitReady s.dev p.val 3 = true) :
    let n := instOf p.val
    Answers s (.commitApply p 3) fun t =>
      t.nv = s.nv ∧ groupPending t.dev p.val 3 = false ∧ (stationOf t.dev n).bank = !(stationOf s.dev n).bank ∧
      (stationOf t.dev n).remap.isSome = true ∧ t.dev.pennant p.val 8 = true ∧ t.dev.fct = s.dev.fct ∧
      (∀ k, k ≠ n → stationOf t.dev k = stationOf s.dev k) ∧
      SameButReports { s.now with regs := t.dev.regs, stations := t.dev.stations, cal := t.dev.cal } t.dev := by
  intro n
  have sent := exactly_commitApply_ready (g := 3) ready
  rw [show (3 : Fin 32).val = 3 from rfl, applyGroup_banks hp] at sent
  have frame := onlyRegs_takeGroup s.now 3 hp
  have free := groupPending_taken s.now 3 hp
  generalize takeGroup s.now p.val 3 = e at *
  have station (k : Nat) : stationOf e k = stationOf s.dev k := stationOf_of_stations (congrArg Dev.stations frame) k
  refine answers_of_exactly sent fun t nv dev => ?_
  rw [exchangeBanks_eq] at dev
  have reported : SameButReports (exchanged e n) t.dev := by
    rw [dev]
    exact same_raise _ _ _ _ _ _ _ (by decide)
  have pennant : t.dev.pennant (pageStn n) 8 = true := by
    rw [dev]
    exact pennant_raised _ (by decide) (by decide)
  have stations : t.dev.stations = (setStation e n (exchangedStation e n)).stations :=
    reported.stations.trans (exchanged_stations e n)
  have own : stationOf t.dev n = exchangedStation e n := (stationOf_of_stations stations n).trans (stationOf_own _ _ _)
  have pend : t.dev.regs.pend = e.regs.pend := reported.regs.pend.trans (exchanged_pend e n)
  have tables : e.fct = s.dev.fct := by
    rw [frame]
    rfl
  refine ⟨nv, (groupPending_of_pend pend _ _).trans free, ?_, ?_, pageStn_instOf hp ▸ pennant,
    (reported.fct.trans (exchanged_fct e n)).trans tables, fun k other => ?_, ?_⟩
  · rw [own, ← station]
    rfl
  · rw [own]
    rfl
  · rw [stationOf_of_stations stations, stationOf_other other, station]
  · rw [exchanged_frame, frame] at reported
    exact { reported with regs := sameRegs_refl _, stations := rfl, cal := rfl }

end

end Sys2Proof.Proofs
end

section
/-! DEV_COMMIT_HOLD (R52), and with it O16. -/
namespace Sys2Proof.Proofs
open Sys2Proof.Machine Sys2Proof.Laws

/-- DEV_COMMIT_HOLD, with its one Live bit. -/
def holdReg : Reg := ⟨0x040, 0, 1, [rw 0 1 .live 0 []]⟩

theorem holdReg_found : PageKind.dev.reg? 0x040 = some holdReg := by decide

/-- No check refuses a write of DEV_COMMIT_HOLD. -/
theorem holdReg_passes (d : Dev) (v : Nat) : blockRefused d .dev pageDev 0x040 holdReg v = none := by
  have range : rangeRefused .dev (instOf pageDev) holdReg v = false := by simp [rangeRefused, holdReg, valuesOk, kindRangeOk, rw, Field.writable]
  have page : pageRefused d .dev pageDev 0x040 = none := by simp [pageRefused, PageKind.mirrored]
  have locked : lockedRefused d pageDev holdReg (regValue d pageDev holdReg 0x040) v = false := by simp [lockedRefused, holdReg, rw]
  have pending : pendingRefused d pageDev holdReg = false := by simp [pendingRefused, holdReg, rw, Field.commitGroup]
  unfold blockRefused
  rw [range, page, locked, pending]
  rfl

/-- Storing a write touches no more of the registers than the two copies of the words. -/
theorem stored_regs (d : Dev) (p off : Nat) (r : Reg) (v : Nat) : (stored d p off r v).regs =
    { d.regs with acc := (stored d p off r v).regs.acc, act := (stored d p off r v).regs.act } := by
  unfold stored
  dsimp only
  split <;> rfl

/-- The device with the word of DEV_COMMIT_HOLD stored. -/
def holdStored (d : Dev) (v : Nat) : Dev := stored d pageDev 0x040 holdReg v

/-- A 1 holds the boundary, and a 0 after a 1 records its cycle. -/
def holdTaken (d : Dev) (v : Nat) : Dev :=
  if bit v 0 then { holdStored d v with regs := { (holdStored d v).regs with boundaryHeld := true } }
  else if d.flag pageDev 0x040 0 then
    { holdStored d v with regs := { (holdStored d v).regs with released := (holdStored d v).cycle, everHeld := true } }
  else holdStored d v

theorem acceptWrite_hold (d : Dev) (v : Word) : acceptWrite d .dev pageDev 0x040 holdReg v.toNat = holdTaken d v.toNat := by
  have store : storeWrite d .dev pageDev 0x040 holdReg v.toNat = holdStored d v.toNat := storeWrite_plain rfl rfl rfl
  unfold holdTaken
  rw [← store]
  rfl

/-- What holding and releasing leave of the registers. -/
theorem holdTaken_regs (d : Dev) (v : Nat) :
    (holdTaken d v).regs.acc = (holdStored d v).regs.acc ∧ (holdTaken d v).regs.act = (holdStored d v).regs.act ∧
    (holdTaken d v).regs.pend = d.regs.pend ∧
    (bit v 0 = true ∨ d.flag pageDev 0x040 0 = false →
      (holdTaken d v).regs.released = d.regs.released ∧ (holdTaken d v).regs.everHeld = d.regs.everHeld) ∧
    (bit v 0 = false → d.flag pageDev 0x040 0 = true →
      (holdTaken d v).regs.released = d.cycle ∧ (holdTaken d v).regs.everHeld = true) := by
  have cycle : (holdStored d v).cycle = d.cycle := by rw [holdStored, onlyRegs_stored]; rfl
  have pend : (holdStored d v).regs.pend = d.regs.pend := by rw [holdStored, stored_regs]
  have released : (holdStored d v).regs.released = d.regs.released := by rw [holdStored, stored_regs]
  have ever : (holdStored d v).regs.everHeld = d.regs.everHeld := by rw [holdStored, stored_regs]
  unfold holdTaken
  cases bit v 0 <;> cases d.flag pageDev 0x040 0 <;> simp [cycle, pend, released, ever]

theorem holdTaken_read (d : Dev) (v a : Nat) : (holdTaken d v).regs.read a = (holdStored d v).regs.read a := by
  simp only [RegFile.read, (holdTaken_regs d v).1]

theorem holdTaken_inUse (d : Dev) (v a : Nat) : (holdTaken d v).regs.inUse a = (holdStored d v).regs.inUse a := by
  simp only [RegFile.inUse, (holdTaken_regs d v).2.1]

theorem onlyRegs_holdTaken (d : Dev) (v : Nat) : OnlyRegs d (holdTaken d v) := by
  have store : OnlyRegs d (holdStored d v) := onlyRegs_stored _ _ _ _ _
  unfold holdTaken
  dsimp only
  repeat' split
  · exact store.trans rfl
  · exact store.trans rfl
  · exact store

/-- A write while HOLD is 0 releases nothing. -/
theorem holdRelease_taken (d : Dev) (v : Nat) : holdRelease d (holdTaken d v) = holdTaken d v := by
  obtain ⟨-, -, -, stands, -⟩ := holdTaken_regs d v
  unfold holdRelease
  split
  · rfl
  · next free =>
    obtain ⟨released, ever⟩ := stands (.inr (Bool.eq_false_iff.mpr free))
    rw [← released, ← ever]

theorem takeWrite_hold (d : Dev) (v : Word) : takeWrite d .dev pageDev 0x040 0x040 holdReg v.toNat = holdTaken d v.toNat := by
  unfold takeWrite
  rw [if_neg (by decide), if_neg (by decide), if_neg (by simp), if_neg (by simp), if_neg (by decide), holdReg_passes]
  dsimp only
  rw [if_pos ⟨rfl, rfl⟩, acceptWrite_hold, holdRelease_taken]

/-! ### The clauses -/

section
variable {s : State} {u : Nat} {v : Word}

theorem exactly_devCommitHold (s : State) (u : Nat) (v : Word) :
    AnswersExactly s (.devCommitHold u v) (holdTaken (s.at u) v.toNat) := by
  have sent : AnswersExactly s (.devCommitHold u v) (Machine.registerWrite (s.at u) (wordAddr pageDev 0x040) 4 v.toNat) :=
    exactly_of_onDev (f := fun d => Machine.registerWrite (d.arrive u) 0x040 4 v.toNat) rfl
  rwa [registerWrite_word (k := .dev) rfl (by decide) (by decide) (by decide), if_neg (by decide), if_neg (by decide),
    wordWrite_narrow holdReg_found rfl, takeWrite_hold] at sent

theorem at_hold (s : State) (u : Nat) : (s.at u).flag pageDev 0x040 0 = s.dev.flag pageDev 0x040 0 := by
  rw [Dev.flag, at_inUse s u (reportWord_of_offset (by decide) (by decide)), Dev.flag]

theorem holdTaken_flag (d : Dev) (v : Word) : (holdTaken d v.toNat).flag pageDev 0x040 0 = v.getLsbD 0 := by
  rw [Dev.flag, holdTaken_inUse, holdStored, stored_inUse, if_pos rfl, if_pos (by decide)]
  exact bit_mergeBits (by decide) (by decide)

theorem holdTaken_rfld (d : Dev) (v : Word) : (holdTaken d v.toNat).rfld pageDev 0x040 0 1 = bits v.toNat 0 1 := by
  rw [Dev.rfld, holdTaken_read, holdStored, stored_read, if_pos rfl]
  exact bits_mergeBits (by decide) (by decide)

/-- While HOLD is 1 no group applies (R52). -/
theorem holdAllows_held {d : Dev} (h : d.flag pageDev 0x040 0 = true) (c : Nat) : holdAllows d c = false := by
  rw [holdAllows, h]
  rfl

/-- A write of DEV_COMMIT_HOLD, whatever its value. -/
theorem devCommitHold_written :
    Answers s (.devCommitHold u v) fun t =>
      t.nv = s.nv ∧ t.dev.flag pageDev 0x040 0 = v.getLsbD 0 ∧ t.dev.rfld pageDev 0x040 0 1 = bits v.toNat 0 1 ∧
      t.dev.regs.pend = s.dev.regs.pend ∧ (v.getLsbD 0 = true → ∀ c, holdAllows t.dev c = false) ∧
      (v.getLsbD 0 = false → s.dev.flag pageDev 0x040 0 = false → ∀ c, holdAllows t.dev c = holdAllows s.dev c) ∧
      (v.getLsbD 0 = false → s.dev.flag pageDev 0x040 0 = true → ∀ c, holdAllows t.dev c = decide (s.dev.cycle + 3 ≤ c)) ∧
      (∀ a, a ≠ wordAddr pageDev 0x040 → reportWord a = false →
        t.dev.regs.read a = s.dev.regs.read a ∧ t.dev.regs.inUse a = s.dev.regs.inUse a) ∧
      SameButReports { s.at u with regs := t.dev.regs } t.dev := by
  refine answers_of_exactly (exactly_devCommitHold s u v) fun t nv dev => ?_
  obtain ⟨-, -, pend, stands, records⟩ := holdTaken_regs (s.at u) v.toNat
  have flag := holdTaken_flag (s.at u) v
  rw [at_hold] at stands records
  rw [dev]
  refine ⟨nv, flag, holdTaken_rfld _ _, pend.trans (at_regs s u).pend, fun one c => holdAllows_held (flag.trans one) c,
    fun zero free c => ?_, fun zero held c => ?_, fun a other report => ?_, (onlyRegs_holdTaken _ _).same⟩
  · obtain ⟨released, ever⟩ := stands (.inr free)
    rw [holdAllows, holdAllows, flag, zero, free, released, ever, (at_regs s u).released, (at_regs s u).everHeld]
  · obtain ⟨released, ever⟩ := records zero held
    rw [holdAllows, flag, zero, released, ever, at_cycle]
    rfl
  · rw [holdTaken_read, holdTaken_inUse, holdStored, stored_read, stored_inUse, if_neg other, if_neg other]
    exact ⟨at_read s u report, at_inUse s u report⟩

end

/-- Settles O16: a ready group by what its page does with it, one that is not ready or held, and the hold itself. -/
theorem commitApply : Obligations.CommitApply := by
  unfold Obligations.CommitApply
  refine ⟨⟨fun s => commitApply_limits, fun s => commitApply_classes, fun s p g k hp quiet ready => commitApply_quiet hp quiet ready,
    fun s p hp ready => commitApply_programs hp ready, fun s p hp ready => commitApply_banks hp ready, fun s p g => commitApply_early⟩,
    fun s u r hr => ?_, fun s p g hold => commitApply_early (commitReady_held hold _ _)⟩
  obtain rfl : holdReg = r := Option.some.inj (holdReg_found.symm.trans hr)
  refine ⟨fun v _ => ?_, fun v => holdReg_passes _ _, fun _ => ?_, fun _ held => ?_⟩
  · refine answers_mono devCommitHold_written fun t ⟨nv, flag, reads, pend, holds, stands, _, others, same⟩ => ?_
    exact ⟨nv, flag, reads, pend, holds, stands, others, same⟩
  · refine answers_mono devCommitHold_written fun t ⟨nv, flag, _, pend, holds, _, _, _, same⟩ => ?_
    exact ⟨nv, flag, holds rfl _, pend, same⟩
  · refine answers_mono devCommitHold_written fun t ⟨nv, flag, _, pend, _, _, records, _, same⟩ => ?_
    exact ⟨nv, flag, pend, records rfl held, same⟩

end Sys2Proof.Proofs
end

section
/-! Entries of the heat and line-data rings: taking one, sending it on, leaving it at the ring's head (R90, R93, R567, R576). -/
namespace Sys2Proof.Proofs
open Sys2Proof.Machine Sys2Proof.Laws

/-! ### What arriving leaves of the heats and the pair -/

section
variable (s : State) (u : Nat)

theorem at_heats : (s.at u).heats = s.dev.heats := arrive_heats s.now u
theorem at_par : (s.at u).par = s.dev.par := arrive_par s.now u
theorem at_out : (s.at u).out = [] := arrive_out s.now u

end

/-! ### Functions of the heats alone -/

section
variable {d e : Dev} (h : e.heats = d.heats)
include h

theorem subOf_of_heats (r : Nat) : subOf e r = subOf d r := by simp only [subOf, h]
theorem nextHeat_of_heats : nextHeat e = nextHeat d := by simp only [nextHeat, h]
theorem openWaits_of_heats (n : BitVec 32) : openWaits e n = openWaits d n := by
  simp only [openWaits, nextHeat_of_heats h, h]
theorem slotHeat_of_heats (n : Nat) : slotHeat e n = slotHeat d n := by simp only [slotHeat, h]
theorem openedBy_of_heats (r : Nat) (x : Entry) : openedBy e r x = openedBy d r x := by
  simp only [openedBy, freeSlot, slotHeat_of_heats h]
theorem findHeat_of_heats (n : BitVec 32) : findHeat e n = findHeat d n := by simp only [findHeat, findHeat.other, h]
theorem heatPast_of_heats (n : BitVec 32) : heatPast e n = heatPast d n := by
  simp only [heatPast, findHeat_of_heats h, h]

end

theorem pairHolder_of_par {d e : Dev} (h : e.par = d.par) : e.pairHolder = d.pairHolder := by
  simp only [Dev.pairHolder, Dev.holds, h]

@[simp] theorem subOf_setSub_same (d : Dev) (r : Nat) (x : Submission) : subOf (setSub d r x) r = x := get_set_same _ _ _ _
theorem subOf_setSub_other (d : Dev) {r k : Nat} (x : Submission) (h : k ≠ r) : subOf (setSub d r x) k = subOf d k :=
  get_set_other _ _ _ h

/-! ### Heats and rings beside reports -/

theorem same_heats {d e : Dev} (h : SameButReports d e) (x : Heats) :
    SameButReports { d with heats := x } { e with heats := x } := { h with heats := rfl }

theorem same_setSub {d e : Dev} (h : SameButReports d e) (r : Nat) (x : Submission) :
    SameButReports (setSub d r x) (setSub e r x) := by
  unfold setSub
  rw [h.heats]
  exact same_heats h _

theorem ringOf_setRing (d : Dev) (r k : Nat) (x : Ring) : ringOf (setRing d r x) k = if k = r then x else ringOf d k :=
  get_set _ _ _ _ _

/-- A ring's queue and sequence number are reports. -/
theorem same_setRing_queue (d : Dev) (r : Nat) {x y : Ring} (h : y = { x with queue := y.queue, seq := y.seq }) :
    SameButReports (setRing d r x) (setRing d r y) := by
  have field {α : Type} (f : Ring → α) (hf : f y = f x) (k : Nat) : f (ringOf (setRing d r y) k) = f (ringOf (setRing d r x) k) := by
    rw [ringOf_setRing, ringOf_setRing]
    split
    · exact hf
    · rfl
  exact { same_refl (setRing d r x) with
    ringFault := field Ring.fault (congrArg Ring.fault h :)
    ringParked := field Ring.parked (congrArg Ring.parked h :)
    ringUnsignalled := field Ring.unsignalled (congrArg Ring.unsignalled h :)
    ringOldest := field Ring.oldest (congrArg Ring.oldest h :)
    ringIdle := field Ring.idle (congrArg Ring.idle h :)
    ringBegun := field Ring.begun (congrArg Ring.begun h :)
    ringAt0 := field Ring.at0 (congrArg Ring.at0 h :)
    ringStale := field Ring.stale (congrArg Ring.stale h :) }

theorem at_ringCons (s : State) (u r : Nat) : ringCons (s.at u) r = ringCons s.dev r := by
  simp only [ringCons, Dev.rfld, at_read s u (reportWord_of_offset (p := pageRng r) (off := 0x050) (by decide) (by decide))]

theorem at_ringBegun (s : State) (u r : Nat) : (ringOf (s.at u) r).begun = (ringOf s.dev r).begun :=
  (same_arrive s.now u).ringBegun r

/-- An entry that waits for its turn is all that the ring keeps of it. -/
theorem same_park (s : State) (u r : Nat) (i : Instr) (b : Bool) :
    SameButReports (setRing (s.at u) r { ringOf s.dev r with parked := some i, begun := b, at0 := ringCons s.dev r, stale := false })
      (park (s.at u) r i b) := by
  have reported := same_arrive s.now u
  have fault : (ringOf (s.at u) r).fault = (ringOf s.dev r).fault := reported.ringFault r
  have idle : (ringOf (s.at u) r).idle = (ringOf s.dev r).idle := reported.ringIdle r
  have unsignalled : (ringOf (s.at u) r).unsignalled = (ringOf s.dev r).unsignalled := reported.ringUnsignalled r
  have oldest : (ringOf (s.at u) r).oldest = (ringOf s.dev r).oldest := reported.ringOldest r
  unfold park
  refine same_setRing_queue _ _ ?_
  dsimp only
  rw [at_ringCons, fault, idle, unsignalled, oldest]

/-! ### Taking an entry and sending it on -/

section
variable (d : Dev) (r : Nat)

theorem consumed_keeps_heats : (consumed d r).heats = d.heats := (congrArg Dev.heats (consumed_frame d r).1 :)
theorem consumed_par : (consumed d r).par = d.par := (congrArg Dev.par (consumed_frame d r).1 :)
theorem consumed_out : (consumed d r).out = d.out := (congrArg Dev.out (consumed_frame d r).1 :)

end

theorem consumed_heats (d : Dev) (r : Nat) (x : Heats) : consumed { d with heats := x } r = { consumed d r with heats := x } := by
  have ring : ringOf { d with heats := x } r = ringOf d r := rfl
  unfold consumed
  dsimp only
  rw [ring]
  split <;> rfl

theorem forwardEntry_out (d : Dev) (ring index : Nat) (e : Entry) (rd : HostRead) :
    forwardEntry d ring index e rd = { d with out := (forwardEntry d ring index e rd).out } := by
  unfold forwardEntry
  split
  · split
    · exact sendCopy_out _ _ _ _ _
    · exact sendHalyard_out _ _ _
  · rfl

theorem forwardEntry_alone {d : Dev} (alone : d.forwards = false) (ring index : Nat) (e : Entry) (rd : HostRead) :
    forwardEntry d ring index e rd = d := by
  rw [forwardEntry, alone]
  rfl

/-- The index of the entry at hand (R106). -/
def entryIndex (d : Dev) (r : Nat) : Nat := bits (entryPos d r) 0 16

/-- The device that has consumed the entry at the head of ring `r` and sent it on (R93). -/
def taken (d : Dev) (r : Nat) (e : Entry) (rd : HostRead) : Dev := forwardEntry (consumed d r) r (entryIndex d r) e rd

section
variable (d : Dev) (r : Nat) (e : Entry) (rd : HostRead)

theorem taken_out : taken d r e rd = { consumed d r with out := (taken d r e rd).out } := forwardEntry_out _ _ _ _ _

theorem taken_heats : (taken d r e rd).heats = d.heats :=
  (congrArg Dev.heats (taken_out d r e rd) :).trans (consumed_keeps_heats d r)

theorem taken_par : (taken d r e rd).par = d.par := (congrArg Dev.par (taken_out d r e rd) :).trans (consumed_par d r)

theorem taken_alone (alone : d.forwards = false) : (taken d r e rd).out = d.out := by
  rw [taken, forwardEntry_alone ((forwards_of_par (consumed_par d r)).trans alone), consumed_out]

end

/-- A device that is the one which has taken the entry but for its heats, and reports. -/
theorem same_taken {d x t : Dev} {r : Nat} {e : Entry} {rd : HostRead} (only : x = { taken d r e rd with heats := x.heats })
    (same : SameButReports x t) : SameButReports { consumed { d with heats := t.heats } r with out := t.out } t := by
  have out : t.out = (taken d r e rd).out := same.out.trans (congrArg Dev.out only :)
  rw [only, taken_out] at same
  rw [consumed_heats, out, same.heats]
  exact same

/-- A ready entry that need not wait is taken. -/
theorem takeEntry_taken {d : Dev} {r : Nat} {e : Entry} (rd : HostRead) (f : Dev → Nat → Dev) (ready : entryReady d r e = true) :
    takeEntry d r e (fun d i => f (forwardEntry d r i e rd) i) = f (taken d r e rd) (entryIndex d r) :=
  takeEntry_ready _ ready

theorem at_taken_out {s : State} (alone : s.dev.forwards = false) (u r : Nat) (e : Entry) (rd : HostRead) :
    (taken (s.at u) r e rd).out = [] :=
  (taken_alone _ _ _ _ ((forwards_of_par (at_par s u)).trans alone)).trans (at_out s u)

/-- What a command leaves that has taken its entry leaves the rest to a device that follows. -/
theorem leaves_taken {s t : State} {u r : Nat} {e : Entry} {rd : HostRead} {x : Dev} (nv : t.nv = s.nv)
    (only : x = { taken (s.at u) r e rd with heats := x.heats }) (same : SameButReports x t.dev) :
    LeavesForwarding s (consumed { s.at u with heats := t.dev.heats } r) t := by
  refine ⟨nv, same_taken only same, fun alone => ?_⟩
  rw [same.out, only]
  exact at_taken_out alone u r e rd

end Sys2Proof.Proofs
end

section
/-! What an entry of a heat submission ring does to the heats (R86 to R95), and the command that reads it. -/
namespace Sys2Proof.Proofs
open Sys2Proof.Machine Sys2Proof.Laws

/-! ### The command -/

/-- The command `i` reads the entry `e` of submission ring `r` on the device `d`. -/
def Submits (s : State) (d : Dev) (r : Nat) (e : Entry) (rd : HostRead) (i : Instr) : Prop :=
  ∃ self, AnswersExactly s i (submissionCommand d r e rd self)

section
variable (s : State) (u : Nat) (r : Fin 4) (e : Entry) (rd : HostRead)

theorem submits_heatOpen : Submits s (s.at u) r.val e .failed (.heatOpen u r e) :=
  ⟨_, exactly_of_onDev (f := fun d => submissionCommand (d.arrive u) r.val e .failed (.heatOpen 0 r e)) rfl⟩
theorem submits_islands : Submits s (s.at u) r.val e rd (.islands u r e rd) :=
  ⟨_, exactly_of_onDev (f := fun d => submissionCommand (d.arrive u) r.val e rd (.islands 0 r e rd)) rfl⟩
theorem submits_pours : Submits s (s.at u) r.val e rd (.pours u r e rd) :=
  ⟨_, exactly_of_onDev (f := fun d => submissionCommand (d.arrive u) r.val e rd (.pours 0 r e rd)) rfl⟩
theorem submits_recoat : Submits s (s.at u) r.val e rd (.recoat u r e rd) :=
  ⟨_, exactly_of_onDev (f := fun d => submissionCommand (d.arrive u) r.val e rd (.recoat 0 r e rd)) rfl⟩
theorem submits_pass : Submits s (s.at u) r.val e .failed (.pass u r e) :=
  ⟨_, exactly_of_onDev (f := fun d => submissionCommand (d.arrive u) r.val e .failed (.pass 0 r e)) rfl⟩
theorem submits_heatClose : Submits s (s.at u) r.val e .failed (.heatClose u r e) :=
  ⟨_, exactly_of_onDev (f := fun d => submissionCommand (d.arrive u) r.val e .failed (.heatClose 0 r e)) rfl⟩
theorem submits_heatCancel : Submits s (s.at u) r.val e .failed (.heatCancel u r e) :=
  ⟨_, exactly_of_onDev (f := fun d => submissionCommand (d.arrive u) r.val e .failed (.heatCancel 0 r e)) rfl⟩

end

/-- Only a HEAT_OPEN waits for its turn (R90). -/
theorem submissionWaits_other {d : Dev} {r : Nat} {e : Entry} (type : enType e ≠ 1) : submissionWaits d r e = false := by
  simp [submissionWaits, type]

theorem submissionWaits_open {d : Dev} {r : Nat} {e : Entry} (type : enType e = 1) (mode : (subOf d r).mode = 0) :
    submissionWaits d r e = openWaits d (BitVec.ofNat 32 (enHeat e)) := by
  simp [submissionWaits, type, mode]

/-- What a command does with a ready entry that need not wait. -/
def entryActs (d : Dev) (r : Nat) (e : Entry) (rd : HostRead) : Dev := submissionEntry (taken d r e rd) r (entryIndex d r) e rd

theorem submissionCommand_acts {d : Dev} {r : Nat} {e : Entry} {rd : HostRead} (self : Instr) (ready : entryReady d r e = true)
    (mode : (subOf d r).mode ≠ 4) (turn : submissionWaits d r e = false) (read : rd ≠ .waiting) :
    submissionCommand d r e rd self = entryActs d r e rd := by
  obtain ⟨can, -⟩ := entryReady_canRead ready
  have come : (rd == .waiting) = false := beq_eq_false_iff_ne.mpr read
  have open4 : ((subOf d r).mode != 4) = true := bne_iff_ne.mpr mode
  unfold submissionCommand
  rw [can, open4, turn, come, Bool.and_false, if_pos (by decide), if_neg (by decide)]
  exact takeEntry_taken rd (fun d i => submissionEntry d r i e rd) ready

theorem exactly_acts {s : State} {d : Dev} {r : Nat} {e : Entry} {rd : HostRead} {i : Instr} (submits : Submits s d r e rd i)
    (ready : entryReady d r e = true) (mode : (subOf d r).mode ≠ 4) (turn : submissionWaits d r e = false) (read : rd ≠ .waiting) :
    AnswersExactly s i (entryActs d r e rd) := by
  obtain ⟨self, exact⟩ := submits
  rwa [submissionCommand_acts self ready mode turn read] at exact

/-! ### The entry (R85 to R95) -/

section
variable {d : Dev} {r : Nat} {e : Entry} {rd : HostRead}

theorem acts_idle (mode : (subOf d r).mode = 0) (type : enType e = 1) :
    entryActs d r e rd = openHeat (taken d r e rd) r (entryIndex d r) e := by
  unfold entryActs submissionEntry
  dsimp only
  rw [subOf_of_heats (taken_heats d r e rd), mode, if_neg (by decide), if_pos rfl, if_pos type]

theorem acts_discarding (mode : (subOf d r).mode = 2 ∨ (subOf d r).mode = 3) :
    entryActs d r e rd = discardEntry (taken d r e rd) r (entryIndex d r) e := by
  unfold entryActs submissionEntry
  rw [subOf_of_heats (taken_heats d r e rd)]
  exact if_pos mode

section
variable {h : Heat} (mode : (subOf d r).mode = 1) (own : d.heats.opening = some h)
include mode own

/-- An entry of another heat, or with a reserved value, is none of the open heat's (R85, R87). -/
theorem acts_foreign (foreign : enHeat e ≠ h.number.toNat ∨ entryShape e = false) (cancels : enType e = 7 → enHeat e = h.number.toNat) :
    entryActs d r e rd = rejectHeat (taken d r e rd) r (entryIndex d r) e stFormat 0 0 := by
  unfold entryActs submissionEntry
  dsimp only
  rw [subOf_of_heats (taken_heats d r e rd), taken_heats, mode, own]
  dsimp only
  rw [if_neg (by decide), if_neg (by decide), if_neg fun x => x.2 (cancels x.1), if_pos foreign]

end

/-- An entry of the open heat, by its type. -/
theorem acts_entryFor {h : Heat} {ty : Nat} (own : entryFor d r ty e h) :
    entryActs d r e rd =
      let x := taken d r e rd
      let i := entryIndex d r
      if ty = 2 then islandsEntry x r i e h rd
      else if ty = 3 then poursEntry x r i e h rd
      else if ty = 4 then recoatEntry x r i e h rd
      else if ty = 5 then passEntry x r i e h
      else if ty = 6 then closeEntry x r i e h
      else if ty = 7 then cancelEntry x r i e
      else rejectHeat x r i e stFormat 0 0 := by
  obtain ⟨-, mode, opening, type, number, shape⟩ := own
  unfold entryActs submissionEntry
  dsimp only
  rw [subOf_of_heats (taken_heats d r e rd), taken_heats, mode, opening]
  dsimp only
  rw [if_neg (by decide), if_neg (by decide), if_neg fun x => x.2 number, if_neg (by rw [number, shape]; simp), type]

end

/-! ### What entries leave of the heats -/

/-- No heat is under construction on ring `r`, which is as `x` says. -/
def heatGone (d : Dev) (r : Nat) (x : Submission) : Dev := setSub { d with heats := { d.heats with opening := none } } r x

/-- The heat that `e` opens is the one under construction (R89). -/
def heatOpened (d : Dev) (r : Nat) (e : Entry) : Dev :=
  setSub { d with heats := { d.heats with
      opening := some (openedBy d r e), first := d.heats.first.or (some (BitVec.ofNat 32 (enHeat e))) } } r
    { mode := 1, number := BitVec.ofNat 32 (enHeat e) }

/-- The heat `h` is staged behind those staged, and the last accepted (R93). -/
def heatStaged (d : Dev) (r : Nat) (h : Heat) : Dev :=
  setSub { d with heats := { d.heats with opening := none, staged := d.heats.staged ++ [h], accepted := some h.number } } r {}

section
variable {d : Dev} {r : Nat} (small : r < 16) (index : Nat) {e : Entry}
include small

/-- A HEAT_OPEN of the next heat, with no reserved value and at most eight passes, opens it (R86, R89). -/
theorem same_openHeat (free : d.heats.opening = none) (next : ∀ m, nextHeat d = some m → BitVec.ofNat 32 (enHeat e) = m)
    (shape : entryShape e = true) (reserved : byteField e 13 3 = 0) (rest : byteField e 16 12 = 0) (passes : byteField e 12 1 ≤ 8) :
    SameButReports (heatOpened d r e) (openHeat d r index e) := by
  have opened (x : Dev) : SameButReports (setSub x r { mode := 1, number := BitVec.ofNat 32 (enHeat e) })
      (setSub (entryDone x r index stOk 0 (enHeat e) 0 0) r { mode := 1, number := BitVec.ofNat 32 (enHeat e) }) :=
    same_setSub (same_entryDone _ _ _ _ _ _ _ _ small) _ _
  unfold openHeat
  dsimp only
  rw [free, shape, reserved, rest, if_neg (show ¬ 8 < byteField e 12 1 by omega)]
  cases named : nextHeat d with
  | none => exact opened _
  | some m =>
    rw [if_neg (by simp [next m named])]
    exact opened _

theorem same_heatClosed (h : Heat) : SameButReports (heatStaged d r h) (heatClosed d r index h) :=
  same_setSub (same_entryDone _ _ _ _ _ _ _ _ small) _ _

/-- A rejected heat of the ring is gone (R94); the entry that closes it ends the discarding. -/
theorem same_rejectHeat {h : Heat} (own : d.heats.opening = some h) (ring : h.ring = r) (status code detail : Nat) :
    SameButReports (heatGone d r (if enType e = 6 then {} else { mode := 2, number := h.number })) (rejectHeat d r index e status code detail) := by
  have mine : openOn d r = some h := by simp [openOn, own, ring]
  have done := same_entryDone d r index status code (enHeat e) detail 0 small
  have gone : SameButReports { d with heats := { d.heats with opening := none } }
      { entryDone d r index status code (enHeat e) detail 0 with
        heats := { (entryDone d r index status code (enHeat e) detail 0).heats with opening := none } } := by
    rw [done.heats]
    exact same_heats done _
  unfold rejectHeat heatGone
  dsimp only
  rw [mine, if_pos (show (some h).isSome = true from rfl)]
  split
  · exact same_setSub (same_trans gone (same_heatDone _ _ _ _ _ _ _ _ _ _ small)) _ _
  · exact same_setSub gone _ _

theorem same_cancelEntry (reserved : byteField e 8 20 = 0) :
    SameButReports (heatGone d r { mode := 3, number := BitVec.ofNat 32 (enHeat e) }) (cancelEntry d r index e) := by
  unfold cancelEntry
  rw [if_neg (not_not_intro reserved)]
  exact same_setSub (same_entryDone _ _ _ _ _ _ _ _ small) _ _

/-- An entry of a heat that is being discarded is only reported (R94, R95). -/
theorem same_discardEntry (opens : enType e ≠ 1) (closes : enType e ≠ 6) : SameButReports d (discardEntry d r index e) := by
  unfold discardEntry
  dsimp only
  rw [if_neg opens, if_neg closes]
  exact same_entryDone _ _ _ _ _ _ _ _ small

theorem same_discardEntry_close (closes : enType e = 6) : SameButReports (setSub d r {}) (discardEntry d r index e) := by
  unfold discardEntry
  dsimp only
  rw [if_neg (by rw [closes]; decide), if_pos closes]
  exact same_setSub (same_trans (same_entryDone _ _ _ _ _ _ _ _ small) (same_heatDone _ _ _ _ _ _ _ _ _ _ small)) _ _

/-- A HEAT_CLOSE of a heat that passes every check stages it, or waits for the standby (R93). -/
theorem same_closeEntry {h : Heat} (reserved : byteField e 20 8 = 0)
    (passes : closeFault h (byteField e 8 4) (byteField e 12 4) (byteField e 16 4) = none) :
    SameButReports (if d.pairHolder then setSub d r { mode := 4, number := h.number, closeIndex := index } else heatStaged d r h)
      (closeEntry d r index e h) := by
  unfold closeEntry
  rw [if_neg (not_not_intro reserved), passes]
  dsimp only
  split
  · exact same_refl _
  · exact same_heatClosed small index h

end

/-! ### The answer of an entry -/

/-- An entry of which all but reports is said by `x` leaves the heats of `x`, and consumes itself. -/
theorem answers_entry {s : State} {u r : Nat} {e : Entry} {rd : HostRead} {i : Instr} {x : Dev}
    (exact : AnswersExactly s i (entryActs (s.at u) r e rd)) (only : x = { taken (s.at u) r e rd with heats := x.heats })
    (same : SameButReports x (entryActs (s.at u) r e rd)) :
    Answers s i fun t => t.nv = s.nv ∧ t.dev.heats = x.heats ∧
      LeavesForwarding s (consumed { s.at u with heats := t.dev.heats } r) t :=
  answers_of_exactly exact fun _ nv dev => by
    rw [← dev] at same
    exact ⟨nv, same.heats, leaves_taken nv only same⟩

end Sys2Proof.Proofs
end

section
/-! HEAT_OPEN and the ring that resumes with it (R86, R89, R90): O25. -/
namespace Sys2Proof.Proofs
open Sys2Proof.Machine Sys2Proof.Laws

/-! ### The waiting HEAT_OPEN -/

/-- A HEAT_OPEN that R90 holds back stays at the head of its ring. -/
theorem submissionCommand_waits {d : Dev} {r : Nat} {e : Entry} {rd : HostRead} {self : Instr} (ready : entryReady d r e = true)
    (mode : (subOf d r).mode ≠ 4) (waits : submissionWaits d r e = true) : submissionCommand d r e rd self = park d r self false := by
  obtain ⟨can, phase⟩ := entryReady_canRead ready
  have open4 : ((subOf d r).mode != 4) = true := bne_iff_ne.mpr mode
  unfold submissionCommand
  rw [can, open4, waits, if_pos (by decide), if_pos (by simp), if_pos phase]
  rfl

/-- The ring resumes when its HEAT_OPEN may be read, and not before (R90). -/
theorem ringResume_heatOpen {d : Dev} {r v : Nat} {k : Fin 4} {e : Entry} (parked : (ringOf d r).parked = some (.heatOpen v k e))
    (type : enType e = 1) (mode : (subOf d r).mode = 0) :
    (openWaits d (BitVec.ofNat 32 (enHeat e)) = true → ringResume d r = d) ∧
    (openWaits d (BitVec.ofNat 32 (enHeat e)) = false → (∀ m, nextHeat d = some m → BitVec.ofNat 32 (enHeat e) = m) →
      ringResume d r = submissionCommand (unpark d r) r e .failed (.heatOpen 0 0 e)) := by
  unfold ringResume
  rw [parked]
  dsimp only
  rw [submissionWaits_open type mode]
  refine ⟨fun waits => by rw [waits, Bool.true_or, if_pos rfl], fun turn next => ?_⟩
  have ahead : openAhead d (BitVec.ofNat 32 (enHeat e)) = false := by
    unfold openAhead
    split
    · next m named => simp [next m named]
    · rfl
  rw [turn, ahead, if_neg (by decide)]

/-! ### The heat opened -/

/-- A ready HEAT_OPEN whose turn has come, of the heat that is next and with no reserved value (R86, R89). -/
def opensHeat (d : Dev) (r : Nat) (e : Entry) : Prop :=
  enType e = 1 ∧ (subOf d r).mode = 0 ∧ openWaits d (BitVec.ofNat 32 (enHeat e)) = false ∧ d.heats.opening = none ∧
    (∀ m, nextHeat d = some m → BitVec.ofNat 32 (enHeat e) = m) ∧ entryShape e = true ∧ byteField e 13 3 = 0 ∧
    byteField e 16 12 = 0 ∧ byteField e 12 1 ≤ 8

theorem opensHeat_of_heats {d x : Dev} (h : x.heats = d.heats) {r : Nat} {e : Entry} (opens : opensHeat d r e) : opensHeat x r e := by
  unfold opensHeat at *
  rwa [subOf_of_heats h, openWaits_of_heats h, nextHeat_of_heats h, h]

theorem heatOpened_of_heats {d x : Dev} (h : x.heats = d.heats) (r : Nat) (e : Entry) :
    (heatOpened x r e).heats = (heatOpened d r e).heats := by
  simp only [heatOpened, setSub, openedBy_of_heats h, h]

section
variable {s : State} {d : Dev} {r : Nat} {e : Entry} (opens : opensHeat d r e)
include opens

theorem submits_opens {rd : HostRead} {i : Instr} (ready : entryReady d r e = true) (submits : Submits s d r e rd i)
    (read : rd ≠ .waiting) : AnswersExactly s i (entryActs d r e rd) := by
  obtain ⟨type, mode, turn, -⟩ := opens
  exact exactly_acts submits ready (by rw [mode]; decide) ((submissionWaits_open type mode).trans turn) read

theorem same_opens (small : r < 4) (rd : HostRead) : SameButReports (heatOpened (taken d r e rd) r e) (entryActs d r e rd) := by
  obtain ⟨type, mode, -, free, next, shape, reserved, rest, passes⟩ := opens
  have heats := taken_heats d r e rd
  rw [acts_idle mode type]
  exact same_openHeat (by omega) _ ((congrArg Heats.opening heats).trans free) (by rwa [nextHeat_of_heats heats]) shape reserved rest passes

end

section
variable {s : State} {u : Nat} {r : Fin 4} {e : Entry}

theorem heatOpen_opens (ready : entryReady (s.at u) r.val e = true) (opens : opensHeat s.dev r.val e) :
    Answers s (.heatOpen u r e) fun t => t.nv = s.nv ∧ t.dev.heats = (heatOpened s.dev r.val e).heats ∧
      LeavesForwarding s (consumed { s.at u with heats := t.dev.heats } r.val) t := by
  have opens' := opensHeat_of_heats (at_heats s u) opens
  have acts := submits_opens opens' ready (submits_heatOpen s u r e) (by decide)
  have same := same_opens opens' r.isLt .failed
  refine answers_mono (answers_entry acts rfl same) fun t ⟨nv, heats, leaves⟩ => ⟨nv, heats.trans ?_, leaves⟩
  exact heatOpened_of_heats ((taken_heats _ _ _ _).trans (at_heats s u)) _ _

theorem heatOpen_waits (ready : entryReady (s.at u) r.val e = true) (type : enType e = 1) (mode : (subOf s.dev r.val).mode = 0)
    (waits : openWaits s.dev (BitVec.ofNat 32 (enHeat e)) = true) :
    AnswersButReports s (.heatOpen u r e) (setRing (s.at u) r.val { ringOf s.dev r.val with
      parked := some (.heatOpen 0 r e), begun := false, at0 := ringCons s.dev r.val, stale := false }) := by
  have mode' : (subOf (s.at u) r.val).mode = 0 := by rwa [subOf_of_heats (at_heats s u)]
  have waits' : submissionWaits (s.at u) r.val e = true := by
    rwa [submissionWaits_open type mode', openWaits_of_heats (at_heats s u)]
  have parks := answers_heatOpen s u r e
  rw [submissionCommand_waits ready (by rw [mode']; decide) waits'] at parks
  exact answers_same parks (same_park s u r.val _ _)

theorem exactly_heatRingResume (s : State) (u : Nat) (r : Fin 4) :
    AnswersExactly s (.heatRingResume u r) (ringResume (s.at u) r.val) :=
  exactly_of_onDev (f := fun d => ringResume (d.arrive u) r.val) rfl

theorem at_parked (s : State) (u r : Nat) : (ringOf (s.at u) r).parked = (ringOf s.dev r).parked := (same_arrive s.now u).ringParked r

theorem ringOf_consumed (d : Dev) (r : Nat) :
    ringOf (consumed d r) r = { ringOf d r with begun := false, stale := false, idle := false } := by
  unfold consumed
  dsimp only
  split <;> exact get_set_same _ _ _ _

variable {v : Nat} {k : Fin 4} (parked : (ringOf s.dev r.val).parked = some (.heatOpen v k e)) (type : enType e = 1)
  (mode : (subOf s.dev r.val).mode = 0)
include parked type mode

theorem at_ringResume :
    (openWaits s.dev (BitVec.ofNat 32 (enHeat e)) = true → ringResume (s.at u) r.val = s.at u) ∧
    (openWaits s.dev (BitVec.ofNat 32 (enHeat e)) = false → (∀ m, nextHeat s.dev = some m → BitVec.ofNat 32 (enHeat e) = m) →
      ringResume (s.at u) r.val = submissionCommand (unpark (s.at u) r.val) r.val e .failed (.heatOpen 0 0 e)) := by
  have resumes := ringResume_heatOpen ((at_parked s u r.val).trans parked) type (by rwa [subOf_of_heats (at_heats s u)])
  rwa [openWaits_of_heats (at_heats s u), nextHeat_of_heats (at_heats s u)] at resumes

theorem heatRingResume_waits (waits : openWaits s.dev (BitVec.ofNat 32 (enHeat e)) = true) :
    AnswersButReports s (.heatRingResume u r) (s.at u) := by
  have stays := answers_heatRingResume s u r
  rwa [(at_ringResume parked type mode).1 waits] at stays

theorem heatRingResume_opens (ready : entryReady (unpark (s.at u) r.val) r.val e = true) (opens : opensHeat s.dev r.val e) :
    Answers s (.heatRingResume u r) fun t => t.nv = s.nv ∧ t.dev.heats = (heatOpened s.dev r.val e).heats ∧
      (ringOf t.dev r.val).parked = none ∧ t.dev.mould = s.dev.mould := by
  have heats : (unpark (s.at u) r.val).heats = s.dev.heats := at_heats s u
  have opens' := opensHeat_of_heats heats opens
  have submits : Submits s (unpark (s.at u) r.val) r.val e .failed (.heatRingResume u r) := by
    obtain ⟨-, -, turn, -, next, -⟩ := opens
    refine ⟨.heatOpen 0 0 e, ?_⟩
    rw [← (at_ringResume parked type mode).2 turn next]
    exact exactly_heatRingResume s u r
  have same := same_opens opens' r.isLt .failed
  refine answers_of_exactly (submits_opens opens' ready submits (by decide)) fun t nv dev => ?_
  rw [← dev] at same
  have left := same_taken rfl same
  refine ⟨nv, same.heats.trans (heatOpened_of_heats ((taken_heats _ _ _ _).trans heats) _ _), (left.ringParked r.val).trans ?_,
    left.mould.trans ?_⟩
  · show (ringOf (consumed { unpark (s.at u) r.val with heats := t.dev.heats } r.val) r.val).parked = none
    rw [ringOf_consumed]
    exact congrArg Ring.parked (ringOf_setRing (s.at u) r.val r.val _ |>.trans (if_pos rfl))
  · rw [consumed_heats]
    exact (congrArg Dev.mould (consumed_frame (unpark (s.at u) r.val) r.val).1 :).trans (arrive_mould s.now u)

end

/-- Settles O25: the HEAT_OPEN that opens its heat and the one that waits, and the same where the ring resumes. -/
theorem heatOpen : Obligations.HeatOpen := by
  unfold Obligations.HeatOpen
  refine ⟨fun s u r e ready mode type => ⟨fun turn free next shape reserved rest passes => ?_,
    heatOpen_waits ready type mode⟩, fun s u v r k e parked type mode => ⟨heatRingResume_waits parked type mode,
    fun turn ready free next shape reserved rest passes => ?_⟩⟩
  · have opens : opensHeat s.dev r.val e := ⟨type, mode, turn, free, next, shape, reserved, rest, passes⟩
    refine answers_mono (heatOpen_opens ready opens) fun t ⟨nv, heats, leaves⟩ => ?_
    refine ⟨nv, ?_, ?_, fun k other => ?_, ?_, ?_, ?_, ?_, leaves⟩
    · rw [heats]; rfl
    · rw [subOf_of_heats heats, heatOpened, subOf_setSub_same]
    · rw [subOf_of_heats heats, heatOpened, subOf_setSub_other _ _ other]; rfl
    all_goals rw [heats]; rfl
  · have opens : opensHeat s.dev r.val e := ⟨type, mode, turn, free, next, shape, reserved, rest, passes⟩
    refine answers_mono (heatRingResume_opens parked type mode ready opens) fun t ⟨nv, heats, unparked, mould⟩ => ?_
    refine ⟨nv, ?_, ?_, unparked, ?_, mould⟩
    · rw [heats]; rfl
    · rw [subOf_of_heats heats, heatOpened, subOf_setSub_same]
    · rw [heats]; rfl

end Sys2Proof.Proofs
end

section
/-! HEAT_CLOSE and the standby's confirmation (R88, R92, R93): O27. -/
namespace Sys2Proof.Proofs
open Sys2Proof.Machine Sys2Proof.Laws

/-- A heat that passes the checks of its close has what it announced (R88, R92). -/
theorem closeFault_none {h : Heat} {n m c : Nat} (passes : closeFault h n m c = none) :
    n = h.islands.length ∧ m = h.pours.length ∧ h.recoat.isSome = true ∧ h.passes.length = h.passCount ∧ c = heatCrc h := by
  unfold closeFault at passes
  split at passes
  · cases passes
  next islands =>
  split at passes
  · cases passes
  next pours =>
  split at passes
  · cases passes
  next recoat =>
  obtain ⟨recoat, count⟩ := not_or.mp recoat
  iterate 4
    split at passes
    · cases passes
  split at passes
  · cases passes
  next crc =>
  exact ⟨not_not.mp islands, not_not.mp pours, Option.isSome_iff_ne_none.mpr recoat, not_not.mp count, not_not.mp crc⟩

section
variable {s : State} {u : Nat} {r : Fin 4} {e : Entry} {h : Heat}

theorem heatStaged_of_heats {d x : Dev} (same : x.heats = d.heats) (r : Nat) (h : Heat) :
    (heatStaged x r h).heats = (heatStaged d r h).heats := by
  simp only [heatStaged, setSub, same]

/-- An entry of the open heat acts on it. -/
theorem exactly_ofHeat {ty : Nat} {rd : HostRead} {i : Instr} (own : entryFor (s.at u) r.val ty e h) (type : ty ≠ 1)
    (submits : Submits s (s.at u) r.val e rd i) (read : rd ≠ .waiting) : AnswersExactly s i (entryActs (s.at u) r.val e rd) := by
  obtain ⟨ready, mode, -, rfl, -⟩ := own
  exact exactly_acts submits ready (by rw [mode]; decide) (submissionWaits_other type) read

section
variable (own : entryFor (s.at u) r.val 6 e h) (reserved : byteField e 20 8 = 0)
  (passes : closeFault h (byteField e 8 4) (byteField e 12 4) (byteField e 16 4) = none)
include own reserved passes

/-- The HEAT_CLOSE of a heat that passes: staged, or, with a standby in lockstep, waiting for it. -/
theorem same_heatClose :
    SameButReports (if s.dev.pairHolder
        then setSub (taken (s.at u) r.val e .failed) r.val { mode := 4, number := h.number, closeIndex := entryIndex (s.at u) r.val }
        else heatStaged (taken (s.at u) r.val e .failed) r.val h)
      (entryActs (s.at u) r.val e .failed) := by
  have closes : entryActs (s.at u) r.val e .failed =
      closeEntry (taken (s.at u) r.val e .failed) r.val (entryIndex (s.at u) r.val) e h := acts_entryFor own
  rw [closes, ← pairHolder_of_par ((taken_par (s.at u) r.val e .failed).trans (at_par s u))]
  exact same_closeEntry (Nat.lt_trans r.isLt (by decide)) _ reserved passes

theorem heatClose_stages (alone : s.dev.pairHolder = false) :
    Answers s (.heatClose u r e) fun t => t.nv = s.nv ∧ t.dev.heats = (heatStaged s.dev r.val h).heats ∧
      LeavesForwarding s (consumed { s.at u with heats := t.dev.heats } r.val) t := by
  have same := same_heatClose own reserved passes
  rw [alone, if_neg (by decide)] at same
  refine answers_mono (answers_entry (exactly_ofHeat own (by decide) (submits_heatClose s u r e) (by decide)) rfl same)
    fun t ⟨nv, heats, leaves⟩ => ⟨nv, heats.trans ?_, leaves⟩
  exact heatStaged_of_heats ((taken_heats _ _ _ _).trans (at_heats s u)) _ _

theorem heatClose_waits (pair : s.dev.pairHolder = true) :
    Answers s (.heatClose u r e) fun t => t.nv = s.nv ∧
      t.dev.heats = (setSub s.dev r.val { mode := 4, number := h.number, closeIndex := entryIndex (s.at u) r.val }).heats ∧
      LeavesForwarding s (consumed { s.at u with heats := t.dev.heats } r.val) t := by
  have same := same_heatClose own reserved passes
  rw [pair, if_pos rfl] at same
  refine answers_mono (answers_entry (exactly_ofHeat own (by decide) (submits_heatClose s u r e) (by decide)) rfl same)
    fun t ⟨nv, heats, leaves⟩ => ⟨nv, heats.trans ?_, leaves⟩
  simp only [setSub, taken_heats, at_heats]

end

/-- The standby's confirmation stages the heat whose close waits (R93). -/
theorem standbyConfirm_stages (own : s.dev.heats.opening = some h) (ring : h.ring = r.val) (mode : (subOf s.dev r.val).mode = 4) :
    AnswersButReports s (.standbyHeatConfirm u r) (heatStaged (s.at u) r.val h) := by
  have confirms := answers_standbyHeatConfirm s u r
  have closes : standbyConfirm (s.at u) r.val = heatClosed (s.at u) r.val (subOf (s.at u) r.val).closeIndex h := by
    unfold standbyConfirm
    rw [at_heats, own]
    exact if_pos ⟨by rwa [subOf_of_heats (at_heats s u)], ring⟩
  rw [closes] at confirms
  exact answers_same confirms (same_heatClosed (Nat.lt_trans r.isLt (by decide)) _ h)

end

/-- Settles O27: what a heat that passes has, the close that stages it or waits, and the standby's confirmation. -/
theorem heatClose : Obligations.HeatClose := by
  unfold Obligations.HeatClose
  refine ⟨fun h n m c => closeFault_none, fun s u r e h own reserved passes => ⟨fun alone => ?_, fun pair => ?_⟩,
    fun s u r h own ring mode => ?_⟩
  · refine answers_mono (heatClose_stages own reserved passes alone) fun t ⟨nv, heats, leaves⟩ => ?_
    refine ⟨nv, ?_, ?_, ?_, ?_, ?_, leaves⟩
    case refine_4 => rw [subOf_of_heats heats, heatStaged, subOf_setSub_same]
    all_goals rw [heats]; rfl
  · refine answers_mono (heatClose_waits own reserved passes pair) fun t ⟨nv, heats, leaves⟩ => ?_
    obtain ⟨-, -, opening, -⟩ := own
    refine ⟨nv, ?_, ?_, ?_, leaves⟩
    · rw [subOf_of_heats heats, subOf_setSub_same]
    · rw [heats]; exact (congrArg Heats.opening (at_heats s u)).symm.trans opening
    · rw [heats]; rfl
  · refine answers_mono (standbyConfirm_stages own ring mode) fun t ⟨nv, same⟩ => ?_
    have heats : t.dev.heats = (heatStaged s.dev r.val h).heats := same.heats.trans (heatStaged_of_heats (at_heats s u) _ _)
    refine ⟨nv, ?_, ?_, ?_, ?_, ?_⟩
    case refine_4 => rw [subOf_of_heats heats, heatStaged, subOf_setSub_same]
    case refine_5 => rw [same.heats]; exact same
    all_goals rw [heats]; rfl

end Sys2Proof.Proofs
end

section
/-! Rejected and cancelled heats (R94, R95): O28. -/
namespace Sys2Proof.Proofs
open Sys2Proof.Machine Sys2Proof.Laws

section
variable {s : State} {u : Nat} {r : Fin 4} {e : Entry} {rd : HostRead} {i : Instr}

/-- The heat under construction is gone and the ring's entries go as mode `m` says; staged and running heats are not touched. -/
def leavesGone (s : State) (u r m : Nat) (t : State) : Prop :=
  t.nv = s.nv ∧ t.dev.heats.opening = none ∧ (subOf t.dev r).mode = m ∧ t.dev.heats.staged = s.dev.heats.staged ∧
    t.dev.heats.running = s.dev.heats.running ∧ t.dev.heats.accepted = s.dev.heats.accepted ∧
    LeavesForwarding s (consumed { s.at u with heats := t.dev.heats } r) t

theorem answers_gone {x : Submission} (acts : AnswersExactly s i (entryActs (s.at u) r.val e rd))
    (same : SameButReports (heatGone (taken (s.at u) r.val e rd) r.val x) (entryActs (s.at u) r.val e rd)) :
    Answers s i (leavesGone s u r.val x.mode) := by
  refine answers_mono (answers_entry acts rfl same) fun t ⟨nv, heats, leaves⟩ => ?_
  have before : (taken (s.at u) r.val e rd).heats = s.dev.heats := (taken_heats _ _ _ _).trans (at_heats s u)
  refine ⟨nv, ?_, ?_, ?_, ?_, ?_, leaves⟩
  · rw [heats]; rfl
  · rw [subOf_of_heats heats, heatGone, subOf_setSub_same]
  · rw [heats]; exact (congrArg Heats.staged before :)
  · rw [heats]; exact (congrArg Heats.running before :)
  · rw [heats]; exact (congrArg Heats.accepted before :)

section
variable (ready : entryReady (s.at u) r.val e = true) (submits : Submits s (s.at u) r.val e rd i) (read : rd ≠ .waiting)
include ready submits read

/-- An entry of the ring's heat that has a reserved value or names another heat rejects it (R94). -/
theorem rejects_heat {h : Heat} (mode : (subOf s.dev r.val).mode = 1) (own : s.dev.heats.opening = some h) (ring : h.ring = r.val)
    (foreign : enHeat e ≠ h.number.toNat ∨ entryShape e = false) (opens : enType e ≠ 1)
    (cancels : enType e = 7 → enHeat e = h.number.toNat) :
    Answers s i (leavesGone s u r.val (if enType e = 6 then 0 else 2)) := by
  have mode' : (subOf (s.at u) r.val).mode = 1 := by rwa [subOf_of_heats (at_heats s u)]
  have own' : (s.at u).heats.opening = some h := by rwa [at_heats]
  have acts := exactly_acts submits ready (by rw [mode']; decide) (submissionWaits_other opens) read
  have same : SameButReports (heatGone (taken (s.at u) r.val e rd) r.val (if enType e = 6 then {} else { mode := 2, number := h.number }))
      (entryActs (s.at u) r.val e rd) := by
    rw [acts_foreign mode' own' foreign cancels]
    exact same_rejectHeat (Nat.lt_trans r.isLt (by decide)) _ ((congrArg Heats.opening (taken_heats _ _ _ _)).trans own') ring _ _ _
  refine answers_mono (answers_gone acts same) fun t gone => ?_
  rwa [apply_ite Submission.mode] at gone

section
variable (mode : (subOf s.dev r.val).mode = 2 ∨ (subOf s.dev r.val).mode = 3) (opens : enType e ≠ 1)
include mode opens

theorem exactly_discards : AnswersExactly s i (discardEntry (taken (s.at u) r.val e rd) r.val (entryIndex (s.at u) r.val) e) := by
  have mode' : (subOf (s.at u) r.val).mode = 2 ∨ (subOf (s.at u) r.val).mode = 3 := by rwa [subOf_of_heats (at_heats s u)]
  rw [← acts_discarding (rd := rd) mode']
  exact exactly_acts submits ready (by omega) (submissionWaits_other opens) read

/-- An entry of a heat that is being discarded is consumed without effect (R94, R95). -/
theorem discards_entry (closes : enType e ≠ 6) : Answers s i (LeavesForwarding s (consumed (s.at u) r.val)) := by
  refine answers_of_exactly (exactly_discards ready submits read mode opens) fun t nv dev => ?_
  have same := same_discardEntry (d := taken (s.at u) r.val e rd) (Nat.lt_trans r.isLt (by decide))
    (entryIndex (s.at u) r.val) opens closes
  rw [← dev] at same
  have leaves := leaves_taken nv rfl same
  rwa [same.heats, taken_heats] at leaves

/-- Its HEAT_CLOSE ends the discarding. -/
theorem discards_close (closes : enType e = 6) :
    Answers s i fun t => t.nv = s.nv ∧ t.dev.heats = (setSub s.dev r.val {}).heats ∧
      LeavesForwarding s (consumed { s.at u with heats := t.dev.heats } r.val) t := by
  refine answers_of_exactly (exactly_discards ready submits read mode opens) fun t nv dev => ?_
  have same := same_discardEntry_close (d := taken (s.at u) r.val e rd) (Nat.lt_trans r.isLt (by decide))
    (entryIndex (s.at u) r.val) closes
  rw [← dev] at same
  refine ⟨nv, same.heats.trans ?_, leaves_taken nv rfl same⟩
  simp only [setSub, taken_heats, at_heats]

end

end

/-- HEAT_CANCEL discards the open heat (R95). -/
theorem cancels_heat {h : Heat} (own : entryFor (s.at u) r.val 7 e h) (reserved : byteField e 8 20 = 0) :
    Answers s (.heatCancel u r e) (leavesGone s u r.val 3) := by
  have acts := exactly_ofHeat own (by decide) (submits_heatCancel s u r e) (by decide)
  have cancels : entryActs (s.at u) r.val e .failed =
      cancelEntry (taken (s.at u) r.val e .failed) r.val (entryIndex (s.at u) r.val) e := acts_entryFor own
  have same := same_cancelEntry (d := taken (s.at u) r.val e .failed) (Nat.lt_trans r.isLt (by decide))
    (entryIndex (s.at u) r.val) reserved
  rw [← cancels] at same
  exact answers_gone acts same

end

/-- Settles O28: the entry that rejects its heat, the HEAT_CANCEL, and the entries of a heat that is being discarded. -/
theorem heatDiscarded : Obligations.HeatDiscarded := by
  unfold Obligations.HeatDiscarded
  intro s u r e rd read ready
  have failed : HostRead.failed ≠ .waiting := by decide
  refine ⟨fun h mode own ring foreign => ?_, fun h own reserved => cancels_heat own reserved,
    fun h mode own ring type number shape => ?_, fun mode => ?_⟩
  · have rejects {i : Instr} {rd : HostRead} (submits : Submits s (s.at u) r.val e rd i) (read : rd ≠ .waiting)
        (building : 2 ≤ enType e ∧ enType e ≤ 6) : Answers s i (leavesGone s u r.val (if enType e = 6 then 0 else 2)) :=
      rejects_heat ready submits read mode own ring foreign (by omega) (by omega)
    refine ⟨fun type => ?_, fun type => ?_, fun type => ?_, fun type => ?_, fun type => ?_⟩ <;> rw [type] at rejects
    · exact rejects (submits_islands s u r e rd) read (by decide)
    · exact rejects (submits_pours s u r e rd) read (by decide)
    · exact rejects (submits_recoat s u r e rd) read (by decide)
    · exact rejects (submits_pass s u r e) failed (by decide)
    · exact rejects (submits_heatClose s u r e) failed (by decide)
  · have rejects := rejects_heat ready (submits_heatCancel s u r e) failed mode own ring (.inr shape) (by rw [type]; decide)
      fun _ => number
    rwa [type] at rejects
  · have discards {i : Instr} {rd : HostRead} (submits : Submits s (s.at u) r.val e rd i) (read : rd ≠ .waiting)
        (building : enType e ≠ 1 ∧ enType e ≠ 6) : Answers s i (LeavesForwarding s (consumed (s.at u) r.val)) :=
      discards_entry ready submits read mode building.1 building.2
    refine ⟨fun type => ?_, fun type => ?_, fun type => ?_, fun type => ?_, fun type => ?_⟩
    · exact discards (submits_islands s u r e rd) read (by rw [type]; decide)
    · exact discards (submits_pours s u r e rd) read (by rw [type]; decide)
    · exact discards (submits_recoat s u r e rd) read (by rw [type]; decide)
    · exact discards (submits_pass s u r e) failed (by rw [type]; decide)
    · refine answers_mono (discards_close ready (submits_heatClose s u r e) failed mode (by rw [type]; decide) type)
        fun t ⟨nv, heats, leaves⟩ => ?_
      refine ⟨nv, ?_, ?_, ?_, ?_, leaves⟩
      · rw [subOf_of_heats heats, subOf_setSub_same]
      all_goals rw [heats]; rfl

end Sys2Proof.Proofs
end

section
/-! An entry that is accepted: its heat, its count and its record (R87, R106, R565). -/
namespace Sys2Proof.Proofs
open Sys2Proof.Machine Sys2Proof.Laws

/-! ### Words beside those of an entry -/

/-- The device that has counted `n` decoded ingots, where the entry has any (R565). -/
def counted (ingots : Bool) (n : Nat) (d : Dev) : Dev := if ingots then d.addCount pageIcd 0x070 n else d

theorem addCount_frame (d : Dev) (p off n : Nat) : d.addCount p off n = { d with regs := (d.addCount p off n).regs } := by
  unfold Dev.addCount
  generalize min (d.rfld p off 0 32 + n) 0xFFFFFFFF = v
  rfl

theorem counted_frame (b : Bool) (n : Nat) (d : Dev) : counted b n d = { d with regs := (counted b n d).regs } := by
  cases b
  · rfl
  · exact addCount_frame _ _ _ _

theorem counted_out (b : Bool) (n : Nat) (d : Dev) (o : List Out) : counted b n { d with out := o } = { counted b n d with out := o } := by
  cases b
  · rfl
  · show Dev.addCount { d with out := o } _ _ _ = { Dev.addCount d _ _ _ with out := o }
    unfold Dev.addCount Dev.rfld
    dsimp only
    generalize min _ 0xFFFFFFFF = v
    rfl

theorem counted_word (b : Bool) (n : Nat) (d : Dev) {a : Nat} (h : a ≠ wordAddr pageIcd 0x070) :
    (counted b n d).regs.read a = d.regs.read a ∧ (counted b n d).regs.inUse a = d.regs.inUse a := by
  cases b
  · exact ⟨rfl, rfl⟩
  · exact ⟨(setReg_read _ _ _ _ _).trans (if_neg h), (setReg_inUse _ _ _ _ _).trans (if_neg h)⟩

theorem consumed_word (d : Dev) {r a : Nat} (h : a ≠ wordAddr (pageRng r) 0x050) :
    (consumed d r).regs.read a = d.regs.read a ∧ (consumed d r).regs.inUse a = d.regs.inUse a := by
  unfold consumed
  dsimp only
  split
  · exact ⟨rfl, rfl⟩
  · exact ⟨(setReg_read _ _ _ _ _).trans (if_neg h), (setReg_inUse _ _ _ _ _).trans (if_neg h)⟩

theorem setReg_rfld (d : Dev) (p off v q o lo w : Nat) (h : wordAddr q o ≠ wordAddr p off) :
    (d.setReg p off v).rfld q o lo w = d.rfld q o lo w := by simp [Dev.rfld, setReg_read, h]

/-- The register file with the word `w` written at `a`, on both copies. -/
def putWord (f : RegFile) (a : Nat) (w : Word) : RegFile := (f.setRead a w).setInUse a w

/-- Two words may be written in either order. -/
theorem sameRegs_putWord_swap (f : RegFile) {a b : Nat} (v w : Word) (apart : a ≠ b) :
    SameRegs (putWord (putWord f a v) b w) (putWord (putWord f b w) a v) := by
  have read (k : Nat) : (putWord (putWord f b w) a v).read k = (putWord (putWord f a v) b w).read k := by
    simp only [putWord, read_setInUse, read_setRead]
    split <;> split <;> simp_all
  have inUse (k : Nat) : (putWord (putWord f b w) a v).inUse k = (putWord (putWord f a v) b w).inUse k := by
    simp only [putWord, inUse_setInUse, inUse_setRead]
    split <;> split <;> simp_all
  exact ⟨fun k _ => read k, fun k _ => inUse k, rfl, rfl, rfl, rfl, rfl, rfl, rfl, fun p k set => by rwa [read]⟩

theorem same_setReg_swap (d : Dev) {p off v q o w : Nat} (apart : wordAddr p off ≠ wordAddr q o) :
    SameButReports ((d.setReg p off v).setReg q o w) ((d.setReg q o w).setReg p off v) :=
  same_regs { d with regs := _ } _ (sameRegs_putWord_swap d.regs (word v) (word w) apart)

/-- An entry is consumed before or after its ingots are counted. -/
theorem same_consumed_counted (b : Bool) (n : Nat) (d : Dev) {r : Nat} (small : r < 64) :
    SameButReports (consumed (counted b n d) r) (counted b n (consumed d r)) := by
  cases b
  · exact same_refl _
  have apart {off : Nat} (h : off < 4096) : wordAddr (pageRng r) off ≠ wordAddr pageIcd 0x070 := by
    unfold wordAddr pageRng pageIcd
    omega
  have size (v : Nat) : ringLog2 (d.setReg pageIcd 0x070 v) r = ringLog2 d r := setReg_fld _ _ _ _ _ _ _ _ (apart (by decide))
  have cons (v : Nat) : ringCons (d.setReg pageIcd 0x070 v) r = ringCons d r := setReg_rfld _ _ _ _ _ _ _ _ (apart (by decide))
  have pos (v : Nat) : entryPos (d.setReg pageIcd 0x070 v) r = entryPos d r := by rw [entryPos, cons]; rfl
  have total (x : Dev) (v : Nat) : (x.setReg (pageRng r) 0x050 v).rfld pageIcd 0x070 0 32 = x.rfld pageIcd 0x070 0 32 :=
    setReg_rfld _ _ _ _ _ _ _ _ (apart (by decide)).symm
  show SameButReports (consumed (d.addCount pageIcd 0x070 n) r) ((consumed d r).addCount pageIcd 0x070 n)
  unfold Dev.addCount consumed
  dsimp only
  rw [size, pos]
  by_cases stale : (ringOf d r).stale = true
  · rw [if_pos stale, if_pos (by exact stale)]
    exact same_refl _
  · rw [if_neg stale, if_neg (by exact stale), total]
    exact same_setReg_swap (setRing d r _) (apart (by decide)).symm

/-! ### The record -/

/-- ENTRY_DONE of an accepted entry joins the queue of its ring where that has room (R106, R585). -/
theorem entryDone_queued {d : Dev} {r : Nat} (index heat : Nat) (holds : d.holds = true) (room : queueRoomFor d (48 + r) = true) :
    entryDone d r index stOk 0 heat 0 0 =
      queued d (48 + r) .plain (atByte 0 (d.tick % 2 ^ 64) + atByte 8 1 + atByte 12 heat + atByte 16 index) := by
  have zero (k : Nat) : atByte k 0 = 0 := Nat.zero_shiftLeft _
  unfold entryDone emitShared emit enqueue
  rw [holds, if_pos rfl, room, if_pos rfl, stOk, Nat.zero_mod, zero, zero, zero, zero]
  simp only [Nat.add_zero]
  rfl

/-- Whether a record finds room depends on its ring, on the words of that ring's page, on the link and on the role (R585). -/
theorem queueRoomFor_congr {d x : Dev} {k : Nat} (ring : ringOf x k = ringOf d k) (link : x.hif.linkUp = d.hif.linkUp)
    (par : x.par = d.par) (words : ∀ off, off < 0x064 → off ≠ 0x010 →
      x.regs.read (wordAddr (pageRng k) off) = d.regs.read (wordAddr (pageRng k) off) ∧
      x.regs.inUse (wordAddr (pageRng k) off) = d.regs.inUse (wordAddr (pageRng k) off)) :
    queueRoomFor x k = queueRoomFor d k := by
  have enabled : x.enabled (pageRng k) = d.enabled (pageRng k) := by
    rw [Dev.enabled, Dev.flag, (words 0x008 (by decide) (by decide)).2]; rfl
  have holds : x.holds = d.holds := by simp only [Dev.holds, par]
  have size : ringLog2 x k = ringLog2 d k := by rw [ringLog2, Dev.fld, (words 0x048 (by decide) (by decide)).2]; rfl
  have prod : ringProd x k = ringProd d k := by rw [ringProd, Dev.rfld, (words 0x04C (by decide) (by decide)).1]; rfl
  have cons : ringCons x k = ringCons d k := by rw [ringCons, Dev.rfld, (words 0x050 (by decide) (by decide)).1]; rfl
  have may : mayWriteRing x k = mayWriteRing d k := by rw [mayWriteRing, enabled, link, holds]; rfl
  have used : ringUsed x k = ringUsed d k := by rw [ringUsed, size, prod, cons]; rfl
  have free : ringFree x k = ringFree d k := by rw [ringFree, may, used, size]; rfl
  rw [queueRoomFor, ring, free]
  rfl

/-- With no trigger waiting the recorder writes nothing when time goes on (R594). -/
theorem at_ringOf (s : State) (u k : Nat) (quiet : s.dev.recorder.triggers = []) : ringOf (s.at u) k = ringOf s.dev k := by
  have none : s.now.recorder.triggers.isEmpty = true := List.isEmpty_iff.mpr quiet
  unfold State.at Dev.arrive Dev.advance
  rw [none]
  split <;> rfl

theorem at_link (s : State) (u : Nat) : (s.at u).hif.linkUp = s.dev.hif.linkUp := (congrArg Hif.linkUp (same_arrive s.now u).hif :)

theorem at_entryPos (s : State) (u r : Nat) : entryPos (s.at u) r = entryPos s.dev r := by
  unfold entryPos
  rw [at_ringBegun, at_ringCons, show (ringOf (s.at u) r).at0 = (ringOf s.dev r).at0 from (same_arrive s.now u).ringAt0 r]

theorem same_heats_out {d e : Dev} (h : SameButReports d e) (x : Heats) (o : List Out) :
    SameButReports { d with heats := x, out := o } { e with heats := x, out := o } := { h with heats := rfl, out := rfl }

/-- The device that has taken an entry, counted its ingots and put its records into the heat `h`. -/
def grown (d : Dev) (r : Nat) (e : Entry) (rd : HostRead) (b : Bool) (n : Nat) (h : Heat) : Dev :=
  setOpening (counted b n (taken d r e rd)) h

section
variable (d : Dev) (r : Nat) (e : Entry) (rd : HostRead) (b : Bool) (n : Nat) (h : Heat)

theorem grown_frame : grown d r e rd b n h =
    { counted b n (consumed d r) with heats := { d.heats with opening := some h }, out := (taken d r e rd).out } := by
  have heats : (counted b n (taken d r e rd)).heats = d.heats :=
    (congrArg Dev.heats (counted_frame b n (taken d r e rd)) :).trans (taken_heats d r e rd)
  rw [grown, setOpening, heats, taken_out, counted_out]

theorem grown_tick : (grown d r e rd b n h).tick = (counted b n d).tick := by
  rw [grown_frame, counted_frame, counted_frame b n d]
  exact (congrArg Dev.tick (consumed_frame d r).1 :)

theorem grown_hif : (grown d r e rd b n h).hif = d.hif := by
  rw [grown_frame, counted_frame]
  exact (congrArg Dev.hif (consumed_frame d r).1 :)

theorem grown_par : (grown d r e rd b n h).par = d.par := by
  rw [grown_frame, counted_frame]
  exact consumed_par d r

theorem grown_ringOf {k : Nat} (other : k ≠ r) : ringOf (grown d r e rd b n h) k = ringOf d k := by
  rw [grown_frame, counted_frame]
  show ringOf (consumed d r) k = ringOf d k
  unfold consumed
  dsimp only
  split <;> exact get_set_other _ _ _ other

theorem grown_word {a : Nat} (icd : a ≠ wordAddr pageIcd 0x070) (cons : a ≠ wordAddr (pageRng r) 0x050) :
    (grown d r e rd b n h).regs.read a = d.regs.read a ∧ (grown d r e rd b n h).regs.inUse a = d.regs.inUse a := by
  obtain ⟨read, inUse⟩ := counted_word b n (consumed d r) icd
  obtain ⟨read', inUse'⟩ := consumed_word d cons
  rw [grown_frame]
  exact ⟨read.trans read', inUse.trans inUse'⟩

/-- A growing heat touches no ring but its own (R585). -/
theorem grown_room {k : Nat} (other : k ≠ r) : queueRoomFor (grown d r e rd b n h) k = queueRoomFor d k := by
  refine queueRoomFor_congr (grown_ringOf d r e rd b n h other) (congrArg Hif.linkUp (grown_hif d r e rd b n h))
    (grown_par d r e rd b n h) fun off low _ => grown_word d r e rd b n h ?_ ?_
  · unfold wordAddr pageRng pageIcd
    omega
  · unfold wordAddr pageRng
    omega

end

theorem at_room (s : State) (u k : Nat) (quiet : s.dev.recorder.triggers = []) : queueRoomFor (s.at u) k = queueRoomFor s.dev k :=
  queueRoomFor_congr (at_ringOf s u k quiet) (at_link s u) (at_par s u) fun _ low pen =>
    ⟨at_read s u (reportWord_of_offset low pen), at_inUse s u (reportWord_of_offset low pen)⟩

/-- An accepted entry, whose ingots are counted, leaves its heat and its record. -/
theorem entryTaken_done {s t : State} {u r : Nat} {e : Entry} {rd : HostRead} {b : Bool} {n : Nat} {h : Heat} (small : r < 4)
    (ready : entryReady (s.at u) r e = true) (nv : t.nv = s.nv)
    (dev : t.dev = entryDone (grown (s.at u) r e rd b n h) r (entryIndex (s.at u) r) stOk 0 (enHeat e) 0 0) :
    entryTaken s t (counted b n (s.at u)) r e h := by
  have done := same_entryDone (grown (s.at u) r e rd b n h) r (entryIndex (s.at u) r) stOk 0 (enHeat e) 0 0 (by omega)
  rw [← dev] at done
  have frame := grown_frame (s.at u) r e rd b n h
  have heats : t.dev.heats = { s.dev.heats with opening := some h } := by rw [done.heats, frame, at_heats]
  have out : t.dev.out = (taken (s.at u) r e rd).out := by rw [done.out, frame]
  have par : (grown (s.at u) r e rd b n h).par = s.dev.par := (grown_par _ _ _ _ _ _ _).trans (at_par s u)
  refine ⟨heats, ⟨nv, same_trans ?_ done, fun alone => out.trans (at_taken_out alone u r e rd)⟩, fun quiet room => ?_⟩
  · rw [consumed_heats, heats, out, frame, at_heats]
    exact same_heats_out (same_consumed_counted b n (s.at u) (by omega)) _ _
  · have holds : (grown (s.at u) r e rd b n h).holds = true := by
      rw [← opening_holds small ready]
      simp only [Dev.holds, par, at_par]
    have room' : queueRoomFor (grown (s.at u) r e rd b n h) (48 + r) = true := by
      rw [grown_room _ _ _ _ _ _ _ (by omega), at_room s u _ quiet, room]
    have ring : ringOf (grown (s.at u) r e rd b n h) (48 + r) = ringOf s.dev (48 + r) :=
      (grown_ringOf _ _ _ _ _ _ _ (by omega)).trans (at_ringOf s u _ quiet)
    have state : (grown (s.at u) r e rd b n h).stateByte = s.dev.stateByte := by simp only [Dev.stateByte, par]
    rw [dev, entryDone_queued _ _ holds room', queued, ringOf_setRing, if_pos rfl, ring, state, grown_tick, entryIndex, at_entryPos]
    rfl

end Sys2Proof.Proofs
end

section
/-! ISLANDS, POURS, RECOAT and PASS of the open heat (R65, R74, R82, R84, R87, R92, R96): O26. -/
namespace Sys2Proof.Proofs
open Sys2Proof.Machine Sys2Proof.Laws

/-! ### Data that have come -/

theorem firstFault_none {bad : Nat → Option Nat} {l : List Nat} (good : ∀ v ∈ l, bad v = none) (k : Nat) : firstFault bad l k = none := by
  induction l generalizing k with
  | nil => rfl
  | cons v l ih =>
    obtain ⟨first, rest⟩ := List.forall_mem_cons.mp good
    rw [firstFault, first]
    exact ih rest (k + 1)

/-- Data come of no failed read (R567). -/
theorem fetchFault_data {e : Entry} {w count : Nat} {rd : HostRead} {recs : List Nat} (came : entryData e w count rd = .data recs)
    (d : Dev) (r : Nat) : fetchFault d r e rd = d := by
  cases rd with
  | failed =>
    unfold entryData at came
    dsimp only at came
    repeat' split at came
    all_goals cases came
  | ok bs => rfl
  | waiting => rfl

theorem ingressCount_data (d : Dev) (e : Entry) (count per : Nat) (recs : List Nat) :
    ingressCount d e count per (.data recs) = counted (enIngot e) (count / per) d := by
  unfold ingressCount counted
  cases enIngot e <;> rfl

/-! ### Records that pass their checks -/

section
variable {r index : Nat} {e : Entry} {h : Heat} {rd : HostRead} {recs : List Nat} (d : Dev)

/-- The device that accepts an entry which makes the open heat `h`. -/
def accepts (d : Dev) (r index : Nat) (e : Entry) (h : Heat) : Dev := entryDone (setOpening d h) r index stOk 0 (enHeat e) 0 0

theorem islandsEntry_accepts (next : byteField e 20 4 = h.islands.length) (room : byteField e 20 4 + byteField e 24 4 ≤ 65536)
    (came : entryData e 64 (byteField e 24 4) rd = .data recs) (good : ∀ x ∈ recs, islandFault (BitVec.ofNat 512 x) = none) :
    islandsEntry d r index e h rd = accepts (counted (enIngot e) (byteField e 24 4 / 4) d) r index e
      { h with islands := h.islands ++ recs.map (BitVec.ofNat 512) } := by
  unfold islandsEntry
  dsimp only
  rw [if_neg (not_not_intro next), if_neg (Nat.not_lt.mpr room), fetchFault_data came, came, ingressCount_data]
  dsimp only
  rw [firstFault_none good]
  rfl

theorem poursEntry_accepts (next : byteField e 20 4 = h.pours.length) (room : byteField e 20 4 + byteField e 24 4 ≤ 16777216)
    (came : entryData e 32 (byteField e 24 4) rd = .data recs) (good : ∀ x ∈ recs, pourValid (BitVec.ofNat 256 x) = true) :
    poursEntry d r index e h rd = accepts (counted (enIngot e) (byteField e 24 4 / 8) d) r index e
      { h with pours := h.pours ++ recs.map (BitVec.ofNat 256) } := by
  unfold poursEntry
  dsimp only
  rw [if_neg (not_not_intro next), if_neg (Nat.not_lt.mpr room), fetchFault_data came, came, ingressCount_data]
  dsimp only
  rw [firstFault_none fun v mem => if_pos (good v mem)]
  rfl

theorem recoatEntry_accepts {bs : List Byte} (first : h.recoat = none) (length : byteField e 16 4 = 64) (reserved : byteField e 20 8 = 0)
    (whole : 64 ≤ bs.length) (valid : recoatValid (BitVec.ofNat 512 (leNat (bs.take 64))) = true)
    (fits : ∀ p ∈ h.passes, passFits p (BitVec.ofNat 512 (leNat (bs.take 64))) = true) :
    recoatEntry d r index e h (.ok bs) = accepts d r index e { h with recoat := some (BitVec.ofNat 512 (leNat (bs.take 64))) } := by
  unfold recoatEntry
  rw [if_neg (by rw [first, length, reserved]; decide)]
  dsimp only
  rw [if_neg (Nat.not_lt.mpr whole), valid, List.all_eq_true.mpr fits]
  rfl

theorem passEntry_accepts (announced : psIndex e < h.passCount) (next : psIndex e = h.passes.length) (valid : passValid e = true)
    (fits : ∀ rc, h.recoat = some rc → passFits e rc = true) :
    passEntry d r index e h = accepts d r index e { h with passes := h.passes ++ [e] } := by
  unfold passEntry
  rw [if_neg (Nat.not_le.mpr announced), valid, next, bne_self_eq_false]
  cases recoat : h.recoat with
  | none => exact if_neg Bool.false_ne_true
  | some rc => exact if_neg (by simp [fits rc recoat])

end

/-! ### The answers -/

section
variable {s : State} {u : Nat} {r : Fin 4} {e : Entry} {h : Heat} {rd : HostRead} {ty : Nat} {i : Instr}

/-- An entry of the open heat that is accepted, its ingots counted, grows the heat. -/
theorem grows {b : Bool} {n : Nat} {x : Heat} (own : entryFor (s.at u) r.val ty e h) (type : ty ≠ 1)
    (submits : Submits s (s.at u) r.val e rd i) (read : rd ≠ .waiting)
    (acts : entryActs (s.at u) r.val e rd =
      accepts (counted b n (taken (s.at u) r.val e rd)) r.val (entryIndex (s.at u) r.val) e x) :
    Answers s i fun t => entryTaken s t (counted b n (s.at u)) r.val e x := by
  have exact := exactly_ofHeat own type submits read
  obtain ⟨ready, -⟩ := own
  refine answers_of_exactly exact fun t nv dev => ?_
  rw [acts] at dev
  exact entryTaken_done r.isLt ready nv dev

/-- The same for an entry without records of its own count. -/
theorem grows_plain {x : Heat} (own : entryFor (s.at u) r.val ty e h) (type : ty ≠ 1) (submits : Submits s (s.at u) r.val e rd i)
    (read : rd ≠ .waiting)
    (acts : entryActs (s.at u) r.val e rd = accepts (taken (s.at u) r.val e rd) r.val (entryIndex (s.at u) r.val) e x) :
    Answers s i fun t => entryTaken s t (s.at u) r.val e x :=
  grows (b := false) (n := 0) own type submits read acts

end

/-- Settles O26: each of the four by what its entry does with records that pass their checks. -/
theorem heatEntries : Obligations.HeatEntries := by
  unfold Obligations.HeatEntries
  intro s u r e h rd read
  refine ⟨fun recs own next room came good => ?_, fun recs own next room came good => ?_,
    fun bs own first length reserved ok whole valid fits => ?_, fun own announced next valid fits => ?_⟩
  · refine grows own (by decide) (submits_islands s u r e rd) read ((acts_entryFor own).trans ?_)
    exact islandsEntry_accepts _ next room came good
  · refine grows own (by decide) (submits_pours s u r e rd) read ((acts_entryFor own).trans ?_)
    exact poursEntry_accepts _ next room came good
  · subst ok
    refine grows_plain own (by decide) (submits_recoat s u r e (.ok bs)) read ((acts_entryFor own).trans ?_)
    exact recoatEntry_accepts _ first length reserved whole valid fits
  · refine grows_plain own (by decide) (submits_pass s u r e) (by decide) ((acts_entryFor own).trans ?_)
    exact passEntry_accepts _ announced next valid fits

end Sys2Proof.Proofs
end

section
/-! LINES (R100 to R104): O29. -/
namespace Sys2Proof.Proofs
open Sys2Proof.Machine Sys2Proof.Laws

theorem exactly_lines (s : State) (u : Nat) (r : Fin 4) (e : Entry) (rd : HostRead) :
    AnswersExactly s (.lines u r e rd) (linesCommand (s.at u) r.val e rd (.lines 0 r e rd)) :=
  exactly_of_onDev (f := fun d => linesCommand (d.arrive u) r.val e rd (.lines 0 r e rd)) rfl

/-! ### The command -/

theorem nextLine_consumed (d : Dev) (r : Nat) (h : Heat) (p : Entry) : nextLine (consumed d r) h p = nextLine d h p := by
  have lhd : (consumed d r).lhd = d.lhd := (congrArg Dev.lhd (consumed_frame d r).1 :)
  simp only [nextLine, nextStrobe, consumed_keeps_heats, lhd]

section
variable {d : Dev} {r : Nat} {e : Entry} {rd : HostRead} {self : Instr} (ready : entryReady d (4 + r) e = true)
  (shape : linesShape e = true)
include ready shape

/-- LINES of a pass of an open, staged or running heat are taken (R102). -/
theorem linesCommand_takes {h : Heat} {p : Entry} (heat : findHeat d (BitVec.ofNat 32 (enHeat e)) = some h)
    (pass : (h.passes.find? fun p => psIndex p == byteField e 26 1) = some p) (read : rd ≠ .waiting) :
    linesCommand d r e rd self = linesData (taken d (4 + r) e rd) r (entryIndex d (4 + r)) e h p (nextLine d h p) rd := by
  obtain ⟨can, phase⟩ := entryReady_canRead ready
  unfold linesCommand
  dsimp only
  rw [can, if_neg (by decide), if_neg (not_not_intro phase), shape, if_neg (by decide), heatPast, heat, Option.isNone_some,
    Bool.and_false, Bool.and_false, if_neg (by decide)]
  dsimp only
  rw [pass]
  dsimp only
  rw [if_neg read]
  rw [takeEntry_ready _ ready, nextLine_consumed]
  rfl

/-- LINES of a heat that is not open wait at the head of the ring, and are consumed where they had been begun (R102). -/
theorem linesCommand_none (past : heatPast d (BitVec.ofNat 32 (enHeat e)) = false)
    (heat : findHeat d (BitVec.ofNat 32 (enHeat e)) = none) :
    linesCommand d r e rd self =
      if (ringOf d (4 + r)).begun then entryDone (consumed d (4 + r)) (4 + r) (entryIndex d (4 + r)) stStale 0 (enHeat e) 0 0
      else park d (4 + r) self false := by
  obtain ⟨can, phase⟩ := entryReady_canRead ready
  unfold linesCommand
  dsimp only
  rw [can, if_neg (by decide), if_neg (not_not_intro phase), shape, if_neg (by decide), past, heat, Option.isNone_none,
    Bool.and_true, Bool.false_or, takeEntry_ready _ ready]
  rfl

end

/-! ### The lines -/

/-- Whole records lie within the bytes that they take. -/
theorem chunks_take (w : Nat) : ∀ (n : Nat) (bs : List Byte), chunks w n (bs.take (n * w)) = chunks w n bs
  | 0, _ => rfl
  | n + 1, bs => by
    have here : min w ((n + 1) * w) = w := Nat.min_eq_left (Nat.le_mul_of_pos_left w n.succ_pos)
    have rest : (n + 1) * w - w = n * w := by rw [Nat.succ_mul, Nat.add_sub_cancel]
    rw [chunks, chunks, List.take_take, here, List.drop_take, rest, chunks_take w n]

section
variable {d : Dev} {r index next : Nat} {e p : Entry} {h : Heat} {rd : HostRead} (plain : enIngot e = false)
  (ring : psRing p = 4 + r) (length : byteField e 16 4 = byteField e 24 2 * 8192)
include plain ring length

/-- Lines that have all fired already are dropped (R104). -/
theorem linesData_fired (fired : byteField e 20 4 + byteField e 24 2 ≤ next) :
    linesData d r index e h p next rd = entryDone d (4 + r) index stStale 0 (enHeat e) 0 0 := by
  unfold linesData
  dsimp only
  rw [plain, if_neg (by simp [ring, length]), if_pos fired]

/-- Lines of which none has fired or come before are stored (R101, R103). -/
theorem linesData_stores {bs : List Byte} (some1 : 1 ≤ byteField e 24 2) (ahead : next ≤ byteField e 20 4)
    (last : byteField e 20 4 + byteField e 24 2 ≤ psLines p)
    (fresh : ∀ k, byteField e 20 4 ≤ k → k < byteField e 20 4 + byteField e 24 2 → holdsLine h (psIndex p) k = false)
    (whole : byteField e 24 2 * 8192 ≤ bs.length) :
    linesData d r index e h p next (.ok bs) = entryDone (updHeat d h.number fun h =>
      storeLines h (psIndex p) (byteField e 20 4) (chunks 8192 (byteField e 24 2) bs)) (4 + r) index stOk 0 (enHeat e) 0 0 := by
  have good : ((List.range (byteField e 24 2)).find? fun k => decide (psLines p ≤ byteField e 20 4 + k) ||
      holdsLine h (psIndex p) (byteField e 20 4 + k)) = none := by
    rw [List.find?_eq_none]
    intro k mem
    have low := List.mem_range.mp mem
    rw [fresh _ (by omega) (by omega), Bool.or_false, decide_eq_true_eq]
    omega
  unfold linesData
  dsimp only
  rw [plain, if_neg (by simp [ring, length]), if_neg (by omega), Nat.max_eq_left ahead, Nat.add_sub_cancel_left, good,
    Nat.sub_eq_zero_of_le ahead, Nat.sub_self]
  dsimp only
  rw [if_neg (show ¬ bs.length < _ by simpa using whole)]
  simp [chunks_take]

end

/-! ### The answers -/

section
variable {s : State} {u : Nat} {r : Fin 4} {e p : Entry} {h : Heat} {rd : HostRead} (ready : entryReady (s.at u) (4 + r.val) e = true)
  (shape : linesShape e = true)
include ready shape

section
variable (heat : findHeat s.dev (BitVec.ofNat 32 (enHeat e)) = some h)
  (pass : (h.passes.find? fun p => psIndex p == byteField e 26 1) = some p) (read : rd ≠ .waiting)
include heat pass read

/-- LINES that are taken leave what they make of the heats, and their report. -/
theorem lines_leave {x y : Dev} {status : Nat} (only : x = { y with out := (taken (s.at u) (4 + r.val) e rd).out })
    (acts : linesData (taken (s.at u) (4 + r.val) e rd) r.val (entryIndex (s.at u) (4 + r.val)) e h p (nextLine (s.at u) h p) rd =
      entryDone x (4 + r.val) (entryIndex (s.at u) (4 + r.val)) status 0 (enHeat e) 0 0) :
    Answers s (.lines u r e rd) (LeavesForwarding s y) := by
  have sent := exactly_lines s u r e rd
  rw [linesCommand_takes ready shape (by rwa [findHeat_of_heats (at_heats s u)]) pass read, acts] at sent
  refine answers_of_exactly sent fun t nv dev => ?_
  have done := same_entryDone x (4 + r.val) (entryIndex (s.at u) (4 + r.val)) status 0 (enHeat e) 0 0 (by omega)
  rw [← dev] at done
  have out : t.dev.out = (taken (s.at u) (4 + r.val) e rd).out := by rw [done.out, only]
  rw [only, ← out] at done
  exact ⟨nv, done, fun alone => out.trans (at_taken_out alone u _ e rd)⟩

end

section
variable (past : heatPast s.dev (BitVec.ofNat 32 (enHeat e)) = false) (heat : findHeat s.dev (BitVec.ofNat 32 (enHeat e)) = none)
include past heat

theorem at_linesCommand_none (self : Instr) : linesCommand (s.at u) r.val e rd self =
    if (ringOf s.dev (4 + r.val)).begun
    then entryDone (consumed (s.at u) (4 + r.val)) (4 + r.val) (entryIndex (s.at u) (4 + r.val)) stStale 0 (enHeat e) 0 0
    else park (s.at u) (4 + r.val) self false := by
  rw [linesCommand_none ready shape (by rwa [heatPast_of_heats (at_heats s u)]) (by rwa [findHeat_of_heats (at_heats s u)]),
    at_ringBegun]

theorem lines_wait (fresh : (ringOf s.dev (4 + r.val)).begun = false) :
    AnswersButReports s (.lines u r e rd) (setRing (s.at u) (4 + r.val) { ringOf s.dev (4 + r.val) with
      parked := some (.lines 0 r e rd), begun := false, at0 := ringCons s.dev (4 + r.val), stale := false }) := by
  have parks := answers_lines s u r e rd
  rw [at_linesCommand_none ready shape past heat, fresh, if_neg (by decide)] at parks
  exact answers_same parks (same_park s u _ _ _)

theorem lines_discarded (begun : (ringOf s.dev (4 + r.val)).begun = true) :
    AnswersButReports s (.lines u r e rd) (consumed (s.at u) (4 + r.val)) := by
  have stale := answers_lines s u r e rd
  rw [at_linesCommand_none ready shape past heat, begun, if_pos rfl] at stale
  exact answers_same stale (same_entryDone _ _ _ _ _ _ _ _ (by omega))

end

end

/-- Settles O29: LINES that are stored and that have all fired, and those whose heat is not open. -/
theorem lines : Obligations.Lines := by
  unfold Obligations.Lines
  intro s u r e rd ready shape plain past
  refine ⟨fun h p bs heat pass ring length => ⟨fun ahead last fresh ok whole => ?_, fun fired read => ?_⟩,
    fun heat => lines_wait ready shape past heat, fun heat => lines_discarded ready shape past heat⟩
  · subst ok
    have some1 : 1 ≤ byteField e 24 2 := by
      simp only [linesShape, Bool.and_eq_true, decide_eq_true_eq] at shape
      exact shape.1.2.1
    have read : HostRead.ok bs ≠ .waiting := by simp
    refine lines_leave ready shape heat pass read ?_ (linesData_stores plain ring length some1 ahead last fresh whole)
    exact congrArg (updHeat · h.number _) (taken_out (s.at u) (4 + r.val) e (.ok bs))
  · exact lines_leave ready shape heat pass read (taken_out _ _ _ _) (linesData_fired plain ring length fired)

end Sys2Proof.Proofs
end

section
/-! What a record does on a ring of any number, and how an island of the running heat ends (R106, R115). -/
namespace Sys2Proof.Proofs
open Sys2Proof.Machine Sys2Proof.Laws

/-! ### Changes of register words and reports -/

/-- `e` is `d` but for register words and reports. -/
def SameBesideWords (d e : Dev) : Prop := SameButReports { d with regs := e.regs } e

theorem SameBesideWords.of_same {d e : Dev} (h : SameButReports d e) : SameBesideWords d e :=
  { h with regs := sameRegs_refl _ }

theorem SameBesideWords.trans {d e f : Dev} (h : SameBesideWords d e) (k : SameBesideWords e f) : SameBesideWords d f := by
  have first : SameButReports { d with regs := f.regs } { e with regs := f.regs } := { h with regs := sameRegs_refl _ }
  exact same_trans first k

theorem SameBesideWords.setRun {d e : Dev} (h : SameBesideWords d e) (x : Run) :
    SameBesideWords (setRun d x) (setRun e x) := by
  have heats : e.heats = d.heats := h.heats
  unfold SameBesideWords Machine.setRun
  rw [heats]
  exact { h with heats := rfl }

theorem besideWords_setReg (d : Dev) (p off v : Nat) : SameBesideWords d (d.setReg p off v) := same_refl _

/-- A record that its ring has no room for, whatever the ring: the count of its page is no report beyond ring 63 (R585). -/
theorem besideWords_ringLost (d : Dev) (r : Nat) : SameBesideWords d (ringLost d r) := by
  have drop (x : Dev) (k : Nat) : SameBesideWords x (countDrop x k).1 :=
    (besideWords_setReg _ _ _ _).trans (.of_same (same_setPen _ _ _))
  unfold ringLost
  dsimp only
  split
  · exact (drop d r).trans (.of_same (same_reportVia quiet_deliverPlain _ _ _ _ _ _ (by decide)))
  · exact drop d r

theorem besideWords_emitShared (d : Dev) (r : Nat) (kind : RecKind) (data : Nat) : SameBesideWords d (emitShared d r kind data) := by
  unfold emitShared
  split
  · unfold emit
    dsimp only
    split
    · exact .trans (.of_same (same_enqueue _ _ _)) (besideWords_ringLost _ _)
    · exact .of_same (same_enqueue _ _ _)
  · exact .of_same (same_keep _ _)

/-! ### The end of an island -/

/-- The run with one more island in a final state. -/
def endedRun (final : Nat) (x : Run) (key : Nat) : Run :=
  { x.setIsland key { x.island key with state := final, promoted := false } with
    completed := x.completed + 1, stranded := x.stranded + boolNat (final == 5) }

theorem islandDone_besideWords (d : Dev) (x : Run) (key final status : Nat) (station : Option Nat) :
    SameBesideWords (setRun d (endedRun final x key)) (islandDone d x key final status station) := by
  unfold islandDone
  dsimp only
  refine .trans ?_ (.of_same (same_statusReport _ _ _ _))
  split
  · exact besideWords_emitShared _ _ _ _
  · exact .of_same (same_refl _)

theorem endedRun_island (final : Nat) (x : Run) (key k : Nat) :
    ((endedRun final x key).island k).state = if k = key then final else (x.island k).state := by
  have island : (endedRun final x key).island k = if k = key then { x.island key with state := final, promoted := false }
      else x.island k := get_set _ _ _ _ _
  rw [island]
  split <;> rfl

/-- Ending the islands of a list ends exactly those. -/
theorem endedRuns_island (final : Nat) (keys : List Nat) (x : Run) (k : Nat) :
    ((keys.foldl (endedRun final) x).island k).state = if k ∈ keys then final else (x.island k).state := by
  induction keys generalizing x with
  | nil => simp
  | cons key t ih =>
    rw [List.foldl_cons, ih, endedRun_island]
    by_cases rest : k ∈ t <;> simp [rest]

/-- What the run keeps when islands end: its heat, its stroke and pass, and whether it is abandoned. -/
theorem endedRuns_keep (final : Nat) (keys : List Nat) (x : Run) :
    let y := keys.foldl (endedRun final) x
    y.abandon = x.abandon ∧ y.heat = x.heat ∧ y.stroke = x.stroke ∧ y.pass = x.pass := by
  induction keys generalizing x with
  | nil => exact ⟨rfl, rfl, rfl, rfl⟩
  | cons key t ih => exact ih (endedRun final x key)

end Sys2Proof.Proofs
end

section
/-! ABANDON and the stall limit (R158, R159). -/
namespace Sys2Proof.Proofs
open Sys2Proof.Machine Sys2Proof.Laws

/-- A command that raises a pennant, and but for that and its reports leaves `d`. -/
theorem answers_raise {s : State} {i : Instr} {d : Dev} {p b cls sev code payload : Nat}
    (h : AnswersButReports s i (raise d p b cls sev code payload)) (hb : b < 32) (hc : cls < 8) :
    Answers s i fun t => t.nv = s.nv ∧ t.dev.pennant p b = true ∧ SameButReports d t.dev :=
  answers_mono h fun _ ⟨nv, same⟩ =>
    ⟨nv, pennant_of_same same (pennant_raised d hb hc), same_trans (same_raise _ _ _ _ _ _ _ hc) same⟩

/-! ### ABANDON -/

/-- The islands of a list end ABANDONED one after another (R158). -/
theorem abandonIslands_besideWords (keys : List Nat) {d : Dev} {x : Run} (running : d.heats.running = some x) :
    SameBesideWords (setRun d (keys.foldl (endedRun 6) x)) (abandonIslands d keys) := by
  induction keys generalizing d x with
  | nil =>
    have own : setRun d x = d := by rw [setRun, ← running]
    rw [List.foldl_nil, own]
    exact .of_same (same_refl d)
  | cons k t ih =>
    have step : abandonIslands d (k :: t) = abandonIslands (islandDone d x k 6 stAbandoned none) t := by
      simp only [abandonIslands, List.foldl_cons, running]
    have ended := islandDone_besideWords d x k 6 stAbandoned none
    have next : (islandDone d x k 6 stAbandoned none).heats.running = some (endedRun 6 x k) := congrArg Heats.running ended.heats
    rw [step]
    exact (ended.setRun _).trans (ih next)

/-- The run once ABANDON has taken effect. -/
def abandonedRun (x : Run) : Run := x.ready.foldl (endedRun 6) { x with abandon := true }

theorem abandonHeat_idle {d : Dev} (idle : d.heats.running = none) :
    abandonHeat d = raise d pageSch 5 clsProcess sevNotice 0x0405 (pay 0 0 0 0) := by
  rw [abandonHeat, idle]

theorem abandonHeat_effect {d : Dev} {x : Run} (running : d.heats.running = some x) :
    (abandonHeat d).pennant pageSch 5 = true ∧ SameBesideWords (setRun d (abandonedRun x)) (abandonHeat d) := by
  have ended : SameBesideWords (setRun d (abandonedRun x)) (abandonIslands (setRun d { x with abandon := true }) x.ready) :=
    abandonIslands_besideWords (d := setRun d { x with abandon := true }) x.ready rfl
  rw [abandonHeat, running]
  exact ⟨pennant_raised _ (by decide) (by decide), ended.trans (.of_same (same_raise _ _ _ _ _ _ _ (by decide)))⟩

theorem answers_abandon {s : State} (computes : s.dev.computes = true) : AnswersButReports s .schRunAbandon (abandonHeat s.now) := by
  have h := answers_schRunAbandon s
  rwa [if_pos (by exact computes)] at h

theorem schRunAbandon_running {s : State} (computes : s.dev.computes = true) {x : Run} (running : s.dev.heats.running = some x) :
    Answers s .schRunAbandon fun t =>
      t.nv = s.nv ∧ t.dev.pennant pageSch 5 = true ∧ t.dev.stations = s.dev.stations ∧ t.dev.stp = s.dev.stp ∧
      (∃ y, t.dev.heats.running = some y ∧ y.abandon = true ∧ y.heat = x.heat ∧ y.stroke = x.stroke ∧ y.pass = x.pass ∧
        (∀ k, k ∈ x.ready → (y.island k).state = 6) ∧ ∀ k, k ∉ x.ready → (y.island k).state = (x.island k).state) := by
  refine answers_mono (answers_abandon computes) fun t ⟨nv, same⟩ => ?_
  obtain ⟨pen, ended⟩ := abandonHeat_effect (d := s.now) running
  have after := ended.trans (.of_same same)
  obtain ⟨abandon, heat, stroke, pass⟩ := endedRuns_keep 6 x.ready { x with abandon := true }
  refine ⟨nv, pennant_of_same same pen, after.stations, after.stp, abandonedRun x, congrArg Heats.running after.heats,
    abandon, heat, stroke, pass, fun k ready => ?_, fun k other => ?_⟩
  · rw [abandonedRun, endedRuns_island, if_pos ready]
  · rw [abandonedRun, endedRuns_island, if_neg other]
    rfl

/-! ### The stall limit -/

/-- The count of stalled cycles begins again. -/
def stallAfresh (d : Dev) : Dev := { d with sched := { d.sched with stall := 0, failBase := failCounts d } }

theorem stalled_due {d : Dev} {x : Run} (running : d.running = true) (holds : d.holds = true) (limit : 1 ≤ d.fld pageSch 0x054 0 32)
    (reached : d.fld pageSch 0x054 0 32 ≤ d.sched.stall) (drain : d.flag pageSch 0x040 0 = false)
    (heat : d.heats.running = some x) (ready : x.ready ≠ []) :
    ∃ payload, stalled d = raise (stallAfresh d) pageSch 1 clsProcess sevWarning 0x0402 payload := by
  unfold stalled
  dsimp only
  rw [if_pos]
  · exact ⟨_, rfl⟩
  · simp [running, holds, reached, draining, drain, heat, ready, Nat.ne_of_gt limit]

theorem stalled_below {d : Dev} (h : d.sched.stall < d.fld pageSch 0x054 0 32 ∨ d.heats.running = none) : stalled d = d := by
  unfold stalled
  dsimp only
  rw [if_neg]
  rcases h with below | idle
  · simp [Nat.not_le.mpr below]
  · simp [idle]

end Sys2Proof.Proofs
end

section
/-! Prefetch, stale loops and holds of a station (R151, R194, R226). -/
namespace Sys2Proof.Proofs
open Sys2Proof.Machine Sys2Proof.Laws

/-! ### Prefetch -/

theorem prefetch_loads {d : Dev} {n : Nat} (island : (stationOf d n).island.isSome = true)
    (left : (stationOf d n).loaded < (islandPoursOf d n).length) (room : (stationOf d n).loaded - (stationOf d n).pour < 256) :
    prefetch d n = setStation d n { stationOf d n with loaded := (stationOf d n).loaded + 1 } := by
  unfold prefetch
  dsimp only
  rw [if_pos (by simp [island, left, room])]

theorem prefetch_rests {d : Dev} {n : Nat}
    (h : (islandPoursOf d n).length ≤ (stationOf d n).loaded ∨ 256 ≤ (stationOf d n).loaded - (stationOf d n).pour) :
    prefetch d n = d := by
  unfold prefetch
  dsimp only
  rw [if_neg]
  simp only [Bool.and_eq_true, decide_eq_true_eq]
  omega

/-! ### Stale loops -/

/-- The station whose power loop starts again. -/
def restartedLoop (d : Dev) (n : Nat) (p : BitVec 256) : Station :=
  { stationOf d n with
    openCycles := 0
    kCam := if d.fld (pageStn n) 0x048 1 1 = 1 then profileReg d n (pourProfile p) 12 0 16 else (stationOf d n).kCam }

theorem staleLoop_due {d : Dev} {n : Nat} {p : BitVec 256} (computes : d.computes = true)
    (pour : (islandPoursOf d n)[(stationOf d n).pour]? = some p) (loop : d.flag (pageStn n) 0x048 0 = true)
    (stale : 8 * d.fld (pageStn n) 0x124 0 8 ≤ (stationOf d n).openCycles) :
    staleLoop d n = raise (setStation d n (restartedLoop d n p)) (pageStn n) 3 clsProcess sevWarning 0x0533
      (pay n (d.fld (pageStn n) 0x048 1 1) 0 0) := by
  unfold staleLoop
  dsimp only
  rw [pour]
  dsimp only
  rw [if_pos (by simp [computes, loop, stale])]
  rfl

/-! ### Holds -/

theorem at_stationOf (s : State) (u n : Nat) : stationOf (s.at u) n = stationOf s.dev n :=
  stationOf_of_stations (arrive_stations s.now u) n

theorem at_islandPoursOf (s : State) (u n : Nat) : islandPoursOf (s.at u) n = islandPoursOf s.dev n := by
  unfold islandPoursOf
  rw [at_heats, at_stationOf]

theorem resumeStation_waits {d : Dev} {n : Nat} (h : mayResume d n = false) : resumeStation d n = d := by
  unfold resumeStation
  dsimp only
  rw [if_neg (by simp [h])]

/-- A station that may resume jumps towards its pour and holds no longer (R151). -/
theorem resumeStation_resumes {d : Dev} {n : Nat} {p : BitVec 256} {c : HoldCause} (computes : d.computes = true)
    (pour : (islandPoursOf d n)[(stationOf d n).pour]? = some p) (motion : (stationOf d n).motion = 5)
    (holding : (stationOf d n).holding = true) (path : (stationOf d n).path = none) (hold : (stationOf d n).hold = some c)
    (cause : c ≠ .starved) (may : mayResume d n = true) :
    ∃ x : Station, x.hold = none ∧ resumeStation d n = setStation d n x := by
  unfold resumeStation
  dsimp only
  rw [if_pos (by simp [computes, motion, holding, path, hold, cause, may]), pour]
  exact ⟨_, rfl, rfl⟩

section
variable {s : State} {n : Fin 32} {p : BitVec 256} {c : HoldCause}

theorem holdResume_resumes (computes : s.dev.computes = true)
    (pour : (islandPoursOf s.dev n.val)[(stationOf s.dev n.val).pour]? = some p) (motion : (stationOf s.dev n.val).motion = 5)
    (holding : (stationOf s.dev n.val).holding = true) (path : (stationOf s.dev n.val).path = none)
    (hold : (stationOf s.dev n.val).hold = some c) (cause : c ≠ .starved) (may : mayResume (s.at 300) n.val = true) :
    Answers s (.holdResume n) fun t =>
      t.nv = s.nv ∧ (stationOf t.dev n.val).hold = none ∧ (∀ k, k ≠ n.val → stationOf t.dev k = stationOf s.dev k) ∧
      t.dev.heats = s.dev.heats ∧ t.dev.ladle = s.dev.ladle := by
  have resumes := resumeStation_resumes (d := s.at 300) (n := n.val) (p := p) (c := c)
  rw [computes_at, at_islandPoursOf, at_stationOf] at resumes
  obtain ⟨x, free, hx⟩ := resumes computes pour motion holding path hold cause may
  refine answers_mono (answers_holdResume s n) fun t ⟨nv, same⟩ => ?_
  rw [hx] at same
  have station (k : Nat) : stationOf t.dev k = stationOf (setStation (s.at 300) n.val x) k := stationOf_of_stations same.stations k
  refine ⟨nv, ?_, fun k other => ?_, same.heats.trans (at_heats s 300), same.ladle.trans (arrive_ladle s.now 300)⟩
  · rw [station, stationOf_own, free]
  · rw [station, stationOf_other other, at_stationOf]

theorem holdResume_waits (may : mayResume (s.at 300) n.val = false) : AnswersButReports s (.holdResume n) (s.at 300) := by
  have h := answers_holdResume s n
  rwa [resumeStation_waits may] at h

end

end Sys2Proof.Proofs
end

section
/-! Trace channels (R271, R272), and with them O34. -/
namespace Sys2Proof.Proofs
open Sys2Proof.Machine Sys2Proof.Laws

/-! ### Trace channels -/

theorem traceOf_setTrace (d : Dev) (c k : Nat) (x : Trace) :
    traceOf (setTrace d c x) k = if k = c then x else traceOf d k := get_set _ _ _ _ _

theorem traceOf_of_traces {d e : Dev} (h : e.traces = d.traces) (c : Nat) : traceOf e c = traceOf d c := by
  rw [traceOf, h, traceOf]

/-- `e` is `d` but for the channels of `mask` below `n`, which are as `f` makes them. -/
def TracesSet (mask : Nat) (f : Trace → Trace) (d : Dev) (n : Nat) (e : Dev) : Prop :=
  e = { d with traces := e.traces } ∧
    ∀ c, traceOf e c = if c < n ∧ bit mask c = true then f (traceOf d c) else traceOf d c

theorem TracesSet.round {mask : Nat} {f : Trace → Trace} {d e : Dev} {n : Nat} (h : TracesSet mask f d n e) :
    TracesSet mask f d (n + 1) (if bit mask n = true then setTrace e n (f (traceOf e n)) else e) := by
  obtain ⟨frame, traces⟩ := h
  have own : traceOf e n = traceOf d n := by simp [traces]
  have below (c : Nat) (other : c ≠ n) : c < n + 1 ↔ c < n := by omega
  split
  case isTrue set =>
    refine ⟨congrArg (setTrace · n _) frame, fun c => ?_⟩
    rw [traceOf_setTrace, own]
    by_cases here : c = n
    · simp [here, set]
    · simp only [if_neg here, traces, below c here]
  case isFalse unset =>
    refine ⟨frame, fun c => ?_⟩
    by_cases here : c = n
    · simp [here, unset, own]
    · simp only [traces, below c here]

/-- A channel as SRV_TRACE_ARM leaves it in cycle `cycle`. -/
def armedTrace (cycle : Nat) (x : Trace) : Trace := { armed := true, armedAt := cycle, gap := x.gap, told := x.told }
/-- A channel that SRV_TRACE_FIRE triggers. -/
def firedTrace (x : Trace) : Trace := { x with fireNow := true }

theorem tracesSet_zero (mask : Nat) (f : Trace → Trace) (d : Dev) : TracesSet mask f d 0 d :=
  ⟨rfl, fun c => by simp⟩

theorem armTraces_sets (d : Dev) (mask : Nat) : TracesSet mask (armedTrace d.cycle) d 16 (armTraces d mask) := by
  refine upto_induct (TracesSet mask (armedTrace d.cycle) d) (tracesSet_zero _ _ _) fun c e _ h => ?_
  have cycle : e.cycle = d.cycle := by rw [h.1]; rfl
  rw [← cycle] at h ⊢
  exact h.round

theorem fireTraces_sets (d : Dev) (mask : Nat) : TracesSet mask firedTrace d 16 (fireTraces d mask) :=
  upto_induct (TracesSet mask firedTrace d) (tracesSet_zero _ _ _) fun _ _ _ h => h.round

/-- A command that sets the channels of `mask` does that alone. -/
theorem answers_tracesSet {s : State} {i : Instr} {mask : Nat} {f : Trace → Trace} {e : Dev}
    (h : AnswersButReports s i e) (set : TracesSet mask f s.now 16 e) :
    Answers s i fun t => t.nv = s.nv ∧
      (∀ c, traceOf t.dev c = if c < 16 ∧ bit mask c = true then f (traceOf s.dev c) else traceOf s.dev c) ∧
      SameButReports { s.now with traces := t.dev.traces } t.dev := by
  obtain ⟨frame, traces⟩ := set
  refine answers_mono h fun t ⟨nv, answer⟩ => ⟨nv, fun c => ?_, ?_⟩
  · exact (traceOf_of_traces answer.traces c).trans (traces c)
  · rw [answer.traces, ← frame]
    exact answer

theorem answers_traceArm {s : State} (computes : s.dev.computes = true) (mask : Word) :
    AnswersButReports s (.srvTraceArm mask) (armTraces s.now mask.toNat) := by
  have h := answers_srvTraceArm s mask
  rwa [if_pos (by exact computes)] at h

theorem answers_traceFire {s : State} (computes : s.dev.computes = true) (mask : Word) :
    AnswersButReports s (.srvTraceFire mask) (fireTraces s.now mask.toNat) := by
  have h := answers_srvTraceFire s mask
  rwa [if_pos (by exact computes)] at h

/-- Settles O34: each command by the lemma on its operation. -/
theorem dispatcher : Obligations.Dispatcher := by
  unfold Obligations.Dispatcher
  refine ⟨⟨fun s => ⟨?_, fun h => ?_⟩, fun s computes => ⟨fun idle => ?_, fun x running => ?_⟩,
    fun s n island => ⟨fun left room => ?_, fun h => ?_⟩, ?_, ?_⟩, fun s mask computes => ⟨?_, ?_⟩⟩
  · rintro running holds limit reached drain ⟨x, heat, ready⟩
    have answer := answers_dispatchStalled s
    obtain ⟨payload, due⟩ := stalled_due (d := s.now) running holds limit reached drain heat ready
    rw [due] at answer
    exact answers_raise answer (by decide) (by decide)
  · have answer := answers_dispatchStalled s
    rwa [stalled_below (d := s.now) h] at answer
  · have answer := answers_abandon computes
    rw [abandonHeat_idle (d := s.now) idle] at answer
    exact answers_raise answer (by decide) (by decide)
  · exact schRunAbandon_running computes running
  · have answer := answers_pourPrefetch s n
    rwa [prefetch_loads (d := s.now) island left room] at answer
  · have answer := answers_pourPrefetch s n
    rwa [prefetch_rests (d := s.now) h] at answer
  · intro s n p computes pour loop stale
    have answer := answers_loopStale s n
    rw [staleLoop_due (d := s.now) computes pour loop stale] at answer
    exact answers_raise answer (by decide) (by decide)
  · intro s n p c computes pour motion holding path hold cause
    exact ⟨holdResume_resumes computes pour motion holding path hold cause, holdResume_waits⟩
  · exact answers_tracesSet (answers_traceArm computes mask) (armTraces_sets s.now mask.toNat)
  · exact answers_tracesSet (answers_traceFire computes mask) (fireTraces_sets s.now mask.toNat)

end Sys2Proof.Proofs
end

section
/-! The power test of a pending pass (R168 to R171). -/
namespace Sys2Proof.Proofs
open Sys2Proof.Machine Sys2Proof.Laws

/-! ### What arriving leaves of the ladle -/

section
variable (s : State) (u : Nat)

theorem at_ladleCanReserve (need : Nat) : ladleCanReserve (s.at u) need = ladleCanReserve s.dev need := by
  have alike : Alike { s.now with tick := max s.now.tick (s.now.cycle * 1250 + min u 1249) } (s.at u) :=
    alike_of_same (same_arrive s.now u)
  exact alike.ladleCanReserve need

theorem at_setRun (x : Run) : setRun (s.at u) x = { s.at u with heats := { s.dev.heats with running := some x } } := by
  rw [setRun, at_heats]

end

/-! ### What the ladle can reserve (R166) -/

section
variable {d : Dev} {need : Nat}

theorem ladleCanReserve_disabled (off : d.enabled pageLdl = false) : ladleCanReserve d need = true := by
  simp [ladleCanReserve, off]

theorem ladleCanReserve_of_fits (level : d.ladle.short = false) (fits : ladleHeld d + need ≤ ladleBudget d) :
    ladleCanReserve d need = true := by
  simp [ladleCanReserve, level, fits]

theorem ladleCanReserve_of_full (on : d.enabled pageLdl = true) (full : d.ladle.short = true ∨ ladleBudget d < ladleHeld d + need) :
    ladleCanReserve d need = false := by
  rcases full with short | beyond
  · simp [ladleCanReserve, on, short]
  · simp [ladleCanReserve, on, beyond]

/-- A need beyond the whole budget cannot be reserved, whatever is held (R171). -/
theorem ladleCanReserve_of_beyond (on : d.enabled pageLdl = true) (beyond : ladleBudget d < need) : ladleCanReserve d need = false :=
  ladleCanReserve_of_full on (.inr (Nat.lt_add_left _ beyond))

end

/-! ### The test of the pass whose turn it is -/

/-- The run whose return stroke begins in the next cycle. -/
def strokeNext (d : Dev) (x : Run) : Run := { x with strokeAt := some (d.cycle + 1) }

theorem at_strokeNext (s : State) (u : Nat) (x : Run) : strokeNext (s.at u) x = strokeNext s.dev x := by
  rw [strokeNext, at_cycle, strokeNext]

/-- The pass `e` is refused, and its return stroke begins in the next cycle (R171). -/
def refusePass (d : Dev) (x : Run) (e : Entry) : Dev :=
  raise (setRun d { strokeNext d x with passRefused := true }) pageLdl 2 clsProcess sevFault 0x0412 (pay (psIndex e) 0 0 (psNeed e))

section
variable {d : Dev} {x : Run} {e : Entry} (running : d.heats.running = some x) (header : x.header = some e)
  (pending : x.passPending = true) (unset : x.strokeAt = none)
include running header pending unset

/-- The pass goes on where the ladle can reserve its need, is refused where the budget alone cannot, and waits else (R170, R171). -/
theorem passTest_pending : passTest d =
    if ladleCanReserve d (psNeed e) = true then setRun d (strokeNext d x)
    else if ladleBudget d < psNeed e then refusePass d x e else d := by
  have due : (x.passPending && x.strokeAt.isNone) = true := by rw [pending, unset]; rfl
  unfold passTest
  rw [running]
  dsimp only
  rw [header]
  dsimp only
  rw [if_pos due]
  cases on : d.enabled pageLdl
  case false => rw [if_pos (by decide), if_pos (ladleCanReserve_disabled on)]; rfl
  case true =>
    have can : ladleCanReserve d (psNeed e) = (!d.ladle.short && decide (ladleHeld d + psNeed e ≤ ladleBudget d)) := by
      rw [ladleCanReserve, on]; rfl
    rw [if_neg (by decide), ← can]
    by_cases beyond : ladleBudget d < psNeed e
    · rw [if_pos beyond, if_pos beyond, if_neg (by simp [ladleCanReserve_of_beyond on beyond])]
      rfl
    · rw [if_neg beyond, if_neg beyond]
      rfl

end

/-! ### The command -/

section
variable {s : State}

theorem answers_passTest_now (computes : s.dev.computes = true) (early : s.dev.tick % 1250 ≤ 750) :
    AnswersButReports s .passTest (passTest (s.at 300)) := by
  have h := answers_passTest s
  have inTime : (s.now.computes && decide (s.now.tick % 1250 ≤ 750)) = true := by
    rw [Bool.and_eq_true, decide_eq_true_eq]
    exact ⟨computes, early⟩
  rwa [passTestNow, if_pos inTime] at h

variable {x : Run} {e : Entry} (running : s.dev.heats.running = some x) (header : x.header = some e)
  (pending : x.passPending = true) (unset : x.strokeAt = none)
  (computes : s.dev.computes = true) (early : s.dev.tick % 1250 ≤ 750)
include running header pending unset computes early

/-- What the ladle holds and can reserve at the test is what it holds and can reserve when the command comes. -/
theorem answers_passTest_pending :
    AnswersButReports s .passTest (
      if ladleCanReserve s.dev (psNeed e) = true then setRun (s.at 300) (strokeNext s.dev x)
      else if ladleBudget s.dev < psNeed e then refusePass (s.at 300) x e else s.at 300) := by
  have h := answers_passTest_now computes early
  rwa [passTest_pending (by rw [at_heats, running]) header pending unset, at_ladleCanReserve,
    ladleBudget_of_prior (prior_at s 300), at_strokeNext] at h

theorem answers_passTest_reserves (can : ladleCanReserve s.dev (psNeed e) = true) :
    AnswersButReports s .passTest { s.at 300 with heats := { s.dev.heats with running := some (strokeNext s.dev x) } } := by
  have h := answers_passTest_pending running header pending unset computes early
  rwa [if_pos can, at_setRun] at h

theorem answers_passTest_refuses (on : s.dev.enabled pageLdl = true) (beyond : ladleBudget s.dev < psNeed e) :
    Answers s .passTest fun t => t.nv = s.nv ∧ t.dev.pennant pageLdl 2 = true ∧
      SameButReports { s.at 300 with
        heats := { s.dev.heats with running := some { strokeNext s.dev x with passRefused := true } } } t.dev := by
  have h := answers_passTest_pending running header pending unset computes early
  rw [if_neg (by simp [ladleCanReserve_of_beyond on beyond]), if_pos beyond, refusePass, at_setRun, at_strokeNext] at h
  exact answers_raise h (by decide) (by decide)

theorem answers_passTest_waits (within : psNeed e ≤ ladleBudget s.dev) (full : ladleCanReserve s.dev (psNeed e) = false) :
    AnswersButReports s .passTest (s.at 300) := by
  have h := answers_passTest_pending running header pending unset computes early
  rwa [if_neg (by simp [full]), if_neg (Nat.not_lt.mpr within)] at h

end

end Sys2Proof.Proofs
end

section
/-! The end of a pass and the release of its power (R167, R354), and with them O33. -/
namespace Sys2Proof.Proofs
open Sys2Proof.Machine Sys2Proof.Laws

/-! ### The end of a pass (R354) -/

/-- The run once the pass `f` has ended: the next pass has its turn. -/
def passEnded (d : Dev) (f : Firing) (x : Run) : Run :=
  { x with
    pass := x.pass + 1, passFreeAt := some (d.cycle + 1), passRefused := false
    fired := if f.refused then x.fired else x.fired + 1 }

/-- The device once the pass `f` has ended without a gap: its lines have left the chip. -/
def passClosed (d : Dev) (f : Firing) (x : Run) : Dev :=
  { d.setFld pageLhd 0x060 0 16 0 with
    lhd := { d.lhd with firing := none, slots := [] }
    heats := { d.heats with running := some (passEnded d f x) } }

theorem at_lhd (s : State) (u : Nat) : (s.at u).lhd = s.dev.lhd := arrive_lhd s.now u

theorem tailGaps_none {d : Dev} {f : Firing} (all : psLines f.header + 8 ≤ f.next) : tailGaps d f = d := if_pos all

section
variable {d : Dev} {f : Firing} {x : Run} (firing : d.lhd.firing = some f) (running : d.heats.running = some x)
include firing running

/-- A pass of which every strobe was computed and every late line patched leaves no gap when it ends. -/
theorem endPass_over (computes : d.computes = true) (past : passOver d f = true) (patched : f.unpatched = [])
    (all : psLines f.header + 8 ≤ f.next) : endPass d = passClosed d f x := by
  have due : (d.computes && passOver d f) = true := by rw [computes, past]; rfl
  unfold endPass
  rw [firing, running]
  dsimp only
  rw [if_pos due, patched]
  cases d.lhd.history
  all_goals
    simp only [List.foldl_nil, tailGaps_none all, setFld_heats, running]
    rfl

theorem endPass_rests (h : d.computes = false ∨ passOver d f = false) : endPass d = d := by
  simp only [endPass, firing, running]
  rw [if_neg]
  rcases h with h | h <;> simp [h]

end

section
variable {s : State} {u : Nat} {f : Firing} {x : Run} (firing : s.dev.lhd.firing = some f) (running : s.dev.heats.running = some x)
include firing running

theorem answers_passEnd_over (computes : s.dev.computes = true) (past : passOver (s.at u) f = true) (patched : f.unpatched = [])
    (all : psLines f.header + 8 ≤ f.next) :
    AnswersButReports s (.passEnd u) { (s.at u).setFld pageLhd 0x060 0 16 0 with
      lhd := { s.dev.lhd with firing := none, slots := [] }
      heats := { s.dev.heats with running := some (passEnded s.dev f x) } } := by
  have h := answers_passEnd s u
  rwa [endPass_over (by rw [at_lhd, firing]) (by rw [at_heats, running]) ((computes_at s u).trans computes) past patched all,
    passClosed, at_lhd, at_heats, passEnded, at_cycle] at h

theorem answers_passEnd_rests (h : s.dev.computes = false ∨ passOver (s.at u) f = false) :
    AnswersButReports s (.passEnd u) (s.at u) := by
  have answer := answers_passEnd s u
  rwa [endPass_rests (by rw [at_lhd, firing]) (by rw [at_heats, running]) (by rwa [computes_at])] at answer

end

/-! ### The release of its power (R167) -/

theorem passFree_eq {d : Dev} {x : Run} {c : Nat} (running : d.heats.running = some x) (freeAt : x.passFreeAt = some c) :
    passFree d = if c ≤ d.cycle then setRun (releasePower d passHolder) { x with passHeld := false, passFreeAt := none } else d := by
  simp only [passFree, running, freeAt]

/-- Settles O33: each outcome of the test by what the ladle can reserve, the pass's end and the release by their operations. -/
theorem passes : Obligations.Passes := by
  unfold Obligations.Passes
  refine ⟨fun s x e running header pending unset computes early => ⟨fun off => ?_, ?_, fun _ _ level fits => ?_,
    fun on within full => ?_⟩, fun s u f x firing running => ⟨fun computes past patched all => ?_, fun h => ?_⟩,
    fun d x c running freeAt => passFree_eq running freeAt⟩
  · exact answers_passTest_reserves running header pending unset computes early (ladleCanReserve_disabled off)
  · exact answers_passTest_refuses running header pending unset computes early
  · exact answers_passTest_reserves running header pending unset computes early (ladleCanReserve_of_fits level fits)
  · exact answers_passTest_waits running header pending unset computes early within (ladleCanReserve_of_full on full)
  · exact answers_passEnd_over firing running computes past patched all
  · exact answers_passEnd_rests firing running h

end Sys2Proof.Proofs
end

section
/-! Frames that the partners send up (R515 to R521, R492): O38. -/
namespace Sys2Proof.Proofs
open Sys2Proof.Machine Sys2Proof.Laws

/-! ### Words and fields that reports leave -/

/-- On the pages past the rings' reporting writes the pennants alone. -/
theorem reportWord_far {p off : Nat} (far : 0x05F < p) (ho : off < 4096) (pen : off ≠ 0x010) : reportWord (wordAddr p off) = false := by
  have page : wordAddr p off / 4096 = p := wordAddr_page ho
  have place : wordAddr p off % 4096 = off := wordAddr_offset ho
  simp only [reportWord, page, place, Bool.or_eq_false_iff, Bool.and_eq_false_iff, beq_eq_false_iff_ne, decide_eq_false_iff_not]
  simp only [wordAddr, pageEvq]
  omega

theorem rfld_of_same {d e : Dev} (h : SameButReports d e) {p off : Nat} (lo w : Nat) (silent : reportWord (wordAddr p off) = false) :
    e.rfld p off lo w = d.rfld p off lo w := by rw [Dev.rfld, h.regs.read _ silent, Dev.rfld]

theorem fld_of_same {d e : Dev} (h : SameButReports d e) {p off : Nat} (lo w : Nat) (silent : reportWord (wordAddr p off) = false) :
    e.fld p off lo w = d.fld p off lo w := by rw [Dev.fld, h.regs.inUse _ silent, Dev.fld]

theorem at_rfld (s : State) (u lo w : Nat) {p off : Nat} (silent : reportWord (wordAddr p off) = false) :
    (s.at u).rfld p off lo w = s.dev.rfld p off lo w := by rw [Dev.rfld, at_read s u silent, Dev.rfld]

theorem at_fld (s : State) (u lo w : Nat) {p off : Nat} (silent : reportWord (wordAddr p off) = false) :
    (s.at u).fld p off lo w = s.dev.fld p off lo w := by rw [Dev.fld, at_inUse s u silent, Dev.fld]

/-- A word that the device writes whole reads as written. -/
theorem setReg_rfld_own (d : Dev) (p off : Nat) {v : Nat} (hv : v < 2 ^ 32) : (d.setReg p off v).rfld p off 0 32 = v := by
  rw [Dev.rfld, setReg_read, if_pos rfl, bits_whole, toNat_word hv]

theorem count_rfld (d : Dev) (p off : Nat) : (d.count p off).rfld p off 0 32 = min (d.rfld p off 0 32 + 1) 0xFFFFFFFF :=
  setReg_rfld_own d p off (by omega)

/-- A pennant that is set reads as set (R36). -/
theorem pennant_setPen (d : Dev) (p : Nat) {b : Nat} (hb : b < 32) : (setPen d p b).pennant p b = true := by
  have field : (d.setFld p 0x010 b 1 1).pennant p b = true := by
    rw [Dev.pennant, setFld_read, if_pos rfl, setBits_one _ _ hb, bit, BitVec.toNat_or, Nat.testBit_or, testBit_word,
      Nat.testBit_two_pow_self, decide_eq_true hb, Bool.and_true, Bool.or_true]
  unfold setPen
  dsimp only
  split <;> exact field

theorem at_laneOf (s : State) (u l : Nat) : laneOf (s.at u) l = laneOf s.dev l := laneOf_of_prior (prior_at s u) l

theorem at_moduleOf (s : State) (u m : Nat) : moduleOf (s.at u) m = moduleOf s.dev m := by rw [moduleOf, at_lhd, moduleOf]

theorem moduleOf_setModule (d : Dev) (m k : Nat) (x : LineModule) :
    moduleOf (setModule d m x) k = if k = m then x else moduleOf d k := get_set _ _ _ _ _

theorem moduleOf_of_lhd {d e : Dev} (h : e.lhd = d.lhd) (m : Nat) : moduleOf e m = moduleOf d m := by rw [moduleOf, h, moduleOf]

/-! ### A partner's reports (R492) -/

/-- `e` is `d` but for what the reports of a partner change: words of PAR's page, the masks of the reports, and reports. -/
structure PartnerNoted (d e : Dev) : Prop where
  same : SameButReports { d with regs := e.regs, par := e.par } e
  read : ∀ a, a / 4096 ≠ pagePar → reportWord a = false → e.regs.read a = d.regs.read a

theorem PartnerNoted.refl (d : Dev) : PartnerNoted d d := ⟨same_refl d, fun _ _ _ => rfl⟩

/-- Registers and PAR's state put into two devices that are the same but for them and for reports. -/
theorem same_regs_par {d e t : Dev} (h : SameButReports { d with regs := e.regs, par := e.par } e)
    (k : SameButReports { e with regs := t.regs, par := t.par } t) : SameButReports { d with regs := t.regs, par := t.par } t :=
  same_trans (b := { e with regs := t.regs, par := t.par }) { h with regs := sameRegs_refl _, par := rfl } k

theorem PartnerNoted.trans {a b c : Dev} (h : PartnerNoted a b) (k : PartnerNoted b c) : PartnerNoted a c :=
  ⟨same_regs_par h.same k.same, fun x page quiet => (k.read x page quiet).trans (h.read x page quiet)⟩

theorem partnerNoted_of_same {d e : Dev} (h : SameButReports d e) : PartnerNoted d e :=
  ⟨{ h with regs := sameRegs_refl _, par := rfl }, fun a _ quiet => h.regs.read a quiet⟩

theorem partnerNoted_setReg (d : Dev) {off : Nat} (v : Nat) (ho : off < 4096) : PartnerNoted d (d.setReg pagePar off v) := by
  refine ⟨same_refl _, fun a page _ => ?_⟩
  rw [setReg_read, if_neg]
  rintro rfl
  exact page (wordAddr_page ho)

theorem partnerNoted_partnerReport (d : Dev) {p : Nat} (hp : p < 48) (noEnsign mismatch conflict : Bool) :
    PartnerNoted d (partnerReport d p noEnsign mismatch conflict) := by
  have pen (e : Dev) (b : Nat) : PartnerNoted e (setPen e pagePar b) := partnerNoted_of_same (same_setPen e pagePar b)
  unfold partnerReport
  extract_lets d1 w d2 d3 x
  have first : PartnerNoted d d1 := by
    unfold d1
    split
    · exact (partnerNoted_setReg d _ (by decide)).trans (pen _ 6)
    · exact .refl d
  have second : PartnerNoted d1 d2 := by
    unfold d2
    split
    · exact (partnerNoted_setReg d1 _ (by omega)).trans (pen _ 5)
    · exact .refl d1
  have third : PartnerNoted d2 d3 := by
    unfold d3
    split
    · exact pen d2 7
    · exact .refl d2
  exact first.trans (second.trans (third.trans ⟨same_refl _, fun _ _ _ => rfl⟩))

/-! ### An uplink frame (R515 to R521) -/

/-- The frame is right: its header, CRC, revision and reserved bits (R515, R516, R520, R521, R523). -/
def UplinkLegal (s : State) (u l count at0 top : Nat) (hdr : BitVec 56) (payload : Nat) (chk : Long) : Prop :=
  uplinkOk (s.at u) l count hdr payload chk = true ∧ bits payload top (64 * count - top) = 0 ∧
    ((laneOf s.dev l).rev = 1 → bits payload at0 5 = 0) ∧ ((laneOf s.dev l).rev ≠ 1 → bits payload at0 2 ≠ 3)

/-- The partner's reports in the frame are noted. -/
def uplinkNoted (d : Dev) (p at0 payload : Nat) : Dev :=
  partnerReport d p (bit payload (at0 + 2)) (bit payload (at0 + 3)) (bit payload (at0 + 4))

section
variable {s : State} {u p l count at0 top payload : Nat} {hdr : BitVec 56} {chk : Long} {f : Dev → Dev}

theorem uplinkFrame_none (lane : partnerLane s.dev p = none) (hp : p < 48) :
    uplinkFrame (s.at u) p count at0 top hdr payload chk f = s.at u := by
  rw [uplinkFrame, partnerLane_of_prior (prior_at s u) hp, lane]

/-- A frame that is not right is a bad one; one that is right is noted, and taken if it is in time. -/
theorem uplinkFrame_some (lane : partnerLane s.dev p = some l) (hp : p < 48)
    [Decidable (UplinkLegal s u l count at0 top hdr payload chk)] :
    uplinkFrame (s.at u) p count at0 top hdr payload chk f =
      if UplinkLegal s u l count at0 top hdr payload chk then
        if (s.at u).tick % 1250 ≤ 300 then f (uplinkNoted (s.at u) p at0 payload) else lateFrame (uplinkNoted (s.at u) p at0 payload) l
      else badFrame (s.at u) l := by
  have legal : UplinkLegal s u l count at0 top hdr payload chk ↔ (uplinkOk (s.at u) l count hdr payload chk &&
      (bits payload top (64 * count - top) == 0 &&
        if (laneOf (s.at u) l).rev = 1 then bits payload at0 5 == 0 else bits payload at0 2 != 3)) = true := by
    rw [UplinkLegal, at_laneOf]
    by_cases rev : (laneOf s.dev l).rev = 1 <;> simp [rev]
  unfold uplinkFrame
  rw [partnerLane_of_prior (prior_at s u) hp, lane]
  dsimp only
  by_cases h : UplinkLegal s u l count at0 top hdr payload chk
  · rw [if_pos h, legal.mp h]
    simp only [Bool.not_true, Bool.false_eq_true, if_false, uplinkInTime, decide_eq_true_eq]
    rfl
  · rw [if_neg h, Bool.eq_false_iff.mpr (mt legal.mpr h)]
    rfl

theorem partnerNoted_uplinkNoted (s : State) (u : Nat) {p : Nat} (hp : p < 48) (at0 payload : Nat) :
    PartnerNoted (s.at u) (uplinkNoted (s.at u) p at0 payload) := partnerNoted_partnerReport _ hp _ _ _

/-- The page of a lane is past the rings' and is not PAR's. -/
theorem reportWord_lane (l : Nat) {off : Nat} (ho : off < 4096) (pen : off ≠ 0x010) :
    reportWord (wordAddr (pageLan l) off) = false ∧ wordAddr (pageLan l) off / 4096 ≠ pagePar := by
  refine ⟨reportWord_far (by unfold pageLan; omega) ho pen, ?_⟩
  rw [wordAddr_page ho]
  unfold pageLan pagePar
  omega

section
variable {i : Instr} (h : AnswersButReports s i (uplinkFrame (s.at u) p count at0 top hdr payload chk f)) (hp : p < 48)
include h hp

theorem answers_uplinkFrame_none (lane : partnerLane s.dev p = none) : AnswersButReports s i (s.at u) := by
  rwa [uplinkFrame_none lane hp] at h

variable (lane : partnerLane s.dev p = some l)
include lane

/-- A right frame in time is noted and taken (R517). -/
theorem answers_uplinkFrame_taken (legal : UplinkLegal s u l count at0 top hdr payload chk) (inTime : (s.at u).tick % 1250 ≤ 300) :
    AnswersButReports s i (f (uplinkNoted (s.at u) p at0 payload)) := by
  classical rwa [uplinkFrame_some lane hp, if_pos legal, if_pos inTime] at h

/-- A right frame past tick 300 is noted and counts as late (R517). -/
theorem answers_uplinkFrame_late (legal : UplinkLegal s u l count at0 top hdr payload chk) (late : 300 < (s.at u).tick % 1250) :
    Answers s i fun t =>
      t.nv = s.nv ∧ t.dev.rfld (pageLan l) 0x070 0 32 = min (s.dev.rfld (pageLan l) 0x070 0 32 + 1) 0xFFFFFFFF ∧
      SameButReports { s.at u with regs := t.dev.regs, par := t.dev.par } t.dev := by
  classical rw [uplinkFrame_some lane hp, if_pos legal, if_neg (Nat.not_le.mpr late), lateFrame] at h
  have noted := partnerNoted_uplinkNoted s u hp at0 payload
  obtain ⟨quiet, page⟩ := reportWord_lane l (off := 0x070) (by decide) (by decide)
  refine answers_mono h fun t ⟨nv, same⟩ => ⟨nv, ?_, ?_⟩
  · rw [rfld_of_same same _ _ quiet, count_rfld, Dev.rfld, noted.read _ page quiet, at_read s u quiet, Dev.rfld]
  · exact same_regs_par noted.same { same with regs := sameRegs_refl _, par := rfl }

/-- A frame that is not right is discarded and counts as bad (R516). -/
theorem answers_uplinkFrame_bad (illegal : ¬ UplinkLegal s u l count at0 top hdr payload chk) :
    Answers s i fun t =>
      t.nv = s.nv ∧ t.dev.rfld (pageLan l) 0x06C 0 32 = min (s.dev.rfld (pageLan l) 0x06C 0 32 + 1) 0xFFFFFFFF ∧
      t.dev.pennant (pageLan l) 4 = true ∧ SameButReports { s.at u with regs := t.dev.regs, lanes := t.dev.lanes } t.dev := by
  classical rw [uplinkFrame_some lane hp, if_neg illegal, badFrame] at h
  obtain ⟨quiet, -⟩ := reportWord_lane l (off := 0x06C) (by decide) (by decide)
  refine answers_mono h fun t ⟨nv, same⟩ => ⟨nv, ?_, pennant_of_same same (pennant_setPen _ _ (by decide)), ?_⟩
  · have counted := count_rfld (s.at u) (pageLan l) 0x06C
    rw [at_rfld s u _ _ quiet] at counted
    rw [rfld_of_same (same_trans (same_setPen _ _ _) same) _ _ quiet, ← counted]
    rfl
  · exact { same_trans (same_setPen _ _ _) same with regs := sameRegs_refl _, lanes := rfl }

end

end

/-! ### The frames of stations and modules -/

theorem modulePartner_lt (m : Fin 16) : modulePartner m.val < 48 := by
  unfold modulePartner
  omega

section
variable {s : State} {u l : Nat} {hdr : BitVec 56} {chk : Long}

theorem stationUplinkFrame_taken {n : Fin 32} {payload : BitVec 256} (lane : partnerLane s.dev n.val = some l)
    (legal : UplinkLegal s u l 4 214 219 hdr payload.toNat chk) (inTime : (s.at u).tick % 1250 ≤ 300) :
    Answers s (.stationUplinkFrame u n hdr payload chk) fun t =>
      t.nv = s.nv ∧ stationOf t.dev n.val = { stationOf s.dev n.val with uplink := some payload } ∧
      (∀ k, k ≠ n.val → stationOf t.dev k = stationOf s.dev k) ∧
      SameButReports { s.at u with regs := t.dev.regs, stations := t.dev.stations, par := t.dev.par } t.dev := by
  have hn : n.val < 48 := by omega
  have noted := partnerNoted_uplinkNoted s u hn 214 payload.toNat
  have before (k : Nat) : stationOf (uplinkNoted (s.at u) n.val 214 payload.toNat) k = stationOf s.dev k :=
    (stationOf_of_stations noted.same.stations k).trans (at_stationOf s u k)
  refine answers_mono (answers_uplinkFrame_taken (answers_stationUplinkFrame s u n hdr payload chk) hn lane legal inTime)
    fun t ⟨nv, same⟩ => ⟨nv, ?_, fun k other => ?_, ?_⟩
  · rw [stationOf_of_stations same.stations, stationOf_own, before]
  · rw [stationOf_of_stations same.stations, stationOf_other other, before]
  · exact same_trans (b := { uplinkNoted (s.at u) n.val 214 payload.toNat with
        regs := t.dev.regs, stations := t.dev.stations, par := t.dev.par })
      { noted.same with regs := sameRegs_refl _, stations := rfl, par := rfl }
      { same with regs := sameRegs_refl _, stations := rfl, par := rfl }

theorem lineHeadUplinkFrame_taken {m : Fin 16} {payload : BitVec 960} (lane : partnerLane s.dev (modulePartner m.val) = some l)
    (legal : UplinkLegal s u l 15 893 898 hdr payload.toNat chk) (inTime : (s.at u).tick % 1250 ≤ 300) :
    Answers s (.lineHeadUplinkFrame u m hdr payload chk) fun t =>
      t.nv = s.nv ∧ moduleOf t.dev m.val = { moduleOf s.dev m.val with up := some payload } ∧
      (∀ k, k ≠ m.val → moduleOf t.dev k = moduleOf s.dev k) ∧
      SameButReports { s.at u with regs := t.dev.regs, lhd := t.dev.lhd, par := t.dev.par } t.dev := by
  have noted := partnerNoted_uplinkNoted s u (modulePartner_lt m) 893 payload.toNat
  have before (k : Nat) : moduleOf (uplinkNoted (s.at u) (modulePartner m.val) 893 payload.toNat) k = moduleOf s.dev k :=
    (moduleOf_of_lhd noted.same.lhd k).trans (at_moduleOf s u k)
  refine answers_mono (answers_uplinkFrame_taken (answers_lineHeadUplinkFrame s u m hdr payload chk) (modulePartner_lt m) lane legal inTime)
    fun t ⟨nv, same⟩ => ⟨nv, ?_, fun k other => ?_, ?_⟩
  · rw [moduleOf_of_lhd same.lhd, moduleOf_setModule, if_pos rfl, before]
  · rw [moduleOf_of_lhd same.lhd, moduleOf_setModule, if_neg other, before]
  · exact same_trans (b := { uplinkNoted (s.at u) (modulePartner m.val) 893 payload.toNat with
        regs := t.dev.regs, lhd := t.dev.lhd, par := t.dev.par })
      { noted.same with regs := sameRegs_refl _, lhd := rfl, par := rfl }
      { same with regs := sameRegs_refl _, lhd := rfl, par := rfl }

end

/-- Settles O38: a frame of either kind by whether it is right and in time. -/
theorem uplinkFrames : Obligations.UplinkFrames := by
  unfold Obligations.UplinkFrames
  refine ⟨fun s u n hdr payload chk l lane => ⟨?_, ?_, ?_⟩, fun s u m hdr payload chk l lane ok top rev1 rev inTime => ?_,
    fun s u m hdr payload chk l lane => ⟨?_, ?_⟩, fun s u n m hdr a b chk => ⟨?_, ?_⟩⟩
  · exact stationUplinkFrame_taken lane
  · exact answers_uplinkFrame_late (answers_stationUplinkFrame s u n hdr payload chk) (by omega) lane
  · exact answers_uplinkFrame_bad (answers_stationUplinkFrame s u n hdr payload chk) (by omega) lane
  · exact lineHeadUplinkFrame_taken lane ⟨ok, top, rev1, rev⟩ inTime
  · exact answers_uplinkFrame_late (answers_lineHeadUplinkFrame s u m hdr payload chk) (modulePartner_lt m) lane
  · exact answers_uplinkFrame_bad (answers_lineHeadUplinkFrame s u m hdr payload chk) (modulePartner_lt m) lane
  · exact answers_uplinkFrame_none (answers_stationUplinkFrame s u n hdr a chk) (by omega)
  · exact answers_uplinkFrame_none (answers_lineHeadUplinkFrame s u m hdr b chk) (modulePartner_lt m)

end Sys2Proof.Proofs
end

section
/-! Local samples and what they leave alone (R282). -/
namespace Sys2Proof.Proofs
open Sys2Proof.Machine Sys2Proof.Laws

/-! ### What a sample of one channel leaves alone -/

theorem channelOf_setChannel (d : Dev) (c k : Nat) (x : Channel) :
    channelOf (setChannel d c x) k = if k = c then x else channelOf d k := get_set _ _ _ _ _

@[simp] theorem channelOf_own (d : Dev) (c : Nat) (x : Channel) : channelOf (setChannel d c x) c = x := by
  rw [channelOf_setChannel, if_pos rfl]

/-- The other channels, the heats, the stations and the steppers. -/
def besideChannel (c : Nat) (d : Dev) : (Nat → Channel) × Heats × Tab Station × Stp :=
  (fun k => if k = c then {} else channelOf d k, d.heats, d.stations, d.stp)

section
variable (c : Nat)

theorem beside_of_same {d e : Dev} (h : SameButReports d e) : besideChannel c e = besideChannel c d := by
  simp only [besideChannel, channelOf_of_same h, h.heats, h.stations, h.stp]

@[simp] theorem beside_setChannel (d : Dev) (x : Channel) : besideChannel c (setChannel d c x) = besideChannel c d := by
  have others (k : Nat) : (if k = c then {} else channelOf (setChannel d c x) k) = if k = c then {} else channelOf d k := by
    rw [channelOf_setChannel]
    split <;> rfl
  simp only [besideChannel, others]
  rfl

@[simp] theorem beside_setEmu (d : Dev) (e : Nat) (x : Emu) : besideChannel c (setEmu d e x) = besideChannel c d := rfl
@[simp] theorem beside_setFld (d : Dev) (p off lo w v : Nat) : besideChannel c (d.setFld p off lo w v) = besideChannel c d := rfl
@[simp] theorem beside_count (d : Dev) (p off : Nat) : besideChannel c (d.count p off) = besideChannel c d := rfl
@[simp] theorem beside_raise_motion (d : Dev) (p b sev code payload : Nat) :
    besideChannel c (raise d p b clsMotion sev code payload) = besideChannel c d :=
  beside_of_same c (same_raise d p b clsMotion sev code payload (by decide))

@[simp] theorem beside_channelFault (d : Dev) (cause : Nat) : besideChannel c (channelFault d c cause) = besideChannel c d :=
  (beside_raise_motion c _ _ _ _ _ _).trans (beside_setChannel c d _)

@[simp] theorem beside_takeIndex (d : Dev) (level : Bool) : besideChannel c (takeIndex d c level) = besideChannel c d := by
  unfold takeIndex
  dsimp only
  repeat' split
  all_goals simp

@[simp] theorem beside_emulateStep (d : Dev) (k : Nat) (step : Int) (from0 : Nat) :
    besideChannel c (emulateStep d k step from0) = besideChannel c d := by
  refine upto_keeps (besideChannel c) fun d e => ?_
  dsimp only
  repeat' split
  all_goals simp

@[simp] theorem beside_checkAmplitude (d : Dev) (m : Nat) : besideChannel c (checkAmplitude d c m) = besideChannel c d := by
  unfold checkAmplitude
  dsimp only
  repeat' split
  all_goals simp

@[simp] theorem beside_useSample (d : Dev) (smp : RawSample) (now sub : Nat) :
    besideChannel c (useSample d c smp now sub) = besideChannel c d := by
  unfold useSample
  dsimp only
  repeat' split
  all_goals simp

@[simp] theorem beside_reportChannel (d : Dev) : besideChannel c (reportChannel d c) = besideChannel c d := beside_setChannel c d _

theorem beside_localSample (d : Dev) (smp : RawSample) (now : Nat) : besideChannel c (localSample d c smp now) = besideChannel c d := by
  unfold localSample
  dsimp only
  split <;> simp

end

/-! ### The local sample of a device that computes for itself (R282) -/

/-- The shift that homing made with the last sample is over. -/
def unshifted (d : Dev) (c : Nat) : Dev := setChannel d c { channelOf d c with shift := 0 }

/-- The channel of a local sample is the channel that has used the sample, with the sample in its trail and what the cycle
reports of it. -/
theorem channelOf_localSample (d : Dev) (c : Nat) (smp : RawSample) (now : Nat) :
    let x := channelOf (useSample (unshifted d c) c smp now 10) c
    ∃ p v0 v1, channelOf (localSample d c smp now) c =
      { x with trail := (now, x.pos) :: x.trail.take 31, repPos := p, repV0 := v0, repV1 := v1 } := by
  intro x
  unfold localSample
  dsimp only
  split
  · exact ⟨x.pos, x.v0, x.v1, by rw [reportChannel, channelOf_own, channelOf_own]; rfl⟩
  · exact ⟨x.repPos, x.repV0, x.repV1, by rw [channelOf_own]; rfl⟩

/-- Besides its outputs such a device is left as its own sample leaves it. -/
theorem takeLocal_own {d : Dev} (ch : Nat) (smp : RawSample) (running : d.running = true) (role : d.par.role ≠ roleStandby) :
    takeLocal d ch smp = { localSample d (96 + ch) smp (d.tick / 125 * 125) with out := (takeLocal d ch smp).out } := by
  unfold takeLocal
  dsimp only
  rw [if_neg (by rw [running]; decide), if_neg role]
  split
  · exact sendHalyard_out _ _ _
  · rfl

theorem at_running (s : State) (u : Nat) : (s.at u).running = s.dev.running := by
  rw [Dev.running, at_par, show (s.at u).boot = s.dev.boot from arrive_boot s.now u, Dev.running]

theorem at_channelOf (s : State) (u c : Nat) : channelOf (s.at u) c = channelOf s.dev c := by
  rw [channelOf, show (s.at u).channels = s.dev.channels from arrive_channels s.now u, channelOf]

theorem at_beside (s : State) (u c : Nat) : besideChannel c (s.at u) = besideChannel c s.dev :=
  (beside_of_same c (same_arrive s.now u)).trans rfl

section
variable {s : State} {u : Nat} {ch : Fin 8} {smp : RawSample}

theorem answers_localSample (running : s.dev.running = true) (role : s.dev.par.role ≠ roleStandby) :
    Answers s (.localChannelSample u ch smp) fun t => t.nv = s.nv ∧
      besideChannel (96 + ch.val) t.dev = besideChannel (96 + ch.val) s.dev ∧
      channelOf t.dev (96 + ch.val) = channelOf (localSample (s.at u) (96 + ch.val) smp ((s.at u).tick / 125 * 125)) (96 + ch.val) := by
  have h := answers_localChannelSample s u ch smp
  rw [takeLocal_own ch.val smp ((at_running s u).trans running) (by rwa [at_par])] at h
  refine answers_mono h fun t ⟨nv, same⟩ => ⟨nv, ?_, channelOf_of_same same _⟩
  exact (beside_of_same _ same).trans ((beside_localSample _ _ _ _).trans (at_beside s u _))

theorem localChannelSample_own (running : s.dev.running = true) (role : s.dev.par.role ≠ roleStandby) :
    Answers s (.localChannelSample u ch smp) fun t =>
      t.nv = s.nv ∧
      (channelOf t.dev (96 + ch.val)).trail.head? = some ((s.at u).tick / 125 * 125, (channelOf t.dev (96 + ch.val)).pos) ∧
      (∀ k, k ≠ 96 + ch.val → channelOf t.dev k = channelOf s.dev k) ∧
      t.dev.heats = s.dev.heats ∧ t.dev.stations = s.dev.stations ∧ t.dev.stp = s.dev.stp := by
  refine answers_mono (answers_localSample running role) fun t ⟨nv, beside, own⟩ => ?_
  simp only [besideChannel, Prod.mk.injEq] at beside
  obtain ⟨others, heats, stations, stp⟩ := beside
  obtain ⟨p, v0, v1, used⟩ := channelOf_localSample (s.at u) (96 + ch.val) smp ((s.at u).tick / 125 * 125)
  refine ⟨nv, by rw [own, used]; rfl, fun k other => ?_, heats, stations, stp⟩
  simpa only [if_neg other] using congrFun others k

end

end Sys2Proof.Proofs
end

section
/-! The use of a sample (R285, R286). -/
namespace Sys2Proof.Proofs
open Sys2Proof.Machine Sys2Proof.Laws

/-! ### The channel's sample in use (R285, R286) -/

/-- What a sample sets of a channel and the rest of its use keeps. -/
def sighted (x : Channel) : Nat × Nat × Bool × Bool := (x.pos, x.phi, x.started, x.fault)

theorem sighted_recordEdges (x : Channel) (a : Nat) (step : Int) (now cycle : Nat) :
    sighted (recordEdges x a step now cycle) = sighted x := by
  unfold recordEdges
  generalize passedLines a step = l
  induction l generalizing x with
  | nil => rfl
  | cons e l ih => exact ih _

theorem sighted_followDirection (x : Channel) (hyst now cycle : Nat) : sighted (followDirection x hyst now cycle) = sighted x := by
  unfold followDirection
  extract_lets ahead
  split
  · exact sighted_recordEdges _ _ _ _ _
  · split <;> rfl

theorem sighted_levelZero (d : Dev) (c : Nat) (x : Channel) (cycle : Nat) : sighted (levelZero d c x cycle) = sighted x := rfl

theorem sighted_levelOne (x : Channel) (now : Nat) : sighted (levelOne x now) = sighted x := by
  unfold levelOne
  split <;> rfl

/-- Without an index edge the level is noted alone. -/
theorem takeIndex_low (d : Dev) (c : Nat) : takeIndex d c false = setChannel d c { channelOf d c with index := false } := rfl

/-- An amplitude within its window is noted alone (R289). -/
theorem checkAmplitude_within {d : Dev} {c m : Nat} (low : d.fld (pageFch c) 0x10C 0 16 ≤ m) (high : m ≤ d.fld (pageFch c) 0x10C 16 16) :
    checkAmplitude d c m = setChannel d c { channelOf d c with amp := min m 65535, ampRun := 0 } := by
  unfold checkAmplitude
  dsimp only
  rw [decide_eq_false (Nat.not_lt.mpr low), decide_eq_false (Nat.not_lt.mpr high)]
  rfl

/-- A step of a channel reaches the outputs, and reports. -/
theorem same_emulateStep (d : Dev) (c : Nat) (step : Int) (from0 : Nat) :
    SameButReports { d with emus := (emulateStep d c step from0).emus } (emulateStep d c step from0) := by
  refine upto_induct (fun _ e => SameButReports { d with emus := e.emus } e) (same_refl d) fun k e _ h => ?_
  extract_lets p x den acc q backlog lag e1
  split
  · have stepped : SameButReports { d with emus := e1.emus } e1 := { h with emus := rfl }
    split
    · have raised := same_raise e1 p 0 clsMotion sevWarning 0x0610 (pay k 0 0 (wrap32 backlog)) (by decide)
      rw [raised.emus]
      exact same_trans stepped raised
    · exact stepped
  · exact h

theorem channelOf_channelFault (d : Dev) (c cause : Nat) : channelOf (channelFault d c cause) c =
    { channelOf d c with fault := true, cause := cause, v0 := 0, v1 := 0, repV0 := 0, repV1 := 0, homed := false } :=
  (channelOf_of_same (same_raise _ _ _ _ _ _ _ (by decide)) c).trans (channelOf_own d c _)

/-- The channel stands at `pos` and phase `phi`, from a sample of amplitude `m` taken at tick `now`. -/
def SampleUsed (now phi m pos : Nat) (y : Channel) : Prop :=
  y.pos = pos ∧ y.phi = phi ∧ y.time = now ∧ y.started = true ∧ y.amp = min m 65535

/-- The step that the speed predicts for a local channel, from its last sample to one at tick `now` (R285). -/
def predictedStep (x : Channel) (now : Nat) : Int := (2 * x.v1 * max 1 ((now - x.time) / 125 : Nat) + 655360) / 1310720

/-- What the phase differs by from the prediction, within half a signal period (R285). -/
def phaseDiff (x : Channel) (phi : Nat) (pred : Int) : Int := ((phi : Int) - x.phi - pred + 2048) % 4096 - 2048

theorem predictedStep_eq (x : Channel) (now : Nat) :
    predictedStep x now = (2 * x.v1 * (max 1 ((now - x.time) / 125) : Nat) + 65536 * (10 : Nat)) / (2 * 65536 * 10 : Nat) := by
  unfold predictedStep
  push_cast
  rfl

/-- The channel once the first sample has given its phase (R286). -/
def firstUse (x : Channel) (phi now : Nat) : Channel :=
  let pos := x.pos - x.pos % 4096 + phi
  { x with
    pos := pos, phi := phi, started := true, idle := false, gap := 0, negative := false, ext := pos, time := now, e1 := none, e2 := none
    edges := [], level := 2, v0 := 0, v1 := 0, stale := false, base := (pos, phi, 0) }

/-- The channel once a later sample has moved it (R285). -/
def movedTo (x : Channel) (phi : Nat) (pred : Int) : Channel :=
  { x with
    pos := wrap32 (x.pos + pred + phaseDiff x phi pred), phi := phi, gap := 0, stale := false, base := (x.pos, x.phi, pred) }

/-- Its direction, edges and speeds follow (R291 to R296). -/
def laterUse (d : Dev) (c now : Nat) (x : Channel) : Channel :=
  let moved := followDirection x (d.fld (pageFch c) 0x040 8 4) now (now / 1250)
  { levelOne (levelZero d c moved (now / 1250)) now with time := now }

theorem sighted_laterUse (d : Dev) (c now : Nat) (x : Channel) : sighted (laterUse d c now x) = sighted x :=
  (sighted_levelOne _ now).trans (sighted_followDirection x _ now _)

/-- The index and the amplitude of a sample without an index edge and within its window. -/
theorem channelOf_checked {d : Dev} {c m : Nat} (low : d.fld (pageFch c) 0x10C 0 16 ≤ m) (high : m ≤ d.fld (pageFch c) 0x10C 16 16) :
    channelOf (checkAmplitude (takeIndex d c false) c m) c =
      { channelOf d c with index := false, amp := min m 65535, ampRun := 0 } := by
  rw [takeIndex_low, checkAmplitude_within (d := setChannel d c _) low high, channelOf_own, channelOf_own]

section
variable {d : Dev} {c now : Nat} {smp : RawSample}
  (on : d.enabled (pageFch c) = true) (clear : (channelOf d c).fault = false) (edge : smp.index = false)
include on clear edge

theorem useSample_first_eq (first : (channelOf d c).started = false) :
    let x := channelOf d c
    let v := correctSample d c smp
    useSample d c smp now 10 =
      checkAmplitude (takeIndex (setChannel d c (firstUse x (phaseOf v.1 v.2 x.phi) now)) c false) c (amplitudeOf d c v.1 v.2) := by
  unfold useSample
  dsimp only
  rw [if_neg (by rw [on]; decide), if_neg (by rw [clear]; decide), if_pos (by rw [first]; decide), edge]
  rfl

theorem useSample_later_eq (later : (channelOf d c).started = true) :
    let x := channelOf d c
    let v := correctSample d c smp
    let phi := phaseOf v.1 v.2 x.phi
    let pred := predictedStep x now
    let d1 := emulateStep (setChannel d c (laterUse d c now (movedTo x phi pred))) c (pred + phaseDiff x phi pred)
      (now + if remoteChannel c then 300 else 125)
    let d2 := checkAmplitude (takeIndex d1 c false) c (amplitudeOf d c v.1 v.2)
    let limit := d.fld (pageFch c) 0x048 0 16
    useSample d c smp now 10 =
      if (channelOf d2 c).fault then d2
      else if limit ≠ 0 ∧ limit < (channelOf d2 c).v0.natAbs / 65536 then channelFault d2 c 3 else d2 := by
  intro x v phi pred
  unfold pred
  rw [predictedStep_eq]
  unfold useSample
  dsimp only
  rw [if_neg (by rw [on]; decide), if_neg (by rw [clear]; decide), if_neg (by rw [later]; decide), edge]
  rfl

variable (low : d.fld (pageFch c) 0x10C 0 16 ≤ amplitudeOf d c (correctSample d c smp).1 (correctSample d c smp).2)
  (high : amplitudeOf d c (correctSample d c smp).1 (correctSample d c smp).2 ≤ d.fld (pageFch c) 0x10C 16 16)
include low high

/-- The first sample gives the phase alone (R286). -/
theorem useSample_first (first : (channelOf d c).started = false) :
    let x := channelOf d c
    let v := correctSample d c smp
    let y := channelOf (useSample d c smp now 10) c
    SampleUsed now (phaseOf v.1 v.2 x.phi) (amplitudeOf d c v.1 v.2) (x.pos - x.pos % 4096 + phaseOf v.1 v.2 x.phi) y ∧
      y.fault = false ∧ y.index = false := by
  intro x v y
  have used : y = { firstUse x (phaseOf v.1 v.2 x.phi) now with index := false, amp := min (amplitudeOf d c v.1 v.2) 65535, ampRun := 0 } := by
    unfold y
    rw [useSample_first_eq on clear edge first, channelOf_checked (d := setChannel d c _) low high, channelOf_own]
  rw [used]
  exact ⟨⟨rfl, rfl, rfl, rfl, rfl⟩, clear, rfl⟩

/-- A later sample moves the position by the predicted step and what the phase differs from it (R285). -/
theorem useSample_later (later : (channelOf d c).started = true) :
    let x := channelOf d c
    let v := correctSample d c smp
    let phi := phaseOf v.1 v.2 x.phi
    let pred := predictedStep x now
    let y := channelOf (useSample d c smp now 10) c
    SampleUsed now phi (amplitudeOf d c v.1 v.2) (wrap32 (x.pos + pred + phaseDiff x phi pred)) y ∧
      (d.fld (pageFch c) 0x048 0 16 = 0 → y.fault = false ∧ y.index = false) := by
  intro x v phi pred y
  have eq := useSample_later_eq (now := now) on clear edge later
  extract_lets d1 d2 limit at eq
  have sight := sighted_laterUse d c now (movedTo x phi pred)
  simp only [sighted, Prod.mk.injEq] at sight
  obtain ⟨pos, phase, started, fault⟩ := sight
  have emulated := same_emulateStep (setChannel d c (laterUse d c now (movedTo x phi pred))) c (pred + phaseDiff x phi pred)
    (now + if remoteChannel c then 300 else 125)
  have window (lo : Nat) : d1.fld (pageFch c) 0x10C lo 16 = d.fld (pageFch c) 0x10C lo 16 :=
    fld_of_same emulated lo 16 (reportWord_far (by unfold pageFch; omega) (by decide) (by decide))
  have stepped : channelOf d1 c = laterUse d c now (movedTo x phi pred) :=
    (channelOf_of_same emulated c).trans (channelOf_own d c _)
  have used : channelOf d2 c = { laterUse d c now (movedTo x phi pred) with
      index := false, amp := min (amplitudeOf d c v.1 v.2) 65535, ampRun := 0 } := by
    unfold d2
    rw [channelOf_checked (by rwa [window]) (by rwa [window]), stepped]
  have kept : SampleUsed now phi (amplitudeOf d c v.1 v.2) (wrap32 (x.pos + pred + phaseDiff x phi pred)) (channelOf d2 c) := by
    rw [used]
    exact ⟨pos, phase, rfl, started.trans later, rfl⟩
  have sound : (channelOf d2 c).fault = false := by
    rw [used]
    exact fault.trans clear
  rw [if_neg (by rw [sound]; decide)] at eq
  unfold y
  rw [eq]
  split
  case isTrue exceeded =>
    rw [channelOf_channelFault]
    exact ⟨kept, fun none => absurd none exceeded.1⟩
  case isFalse => exact ⟨kept, fun _ => ⟨sound, by rw [used]⟩⟩

/-- A sample in use, whether it is the first or a later one. -/
theorem useSample_used :
    let x := channelOf d c
    let v := correctSample d c smp
    let phi := phaseOf v.1 v.2 x.phi
    let pred := predictedStep x now
    let y := channelOf (useSample d c smp now 10) c
    SampleUsed now phi (amplitudeOf d c v.1 v.2)
        (if x.started then wrap32 (x.pos + pred + phaseDiff x phi pred) else x.pos - x.pos % 4096 + phi) y ∧
      (x.started = false ∨ d.fld (pageFch c) 0x048 0 16 = 0 → y.fault = false ∧ y.index = false) := by
  intro x v phi pred y
  cases started : x.started
  case false =>
    obtain ⟨used, sound⟩ := useSample_first (now := now) on clear edge low high started
    rw [if_neg (by decide)]
    exact ⟨used, fun _ => sound⟩
  case true =>
    obtain ⟨used, sound⟩ := useSample_later (now := now) on clear edge low high started
    rw [if_pos rfl]
    exact ⟨used, fun h => sound (h.resolve_left (by decide))⟩

end

end Sys2Proof.Proofs
end

section
/-! The local samples of a cycle, standstill (R282, R283, R296). -/
namespace Sys2Proof.Proofs
open Sys2Proof.Machine Sys2Proof.Laws

/-! ### What arriving leaves of a channel's registers -/

section
variable (s : State) (u c : Nat)

theorem at_enabled (p : Nat) : (s.at u).enabled p = s.dev.enabled p := congrFun (enabled_of_same (same_arrive s.now u)) p

theorem at_channelFld (lo w : Nat) {off : Nat} (ho : off < 4096) (pen : off ≠ 0x010) :
    (s.at u).fld (pageFch c) off lo w = s.dev.fld (pageFch c) off lo w :=
  at_fld s u lo w (reportWord_far (by unfold pageFch; omega) ho pen)

theorem at_correctSample (smp : RawSample) : correctSample (s.at u) c smp = correctSample s.dev c smp := by
  simp only [correctSample, Dev.sfld, at_channelFld s u c _ _ (off := 0x100) (by decide) (by decide),
    at_channelFld s u c _ _ (off := 0x104) (by decide) (by decide)]

theorem at_amplitudeOf (a b : Int) : amplitudeOf (s.at u) c a b = amplitudeOf s.dev c a b := by
  simp only [amplitudeOf, at_channelFld s u c _ _ (off := 0x108) (by decide) (by decide)]

end

section
variable {s : State} {u : Nat} {ch : Fin 8} {smp : RawSample}

/-- A local sample of an enabled channel in service, within the window of its amplitude and without an index edge. -/
theorem localChannelSample_used (running : s.dev.running = true) (role : s.dev.par.role ≠ roleStandby)
    (on : s.dev.enabled (pageFch (96 + ch.val)) = true) :
    let x := channelOf s.dev (96 + ch.val)
    let v := correctSample s.dev (96 + ch.val) smp
    let m := amplitudeOf s.dev (96 + ch.val) v.1 v.2
    let phi := phaseOf v.1 v.2 x.phi
    let now := (s.at u).tick / 125 * 125
    let pred := predictedStep x now
    x.fault = false → s.dev.fld (pageFch (96 + ch.val)) 0x10C 0 16 ≤ m → m ≤ s.dev.fld (pageFch (96 + ch.val)) 0x10C 16 16 →
    smp.index = false → Answers s (.localChannelSample u ch smp) fun t =>
      t.nv = s.nv ∧ (channelOf t.dev (96 + ch.val)).phi = phi ∧ (channelOf t.dev (96 + ch.val)).time = now ∧
      (channelOf t.dev (96 + ch.val)).started = true ∧ (channelOf t.dev (96 + ch.val)).amp = min m 65535 ∧
      (x.started = false ∨ s.dev.fld (pageFch (96 + ch.val)) 0x048 0 16 = 0 →
        (channelOf t.dev (96 + ch.val)).fault = false ∧ (channelOf t.dev (96 + ch.val)).index = false) ∧
      (channelOf t.dev (96 + ch.val)).pos =
        if x.started then wrap32 (x.pos + pred + phaseDiff x phi pred) else x.pos - x.pos % 4096 + phi := by
  intro x v m phi now pred clear low high edge
  have before : channelOf (unshifted (s.at u) (96 + ch.val)) (96 + ch.val) = { x with shift := 0 } := by
    rw [unshifted, channelOf_own, at_channelOf]
  have corrected : correctSample (unshifted (s.at u) (96 + ch.val)) (96 + ch.val) smp = v := at_correctSample s u _ smp
  have amplitude (a b : Int) : amplitudeOf (unshifted (s.at u) (96 + ch.val)) (96 + ch.val) a b = amplitudeOf s.dev (96 + ch.val) a b :=
    at_amplitudeOf s u _ a b
  have window (lo : Nat) := at_channelFld s u (96 + ch.val) lo 16 (off := 0x10C) (by decide) (by decide)
  have limit := at_channelFld s u (96 + ch.val) 0 16 (off := 0x048) (by decide) (by decide)
  have use := useSample_used (d := unshifted (s.at u) (96 + ch.val))
    (c := 96 + ch.val) (now := now) (smp := smp) ((at_enabled s u _).trans on) (by rw [before]; exact clear) edge
    (by rw [corrected, amplitude]; exact (window 0).trans_le low) (by rw [corrected, amplitude]; exact high.trans_eq (window 16).symm)
  dsimp only at use
  rw [before, corrected, amplitude] at use
  obtain ⟨⟨pos, phase, time, started, amp⟩, sound⟩ := use
  obtain ⟨p, v0, v1, trailed⟩ := channelOf_localSample (s.at u) (96 + ch.val) smp now
  refine answers_mono (answers_localSample running role) fun t ⟨nv, _, own⟩ => ?_
  rw [own, trailed]
  exact ⟨nv, phase, time, started, amp, fun h => sound (h.imp_right limit.trans), pos⟩

/-! ### The sample of a standby, and of a device at rest (R283) -/

theorem same_peerDiff (d : Dev) (c : Nat) : SameButReports d (peerDiff d c) := by
  unfold peerDiff
  extract_lets x diff
  split
  · exact same_raise _ _ _ _ _ _ _ (by decide)
  · exact same_refl d

/-- A standby notes the phase and the tick of its own sample. -/
theorem localChannelSample_standby (running : s.dev.running = true) (role : s.dev.par.role = roleStandby) :
    Answers s (.localChannelSample u ch smp) fun t =>
      t.nv = s.nv ∧ channelOf t.dev (96 + ch.val) = { channelOf s.dev (96 + ch.val) with
        ownPhi := (channelOf t.dev (96 + ch.val)).ownPhi, ownTick := (s.at u).tick / 125 * 125 } ∧
      SameButReports { s.at u with channels := t.dev.channels } t.dev := by
  have h := answers_localChannelSample s u ch smp
  unfold takeLocal at h
  extract_lets c sc x kept at h
  rw [if_neg (by rw [at_running, running]; decide), if_pos (by rw [at_par, role])] at h
  refine answers_mono h fun t ⟨nv, same⟩ => ?_
  have after := same_trans (same_peerDiff kept c) same
  have own : channelOf t.dev (96 + ch.val) = _ := (channelOf_of_same after _).trans (channelOf_own (s.at u) c _)
  refine ⟨nv, ?_, { after with channels := rfl }⟩
  rw [own]
  unfold x c
  rw [at_channelOf]

theorem localChannelSample_rests (rests : s.dev.running = false) : AnswersButReports s (.localChannelSample u ch smp) (s.at u) := by
  have h := answers_localChannelSample s u ch smp
  rwa [takeLocal, if_pos (by rw [at_running, rests]; decide)] at h

end

/-! ### Standstill (R296) -/

section
variable {d : Dev} {c : Nat}

theorem standstill_due (on : d.enabled (pageFch c) = true) (clear : (channelOf d c).fault = false) (level : (channelOf d c).level ≠ 2)
    (due : (channelOf d c).since + d.fld (pageFch c) 0x044 0 16 ≤ d.cycle) :
    standstill d c = setChannel d c { channelOf d c with level := 2, v1 := 0, repV1 := 0, e1 := none, e2 := none } :=
  if_pos (by simp [on, clear, level, due])

theorem standstill_early (early : d.cycle < (channelOf d c).since + d.fld (pageFch c) 0x044 0 16) : standstill d c = d :=
  if_neg (by simp [Nat.not_le.mpr early])

end

end Sys2Proof.Proofs
end

section
/-! The windows of the emulation outputs (R301), and with them O39. -/
namespace Sys2Proof.Proofs
open Sys2Proof.Machine Sys2Proof.Laws

/-! ### Emission windows (R301) -/

/-- What an output owes at the start of a window: nothing of a sample that comes after it. -/
def owedAt (x : Emu) (start : Nat) : Int := if start < x.newFrom then x.backlog - x.newSteps else x.backlog

/-- The edges of a window that may give `most`. -/
def edgesAt (x : Emu) (start most : Nat) : Nat := min (owedAt x start).natAbs most

/-- The output once it has given `m` of the `owed` edges in the window that begins at `start`. -/
def emitted (x : Emu) (owed : Int) (m start : Nat) : Emu :=
  { x with
    backlog := if owed < 0 then x.backlog + m else x.backlog - m
    ab := if owed < 0 then (x.ab + 4 * m - m) % 4 else (x.ab + m) % 4
    last := start + 1 }

/-- The edges as they go out, evenly spread over the window. -/
def edgesOut (e start span m : Nat) (owed : Int) : List Out :=
  if m = 0 then [] else [.edges e ((List.range m).map fun i => start + i * span / m) (decide (owed < 0))]

theorem emitWindow_eq (d : Dev) (e start span most : Nat) :
    let owed := owedAt (emuOf d e) start
    let m := edgesAt (emuOf d e) start most
    emitWindow d e start span most =
      { (setEmu d e (emitted (emuOf d e) owed m start)).setReg (pageEmu e) 0x064 ((d.rfld (pageEmu e) 0x064 0 32 + m) % 2 ^ 32) with
        out := d.out ++ edgesOut e start span m owed } := by
  intro owed m
  unfold emitWindow edgesOut
  extract_lets x owed' m' neg ticks d1 d2
  have given : d1 = setEmu d e (emitted (emuOf d e) owed m start) := by
    simp only [d1, neg, emitted, decide_eq_true_eq]
    rfl
  have counted : d2 = (setEmu d e (emitted (emuOf d e) owed m start)).setReg (pageEmu e) 0x064
      ((d.rfld (pageEmu e) 0x064 0 32 + m) % 2 ^ 32) := by
    unfold d2
    rw [given]
    rfl
  rw [counted]
  by_cases none : m = 0
  · rw [if_pos none, if_pos (show m' = 0 from none), List.append_nil]
    rfl
  · have spread : max 1 m' = m := Nat.max_eq_right (Nat.pos_of_ne_zero none)
    rw [if_neg none, if_neg (show ¬ m' = 0 from none)]
    unfold ticks
    rw [spread]
    rfl

/-- The output follows a remote channel. -/
def followsRemote (d : Dev) (e : Nat) : Bool := remoteChannel (d.fld (pageEmu e) 0x040 0 7)

/-- The tick at which the current window of an output begins. -/
def windowStart (d : Dev) (e : Nat) : Nat := if followsRemote d e then d.cycle * 1250 + 300 else d.tick / 125 * 125

section
variable {d : Dev} {e : Nat}

theorem emuWindow_due (on : d.enabled (pageEmu e) = true) (begun : windowStart d e ≤ d.tick) (fresh : (emuOf d e).last ≤ windowStart d e) :
    emuWindow d e = emitWindow d e (windowStart d e) (if followsRemote d e then 1250 else 125) (if followsRemote d e then 50 else 5) := by
  have due : (d.enabled (pageEmu e) && decide (windowStart d e ≤ d.tick ∧ (emuOf d e).last ≤ windowStart d e)) = true := by
    rw [on, decide_eq_true ⟨begun, fresh⟩]
    rfl
  refine (if_pos due).trans ?_
  show (if followsRemote d e = true then _ else _) = _
  split <;> rfl

theorem emuWindow_rests (h : d.enabled (pageEmu e) = false ∨ d.tick < windowStart d e ∨ windowStart d e < (emuOf d e).last) :
    emuWindow d e = d := by
  have rests : ¬ (d.enabled (pageEmu e) && decide (windowStart d e ≤ d.tick ∧ (emuOf d e).last ≤ windowStart d e)) = true := by
    rw [Bool.and_eq_true, decide_eq_true_eq]
    rintro ⟨on, begun, fresh⟩
    rcases h with off | early | late
    · exact absurd on (by rw [off]; decide)
    · exact absurd begun (Nat.not_le.mpr early)
    · exact absurd fresh (Nat.not_le.mpr late)
  exact if_neg rests

end

theorem emuOf_setEmu (d : Dev) (e k : Nat) (x : Emu) : emuOf (setEmu d e x) k = if k = e then x else emuOf d k := get_set _ _ _ _ _

theorem emuOf_of_emus {d e : Dev} (h : e.emus = d.emus) (k : Nat) : emuOf e k = emuOf d k := by rw [emuOf, h, emuOf]

theorem reportWord_emu (e : Nat) {off : Nat} (ho : off < 4096) (pen : off ≠ 0x010) : reportWord (wordAddr (pageEmu e) off) = false :=
  reportWord_far (by unfold pageEmu; omega) ho pen

section
variable (s : State) (u e : Nat)

theorem at_emuOf : emuOf (s.at u) e = emuOf s.dev e := emuOf_of_emus (d := s.dev) (arrive_emus s.now u) e

theorem at_followsRemote : followsRemote (s.at u) e = followsRemote s.dev e := by
  rw [followsRemote, at_fld s u _ _ (reportWord_emu e (by decide) (by decide)), followsRemote]

theorem at_windowStart : windowStart (s.at u) e = if followsRemote s.dev e then s.dev.cycle * 1250 + 300 else (s.at u).tick / 125 * 125 := by
  rw [windowStart, at_followsRemote, at_cycle]

end

section
variable {s : State} {u : Nat} {e : Fin 8}

/-- The window of an enabled output that has begun and has not given its edges yet. -/
theorem emuEmission_due (on : s.dev.enabled (pageEmu e.val) = true) (begun : windowStart (s.at u) e.val ≤ (s.at u).tick)
    (fresh : (emuOf s.dev e.val).last ≤ windowStart (s.at u) e.val) :
    let start := windowStart (s.at u) e.val
    let x := emuOf s.dev e.val
    let owed := owedAt x start
    let m := edgesAt x start (if followsRemote s.dev e.val then 50 else 5)
    Answers s (.emuEmission u e) fun t =>
      t.nv = s.nv ∧ emuOf t.dev e.val = emitted x owed m start ∧
      t.dev.out = edgesOut e.val start (if followsRemote s.dev e.val then 1250 else 125) m owed ∧
      t.dev.rfld (pageEmu e.val) 0x064 0 32 = (s.dev.rfld (pageEmu e.val) 0x064 0 32 + m) % 2 ^ 32 ∧
      SameButReports { s.at u with emus := t.dev.emus, regs := t.dev.regs, out := t.dev.out } t.dev ∧
      (∀ k, k ≠ e.val → emuOf t.dev k = emuOf s.dev k) := by
  intro start x owed m
  have h := answers_emuEmission s u e
  rw [emuWindow_due ((at_enabled s u _).trans on) begun (by rwa [at_emuOf]), emitWindow_eq, at_emuOf, at_followsRemote, at_out,
    List.nil_append] at h
  refine answers_mono h fun t ⟨nv, same⟩ => ⟨nv, ?_, same.out, ?_, ?_, fun k other => ?_⟩
  · rw [emuOf_of_emus same.emus]
    exact (emuOf_setEmu (s.at u) e.val e.val _).trans (if_pos rfl)
  · rw [rfld_of_same same _ _ (reportWord_emu _ (by decide) (by decide)),
      ← at_rfld s u _ _ (reportWord_emu _ (by decide) (by decide))]
    exact setReg_rfld_own (setEmu (s.at u) e.val _) _ _ (Nat.mod_lt _ (by decide))
  · exact { same with emus := rfl, regs := sameRegs_refl _, out := rfl }
  · rw [emuOf_of_emus same.emus]
    exact (emuOf_setEmu (s.at u) e.val k _).trans ((if_neg other).trans (at_emuOf s u k))

theorem emuEmission_rests (h : s.dev.enabled (pageEmu e.val) = false ∨ (s.at u).tick < windowStart (s.at u) e.val ∨
    windowStart (s.at u) e.val < (emuOf s.dev e.val).last) : AnswersButReports s (.emuEmission u e) (s.at u) := by
  have answer := answers_emuEmission s u e
  rwa [emuWindow_rests (by rwa [at_enabled, at_emuOf])] at answer

end

/-- Settles O39: the sample by who takes it and whether it is in use, the standstill and the windows by whether they are due. -/
theorem feedback : Obligations.Feedback := by
  unfold Obligations.Feedback
  refine ⟨fun s u ch smp => ⟨localChannelSample_own, localChannelSample_used, localChannelSample_standby, localChannelSample_rests⟩,
    fun s c => ⟨fun on clear level due => ?_, fun early => ?_⟩, fun s u e => ?_⟩
  · have h := answers_standstillTimeout s c
    rwa [standstill_due (d := s.now) on clear level due] at h
  · have h := answers_standstillTimeout s c
    rwa [standstill_early (d := s.now) early] at h
  · intro remote start x span owed m
    have begin : start = windowStart (s.at u) e.val := (at_windowStart s u e.val).symm
    refine ⟨fun on begun fresh => ?_, fun h => emuEmission_rests (by rwa [← begin])⟩
    have answer := emuEmission_due on (by rwa [← begin]) (by rwa [← begin])
    rw [← begin] at answer
    exact answer

end Sys2Proof.Proofs
end

section
/-! Contexts and their open frames: camera blocks and the pipelines that serve them (R309, R313, R314). -/
namespace Sys2Proof.Proofs
open Sys2Proof.Machine Sys2Proof.Laws

/-! ### Contexts -/

theorem ctxOf_setCtx (d : Dev) (c k : Nat) (x : Ctx) : ctxOf (setCtx d c x) k = if k = c then x else ctxOf d k := get_set _ _ _ _ _

@[simp] theorem ctxOf_own (d : Dev) (c : Nat) (x : Ctx) : ctxOf (setCtx d c x) c = x := by rw [ctxOf_setCtx, if_pos rfl]

theorem ctxOf_other {d : Dev} {c k : Nat} {x : Ctx} (h : k ≠ c) : ctxOf (setCtx d c x) k = ctxOf d k := by rw [ctxOf_setCtx, if_neg h]

theorem ctxOf_of_ctxs {d e : Dev} (h : e.ctxs = d.ctxs) (k : Nat) : ctxOf e k = ctxOf d k := by rw [ctxOf, h, ctxOf]

theorem at_ctxOf (s : State) (u k : Nat) : ctxOf (s.at u) k = ctxOf s.dev k := ctxOf_of_ctxs (d := s.dev) (arrive_ctxs s.now u) k

theorem at_ctxOn (s : State) (u c : Nat) : ctxOn (s.at u) c = ctxOn s.dev c := by rw [ctxOn, at_enabled, at_enabled, ctxOn]

theorem reportWord_ctx (c : Nat) {off : Nat} (ho : off < 4096) (pen : off ≠ 0x010) : reportWord (wordAddr (pageCtx c) off) = false :=
  reportWord_far (by unfold pageCtx; omega) ho pen

/-! ### A context with one open frame -/

section
variable {d : Dev} {c : Nat} {f : CamFrame} (one : (ctxOf d c).frames = [f])
include one

theorem updFrame_one (g : CamFrame → CamFrame) : updFrame d c f.sof g = setCtx d c { ctxOf d c with frames := [g f] } := by
  unfold updFrame
  dsimp only
  rw [one, List.map_singleton, if_pos rfl]

/-- A row that finds room joins the frame and waits for its pipeline (R314). -/
theorem acceptRow_one (whole : f.overflow = false) (room : f.waiting.length < 16) (row : Nat) (pixels : List (BitVec 12)) :
    acceptRow d c f.sof row pixels = setCtx d c { ctxOf d c with
      frames := [{ f with lines := f.lines.set (same []) row pixels, waiting := f.waiting ++ [row] }] } := by
  have found : (ctxOf d c).frames.find? (·.sof == f.sof) = some f := by rw [one, List.find?_singleton, beq_self_eq_true, if_pos rfl]
  have fill : ¬ 16 ≤ fifoLines (ctxOf d c) := by
    rw [fifoLines, one, List.map_singleton, List.sum_singleton]
    omega
  unfold acceptRow
  rw [found]
  dsimp only
  rw [if_neg (by rw [whole]; decide), if_neg fill, updFrame_one one]

end

/-! ### Camera blocks -/

/-- The header of a block of one row names the row, its place in the frame and nothing else, and no saturation (R313). -/
def OneRowHeader (hdr : Nat) : Prop :=
  bits hdr 16 7 < 80 ∧ bits hdr 23 4 = 1 ∧ bits hdr 30 26 = 0 ∧ bit hdr 27 = (bits hdr 16 7 == 0) ∧
    bit hdr 28 = (bits hdr 16 7 == 79) ∧ bit hdr 29 = false

section
variable {d : Dev} {c hdr : Nat} {data : List Long} (running : d.running = true) (on : ctxOn d c = true)
  (lane : (partnerLane d c).isSome = true)
include running on lane

/-- A right block of one row that is on time brings the row into its frame. -/
theorem cameraBlock_row {f : CamFrame} (one : (ctxOf d c).frames = [f]) (number : f.number = bits hdr 0 16)
    (header : OneRowHeader hdr) (long : data.length = 13) (inTime : d.tick ≤ f.rowDeadline (bits hdr 16 7)) :
    cameraBlock d c hdr data false = acceptRow d c f.sof (bits hdr 16 7) (blockRow (dataValue data) 0) := by
  obtain ⟨row, count, rest, first, last, sat⟩ := header
  have found : (ctxOf d c).frames.find? (·.number == bits hdr 0 16) = some f := by
    rw [one, List.find?_singleton, number, beq_self_eq_true, if_pos rfl]
  have right : ¬ (1 = 0 ∨ 10 < 1 ∨ bits hdr 30 26 ≠ 0 ∨ 128 < bits hdr 16 7 + 1 ∨ data.length ≠ (1 * 800 + 63) / 64 ∨ False) := by
    simp [rest, long]
    omega
  have edges : (bit hdr 27 != (bits hdr 16 7 == 0) || bit hdr 28 != (bits hdr 16 7 + 1 == 80)) = false := by
    rw [first, last, bne_self_eq_false, Bool.false_or, bne_eq_false_iff_eq]
    simp
  unfold cameraBlock
  simp only [on, running, lane, found, count, edges, sat, upto, Bool.and_self, Bool.not_true, Bool.false_eq_true, if_false,
    List.range_one, List.foldl_cons, List.foldl_nil, Nat.add_zero]
  rw [if_neg right, if_neg (Nat.not_le.mpr row), if_neg (Nat.not_lt.mpr inTime)]

/-- A block of no open frame is a bad one. -/
theorem cameraBlock_noFrame (none : ∀ f, f ∈ (ctxOf d c).frames → f.number ≠ bits hdr 0 16) :
    cameraBlock d c hdr data false = badBlock d c (bits hdr 16 7) true := by
  have found : (ctxOf d c).frames.find? (·.number == bits hdr 0 16) = Option.none :=
    List.find?_eq_none.mpr fun f mem => by simpa using none f mem
  unfold cameraBlock
  simp only [on, running, lane, found, Bool.and_self, Bool.not_true, Bool.false_eq_true, if_false]

end

section
variable {s : State} {u : Nat} {n : Fin 32} {hdr : BitVec 56} {data : List Long} (running : s.dev.running = true)
  (on : ctxOn s.dev n.val = true) (lane : (partnerLane s.dev n.val).isSome = true)
include running on lane

theorem answers_cameraBlock_row {f : CamFrame} (one : (ctxOf s.dev n.val).frames = [f]) (number : f.number = bits hdr.toNat 0 16)
    (whole : f.overflow = false) (header : OneRowHeader hdr.toNat) (long : data.length = 13)
    (inTime : (s.at u).tick ≤ f.rowDeadline (bits hdr.toNat 16 7)) (room : f.waiting.length < 16) :
    AnswersButReports s (.cameraBlock u n hdr data false)
      (setCtx (s.at u) n.val { ctxOf s.dev n.val with frames := [{ f with
        lines := f.lines.set (same []) (bits hdr.toNat 16 7) (blockRow (dataValue data) 0)
        waiting := f.waiting ++ [bits hdr.toNat 16 7] }] }) := by
  have h := answers_cameraBlock s u n hdr data false
  rw [← at_ctxOf s u] at one
  rw [← at_running s u] at running
  rw [← at_ctxOn s u] at on
  rw [← partnerLane_of_prior (prior_at s u) (by omega)] at lane
  rwa [cameraBlock_row running on lane one number header long inTime, acceptRow_one one whole room, at_ctxOf] at h

theorem answers_cameraBlock_noFrame (none : ∀ f, f ∈ (ctxOf s.dev n.val).frames → f.number ≠ bits hdr.toNat 0 16) :
    Answers s (.cameraBlock u n hdr data false) fun t =>
      t.nv = s.nv ∧ t.dev.pennant (pageCtx n.val) 3 = true ∧
      SameButReports ((s.at u).setReg (pageCtx n.val) 0x07C (min (s.dev.rfld (pageCtx n.val) 0x07C 0 32 + 1) 0xFFFFFFFF)) t.dev := by
  have h := answers_cameraBlock s u n hdr data false
  rw [← at_ctxOf s u] at none
  rw [← at_running s u] at running
  rw [← at_ctxOn s u] at on
  rw [← partnerLane_of_prior (prior_at s u) (by omega)] at lane
  rw [cameraBlock_noFrame running on lane none, badBlock] at h
  rw [← at_rfld s u _ _ (reportWord_ctx _ (by decide) (by decide))]
  exact answers_raise h (by decide) (by decide)

end

/-! ### Pipelines -/

/-- A fold that keeps what it holds or takes the element at hand ends with an element of the list, or with what it began. -/
theorem foldl_picks {α β : Type} {g : Option (α × β) → α → Option (α × β)} (pick : ∀ b a x, g b a = some x → b = some x ∨ x.1 = a)
    (l : List α) (b : Option (α × β)) {x : α × β} (h : l.foldl g b = some x) : b = some x ∨ x.1 ∈ l := by
  induction l generalizing b with
  | nil => exact .inl h
  | cons a l ih =>
    rcases ih (g b a) h with taken | later
    · exact (pick b a x taken).imp_right fun (own : x.1 = a) => own ▸ List.mem_cons_self
    · exact .inr (List.mem_cons_of_mem _ later)

/-- The context that a pipeline picks has a line that waits. -/
theorem pickContext_hasLine {d : Dev} {p c : Nat} (h : (pickContext d p).1 = some c) : hasLine (ctxOf d c) = true := by
  unfold pickContext at h
  extract_lets all skip cs best at h
  obtain ⟨x, picked, own⟩ := Option.map_eq_some_iff.mp h
  have mem : x.1 ∈ cs := by
    refine (foldl_picks ?_ cs none picked).resolve_left (by simp)
    intro b a y
    extract_lets sof
    cases b with
    | none => exact fun taken => .inr (by rw [← Option.some.inj taken])
    | some held =>
      dsimp only
      split
      · exact fun taken => .inr (by rw [← Option.some.inj taken])
      · exact .inl
  have among : x.1 ∈ all := by
    unfold cs at mem
    split at mem
    · exact List.mem_of_mem_filter mem
    · exact mem
  exact own ▸ (List.mem_filter.mp among).2

theorem oldestFrame_one {x : Ctx} {f : CamFrame} (one : x.frames = [f]) (line : hasLine x = true) : oldestFrame x = some f := by
  rw [hasLine, oldestFrame, one, List.find?_singleton] at line
  rw [oldestFrame, one, List.find?_singleton]
  split at line <;> simp_all

/-- The row that a pipeline takes of a frame: the lowest that waits (R309). -/
def lowestRow (f : CamFrame) : Nat := f.waiting.foldl min (f.waiting.headD 0)

/-- The clock at which a pipeline is free in this cycle, and those that the line takes. -/
def pipeStart (d : Dev) (p : Nat) : Nat := max (3 * d.tick) (pipeOf d p).free
def lineClocks (f : CamFrame) : Nat := ((f.lines.get (same []) (lowestRow f)).length + 1) / 2

section
variable {d : Dev} {p c : Nat} {f : CamFrame} (pick : pickContext d p = (some c, false)) (one : (ctxOf d c).frames = [f])
include pick one

theorem lineStart_picked (running : d.running = true) (on : d.enabled pageImg = true) (early : pipeStart d p < 3750 * (d.cycle + 1)) :
    ∃ clocks overview, lineStart d p =
      setPipe (updFrame (d.advance (pipeStart d p / 3)) c f.sof fun g => { g with waiting := g.waiting.erase (lowestRow f) }) p
        ⟨pipeStart d p + lineClocks f, clocks, overview⟩ := by
  have line : hasLine (ctxOf d c) = true := pickContext_hasLine (p := p) (by rw [pick])
  unfold lineStart
  extract_lets x start edge choice d1
  have due : (d.running && d.enabled pageImg && decide (start < edge)) = true := by
    rw [running, on, decide_eq_true (show start < edge from early)]
    rfl
  rw [if_pos due]
  unfold d1 choice
  rw [pick]
  dsimp only
  rw [oldestFrame_one one line, Bool.false_and, if_neg Bool.false_ne_true]
  dsimp only
  exact ⟨_, _, rfl⟩

end

theorem pipelineLineStart_picked {s : State} {p : Fin 4} {c : Nat} {f : CamFrame} (running : s.dev.running = true)
    (on : s.dev.enabled pageImg = true) (early : pipeStart s.dev p.val < 3750 * (s.dev.cycle + 1))
    (pick : pickContext s.dev p.val = (some c, false)) (one : (ctxOf s.dev c).frames = [f]) :
    Answers s (.pipelineLineStart p) fun t =>
      t.nv = s.nv ∧ t.dev.tick = max s.dev.tick ((pipeOf s.dev p.val).free / 3) ∧
      ctxOf t.dev c = { ctxOf s.dev c with frames := [{ f with waiting := f.waiting.erase (lowestRow f) }] } ∧
      (pipeOf t.dev p.val).free = pipeStart s.dev p.val + lineClocks f ∧
      SameRegs s.dev.regs t.dev.regs ∧ t.dev.stations = s.dev.stations := by
  have h := answers_pipelineLineStart s p
  obtain ⟨clocks, overview, eq⟩ := lineStart_picked (d := s.now) pick one running on early
  have passed : SameButReports { s.now with tick := pipeStart s.now p.val / 3 } (s.now.advance (pipeStart s.now p.val / 3)) :=
    same_advance s.now _ (by unfold pipeStart; omega)
  generalize s.now.advance (pipeStart s.now p.val / 3) = e at *
  have before : ctxOf e c = ctxOf s.dev c := ctxOf_of_ctxs (d := s.dev) passed.ctxs c
  rw [eq, updFrame_one (before.symm ▸ one), before] at h
  refine answers_mono h fun t ⟨nv, after⟩ => ⟨nv, ?_, ?_, ?_, ?_, ?_⟩
  · rw [after.tick]
    refine passed.tick.trans ?_
    show max (3 * s.dev.tick) (pipeOf s.dev p.val).free / 3 = _
    omega
  · exact (ctxOf_of_ctxs (after.ctxs.trans (setPipe_ctxs _ _ _)) c).trans (ctxOf_own e c _)
  · rw [pipeOf, after.img]
    exact congrArg Pipeline.free (get_set_same (same {}) _ _ _)
  · exact sameRegs_trans passed.regs after.regs
  · exact after.stations.trans passed.stations

end Sys2Proof.Proofs
end

section
/-! The archive of a frame, and what it leaves of the device (R332 to R336). -/
namespace Sys2Proof.Proofs
open Sys2Proof.Machine Sys2Proof.Laws

/-! ### What archiving a frame leaves -/

/-- A context but for the marks that the end of a frame leaves on it: GAP of its next record, and the end of RECOVERY. -/
def unmarked (x : Ctx) : Ctx := { x with gap := false, mode := 0 }

/-- What archiving a frame of context `c` leaves as it was. -/
def besideArchive (c : Nat) (d : Dev) : Nat × Heats × Mould × Tab Station × (Nat → Ctx) :=
  (d.tick, d.heats, d.mould, d.stations, fun k => if k = c then unmarked (ctxOf d k) else ctxOf d k)

section
variable {c : Nat}

theorem archive_of_besideWords {d e : Dev} (h : SameBesideWords d e) : besideArchive c e = besideArchive c d := by
  have own (k : Nat) : ctxOf e k = ctxOf d k := ctxOf_of_ctxs (d := d) h.ctxs k
  simp only [besideArchive, h.tick, h.heats, h.mould, h.stations, own]

theorem archive_of_same {d e : Dev} (h : SameButReports d e) : besideArchive c e = besideArchive c d := archive_of_besideWords (.of_same h)

theorem archive_of_onlyDram {d e : Dev} (h : OnlyDram d e) : besideArchive c e = besideArchive c d := by
  rw [h]
  rfl

/-- A mark on the context itself is beside the point. -/
theorem archive_setCtx {d : Dev} {x : Ctx} (h : unmarked x = unmarked (ctxOf d c)) : besideArchive c (setCtx d c x) = besideArchive c d := by
  have ctxs (k : Nat) : (if k = c then unmarked (ctxOf (setCtx d c x) k) else ctxOf (setCtx d c x) k) =
      if k = c then unmarked (ctxOf d k) else ctxOf d k := by
    by_cases own : k = c
    · rw [if_pos own, if_pos own, own, ctxOf_own, h]
    · rw [if_neg own, if_neg own, ctxOf_other own]
  simp only [besideArchive, ctxs]
  rfl

@[simp] theorem archive_setGap (d : Dev) (gap : Bool) : besideArchive c (setCtx d c { ctxOf d c with gap := gap }) = besideArchive c d :=
  archive_setCtx rfl
@[simp] theorem archive_setMode (d : Dev) (mode : Nat) : besideArchive c (setCtx d c { ctxOf d c with mode := mode }) = besideArchive c d :=
  archive_setCtx rfl
@[simp] theorem archive_setReg (d : Dev) (p off v : Nat) : besideArchive c (d.setReg p off v) = besideArchive c d := rfl
@[simp] theorem archive_setFld (d : Dev) (p off lo w v : Nat) : besideArchive c (d.setFld p off lo w v) = besideArchive c d := rfl
@[simp] theorem archive_count (d : Dev) (p off : Nat) : besideArchive c (d.count p off) = besideArchive c d := rfl
@[simp] theorem archive_addCount (d : Dev) (p off n : Nat) : besideArchive c (d.addCount p off n) = besideArchive c d := rfl
@[simp] theorem archive_raise_process (d : Dev) (p b sev code payload : Nat) :
    besideArchive c (raise d p b clsProcess sev code payload) = besideArchive c d := archive_of_same (same_raise _ _ _ _ _ _ _ (by decide))
@[simp] theorem archive_raise_housekeeping (d : Dev) (p b sev code payload : Nat) :
    besideArchive c (raise d p b clsHousekeeping sev code payload) = besideArchive c d :=
  archive_of_same (same_raise _ _ _ _ _ _ _ (by decide))
@[simp] theorem archive_ringLost (d : Dev) (r : Nat) : besideArchive c (ringLost d r) = besideArchive c d :=
  archive_of_besideWords (besideWords_ringLost d r)
@[simp] theorem archive_emit (d : Dev) (r : Nat) (kind : RecKind) (data : Nat) : besideArchive c (emit d r kind data) = besideArchive c d := by
  unfold emit
  dsimp only
  split <;> simp [archive_of_same (same_enqueue _ _ _)]

/-! ### The archive (R332 to R336) -/

@[simp] theorem archive_sendData (d : Dev) (r : Nat) (bs : List Byte) : besideArchive c (sendData d r bs) = besideArchive c d := by
  unfold sendData
  dsimp only
  split <;> rfl

@[simp] theorem archive_showFlags (d : Dev) (k number flags : Nat) : besideArchive c (showFlags d k number flags) = besideArchive c d := by
  unfold showFlags
  split
  · exact archive_setFld _ _ _ _ _ _
  · rfl

@[simp] theorem archive_archiveDrop (d : Dev) (number : Nat) : besideArchive c (archiveDrop d c number) = besideArchive c d :=
  (archive_raise_process _ _ _ _ _ _).trans (archive_setGap _ _)

@[simp] theorem archive_archiveDone (d : Dev) (number record : Nat) (data : Option (List Byte)) :
    besideArchive c (archiveDone d c number record data).1 = besideArchive c d := by
  unfold archiveDone
  extract_lets r flags dropped
  split
  · rfl
  cases data with
  | none => exact archive_archiveDrop d number
  | some bs =>
    dsimp only
    split
    · refine (archive_emit _ _ _ _).trans ((archive_setGap _ _).trans ?_)
      split <;> simp
    · simp

@[simp] theorem archive_archiveStaged (d : Dev) (number record : Nat) (data : Option (List Byte)) :
    besideArchive c (archiveStaged d c number record data) = besideArchive c d := by
  simp [archiveStaged]

@[simp] theorem archive_dramWrite (d : Dev) (port a : Nat) (bs : List Byte) (client : DramClient) :
    besideArchive c (dramWrite d port a bs client) = besideArchive c d := archive_of_onlyDram (dramWrite_onlyDram _ _ _ _ _)
@[simp] theorem archive_dramRead (d : Dev) (port a n : Nat) (use : TransferUse) :
    besideArchive c (dramRead d port a n use).2 = besideArchive c d := archive_of_onlyDram (dramRead_onlyDram _ _ _ _ _)

@[simp] theorem archive_stageFrame (d : Dev) (number record : Nat) (bs : List Byte) :
    besideArchive c (stageFrame d c number record bs) = besideArchive c d := by
  unfold stageFrame
  dsimp only
  split
  case _ e read =>
    rw [archive_archiveStaged, ← show _ = e from congrArg Prod.snd read, archive_dramRead, archive_dramWrite]
    rfl
  case _ e read =>
    rw [← show _ = e from congrArg Prod.snd read, archive_dramRead, archive_dramWrite]
    rfl

@[simp] theorem archive_followArchive (d : Dev) (len : Nat) : besideArchive c (followArchive d c len) = besideArchive c d := by
  unfold followArchive
  dsimp only
  split <;> rfl

/-- The ingots that did not shrink are counted and told one by one. -/
theorem archive_plainIngots (e : Nat) (l : List Nat) (d : Dev) :
    besideArchive c (l.foldl (fun d i => raise (d.count pageIcd 0x06C) pageIcd 0 clsHousekeeping sevInfo 0x0201 (pay e 0 0 i)) d) =
      besideArchive c d := by
  induction l generalizing d with
  | nil => rfl
  | cons i l ih => rw [List.foldl_cons, ih, archive_raise_housekeeping, archive_count]

@[simp] theorem archive_archiveFrame (d : Dev) (f : CamFrame) (st : Stats) (flags : Nat) :
    besideArchive c (archiveFrame d c f st flags).1 = besideArchive c d := by
  unfold archiveFrame
  extract_lets tap fl coded len e d0 d1 record
  have told : besideArchive c d1 = besideArchive c d := (archive_addCount _ _ _ _).trans (archive_plainIngots e coded.2.2 d)
  repeat' split
  all_goals simp [told]

end

end Sys2Proof.Proofs
end

section
/-! The close of a frame (R315, R319, R334, R342), with a blackbody run that takes it (R446). -/
namespace Sys2Proof.Proofs
open Sys2Proof.Machine Sys2Proof.Laws

/-- The context once its oldest frame `f` is closed. -/
def closedCtx (x : Ctx) (f : CamFrame) (first : Nat) : Ctx :=
  { x with frames := x.frames.filter (·.sof != f.sof), first := some first, closed := x.closed + 1 }

/-- But for the marks on its context a close takes the frame from it and is counted. -/
theorem closeFrame_beside (d : Dev) (c : Nat) (f : CamFrame) :
    ∃ first, besideArchive c (closeFrame d c f) = besideArchive c (setCtx d c (closedCtx (ctxOf d c) f first)) := by
  unfold closeFrame
  extract_lets p x coaxial rows short st number first chosen flags d1 a d2 d3 d4 d5 d6
  refine ⟨first, ?_⟩
  have stored : besideArchive c a.1 = besideArchive c d1 := by
    unfold a
    split
    · exact archive_archiveFrame _ _ _ _
    · rfl
  have shown : besideArchive c d3 = besideArchive c d1 :=
    (archive_setReg _ _ _ _).trans ((archive_setReg _ _ _ _).trans ((archive_setReg _ _ _ _).trans
      ((archive_setReg _ _ _ _).trans ((archive_count _ _ _).trans stored))))
  have faulty : besideArchive c d4 = besideArchive c d1 := by
    unfold d4
    split
    · exact (archive_count _ _ _).trans shown
    · exact shown
  have shortTold : besideArchive c d5 = besideArchive c d1 := by
    unfold d5
    split
    · exact (archive_raise_process _ _ _ _ _ _).trans faulty
    · exact faulty
  have longTold : besideArchive c d6 = besideArchive c d1 := by
    unfold d6
    split
    · exact (archive_raise_process _ _ _ _ _ _).trans shortTold
    · exact shortTold
  split
  · exact (archive_raise_process _ _ _ _ _ _).trans ((archive_setMode _ _).trans longTold)
  · exact longTold

/-- Of `d`, with one frame open in context `c`, `e` has closed it. -/
structure FrameClosed (c : Nat) (d e : Dev) : Prop where
  tick : e.tick = d.tick
  heats : e.heats = d.heats
  mould : e.mould = d.mould
  stations : e.stations = d.stations
  frames : (ctxOf e c).frames = []
  closed : (ctxOf e c).closed = (ctxOf d c).closed + 1
  others : ∀ k, k ≠ c → ctxOf e k = ctxOf d k

theorem closeFrame_one {d : Dev} {c : Nat} {f : CamFrame} (one : (ctxOf d c).frames = [f]) : FrameClosed c d (closeFrame d c f) := by
  obtain ⟨first, beside⟩ := closeFrame_beside d c f
  simp only [besideArchive, Prod.mk.injEq] at beside
  obtain ⟨tick, heats, mould, stations, ctxs⟩ := beside
  have own : unmarked (ctxOf (closeFrame d c f) c) = unmarked (closedCtx (ctxOf d c) f first) := by
    simpa only [if_pos, ctxOf_own] using congrFun ctxs c
  have empty : (closedCtx (ctxOf d c) f first).frames = [] := by simp [closedCtx, one]
  refine ⟨tick, heats, mould, stations, (congrArg Ctx.frames own).trans empty, (congrArg Ctx.closed own :), fun k other => ?_⟩
  simpa only [if_neg other, ctxOf_other other] using congrFun ctxs k

/-! ### A blackbody run that waits for the frame (R446) -/

/-- What a run on station `n` leaves as it was when it goes on or ends. -/
def besideRun (n : Nat) (d : Dev) : Nat × Boot × Par × Heats × Mould × Tab Ctx × (Nat → Station) :=
  (d.tick, d.boot, d.par, d.heats, d.mould, d.ctxs, fun k => if k = n then {} else stationOf d k)

section
variable {n : Nat}

theorem run_of_besideWords {d e : Dev} (h : SameBesideWords d e) : besideRun n e = besideRun n d := by
  have station (k : Nat) : stationOf e k = stationOf d k := stationOf_of_stations (d := d) h.stations k
  simp only [besideRun, h.tick, h.boot, h.par, h.heats, h.mould, h.ctxs, station]

@[simp] theorem run_setStation (d : Dev) (x : Station) : besideRun n (setStation d n x) = besideRun n d := by
  have others (k : Nat) : (if k = n then {} else stationOf (setStation d n x) k) = if k = n then {} else stationOf d k := by
    rw [stationOf_setStation]
    split <;> rfl
  simp only [besideRun, others]
  rfl

@[simp] theorem run_send (d : Dev) (o : Out) : besideRun n (d.send o) = besideRun n d := rfl
@[simp] theorem run_putRun (d : Dev) (h : Option Nat) (r : Option CalRun) : besideRun n (putRun d h r) = besideRun n d := by
  cases h <;> rfl
@[simp] theorem run_raise_cal (d : Dev) (p b sev code payload : Nat) :
    besideRun n (raise d p b clsCal sev code payload) = besideRun n d :=
  run_of_besideWords (.of_same (same_raise _ _ _ _ _ _ _ (by decide)))
@[simp] theorem run_calRecord (d : Dev) (ring status type target tag number cause step detail : Nat) :
    besideRun n (calRecord d ring status type target tag number cause step detail) = besideRun n d :=
  run_of_besideWords (besideWords_emitShared _ _ _ _)

@[simp] theorem run_endRaw (d : Dev) (r : CalRun) : besideRun n (endRaw d n r) = besideRun n d := by
  unfold endRaw
  extract_lets p0 st
  repeat' split
  all_goals simp [setRaw, leaveRaw]

@[simp] theorem run_releaseStation (d : Dev) (r : CalRun) : besideRun n (releaseStation d n r) = besideRun n d := by
  simp [releaseStation]

theorem run_endRun {d : Dev} {h : Option Nat} {r : CalRun} (own : r.station = some n) (status cause : Nat) :
    besideRun n (endRun d h r status cause) = besideRun n d := by
  unfold endRun
  rw [own]
  extract_lets d1 d2 back d3 d4
  have released : besideRun n d2 = besideRun n d := by
    unfold d2
    dsimp only
    split <;> simp [d1]
  have returned : besideRun n d3 = besideRun n d := by
    unfold d3
    split <;> simp [released]
  repeat' split
  all_goals simp [d4, returned]

theorem run_calFail {d : Dev} {r : CalRun} (blackbody : r.type = 0x23) (own : r.target = n) (cause : Nat) :
    besideRun n (calFail d none r cause) = besideRun n d := by
  have station : r.station = some n := by rw [CalRun.station, blackbody, own]; rfl
  unfold calFail
  rw [if_neg (by rw [blackbody]; decide)]
  exact run_endRun station _ _

theorem run_blackbodyFrame (d : Dev) : besideRun n (blackbodyFrame d n) = besideRun n d := by
  unfold blackbodyFrame
  split
  case h_2 => rfl
  case h_1 r f _ _ =>
    extract_lets after x r1 total inside
    split
    case isFalse => rfl
    case isTrue due =>
      obtain ⟨blackbody, own, -⟩ := due
      split
      · exact run_calFail blackbody own 9
      split
      · exact run_putRun _ _ _
      split
      · split
        · exact run_putRun _ _ _
        · exact run_calFail (r := r1) blackbody own 9
      · exact run_calFail (r := r1) blackbody own 9

/-- The run takes no frame before its close cycle. -/
theorem blackbodyFrame_early {d : Dev} {f : CamFrame} (one : (ctxOf d n).frames = [f]) (early : d.cycle < f.closeCycle) :
    blackbodyFrame d n = d := by
  unfold blackbodyFrame
  rw [one, List.head?_cons]
  cases d.cal.run with
  | none => rfl
  | some r => exact if_neg fun ⟨_, _, _, _, _, due⟩ => absurd due (Nat.not_le.mpr early)

end

/-! ### The close of a coaxial frame (R315) -/

theorem closeCoaxial_early {d : Dev} {c : Nat} {f : CamFrame} (one : (ctxOf d c).frames = [f]) (early : d.cycle < f.closeCycle) :
    closeCoaxial d c = d := by
  unfold closeCoaxial
  rw [one, List.head?_cons]
  dsimp only
  rw [decide_eq_false (Nat.not_le.mpr early), Bool.and_false, if_neg Bool.false_ne_true]

/-- The loop is offered the statistics of its own station's frame alone (R224). -/
theorem run_offerStats (d : Dev) (n : Nat) (f : CamFrame) : besideRun n (offerStats d n f) = besideRun n d := by
  unfold offerStats
  dsimp only
  split
  · exact run_setStation d _
  · rfl

/-- At its close cycle the frame closes, at no other time than the device's, and the loop may be offered its statistics. -/
theorem closeCoaxial_due {d : Dev} {c : Nat} {f : CamFrame} (one : (ctxOf d c).frames = [f]) (running : d.running = true)
    (due : f.closeCycle ≤ d.cycle) :
    besideRun c (closeCoaxial d c) =
      besideRun c { closeFrame { d with tick := (f.closeCycle + 1) * 1250 } c f with tick := d.tick } := by
  unfold closeCoaxial
  rw [one, List.head?_cons]
  dsimp only
  rw [if_pos (by rw [running, decide_eq_true due]; rfl)]
  split
  · exact run_offerStats _ c f
  · rfl

section
variable {s : State} {n : Fin 32} {f : CamFrame} (one : (ctxOf s.dev n.val).frames = [f])
include one

theorem coaxialFrameClose_early (early : s.dev.cycle < f.closeCycle) : AnswersButReports s (.coaxialFrameClose n) s.now := by
  have h := answers_coaxialFrameClose s n
  rwa [blackbodyFrame_early (d := s.now) one early, closeCoaxial_early (d := s.now) one early] at h

theorem coaxialFrameClose_due (running : s.dev.running = true) (due : f.closeCycle ≤ s.dev.cycle) :
    Answers s (.coaxialFrameClose n) fun t =>
      t.nv = s.nv ∧ t.dev.tick = s.dev.tick ∧ (ctxOf t.dev n.val).frames = [] ∧
      (ctxOf t.dev n.val).closed = (ctxOf s.dev n.val).closed + 1 ∧
      (∀ k, k ≠ n.val → ctxOf t.dev k = ctxOf s.dev k) ∧ (∀ k, k ≠ n.val → stationOf t.dev k = stationOf s.dev k) ∧
      t.dev.heats = s.dev.heats ∧ t.dev.mould = s.dev.mould := by
  have h := answers_coaxialFrameClose s n
  have taken := run_blackbodyFrame (n := n.val) s.now
  generalize blackbodyFrame s.now n.val = d at *
  simp only [besideRun, Prod.mk.injEq] at taken
  obtain ⟨tick, boot, par, heats, mould, ctxs, stations⟩ := taken
  have before (k : Nat) : ctxOf d k = ctxOf s.dev k := ctxOf_of_ctxs (d := s.dev) ctxs k
  have waits : (ctxOf d n.val).frames = [f] := by rw [before, one]
  have runs : d.running = true := by rw [Dev.running, boot, par]; exact running
  have ripe : f.closeCycle ≤ d.cycle := by rw [Dev.cycle, tick]; exact due
  have effect := closeCoaxial_due waits runs ripe
  have close : FrameClosed n.val { d with tick := (f.closeCycle + 1) * 1250 } _ := closeFrame_one (f := f) (by exact waits)
  generalize closeFrame { d with tick := (f.closeCycle + 1) * 1250 } n.val f = e at *
  simp only [besideRun, Prod.mk.injEq] at effect
  obtain ⟨closedTick, -, -, closedHeats, closedMould, closedCtxs, closedStations⟩ := effect
  refine answers_mono h fun t ⟨nv, after⟩ => ?_
  have ctx (k : Nat) : ctxOf t.dev k = ctxOf e k := ctxOf_of_ctxs (d := e) (after.ctxs.trans closedCtxs) k
  refine ⟨nv, (after.tick.trans closedTick).trans tick, ?_, ?_, fun k other => ?_, fun k other => ?_, ?_, ?_⟩
  · rw [ctx, close.frames]
  · rw [ctx, close.closed, ← before]
    rfl
  · rw [ctx, close.others k other, ← before]
    rfl
  · have own := congrFun closedStations k
    have whole := congrFun stations k
    simp only [if_neg other] at own whole
    rw [stationOf_of_stations after.stations, own]
    exact (stationOf_of_stations (d := d) close.stations k).trans whole
  · exact ((after.heats.trans closedHeats).trans close.heats).trans heats
  · exact ((after.mould.trans closedMould).trans close.mould).trans mould

end

/-- Settles O42: the camera block by whether its frame is open, the pipeline by what it picks, the close by its cycle. -/
theorem coaxialImaging : Obligations.CoaxialImaging := by
  unfold Obligations.CoaxialImaging
  refine ⟨fun s u n hdr data running on lane => ⟨?_, ?_⟩, ?_, ?_⟩
  · intro f one number whole row count rest long first last sat inTime room
    exact answers_cameraBlock_row running on lane one number whole ⟨row, count, rest, first, last, sat⟩ long inTime room
  · exact answers_cameraBlock_noFrame running on lane
  · exact fun s p c f running on early pick one => pipelineLineStart_picked running on early pick one
  · exact fun s n f running one => ⟨coaxialFrameClose_due one running, coaxialFrameClose_early one⟩

end Sys2Proof.Proofs
end

section
/-! Overview ports: packets, their frames and their lines (R317 to R319). -/
namespace Sys2Proof.Proofs
open Sys2Proof.Machine Sys2Proof.Laws

/-! ### The page of IMG -/

/-- The words of IMG's page but for its pennants are no reports. -/
theorem reportWord_img {off : Nat} (ho : off < 4096) (pen : off ≠ 0x010) : reportWord (wordAddr pageImg off) = false := by
  have page : wordAddr pageImg off / 4096 = pageImg := wordAddr_page ho
  have place : wordAddr pageImg off % 4096 = off := wordAddr_offset ho
  simp only [reportWord, page, place, Bool.or_eq_false_iff, Bool.and_eq_false_iff, beq_eq_false_iff_ne, decide_eq_false_iff_not]
  simp only [wordAddr, pageEvq, pageImg]
  omega

theorem at_img (s : State) (u : Nat) : (s.at u).img = s.dev.img := arrive_img s.now u

theorem at_portUp (s : State) (u p : Nat) : portUp (s.at u) p = portUp s.dev p := by
  rw [portUp, at_enabled, at_img, portUp]

/-! ### Packets (R317) -/

/-- A packet that arrives on a port is noted in register words alone. -/
theorem besideWords_portPacket (d : Dev) (p : Nat) (corrected : Bool) : SameBesideWords d (portPacket d p corrected) := by
  unfold portPacket
  dsimp only
  split <;> exact same_refl _

/-- Registers and contexts put into two devices that are the same but for them and for reports. -/
theorem same_regs_ctxs {d e t : Dev} {x : Tab Ctx} (h : SameBesideWords d e) (k : SameButReports { e with ctxs := x } t) :
    SameButReports { d with regs := t.regs, ctxs := t.ctxs } t :=
  same_trans (b := { e with regs := t.regs, ctxs := t.ctxs }) { h with regs := sameRegs_refl _, ctxs := rfl }
    { k with regs := sameRegs_refl _, ctxs := rfl }

/-- A packet that arrives leaves every context as it was. -/
theorem portPacket_ctxOf (s : State) (u p k : Nat) : ctxOf (portPacket (s.at u) p false) k = ctxOf s.dev k :=
  (ctxOf_of_ctxs (d := s.at u) (besideWords_portPacket _ _ _).ctxs k).trans (at_ctxOf s u k)

section
variable {d : Dev} {p vc : Nat} {f : Dev → Nat → Dev} (up : portUp d p = true)
include up

theorem withContext_taken (small : vc < 4) (on : d.enabled (pageCtx (overviewCtx p vc)) = true) (corrected : Bool) :
    withContext d p vc corrected f = f (portPacket d p corrected) (overviewCtx p vc) := by
  rw [withContext, if_pos up]
  exact if_pos ⟨small, on⟩

theorem withContext_discards (none : 4 ≤ vc ∨ d.enabled (pageCtx (overviewCtx p vc)) = false) (corrected : Bool) :
    withContext d p vc corrected f = discardPacket (portPacket d p corrected) p := by
  rw [withContext, if_pos up]
  refine if_neg fun ⟨small, on⟩ => ?_
  rcases none with large | off
  · exact absurd small (Nat.not_lt.mpr large)
  · rw [on] at off
    cases off

end

/-! ### Frames and lines (R318, R319) -/

/-- The frame that a Frame Start opens. -/
def openedFrame (d : Dev) (c number : Nat) : CamFrame :=
  { sof := d.tick, number := number, regs := ctxParams d c d.cycle, tables := ctxTablesAt d c d.cycle }

theorem frameStart_opens {d : Dev} {c : Nat} (closed : (ctxOf d c).frames = []) (number : Nat) :
    frameStart d c number = setCtx d c { ctxOf d c with frames := [openedFrame d c number], sofAt := d.tick + 1 } := by
  have rests : closeOverview d c = d := by rw [closeOverview, closed]; rfl
  rw [frameStart, rests]
  rfl

theorem closeOverview_one {d : Dev} {c : Nat} {f : CamFrame} (one : (ctxOf d c).frames = [f]) : closeOverview d c = closeFrame d c f := by
  rw [closeOverview, one]
  rfl

/-- The frame once a line of its type and width has arrived in it. -/
def joined (f : CamFrame) (pixels : List (BitVec 12)) : CamFrame :=
  { f with lines := f.lines.set (same []) f.arrived pixels, waiting := f.waiting ++ [f.arrived], arrived := f.arrived + 1 }

/-- The codes of a line's pixels for its frame (R318). -/
def lineCodes (f : CamFrame) (pixels : List (BitVec 16)) : List (BitVec 12) := pixels.map fun w => normalise (f.fld 0x05C 4 2) w.toNat

/-- The row of a line that has arrived joins its frame. -/
theorem acceptRow_joins {d : Dev} {c : Nat} {f : CamFrame} (whole : f.overflow = false) (room : f.waiting.length < 16) (row : List (BitVec 12)) :
    let x : Ctx := { ctxOf d c with frames := [{ f with arrived := f.arrived + 1 }] }
    acceptRow (setCtx d c x) c f.sof f.arrived row = setCtx (setCtx d c x) c { ctxOf d c with frames := [joined f row] } := by
  intro x
  have arrived : (ctxOf (setCtx d c x) c).frames = [{ f with arrived := f.arrived + 1 }] := by rw [ctxOf_own]
  rw [acceptRow_one arrived whole room, ctxOf_own]
  rfl

section
variable {d : Dev} {c dt : Nat} {f : CamFrame} {pixels : List (BitVec 16)} (one : (ctxOf d c).frames = [f])
include one

/-- The line counts as arrived, and goes to the FIFO of its context. -/
theorem overviewLine_arrives (type : dt = 0x2A + f.fld 0x05C 4 2) (width : pixels.length = f.fld 0x058 0 11)
    (more : f.arrived < f.fld 0x058 16 11) (p : Nat) : overviewLine d p c dt pixels =
      acceptRow (setCtx d c { ctxOf d c with frames := [{ f with arrived := f.arrived + 1 }] }) c f.sof f.arrived (lineCodes f pixels) := by
  rw [overviewLine, one, List.head?_cons]
  dsimp only
  rw [if_neg (not_not.mpr type), if_neg (not_not.mpr width), if_neg (Nat.not_le.mpr more), updFrame_one one]
  rfl

end

section
variable {s : State} {u : Nat} {p : Fin 2} {vc : Fin 16} (up : portUp s.dev p.val = true)
include up

/-- A packet for no enabled context is discarded and counted (R317). -/
theorem csi2FrameStart_discarded (n : BitVec 16) (none : 4 ≤ vc.val ∨ s.dev.enabled (pageCtx (overviewCtx p.val vc.val)) = false) :
    Answers s (.csi2FrameStart u p vc n false) fun t =>
      t.nv = s.nv ∧ t.dev.rfld pageImg (0x080 + 4 * p.val) 0 32 =
        min (s.dev.rfld pageImg (0x080 + 4 * p.val) 0 32 + 1) 0xFFFFFFFF ∧
      SameButReports { s.at u with regs := t.dev.regs } t.dev := by
  have h := answers_csi2FrameStart s u p vc n false
  rw [← at_portUp s u] at up
  rw [← at_enabled s u] at none
  rw [withContext_discards up none, discardPacket] at h
  have quiet : reportWord (wordAddr pageImg (0x080 + 4 * p.val)) = false := reportWord_img (by omega) (by omega)
  have apart : wordAddr pageImg (0x080 + 4 * p.val) ≠ wordAddr pageImg (0x060 + 16 * p.val) := by
    rw [Ne, wordAddr_eq (by omega) (by omega)]
    omega
  have kept : (portPacket (s.at u) p.val false).rfld pageImg (0x080 + 4 * p.val) 0 32 = (s.at u).rfld pageImg (0x080 + 4 * p.val) 0 32 := by
    show ((s.at u).setFld pageImg (0x060 + 16 * p.val) 0 2 3).rfld _ _ _ _ = _
    rw [Dev.rfld, setFld_read, if_neg apart, Dev.rfld]
  refine answers_mono h fun t ⟨nv, after⟩ => ⟨nv, ?_, ?_⟩
  · rw [rfld_of_same after _ _ quiet, count_rfld, kept, at_rfld s u _ _ quiet]
  · exact (besideWords_portPacket _ _ _).trans ((besideWords_setReg _ _ _ _).trans (.of_same after))

variable (small : vc.val < 4) (on : s.dev.enabled (pageCtx (overviewCtx p.val vc.val)) = true)
include small on

/-- A packet for an enabled context acts on that context. -/
theorem answers_taken {i : Instr} {f : Dev → Nat → Dev} (h : AnswersButReports s i (withContext (s.at u) p.val vc.val false f)) :
    AnswersButReports s i (f (portPacket (s.at u) p.val false) (overviewCtx p.val vc.val)) := by
  rwa [withContext_taken ((at_portUp s u p.val).trans up) small ((at_enabled s u _).trans on)] at h

theorem csi2FrameStart_opens (n : BitVec 16) (closed : (ctxOf s.dev (overviewCtx p.val vc.val)).frames = []) :
    Answers s (.csi2FrameStart u p vc n false) fun t =>
      t.nv = s.nv ∧ (∃ f, ctxOf t.dev (overviewCtx p.val vc.val) = { ctxOf s.dev (overviewCtx p.val vc.val) with
        frames := [f], sofAt := (s.at u).tick + 1 } ∧ f.sof = (s.at u).tick ∧ f.number = n.toNat ∧ f.lines = [] ∧ f.waiting = []) ∧
      (∀ k, k ≠ overviewCtx p.val vc.val → ctxOf t.dev k = ctxOf s.dev k) ∧
      SameButReports { s.at u with regs := t.dev.regs, ctxs := t.dev.ctxs } t.dev := by
  have h := answers_taken up small on (answers_csi2FrameStart s u p vc n false)
  have before := portPacket_ctxOf s u p.val
  rw [frameStart_opens ((congrArg Ctx.frames (before _)).trans closed), before] at h
  refine answers_mono h fun t ⟨nv, after⟩ => ⟨nv,
    ⟨openedFrame (portPacket (s.at u) p.val false) (overviewCtx p.val vc.val) n.toNat, ?_, rfl, rfl, rfl, rfl⟩, fun k other => ?_, ?_⟩
  · exact (ctxOf_of_ctxs after.ctxs _).trans (ctxOf_own _ _ _)
  · rw [ctxOf_of_ctxs after.ctxs, ctxOf_other other, before]
  · exact same_regs_ctxs (besideWords_portPacket _ _ _) after

theorem csi2Line_joins {f : CamFrame} {dt : BitVec 6} {px : List (BitVec 16)}
    (one : (ctxOf s.dev (overviewCtx p.val vc.val)).frames = [f]) (type : dt.toNat = 0x2A + f.fld 0x05C 4 2)
    (width : px.length = f.fld 0x058 0 11) (whole : f.overflow = false) (more : f.arrived < f.fld 0x058 16 11)
    (room : f.waiting.length < 16) :
    Answers s (.csi2Line u p vc dt px false) fun t =>
      t.nv = s.nv ∧
      ctxOf t.dev (overviewCtx p.val vc.val) = { ctxOf s.dev (overviewCtx p.val vc.val) with frames := [joined f (lineCodes f px)] } ∧
      SameButReports { s.at u with regs := t.dev.regs, ctxs := t.dev.ctxs } t.dev := by
  have h := answers_taken up small on (answers_csi2Line s u p vc dt px false)
  have before := portPacket_ctxOf s u p.val
  have waits := (congrArg Ctx.frames (before _)).trans one
  rw [overviewLine_arrives waits type width more, acceptRow_joins whole room, before] at h
  refine answers_mono h fun t ⟨nv, after⟩ => ⟨nv, ?_, ?_⟩
  · exact (ctxOf_of_ctxs after.ctxs _).trans (ctxOf_own _ _ _)
  · exact same_regs_ctxs (besideWords_portPacket _ _ _) after

theorem csi2FrameEnd_closes (n : BitVec 16) {f : CamFrame} (one : (ctxOf s.dev (overviewCtx p.val vc.val)).frames = [f]) :
    Answers s (.csi2FrameEnd u p vc n false) fun t =>
      t.nv = s.nv ∧ (ctxOf t.dev (overviewCtx p.val vc.val)).frames = [] ∧
      (ctxOf t.dev (overviewCtx p.val vc.val)).closed = (ctxOf s.dev (overviewCtx p.val vc.val)).closed + 1 ∧
      t.dev.stations = s.dev.stations ∧ t.dev.heats = s.dev.heats := by
  have h := answers_taken up small on (answers_csi2FrameEnd s u p vc n false)
  have before := portPacket_ctxOf s u p.val
  have waits := (congrArg Ctx.frames (before _)).trans one
  rw [closeOverview_one waits] at h
  have close := closeFrame_one waits
  refine answers_mono h fun t ⟨nv, after⟩ => ⟨nv, ?_, ?_, ?_, ?_⟩
  · rw [ctxOf_of_ctxs after.ctxs, close.frames]
  · rw [ctxOf_of_ctxs after.ctxs, close.closed, before]
  · exact (after.stations.trans close.stations).trans (arrive_stations s.now u)
  · exact (after.heats.trans close.heats).trans (at_heats s u)

end

end Sys2Proof.Proofs
end

section
/-! Faulty packets, ports that lose their synchronisation, and the states of a context (R317, R341, R342, R345), and with them O43. -/
namespace Sys2Proof.Proofs
open Sys2Proof.Machine Sys2Proof.Laws

/-! ### Faulty packets (R317, R345) -/

/-- A header that was corrected counts as such. -/
def headerCounted (d : Dev) (p : Nat) (h : PacketHeader) : Dev := if h.corrected then d.count pageImg (0x064 + 16 * p) else d

/-- The virtual channel that the event of a discarded packet names (R348). -/
def headerChannel (h : PacketHeader) : Nat := match h.vc with | some v => v.val | none => 0xFF

section
variable {d : Dev} {p : Nat} (h : PacketHeader) (up : portUp d p = true)
include up

theorem packetError_header : packetError d p 0 h =
    raise (d.count pageImg (0x068 + 16 * p)) pageImg p clsLink sevWarning 0x0710 (pay p (headerChannel h) 0 0) := by
  unfold packetError
  simp only [up, bne_self_eq_false, Bool.and_false, Bool.not_true, Bool.false_eq_true, if_false, if_true]
  rfl

theorem packetError_payload : packetError d p 1 h =
    raise ((headerCounted d p h).count pageImg (0x06C + 16 * p)) pageImg (2 + p) clsLink sevWarning 0x0711 (pay p (headerChannel h) 0 0) := by
  unfold packetError headerCounted
  simp only [up, show ((1 : Nat) != 0) = true from rfl, Bool.and_true, Bool.not_true, Bool.false_eq_true, if_false, if_true, one_ne_zero]
  rfl

theorem packetError_unsupported : packetError d p 2 h = discardPacket (headerCounted d p h) p := by
  unfold packetError headerCounted
  simp only [up, show ((2 : Nat) != 0) = true from rfl, Bool.and_true, Bool.not_true, Bool.false_eq_true, if_false,
    show ¬ (2 : Nat) = 0 by decide, show ¬ (2 : Nat) = 1 by decide]

end

/-! ### Ports (R342, R345) -/

/-- The bits of a port's number set and cleared. -/
theorem getLsbD_port_set (lost : BitVec 2) (p : Fin 2) : (lost ||| BitVec.ofNat 2 (2 ^ p.val)).getLsbD p.val = true := by
  revert lost p
  decide
theorem getLsbD_port_clear (lost : BitVec 2) (p : Fin 2) : (lost &&& BitVec.ofNat 2 (3 - 2 ^ p.val)).getLsbD p.val = false := by
  revert lost p
  decide

/-- The device once a port has lost its synchronisation, before that is reported. -/
def portLostDev (d : Dev) (p : Nat) : Dev :=
  { d with img := { d.img with lost := d.img.lost ||| BitVec.ofNat 2 (2 ^ p) } }.setFld pageImg (0x060 + 16 * p) 1 1 0

theorem portLostDev_pipes (d : Dev) (p : Nat) : (portLostDev d p).img.pipes = d.img.pipes := rfl

theorem syncLost_up {d : Dev} {p : Nat} (up : portUp d p = true) :
    syncLost d p = raise (portLostDev d p) pageImg (4 + p) clsLink sevWarning 0x0712 (pay p 0 0 0) := if_pos up

theorem portUp_of_lost {d : Dev} {p : Nat} (lost : d.img.lost.getLsbD p = true) : portUp d p = false := by
  rw [portUp, lost, Bool.not_true, Bool.and_false]

/-- The device once a port has its synchronisation again. -/
def portBackDev (d : Dev) (p : Nat) : Dev :=
  { d with img := { d.img with lost := d.img.lost &&& BitVec.ofNat 2 (3 - 2 ^ p) } }.setFld pageImg (0x060 + 16 * p) 0 2 3

/-! ### RECOVERY and TEST (R341, R342) -/

/-- The context with its open frames given up, in RECOVERY. -/
def recovering (x : Ctx) : Ctx := { x with frames := [], mode := 2 }

theorem enterRecovery_on {d : Dev} {c : Nat} (on : d.enabled (pageCtx c) = true) :
    enterRecovery d c = setCtx d c (recovering (ctxOf d c)) := if_pos on

theorem setTest_on {d : Dev} {c : Nat} (on : d.enabled (pageCtx c) = true) (test : Bool) :
    setTest d c test = setCtx d c { ctxOf d c with
      mode := if test then 1 else if (ctxOf d c).mode = 1 then 0 else (ctxOf d c).mode } := if_pos on

theorem enterRecovery_frame (d : Dev) (c : Nat) :
    enterRecovery d c = { d with ctxs := (enterRecovery d c).ctxs } ∧ ∀ k, k ≠ c → ctxOf (enterRecovery d c) k = ctxOf d k := by
  unfold enterRecovery
  split
  · exact ⟨rfl, fun k => ctxOf_other⟩
  · exact ⟨rfl, fun _ _ => rfl⟩

/-- The contexts of a port recover one after another; nothing else changes. -/
theorem recoverContexts_effect (d : Dev) (p n : Nat) :
    let e := upto n (fun d v => enterRecovery d (overviewCtx p v)) d
    e = { d with ctxs := e.ctxs } ∧ (∀ k, (∀ v, v < n → k ≠ overviewCtx p v) → ctxOf e k = ctxOf d k) ∧
      ∀ v, v < n → d.enabled (pageCtx (overviewCtx p v)) = true →
        ctxOf e (overviewCtx p v) = recovering (ctxOf d (overviewCtx p v)) := by
  induction n with
  | zero => exact ⟨rfl, fun _ _ => rfl, fun v small => absurd small (Nat.not_lt_zero v)⟩
  | succ n ih =>
    rw [upto_succ]
    generalize upto n (fun d v => enterRecovery d (overviewCtx p v)) d = e at *
    obtain ⟨frame, others, own⟩ := ih
    obtain ⟨nextFrame, nextOthers⟩ := enterRecovery_frame e (overviewCtx p n)
    have distinct {v w : Nat} (h : v ≠ w) : overviewCtx p v ≠ overviewCtx p w := by unfold overviewCtx; omega
    refine ⟨by rw [nextFrame, frame], fun k out => ?_, fun v small on => ?_⟩
    · rw [nextOthers k (out n (Nat.lt_succ_self n)), others k fun v h => out v (Nat.lt_succ_of_lt h)]
    · by_cases last : v = n
      · have still : e.enabled (pageCtx (overviewCtx p n)) = true := by rw [frame, ← last]; exact on
        rw [last, enterRecovery_on still, ctxOf_own, others _ fun w h => distinct (Nat.ne_of_gt h)]
      · rw [nextOthers _ (distinct last), own v (by omega) on]

theorem portReturn_lost {d : Dev} {p : Nat} (lost : d.img.lost.getLsbD p = true) :
    portReturn d p = upto 4 (fun d v => enterRecovery d (overviewCtx p v)) (portBackDev d p) := if_pos lost

theorem portReturn_kept {d : Dev} {p : Nat} (kept : d.img.lost.getLsbD p = false) : portReturn d p = d :=
  if_neg (by rw [kept]; decide)

theorem portBackDev_enabled (d : Dev) (p : Fin 2) (q : Nat) : (portBackDev d p.val).enabled q = d.enabled q :=
  congrFun (enabled_setFld _ pageImg (0x060 + 16 * p.val) 0 2 3 (by omega)) q

/-! ### The commands -/

section
variable {s : State} {u : Nat} {p : Fin 2}

theorem csi2PacketError_header (up : portUp s.dev p.val = true) (h : PacketHeader) :
    Answers s (.csi2PacketError u p 0 h) fun t =>
      t.nv = s.nv ∧ t.dev.pennant pageImg p.val = true ∧ SameButReports ((s.at u).count pageImg (0x068 + 16 * p.val)) t.dev := by
  have answer := answers_csi2PacketError s u p 0 h
  rw [show (0 : BitVec 2).toNat = 0 from rfl, packetError_header h ((at_portUp s u _).trans up)] at answer
  exact answers_raise answer (by omega) (by decide)

theorem csi2PacketError_payload (up : portUp s.dev p.val = true) (h : PacketHeader) :
    Answers s (.csi2PacketError u p 1 h) fun t =>
      t.nv = s.nv ∧ t.dev.pennant pageImg (2 + p.val) = true ∧
      SameButReports ((headerCounted (s.at u) p.val h).count pageImg (0x06C + 16 * p.val)) t.dev := by
  have answer := answers_csi2PacketError s u p 1 h
  rw [show (1 : BitVec 2).toNat = 1 from rfl, packetError_payload h ((at_portUp s u _).trans up)] at answer
  exact answers_raise answer (by omega) (by decide)

theorem csi2PacketError_unsupported (up : portUp s.dev p.val = true) (h : PacketHeader) :
    AnswersButReports s (.csi2PacketError u p 2 h) ((headerCounted (s.at u) p.val h).count pageImg (0x080 + 4 * p.val)) := by
  have answer := answers_csi2PacketError s u p 2 h
  rwa [show (2 : BitVec 2).toNat = 2 from rfl, packetError_unsupported h ((at_portUp s u _).trans up)] at answer

theorem csiSyncLost_up (up : portUp s.dev p.val = true) :
    Answers s (.csiSyncLost u p) fun t =>
      t.nv = s.nv ∧ t.dev.pennant pageImg (4 + p.val) = true ∧ portUp t.dev p.val = false ∧ t.dev.ctxs = s.dev.ctxs ∧
      t.dev.img.pipes = s.dev.img.pipes := by
  have h := answers_csiSyncLost s u p
  rw [syncLost_up ((at_portUp s u _).trans up)] at h
  refine answers_mono (answers_raise h (by omega) (by decide)) fun t ⟨nv, pennant, after⟩ => ⟨nv, pennant, portUp_of_lost ?_, ?_, ?_⟩
  · rw [after.img]
    exact getLsbD_port_set _ p
  · exact after.ctxs.trans (arrive_ctxs s.now u)
  · rw [after.img]
    exact (portLostDev_pipes _ _).trans (congrArg Imaging.pipes (at_img s u))

theorem csiPortReturn_lost (lost : s.dev.img.lost.getLsbD p.val = true) :
    Answers s (.csiPortReturn u p) fun t =>
      t.nv = s.nv ∧ t.dev.img.lost.getLsbD p.val = false ∧
      (∀ v, v < 4 → s.dev.enabled (pageCtx (overviewCtx p.val v)) = true →
        (ctxOf t.dev (overviewCtx p.val v)).mode = 2 ∧ (ctxOf t.dev (overviewCtx p.val v)).frames = []) ∧
      (∀ k, k < 32 → ctxOf t.dev k = ctxOf s.dev k) := by
  have h := answers_csiPortReturn s u p
  rw [portReturn_lost (d := s.at u) (by rw [at_img, lost])] at h
  obtain ⟨frame, others, own⟩ := recoverContexts_effect (portBackDev (s.at u) p.val) p.val 4
  generalize upto 4 (fun d v => enterRecovery d (overviewCtx p.val v)) (portBackDev (s.at u) p.val) = e at *
  refine answers_mono h fun t ⟨nv, after⟩ => ⟨nv, ?_, fun v small on => ?_, fun k coaxial => ?_⟩
  · rw [after.img, frame]
    exact getLsbD_port_clear _ p
  · rw [ctxOf_of_ctxs after.ctxs, own v small (by rw [portBackDev_enabled, at_enabled, on])]
    exact ⟨rfl, rfl⟩
  · rw [ctxOf_of_ctxs after.ctxs, others k fun v _ => by unfold overviewCtx; omega]
    exact at_ctxOf s u k

theorem csiPortReturn_kept (kept : s.dev.img.lost.getLsbD p.val = false) : AnswersButReports s (.csiPortReturn u p) (s.at u) := by
  have h := answers_csiPortReturn s u p
  rwa [portReturn_kept (d := s.at u) (by rw [at_img, kept])] at h

end

section
variable {s : State} {c : Fin 40} (on : s.dev.enabled (pageCtx c.val) = true)
include on

theorem ctxRunRecover_on : AnswersButReports s (.ctxRunRecover c) (setCtx s.now c.val (recovering (ctxOf s.dev c.val))) := by
  have h := answers_ctxRunRecover s c
  rwa [enterRecovery_on (d := s.now) on] at h

/-- TEST of CTX_RUN brings a context into TEST, and out of it only from there (R341). -/
theorem ctxRunTest_on (test : Bool) {mode : Nat}
    (enters : mode = if test then 1 else if (ctxOf s.dev c.val).mode = 1 then 0 else (ctxOf s.dev c.val).mode) :
    Answers s (.ctxRunTest c test) fun t =>
      t.nv = s.nv ∧ ctxOf t.dev c.val = { ctxOf s.dev c.val with mode := mode } ∧
      (∀ k, k ≠ c.val → ctxOf t.dev k = ctxOf s.dev k) := by
  have h := answers_ctxRunTest s c test
  have still : (s.now.setFld (pageCtx c.val) 0x040 0 1 (boolNat test)).enabled (pageCtx c.val) = true :=
    (congrFun (enabled_setFld s.now (pageCtx c.val) 0x040 0 1 (boolNat test) (by decide)) _).trans on
  rw [setTest_on still] at h
  refine answers_mono h fun t ⟨nv, after⟩ => ⟨nv, ?_, fun k other => ?_⟩
  · rw [ctxOf_of_ctxs after.ctxs, ctxOf_own, enters]
    rfl
  · rw [ctxOf_of_ctxs after.ctxs, ctxOf_other other]
    rfl

end

/-- Settles O43: a packet by whether its port is up and its context enabled, a port by whether it is lost, a context by the command. -/
theorem overviewImaging : Obligations.OverviewImaging := by
  unfold Obligations.OverviewImaging
  refine ⟨fun s u p vc n up => ⟨fun small on => ⟨?_, ?_, ?_⟩, ?_⟩, fun s u p h up => ⟨?_, ?_, ?_, ?_⟩, fun s u p => ⟨?_, ?_⟩,
    fun s c on => ⟨?_, ?_, fun test => ?_⟩⟩
  · exact csi2FrameStart_opens up small on n
  · exact fun f dt px one type width whole more room => csi2Line_joins up small on one type width whole more room
  · exact fun f one => csi2FrameEnd_closes up small on n one
  · exact csi2FrameStart_discarded up n
  · exact csi2PacketError_header up h
  · exact csi2PacketError_payload up h
  · exact csi2PacketError_unsupported up h
  · exact csiSyncLost_up up
  · exact csiPortReturn_lost
  · exact csiPortReturn_kept
  · exact ctxRunRecover_on on
  · exact ctxRunTest_on on true rfl
  · exact ctxRunTest_on on false (by rw [test]; rfl)

end Sys2Proof.Proofs
end

section
/-! The fetch of a line (R359, R361, R517). -/
namespace Sys2Proof.Proofs
open Sys2Proof.Machine Sys2Proof.Laws

/-! ### The code frames -/

/-- A frame that is sent changes nothing but what goes out. -/
theorem sendFrame_only {d x : Dev} (only : x = { d with out := x.out }) (lane type hdr check payload : Nat) :
    sendFrame x lane type hdr check payload = { d with out := (sendFrame x lane type hdr check payload).out } :=
  congrArg (Dev.send · (.frame lane type hdr check payload)) only

/-- Code frames are sent, and nothing else of the device changes (R361). -/
theorem sendCodes_only (d : Dev) (e : Entry) (k : Nat) : sendCodes d e k = { d with out := (sendCodes d e k).out } := by
  unfold sendCodes
  extract_lets codes heat
  refine upto_induct (fun _ (x : Dev) => x = { d with out := x.out }) rfl fun m x _ only => ?_
  split
  case h_1 => exact sendFrame_only only _ _ _ _ _
  case h_2 => exact only

/-! ### The line in its slot -/

/-- The device with line `k` in its slot in this cycle. -/
def lineTaken (d : Dev) (k : Nat) : Dev :=
  { d with lhd := { d.lhd with slots := d.lhd.slots.set (same none) (k % 16) (some (k, d.cycle)) } }

theorem slotOf_lineTaken (d : Dev) (k j : Nat) :
    slotOf (lineTaken d k) j = if j % 16 = k % 16 then some (k, d.cycle) else slotOf d j :=
  get_set (same none) d.lhd.slots (k % 16) (j % 16) (some (k, d.cycle))

theorem lineAt_of_slotOf {d e : Dev} {j : Nat} (h : slotOf e j = slotOf d j) : lineAt e j = lineAt d j := by
  rw [lineAt, h, lineAt]

theorem lineAt_lineTaken_own (d : Dev) (k : Nat) : lineAt (lineTaken d k) k = some d.cycle := by
  simp only [lineAt, slotOf_lineTaken, if_true]

theorem lineAt_lineTaken_other (d : Dev) {k j : Nat} (other : j % 16 ≠ k % 16) : lineAt (lineTaken d k) j = lineAt d j :=
  lineAt_of_slotOf (by rw [slotOf_lineTaken, if_neg other])

theorem slotOf_of_lhd {d e : Dev} (h : e.lhd = d.lhd) (j : Nat) : slotOf e j = slotOf d j := by rw [slotOf, h, slotOf]

/-! ### The line that is fetched -/

/-- A line that is the lowest staged one, with the strobe 8 lines on still to come and its slot free, is next (R359). -/
theorem fetchable_lowest {d : Dev} {x : Run} {e : Entry} {codes : List Byte} {k : Nat} {later : Tab (List Byte)}
    (running : d.heats.running = some x) (header : x.header = some e) (lines : x.heat.lines = (8192 * psIndex e + k, codes) :: later)
    (ofPass : k < psLines e) (ahead : nextStrobe d ≤ k + 8) (free : slotOf d k = none) : fetchable d = some (e, k) := by
  have own : 8192 * psIndex e + k - 8192 * psIndex e = k := Nat.add_sub_cancel_left _ _
  have may : mayFetch d (nextStrobe d) k = true := by rw [mayFetch, free, decide_eq_true ahead]; rfl
  have within : 8192 * psIndex e ≤ 8192 * psIndex e + k ∧ 8192 * psIndex e + k < 8192 * psIndex e + psLines e := by omega
  unfold fetchable
  rw [running]
  dsimp only
  rw [header]
  dsimp only
  rw [lines, List.find?_cons_of_pos (by dsimp only; rw [own, may, decide_eq_true within]; rfl), Option.map_some]
  dsimp only
  rw [own]

theorem fetchLine_fetches {d : Dev} {e : Entry} {k : Nat} (computes : d.computes = true) (may : mayCode d = true)
    (next : fetchable d = some (e, k)) : fetchLine d = sendCodes (lineTaken d k) e k := by
  unfold fetchLine
  rw [computes, may, next]
  rfl

theorem fetchLine_rests {d : Dev} (h : mayCode d = false ∨ fetchable d = none) : fetchLine d = d := by
  unfold fetchLine
  rcases h with full | nothing
  · rw [full, Bool.not_false, Bool.or_true, if_pos rfl]
  · rw [nothing]
    exact ite_self d

/-! ### The command -/

theorem lineFetch_rests {s : State} (h : mayCode s.dev = false ∨ fetchable s.dev = none) : AnswersButReports s .lineFetch s.now := by
  have answer := answers_lineFetch s
  rwa [fetchLine_rests (d := s.now) h] at answer

theorem lineFetch_fetches {s : State} {e : Entry} {k : Nat} (computes : s.dev.computes = true) (may : mayCode s.dev = true)
    (next : fetchable s.dev = some (e, k)) :
    Answers s .lineFetch fun t =>
      t.nv = s.nv ∧ lineAt t.dev k = some s.dev.cycle ∧ (∀ j, j % 16 ≠ k % 16 → lineAt t.dev j = lineAt s.dev j) ∧
      SameButReports { s.now with lhd := { s.dev.lhd with slots := t.dev.lhd.slots }, out := t.dev.out } t.dev := by
  have h := answers_lineFetch s
  rw [fetchLine_fetches (d := s.now) computes may next, sendCodes_only] at h
  refine answers_mono h fun t ⟨nv, after⟩ => ?_
  have line (j : Nat) : lineAt t.dev j = lineAt (lineTaken s.now k) j := lineAt_of_slotOf (slotOf_of_lhd after.lhd j)
  refine ⟨nv, (line k).trans (lineAt_lineTaken_own s.now k), fun j other => (line j).trans (lineAt_lineTaken_other s.now other), ?_⟩
  rw [after.lhd, after.out]
  exact after

end Sys2Proof.Proofs
end

section
/-! The strobe of the cycle (R351), and the emitter test (R382, R384). -/
namespace Sys2Proof.Proofs
open Sys2Proof.Machine Sys2Proof.Laws

/-- Devices that differ in reports alone do so whatever line head both have. -/
theorem same_lhd {d e : Dev} (h : SameButReports d e) (x : LineHead) :
    SameButReports { d with lhd := x } { e with lhd := x } := { h with lhd := rfl }

/-! ### The strobe -/

/-- Time goes on to a tick unless it is past: nothing changes but the tick and reports. -/
theorem same_advance_max (d : Dev) (t : Nat) : SameButReports { d with tick := max d.tick t } (d.advance t) := by
  rcases Nat.le_total d.tick t with ahead | past
  · rw [Nat.max_eq_right ahead]
    exact same_advance d t ahead
  · rw [Nat.max_eq_left past, Dev.advance, if_neg (Nat.not_lt.mpr past)]
    exact same_refl d

section
variable {d : Dev} {o : StrobeOut} (applied : d.lhd.applied = some o)
include applied

theorem fireStrobe_fires (unfired : o.fired = false) :
    SameButReports { d with
      tick := max d.tick (min o.tick (d.cycle * 1250 + 1249))
      lhd := { d.lhd with applied := some { o with fired := true } } } (fireStrobe d) := by
  have passed := same_advance_max d (min o.tick (d.cycle * 1250 + 1249))
  unfold fireStrobe
  rw [applied]
  dsimp only
  rw [unfired, if_neg Bool.false_ne_true, passed.lhd]
  exact same_lhd passed _

theorem fireStrobe_fired (fired : o.fired = true) : fireStrobe d = d := by
  unfold fireStrobe
  rw [applied]
  dsimp only
  rw [if_pos fired]

end

/-! ### The emitter test -/

theorem startTest_starts {d : Dev} (computes : d.computes = true) (idle : d.lhd.testing = none) (allowed : testAllowed d = true) :
    startTest d = { d.setReg pageLhd 0x080 0 with lhd := { d.lhd with testing := some d.cycle } } :=
  if_pos (by rw [computes, idle, allowed]; rfl)

theorem startTest_refused {d : Dev} (refused : testAllowed d = false) : startTest d = d :=
  if_neg (by rw [refused, Bool.and_false]; exact Bool.false_ne_true)

/-- The device once an emitter test has ended complete, before that is reported (R384). -/
def testEnded (d : Dev) : Dev :=
  { d.setFld pageLhd 0x080 16 1 1 with lhd := { d.lhd with testing := none, tested := true } }

section
variable {d : Dev} {c : Nat} (testing : d.lhd.testing = some c)
include testing

theorem finishTest_done (computes : d.computes = true) (past : c + 1025 ≤ d.cycle) :
    ∃ payload, finishTest d = raise (testEnded d) pageLhd 5 clsHousekeeping sevInfo 0x030E payload := by
  unfold finishTest
  rw [testing]
  dsimp only
  rw [computes, decide_eq_true past, Bool.and_true, if_pos rfl]
  exact ⟨_, rfl⟩

theorem finishTest_runs (under : d.cycle < c + 1025) : finishTest d = d := by
  unfold finishTest
  rw [testing]
  dsimp only
  rw [decide_eq_false (Nat.not_le.mpr under), Bool.and_false, if_neg Bool.false_ne_true]

end

/-- A bit that the device sets in its own register reads 1. -/
theorem setFld_rfld_one (d : Dev) (p off : Nat) {b : Nat} (small : b < 32) : (d.setFld p off b 1 1).rfld p off b 1 = 1 := by
  rw [Dev.rfld, setFld_read, if_pos rfl, setBits_one _ _ small]
  refine Nat.eq_of_testBit_eq fun i => ?_
  rw [testBit_bits, BitVec.toNat_or, Nat.testBit_or, testBit_word, Nat.testBit_two_pow, ← Nat.pow_zero 2, Nat.testBit_two_pow]
  by_cases first : i = 0
  · simp [first, small]
  · simp [first, Ne.symm first]

/-- What is said but for register words holds whatever field the device writes. -/
theorem same_regs_lhd {d e : Dev} {p off lo w v : Nat} {x : LineHead} (h : SameButReports { d.setFld p off lo w v with lhd := x } e) :
    SameButReports { d with regs := e.regs, lhd := x } e := SameBesideWords.of_same h

theorem emitterTestDone_done {s : State} {c : Nat} (testing : s.dev.lhd.testing = some c) (computes : s.dev.computes = true)
    (past : c + 1025 ≤ s.dev.cycle) :
    Answers s .emitterTestDone fun t =>
      t.nv = s.nv ∧ t.dev.pennant pageLhd 5 = true ∧ t.dev.rfld pageLhd 0x080 16 1 = 1 ∧
      SameButReports { s.now with regs := t.dev.regs, lhd := { s.dev.lhd with testing := none, tested := true } } t.dev := by
  have h := answers_emitterTestDone s
  obtain ⟨payload, done⟩ := finishTest_done (d := s.now) testing computes past
  rw [done] at h
  refine answers_mono (answers_raise h (by decide) (by decide)) fun t ⟨nv, pen, after⟩ => ⟨nv, pen, ?_, ?_⟩
  · rw [Dev.rfld, after.regs.read _ (by decide)]
    exact setFld_rfld_one s.now pageLhd 0x080 (by decide)
  · exact same_regs_lhd after

end Sys2Proof.Proofs
end

section
/-! The end of islands and the patch island that joins a run: what they keep (R113, R154, R381). -/
namespace Sys2Proof.Proofs
open Sys2Proof.Machine Sys2Proof.Laws

/-! ### Pennants through a record -/

theorem onward_ringLost (d : Dev) (r : Nat) : Onward d (ringLost d r) := by
  have drop (x : Dev) (k : Nat) : Onward x (countDrop x k).1 :=
    (onward_count _ _ _ (by decide)).trans (onward_of_same (same_setPen _ _ _))
  unfold ringLost
  dsimp only
  split
  · exact (drop d r).trans (onward_of_same (same_reportVia quiet_deliverPlain _ _ _ _ _ _ (by decide)))
  · exact drop d r

theorem onward_emitShared (d : Dev) (r : Nat) (kind : RecKind) (data : Nat) : Onward d (emitShared d r kind data) := by
  unfold emitShared
  split
  · unfold emit
    dsimp only
    split
    · exact (onward_of_same (same_enqueue _ _ _)).trans (onward_ringLost _ _)
    · exact onward_of_same (same_enqueue _ _ _)
  · exact onward_of_same (same_keep _ _)

theorem onward_setRun (d : Dev) (x : Run) : Onward d (setRun d x) := ⟨rfl, rfl, fun _ _ h => h⟩

theorem onward_islandDone (d : Dev) (x : Run) (key final status : Nat) (station : Option Nat) :
    Onward d (islandDone d x key final status station) := by
  unfold islandDone
  dsimp only
  refine .trans ?_ (onward_of_same (same_statusReport _ _ _ _))
  split
  · exact (onward_setRun d _).trans (onward_emitShared _ _ _ _)
  · exact onward_setRun d _

/-! ### Patch islands through the end of islands -/

/-- What the end of islands keeps: the line head, the patch islands of the run, and pennants that are set. -/
structure PatchesKept (d e : Dev) : Prop where
  lhd : e.lhd = d.lhd
  patches : e.heats.running.map Run.patches = d.heats.running.map Run.patches
  pens : ∀ p b, d.pennant p b = true → e.pennant p b = true

theorem PatchesKept.refl (d : Dev) : PatchesKept d d := ⟨rfl, rfl, fun _ _ h => h⟩

theorem PatchesKept.trans {d e f : Dev} (h : PatchesKept d e) (k : PatchesKept e f) : PatchesKept d f :=
  ⟨k.lhd.trans h.lhd, k.patches.trans h.patches, fun p b set => k.pens p b (h.pens p b set)⟩

theorem patchesKept_of_same {d e : Dev} (h : SameButReports d e) : PatchesKept d e :=
  ⟨h.lhd, by rw [h.heats], h.regs.pens⟩

theorem patchesKept_islandDone {d : Dev} {x : Run} (running : d.heats.running = some x) (key final status : Nat)
    (station : Option Nat) : PatchesKept d (islandDone d x key final status station) := by
  have ended := islandDone_besideWords d x key final status station
  refine ⟨ended.lhd, ?_, (onward_islandDone d x key final status station).pens⟩
  rw [ended.heats, running]
  rfl

theorem patchesKept_strandIslands (d : Dev) : PatchesKept d (strandIslands d) := by
  unfold strandIslands
  split
  case h_1 => exact .refl d
  case h_2 =>
    refine List.foldlRecOn (motive := PatchesKept d) _ _ (.refl d) fun e kept key _ => kept.trans ?_
    split
    case h_1 y running => exact patchesKept_islandDone running key 5 stStranded none
    case h_2 => exact .refl e

/-! ### One more patch island -/

/-- The run with one more patch island, which is READY (R154). -/
def joinedRun (d : Dev) (x : Run) (box : CellBox) (pours : List (BitVec 256)) : Run :=
  ({ x with patches := x.patches ++ [(patchDescriptor d (patchPours x) box pours, pours)] }).setIsland (patchKey x.patches.length)
    { state := 1 }

theorem addPatch_eq {d : Dev} {x : Run} (running : d.heats.running = some x) (kept : x.abandon = false) (box : CellBox)
    (pours : List (BitVec 256)) :
    ∃ payload, addPatch d box pours =
      strandIslands (raise (setRun d (joinedRun d x box pours)) pageSch 3 clsProcess sevInfo 0x0403 payload) := by
  unfold addPatch
  rw [running]
  dsimp only
  rw [if_neg (by simp [kept])]
  exact ⟨_, rfl⟩

/-- A patch island that joins a run which is not abandoned is told, and leaves the line head (R154, R156). -/
theorem addPatch_effect {d : Dev} {x : Run} (running : d.heats.running = some x) (kept : x.abandon = false) (box : CellBox)
    (pours : List (BitVec 256)) :
    (addPatch d box pours).lhd = d.lhd ∧ (addPatch d box pours).pennant pageSch 3 = true ∧
      ∃ y i, (addPatch d box pours).heats.running = some y ∧ y.patches = x.patches ++ [(i, pours)] := by
  obtain ⟨payload, added⟩ := addPatch_eq running kept box pours
  have told := same_raise (setRun d (joinedRun d x box pours)) pageSch 3 clsProcess sevInfo 0x0403 payload (by decide)
  have pen := pennant_raised (setRun d (joinedRun d x box pours)) (p := pageSch) (b := 3) (cls := clsProcess) (sev := sevInfo)
    (code := 0x0403) (payload := payload) (by decide) (by decide)
  rw [added]
  generalize raise (setRun d (joinedRun d x box pours)) pageSch 3 clsProcess sevInfo 0x0403 payload = e at told pen
  have stranded := patchesKept_strandIslands e
  obtain ⟨lhd, patches, -⟩ := (patchesKept_of_same told).trans stranded
  obtain ⟨y, now, joined⟩ := Option.map_eq_some_iff.mp patches
  exact ⟨lhd, stranded.pens _ _ pen, y, _, now, joined⟩

end Sys2Proof.Proofs
end

section
/-! The close of a gap accumulator (R378, R379, R381), and with it O44. -/
namespace Sys2Proof.Proofs
open Sys2Proof.Machine Sys2Proof.Laws

/-! ### The patch island of an accumulator -/

/-- The runs of an accumulator that become pours (R379, R380). -/
def pouredRuns (d : Dev) (a : Accum) : List GapRun := (gapRuns a.header a.gaps).filter fun r => 0 < runPower d r

theorem pouredRuns_nil (d : Dev) {a : Accum} (empty : a.gaps = []) : pouredRuns d a = [] := by
  rw [pouredRuns, empty]
  rfl

theorem buildPatch_none {d : Dev} {a : Accum} (nothing : pouredRuns d a = []) : buildPatch d a = d := by
  unfold buildPatch
  split
  case h_1 => rfl
  case h_2 => exact if_pos (by rw [← pouredRuns, nothing]; rfl)

/-- Runs that the staging region has room for all become pours of one island (R156, R381). -/
theorem buildPatch_fits {d : Dev} {a : Accum} {x : Run} (running : d.heats.running = some x) (few : x.patches.length < 4096)
    (pours : pouredRuns d a ≠ []) (room : (pouredRuns d a).length ≤ min 4096 (122880 - patchPours x)) :
    ∃ box, buildPatch d a = addPatch d box ((pouredRuns d a).map (runPour d)) := by
  have filled : (pouredRuns d a).isEmpty = false := List.isEmpty_eq_false_iff.mpr pours
  unfold buildPatch
  rw [running]
  dsimp only
  rw [← pouredRuns, filled, if_neg Bool.false_ne_true, if_neg (Nat.not_le.mpr few), List.take_of_length_le room,
    List.drop_of_length_le room, filled, if_neg Bool.false_ne_true, List.isEmpty_nil, if_pos rfl]
  exact ⟨_, rfl⟩

/-! ### The accumulator that closes -/

theorem accumsOf_setAccums (d : Dev) (m : Nat) (l : List Accum) : accumsOf (setAccums d m l) m = l := get_set_same _ _ _ _

theorem accumsOf_of_lhd {d e : Dev} (h : e.lhd = d.lhd) (m : Nat) : accumsOf e m = accumsOf d m := by rw [accumsOf, h, accumsOf]

/-- Between passes every accumulator is due (R378). -/
theorem accumDue_idle {d : Dev} (idle : d.lhd.firing = none) (a : Accum) : accumDue d a = true := by rw [accumDue, idle]

theorem closeAccumulator_oldest {d : Dev} {m : Nat} {a : Accum} {rest : List Accum} (accums : accumsOf d m = a :: rest)
    (computes : d.computes = true) (idle : d.lhd.firing = none) : closeAccumulator d m = buildPatch (setAccums d m rest) a := by
  unfold closeAccumulator
  rw [accums]
  dsimp only
  rw [List.find?_cons_of_pos (accumDue_idle idle a)]
  dsimp only
  rw [if_pos computes, List.erase_cons_head]

theorem closeAccumulator_rests {d : Dev} {m : Nat} (h : (∀ a, a ∈ accumsOf d m → accumDue d a = false) ∨ d.computes = false) :
    closeAccumulator d m = d := by
  unfold closeAccumulator
  dsimp only
  split
  case h_1 a found =>
    rcases h with early | off
    · have due := List.find?_some found
      rw [early a (List.mem_of_find?_eq_some found)] at due
      cases due
    · rw [off, if_neg Bool.false_ne_true]
  case h_2 => rfl

section
variable {s : State} {m : Fin 16} {a : Accum} {rest : List Accum} (accums : accumsOf s.dev m.val = a :: rest)
  (computes : s.dev.computes = true) (idle : s.dev.lhd.firing = none)
include accums computes idle

theorem answers_accumulatorClose_oldest :
    AnswersButReports s (.accumulatorClose m) (buildPatch (setAccums s.now m.val rest) a) := by
  have h := answers_accumulatorClose s m
  rwa [closeAccumulator_oldest (d := s.now) accums computes idle] at h

theorem accumulatorClose_empty (empty : a.gaps = []) :
    AnswersButReports s (.accumulatorClose m) (setAccums s.now m.val rest) := by
  have h := answers_accumulatorClose_oldest accums computes idle
  rwa [buildPatch_none (pouredRuns_nil _ empty)] at h

theorem accumulatorClose_patches {x : Run} (running : s.dev.heats.running = some x) (few : x.patches.length < 4096)
    (kept : x.abandon = false) (pours : pouredRuns s.dev a ≠ [])
    (room : (pouredRuns s.dev a).length ≤ min 4096 (122880 - patchPours x)) :
    Answers s (.accumulatorClose m) fun t =>
      t.nv = s.nv ∧ accumsOf t.dev m.val = rest ∧ t.dev.pennant pageSch 3 = true ∧
      ∃ y i, t.dev.heats.running = some y ∧ y.patches = x.patches ++ [(i, (pouredRuns s.dev a).map (runPour s.dev))] := by
  have h := answers_accumulatorClose_oldest accums computes idle
  obtain ⟨box, built⟩ := buildPatch_fits (d := setAccums s.now m.val rest) running few pours room
  rw [built] at h
  obtain ⟨lhd, pen, y, i, now, joined⟩ := addPatch_effect (d := setAccums s.now m.val rest) running kept box
    ((pouredRuns s.dev a).map (runPour s.dev))
  refine answers_mono h fun t ⟨nv, after⟩ => ⟨nv, ?_, pennant_of_same after pen, y, i, ?_, joined⟩
  · rw [accumsOf_of_lhd (after.lhd.trans lhd), accumsOf_setAccums]
  · exact (congrArg Heats.running after.heats).trans now

end

/-- Settles O44: the fetch by whether a frame may go and a line waits, the strobe by whether it has fired, the accumulator by
what its gaps give, the test by its conditions and its time. -/
theorem lineHead : Obligations.LineHead := by
  unfold Obligations.LineHead
  refine ⟨fun s _ full => lineFetch_rests (.inl full), fun s computes may => ⟨fun e k => lineFetch_fetches computes may, ?_,
    fun nothing => lineFetch_rests (.inr nothing)⟩,
    fun s o applied => ⟨fun unfired => ?_, fun fired => ?_⟩, fun s m => ⟨?_, ?_, fun h => ?_⟩,
    fun s => ⟨fun computes idle allowed => ?_, fun refused => ?_⟩,
    fun s c testing => ⟨emitterTestDone_done testing, fun under => ?_⟩⟩
  · intro x e codes k later running header lines ofPass ahead free
    exact lineFetch_fetches computes may (fetchable_lowest running header lines ofPass ahead free)
  · exact answers_same (answers_lineStrobe s) (fireStrobe_fires (d := s.now) applied unfired)
  · have h := answers_lineStrobe s
    rwa [fireStrobe_fired (d := s.now) applied fired] at h
  · exact fun a rest accums empty computes idle => accumulatorClose_empty accums computes idle empty
  · exact fun a rest x accums computes idle running few kept pours room =>
      accumulatorClose_patches accums computes idle running few kept pours room
  · have answer := answers_accumulatorClose s m
    rwa [closeAccumulator_rests (d := s.now) h] at answer
  · have h := answers_emitterTestStart s
    rwa [startTest_starts (d := s.now) computes idle allowed] at h
  · have h := answers_emitterTestStart s
    rwa [startTest_refused (d := s.now) refused] at h
  · have h := answers_emitterTestDone s
    rwa [finishTest_runs (d := s.now) testing under] at h

end Sys2Proof.Proofs
end

section
/-! What the stepper block reads of the device, and what its writes of axes leave. -/
namespace Sys2Proof.Proofs
open Sys2Proof.Machine Sys2Proof.Laws

/-! ### The axes of a mask -/

theorem mem_maskAxes {mask x : Nat} : x ∈ maskAxes mask ↔ x < 12 ∧ bit mask x = true := by
  simp [maskAxes]

theorem maskAxes_sorted (mask : Nat) : (maskAxes mask).Pairwise (· < ·) := List.pairwise_lt_range.filter _

theorem maskAxes_ne_nil {mask : BitVec 12} (nonzero : mask ≠ 0) : maskAxes mask.toNat ≠ [] := by
  refine fun none => nonzero (BitVec.eq_of_getLsbD_eq fun x hx => ?_)
  have absent : x ∉ maskAxes mask.toNat := by simp [none]
  rw [mem_maskAxes, not_and, Bool.not_eq_true] at absent
  exact (absent hx).trans BitVec.getLsbD_zero.symm

theorem head_mem_maskAxes {mask : BitVec 12} (nonzero : mask ≠ 0) :
    ∃ x, (maskAxes mask.toNat).head? = some x ∧ bit mask.toNat x = true := by
  obtain ⟨x, hx⟩ := Option.isSome_iff_exists.mp (List.isSome_head?.mpr (maskAxes_ne_nil nonzero))
  exact ⟨x, hx, (mem_maskAxes.mp (List.mem_of_mem_head? hx)).2⟩

/-! ### One axis -/

theorem axisOf_setAxis (d : Dev) (x y : Nat) (a : StepAxis) : axisOf (setAxis d x a) y = if y = x then a else axisOf d y :=
  get_set _ _ _ _ _

theorem axisOf_setAxis_own (d : Dev) (x : Nat) (a : StepAxis) : axisOf (setAxis d x a) x = a := by
  rw [axisOf_setAxis, if_pos rfl]

theorem axisOf_of_stp {d e : Dev} (h : e.stp = d.stp) (x : Nat) : axisOf e x = axisOf d x := by rw [axisOf, h, axisOf]

theorem at_axisOf (s : State) (u x : Nat) : axisOf (s.at u) x = axisOf s.dev x :=
  axisOf_of_stp (d := s.dev) (arrive_stp s.now u) x

theorem at_moves (s : State) (u : Nat) : (s.at u).stp.moves = s.dev.stp.moves := congrArg Stp.moves (arrive_stp s.now u)

/-- `e` is `d` but for the axes, of which it keeps what `view` shows. -/
structure SameAxes {β : Type} (view : StepAxis → β) (d e : Dev) : Prop where
  only : e = { d with stp := { d.stp with axes := e.stp.axes } }
  axis : ∀ x, view (axisOf e x) = view (axisOf d x)

section
variable {β : Type} {view : StepAxis → β} {d e f : Dev}

theorem SameAxes.refl (d : Dev) : SameAxes view d d := ⟨rfl, fun _ => rfl⟩

theorem SameAxes.of_eq (h : e = d) : SameAxes view d e := by
  rw [h]
  exact .refl d

theorem SameAxes.trans (h : SameAxes view d e) (k : SameAxes view e f) : SameAxes view d f :=
  ⟨by rw [k.only, h.only], fun x => (k.axis x).trans (h.axis x)⟩

theorem SameAxes.set (x : Nat) {a : StepAxis} (kept : view a = view (axisOf d x)) : SameAxes view d (setAxis d x a) := by
  refine ⟨rfl, fun y => ?_⟩
  rw [axisOf_setAxis]
  split
  case isTrue own => rw [kept, own]
  case isFalse => rfl

/-- Axes written in turn, each keeping what the view shows. -/
theorem SameAxes.foldl {l : List Nat} {f : Dev → Nat → Dev} (kept : ∀ e x, SameAxes view e (f e x)) (d : Dev) :
    SameAxes view d (l.foldl f d) :=
  List.foldlRecOn (motive := SameAxes view d) l _ (.refl d) fun e same x _ => same.trans (kept e x)

/-- What a device shows that differs from `e` in reports alone. -/
theorem SameAxes.shown (h : SameAxes view d e) (same : SameButReports e f) :
    SameButReports { d with stp := f.stp } f ∧ f.stp.moves = d.stp.moves ∧ ∀ x, view (axisOf f x) = view (axisOf d x) := by
  have stp : f.stp = e.stp := same.stp
  refine ⟨?_, by rw [stp, h.only], fun x => (congrArg view (axisOf_of_stp stp x)).trans (h.axis x)⟩
  rw [h.only] at same stp
  rw [stp]
  exact same

theorem SameAxes.moves (h : SameAxes view d e) : e.stp.moves = d.stp.moves := by rw [h.only]

/-- The same moves and the same direction of the carriage may be put in on both sides. -/
theorem SameAxes.withMoves (h : SameAxes view d e) (l : List Move) (c : Int) :
    SameAxes view { d with stp := { d.stp with moves := l, carriageDir := c } }
      { e with stp := { e.stp with moves := l, carriageDir := c } } :=
  ⟨by rw [h.only], h.axis⟩

end

theorem placeStep_places (d : Dev) (axes : List Nat) : SameAxes StepAxis.pos d (placeStep d axes) :=
  .foldl (by exact fun _ _ => .set _ rfl) d

/-! ### The moves in progress -/

/-- `e` is `d` with the moves `l` in progress: no axis has moved. -/
def MovesNow (d e : Dev) (l : List Move) : Prop :=
  ∃ c, SameAxes StepAxis.pos { d with stp := { d.stp with moves := l, carriageDir := c } } e

section
variable {d e f : Dev} {l : List Move}

theorem MovesNow.of_places (h : SameAxes StepAxis.pos d e) (k : MovesNow e f l) : MovesNow d f l := by
  obtain ⟨c, k⟩ := k
  exact ⟨c, .trans (h.withMoves l c) k⟩

/-- What a device shows of them that differs in reports alone. -/
theorem MovesNow.shown (h : MovesNow d e l) (same : SameButReports e f) :
    SameButReports { d with stp := f.stp } f ∧ f.stp.moves = l ∧ ∀ x, (axisOf f x).pos = (axisOf d x).pos := by
  obtain ⟨c, places⟩ := h
  exact places.shown same

end

section
variable {d : Dev} {m : Move} {x : Nat}

theorem moveOf_none (idle : d.stp.moves = []) (x : Nat) : moveOf d x = none := by rw [moveOf, idle, List.find?_nil]

theorem listedMove_none (idle : d.stp.moves = []) (x : Nat) : listedMove d x = none := by rw [listedMove, idle, List.find?_nil]

variable (one : d.stp.moves = [m])
include one

theorem listedMove_one (named : m.mask.getLsbD x = true) : listedMove d x = some m := by
  rw [listedMove, one, List.find?_cons_of_pos (by exact named)]

theorem moveOf_one (named : m.mask.getLsbD x = true) (going : m.finished = false) : moveOf d x = some m := by
  rw [moveOf, one, List.find?_cons_of_pos (by simp [named, going])]

/-- The one move in progress goes on as another of the same lead. -/
theorem putMove_one {n : Move} (lead : n.lead = m.lead) : putMove d n = { d with stp := { d.stp with moves := [n] } } := by
  simp [putMove, one, lead]

theorem dropMove_one : dropMove d m = { d with stp := { d.stp with moves := [] } } := by simp [dropMove, one]

/-- It is to stop, from the start of the cycle on. -/
theorem putStop_one {n : Move} (lead : n.lead = m.lead) : MovesNow d (putStop d n) [{ n with stopFrom := d.cycle * 1250 }] := by
  unfold putStop
  extract_lets rest
  exact ⟨if rest then 0 else d.stp.carriageDir, .of_eq (putMove_one (d := { d with stp := { d.stp with
    carriageDir := if rest then 0 else d.stp.carriageDir } }) (n := { n with stopFrom := d.cycle * 1250 }) one lead)⟩

end

/-! ### Devices that the steppers find alike -/

/-- `e` has the time, axes, moves and register words of `d`, but for the words of reporting and of the STP page. -/
structure SteppersAlike (d e : Dev) : Prop where
  tick : e.tick = d.tick
  axes : e.stp.axes = d.stp.axes
  moves : e.stp.moves = d.stp.moves
  read : ∀ a, a / 4096 ≠ pageStp → reportWord a = false → e.regs.read a = d.regs.read a
  inUse : ∀ a, a / 4096 ≠ pageStp → reportWord a = false → e.regs.inUse a = d.regs.inUse a
  pend : e.regs.pend = d.regs.pend
  live : e.regs.live = d.regs.live
  released : e.regs.released = d.regs.released
  everHeld : e.regs.everHeld = d.regs.everHeld

theorem SteppersAlike.trans {d e f : Dev} (h : SteppersAlike d e) (k : SteppersAlike e f) : SteppersAlike d f :=
  ⟨k.tick.trans h.tick, k.axes.trans h.axes, k.moves.trans h.moves, fun a far silent => (k.read a far silent).trans (h.read a far silent),
    fun a far silent => (k.inUse a far silent).trans (h.inUse a far silent), k.pend.trans h.pend, k.live.trans h.live,
    k.released.trans h.released, k.everHeld.trans h.everHeld⟩

theorem steppersAlike_of_same {d e : Dev} (h : SameButReports d e) : SteppersAlike d e :=
  ⟨h.tick, by rw [h.stp], by rw [h.stp], fun a _ => h.regs.read a, fun a _ => h.regs.inUse a, h.regs.pend, h.regs.live,
    h.regs.released, h.regs.everHeld⟩

theorem steppersAlike_setReg (d : Dev) {off : Nat} (v : Nat) (ho : off < 4096) : SteppersAlike d (d.setReg pageStp off v) := by
  have apart (a : Nat) (far : a / 4096 ≠ pageStp) : a ≠ wordAddr pageStp off := fun own => far (own ▸ wordAddr_page ho)
  refine ⟨rfl, rfl, rfl, fun a far _ => ?_, fun a far _ => ?_, rfl, rfl, rfl, rfl⟩
  · rw [setReg_read, if_neg (apart a far)]
  · rw [setReg_inUse, if_neg (apart a far)]

theorem reportWord_sax (x : Nat) {off : Nat} (ho : off < 4096) (pen : off ≠ 0x010) :
    reportWord (wordAddr (pageSax x) off) = false :=
  reportWord_far (by unfold pageSax; omega) ho pen

theorem reportWord_rate {x : Nat} (hx : x < 12) : reportWord (wordAddr pageMld (0x600 + 4 * x)) = false := by
  simp only [reportWord, wordAddr, pageMld, pageEvq, Bool.or_eq_false_iff, Bool.and_eq_false_iff, beq_eq_false_iff_ne]
  omega

section
variable {d e : Dev} (alike : SteppersAlike d e)
include alike

namespace SteppersAlike

theorem cycle : e.cycle = d.cycle := by rw [Dev.cycle, alike.tick, Dev.cycle]

theorem axisOf (x : Nat) : axisOf e x = axisOf d x := by rw [Machine.axisOf, alike.axes, Machine.axisOf]

theorem axisMoving (x : Nat) : axisMoving e x = axisMoving d x := by
  rw [Machine.axisMoving, moveOf, alike.moves, ← moveOf, ← Machine.axisMoving]

theorem saxInUse (x : Nat) {off : Nat} (ho : off < 4096) (pen : off ≠ 0x010) :
    e.regs.inUse (wordAddr (pageSax x) off) = d.regs.inUse (wordAddr (pageSax x) off) := by
  refine alike.inUse _ ?_ (reportWord_sax x ho pen)
  rw [wordAddr_page ho]
  simp only [pageSax, pageStp]
  omega

theorem saxRead (x : Nat) {off : Nat} (ho : off < 4096) (pen : off ≠ 0x010) :
    e.regs.read (wordAddr (pageSax x) off) = d.regs.read (wordAddr (pageSax x) off) := by
  refine alike.read _ ?_ (reportWord_sax x ho pen)
  rw [wordAddr_page ho]
  simp only [pageSax, pageStp]
  omega

theorem enabled (x : Nat) : e.enabled (pageSax x) = d.enabled (pageSax x) := by
  rw [Dev.enabled, Dev.flag, alike.saxInUse x (by decide) (by decide), Dev.enabled, Dev.flag]

theorem saxLive (x : Nat) {off : Nat} (ho : off < 4096) (pen : off ≠ 0x010) : saxLive e x off = saxLive d x off := by
  rw [Machine.saxLive, inUseAt, alike.live, alike.cycle, alike.saxInUse x ho pen, ← inUseAt, ← Machine.saxLive]

theorem saxTarget (x : Nat) : saxTarget e x = saxTarget d x := by
  rw [Machine.saxTarget, alike.saxLive x (by decide) (by decide), Machine.saxTarget]

theorem saxVdir (x : Nat) : saxVdir e x = saxVdir d x := by
  rw [Machine.saxVdir, alike.saxLive x (by decide) (by decide), Machine.saxVdir]

theorem groupRipe (p k : Nat) : groupRipe e p k = groupRipe d p k := by
  have hold : e.flag pageDev 0x040 0 = d.flag pageDev 0x040 0 := by
    rw [Dev.flag, alike.inUse _ (by decide) (reportWord_of_offset (by decide) (by decide)), Dev.flag]
  funext g
  simp only [Machine.groupRipe, holdAllows, hold, alike.everHeld, alike.released, alike.pend]

theorem saxNow (x : Nat) {off : Nat} (ho : off < 4096) (pen : off ≠ 0x010) : saxNow e x off = saxNow d x off := by
  simp only [Machine.saxNow, saxWord, dueWord, alike.axisMoving, alike.saxInUse x ho pen, alike.saxRead x ho pen, alike.cycle,
    alike.groupRipe]

theorem mayStand (x : Nat) (p : Int) : mayStand e x p = mayStand d x p := by
  rw [Machine.mayStand, alike.saxNow x (by decide) (by decide), alike.saxNow x (by decide) (by decide), Machine.mayStand]

theorem stepsToLimit (mask : Nat) (negative : Bool) : stepsToLimit e mask negative = stepsToLimit d mask negative := by
  have room : limitRoom e negative = limitRoom d negative := by
    funext x
    rw [limitRoom, alike.axisOf, alike.saxNow x (by decide) (by decide), alike.saxNow x (by decide) (by decide), limitRoom]
  unfold Machine.stepsToLimit
  rw [room]

theorem mouldStep {x : Nat} (hx : x < 12) : mouldStep e x = mouldStep d x := by
  have page : wordAddr pageMld (0x600 + 4 * x) / 4096 ≠ pageStp := by
    rw [wordAddr_page (by omega)]
    decide
  rw [Machine.mouldStep, Dev.fld, alike.inUse _ page (reportWord_rate hx), ← Dev.fld, ← Machine.mouldStep]

end SteppersAlike
end

/-! ### A move that begins (R399, R402) -/

/-- A move of which no step has been issued. -/
structure Fresh (m : Move) (mask lead kind : Nat) (heat : Option HeatMove) (negative : Bool) (total t : Nat) : Prop where
  mask : m.mask = BitVec.ofNat 12 mask
  lead : m.lead = lead
  kind : m.kind = kind
  heat : m.heat = heat
  negative : m.negative = negative
  total : m.total = total
  last : m.last = m.total
  issued : m.issued = 0
  began : m.began = t

theorem beginMove_begins (d : Dev) (mask lead kind : Nat) (heat : Option HeatMove) (negative : Bool) (total speed t : Nat) :
    ∃ m, MovesNow d (beginMove d mask lead kind heat negative total speed t) (d.stp.moves ++ [m]) ∧
      Fresh m mask lead kind heat negative total t :=
  ⟨_, ⟨_, .trans (.foldl (by exact fun _ _ => .set _ rfl) _) (placeStep_places _ _)⟩, by constructor <;> rfl⟩

/-- A POSITION move with a way to go begins (R399). -/
theorem beginPosition_begins {d : Dev} {mask : Nat} {targets : List (Nat × Int)} (speed : Nat → Nat) (heat : Option HeatMove) (t : Nat)
    (travels : (planTravel d mask targets).2.2 ≠ 0) :
    ∃ m, MovesNow d (beginPosition d mask targets speed heat t) (d.stp.moves ++ [m]) ∧
      Fresh m mask (planTravel d mask targets).2.1 0 heat (decide ((planTravel d mask targets).2.2 < 0))
        (planTravel d mask targets).2.2.natAbs t := by
  have planned : SameAxes StepAxis.pos d (planTravel d mask targets).1 := .foldl (by exact fun _ _ => .set _ rfl) d
  obtain ⟨m, begins, fresh⟩ := beginMove_begins (planTravel d mask targets).1 mask (planTravel d mask targets).2.1 0 heat
    (decide ((planTravel d mask targets).2.2 < 0)) (planTravel d mask targets).2.2.natAbs
    (speed (planTravel d mask targets).2.1) t
  rw [planned.moves] at begins
  rw [beginPosition, if_neg travels]
  exact ⟨m, begins.of_places planned, fresh⟩

/-- A VELOCITY move with a way to its limit begins (R404). -/
theorem beginVelocity_begins {d : Dev} {mask : Nat} {negative : Bool} (speed t : Nat) (room : stepsToLimit d mask negative ≠ 0) :
    ∃ m, MovesNow d (beginVelocity d mask speed negative t) (d.stp.moves ++ [m]) ∧
      Fresh m mask ((maskAxes mask).headD 0) 1 none negative (stepsToLimit d mask negative) t := by
  unfold beginVelocity
  extract_lets n axes travel planned
  have places : SameAxes StepAxis.pos d planned := .foldl (by exact fun _ _ => .set _ rfl) d
  obtain ⟨m, begins, fresh⟩ := beginMove_begins planned mask (axes.headD 0) 1 none negative n speed t
  rw [places.moves] at begins
  rw [if_neg room]
  exact ⟨m, begins.of_places places, fresh⟩

end Sys2Proof.Proofs
end

section
/-! The commands of STP_MOVE (R395, R396, R399, R402, R404, R406): O35. -/
namespace Sys2Proof.Proofs
open Sys2Proof.Machine Sys2Proof.Laws

/-! ### The lead of a POSITION move (R391, R402) -/

/-- The lead is the first axis of those that travel furthest. -/
theorem lead_first (f : Nat → Nat) {low : Nat} {rest : List Nat} (sorted : (low :: rest).Pairwise (· < ·)) :
    let lead := rest.foldl (fun l x => if f l < f x then x else l) low
    lead ∈ low :: rest ∧ ∀ y ∈ low :: rest, f y ≤ f lead ∧ (y < lead → f y < f lead) := by
  induction rest using List.reverseRecOn with
  | nil => simp
  | append_singleton rest x ih =>
    rw [← List.cons_append, List.pairwise_append] at sorted
    obtain ⟨before, -, below⟩ := sorted
    obtain ⟨mem, first⟩ := ih before
    rw [List.foldl_append, ← List.cons_append]
    generalize rest.foldl (fun l x => if f l < f x then x else l) low = lead at mem first
    have last : lead < x := below lead mem x (List.mem_singleton_self x)
    dsimp only [List.foldl_cons, List.foldl_nil]
    rw [List.forall_mem_append, List.forall_mem_singleton, List.mem_append, List.mem_singleton]
    split
    case isTrue further =>
      exact ⟨.inr rfl, fun y hy => ⟨(first y hy).1.trans further.le, fun _ => (first y hy).1.trans_lt further⟩, le_rfl,
        fun h => absurd h (lt_irrefl x)⟩
    case isFalse no => exact ⟨.inl mem, first, Nat.not_lt.mp no, fun h => absurd h last.asymm⟩

theorem stepsWith_le (x : Nat) : stepsWith x ≤ x := by
  unfold stepsWith
  split_ifs <;> omega

theorem stepsWith_idem (x : Nat) : stepsWith (stepsWith x) = stepsWith x := by
  unfold stepsWith
  split
  case isTrue => rfl
  case isFalse =>
    split
    case isTrue => rfl
    case isFalse => rfl

/-- The way of axis `x` in a plan, which is that of the axis whose microsteps it issues too. -/
def plannedTravel (d : Dev) (targets : List (Nat × Int)) (x : Nat) : Int :=
  (match targets.find? fun t => t.1 == stepsWith x with
    | some t => t.2
    | none => (axisOf d (stepsWith x)).pos) - (axisOf d (stepsWith x)).pos

/-- The lead of a plan. -/
def plannedLead (d : Dev) (mask : Nat) (targets : List (Nat × Int)) : Nat :=
  (maskAxes mask).foldl (fun l x => if (plannedTravel d targets l).natAbs < (plannedTravel d targets x).natAbs then x else l)
    ((maskAxes mask).headD 0)

theorem planTravel_lead (d : Dev) (mask : Nat) (targets : List (Nat × Int)) :
    (planTravel d mask targets).2 = (plannedLead d mask targets, plannedTravel d targets (plannedLead d mask targets)) := rfl

theorem plannedTravel_target {d : Dev} {axes : List Nat} {x : Nat} (goal : Nat → Int) (named : stepsWith x ∈ axes) :
    plannedTravel d (axes.map fun x => (x, goal x)) x = goal (stepsWith x) - (axisOf d (stepsWith x)).pos := by
  have found : (axes.map fun x => (x, goal x)).find? (fun t => t.1 == stepsWith x) = some (stepsWith x, goal (stepsWith x)) := by
    have own : axes.find? (fun y => y == stepsWith x) = some (stepsWith x) := by
      cases hy : axes.find? fun y => y == stepsWith x
      case none => exact absurd (List.find?_eq_none.mp hy _ named) (by simp)
      case some y => exact congrArg some (eq_of_beq (List.find?_some (p := fun y => y == stepsWith x) hy))
    rw [List.find?_map]
    exact congrArg (Option.map _) own
  rw [plannedTravel, found]

/-- With whole groups named the lead of a plan is named, and issues microsteps of its own. -/
theorem plannedLead_own {d : Dev} {mask : Nat} {targets : List (Nat × Int)} (named : maskAxes mask ≠ [])
    (whole : ∀ x ∈ maskAxes mask, stepsWith x ∈ maskAxes mask) :
    plannedLead d mask targets ∈ maskAxes mask ∧ stepsWith (plannedLead d mask targets) = plannedLead d mask targets := by
  obtain ⟨low, rest, axes⟩ := List.exists_cons_of_ne_nil named
  have sorted := maskAxes_sorted mask
  rw [axes] at sorted
  obtain ⟨mem, first⟩ := lead_first (fun x => (plannedTravel d targets x).natAbs) sorted
  have lead : plannedLead d mask targets =
      rest.foldl (fun l x => if (plannedTravel d targets l).natAbs < (plannedTravel d targets x).natAbs then x else l) low := by
    simp [plannedLead, axes]
  rw [← lead, ← axes] at mem first
  generalize plannedLead d mask targets = l at mem first
  refine ⟨mem, Nat.le_antisymm (stepsWith_le l) (Nat.not_lt.mp fun lower => ?_)⟩
  have less := (first _ (whole l mem)).2 lower
  simp only [plannedTravel, stepsWith_idem, lt_irrefl] at less

/-! ### The result of a command (R396) -/

/-- A mask that holds an axis of a group, and not a part of that group, holds every axis of it. -/
theorem bit_of_whole {mask group x y : Nat} (whole : (mask &&& group != 0 && mask &&& group != group) = false)
    (named : bit mask x = true) (inGroup : bit group x = true) (mate : bit group y = true) : bit mask y = true := by
  have all : mask &&& group = group := by
    by_contra part
    have none : mask &&& group = 0 := by simpa [part] using whole
    have both : (mask &&& group).testBit x = true := by rw [Nat.testBit_and]; exact Bool.and_eq_true_iff.mpr ⟨named, inGroup⟩
    rw [none, Nat.zero_testBit] at both
    cases both
  have both : (mask &&& group).testBit y = true := by rw [all]; exact mate
  rw [Nat.testBit_and] at both
  exact (Bool.and_eq_true_iff.mp both).1

/-- An accepted command names whole groups (R391, R396). -/
theorem moveResult_whole {d : Dev} {mask kind : Nat} (accepted : moveResult d mask kind = 0) :
    ∀ x ∈ maskAxes mask, stepsWith x ∈ maskAxes mask := by
  have parts : (mask &&& gantryMask != 0 && mask &&& gantryMask != gantryMask ||
      mask &&& platformMask != 0 && mask &&& platformMask != platformMask) = false := by
    by_contra part
    rw [Bool.not_eq_false] at part
    unfold moveResult at accepted
    simp only [part, if_true] at accepted
    split_ifs at accepted
  obtain ⟨gantry, platform⟩ := Bool.or_eq_false_iff.mp parts
  intro x hx
  obtain ⟨-, named⟩ := mem_maskAxes.mp hx
  unfold stepsWith
  split
  case isTrue low =>
    exact mem_maskAxes.mpr ⟨by decide, bit_of_whole gantry named (by interval_cases x <;> decide) (by decide)⟩
  case isFalse =>
    split
    case isTrue low =>
      exact mem_maskAxes.mpr ⟨by decide, bit_of_whole platform named (by interval_cases x <;> decide) (by decide)⟩
    case isFalse => exact hx

/-! ### The command at the start of a cycle (R395) -/

/-- The device with the result of a command in STP_RESULT. -/
@[irreducible] def resulted (d : Dev) (mask result : Nat) : Dev := d.setReg pageStp 0x044 (result + mask <<< 16)

theorem resulted_eq (d : Dev) (mask result : Nat) :
    d.setReg pageStp 0x044 (result + mask <<< 16) = resulted d mask result := by rw [resulted]

theorem alike_resulted (d : Dev) (mask result : Nat) : SteppersAlike d (resulted d mask result) := by
  rw [resulted]
  exact steppersAlike_setReg d _ (by decide)

theorem resulted_stp (d : Dev) (mask result : Nat) : (resulted d mask result).stp = d.stp := by rw [resulted, setReg_stp]

theorem resulted_idle {d : Dev} (idle : d.stp.moves = []) (mask result : Nat) : (resulted d mask result).stp.moves = [] := by
  rw [resulted_stp, idle]

theorem resulted_axisOf (s : State) (mask result x : Nat) : axisOf (resulted s.now mask result) x = axisOf s.dev x :=
  axisOf_of_stp ((resulted_stp s.now mask result).trans rfl) x

theorem resulted_cycle (d : Dev) (mask result : Nat) : (resulted d mask result).cycle = d.cycle := (alike_resulted d mask result).cycle

theorem same_limitEvent (d : Dev) (x cause : Nat) : SameButReports d (limitEvent d x cause) :=
  same_raise _ _ _ clsMotion _ _ _ (by decide)

theorem stpMove_none (d : Dev) (kind : Nat) : stpMove d 0 kind = d := by
  unfold stpMove moveCommand
  split <;> simp

/-- No move waits for its end while each has steps left. -/
theorem ended_none {d : Dev} (mask : Nat) (going : ∀ m ∈ d.stp.moves, m.finished = false) :
    (d.stp.moves.filter fun m => m.finished && m.heat.isNone && m.mask.toNat &&& mask != 0) = [] :=
  List.filter_eq_nil_iff.mpr fun m hm => by simp [going m hm]

section
variable {d : Dev} {mask kind : Nat} (running : d.running = true) (on : d.enabled pageStp = true) (nonzero : mask ≠ 0)
include running on nonzero

/-- A refused command leaves its result, and reports. -/
theorem stpMove_refused (going : ∀ m ∈ d.stp.moves, m.finished = false) (refused : moveResult d mask kind ≠ 0) :
    SameButReports (resulted d mask (moveResult d mask kind)) (stpMove d mask kind) := by
  simp only [stpMove, running, if_true, moveCommand, nonzero, on, reduceCtorEq, or_self, if_false, ended_none mask going,
    List.foldl_nil, refused, ne_eq, not_false_eq_true, resulted_eq]
  split
  · refine same_foldl _ (fun e x => ?_) _ _
    split
    · exact same_refl e
    · exact same_limitEvent e x 0
  · exact same_raise _ _ _ clsMotion _ _ _ (by decide)

/-- A command that is taken while no move is in progress. -/
theorem stpMove_idle (idle : d.stp.moves = []) (accepted : moveResult d mask kind = 0) :
    stpMove d mask kind =
      let d1 := resulted d mask 0
      let lead := (maskAxes mask).headD 0
      if kind = 0 then
        beginPosition d1 mask ((maskAxes mask).map fun x => (x, saxTarget d1 x)) (saxSpeed d1) none (d.cycle * 1250)
      else if kind = 1 then beginVelocity d1 mask (saxSpeed d1 lead) (saxVdir d1 lead) (d.cycle * 1250)
      else d1 := by
  have rests : (maskAxes mask).head?.bind (moveOf (resulted d mask 0)) = none :=
    Option.bind_eq_none_iff.mpr fun x _ => moveOf_none (resulted_idle idle mask 0) x
  simp only [stpMove, running, if_true, moveCommand, nonzero, on, reduceCtorEq, or_self, if_false, idle, List.filter_nil,
    List.foldl_nil, accepted, zero_ne_one, ne_eq, not_true_eq_false, resulted_eq, rests]

/-- A STOP that is taken while a move of its axes is in progress. -/
theorem stpMove_stop {m : Move} (one : d.stp.moves = [m]) (own : m.mask.toNat = mask) (going : m.finished = false)
    (unstopped : m.stopping = false) (accepted : moveResult d mask 2 = 0) :
    stpMove d mask 2 =
      putStop (m.axes.foldl (fun e x => setAxis e x { axisOf e x with next := none }) (resulted d mask 0))
        { m with last := min m.last (m.issued + m.nStop), nextVel := none } := by
  have runs : (maskAxes mask).head?.bind (moveOf (resulted d mask 0)) = some m := by
    subst own
    obtain ⟨x, head, named⟩ := head_mem_maskAxes (mask := m.mask) fun none => nonzero (by rw [none]; rfl)
    rw [head]
    exact moveOf_one (by rw [resulted_stp, one]) named going
  have ends := ended_none (d := d) mask (by simpa [one] using going)
  simp only [stpMove, running, if_true, moveCommand, nonzero, on, reduceCtorEq, or_self, if_false, ends, List.foldl_nil, accepted,
    zero_ne_one, ne_eq, not_true_eq_false, resulted_eq, runs, unstopped]
  rfl

end

/-! ### What a command leaves -/

theorem toNat_ne_zero {mask : BitVec 12} (nonzero : mask ≠ 0) : mask.toNat ≠ 0 :=
  fun none => nonzero (BitVec.eq_of_toNat_eq none)

section
variable {s t : State} {mask : BitVec 12} {result : Nat}

/-- What is said of a device holds with the registers and the stepper block that it has. -/
theorem same_regs_stp {d e : Dev} {f : RegFile} {p : Stp} (h : SameButReports { d with regs := f, stp := p } e) :
    SameButReports { d with regs := e.regs, stp := e.stp } e := { h with regs := sameRegs_refl _, stp := rfl }

/-- A command leaves its result, the axes where they are, and otherwise changes the stepper block alone. -/
theorem commandTaken_of_same (nv : t.nv = s.nv)
    (same : SameButReports { resulted s.now mask.toNat result with stp := t.dev.stp } t.dev)
    (places : ∀ x, (axisOf t.dev x).pos = (axisOf s.dev x).pos) : commandTaken s t mask result := by
  have read (a : Nat) (silent : reportWord a = false) :
      t.dev.regs.read a = if a = wordAddr pageStp 0x044 then word (result + mask.toNat <<< 16) else s.dev.regs.read a := by
    rw [same.regs.read a silent, resulted, setReg_read]
    rfl
  refine ⟨nv, ?_, fun a other silent => ?_, places, ?_⟩
  · rw [read _ (by decide), if_pos rfl]
  · rw [read a silent, if_neg other]
  · rw [resulted] at same
    exact same_regs_stp (d := s.now) same

/-- A command that changes what moves. -/
theorem movesNow_commandTaken {e : Dev} {l : List Move} (nv : t.nv = s.nv) (same : SameButReports e t.dev)
    (now : MovesNow (resulted s.now mask.toNat 0) e l) : commandTaken s t mask 0 ∧ t.dev.stp.moves = l := by
  obtain ⟨kept, moves, places⟩ := now.shown same
  exact ⟨commandTaken_of_same nv kept fun x => by rw [places, resulted_axisOf], moves⟩

/-- The result alone. -/
theorem resulted_commandTaken (nv : t.nv = s.nv) (same : SameButReports (resulted s.now mask.toNat result) t.dev) :
    commandTaken s t mask result ∧ t.dev.stp = s.dev.stp := by
  have stp : t.dev.stp = s.dev.stp := same.stp.trans (resulted_stp _ _ _)
  refine ⟨commandTaken_of_same nv ?_ fun x => by rw [axisOf_of_stp stp], stp⟩
  rw [same.stp]
  exact same

end

section
variable {s : State} {mask : BitVec 12} (running : s.dev.running = true) (on : s.dev.enabled pageStp = true) (nonzero : mask ≠ 0)
include running on nonzero

theorem stpMovePosition_begins (idle : s.dev.stp.moves = []) (accepted : moveResult s.dev mask.toNat 0 = 0)
    (away : ∀ y, y < 12 → bit mask.toNat y = true → saxTarget s.dev y ≠ (axisOf s.dev y).pos) :
    Answers s (.stpMovePosition mask) fun t =>
      commandTaken s t mask 0 ∧ ∃ m, t.dev.stp.moves = [m] ∧ m.mask = mask ∧ m.kind = 0 ∧ m.heat = none ∧ m.issued = 0 ∧
        bit mask.toNat m.lead = true ∧ m.total = (saxTarget s.dev m.lead - (axisOf s.dev m.lead).pos).natAbs ∧
        m.last = m.total ∧ m.negative = decide (saxTarget s.dev m.lead < (axisOf s.dev m.lead).pos) ∧
        m.began = s.dev.cycle * 1250 := by
  let d := resulted s.now mask.toNat 0
  let targets := (maskAxes mask.toNat).map fun x => (x, saxTarget d x)
  let lead := plannedLead d mask.toNat targets
  obtain ⟨named, own⟩ : lead ∈ maskAxes mask.toNat ∧ stepsWith lead = lead :=
    plannedLead_own (maskAxes_ne_nil nonzero) (moveResult_whole accepted)
  obtain ⟨small, named1⟩ := mem_maskAxes.mp named
  have way : (planTravel d mask.toNat targets).2.2 = saxTarget s.dev lead - (axisOf s.dev lead).pos := by
    rw [planTravel_lead, plannedTravel_target (saxTarget d) (own.symm ▸ named), own]
    change saxTarget (resulted s.now mask.toNat 0) lead - (axisOf (resulted s.now mask.toNat 0) lead).pos = _
    rw [(alike_resulted s.now mask.toNat 0).saxTarget, resulted_axisOf]
    rfl
  obtain ⟨m, begins, fresh⟩ := beginPosition_begins (d := d) (targets := targets) (saxSpeed d) none (s.dev.cycle * 1250)
    (by rw [way]; exact sub_ne_zero.mpr (away lead small named1))
  have atLead : m.lead = lead := fresh.lead
  have h := answers_stpMovePosition s mask
  rw [stpMove_idle running on (d := s.now) (toNat_ne_zero nonzero) idle accepted] at h
  refine answers_mono h fun t ⟨nv, same⟩ => ?_
  obtain ⟨taken, moves⟩ := movesNow_commandTaken nv same begins
  rw [resulted_idle (d := s.now) idle, List.nil_append] at moves
  refine ⟨taken, m, moves, by rw [fresh.mask, BitVec.ofNat_toNat, BitVec.setWidth_eq], fresh.kind, fresh.heat, fresh.issued, ?_, ?_,
    fresh.last, ?_, fresh.began⟩
  · rw [atLead]; exact named1
  · rw [fresh.total, way, atLead]
  · rw [fresh.negative, way, atLead]; exact decide_eq_decide.mpr sub_neg

theorem stpMoveVelocity_begins (idle : s.dev.stp.moves = []) (accepted : moveResult s.dev mask.toNat 1 = 0)
    (room : stepsToLimit s.dev mask.toNat (saxVdir s.dev ((maskAxes mask.toNat).headD 0)) ≠ 0) :
    Answers s (.stpMoveVelocity mask) fun t =>
      commandTaken s t mask 0 ∧ ∃ m, t.dev.stp.moves = [m] ∧ m.mask = mask ∧ m.kind = 1 ∧ m.heat = none ∧ m.issued = 0 ∧
        m.negative = saxVdir s.dev ((maskAxes mask.toNat).headD 0) ∧
        m.total = stepsToLimit s.dev mask.toNat m.negative ∧ m.last = m.total ∧ m.began = s.dev.cycle * 1250 := by
  have alike := alike_resulted s.now mask.toNat 0
  have dir := alike.saxVdir ((maskAxes mask.toNat).headD 0)
  have steps := alike.stepsToLimit mask.toNat
  obtain ⟨m, begins, fresh⟩ := beginVelocity_begins (d := resulted s.now mask.toNat 0)
    (saxSpeed (resulted s.now mask.toNat 0) ((maskAxes mask.toNat).headD 0)) (s.dev.cycle * 1250) (by rw [steps]; exact room)
  have h := answers_stpMoveVelocity s mask
  rw [stpMove_idle running on (d := s.now) (toNat_ne_zero nonzero) idle accepted] at h
  dsimp only at h
  rw [if_neg one_ne_zero, if_pos rfl, dir] at h
  refine answers_mono h fun t ⟨nv, same⟩ => ?_
  obtain ⟨taken, moves⟩ := movesNow_commandTaken nv same begins
  rw [resulted_idle (d := s.now) idle, List.nil_append] at moves
  refine ⟨taken, m, moves, by rw [fresh.mask, BitVec.ofNat_toNat, BitVec.setWidth_eq], fresh.kind, fresh.heat, fresh.issued,
    fresh.negative, ?_, fresh.last, fresh.began⟩
  rw [fresh.total, steps, fresh.negative]
  rfl

theorem stpMoveStop_idle (idle : s.dev.stp.moves = []) (accepted : moveResult s.dev mask.toNat 2 = 0) :
    Answers s (.stpMoveStop mask) fun t => commandTaken s t mask 0 ∧ t.dev.stp.moves = [] := by
  have h := answers_stpMoveStop s mask
  rw [stpMove_idle running on (d := s.now) (toNat_ne_zero nonzero) idle accepted] at h
  refine answers_mono h fun t ⟨nv, same⟩ => ?_
  obtain ⟨taken, stp⟩ := resulted_commandTaken nv same
  exact ⟨taken, (congrArg Stp.moves stp).trans idle⟩

theorem stpMoveStop_running {m : Move} (one : s.dev.stp.moves = [m]) (own : m.mask = mask) (going : m.finished = false)
    (unstopped : m.stopping = false) (accepted : moveResult s.dev mask.toNat 2 = 0) :
    Answers s (.stpMoveStop mask) fun t =>
      commandTaken s t mask 0 ∧
      t.dev.stp.moves = [{ m with
        last := min m.last (m.issued + m.nStop), nextVel := none, stopFrom := s.dev.cycle * 1250 }] := by
  have h := answers_stpMoveStop s mask
  rw [stpMove_stop running on (d := s.now) (toNat_ne_zero nonzero) one (congrArg BitVec.toNat own) going unstopped accepted] at h
  have cleared : SameAxes StepAxis.pos (resulted s.now mask.toNat 0)
      (m.axes.foldl (fun e x => setAxis e x { axisOf e x with next := none }) (resulted s.now mask.toNat 0)) :=
    .foldl (by exact fun _ _ => .set _ rfl) _
  generalize m.axes.foldl (fun e x => setAxis e x { axisOf e x with next := none }) (resulted s.now mask.toNat 0) = e at h cleared
  have stops := putStop_one (d := e) (m := m) (by rw [cleared.moves, resulted_stp]; exact one) (n := { m with
    last := min m.last (m.issued + m.nStop), nextVel := none }) rfl
  have cycle : e.cycle = s.dev.cycle := by
    rw [cleared.only]
    exact resulted_cycle s.now mask.toNat 0
  rw [cycle] at stops
  exact answers_mono h fun t ⟨nv, same⟩ => movesNow_commandTaken nv same (stops.of_places cleared)

/-- A refused command starts nothing. -/
theorem refused_commandTaken {i : Instr} {kind : Nat} (h : AnswersButReports s i (stpMove s.now mask.toNat kind))
    (idle : s.dev.stp.moves = []) (refused : moveResult s.dev mask.toNat kind ≠ 0) :
    Answers s i fun t => commandTaken s t mask (moveResult s.dev mask.toNat kind) ∧ t.dev.stp = s.dev.stp := by
  have left := stpMove_refused running on (d := s.now) (mask := mask.toNat) (toNat_ne_zero nonzero)
    (fun m hm => by rw [show s.now.stp.moves = [] from idle] at hm; cases hm) refused
  exact answers_mono (answers_same h left) fun t ⟨nv, same⟩ => resulted_commandTaken nv same

end

/-- Settles O35: an accepted command by the move that begins or the end that comes near, a refused one by its result. -/
theorem stepperCommands : Obligations.StepperCommands := by
  unfold Obligations.StepperCommands
  refine ⟨fun s mask running on nonzero idle => ⟨fun accepted ⟨_, _, _, away⟩ => ?_, fun accepted room => ?_, fun accepted => ?_⟩,
    fun s mask m running on nonzero one own going unstopped accepted => ?_, fun s mask k running on nonzero idle refused => ?_,
    fun s => ⟨?_, ?_, ?_⟩⟩
  · exact stpMovePosition_begins running on nonzero idle accepted away
  · exact stpMoveVelocity_begins running on nonzero idle accepted room
  · exact stpMoveStop_idle running on nonzero idle accepted
  · exact stpMoveStop_running running on nonzero one own going unstopped accepted
  · fin_cases k
    · exact refused_commandTaken running on nonzero (answers_stpMovePosition s mask) idle refused
    · exact refused_commandTaken running on nonzero (answers_stpMoveVelocity s mask) idle refused
    · exact refused_commandTaken running on nonzero (answers_stpMoveStop s mask) idle refused
  · exact stpMove_none s.now 0 ▸ answers_stpMovePosition s 0
  · exact stpMove_none s.now 1 ▸ answers_stpMoveVelocity s 0
  · exact stpMove_none s.now 2 ▸ answers_stpMoveStop s 0

end Sys2Proof.Proofs
end

section
/-! Steps, the end of a move and the start of heat moves (R397, R398, R399, R402, R458): O36. -/
namespace Sys2Proof.Proofs
open Sys2Proof.Machine Sys2Proof.Laws

/-! ### The steps of a move (R399, R402) -/

/-- The positions of the axes, the moves in progress, and what no step touches. -/
def carried (d : Dev) : (Nat → Int) × List Move × Heats × Mould × Tab Station :=
  (fun y => (axisOf d y).pos, d.stp.moves, d.heats, d.mould, d.stations)

theorem carried_of_same {d e : Dev} (h : SameButReports d e) : carried e = carried d := by
  simp only [carried, axisOf_of_stp h.stp, h.stp, h.heats, h.mould, h.stations]

theorem carried_of_places {d e : Dev} (h : SameAxes StepAxis.pos d e) : carried e = carried d := by
  have heats : e.heats = d.heats := by rw [h.only]
  have mould : e.mould = d.mould := by rw [h.only]
  have stations : e.stations = d.stations := by rw [h.only]
  simp only [carried, h.axis, h.moves, heats, mould, stations]

theorem carried_cmpFire (d : Dev) (x t : Nat) : carried (cmpFire d x t) = carried d := by
  have written : carried ((cmpDone d x).setReg (pageSax x) 0x068 (t % 2 ^ 32)) =
      carried (setAxis d x { axisOf d x with armed := false }) := by
    simp only [carried, cmpDone, axisOf, setReg_stp, setReg_heats, setReg_mould, setReg_stations, setFld_stp, setFld_heats,
      setFld_mould, setFld_stations]
  exact (carried_of_same (same_raise _ _ _ clsMotion _ _ _ (by decide))).trans (written.trans (carried_of_places (.set x rfl)))

theorem carried_cmpStep (d : Dev) (x : Nat) (p q : Int) (t : Nat) : carried (cmpStep d x p q t) = carried d := by
  unfold cmpStep
  extract_lets a up down
  split
  · exact carried_cmpFire d x t
  · rfl

/-- The step of one axis takes it to its place. -/
theorem carried_stepAxis (d : Dev) (s : Nat × Int) (t : Nat) :
    carried (stepAxis d s t) = (fun y => if y = s.1 then s.2 else (axisOf d y).pos, (carried d).2) := by
  unfold stepAxis
  rw [carried_cmpStep]
  refine Prod.ext (funext fun y => ?_) rfl
  change (axisOf (setAxis d s.1 _) y).pos = _
  rw [axisOf_setAxis]
  dsimp only
  split <;> rfl

theorem carried_steps {goal : Nat → Int} (t : Nat) {l : List (Nat × Int)} (placed : ∀ s ∈ l, s.2 = goal s.1) (d : Dev) :
    carried (l.foldl (fun d s => stepAxis d s t) d) =
      (fun y => if y ∈ l.map Prod.fst then goal y else (axisOf d y).pos, (carried d).2) := by
  induction l generalizing d with
  | nil => simp [carried]
  | cons s l ih =>
    obtain ⟨own, others⟩ := List.forall_mem_cons.mp placed
    have step := carried_stepAxis d s t
    have pos (y : Nat) : (axisOf (stepAxis d s t) y).pos = if y = s.1 then s.2 else (axisOf d y).pos :=
      congrFun (congrArg Prod.fst step) y
    rw [List.foldl_cons, ih others, step]
    refine Prod.ext (funext fun y => ?_) rfl
    simp only [pos, own, List.map_cons, List.mem_cons]
    by_cases later : y ∈ l.map Prod.fst
    · simp [later]
    · by_cases now : y = s.1 <;> simp [later, now]

/-- The steps of the lead's next step take every axis of the move to its place, and no other axis anywhere. -/
theorem carried_stepping (d e : Dev) (m : Move) (t : Nat) (same : carried e = carried d) :
    carried ((stepping d m).foldl (fun d s => stepAxis d s t) e) =
      (fun y => if y ∈ m.axes then axisAfter d m y (m.issued + 1) else (axisOf d y).pos, (carried d).2) := by
  have mem (s : Nat × Int) : s ∈ stepping d m ↔
      s.1 ∈ m.axes ∧ s.2 = axisAfter d m s.1 (m.issued + 1) ∧ s.2 ≠ (axisOf d s.1).pos := by
    simp only [stepping, List.mem_filterMap]
    constructor
    · rintro ⟨x, hx, steps⟩
      split at steps
      · cases steps
      · cases steps
        exact ⟨hx, rfl, ‹_›⟩
    · rintro ⟨hx, place, away⟩
      exact ⟨s.1, hx, by rw [← place, if_neg away]⟩
  have pos (y : Nat) : (axisOf e y).pos = (axisOf d y).pos := congrFun (congrArg Prod.fst same) y
  rw [carried_steps (goal := fun y => axisAfter d m y (m.issued + 1)) t (fun s hs => ((mem s).mp hs).2.1), same]
  refine Prod.ext (funext fun y => ?_) rfl
  dsimp only
  rw [pos]
  by_cases steps : y ∈ (stepping d m).map Prod.fst
  · obtain ⟨s, hs, rfl⟩ := List.mem_map.mp steps
    rw [if_pos steps, if_pos ((mem s).mp hs).1]
  · rw [if_neg steps]
    split
    case isTrue hy =>
      by_contra away
      exact steps (List.mem_map.mpr ⟨(y, _), (mem (y, _)).mpr ⟨hy, rfl, Ne.symm away⟩, rfl⟩)
    case isFalse => rfl

theorem carried_paceStep (d : Dev) (t : Nat) (final : Bool) : carried (paceStep d t final) = carried d := by
  unfold paceStep
  split
  · rfl
  · split
    · split <;> rfl
    · dsimp only
      split <;> rfl

section
variable {d : Dev} {m : Move} {x : Nat} (one : d.stp.moves = [m]) (named : m.mask.getLsbD x = true) (going : m.finished = false)
  (rates : ∀ y, y ∈ m.axes → mouldStep d y ≠ 0)
include one named going rates

theorem issueStep_early (early : d.tick < stepTick d m) : issueStep d x = d := by
  unfold issueStep
  rw [moveOf_one one named going]
  dsimp only
  rw [if_neg (by simpa using rates), if_pos early]

theorem carried_issueStep (due : stepTick d m ≤ d.tick) :
    ∃ n : Move, carried (issueStep d x) =
        (fun y => if y ∈ m.axes then axisAfter d m y (m.issued + 1) else (axisOf d y).pos, [n], d.heats, d.mould, d.stations) ∧
      n.issued = m.issued + 1 ∧ n.mask = m.mask ∧ n.lead = m.lead ∧ n.total = m.total ∧ n.last = m.last ∧ n.heat = m.heat := by
  unfold issueStep
  rw [moveOf_one one named going]
  dsimp -zeta only
  rw [if_neg (by simpa using rates)]
  extract_lets tick late d1 steps d2 m1 d3 pace
  rw [if_neg (Nat.not_lt.mpr due)]
  have told : carried d1 = carried d := by
    unfold d1
    split
    · exact carried_of_same (same_raise _ _ _ clsMotion _ _ _ (by decide))
    · rfl
  have stepped : carried d2 = _ := carried_stepping d d1 m _ told
  have moves : d2.stp.moves = [m] := (congrArg (fun c => c.2.1) stepped).trans one
  have placed : carried d3 = (fun y => if y ∈ m.axes then axisAfter d m y (m.issued + 1) else (axisOf d y).pos,
      [m1.nextInterval], d.heats, d.mould, d.stations) := by
    unfold d3
    rw [carried_of_places (placeStep_places _ _), putMove_one (n := m1.nextInterval) moves rfl]
    exact congrArg (fun c => (c.1, [m1.nextInterval], c.2.2)) stepped
  refine ⟨m1.nextInterval, ?_, rfl, rfl, rfl, rfl, rfl, rfl⟩
  rw [← placed]
  split
  · split
    · exact carried_paceStep _ _ _
    · rfl
  · rfl

end

theorem at_mouldStep (s : State) (u : Nat) {x : Nat} (hx : x < 12) : mouldStep (s.at u) x = mouldStep s.dev x :=
  at_fld s u _ _ (reportWord_rate hx)

section
variable {s : State} {u : Nat} {x : Fin 12} {m : Move} (one : s.dev.stp.moves = [m]) (named : m.mask.getLsbD x.val = true)
include one named

section
variable (going : m.finished = false) (rates : ∀ y, y ∈ m.axes → mouldStep s.dev y ≠ 0)
include going rates

theorem stepIssue_due (due : stepTick (s.at u) m ≤ (s.at u).tick) :
    Answers s (.stepIssue u x) fun t =>
      t.nv = s.nv ∧
      (∀ y, (axisOf t.dev y).pos =
        if y ∈ m.axes then followerPos (axisOf s.dev y).start (axisOf s.dev y).travel (m.issued + 1) m.total
        else (axisOf s.dev y).pos) ∧
      (∃ n, t.dev.stp.moves = [n] ∧ n.issued = m.issued + 1 ∧ n.mask = m.mask ∧ n.lead = m.lead ∧ n.total = m.total ∧
        n.last = m.last ∧ n.heat = m.heat) ∧
      t.dev.heats = s.dev.heats ∧ t.dev.mould = s.dev.mould ∧ t.dev.stations = s.dev.stations := by
  obtain ⟨n, effect, next⟩ := carried_issueStep ((at_moves s u).trans one) named going
    (fun y hy => by rw [at_mouldStep s u (axes_lt hy)]; exact rates y hy) due
  refine answers_mono (answers_stepIssue s u x) fun t ⟨nv, same⟩ => ?_
  rw [← carried_of_same same] at effect
  simp only [carried, Prod.mk.injEq, axisAfter, at_axisOf] at effect
  obtain ⟨pos, moves, heats, mould, stations⟩ := effect
  exact ⟨nv, congrFun pos, ⟨n, moves, next⟩, heats.trans (at_heats s u), mould.trans (arrive_mould s.now u),
    stations.trans (arrive_stations s.now u)⟩

theorem stepIssue_early (early : (s.at u).tick < stepTick (s.at u) m) : AnswersButReports s (.stepIssue u x) (s.at u) := by
  have h := answers_stepIssue s u x
  rwa [issueStep_early ((at_moves s u).trans one) named going
    (fun y hy => by rw [at_mouldStep s u (axes_lt hy)]; exact rates y hy) early] at h

end

end

/-! ### The end of a move (R399, R408) -/

section
variable {d : Dev} {m : Move} (one : d.stp.moves = [m]) (position : m.kind = 0) (whole : m.aborted = false)
include one position whole

/-- A move after which nothing follows is in progress no more. -/
theorem endMove_rests (own : m.heat = none) (speed : m.nextVel = none) (targets : ∀ y, y ∈ m.axes → (axisOf d y).next = none) :
    SameAxes id { d with stp := { d.stp with moves := [] } } (endMove d m) := by
  have nexts : (m.axes.filterMap fun x => (axisOf (dropMove d m) x).next.map fun p => (x, p)) = [] :=
    List.filterMap_eq_nil_iff.mpr fun x hx => Option.map_eq_none_iff.mpr (targets x hx)
  have clear : SameAxes id (dropMove d m) (m.axes.foldl (fun e x => setAxis e x { axisOf e x with next := none }) (dropMove d m)) :=
    List.foldlRecOn (motive := SameAxes id (dropMove d m)) m.axes _ (.refl _) fun e same x hx => same.trans <| .set x <| by
      have free : (axisOf e x).next = none := (congrArg StepAxis.next (same.axis x)).trans (targets x hx)
      rw [id, id, ← free]
  rw [← dropMove_one one]
  unfold endMove
  simp only [position, zero_ne_one, false_and, if_false, whole, reduceCtorEq, own, speed, nexts, List.isEmpty_nil, if_true]
  split <;> exact clear

/-- The far end of the return stroke: the next stroke may be asked for (R16). -/
theorem endMove_stroke {h : HeatMove} {y : Run} (own : m.heat = some h) (complete : m.total ≤ m.issued) (gantry : h.group = 0)
    (running : d.heats.running = some y) (stroke : y.stroke = 1) :
    endMove d m = { d with
      stp := { d.stp with moves := [] }
      heats := { d.heats with running := some { y with stroke := 2, arrived := true } } } := by
  unfold endMove
  simp only [position, zero_ne_one, false_and, if_false, whole, own, Nat.not_lt.mpr complete, decide_false,
    Bool.or_self, Bool.false_eq_true, dropMove_one one, heatMoveEnded, running, gantry, stroke, if_true]

end

theorem moveEnd_one {d : Dev} {m : Move} {x : Nat} (one : d.stp.moves = [m]) (named : m.mask.getLsbD x = true) :
    moveEnd d x = if m.finished then endMove d m else d := by
  unfold moveEnd
  rw [listedMove_one one named]

section
variable {s : State} {u : Nat} {x : Fin 12} {m : Move} (one : s.dev.stp.moves = [m]) (named : m.mask.getLsbD x.val = true)
include one named

theorem stepperMoveEnd_unfinished (going : m.finished = false) : AnswersButReports s (.stepperMoveEnd u x) (s.at u) := by
  have h := answers_stepperMoveEnd s u x
  rwa [moveEnd_one ((at_moves s u).trans one) named, going, if_neg Bool.false_ne_true] at h

theorem answers_endMove (finished : m.finished = true) : AnswersButReports s (.stepperMoveEnd u x) (endMove (s.at u) m) := by
  have h := answers_stepperMoveEnd s u x
  rwa [moveEnd_one ((at_moves s u).trans one) named, finished, if_pos rfl] at h

theorem stepperMoveEnd_rests (finished : m.finished = true) (own : m.heat = none) (position : m.kind = 0) (whole : m.aborted = false)
    (speed : m.nextVel = none) (targets : ∀ y, y ∈ m.axes → (axisOf s.dev y).next = none) :
    Answers s (.stepperMoveEnd u x) fun t =>
      t.nv = s.nv ∧ t.dev.stp.moves = [] ∧ (∀ y, axisOf t.dev y = axisOf s.dev y) ∧
      SameButReports { s.at u with stp := t.dev.stp } t.dev := by
  have rests := endMove_rests ((at_moves s u).trans one) position whole own speed fun y hy => by
    rw [at_axisOf]
    exact targets y hy
  refine answers_mono (answers_endMove one named finished) fun t ⟨nv, same⟩ => ?_
  obtain ⟨kept, moves, axes⟩ := rests.shown same
  exact ⟨nv, moves, fun y => (axes y).trans (at_axisOf s u y), kept⟩

theorem stepperMoveEnd_stroke {h : HeatMove} {y : Run} (finished : m.finished = true) (own : m.heat = some h) (position : m.kind = 0)
    (whole : m.aborted = false) (complete : m.total ≤ m.issued) (gantry : h.group = 0) (running : s.dev.heats.running = some y)
    (stroke : y.stroke = 1) :
    AnswersButReports s (.stepperMoveEnd u x) { s.at u with
      stp := { s.dev.stp with moves := [] }
      heats := { s.dev.heats with running := some { y with stroke := 2, arrived := true } } } := by
  have answer := answers_endMove (u := u) one named finished
  rwa [endMove_stroke ((at_moves s u).trans one) position whole own complete gantry (by rwa [at_heats]) stroke, at_heats,
    show (s.at u).stp = s.dev.stp from arrive_stp s.now u] at answer

end

/-! ### Heat moves (R397, R398) -/

theorem startHeatMoves_none {d : Dev} (none : d.stp.waiting = []) : startHeatMoves d = d := by
  unfold startHeatMoves
  split
  · rw [none, List.foldl_nil, ← none]
  · rfl

theorem firstStroke_rests {d : Dev} (stroke : ∀ x, d.heats.running = some x → x.stroke ≠ 0) : firstStroke d = d := by
  unfold firstStroke
  split
  case h_1 x running =>
    split
    case h_1 => rw [if_neg fun h => stroke x running h.1]
    case h_2 => rfl
  case h_2 => rfl

theorem heatMoveBlocked_alike {d e : Dev} (alike : SteppersAlike d e) (h : HeatMove) : heatMoveBlocked e h = heatMoveBlocked d h := by
  have zero : (maskAxes (Machine.groupMask h.group)).any (fun x => mouldStep e x == 0) =
      (maskAxes (Machine.groupMask h.group)).any (fun x => mouldStep d x == 0) := by
    rw [Bool.eq_iff_iff, List.any_eq_true, List.any_eq_true]
    exact exists_congr fun x => and_congr_right fun hx => by rw [alike.mouldStep (mem_maskAxes.mp hx).1]
  simp only [heatMoveBlocked, alike.enabled, alike.mayStand, zero]

/-- A heat move that has been told of waits on. -/
def waitsTold (d : Dev) (h : HeatMove) : Dev := { d with stp := { d.stp with waiting := [{ h with told := true }] } }

section
variable {d : Dev} {h : HeatMove} (computes : d.computes = true) (alone : d.stp.waiting = [h]) (idle : d.stp.moves = [])
  (due : h.since ≤ d.cycle * 1250)
include computes alone idle due

/-- One heat move that waits alone is tested alone. -/
theorem startHeatMoves_alone :
    startHeatMoves d = match heatMoveBlocked d h with
      | some c =>
        if h.told then waitsTold d h
        else raise (waitsTold d h) pageStp 1 clsMotion sevWarning 0x0806 (pay h.phase c 0 0)
      | none =>
        if (planTravel d (Machine.groupMask h.group) h.targets).2.2 = 0 then heatMoveEnded { d with stp := { d.stp with waiting := [] } } h
        else beginPosition { d with stp := { d.stp with waiting := [] } } (Machine.groupMask h.group) h.targets (fun _ => h.speed) (some h)
          (d.cycle * 1250) := by
  have mates : d.stp.waiting.filter (fun g => g.phase == h.phase) = [h] := by rw [alone]; simp
  have ready : heatMoveReady d h = true := by simp [heatMoveReady, due, listedMove_none idle]
  unfold startHeatMoves
  rw [if_pos computes, alone, List.foldl_cons, List.foldl_nil]
  unfold testHeatMove
  rw [mates]
  simp only [List.all_cons, ready, List.all_nil, Bool.and_self, Bool.not_true, Bool.false_eq_true, if_false, List.findSome?_cons,
    List.findSome?_nil, List.any_cons, List.any_nil, Bool.or_false, List.head?_cons, ne_eq, not_true_eq_false, or_false,
    List.nil_append]
  cases heatMoveBlocked d h <;> rfl

theorem startHeatMoves_begins (free : heatMoveBlocked d h = none)
    (travels : (planTravel d (Machine.groupMask h.group) h.targets).2.2 ≠ 0) :
    startHeatMoves d = beginPosition { d with stp := { d.stp with waiting := [] } } (Machine.groupMask h.group) h.targets
      (fun _ => h.speed) (some h) (d.cycle * 1250) := by
  rw [startHeatMoves_alone computes alone idle due, free]
  exact if_neg travels

theorem startHeatMoves_waits {c : Nat} (blocked : heatMoveBlocked d h = some c) :
    SameButReports (waitsTold d h) (startHeatMoves d) := by
  rw [startHeatMoves_alone computes alone idle due, blocked]
  dsimp only
  split
  · exact same_refl _
  · exact same_raise _ _ _ clsMotion _ _ _ (by decide)

/-- A heat move that has been told of is tested again, and waits on. -/
theorem heatMovesStart_waits {c : Nat} (blocked : heatMoveBlocked d h = some c)
    (stroke : ∀ x, d.heats.running = some x → x.stroke ≠ 0) : SameButReports (waitsTold d h) (heatMovesStart d) := by
  have waits := startHeatMoves_waits computes alone idle due blocked
  have same : SteppersAlike d (waitsTold d h) := ⟨rfl, rfl, rfl, fun _ _ _ => rfl, fun _ _ _ => rfl, rfl, rfl, rfl, rfl⟩
  have alike : SteppersAlike d (startHeatMoves d) := same.trans (steppersAlike_of_same waits)
  unfold heatMovesStart
  generalize startHeatMoves d = e at waits alike
  dsimp only
  rw [if_pos computes, firstStroke_rests fun x running => stroke x (by rw [← running, waits.heats]; rfl)]
  have again := startHeatMoves_waits (d := e) (h := { h with told := true }) (by
    rw [Dev.computes, Dev.running, Dev.holds, waits.boot, waits.par]
    exact computes) (by rw [waits.stp]; rfl) (by rw [alike.moves, idle]) (by rw [alike.cycle]; exact due)
    ((heatMoveBlocked_alike alike _).trans blocked)
  refine same_trans ?_ again
  have stp : waitsTold e { h with told := true } = { e with stp := (waitsTold d h).stp } := by
    rw [waitsTold, waits.stp]
    rfl
  rw [stp, ← waits.stp]
  exact waits

theorem heatMovesStart_begins (free : heatMoveBlocked d h = none)
    (travels : (planTravel d (Machine.groupMask h.group) h.targets).2.2 ≠ 0)
    (stroke : ∀ x, d.heats.running = some x → x.stroke ≠ 0) :
    ∃ m, MovesNow { d with stp := { d.stp with waiting := [] } } (heatMovesStart d) [m] ∧ m.heat = some h ∧ m.kind = 0 ∧
      m.issued = 0 ∧ m.mask = BitVec.ofNat 12 (Machine.groupMask h.group) := by
  obtain ⟨m, begins, fresh⟩ := beginPosition_begins (d := { d with stp := { d.stp with waiting := [] } }) (fun _ => h.speed) (some h)
    (d.cycle * 1250) travels
  rw [← startHeatMoves_begins computes alone idle due free travels, idle, List.nil_append] at begins
  refine ⟨m, ?_, fresh.heat, fresh.kind, fresh.issued, fresh.mask⟩
  unfold heatMovesStart
  generalize startHeatMoves d = e at begins
  obtain ⟨c, places⟩ := begins
  have heats : e.heats = d.heats := by rw [places.only]
  have none : e.stp.waiting = [] := by rw [places.only]
  dsimp only
  rw [if_pos computes, firstStroke_rests (by rwa [heats]), startHeatMoves_none none]
  exact ⟨c, places⟩

end

section
variable {s : State} {h : HeatMove} (computes : s.dev.computes = true) (alone : s.dev.stp.waiting = [h]) (idle : s.dev.stp.moves = [])
  (due : h.since ≤ s.dev.cycle * 1250) (stroke : ∀ x, s.dev.heats.running = some x → x.stroke ≠ 0)
include computes alone idle due stroke

theorem heatMoveStart_begins (free : heatMoveBlocked s.dev h = none)
    (travels : (planTravel s.dev (Machine.groupMask h.group) h.targets).2.2 ≠ 0) :
    Answers s .heatMoveStart fun t =>
      t.nv = s.nv ∧ t.dev.stp.waiting = [] ∧ (∃ m, t.dev.stp.moves = [m] ∧ m.heat = some h ∧ m.kind = 0 ∧ m.issued = 0 ∧
        m.mask = BitVec.ofNat 12 (Machine.groupMask h.group)) ∧ (∀ x, (axisOf t.dev x).pos = (axisOf s.dev x).pos) ∧
      SameButReports { s.now with stp := t.dev.stp } t.dev := by
  obtain ⟨m, begins, own⟩ := heatMovesStart_begins (d := s.now) computes alone idle due free travels stroke
  refine answers_mono (answers_heatMoveStart s) fun t ⟨nv, same⟩ => ?_
  obtain ⟨kept, moves, places⟩ := begins.shown same
  refine ⟨nv, ?_, ⟨m, moves, own⟩, places, kept⟩
  obtain ⟨c, only, -⟩ := begins
  rw [same.stp, only]

theorem heatMoveStart_waits {c : Nat} (blocked : heatMoveBlocked s.dev h = some c) :
    Answers s .heatMoveStart fun t =>
      t.nv = s.nv ∧ t.dev.stp = { s.dev.stp with waiting := [{ h with told := true }] } ∧
      SameButReports { s.now with stp := t.dev.stp } t.dev := by
  have waits := heatMovesStart_waits (d := s.now) computes alone idle due blocked stroke
  refine answers_mono (answers_heatMoveStart s) fun t ⟨nv, same⟩ => ?_
  have all := same_trans waits same
  have stp := all.stp
  refine ⟨nv, stp, ?_⟩
  rw [stp]
  exact all

end

/-- Settles O36: a step by the places of the axes on their lines, the end of a move by what follows it, the start of a heat move
by what it waits for. -/
theorem stepperMotion : Obligations.StepperMotion := by
  unfold Obligations.StepperMotion
  refine ⟨fun s u x m one named going rates => ⟨stepIssue_due one named going rates, stepIssue_early one named going rates⟩,
    fun s u x m one named => ⟨fun finished own position whole speed targets => ?_, stepperMoveEnd_unfinished one named⟩,
    fun s u x m h y one named finished own position whole complete gantry running stroke => ?_,
    fun s h computes alone idle due stroke => ⟨heatMoveStart_begins computes alone idle due stroke, fun c blocked => ?_⟩⟩
  · exact stepperMoveEnd_rests one named finished own position whole speed targets
  · exact stepperMoveEnd_stroke one named finished own position whole complete gantry running stroke
  · exact heatMoveStart_waits computes alone idle due stroke blocked

end Sys2Proof.Proofs
end

section
/-! The events of a coil, the holding current and the compare of an axis (R410 to R414): O37. -/
namespace Sys2Proof.Proofs
open Sys2Proof.Machine Sys2Proof.Laws

/-! ### Changes of a coil's state (R412, R413, R414) -/

/-- The coil in another state: outputs that turn off are off, those that turn on wait (R414). -/
def entered (k : Coil) (m : CoilMode) : Coil := { k with mode := m, gates := k.gates &&& m.gates, rising := m.gates &&& ~~~k.gates }

/-- The state after the drive: FAST in its sign, or SLOW where T_OFF has no fast part (R412). -/
def decayMode (fast n : Bool) : CoilMode := if fast then .fast n else .slow

section
variable {k : Coil} {n fast : Bool}

theorem enter_other {m : CoilMode} (other : k.mode ≠ m) : k.enter m = entered k m := if_neg other

theorem decay_drive (drive : k.mode = .drive n) : k.decay fast = entered k (decayMode fast n) := by
  unfold Coil.decay
  rw [drive]
  cases fast
  all_goals exact enter_other (by rw [drive]; exact CoilMode.noConfusion)

theorem decay_other (idle : ∀ n, k.mode ≠ .drive n) : k.decay fast = k := by
  unfold Coil.decay
  split
  case h_1 n drive => exact absurd drive (idle n)
  case h_2 => rfl

theorem loop_drives (current : k.thr ≠ 0) (other : k.mode ≠ .drive k.negative) :
    k.loop = { entered k (.drive k.negative) with blank := true, waiting := false } := by
  rw [Coil.loop, if_neg current, enter_other other]

end

/-! ### The events of a coil -/

section
variable {s : State} {u : Nat} {x : Fin 12} {c : Fin 2}

/-- The device with one coil as given. -/
def withCoil (s : State) (u : Nat) (x : Fin 12) (c : Fin 2) (k : Coil) : Dev :=
  setAxis (s.at u) x.val (setCoil (axisOf s.dev x.val) c.val k)

theorem onCoil_off (off : s.dev.enabled (pageSax x.val) = false) (f : Coil → Coil) : onCoil (s.at u) x.val c.val f = s.at u := by
  rw [onCoil, at_enabled, off, if_neg Bool.false_ne_true]

theorem at_hasFast (s : State) (u x : Nat) : hasFast (s.at u) x = hasFast s.dev x := by
  simp only [hasFast, at_fld s u _ _ (reportWord_sax x (off := 0x120) (by decide) (by decide))]

theorem onCoil_on (on : s.dev.enabled (pageSax x.val) = true) (f : Coil → Coil) :
    onCoil (s.at u) x.val c.val f = withCoil s u x c (f (coilOf (axisOf s.dev x.val) c.val)) := by
  rw [onCoil, at_enabled, on, if_pos rfl, at_axisOf, withCoil]

theorem deadTimeEnd_on (on : s.dev.enabled (pageSax x.val) = true) {k : Coil} (own : coilOf (axisOf s.dev x.val) c.val = k) :
    deadTimeEnd (s.at u) x.val c.val = withCoil s u x c { k with gates := k.gates ||| k.rising, rising := 0 } := by
  rw [deadTimeEnd, onCoil_on on, own]

section
variable (on : s.dev.enabled (pageSax x.val) = true) {k : Coil} (own : coilOf (axisOf s.dev x.val) c.val = k) {n : Bool}
include on own

theorem senseTrip_on : senseTrip (s.at u) x.val c.val = withCoil s u x c (if k.blank then k else k.decay (hasFast s.dev x.val)) := by
  rw [senseTrip, onCoil_on on, at_hasFast, own]

theorem senseTrip_drive (drive : k.mode = .drive n) (shown : k.blank = false) :
    senseTrip (s.at u) x.val c.val = withCoil s u x c (entered k (decayMode (hasFast s.dev x.val) n)) := by
  rw [senseTrip_on on own, shown, if_neg Bool.false_ne_true, decay_drive drive]

theorem senseTrip_ignored (ignored : k.blank = true ∨ ∀ n, k.mode ≠ .drive n) :
    senseTrip (s.at u) x.val c.val = withCoil s u x c k := by
  rw [senseTrip_on on own]
  rcases ignored with blank | idle
  · rw [if_pos blank]
  · rw [decay_other idle, ite_self]

section
variable (drive : k.mode = .drive n) (blank : k.blank = true)
include drive blank

theorem blankEnd_on (above : Bool) : blankEnd (s.at u) x.val c.val above = withCoil s u x c
    (if n != k.negative then { k with blank := false }.loop
      else if above then { k with blank := false }.decay (hasFast s.dev x.val) else { k with blank := false }) := by
  rw [blankEnd, onCoil_on on, at_hasFast, own]
  dsimp only
  rw [drive, blank]
  rfl

theorem blankEnd_below (same : n = k.negative) :
    blankEnd (s.at u) x.val c.val false = withCoil s u x c { k with blank := false } := by
  rw [blankEnd_on on own drive blank, if_neg (by simp [same]), if_neg Bool.false_ne_true]

theorem blankEnd_above (same : n = k.negative) : blankEnd (s.at u) x.val c.val true =
    withCoil s u x c { entered k (decayMode (hasFast s.dev x.val) n) with blank := false } := by
  rw [blankEnd_on on own drive blank, if_neg (by simp [same]), if_pos rfl, decay_drive (k := { k with blank := false }) drive]
  rfl

theorem blankEnd_turned (above : Bool) (turned : n ≠ k.negative) (current : k.thr ≠ 0) : blankEnd (s.at u) x.val c.val above =
    withCoil s u x c { entered k (.drive k.negative) with blank := true, waiting := false } := by
  have other : { k with blank := false }.mode ≠ .drive k.negative := by
    rw [drive]
    exact fun same => turned (CoilMode.drive.inj same)
  rw [blankEnd_on on own drive blank, if_pos (by simpa using turned), loop_drives (k := { k with blank := false }) current other]
  rfl

end

theorem offTimeEnd_fast (fast : k.mode = .fast n) :
    offTimeEnd (s.at u) x.val c.val = withCoil s u x c (entered k .slow) := by
  rw [offTimeEnd, onCoil_on on, own, ← enter_other (by rw [fast]; exact CoilMode.noConfusion), fast]

theorem offTimeEnd_slow (slow : k.mode = .slow) (served : k.waiting = false) (current : k.thr ≠ 0) :
    offTimeEnd (s.at u) x.val c.val = withCoil s u x c { entered k (.drive k.negative) with blank := true, waiting := false } := by
  have again : k.loop = _ := loop_drives current (by rw [slow]; exact CoilMode.noConfusion)
  rw [offTimeEnd, onCoil_on on, own, ← again, slow, served]
  rfl

end
end

/-! ### The holding current (R411) -/

/-- Devices that differ in reports alone do so with the same axis put into both. -/
theorem same_setAxis {d e : Dev} (h : SameButReports d e) (x : Nat) (a : StepAxis) :
    SameButReports (setAxis d x a) (setAxis e x a) := by
  have stp : (setAxis e x a).stp = (setAxis d x a).stp := by rw [setAxis_stp, setAxis_stp, h.stp]
  exact { h with stp := stp }

/-- HOLD_DELAY after its last step an axis at rest takes I_HOLD; time goes on to that moment. -/
theorem holdTimeout_due {d : Dev} {x : Nat} (rest : axisMoving d x = false) (run : (axisOf d x).holding = false)
    (due : ∀ k, (axisOf d x).lastStep = some k → k + 1250 * bits (saxWord d x 0x12C) 0 16 < (d.cycle + 1) * 1250) :
    ∃ t, holdTimeout d x = setAxis (d.advance t) x (coilThresholds d x { axisOf d x with holding := true }) := by
  unfold holdTimeout
  extract_lets a t
  have soon : t < (d.cycle + 1) * 1250 := by
    unfold t
    split
    case h_1 k last => exact due k last
    case h_2 => omega
  exact ⟨t, if_pos (by simp [rest, a, run, soon])⟩

theorem holdCurrentTimeout_due {s : State} {x : Fin 12} (rest : axisMoving s.dev x.val = false)
    (run : (axisOf s.dev x.val).holding = false)
    (due : ∀ k, (axisOf s.dev x.val).lastStep = some k →
      k + 1250 * bits (saxWord s.dev x.val 0x12C) 0 16 < (s.dev.cycle + 1) * 1250) :
    Answers s (.holdCurrentTimeout x) fun t =>
      t.nv = s.nv ∧ (axisOf t.dev x.val).holding = true ∧ (axisOf t.dev x.val).pos = (axisOf s.dev x.val).pos ∧
      axisOf t.dev x.val = coilThresholds s.dev x.val { axisOf s.dev x.val with holding := true } ∧
      (∀ y, y ≠ x.val → axisOf t.dev y = axisOf s.dev y) ∧
      SameButReports { s.now with tick := t.dev.tick, stp := t.dev.stp } t.dev := by
  obtain ⟨k, held⟩ := holdTimeout_due (d := s.now) rest run due
  have h := answers_holdCurrentTimeout s x
  rw [held] at h
  refine answers_mono (answers_same h (same_setAxis (same_advance_max s.now k) _ _)) fun t ⟨nv, same⟩ => ?_
  have own : axisOf t.dev x.val = coilThresholds s.dev x.val { axisOf s.dev x.val with holding := true } :=
    (axisOf_of_stp same.stp _).trans (axisOf_setAxis_own _ _ _)
  refine ⟨nv, by rw [own]; rfl, by rw [own]; rfl, own, fun y other => ?_, ?_⟩
  · exact (axisOf_of_stp same.stp y).trans ((axisOf_setAxis _ _ _ _).trans (if_neg other))
  · rw [same.tick, same.stp]
    exact same

/-! ### The compare (R410) -/

theorem cmpArm_disarms {d : Dev} {v : Nat} (disarm : bit v 0 = false) (x : Nat) :
    cmpArm d x v = setAxis d x { axisOf d x with armed := false } := by
  unfold cmpArm
  rw [disarm]
  rfl

/-- A compare in the positive direction whose position lies ahead is armed, and has not passed. -/
theorem cmpArm_arms {d : Dev} {x v : Nat} (arm : bit v 0 = true) (up : bits v 1 2 = 0)
    (ahead : (axisOf d x).pos < signed 32 (saxLive d x 0x050)) :
    cmpArm d x v = setAxis d x { axisOf d x with armed := true, cmpPos := signed 32 (saxLive d x 0x050), cmpDir := 0 } := by
  unfold cmpArm
  simp only [arm, up, Bool.not_true, Bool.false_eq_true, if_false, if_true, decide_eq_false (not_le.mpr ahead)]

/-- POSITION stands in a word of its own. -/
theorem saxLive_setReg (d : Dev) (x v : Nat) : saxLive (d.setReg (pageSax x) 0x054 v) x 0x050 = saxLive d x 0x050 := by
  have word : (d.setReg (pageSax x) 0x054 v).regs.inUse (wordAddr (pageSax x) 0x050) = d.regs.inUse (wordAddr (pageSax x) 0x050) := by
    rw [setReg_inUse, if_neg (wordAddr_ne (by decide))]
  rw [saxLive, inUseAt, word]
  rfl

theorem setReg_axisOf (s : State) (p off v x : Nat) : axisOf (s.now.setReg p off v) x = axisOf s.dev x :=
  axisOf_of_stp (setReg_stp s.now p off v) x

/-- Settles O37: an event of a coil by the state that it finds, the holding current and the compare by their operations. -/
theorem coils : Obligations.Coils := by
  unfold Obligations.Coils
  refine ⟨fun s u x c on => ?_, fun s u x c b off => ⟨?_, ?_, ?_, ?_⟩, fun s x rest run due => holdCurrentTimeout_due rest run due,
    fun s x v => ⟨fun disarm => ?_, fun arm up ahead => ?_⟩⟩
  · have trip := answers_chopperSenseTrip s u x c
    have blankEnds := answers_chopperBlankEnd s u x c
    have timeEnd := answers_chopperOffTimeEnd s u x c
    have deadEnd := answers_gateDeadTimeEnd s u x c
    refine ⟨fun n drive shown => ?_, fun ignored => ?_, fun n drive blank same => ?_, fun n drive blank same => ?_,
      fun n above drive blank turned current => ?_, fun n fast => ?_, fun slow served current => ?_, ?_⟩
    · rwa [senseTrip_drive on rfl drive shown] at trip
    · rwa [senseTrip_ignored on rfl ignored] at trip
    · have h := blankEnds false
      rwa [blankEnd_below on rfl drive blank same] at h
    · have h := blankEnds true
      rwa [blankEnd_above on rfl drive blank same] at h
    · have h := blankEnds above
      rwa [blankEnd_turned on rfl drive blank above turned current] at h
    · rwa [offTimeEnd_fast on rfl fast] at timeEnd
    · rwa [offTimeEnd_slow on rfl slow served current] at timeEnd
    · rwa [deadTimeEnd_on on rfl] at deadEnd
  · have h := answers_chopperSenseTrip s u x c
    rwa [senseTrip, onCoil_off off] at h
  · have h := answers_chopperBlankEnd s u x c b
    rwa [blankEnd, onCoil_off off] at h
  · have h := answers_chopperOffTimeEnd s u x c
    rwa [offTimeEnd, onCoil_off off] at h
  · have h := answers_gateDeadTimeEnd s u x c
    rwa [deadTimeEnd, onCoil_off off] at h
  · have h := answers_saxCmpArm s x v
    rwa [cmpArm_disarms disarm, setReg_axisOf] at h
  · have h := answers_saxCmpArm s x v
    rwa [cmpArm_arms arm up (by rwa [setReg_axisOf, saxLive_setReg]), setReg_axisOf, saxLive_setReg] at h

end Sys2Proof.Proofs
end

section
/-! Entries of the calibration rings (R422 to R427, R431, R437): O56. -/
namespace Sys2Proof.Proofs
open Sys2Proof.Machine Sys2Proof.Laws

/-! ### When the device takes an entry (R424) -/

theorem drifting_of_cal {d x : Dev} (h : x.cal = d.cal) (n : Nat) : drifting x n = drifting d n := by
  rw [drifting, getRun, h, drifting, getRun]
theorem calStation_of_cal {d x : Dev} (h : x.cal = d.cal) (n : Nat) : calStation x n = calStation d n := by rw [calStation, h, calStation]
theorem consumed_cal (d : Dev) (r : Nat) : (consumed d r).cal = d.cal := (congrArg Dev.cal (consumed_frame d r).1 :)
theorem consumed_cycle (d : Dev) (r : Nat) : (consumed d r).cycle = d.cycle := (congrArg Dev.cycle (consumed_frame d r).1 :)

section
variable (s : State) (u : Nat)

theorem at_cal : (s.at u).cal = s.dev.cal := arrive_cal s.now u

theorem at_ringProd (r : Nat) : ringProd (s.at u) r = ringProd s.dev r :=
  at_rfld s u _ _ (reportWord_of_offset (by decide) (by decide))

end

section
variable {s : State} (u : Nat) {k : Nat} {e : Entry}

/-- No run is in hand, and ring 16 goes first (R424). -/
theorem at_calTakes (idle : s.dev.cal.run = none) (on : s.dev.enabled pageCal = true)
    (free : calType e = 0x24 ∨ drifting s.dev (calTarget e) = false)
    (turn : if k = 0 then (ringOf s.dev 17).begun = false
      else ringCons s.dev 16 = ringProd s.dev 16 ∧ (ringOf s.dev 16).begun = false) : calTakes (s.at u) k e = true := by
  have station : (calType e == 0x24 || !drifting s.dev (calTarget e)) = true := by simpa using free
  unfold calTakes
  rw [at_cal, idle, at_enabled, on, drifting_of_cal (at_cal s u), station, at_ringBegun, at_ringBegun, at_ringCons, at_ringProd]
  split at turn
  · next first =>
    rw [if_pos first, turn]
    rfl
  · next second =>
    obtain ⟨empty, settled⟩ := turn
    rw [if_neg second, empty, settled, beq_self_eq_true]
    rfl

end

/-! ### The command -/

/-- The commands that read the entry `e` of calibration ring `k`, with what its host read brings. -/
def CalCommand (u : Nat) (k : Fin 2) (e : Entry) (rd : HostRead) (i : Instr) : Prop :=
  i = .plate u k e rd ∨ i = .power u k e rd ∨ i = .blackbody u k e rd ∨ i = .trim u k e rd ∨ i = .drift u k e rd

theorem answers_calCommand (s : State) {u : Nat} {k : Fin 2} {e : Entry} {rd : HostRead} {i : Instr} (command : CalCommand u k e rd i) :
    AnswersButReports s i (calEntry (s.at u) k.val e rd i) := by
  rcases command with rfl | rfl | rfl | rfl | rfl
  · exact answers_plate s u k e rd
  · exact answers_power s u k e rd
  · exact answers_blackbody s u k e rd
  · exact answers_trim s u k e rd
  · exact answers_drift s u k e rd

section
variable {d : Dev} {k : Nat} {e : Entry} {rd : HostRead} (ready : entryReady d (16 + k) e = true) (takes : calTakes d k e = true)
include ready takes

/-- An entry that is taken acts, unless its buffer has still to be read. -/
theorem calEntry_acts (self : Instr) (come : calWaits e rd = false) :
    calEntry d k e rd self = calAct (consumed d (16 + k)) k (entryIndex d (16 + k)) e rd := by
  have on : d.enabled pageCal = true := by
    unfold calTakes at takes
    simp only [Bool.and_eq_true] at takes
    obtain ⟨⟨⟨-, on⟩, -⟩, -⟩ := takes
    exact on
  unfold calEntry
  rw [on, takes, come, takeEntry_ready _ ready, takeEntry_ready _ ready]
  split
  · rfl
  · rfl

theorem calEntry_parks (self : Instr) (waits : calWaits e rd = true) (fresh : (ringOf d (16 + k)).begun = false) :
    calEntry d k e rd self = park d (16 + k) self true := by
  obtain ⟨can, phase⟩ := entryReady_canRead ready
  rw [entryPos, if_neg (by rw [fresh]; exact Bool.false_ne_true)] at phase
  unfold calEntry
  rw [fresh, takes, waits, can, if_neg Bool.false_ne_true, if_neg (by decide), if_pos (by decide), if_pos phase]

end

theorem calWaits_bad {e : Entry} (rd : HostRead) (bad : calEntryOk e = false) : calWaits e rd = false := by
  simp [calWaits, bad]

/-! ### What the entry does (R422, R423) -/

/-- With what its host read brings, the entry takes effect, with the bytes `b` of its buffer. -/
def TakesEffect (e : Entry) (rd : HostRead) (b : List Byte) : Prop :=
  calWaits e rd = false ∧ ∀ d k i, calAct d k i e rd = takeRun d k e b

section
variable {e : Entry} (ok : calEntryOk e = true)
include ok

theorem takesEffect_plate {b : List Byte} (type : calType e = 0x21) (whole : 64 ≤ calLength e)
    (right : plateOk b (calLength e) = true) : TakesEffect e (.ok b) b :=
  ⟨Bool.and_false _, fun d k i => by simp [calAct, calBufferOk, ok, type, right, whole]⟩

theorem takesEffect_power {b : List Byte} (type : calType e = 0x22) (whole : 32 ≤ calLength e)
    (right : powerOk b (calLength e) = true) : TakesEffect e (.ok b) b :=
  ⟨Bool.and_false _, fun d k i => by simp [calAct, calBufferOk, ok, type, right, whole]⟩

/-- Only PLATE and POWER entries have a buffer, which the device reads. -/
theorem takesEffect_bare (rd : HostRead) (plate : calType e ≠ 0x21) (power : calType e ≠ 0x22) : TakesEffect e rd [] :=
  ⟨by simp [calWaits, plate, power], fun d k i => by simp [calAct, ok, plate, power]⟩

end

theorem calAct_bad {e : Entry} (d : Dev) (k i : Nat) (rd : HostRead) (bad : calEntryOk e = false) :
    calAct d k i e rd = calEntryFault d k i e 0x02 := by
  simp [calAct, bad]

/-- An entry that starts no run is reported; its run number, which no rule states, may take a free value (R431). -/
theorem same_calEntryFault (d : Dev) {k : Nat} (i : Nat) (e : Entry) (status : Nat) (small : k < 2) :
    SameButReports { d with free := (calEntryFault d k i e status).free } (calEntryFault d k i e status) := by
  have reported : SameButReports { d with free := (orFree d 32 none).2.free } (calEntryFault d k i e status) := by
    rw [← orFree_frame]
    exact same_trans (same_emitShared _ _ _ _ (by omega)) (same_report _ _ _ _ _ _ (by decide))
  rw [reported.free]
  exact reported

/-! ### The run that an entry starts (R425, R427) -/

/-- The run of an entry that is taken in cycle `n`. -/
def entryRun (n k : Nat) (e : Entry) (buffer : List Byte) : CalRun :=
  { type := calType e, target := calTarget e, tag := byteField e 4 4, ring := k, addr := calAddr e, startAt := n + 3, buffer := buffer }

theorem beginEntry_run (d : Dev) (n k : Nat) {e : Entry} (b : List Byte) (host : calType e ≠ 0x25) : beginEntry d n k e b =
    { d with cal := { d.cal with run := some (entryRun n k e (if calType e = 0x23 then leBytes 32 e.toNat else b)) } } := if_neg host

theorem beginEntry_drift (d : Dev) (n k : Nat) {e : Entry} (b : List Byte) (drift : calType e = 0x25) : beginEntry d n k e b =
    setCalStation d (calTarget e) { calStation d (calTarget e) with due := some (k, byteField e 4 4) } := if_pos drift

theorem beginEntry_out (d : Dev) (n k : Nat) (e : Entry) (b : List Byte) (o : List Out) :
    beginEntry { d with out := o } n k e b = { beginEntry d n k e b with out := o } := by
  unfold beginEntry
  split
  · rfl
  · rfl

/-- Taking the entry is its effect and what goes to the standby (R427). -/
theorem takeRun_out (d : Dev) (k : Nat) (e : Entry) (b : List Byte) :
    takeRun d k e b = { beginEntry d d.cycle k e b with out := (takeRun d k e b).out } := by
  unfold takeRun
  dsimp only
  split
  · rw [sendCopy_out, beginEntry_out]
  · rfl

theorem takeRun_alone {d : Dev} (alone : d.forwards = false) (k : Nat) (e : Entry) (b : List Byte) : (takeRun d k e b).out = d.out := by
  have single : d.pairHolder = false := by
    unfold Dev.forwards at alone
    unfold Dev.pairHolder
    cases holds : d.holds
    · rfl
    · rw [holds, Bool.true_and, Bool.or_eq_false_iff] at alone
      rw [alone.1, Bool.and_false]
  unfold takeRun beginEntry
  rw [single, if_neg Bool.false_ne_true]
  split
  · rfl
  · rfl

section
variable {s : State} {u : Nat} {k : Fin 2} {e : Entry} {rd : HostRead} {i : Instr}
  (command : CalCommand u k e rd i) (ready : entryReady (s.at u) (16 + k.val) e = true) (takes : calTakes (s.at u) k.val e = true)
include command ready takes

/-- A command whose entry takes effect leaves that effect, but for what goes to the standby. -/
theorem answers_takeRun {b : List Byte} (acts : TakesEffect e rd b) :
    Answers s i (LeavesForwarding s (beginEntry (consumed (s.at u) (16 + k.val)) s.dev.cycle k.val e b)) := by
  have h := answers_calCommand s command
  rw [calEntry_acts ready takes i acts.1, acts.2, takeRun_out, consumed_cycle, at_cycle] at h
  refine answers_mono h fun t ⟨nv, same⟩ => ⟨nv, ?_, fun alone => ?_⟩
  · rw [same.out]
    exact same
  · rw [same.out]
    exact (takeRun_alone ((forwards_of_par (consumed_par _ _)).trans ((forwards_of_par (at_par s u)).trans alone)) _ _ _).trans
      ((consumed_out _ _).trans (at_out s u))

/-- A host run's entry becomes the run (R422). -/
theorem answers_runs {b : List Byte} (acts : TakesEffect e rd b) (host : calType e ≠ 0x25) {buffer : List Byte}
    (own : (if calType e = 0x23 then leBytes 32 e.toNat else b) = buffer) :
    Answers s i (LeavesForwarding s { consumed (s.at u) (16 + k.val) with
      cal := { s.dev.cal with run := some (entryRun s.dev.cycle k.val e buffer) } }) := by
  have h := answers_takeRun command ready takes acts
  rwa [beginEntry_run _ _ _ _ host, own, consumed_cal, at_cal] at h

/-- DRIFT marks its station due (R437). -/
theorem answers_marks {b : List Byte} (acts : TakesEffect e rd b) (drift : calType e = 0x25) : Answers s i fun t =>
      (∀ n, calStation t.dev n = if n = calTarget e then
        { calStation s.dev n with due := some (k.val, byteField e 4 4) } else calStation s.dev n) ∧
      t.dev.cal = { s.dev.cal with stations := t.dev.cal.stations } ∧
      LeavesForwarding s { consumed (s.at u) (16 + k.val) with cal := t.dev.cal } t := by
  have h := answers_takeRun command ready takes acts
  have kept : (consumed (s.at u) (16 + k.val)).cal = s.dev.cal := (consumed_cal _ _).trans (at_cal s u)
  rw [beginEntry_drift _ _ _ _ drift, setCalStation, calStation_of_cal kept, kept] at h
  refine answers_mono h fun t ⟨nv, same, alone⟩ => ?_
  have cal := same.cal
  refine ⟨fun n => ?_, ?_, nv, ?_, alone⟩
  · rw [calStation, cal]
    refine (get_set _ _ _ _ _).trans ?_
    split
    · next own => rw [own]
    · rfl
  · rw [cal]
  · rw [cal]
    exact same

/-- A reserved value starts nothing (R431). -/
theorem answers_refused (bad : calEntryOk e = false) : Answers s i fun t =>
    t.nv = s.nv ∧ SameButReports { consumed (s.at u) (16 + k.val) with free := t.dev.free } t.dev := by
  have h := answers_calCommand s command
  rw [calEntry_acts ready takes i (calWaits_bad rd bad), calAct_bad _ _ _ _ bad] at h
  refine answers_mono h fun t ⟨nv, same⟩ => ⟨nv, ?_⟩
  rw [same.free]
  exact same_trans (same_calEntryFault _ _ e 0x02 k.isLt) same

/-- The device reads the buffer first (R432, R443). -/
theorem answers_reads (waits : calWaits e rd = true) (fresh : (ringOf s.dev (16 + k.val)).begun = false) :
    AnswersButReports s i (setRing (s.at u) (16 + k.val) { ringOf s.dev (16 + k.val) with
      parked := some i, begun := true, at0 := ringCons s.dev (16 + k.val), stale := false }) := by
  have h := answers_calCommand s command
  rw [calEntry_parks ready takes i waits ((at_ringBegun s u _).trans fresh)] at h
  exact answers_same h (same_park s u _ i true)

end

/-- Settles O56: the entries by their type, each by the lemma on what it starts. -/
theorem calibrationEntries : Obligations.CalibrationEntries := by
  unfold Obligations.CalibrationEntries
  intro s u k e ready _ idle on free turn
  have takes := at_calTakes u idle on free turn
  refine ⟨fun ok => ⟨fun b type whole right => ?_, fun fresh i buffered => ?_, fun b type whole right => ?_, fun rd type => ?_,
    fun rd type => ?_, fun rd type => ?_⟩, fun bad rd i command => answers_refused command ready takes bad⟩
  · exact answers_runs (.inl rfl) ready takes (takesEffect_plate ok type whole right) (by simp [type]) (if_neg (by simp [type]))
  · rcases buffered with ⟨type, rfl⟩ | ⟨type, rfl⟩
    · exact answers_reads (.inl rfl) ready takes (by simp [calWaits, type, ok]) fresh
    · exact answers_reads (.inr (.inl rfl)) ready takes (by simp [calWaits, type, ok]) fresh
  · exact answers_runs (.inr (.inl rfl)) ready takes (takesEffect_power ok type whole right) (by simp [type]) (if_neg (by simp [type]))
  · exact answers_runs (.inr (.inr (.inl rfl))) ready takes (takesEffect_bare ok rd (by simp [type]) (by simp [type])) (by simp [type])
      (if_pos type)
  · exact answers_runs (.inr (.inr (.inr (.inl rfl)))) ready takes (takesEffect_bare ok rd (by simp [type]) (by simp [type]))
      (by simp [type]) (if_neg (by simp [type]))
  · exact answers_marks (.inr (.inr (.inr (.inr rfl)))) ready takes (takesEffect_bare ok rd (by simp [type]) (by simp [type])) type

end Sys2Proof.Proofs
end

section
/-! The refutation of O57. -/
namespace Sys2Proof.Proofs
open Sys2Proof.Machine Sys2Proof.Laws

/-- A started power run of ring 46, which is no calibration ring (R423): its record goes to ring 64, which does not exist. -/
def strayRun : CalRun := { type := 0x22, target := 0, tag := 0, ring := 46, addr := 0, startAt := 0, started := true }

/-- The device with that run in hand, and the queue of a ring 64 full. -/
def strayRecord : State := { dev := { fullQueue.dev with cal := { run := some strayRun } } }

theorem strayRecord_counts_loss : (abortAll strayRecord.now 1).regs.read lostWord64 = 1 := by decide +kernel

/-- Refutes O57: the clause on CAL_RUN.ABORT says that it changes no register word but those of reporting, for runs of every
ring number; that of ring 46 counts a lost record in a word that is none of reporting. -/
theorem not_calibrationRuns : ¬ Obligations.CalibrationRuns := by
  rintro ⟨-, -, runs, -, -, -⟩
  obtain ⟨-, -, aborted⟩ := runs strayRecord strayRun rfl
  obtain ⟨t, claimed, -, -, -, -, -, -, same⟩ := aborted (fun _ => rfl) (by decide) rfl
  obtain ⟨x, actual, -, -, left⟩ := answers_calRunAbort strayRecord
  cases claimed.symm.trans actual
  have kept : t.dev.regs.read lostWord64 = strayRecord.now.regs.read lostWord64 := same.regs.read _ lostWord64_not_reportWord
  have counted := (left.regs.read _ lostWord64_not_reportWord).trans strayRecord_counts_loss
  exact absurd (kept.symm.trans counted) (by decide +kernel)

end Sys2Proof.Proofs
end

section
/-! What each command leaves in the flash and the seal store (R469, R641, R650): O3 and O4. -/
namespace Sys2Proof.Proofs
open Sys2Proof.Machine Sys2Proof.Laws

/-! ### The stores after a command -/

/-- The flash and the seal store as a command leaves them. -/
def storesAfter (i : Instr) (s : State) : NonVolatile :=
  match i with
  | .sealStoreWrite => if s.dev.mould.storeDirty then { s.nv with sealStore := sealStoreOf s.now } else s.nv
  | .poresetNLow => (powerDown s.nv s.now).1
  | .warmReset => (warmNow s.nv s.now).1
  | .resetNSample true => (resetPin s.nv (if s.dev.boot.engine then s.at 1100 else s.now)).1
  | .devFlashDataWrite u v => (flashWrite s.nv (s.at u) 0x108 v.toNat).1
  | .devFlashErase u v => (flashWrite s.nv (s.at u) 0x10C v.toNat).1
  | .flashOperationDone u ok => (endFlash s.nv (s.at u) ok).1
  | .registerWrite u a n v =>
    match flashOffset a.toNat n with
    | some off => (flashWrite s.nv (s.at u) off (v.toNat % 2 ^ 32)).1
    | none => s.nv
  | _ => s.nv

/-- The stores that a command is known to leave are those of the state that it answers. -/
theorem nv_of_answers {s t : State} {i : Instr} {P : State → Prop} {n : NonVolatile} (h : Answers s i P) (run : exec i s = .next t)
    (stores : ∀ x, P x → x.nv = n) : t.nv = n := by
  obtain ⟨x, ran, -, left⟩ := h
  cases run.symm.trans ran
  exact stores _ left

/-- No command leaves other stores than these; but for those named it leaves the stores as they are. -/
theorem exec_nv {i : Instr} {s t : State} (run : exec i s = .next t) : t.nv = storesAfter i s := by
  cases i with
  | sealStoreWrite =>
    exact nv_of_answers (answers_sealStoreWrite s) run fun x h => h.1.trans (by
      simp only [storesAfter]
      split <;> rfl)
  | poresetNLow => exact nv_of_answers (answers_poresetNLow s) run fun x h => h.1
  | warmReset => exact nv_of_answers (answers_warmReset s) run fun x h => h.1
  | resetNSample low => cases low <;> exact nv_of_answers (answers_resetNSample s _) run fun x h => h.1
  | devFlashDataWrite u v => exact nv_of_answers (answers_devFlashDataWrite s u v) run fun x h => h.1
  | devFlashErase u v => exact nv_of_answers (answers_devFlashErase s u v) run fun x h => h.1
  | flashOperationDone u ok => exact nv_of_answers (answers_flashOperationDone s u ok) run fun x h => h.1
  | registerWrite u a n v =>
    exact nv_of_answers (answers_registerWrite s u a n v) run fun x h => h.1.trans (by
      simp only [storesAfter]
      cases flashOffset a.toNat n <;> rfl)
  | _ => cases run; rfl

/-! ### The canonical form (R469, R641) -/

theorem nonVolatile_wf_iff (x : NonVolatile) : x.wf = true ↔
    x.flash.wf (same 0xFF) = true ∧ x.sealStore.limits.wf (fun o => resetWord (wordAddr pageMld o)) = true :=
  Bool.and_eq_true _ _ ▸ Iff.rfl

theorem setFlashByte_wf {nv : NonVolatile} (h : nv.wf = true) (a : Nat) (v : Byte) : (setFlashByte nv a v).wf = true := by
  obtain ⟨flash, limits⟩ := (nonVolatile_wf_iff nv).mp h
  exact (nonVolatile_wf_iff _).mpr ⟨wf_set _ _ _ _ flash, limits⟩

/-- A write of a flash register starts an operation or is refused: the contents of both stores stay. -/
theorem flashWrite_contents (nv : NonVolatile) (d : Dev) (off v : Nat) :
    (flashWrite nv d off v).1 = { nv with op := (flashWrite nv d off v).1.op } := by
  unfold flashWrite
  repeat' split
  all_goals rfl

theorem flashWrite_wf {nv : NonVolatile} (h : nv.wf = true) (d : Dev) (off v : Nat) : (flashWrite nv d off v).1.wf = true := by
  rw [flashWrite_contents]
  exact h

/-- An operation that ends changes the flash byte by byte. -/
theorem endFlash_wf {nv : NonVolatile} (h : nv.wf = true) (d : Dev) (ok : Bool) : (endFlash nv d ok).1.wf = true := by
  unfold endFlash
  split
  · exact h
  · exact List.foldlRecOn (motive := fun n : NonVolatile => n.wf = true) _ _ h fun _ hn _ _ => setFlashByte_wf hn _ _

/-- The seal store is written limit by limit into an empty table. -/
theorem sealStoreOf_wf (d : Dev) : (sealStoreOf d).limits.wf (fun o => resetWord (wordAddr pageMld o)) = true :=
  List.foldlRecOn (motive := fun t : Tab Word => t.wf (fun o => resetWord (wordAddr pageMld o)) = true) _ _ rfl
    fun _ ht _ _ => wf_set _ _ _ _ ht

theorem sealed_wf {nv : NonVolatile} (h : nv.wf = true) (d : Dev) : NonVolatile.wf { nv with sealStore := sealStoreOf d } = true :=
  (nonVolatile_wf_iff _).mpr ⟨((nonVolatile_wf_iff nv).mp h).1, sealStoreOf_wf d⟩

theorem storedSeal_wf {nv : NonVolatile} (h : nv.wf = true) (d : Dev) : (storedSeal nv d).wf = true := by
  unfold storedSeal
  split
  · exact sealed_wf h d
  · exact h

theorem restartBoot_wf {nv : NonVolatile} (h : nv.wf = true) (d : Dev) (cause : Nat) : (restartBoot nv d cause).1.wf = true :=
  storedSeal_wf h d

theorem resetPin_wf {nv : NonVolatile} (h : nv.wf = true) (d : Dev) : (resetPin nv d).1.wf = true := by
  unfold resetPin
  split
  · exact h
  split
  · exact h
  · exact restartBoot_wf h _ _

theorem warmNow_wf {nv : NonVolatile} (h : nv.wf = true) (d : Dev) : (warmNow nv d).1.wf = true := by
  unfold warmNow
  split
  · split
    · exact restartBoot_wf h _ _
    · exact h
  · exact h

theorem storesAfter_wf (i : Instr) {s : State} (h : s.nv.wf = true) : (storesAfter i s).wf = true := by
  cases i with
  | sealStoreWrite =>
    simp only [storesAfter]
    split
    · exact sealed_wf h _
    · exact h
  | poresetNLow => exact endFlash_wf h _ _
  | warmReset => exact warmNow_wf h _
  | resetNSample low =>
    cases low
    · exact h
    · exact resetPin_wf h _
  | devFlashDataWrite u v => exact flashWrite_wf h _ _ _
  | devFlashErase u v => exact flashWrite_wf h _ _ _
  | flashOperationDone u ok => exact endFlash_wf h _ _
  | registerWrite u a n v =>
    simp only [storesAfter]
    split
    · exact flashWrite_wf h _ _ _
    · exact h
  | _ => exact h

/-- Settles O3: an empty queue idles, and of every command the stores that it leaves are in canonical form. -/
theorem stepKeepsStores : Obligations.StepKeepsStores := by
  unfold Obligations.StepKeepsStores
  intro s t wf run
  unfold step at run
  split at run
  · cases run; exact wf
  · rw [exec_nv run]
    exact storesAfter_wf _ wf

/-! ### The commands that change the stores -/

/-- A write that reaches the flash is one of 32 bits at DEV_FLASH_DATA or DEV_FLASH_CMD. -/
theorem flashOffset_place {a n off : Nat} (h : flashOffset a n = some off) : n = 4 ∧ (a = 0x108 ∨ a = 0x10C) := by
  unfold flashOffset at h
  split at h
  · assumption
  · cases h

/-- Settles O4: every command that the statement does not name leaves the stores. -/
theorem storesChangeOnlyBy : Obligations.StoresChangeOnlyBy := by
  unfold Obligations.StoresChangeOnlyBy
  intro i s t run changed
  rw [exec_nv run] at changed
  cases i with
  | sealStoreWrite | poresetNLow | warmReset | devFlashDataWrite | devFlashErase | flashOperationDone => simp
  | resetNSample low =>
    cases low
    · exact absurd rfl changed
    · simp
  | registerWrite u a n v =>
    simp only [storesAfter] at changed
    split at changed
    · next found =>
      obtain ⟨rfl, place⟩ := flashOffset_place found
      simp [place]
    · exact absurd rfl changed
  | _ => exact absurd rfl changed

end Sys2Proof.Proofs
end

section
/-! The interlock of the mould (R460 to R463): O11. -/
namespace Sys2Proof.Proofs
open Sys2Proof.Machine Sys2Proof.Laws

/-! ### What arriving leaves of the mould's page -/

/-- On the page of the mould reporting writes the pennants alone. -/
theorem reportWord_mld {off : Nat} (ho : off < 4096) (pen : off ≠ 0x010) : reportWord (wordAddr pageMld off) = false := by
  simp only [reportWord, Bool.or_eq_false_iff, Bool.and_eq_false_iff, beq_eq_false_iff_ne, decide_eq_false_iff_not]
  simp only [wordAddr, pageEvq, pageMld]
  omega

section
variable (s : State) (u : Nat)

theorem at_mould : (s.at u).mould = s.dev.mould := arrive_mould s.now u

theorem at_locked : (s.at u).mould.locked = s.dev.mould.locked := congrArg Mould.locked (at_mould s u)

theorem at_latched : (s.at u).mould.latched = s.dev.mould.latched := congrArg Mould.latched (at_mould s u)

theorem at_ilkMask : ilkMask (s.at u) = ilkMask s.dev := at_fld s u 0 4 (reportWord_mld (by decide) (by decide))

theorem at_ilkFilter : ilkFilter (s.at u) = ilkFilter s.dev := at_fld s u 8 8 (reportWord_mld (by decide) (by decide))

end

/-! ### Samples (R460) -/

/-- An input counts as open from its first open sample. -/
theorem sampleInput_open (d : Dev) (i : Nat) : sampleInput d i true = { d with mould := { d.mould with
    openSince := d.mould.openSince.set (same none) i (some ((d.mould.openSince.get (same none) i).getD d.tick)) } } := by
  unfold sampleInput
  dsimp only
  rw [if_pos rfl]
  cases d.mould.openSince.get (same none) i <;> rfl

theorem ilkInputOpen_answers (s : State) (u : Nat) (i : Fin 4) :
    AnswersButReports s (.ilkInputOpen u i) { s.at u with mould := { s.dev.mould with
      openSince := s.dev.mould.openSince.set (same none) i.val
        (some ((s.dev.mould.openSince.get (same none) i.val).getD (s.at u).tick)) } } := by
  have h := answers_ilkInputOpen s u i
  rwa [sampleInput_open, at_mould] at h

theorem ilkInputClosed_answers (s : State) (u : Nat) (i : Fin 4) :
    AnswersButReports s (.ilkInputClosed u i) { s.at u with mould := { s.dev.mould with
      openSince := s.dev.mould.openSince.set (same none) i.val none } } :=
  at_mould s u ▸ answers_ilkInputClosed s u i

/-! ### The latch (R461) -/

/-- Some input in use has been open for FILTER ticks. -/
theorem interlockDue_iff (d : Dev) : interlockDue d = true ↔
    ∃ i t0, i < 4 ∧ bit (ilkMask d) i = true ∧ d.mould.openSince.get (same none) i = some t0 ∧ t0 + ilkFilter d ≤ d.tick := by
  simp only [interlockDue, List.any_eq_true, List.mem_range, Bool.and_eq_true]
  constructor
  · rintro ⟨i, hi, used, due⟩
    split at due
    · next t0 since => exact ⟨i, t0, hi, used, since, of_decide_eq_true due⟩
    · cases due
  · rintro ⟨i, t0, hi, used, since, due⟩
    refine ⟨i, hi, used, ?_⟩
    rw [since]
    exact decide_eq_true due

/-- The control block that goes out on a lane, if it is UP. -/
def blockOn (d : Dev) (type payload l : Nat) : Option Out :=
  if (laneOf d l).stage = 5 then some (.block l type payload) else none

/-- A block on every partner lane is an output of each that is UP, and nothing else. -/
theorem blockAll_sends (d : Dev) (type payload : Nat) :
    blockAll d type payload = { d with out := d.out ++ (List.range 48).filterMap (blockOn d type payload) } := by
  refine upto_induct (fun n (e : Dev) => e = { d with out := d.out ++ (List.range n).filterMap (blockOn d type payload) })
    (by simp) ?_
  rintro n e - rfl
  have lane : laneOf { d with out := d.out ++ (List.range n).filterMap (blockOn d type payload) } n = laneOf d n := rfl
  rw [lane, List.range_succ, List.filterMap_append]
  by_cases up : (laneOf d n).stage = 5
  · simp [Dev.send, blockOn, up]
  · simp [blockOn, up]

/-- What goes out beside, two devices that differ in reports alone still do. -/
theorem same_beside_out {d e t : Dev} {o : List Out} (h : SameButReports d e) (k : SameButReports { e with out := o } t) :
    SameButReports { d with out := t.out } t := by
  have first : SameButReports { d with out := o } { e with out := o } := { h with out := rfl }
  rw [k.out]
  exact same_trans first k

/-- The device with its interlock latched in this cycle. -/
def latched (d : Dev) : Dev := { d with mould := { d.mould with latched := true, latchedAt := d.cycle + 1 } }

theorem openInterlock_latches {d : Dev} (closed : d.mould.latched = false) (due : interlockDue d = true) :
    ∃ e, SameButReports (latched d) e ∧
      openInterlock d = if e.par.role = roleHalted then e else blockAll e 0xC3 (d.cycle % 65536) := by
  refine ⟨raise (latched d) pageMld 0 clsSafety sevCritical 0x0D01 (pay (openInputs (latched d)) 0 0 0),
    same_raise _ _ _ _ _ _ _ (by decide), ?_⟩
  rw [openInterlock, if_neg (by simp [closed, due])]
  rfl

/-- What a latched interlock leaves, and the kill blocks that go out unless the device is HALTED. -/
theorem openInterlock_effect {d : Dev} (closed : d.mould.latched = false) (due : interlockDue d = true) (silent : d.out = []) :
    SameButReports { latched d with out := (openInterlock d).out } (openInterlock d) ∧
      (d.par.role ≠ roleHalted → (openInterlock d).out = (List.range 48).filterMap (blockOn d 0xC3 (d.cycle % 65536))) := by
  obtain ⟨e, left, opens⟩ := openInterlock_latches closed due
  have role : e.par.role = d.par.role := congrArg Par.role left.par
  have lanes : blockOn e = blockOn d := by unfold blockOn laneOf; rw [left.lanes]; rfl
  have out : e.out = [] := left.out.trans silent
  rw [opens, role]
  split
  · next halted => exact ⟨same_beside_out (o := e.out) left (same_refl e), fun h => absurd halted h⟩
  · rw [blockAll_sends, lanes, out]
    exact ⟨same_beside_out left (same_refl _), fun _ => rfl⟩

theorem interlockLatch_latches {s : State} (u : Nat) (closed : s.dev.mould.latched = false)
    (due : ∃ i t0, i < 4 ∧ bit (ilkMask s.dev) i = true ∧ s.dev.mould.openSince.get (same none) i = some t0 ∧
      t0 + ilkFilter s.dev ≤ (s.at u).tick) :
    Answers s (.interlockLatch u) fun t =>
      t.nv = s.nv ∧ permit t.dev = false ∧
      (s.dev.par.role ≠ roleHalted → t.dev.out = (List.range 48).filterMap fun l =>
        if (laneOf s.dev l).stage = 5 then some (.block l 0xC3 ((s.at u).cycle % 65536)) else none) ∧
      SameButReports { s.at u with
        mould := { s.dev.mould with latched := true, latchedAt := (s.at u).cycle + 1 }, out := t.dev.out } t.dev := by
  have due : interlockDue (s.at u) = true := by rwa [interlockDue_iff, at_ilkMask, at_ilkFilter, at_mould]
  obtain ⟨left, blocks⟩ := openInterlock_effect ((at_latched s u).trans closed) due (at_out s u)
  rw [latched, at_mould] at left
  have lanes (x : Nat) : blockOn (s.at u) 0xC3 x = blockOn s.dev 0xC3 x := by
    funext l
    rw [blockOn, at_laneOf, blockOn]
  refine answers_mono (answers_interlockLatch s u) fun t ⟨nv, same⟩ => ⟨nv, ?_, fun running => ?_, ?_⟩
  · have mould := same.mould.trans left.mould
    simp [permit, mould]
  · rw [same.out, blocks (by rwa [at_par]), lanes]
    rfl
  · exact same_beside_out (o := (openInterlock (s.at u)).out) left same

theorem interlockLatch_early {s : State} (u : Nat) (early : ∀ i t0, i < 4 → bit (ilkMask s.dev) i = true →
      s.dev.mould.openSince.get (same none) i = some t0 → (s.at u).tick < t0 + ilkFilter s.dev) :
    AnswersButReports s (.interlockLatch u) (s.at u) := by
  have h := answers_interlockLatch s u
  rwa [openInterlock, if_pos] at h
  have undue : interlockDue (s.at u) = false := by
    rw [← Bool.not_eq_true, interlockDue_iff, at_ilkMask, at_ilkFilter, at_mould]
    rintro ⟨i, t0, hi, used, since, due⟩
    exact absurd (early i t0 hi used since) (by omega)
  rw [undue, Bool.not_false, Bool.or_true]

/-! ### REARM (R462) -/

/-- No input in use reads open. -/
theorem openInputs_eq_zero_iff (d : Dev) :
    openInputs d = 0 ↔ ∀ i, i < 4 → bit (ilkMask d) i = true → d.mould.openSince.get (same none) i = none := by
  have mask : openInputs d = maskOf 4 fun i => bit (ilkMask d) i && inputOpen d i := List.foldl_filter
  rw [mask]
  constructor
  · intro zero i hi used
    have low := testBit_maskOf 4 (fun i => bit (ilkMask d) i && inputOpen d i) i
    rw [zero, Nat.zero_testBit, decide_eq_true hi, used] at low
    simpa [inputOpen] using low.symm
  · intro closed
    refine Nat.eq_of_testBit_eq fun i => ?_
    rw [testBit_maskOf, Nat.zero_testBit]
    by_cases hi : i < 4
    · cases used : bit (ilkMask d) i
      · simp
      · simp [inputOpen, closed i hi used]
    · simp [hi]

theorem mldIlkRearm_rearms {s : State} (latch : s.dev.mould.latched = true)
    (closed : ∀ i, i < 4 → bit (ilkMask s.dev) i = true → s.dev.mould.openSince.get (same none) i = none) :
    AnswersButReports s .mldIlkRearm { s.now with mould := { s.dev.mould with latched := false } } := by
  have h := answers_mldIlkRearm s
  have zero : openInputs s.now = 0 := (openInputs_eq_zero_iff s.now).mpr closed
  rw [rearm, zero, show s.now.mould.latched = true from latch, Bool.true_and, if_pos (beq_self_eq_true 0)] at h
  exact answers_same h (same_report _ _ _ _ _ _ (by decide))

theorem mldIlkRearm_open {s : State}
    (input : ∃ i t0, i < 4 ∧ bit (ilkMask s.dev) i = true ∧ s.dev.mould.openSince.get (same none) i = some t0) :
    AnswersButReports s .mldIlkRearm s.now := by
  obtain ⟨i, t0, hi, used, since⟩ := input
  have h := answers_mldIlkRearm s
  rwa [rearm, if_neg] at h
  have some_open : openInputs s.now ≠ 0 := fun zero =>
    absurd (since.symm.trans ((openInputs_eq_zero_iff s.now).mp zero i hi used)) (by simp)
  simp [some_open]

/-- Settles O11: the samples, the latch by whether an input is due, and REARM by whether one reads open. -/
theorem interlock : Obligations.Interlock := by
  unfold Obligations.Interlock
  exact ⟨⟨fun s u i => ⟨ilkInputOpen_answers s u i, ilkInputClosed_answers s u i⟩,
      fun s u closed => ⟨interlockLatch_latches u closed, interlockLatch_early u⟩⟩,
    fun s latch => ⟨mldIlkRearm_rearms latch, mldIlkRearm_open⟩⟩

end Sys2Proof.Proofs
end

section
/-! Writes of a mould limit (R464 to R466, R481): O45. -/
namespace Sys2Proof.Proofs
open Sys2Proof.Machine Sys2Proof.Laws

/-! ### Writes of the mould's page -/

section
variable {d : Dev} {off v : Nat} {r : Reg} {f : Dev → Reg → Dev} (hr : PageKind.mld.reg? off = some r)
include hr

theorem mouldWrite_refused {c : Nat} (refused : mouldRefused d off r v = some c) : mouldWrite d off v f = refuse d pageMld off c := by
  rw [mouldWrite, hr]
  dsimp only
  rw [refused]

theorem mouldWrite_accepted (passed : mouldRefused d off r v = none) : mouldWrite d off v f = f d r := by
  rw [mouldWrite, hr]
  dsimp only
  rw [passed]

end

/-- An accepted write of a limit is the limit's own operation, and that of another register is stored; both are forwarded. -/
theorem acceptWrite_mld (d : Dev) (off v : Nat) (r : Reg) :
    acceptWrite d .mld pageMld off r v =
      forwardWrite (if isLimit off = true then limitWrite d off v else storeWrite d .mld pageMld off r v) false
        (wordAddr pageMld off) v := by
  unfold acceptWrite
  rw [if_pos (show PageKind.mld.mirrored = true from rfl)]
  simp only [true_and]

/-- Commands that forward what they leave: without a device that follows nothing of the pair changes and nothing goes out. -/
theorem answers_forwarded {s : State} {i : Instr} {x : Dev} {a v : Nat} (h : AnswersButReports s i (forwardWrite x false a v)) :
    Answers s i fun t => t.nv = s.nv ∧ (x.forwards = false → t.dev.par = x.par ∧ t.dev.out = x.out) ∧
      SameButReports { x with par := t.dev.par, out := t.dev.out } t.dev := by
  refine answers_mono h fun t ⟨nv, same⟩ => ⟨nv, fun alone => ?_, ?_⟩
  · rw [forwardWrite_alone alone] at same
    exact ⟨same.par, same.out⟩
  · rw [same.par, same.out]
    exact same_trans (same_forwardWrite x false a v) same

/-! ### The power limit of a station (R452) -/

/-- Where the peak power limit of a station stands. -/
def powerOff (n : Fin 32) : Nat := 0x200 + 32 * n.val

theorem limitFields_power : ∀ n : Fin 32, limitFields (powerOff n) = [(0, 16, false, true)] := by decide

theorem isLimit_power (n : Fin 32) : isLimit (powerOff n) = true := by
  rw [isLimit, limitFields_power]
  rfl

theorem powerOff_range (n : Fin 32) : 0x200 ≤ powerOff n ∧ powerOff n < 0x600 := by
  unfold powerOff
  omega

theorem toNat_powerOff (n : Fin 32) : (BitVec.ofNat 12 (powerOff n)).toNat = powerOff n := by
  have := powerOff_range n
  rw [BitVec.toNat_ofNat, Nat.mod_eq_of_lt (by omega)]

theorem splitLimit_power_lower {n : Fin 32} {old new : Nat} (h : bits new 0 16 < bits old 0 16) :
    splitLimit (powerOff n) old new = (0, 0xFFFF) := by
  simp only [splitLimit, limitFields_power, List.foldl_cons, List.foldl_nil]
  rw [if_neg (by simp; omega), if_neg (by simp; omega)]
  rfl

theorem splitLimit_power_raise {n : Fin 32} {old new : Nat} (h : bits old 0 16 < bits new 0 16) :
    splitLimit (powerOff n) old new = (0xFFFF, 0) := by
  simp only [splitLimit, limitFields_power, List.foldl_cons, List.foldl_nil]
  rw [if_neg (by simp; omega), if_pos (by simpa using h)]
  rfl

/-- A number that fits a field at bit 0 is its value. -/
theorem bits_low {v w : Nat} (h : v < 2 ^ w) : bits v 0 w = v := Nat.mod_eq_of_lt h

/-! ### Limits that are lowered and raised (R464, R466) -/

theorem at_acceptedLimit (s : State) (u : Nat) {off : Nat} (ho : off < 4096) (pen : off ≠ 0x010) :
    acceptedLimit (s.at u) off = acceptedLimit s.dev off := by
  unfold acceptedLimit
  rw [at_mould, at_fld s u 0 32 (reportWord_mld ho pen)]

theorem at_acceptedPower (s : State) (u : Nat) (n : Fin 32) :
    acceptedLimit (s.at u) (powerOff n) = acceptedLimit s.dev (powerOff n) := by
  have range := powerOff_range n
  exact at_acceptedLimit s u (by omega) (by omega)

theorem at_everStarted (s : State) (u : Nat) : (s.at u).heats.everStarted = s.dev.heats.everStarted :=
  congrArg Heats.everStarted (at_heats s u)

section
variable {d : Dev} {off v mask : Nat} (free : pendingRaise d off = false)
include free

theorem others_of_free : (d.mould.raises.filter fun x => x.off != off) = d.mould.raises := by
  unfold pendingRaise at free
  rw [List.any_eq_false] at free
  exact List.filter_eq_self.mpr fun x hx => by simpa using free x hx

theorem limitWrite_lowers (other : off ≠ 0x040) (nonempty : mask ≠ 0) (split : splitLimit off (acceptedLimit d off) v = (0, mask)) :
    limitWrite d off v = lowerLimit d off v mask := by
  have kept : cancelRaise d off = d := if_neg (by rw [free]; decide)
  unfold limitWrite
  simp only [split, if_neg nonempty, kept, if_true]
  rw [if_neg (by tauto)]

theorem addRaise_free (room : d.mould.raises.length < 16) : addRaise d off v mask = some { d with mould := { d.mould with
    raises := d.mould.raises ++ [⟨off, word v, word mask, d.cycle, !d.heats.everStarted⟩] } } := by
  unfold addRaise
  rw [others_of_free free]
  exact if_pos room

theorem limitWrite_raises (other : off ≠ 0x040) (nonempty : mask ≠ 0) (room : d.mould.raises.length < 16)
    (split : splitLimit off (acceptedLimit d off) v = (mask, 0)) :
    limitWrite d off v = { d with mould := { d.mould with
      raises := d.mould.raises ++ [⟨off, word v, word mask, d.cycle, !d.heats.everStarted⟩] } } := by
  unfold limitWrite
  simp only [split, if_neg nonempty, addRaise_free free room, if_true, Option.getD_some]
  rw [if_neg (by tauto)]

end

/-- A limit that a write raises stays as it is on a sealed mould. -/
theorem mouldRefused_sealed {d : Dev} {off v : Nat} {r : Reg} (plain : blockRefused d .mld pageMld off r v = none)
    (high : 0x200 ≤ off) (limit : isLimit off = true) (sealed : d.mould.locked = true)
    (raises : (splitLimit off (acceptedLimit d off) v).1 ≠ 0) : mouldRefused d off r v = some refusedSealed := by
  have range : rangeRefused .mld 0 r v = false := by
    unfold blockRefused at plain
    split at plain
    · cases plain
    · next h => exact Bool.eq_false_of_not_eq_true h
  have key : (off == 0x080) = false := beq_eq_false_iff_ne.mpr (by omega)
  unfold mouldRefused
  rw [range, key, plain, limitRefused, sealed]
  simp [limit, raises, show ¬ off < 0x120 by omega]

/-! ### The command -/

section
variable {s : State} {u : Nat} {n : Fin 32} {v : Word} {r : Reg}

theorem mldLimitWrite_kept :
    keptForSlot s u (.mldLimitWrite u (BitVec.ofNat 12 (powerOff n)) v) ⟨false, wordAddr pageMld (powerOff n), 4, v.toNat⟩ := by
  intro held
  have h := answers_mldLimitWrite s u (BitVec.ofNat 12 (powerOff n)) v
  rwa [toNat_powerOff, isLimit_power, held, Bool.and_self, if_pos rfl] at h

theorem answers_mldLimitWrite_free (slot : (s.at u).writeHeld = false) :
    AnswersButReports s (.mldLimitWrite u (BitVec.ofNat 12 (powerOff n)) v)
      (mouldWrite (s.at u) (powerOff n) v.toNat fun d r => acceptWrite d .mld pageMld (powerOff n) r v.toNat) := by
  have h := answers_mldLimitWrite s u (BitVec.ofNat 12 (powerOff n)) v
  rwa [toNat_powerOff, isLimit_power, slot, if_neg (by decide), if_pos rfl] at h

variable (hr : PageKind.mld.reg? (powerOff n) = some r) (slot : (s.at u).writeHeld = false)
include hr slot

/-- An accepted write leaves the limit's own operation, and goes on to a device that follows. -/
theorem mldLimitWrite_accepted {x : Mould} (passed : mouldRefused (s.at u) (powerOff n) r v.toNat = none)
    (write : limitWrite (s.at u) (powerOff n) v.toNat = { s.at u with mould := x }) :
    Answers s (.mldLimitWrite u (BitVec.ofNat 12 (powerOff n)) v) fun t =>
      t.nv = s.nv ∧ (s.dev.forwards = false → t.dev.par = s.dev.par ∧ t.dev.out = []) ∧
      SameButReports { s.at u with mould := x, par := t.dev.par, out := t.dev.out } t.dev := by
  have h := answers_mldLimitWrite_free (n := n) (v := v) slot
  rw [mouldWrite_accepted hr passed, acceptWrite_mld, if_pos (isLimit_power n), write] at h
  refine answers_mono (answers_forwarded h) fun t ⟨nv, alone, same⟩ => ⟨nv, fun forwards => ?_, same⟩
  obtain ⟨par, out⟩ := alone ((forwards_of_par (at_par s u)).trans forwards)
  exact ⟨par.trans (at_par s u), out.trans (at_out s u)⟩

variable (small : v.toNat < 65536)
include small

theorem mldLimitWrite_sealed (plain : blockRefused (s.at u) .mld pageMld (powerOff n) r v.toNat = none)
    (up : bits (acceptedLimit s.dev (powerOff n)) 0 16 < v.toNat) (sealed : s.dev.mould.locked = true) :
    AnswersButReports s (.mldLimitWrite u (BitVec.ofNat 12 (powerOff n)) v) ((s.at u).setReg pageMld 0x024
      (powerOff n + pageMld <<< 12 + s.dev.rfld pageMld 0x024 31 1 <<< 22 + refusedSealed <<< 24 + 1 <<< 31)) := by
  have range := powerOff_range n
  have h := answers_mldLimitWrite_free (n := n) (v := v) slot
  have raises := splitLimit_power_raise (n := n) (old := acceptedLimit (s.at u) (powerOff n)) (new := v.toNat)
    (by rwa [at_acceptedPower, bits_low (v := v.toNat) small])
  rw [mouldWrite_refused hr (mouldRefused_sealed plain range.1 (isLimit_power n)
    ((at_locked s u).trans sealed) (by rw [raises]; decide))] at h
  have word := at_refusalWord s u pageMld pageMld (powerOff n) refusedSealed
  unfold refusalWord at word
  rw [← word]
  exact answers_same h (same_refuse rfl (by omega))

variable (free : pendingRaise s.dev (powerOff n) = false)
  (passed : mouldRefused (s.at u) (powerOff n) r v.toNat = none)
include free passed

theorem mldLimitWrite_lowers (down : v.toNat < bits (acceptedLimit s.dev (powerOff n)) 0 16) :
    Answers s (.mldLimitWrite u (BitVec.ofNat 12 (powerOff n)) v) fun t =>
      t.nv = s.nv ∧ (s.dev.forwards = false → t.dev.par = s.dev.par ∧ t.dev.out = []) ∧
      SameButReports { s.at u with
        mould := { s.dev.mould with lowers := s.dev.mould.lowers ++ [⟨powerOff n, v, 0xFFFF, s.dev.cycle⟩] }
        par := t.dev.par, out := t.dev.out } t.dev := by
  have range := powerOff_range n
  refine mldLimitWrite_accepted hr slot passed ?_
  rw [limitWrite_lowers (mask := 0xFFFF) (by rwa [pendingRaise, at_mould]) (by omega) (by decide)
    (splitLimit_power_lower (by rwa [at_acceptedPower, bits_low (v := v.toNat) small])), lowerLimit, at_mould, at_cycle,
    word_toNat]
  rfl

theorem mldLimitWrite_raises (up : bits (acceptedLimit s.dev (powerOff n)) 0 16 < v.toNat)
    (room : s.dev.mould.raises.length < 16) :
    Answers s (.mldLimitWrite u (BitVec.ofNat 12 (powerOff n)) v) fun t =>
      t.nv = s.nv ∧ (s.dev.forwards = false → t.dev.par = s.dev.par ∧ t.dev.out = []) ∧
      SameButReports { s.at u with
        mould := { s.dev.mould with
          raises := s.dev.mould.raises ++ [⟨powerOff n, v, 0xFFFF, s.dev.cycle, !s.dev.heats.everStarted⟩] }
        par := t.dev.par, out := t.dev.out } t.dev := by
  have range := powerOff_range n
  refine mldLimitWrite_accepted hr slot passed ?_
  rw [limitWrite_raises (mask := 0xFFFF) (by rwa [pendingRaise, at_mould]) (by omega) (by decide) (by rwa [at_mould])
    (splitLimit_power_raise (by rwa [at_acceptedPower, bits_low (v := v.toNat) small])), at_mould, at_cycle, at_everStarted,
    word_toNat]
  rfl

end

/-- Settles O45: the write that waits in the host link, the one that lowers, the one that raises and the one that is refused. -/
theorem mouldLimits : Obligations.MouldLimits := by
  unfold Obligations.MouldLimits
  intro s u n v r small off now lowered raised hr
  exact ⟨mldLimitWrite_kept, fun slot free =>
    ⟨fun passed down => mldLimitWrite_lowers hr slot small free passed down,
      fun passed up _ room => mldLimitWrite_raises hr slot small free passed up room,
      fun plain up sealed => mldLimitWrite_sealed hr slot small plain up sealed⟩⟩

end Sys2Proof.Proofs
end

section
/-! Rows of the mould's registers on a holder that forwards its writes, and the seal and the key (R467, R481). -/
namespace Sys2Proof.Proofs
open Sys2Proof.Machine Sys2Proof.Laws

/-! ### A row and its write (R481) -/

section
variable {s : State} {i : Instr} {u off v : Nat} {r : Reg} {f : Dev → Dev}
  (h : AnswersButReports s i (mouldRow (s.at u) off v f)) (hr : PageKind.mld.reg? off = some r)
include h hr

/-- Where the row waits, and what a device that forwards its writes makes of it. -/
theorem mouldForwards_of_row (other : isLimit off = false) : mouldForwards s u i off v r := by
  refine ⟨fun held => ?_, fun forwards slot passed => ?_⟩
  · rwa [mouldRow, if_pos held] at h
  · rw [mouldRow, if_neg (by rw [slot]; decide), mouldWrite_accepted hr passed,
      if_pos ((forwards_of_par (at_par s u)).trans forwards), acceptWrite_mld, if_neg (by rw [other]; decide)] at h
    exact answers_mono (answers_forwarded h) fun t ⟨nv, _, same⟩ => ⟨nv, same⟩

/-- A device that forwards nothing takes an accepted row at once. -/
theorem answers_row (alone : s.dev.forwards = false) (passed : mouldRefused (s.at u) off r v = none) :
    AnswersButReports s i (f (s.at u)) := by
  have alone : (s.at u).forwards = false := (forwards_of_par (at_par s u)).trans alone
  have slot : (s.at u).writeHeld = false := by rw [Dev.writeHeld, alone, Bool.false_and]
  rwa [mouldRow, if_neg (by rw [slot]; decide), mouldWrite_accepted hr passed, if_neg (by rw [alone]; decide)] at h

end

/-! ### The seal (R467) -/

theorem mldSeal_seals {s : State} {u : Nat} {r : Reg} (hr : PageKind.mld.reg? 0x080 = some r) (alone : s.dev.forwards = false)
    (passed : mouldRefused (s.at u) 0x080 r 1 = none) (key : s.dev.mould.key ≠ 0) :
    AnswersButReports s (.mldSeal u) { s.at u with mould := { s.dev.mould with locked := true, storeDirty := true } } := by
  have h := answers_row (answers_mldSeal s u) hr alone passed
  rwa [setSeal, at_mould, if_neg key] at h

/-! ### The key (R467) -/

/-- A field that is taken out and put in anew is a merge under the field's mask. -/
theorem replace_eq_mergeBits (k x lo w : Nat) :
    k - bits k lo w <<< lo + (x % 2 ^ w) <<< lo = mergeBits k (x <<< lo) ((2 ^ w - 1) <<< lo) := by
  have old : bits k lo w <<< lo = k &&& (2 ^ w - 1) <<< lo := by
    refine Nat.eq_of_testBit_eq fun i => ?_
    rw [Nat.testBit_shiftLeft, testBit_bits, Nat.testBit_and, Nat.testBit_shiftLeft, Nat.testBit_two_pow_sub_one]
    by_cases hi : lo ≤ i
    · rw [show lo + (i - lo) = i by omega, Bool.and_comm (k.testBit i), Bool.and_assoc]
    · simp [hi]
  have new : (x % 2 ^ w) <<< lo = x <<< lo &&& (2 ^ w - 1) <<< lo := by
    rw [← Nat.shiftLeft_and_distrib, Nat.and_two_pow_sub_one_eq_mod]
  rw [old, new, mergeBits]

/-- Word `i` of a key is written, and the others stay. -/
theorem bits_keyWord (k : BitVec 256) (v : Word) {i j : Nat} (hi : i < 8) (hj : j < 8) :
    bits (BitVec.ofNat 256 (k.toNat - bits k.toNat (32 * i) 32 <<< (32 * i) + (v.toNat % 2 ^ 32) <<< (32 * i))).toNat (32 * j) 32 =
      if j = i then v.toNat else bits k.toNat (32 * j) 32 := by
  rw [replace_eq_mergeBits, BitVec.toNat_ofNat]
  conv_rhs => rw [← bits_whole v]
  refine Nat.eq_of_testBit_eq fun t => ?_
  rw [apply_ite (Nat.testBit · t)]
  simp only [testBit_bits, Nat.testBit_mod_two_pow, testBit_mergeBits, Nat.testBit_shiftLeft, Nat.testBit_two_pow_sub_one]
  by_cases ht : t < 32
  · have inside : 32 * j + t < 256 := by omega
    by_cases same : j = i
    · subst same
      simp [ht, inside]
    · have apart : ¬(32 * i ≤ 32 * j + t ∧ 32 * j + t - 32 * i < 32) := by omega
      simp [ht, inside, same, apart]
  · simp [ht]

theorem mldKeyWrite_stores {s : State} {u : Nat} {i : Fin 8} {v : Word} {r : Reg}
    (hr : PageKind.mld.reg? (0x100 + 4 * i.val) = some r) (alone : s.dev.forwards = false)
    (passed : mouldRefused (s.at u) (0x100 + 4 * i.val) r v.toNat = none) :
    Answers s (.mldKeyWrite u i v) fun t =>
      t.nv = s.nv ∧ bits t.dev.mould.key.toNat (32 * i.val) 32 = v.toNat ∧
      (∀ j, j < 8 → j ≠ i.val → bits t.dev.mould.key.toNat (32 * j) 32 = bits s.dev.mould.key.toNat (32 * j) 32) ∧
      t.dev.mould = { s.dev.mould with key := t.dev.mould.key, storeDirty := true } ∧
      SameButReports { s.at u with regs := t.dev.regs, mould := t.dev.mould } t.dev := by
  have h := answers_row (answers_mldKeyWrite s u i v) hr alone passed
  refine answers_mono h fun t ⟨nv, same⟩ => ?_
  have mould := same.mould
  rw [setKeyWord, setReg_mould, at_mould] at mould
  dsimp only at mould
  have word (j : Nat) (hj : j < 8) : bits t.dev.mould.key.toNat (32 * j) 32 =
      if j = i.val then v.toNat else bits s.dev.mould.key.toNat (32 * j) 32 := by
    rw [mould]
    exact bits_keyWord s.dev.mould.key v i.isLt hj
  refine ⟨nv, (word i.val i.isLt).trans (if_pos rfl), fun j hj other => (word j hj).trans (if_neg other), ?_,
    { same with regs := sameRegs_refl _, mould := rfl }⟩
  rw [mould]

theorem isLimit_key : ∀ i : Fin 8, isLimit (0x100 + 4 * i.val) = false := by decide

end Sys2Proof.Proofs
end

section
/-! Authorised commands of the mould and its seal store (R467 to R470): O46. -/
namespace Sys2Proof.Proofs
open Sys2Proof.Machine Sys2Proof.Laws

/-! ### The end of a command (R468, R470) -/

/-- A new challenge is drawn, sent or expected. -/
theorem newChallenge_frame (d : Dev) : newChallenge d = { d with
    mould := { d.mould with challenge := (newChallenge d).mould.challenge }
    par := (newChallenge d).par, out := (newChallenge d).out, free := (newChallenge d).free } := by
  unfold newChallenge
  split
  · rfl
  · dsimp only
    split
    · rw [sendHalyard_out]
      rfl
    · rfl

/-- `e` is `d` after a command that ended with `result`: but for a new challenge the mould has no other change, and no
register but those of reporting has one. -/
structure AuthFailed (d : Dev) (result : Nat) (e : Dev) : Prop where
  mould : e.mould = { d.mould with result := result, challenge := e.mould.challenge }
  told : e.pennant pageMld 9 = true
  regs : SameRegs d.regs e.regs
  stations : e.stations = d.stations
  heats : e.heats = d.heats

theorem authResult_fails (d : Dev) (cmd : Nat) {result : Nat} (h : result ≠ 1) : AuthFailed d result (authResult d cmd result) := by
  have ends : authResult d cmd result = newChallenge (raise { d with mould := { d.mould with result := result } } pageMld 9
      clsSafety sevWarning 0x0D0B (pay cmd result 0 0)) := by
    unfold authResult
    dsimp only
    rw [if_neg h]
  have reported : SameButReports { d with mould := { d.mould with result := result } } _ :=
    same_raise { d with mould := { d.mould with result := result } } pageMld 9 clsSafety sevWarning 0x0D0B
      (pay cmd result 0 0) (by decide)
  have told := pennant_raised { d with mould := { d.mould with result := result } } (p := pageMld) (b := 9) (cls := clsSafety)
    (sev := sevWarning) (code := 0x0D0B) (payload := pay cmd result 0 0) (by decide) (by decide)
  rw [ends, newChallenge_frame]
  constructor
  · dsimp only
    rw [reported.mould]
  · exact told
  · exact reported.regs
  · exact reported.stations
  · exact reported.heats

theorem AuthFailed.reports {d e t : Dev} {result : Nat} (h : AuthFailed d result e) (same : SameButReports e t) :
    AuthFailed d result t where
  mould := by rw [same.mould, ← h.mould]
  told := pennant_of_same same h.told
  regs := sameRegs_trans h.regs same.regs
  stations := same.stations.trans h.stations
  heats := same.heats.trans h.heats

theorem authResult_succeeds (d : Dev) (cmd : Nat) :
    authResult d cmd 1 = newChallenge { d with mould := { d.mould with result := 1 } } := rfl

theorem authMac_of_mould {d e : Dev} (h : e.mould = d.mould) (cmd off value : Nat) :
    authMac e cmd off value = authMac d cmd off value := by
  rw [authMac, h, authMac]

/-- The response is right or wrong whenever the command comes. -/
theorem at_authMac (s : State) (u cmd off value : Nat) :
    authMac (s.at u) cmd off value = (s.at u).mould.response.toNat ↔ authMac s.dev cmd off value = s.dev.mould.response.toNat := by
  rw [authMac_of_mould (at_mould s u), at_mould]

section
variable {s : State} {u : Nat} {i : Instr}

/-- The command ends with `result`, without effect. -/
theorem answers_failed {cmd result : Nat} (h : AnswersButReports s i (authResult (s.at u) cmd result)) (failed : result ≠ 1) :
    Answers s i fun t => t.nv = s.nv ∧
      t.dev.mould = { s.dev.mould with result := result, challenge := t.dev.mould.challenge } ∧
      t.dev.pennant pageMld 9 = true ∧ SameRegs s.dev.regs t.dev.regs ∧ t.dev.stations = s.dev.stations ∧
      t.dev.heats = s.dev.heats := by
  refine answers_mono h fun t ⟨nv, same⟩ => ?_
  obtain ⟨mould, told, regs, stations, heats⟩ := (authResult_fails (s.at u) cmd failed).reports same
  exact ⟨nv, at_mould s u ▸ mould, told, sameRegs_trans (at_regs s u) regs, stations.trans (arrive_stations s.now u),
    heats.trans (at_heats s u)⟩

end

/-! ### RAISE (R468) -/

section
variable {d : Dev} {off value : Nat}

theorem authRaise_open (unsealed : d.mould.locked = false) : authRaise d off value = authResult d 1 4 :=
  if_pos (by rw [unsealed]; rfl)

variable (sealed : d.mould.locked = true)
include sealed

theorem authRaise_wrong (wrong : authMac d 1 off value ≠ d.mould.response.toNat) : authRaise d off value = authResult d 1 2 := by
  rw [authRaise, if_neg (by rw [sealed]; decide), if_pos wrong]

theorem authRaise_right {q : Reg} (right : authMac d 1 off value = d.mould.response.toNat) (limit : isLimit off = true)
    (hq : PageKind.mld.reg? off = some q) (legal : valuesOk q value = true)
    (raises : (splitLimit off (acceptedLimit d off) value).1 ≠ 0) (free : pendingRaise d off = false)
    (room : d.mould.raises.length < 16) :
    authRaise d off value = newChallenge { d with mould := { d.mould with
      result := 1
      raises := d.mould.raises ++ [⟨off, word value,
        word ((splitLimit off (acceptedLimit d off) value).1 ||| (splitLimit off (acceptedLimit d off) value).2), d.cycle,
        !d.heats.everStarted⟩] } } := by
  rw [authRaise, if_neg (by rw [sealed]; decide), if_neg (not_not_intro right), if_neg (by rw [limit]; decide)]
  dsimp only
  rw [hq, if_neg (by rintro (none | bad); exacts [raises none, absurd (legal.symm.trans bad) (by decide)]), addRaise_free free room]
  exact authResult_succeeds _ 1

end

theorem authUnseal_open {d : Dev} (unsealed : d.mould.locked = false) : authUnseal d = authResult d 2 4 :=
  if_pos (by rw [unsealed]; rfl)

theorem authUnseal_wrong {d : Dev} (sealed : d.mould.locked = true) (wrong : authMac d 2 0 0 ≠ d.mould.response.toNat) :
    authUnseal d = authResult d 2 2 := by
  rw [authUnseal, if_neg (by rw [sealed]; decide), if_pos wrong]

/-- The device with the words of its key cleared. -/
def keyCleared (d : Dev) : Dev := upto 8 (fun d i => d.setReg pageMld (0x100 + 4 * i) 0) d

theorem keyCleared_mould (d : Dev) : (keyCleared d).mould = d.mould := upto_keeps Dev.mould fun _ _ => rfl

theorem keyCleared_inUse (d : Dev) {o : Nat} (outside : o < 0x100 ∨ 0x200 ≤ o) (ho : o < 4096) :
    (keyCleared d).regs.inUse (wordAddr pageMld o) = d.regs.inUse (wordAddr pageMld o) := by
  refine upto_induct (fun _ (e : Dev) => e.regs.inUse (wordAddr pageMld o) = d.regs.inUse (wordAddr pageMld o)) rfl ?_
  intro k e hk h
  rw [setReg_inUse, if_neg, h]
  rw [wordAddr_eq ho (by omega)]
  omega

theorem authUnseal_right {d : Dev} (sealed : d.mould.locked = true) (right : authMac d 2 0 0 = d.mould.response.toNat) :
    authUnseal d = newChallenge { keyCleared d with mould := { d.mould with
      result := 1, locked := false, key := 0, storeDirty := true } } := by
  rw [authUnseal, if_neg (by rw [sealed]; decide), if_neg (not_not_intro right)]
  change authResult { keyCleared d with mould := { (keyCleared d).mould with locked := false, key := 0, storeDirty := true } } 2 1 = _
  rw [keyCleared_mould, authResult_succeeds]

/-! ### The commands -/

/-- The register and the value that an authorised RAISE names. -/
def authOff (s : State) : Nat := s.dev.rfld pageMld 0x044 16 12
def authValue (s : State) : Nat := s.dev.rfld pageMld 0x048 0 32

theorem at_authOff (s : State) (u : Nat) : (s.at u).rfld pageMld 0x044 16 12 = authOff s :=
  at_rfld s u 16 12 (reportWord_mld (by decide) (by decide))

theorem at_authValue (s : State) (u : Nat) : (s.at u).rfld pageMld 0x048 0 32 = authValue s :=
  at_rfld s u 0 32 (reportWord_mld (by decide) (by decide))

theorem authOff_lt (s : State) : authOff s < 4096 := Nat.mod_lt _ (by decide)

theorem answers_mldAuthRaise_row (s : State) (u : Nat) : AnswersButReports s (.mldAuthRaise u)
    (mouldRow (s.at u) 0x044 (1 + authOff s <<< 16) fun d =>
      authRaise d (d.rfld pageMld 0x044 16 12) (d.rfld pageMld 0x048 0 32)) :=
  at_authOff s u ▸ answers_mldAuthRaise s u

section
variable {s : State} {u : Nat} {r : Reg} (hr : PageKind.mld.reg? 0x044 = some r) (alone : s.dev.forwards = false)
include hr alone

section
variable (passed : mouldRefused (s.at u) 0x044 r (1 + authOff s <<< 16) = none)
include passed

theorem answers_authRaise : AnswersButReports s (.mldAuthRaise u) (authRaise (s.at u) (authOff s) (authValue s)) := by
  have h := answers_row (answers_mldAuthRaise_row s u) hr alone passed
  rwa [at_authOff, at_authValue] at h

theorem mldAuthRaise_open (unsealed : s.dev.mould.locked = false) :
    AnswersButReports s (.mldAuthRaise u) (authResult (s.at u) 1 4) := by
  have h := answers_authRaise hr alone passed
  rwa [authRaise_open ((at_locked s u).trans unsealed)] at h

theorem mldAuthRaise_wrong (sealed : s.dev.mould.locked = true)
    (wrong : authMac s.dev 1 (authOff s) (authValue s) ≠ s.dev.mould.response.toNat) :
    AnswersButReports s (.mldAuthRaise u) (authResult (s.at u) 1 2) := by
  have h := answers_authRaise hr alone passed
  rwa [authRaise_wrong ((at_locked s u).trans sealed) ((at_authMac s u _ _ _).not.mpr wrong)] at h

theorem mldAuthRaise_enters (q : Reg) (sealed : s.dev.mould.locked = true)
    (right : authMac s.dev 1 (authOff s) (authValue s) = s.dev.mould.response.toNat) (limit : isLimit (authOff s) = true)
    (hq : PageKind.mld.reg? (authOff s) = some q) (legal : valuesOk q (authValue s) = true) :
    let m := splitLimit (authOff s) (acceptedLimit s.dev (authOff s)) (authValue s)
    m.1 ≠ 0 → pendingRaise s.dev (authOff s) = false → s.dev.mould.raises.length < 16 → Answers s (.mldAuthRaise u) fun t =>
      t.nv = s.nv ∧ t.dev.mould = { s.dev.mould with
        result := 1, challenge := t.dev.mould.challenge
        raises := s.dev.mould.raises ++
          [⟨authOff s, word (authValue s), word (m.1 ||| m.2), s.dev.cycle, !s.dev.heats.everStarted⟩] } ∧
      SameRegs s.dev.regs t.dev.regs := by
  intro m raises free room
  have pen : authOff s ≠ 0x010 := by
    intro h
    rw [h] at limit
    exact absurd limit (by decide)
  have accepted := at_acceptedLimit s u (authOff_lt s) pen
  have h := answers_authRaise hr alone passed
  rw [authRaise_right ((at_locked s u).trans sealed) ((at_authMac s u _ _ _).mpr right) limit hq legal
    (by rwa [accepted]) (by rwa [pendingRaise, at_mould]) (by rwa [at_mould]), newChallenge_frame] at h
  refine answers_mono h fun t ⟨nv, same⟩ => ⟨nv, ?_, sameRegs_trans (at_regs s u) same.regs⟩
  rw [same.mould]
  dsimp only
  rw [accepted, at_mould, at_cycle, at_heats]

end

section
variable (passed : mouldRefused (s.at u) 0x044 r 2 = none)
include passed

theorem mldAuthUnseal_open (unsealed : s.dev.mould.locked = false) :
    AnswersButReports s (.mldAuthUnseal u) (authResult (s.at u) 2 4) := by
  have h := answers_row (answers_mldAuthUnseal s u) hr alone passed
  rwa [authUnseal_open ((at_locked s u).trans unsealed)] at h

theorem mldAuthUnseal_wrong (sealed : s.dev.mould.locked = true) (wrong : authMac s.dev 2 0 0 ≠ s.dev.mould.response.toNat) :
    AnswersButReports s (.mldAuthUnseal u) (authResult (s.at u) 2 2) := by
  have h := answers_row (answers_mldAuthUnseal s u) hr alone passed
  rwa [authUnseal_wrong ((at_locked s u).trans sealed) ((at_authMac s u _ _ _).not.mpr wrong)] at h

theorem mldAuthUnseal_opens (sealed : s.dev.mould.locked = true) (right : authMac s.dev 2 0 0 = s.dev.mould.response.toNat) :
    Answers s (.mldAuthUnseal u) fun t =>
      t.nv = s.nv ∧ t.dev.mould = { s.dev.mould with
        result := 1, locked := false, key := 0, storeDirty := true, challenge := t.dev.mould.challenge } ∧
      ∀ o, o < 0x100 ∨ 0x200 ≤ o → o < 4096 → t.dev.regs.inUse (wordAddr pageMld o) = s.dev.regs.inUse (wordAddr pageMld o) ∨
        reportWord (wordAddr pageMld o) = true := by
  have h := answers_row (answers_mldAuthUnseal s u) hr alone passed
  rw [authUnseal_right ((at_locked s u).trans sealed) ((at_authMac s u _ _ _).mpr right), newChallenge_frame, at_mould] at h
  refine answers_mono h fun t ⟨nv, same⟩ => ⟨nv, ?_, fun o outside ho => ?_⟩
  · rw [same.mould]
  · cases silent : reportWord (wordAddr pageMld o)
    · exact .inl (((same.regs.inUse _ silent).trans (keyCleared_inUse (s.at u) outside ho)).trans (at_inUse s u silent))
    · exact .inr rfl

end

end

/-! ### The seal store (R469) -/

theorem sealStoreWrite_stores {s : State} (changed : s.dev.mould.storeDirty = true) : Answers s .sealStoreWrite fun t =>
    t.nv.sealStore = sealStoreOf s.dev ∧ t.nv.flash = s.nv.flash ∧ t.nv.op = s.nv.op ∧
    SameButReports { s.now with mould := { s.dev.mould with storeDirty := false } } t.dev := by
  refine answers_mono (answers_sealStoreWrite s) fun t ⟨nv, same⟩ => ?_
  rw [if_pos changed] at nv same
  rw [nv]
  exact ⟨rfl, rfl, rfl, same⟩

theorem sealStoreWrite_rests {s : State} (stored : s.dev.mould.storeDirty = false) : AnswersButReports s .sealStoreWrite s.now := by
  have h := answers_sealStoreWrite s
  rwa [stored, if_neg (by decide)] at h

/-- Settles O46: the seal and the key, each command by its response, and the store by whether it has something to take. -/
theorem mouldAuth : Obligations.MouldAuth := by
  unfold Obligations.MouldAuth
  refine ⟨fun s u r hr => ⟨mouldForwards_of_row (answers_mldSeal s u) hr (by decide), mldSeal_seals hr⟩,
    fun s u i v r hr => ⟨mouldForwards_of_row (answers_mldKeyWrite s u i v) hr (isLimit_key i), mldKeyWrite_stores hr⟩,
    fun s u r hr => ?_, fun s => ⟨sealStoreWrite_stores, sealStoreWrite_rests⟩⟩
  intro off value failed
  refine ⟨mouldForwards_of_row (answers_mldAuthRaise_row s u) hr (by decide),
    mouldForwards_of_row (answers_mldAuthUnseal s u) hr (by decide), fun alone passed => ⟨fun unsealed => ?_, fun sealed wrong => ?_,
      mldAuthRaise_enters hr alone passed⟩, fun alone passed => ⟨fun unsealed => ?_, fun sealed wrong => ?_,
      mldAuthUnseal_opens hr alone passed⟩⟩
  · exact answers_failed (mldAuthRaise_open hr alone passed unsealed) (by decide)
  · exact answers_failed (mldAuthRaise_wrong hr alone passed sealed wrong) (by decide)
  · exact answers_failed (mldAuthUnseal_open hr alone passed unsealed) (by decide)
  · exact answers_failed (mldAuthUnseal_wrong hr alone passed sealed wrong) (by decide)

end Sys2Proof.Proofs
end

section
/-! The ingot coder: what the encoder writes the decoder reads (R552 to R557), and with it O53. -/
namespace Sys2Proof.Proofs
open Sys2Proof.Machine Sys2Proof.Laws

/-! ### Streams of bits -/

/-- The stream's value fits its length. -/
def Fits (s : BitStream) : Prop := s.1 < 2 ^ s.2

/-- `t` goes on where `s` ends. -/
def Extends (s t : BitStream) : Prop := s.2 ≤ t.2 ∧ t.1 % 2 ^ s.2 = s.1

theorem Extends.refl {s : BitStream} (h : Fits s) : Extends s s := ⟨Nat.le_refl _, Nat.mod_eq_of_lt h⟩

theorem Extends.trans {s t u : BitStream} (h : Extends s t) (k : Extends t u) : Extends s u :=
  ⟨h.1.trans k.1, by rw [← h.2, ← k.2, Nat.mod_mod_of_dvd _ (Nat.pow_dvd_pow 2 h.1)]⟩

theorem put_value (s : BitStream) (v n : Nat) : (s.put v n).1 = s.1 + 2 ^ s.2 * (v % 2 ^ n) := by
  rw [BitStream.put, Nat.shiftLeft_eq, Nat.mul_comm]

theorem fits_put {s : BitStream} (h : Fits s) (v n : Nat) : Fits (s.put v n) := by
  have field : v % 2 ^ n + 1 ≤ 2 ^ n := Nat.mod_lt _ (Nat.two_pow_pos n)
  have scaled := Nat.mul_le_mul_left (2 ^ s.2) field
  unfold Fits at *
  rw [put_value, BitStream.put, Nat.pow_add]
  rw [Nat.mul_add] at scaled
  omega

theorem extends_put {s : BitStream} (h : Fits s) (v n : Nat) : Extends s (s.put v n) :=
  ⟨Nat.le_add_right _ _, by rw [put_value, Nat.add_mul_mod_self_left, Nat.mod_eq_of_lt h]⟩

/-- What was put stands where the stream ended then, however it went on. -/
theorem bits_of_extends {s t : BitStream} {v n : Nat} (h : Fits s) (k : Extends (s.put v n) t) : bits t.1 s.2 n = v % 2 ^ n := by
  have low : t.1 % (2 ^ s.2 * 2 ^ n) / 2 ^ s.2 = v % 2 ^ n := by
    have whole := k.2
    rw [put_value, show (s.put v n).2 = s.2 + n from rfl, Nat.pow_add] at whole
    rw [whole, Nat.add_mul_div_left _ _ (Nat.two_pow_pos _), Nat.div_eq_of_lt h, Nat.zero_add]
  rw [bits, Nat.shiftRight_eq_div_pow, ← low, Nat.mod_mul_right_div_self]

theorem bit_eq_bits (v i : Nat) : bit v i = decide (bits v i 1 = 1) := by
  rw [bit, Nat.testBit_eq_decide_div_mod_eq, bits, Nat.shiftRight_eq_div_pow, pow_one]

/-- The single bits of a field. -/
theorem bit_of_bits {v lo w x i : Nat} (h : bits v lo w = x) (hi : i < w) : bit v (lo + i) = x.testBit i := by
  rw [← h, testBit_bits, bit, decide_eq_true hi, Bool.true_and]

theorem fits_putSamples {s : BitStream} (h : Fits s) (xs : List Word) : Fits (putSamples s xs) := by
  induction xs generalizing s with
  | nil => exact h
  | cons x xs ih => exact ih (fits_put h x.toNat 32)

theorem extends_putSamples {s : BitStream} (h : Fits s) (xs : List Word) : Extends s (putSamples s xs) := by
  induction xs generalizing s with
  | nil => exact .refl h
  | cons x xs ih => exact (extends_put h x.toNat 32).trans (ih (fits_put h x.toNat 32))

theorem putSamples_length (s : BitStream) (xs : List Word) : (putSamples s xs).2 = s.2 + 32 * xs.length := by
  induction xs generalizing s with
  | nil => rfl
  | cons x xs ih =>
    change (putSamples (s.put x.toNat 32) xs).2 = _
    rw [ih, show (s.put x.toNat 32).2 = s.2 + 32 from rfl, List.length_cons]
    omega

/-! ### Matches, literals and residuals -/

theorem matchLength_le (d : Nat) (history xs : List Word) : matchLength d history xs ≤ xs.length := by
  induction xs generalizing history with
  | nil => exact Nat.le_refl _
  | cons x xs ih =>
    rw [matchLength]
    have := ih (x :: history)
    split <;> (try split) <;> simp only [List.length_cons] <;> omega

/-- As many samples as match repeat what stands `d` before. -/
theorem repeatSamples_match (d : Nat) (history xs : List Word) {n : Nat} (h : n ≤ matchLength d history xs) :
    repeatSamples d n history = (xs.take n).reverse ++ history := by
  induction xs generalizing history n with
  | nil =>
    have : n = 0 := Nat.le_zero.mp h
    subst this
    rfl
  | cons x xs ih =>
    cases n with
    | zero => rfl
    | succ n =>
      rw [matchLength] at h
      cases found : history[d - 1]? with
      | none => rw [found] at h; exact absurd h (by simp)
      | some y =>
        rw [found] at h
        dsimp only at h
        by_cases same : x = y
        · rw [if_pos same] at h
          have : history.getD (d - 1) 0 = x := by rw [List.getD_eq_getElem?_getD, found, same]; rfl
          rw [repeatSamples, this, ih (x :: history) (by omega)]
          simp
        · rw [if_neg same] at h
          omega

/-- The longest match lies within the window, and is as long as it says. -/
theorem longestMatch_spec (history xs : List Word) : let m := longestMatch history xs
    m.2 ≤ matchLength m.1 history xs ∧ (0 < m.2 → 1 ≤ m.1 ∧ m.1 ≤ min 4096 history.length) := by
  unfold longestMatch
  generalize min 4096 history.length = n
  refine upto_induct (n := n) (f := fun (b : Nat × Nat) k => let l := matchLength (k + 1) history xs
    if b.2 < l then (k + 1, l) else b) (x := (1, 0))
    (fun _ m => m.2 ≤ matchLength m.1 history xs ∧ (0 < m.2 → 1 ≤ m.1 ∧ m.1 ≤ n)) ⟨Nat.zero_le _, fun h => absurd h (by decide)⟩ ?_
  intro k m hk h
  dsimp only
  split
  · exact ⟨Nat.le_refl _, fun _ => ⟨by omega, by omega⟩⟩
  · exact h

theorem residuals_drop (pred : Nat) (history xs : List Word) (n : Nat) :
    (residuals pred history xs).drop n = residuals pred ((xs.take n).reverse ++ history) (xs.drop n) := by
  induction xs generalizing history n with
  | nil => simp [residuals]
  | cons x xs ih =>
    cases n with
    | zero => rfl
    | succ n => simpa [residuals] using ih (x :: history) n

theorem residuals_length (pred : Nat) (history xs : List Word) : (residuals pred history xs).length = xs.length := by
  induction xs generalizing history with
  | nil => rfl
  | cons x xs ih => simp [residuals, ih]

theorem wideRun_le (w : Nat) (rs : List Word) : wideRun w rs ≤ rs.length := by
  induction rs with
  | nil => exact Nat.le_refl _
  | cons r rs ih => rw [wideRun, List.length_cons]; split <;> omega

/-- A literal's samples are read as they were put. -/
theorem literalSamples_put {s t : BitStream} (h : Fits s) (xs history : List Word) (k : Extends (putSamples s xs) t) :
    literalSamples t.1 xs.length s.2 history = xs.reverse ++ history := by
  induction xs generalizing s history with
  | nil => rfl
  | cons x xs ih =>
    have fits := fits_put h x.toNat 32
    have first := bits_of_extends h ((extends_putSamples fits xs).trans k)
    rw [List.length_cons, literalSamples, first, Nat.mod_eq_of_lt x.isLt, word_toNat]
    rw [show s.2 + 32 = (s.put x.toNat 32).2 from rfl, ih fits (x :: history) k]
    simp

/-! ### Residuals that fit their width -/

theorem residualWidth_bounds {r : Word} {w : Nat} (h : residualWidth r ≤ w) :
    -(2 ^ (w - 1) : Int) ≤ r.toInt ∧ r.toInt < 2 ^ (w - 1) := by
  have fits (m : Nat) (hm : (if m = 0 then 1 else Nat.log2 m + 2) ≤ w) : (m : Int) < 2 ^ (w - 1) := by
    have : m < 2 ^ (w - 1) := by
      split at hm
      · subst m; exact Nat.two_pow_pos _
      · exact (Nat.log2_lt ‹_›).mp (by omega)
    exact_mod_cast this
  unfold residualWidth at h
  dsimp only at h
  split at h
  · have := fits _ h
    omega
  · have := fits _ h
    omega

/-- A signed field is the balanced remainder of its number. -/
theorem signed_eq_bmod {w : Nat} (pos : 1 ≤ w) (v : Nat) : signed w (v % 2 ^ w) = (v : Int).bmod (2 ^ w) := by
  have half : 2 ^ w = 2 * 2 ^ (w - 1) := by rw [← Nat.pow_succ']; congr 1; omega
  rw [signed, Int.bmod_def, half]
  generalize 2 ^ (w - 1) = n
  rw [← Int.natCast_mod]
  generalize v % (2 * n) = x
  split <;> split <;> omega

/-- A residual that fits `w` bits is read back from them. -/
theorem signed_residual {r : Word} {w : Nat} (pos : 1 ≤ w) (top : w ≤ 31) (h : residualWidth r ≤ w) :
    BitVec.ofInt 32 (signed w (r.toNat % 2 ^ w)) = r := by
  obtain ⟨low, high⟩ := residualWidth_bounds h
  have half : (2 ^ w : Int) = 2 * 2 ^ (w - 1) := by rw [← pow_succ']; congr 1; omega
  have value : signed w (r.toNat % 2 ^ w) = r.toInt := by
    rw [signed_eq_bmod pos, ← Int.bmod_bmod_of_dvd (Nat.pow_dvd_pow 2 (show w ≤ 32 by omega)), ← BitVec.toInt_eq_toNat_bmod]
    refine Int.bmod_eq_of_le ?_ ?_ <;> push_cast <;> omega
  rw [value, BitVec.ofInt_toInt]

/-! ### Tokens -/

theorem extends_encodeTokens (w : Nat) {s : BitStream} (h : Fits s) (fuel : Nat) (history xs rs : List Word) :
    Fits (encodeTokens w fuel s history xs rs) ∧ Extends s (encodeTokens w fuel s history xs rs) := by
  induction fuel generalizing s history xs rs with
  | zero => exact ⟨h, .refl h⟩
  | succ fuel ih =>
    match xs, rs with
    | [], _ => exact ⟨h, .refl h⟩
    | _ :: _, [] => exact ⟨h, .refl h⟩
    | x :: xt, r :: rt =>
      rw [encodeTokens]
      have after {t : BitStream} (fits : Fits t) (more : Extends s t) (a b c : List Word) :
          Fits (encodeTokens w fuel t a b c) ∧ Extends s (encodeTokens w fuel t a b c) :=
        ⟨(ih fits a b c).1, more.trans (ih fits a b c).2⟩
      dsimp only
      split
      · have a := fits_put h 3 3
        have b := fits_put a ((longestMatch history (x :: xt)).1 - 1) 12
        exact after (fits_put b _ 6) ((extends_put h _ _).trans ((extends_put a _ _).trans (extends_put b _ _))) _ _ _
      · split
        · exact after (fits_put (fits_put h 0 1) _ w) ((extends_put h _ _).trans (extends_put (fits_put h 0 1) _ _)) _ _ _
        · have a := fits_put h 1 2
          have b := fits_put a (wideRun w (r :: rt) - 1) 6
          exact after (fits_putSamples b _)
            ((extends_put h _ _).trans ((extends_put a _ _).trans (extends_putSamples b _))) _ _ _

/-- All samples read, and nothing but zeros behind them: the decoder is done. -/
theorem decodeTokens_end {t : BitStream} (fits : Fits t) (size pred w fuel : Nat) (history : List Word) :
    decodeTokens t.1 size pred w (fuel + 1) t.2 64 history = .ok history := by
  rw [decodeTokens, if_pos (Nat.le_refl _), if_pos]
  rw [Nat.shiftRight_eq_div_pow, Nat.div_eq_of_lt fits]

section
variable {t : BitStream} {size pred w : Nat} (whole : t.2 ≤ size) {s : BitStream} (fits : Fits s) (fuel : Nat) {got : Nat}
    (room : got < 64) (history : List Word)
include whole fits room

theorem decodeTokens_residual {r : Word} (pos : 1 ≤ w) (top : w ≤ 31) (narrow : residualWidth r ≤ w)
    (k : Extends ((s.put 0 1).put r.toNat w) t) :
    decodeTokens t.1 size pred w (fuel + 1) s.2 got history =
      decodeTokens t.1 size pred w fuel ((s.put 0 1).put r.toNat w).2 (got + 1) ((predict pred history + r) :: history) := by
  have more : s.2 + 1 + w ≤ t.2 := k.1
  have fits1 := fits_put fits 0 1
  have kind := bits_of_extends fits ((extends_put fits1 _ _).trans k)
  have value := bits_of_extends fits1 k
  have tag : bit t.1 s.2 = false := by rw [bit_eq_bits, kind]; rfl
  rw [show (s.put 0 1).2 = s.2 + 1 from rfl] at value
  rw [decodeTokens, if_neg (by omega), if_neg (by omega), tag, if_pos (by rfl), if_neg (by omega), value,
    signed_residual pos top narrow]
  rfl

theorem decodeTokens_literal {xs : List Word} (nonempty : xs ≠ []) (more : got + xs.length ≤ 64)
    (k : Extends (putSamples ((s.put 1 2).put (xs.length - 1) 6) xs) t) :
    decodeTokens t.1 size pred w (fuel + 1) s.2 got history =
      decodeTokens t.1 size pred w fuel (putSamples ((s.put 1 2).put (xs.length - 1) 6) xs).2 (got + xs.length)
        (xs.reverse ++ history) := by
  have one : 0 < xs.length := List.length_pos_iff.mpr nonempty
  have fits2 := fits_put fits 1 2
  have fits8 := fits_put fits2 (xs.length - 1) 6
  have all := extends_putSamples fits8 xs
  have kind := bits_of_extends fits ((extends_put fits2 _ _).trans (all.trans k))
  have tag0 : bit t.1 s.2 = true := bit_of_bits (i := 0) kind (by decide)
  have tag1 : bit t.1 (s.2 + 1) = false := bit_of_bits (i := 1) kind (by decide)
  have count : bits t.1 (s.2 + 2) 6 + 1 = xs.length := by
    rw [show s.2 + 2 = (s.put 1 2).2 from rfl, bits_of_extends fits2 (all.trans k), Nat.mod_eq_of_lt (by omega)]
    omega
  have stop := putSamples_length ((s.put 1 2).put (xs.length - 1) 6) xs
  have start : ((s.put 1 2).put (xs.length - 1) 6).2 = s.2 + 8 := rfl
  have last := k.1
  rw [decodeTokens, if_neg (by omega), if_neg (by omega), tag0, if_neg (by decide), if_neg (by omega), tag1, if_pos (by rfl),
    if_neg (by omega), count]
  dsimp only
  rw [if_neg (by omega), ← start, literalSamples_put fits8 xs history k, stop]

theorem decodeTokens_match {xs : List Word} {d l : Nat} (back : 1 ≤ d ∧ d ≤ min 4096 history.length) (long : 1 ≤ l)
    (matched : l ≤ matchLength d history xs) (more : got + l ≤ 64)
    (k : Extends (((s.put 3 3).put (d - 1) 12).put (l - 1) 6) t) :
    decodeTokens t.1 size pred w (fuel + 1) s.2 got history =
      decodeTokens t.1 size pred w fuel (((s.put 3 3).put (d - 1) 12).put (l - 1) 6).2 (got + l)
        ((xs.take l).reverse ++ history) := by
  obtain ⟨first, last⟩ := back
  have window : d ≤ 4096 := last.trans (Nat.min_le_left _ _)
  have fits3 := fits_put fits 3 3
  have fits15 := fits_put fits3 (d - 1) 12
  have end6 := extends_put fits15 (l - 1) 6
  have kind := bits_of_extends fits ((extends_put fits3 _ _).trans (end6.trans k))
  have tag0 : bit t.1 s.2 = true := bit_of_bits (i := 0) kind (by decide)
  have tag1 : bit t.1 (s.2 + 1) = true := bit_of_bits (i := 1) kind (by decide)
  have tag2 : bit t.1 (s.2 + 2) = false := bit_of_bits (i := 2) kind (by decide)
  have dist : bits t.1 (s.2 + 3) 12 + 1 = d := by
    rw [show s.2 + 3 = (s.put 3 3).2 from rfl, bits_of_extends fits3 (end6.trans k), Nat.mod_eq_of_lt (by omega)]
    omega
  have length : bits t.1 (s.2 + 15) 6 + 1 = l := by
    rw [show s.2 + 15 = ((s.put 3 3).put (d - 1) 12).2 from rfl, bits_of_extends fits15 k, Nat.mod_eq_of_lt (by omega)]
    omega
  have stop : s.2 + 21 ≤ t.2 := k.1
  rw [decodeTokens, if_neg (by omega), if_neg (by omega), tag0, if_neg (by decide), if_neg (by omega), tag1, if_neg (by decide),
    if_neg (by omega), tag2, if_neg (by decide), if_neg (by omega), dist, length]
  dsimp only
  rw [if_neg (by omega), if_neg (by omega), if_neg (by omega), repeatSamples_match d history xs matched]
  rfl

end

/-- The decoder reads the tokens of the encoder, from where they begin. -/
theorem decodeTokens_encodeTokens {size pred w : Nat} (pos : 1 ≤ w) (top : w ≤ 31) (fuel : Nat) {s : BitStream} (fits : Fits s)
    (history xs : List Word) {got : Nat} (all : got + xs.length = 64) (enough : xs.length ≤ fuel)
    (whole : (encodeTokens w fuel s history xs (residuals pred history xs)).2 ≤ size) :
    decodeTokens (encodeTokens w fuel s history xs (residuals pred history xs)).1 size pred w (fuel + 1) s.2 got history =
      .ok (xs.reverse ++ history) := by
  induction fuel generalizing s history xs got with
  | zero =>
    obtain rfl : xs = [] := List.length_eq_zero_iff.mp (Nat.le_zero.mp enough)
    obtain rfl : got = 64 := all
    exact decodeTokens_end fits size pred w 0 history
  | succ fuel ih =>
    match xs with
    | [] =>
      obtain rfl : got = 64 := all
      exact decodeTokens_end fits size pred w (fuel + 1) history
    | x :: xt =>
      have rest (n : Nat) : ((x :: xt).drop n).length = (x :: xt).length - n := List.length_drop
      have room : got < 64 := by rw [List.length_cons] at all; omega
      have joined (n : Nat) : ((x :: xt).drop n).reverse ++ (((x :: xt).take n).reverse ++ history) = (x :: xt).reverse ++ history := by
        rw [← List.append_assoc, ← List.reverse_append, List.take_append_drop]
      rw [residuals, encodeTokens] at whole ⊢
      dsimp only at whole ⊢
      rw [show (x - predict pred history) :: residuals pred (x :: history) xt = residuals pred history (x :: xt) from rfl] at whole ⊢
      obtain ⟨matched, window⟩ := longestMatch_spec history (x :: xt)
      have short := matched.trans (matchLength_le _ _ _)
      generalize longestMatch history (x :: xt) = m at *
      simp only [residuals_drop] at whole ⊢
      split at whole
      next long =>
        have fits' := fits_put (fits_put (fits_put fits 3 3) (m.1 - 1) 12) (m.2 - 1) 6
        rw [if_pos long, decodeTokens_match whole fits _ room history (window (by omega)) (by omega) matched (by omega)
          (extends_encodeTokens w fits' _ _ _ _).2, ih fits' _ _ (by rw [rest]; omega) (by rw [rest]; omega) whole, joined]
      next notLong =>
        rw [if_neg notLong]
        split at whole
        next narrow =>
          have fits' := fits_put (fits_put fits 0 1) (x - predict pred history).toNat w
          rw [if_pos narrow, decodeTokens_residual whole fits _ room history pos top narrow
            (extends_encodeTokens w fits' _ _ _ _).2]
          have sample : predict pred history + (x - predict pred history) = x := by
            rw [BitVec.add_comm, BitVec.sub_add_cancel]
          rw [sample, ih fits' (x :: history) xt (by rw [List.length_cons] at all; omega)
            (by rw [List.length_cons] at enough; omega) whole]
          simp
        next wide =>
          have least : 1 ≤ wideRun w (residuals pred history (x :: xt)) := by
            rw [residuals, wideRun, if_pos (by omega)]; omega
          have most := (wideRun_le w (residuals pred history (x :: xt))).trans (residuals_length _ _ _).le
          generalize wideRun w (residuals pred history (x :: xt)) = n at *
          have taken : ((x :: xt).take n).length = n := by rw [List.length_take]; omega
          have fits' := fits_putSamples (fits_put (fits_put fits 1 2) (n - 1) 6) ((x :: xt).take n)
          have step := decodeTokens_literal (pred := pred) (w := w) whole fits (fuel + 1) room history (xs := (x :: xt).take n)
            (by rw [← List.length_pos_iff, taken]; omega) (by rw [taken]; omega)
            (by rw [taken]; exact (extends_encodeTokens w fits' _ _ _ _).2)
          rw [taken] at step
          rw [if_neg wide, step, ih fits' _ _ (by rw [rest]; omega) (by rw [rest]; omega) whole, joined]

/-! ### Ingots -/

theorem leNat_leBytes (n v : Nat) : leNat (leBytes n v) = v % 2 ^ (8 * n) := by
  induction n generalizing v with
  | zero => simp [leNat, leBytes, Nat.mod_one]
  | succ n ih =>
    rw [leBytes, leNat, ih, BitVec.toNat_ofNat, show 8 * (n + 1) = 8 + 8 * n by ring, Nat.pow_add, Nat.mod_mul]

theorem leBytes_length (n v : Nat) : (leBytes n v).length = n := by
  induction n generalizing v with
  | zero => rfl
  | succ n ih => rw [leBytes, List.length_cons, ih]

/-- The best encoding is that of one of the predictors. -/
theorem bestEncoding_some {en : Nat} {history xs : List Word} {s : BitStream} (h : bestEncoding en history xs = some s) :
    ∃ pred, pred < 3 ∧ s = encodeWith pred history xs := by
  unfold bestEncoding at h
  revert h
  refine upto_induct (n := 3) (P := fun _ best => best = some s → ∃ pred, pred < 3 ∧ s = encodeWith pred history xs)
    (fun h => nomatch h) ?_
  intro pred best small before
  dsimp only
  split
  · split
    · split
      · exact fun own => ⟨pred, small, (Option.some.inj own).symm⟩
      · exact before
    · exact fun own => ⟨pred, small, (Option.some.inj own).symm⟩
  · exact before

theorem clampNat_bounds (x : Nat) : 1 ≤ clampNat 1 31 x ∧ clampNat 1 31 x ≤ 31 := by
  unfold clampNat
  split
  · decide
  · split <;> omega

/-- An ingot's header of width and predictor. -/
theorem header_bits {w pred : Nat} (top : w ≤ 31) (small : pred < 3) :
    bits (w + pred <<< 5) 0 5 = w ∧ bits (w + pred <<< 5) 5 2 = pred ∧ w + pred <<< 5 < 2 ^ 7 := by
  simp only [bits, Nat.shiftLeft_eq, Nat.shiftRight_eq_div_pow]
  omega

/-- A field below bit 8 stands as the stream's header has it. -/
theorem bits_header {h lo n : Nat} {t : BitStream} (k : Extends (h, 8) t) (low : lo + n ≤ 8) : bits t.1 lo n = bits h lo n := by
  rw [show h = t.1 % 2 ^ 8 from k.2.symm]
  exact Nat.eq_of_testBit_eq fun i => by
    rw [testBit_bits, testBit_bits, Nat.testBit_mod_two_pow]
    by_cases hi : i < n
    · rw [decide_eq_true (show lo + i < 8 by omega), Bool.true_and]
    · rw [decide_eq_false hi, Bool.false_and, Bool.false_and]

theorem decodeIngot_encodeWith {pred : Nat} (small : pred < 3) {history xs : List Word} (len : xs.length = 64) {b : Nat}
    (shrunk : (encodeWith pred history xs).2 ≤ 8 * b) :
    decodeIngot history (leBytes b (encodeWith pred history xs).1) = .ok xs := by
  unfold encodeWith at shrunk ⊢
  dsimp only at shrunk ⊢
  obtain ⟨pos, top⟩ := clampNat_bounds ((residuals pred history xs).foldl (fun m r => max m (residualWidth r)) 0)
  generalize clampNat 1 31 _ = w at *
  obtain ⟨width, predictor, header⟩ := header_bits top small
  have fits : Fits (w + pred <<< 5, 8) := header.trans (show 2 ^ 7 < 2 ^ 8 by decide)
  obtain ⟨fitsAll, all⟩ := extends_encodeTokens w fits 64 history xs (residuals pred history xs)
  have decoded := decodeTokens_encodeTokens pos top 64 fits history xs (got := 0) (by omega) (by omega) shrunk
  generalize encodeTokens w 64 _ history xs _ = t at *
  have value : leNat (leBytes b t.1) = t.1 := by
    rw [leNat_leBytes, Nat.mod_eq_of_lt (lt_of_lt_of_le fitsAll (Nat.pow_le_pow_right (by decide) shrunk))]
  have top0 : bit t.1 7 = false := by
    rw [bit_eq_bits, bits_header all (by decide), bits, Nat.shiftRight_eq_div_pow, Nat.div_eq_of_lt header]
    rfl
  unfold decodeIngot
  dsimp only
  rw [value, bits_header all (by decide), bits_header all (by decide), width, predictor, top0, leBytes_length,
    if_neg (by rintro (h | h | h) <;> first | omega | cases h), decoded]
  simp [len]

/-- Settles O53: every token that the encoder puts is read as it was put, and the header and the zeros behind frame them. -/
theorem ingotRoundTrip : Obligations.IngotRoundTrip := by
  unfold Obligations.IngotRoundTrip
  intro en ratio history xs ingot len h
  unfold encodeIngot at h
  dsimp only at h
  split at h
  next s best =>
    obtain ⟨pred, small, rfl⟩ := bestEncoding_some best
    split at h
    next room =>
      obtain rfl := Option.some.inj h
      exact decodeIngot_encodeWith small len (by omega)
    next => cases h
  next => cases h

end Sys2Proof.Proofs
end

section
/-! What no report touches: views of the device that every record and pennant, on a ring or page of any number, leaves alone. -/
namespace Sys2Proof.Proofs
open Sys2Proof.Machine Sys2Proof.Laws

/-- Rings with the same entry under way. -/
def SameEntry (x y : Ring) : Prop := x.parked = y.parked ∧ x.begun = y.begun ∧ x.stale = y.stale

/-- A relation of a device to what a report makes of it: it holds over every step of which reports are made. -/
structure Reporting (R : Dev → Dev → Prop) : Prop where
  refl : ∀ d, R d d
  trans : ∀ {a b c}, R a b → R b c → R a c
  lost : ∀ d p, R d (d.count p 0x074)
  opened : ∀ d, R d (d.count pageEvq 0x064)
  pen : ∀ d p, R d (d.setFld p 0x010 1 1 1)
  stamps : ∀ (d : Dev) (x : Tab Nat), R d { d with regs := { d.regs with penAt := x } }
  filed : ∀ (d : Dev) (r : Nat) (x : Ring), SameEntry x (ringOf d r) → R d (setRing d r x)
  windows : ∀ (d : Dev) (x : List Window), R d { d with hif := { d.hif with windows := x } }
  kept : ∀ (d : Dev) (x : List Kept), R d { d with hif := { d.hif with kept := x } }
  triggers : ∀ (d : Dev) (x : List Trigger), R d { d with recorder := { d.recorder with triggers := x } }

namespace Reporting
variable {R : Dev → Dev → Prop} (h : Reporting R)
include h

theorem setPen {d : Dev} {p b : Nat} (own : R d (d.setFld p 0x010 b 1 1)) : R d (Machine.setPen d p b) := by
  have set : R d (stampPen (d.setFld p 0x010 b 1 1) p b) := h.trans own (h.stamps _ _)
  unfold Machine.setPen
  dsimp only
  split
  · exact h.trans set (h.triggers _ _)
  · exact set

theorem enqueue (d : Dev) (r : Nat) (q : QRec) : R d (Machine.enqueue d r q).1 := by
  unfold Machine.enqueue
  dsimp only
  repeat' split
  all_goals first | exact h.refl _ | exact h.filed _ _ _ ⟨rfl, rfl, rfl⟩

theorem pushEvent (d : Dev) (r : Nat) (w : Window) : R d (Machine.pushEvent d r w).1 := by
  unfold Machine.pushEvent pushBody
  refine h.trans ?_ (h.enqueue _ _ _)
  split
  · exact h.filed _ _ _ ⟨rfl, rfl, rfl⟩
  · exact h.refl _

theorem keep (d : Dev) (k : Kept) : R d (Machine.keep d k) := by
  unfold Machine.keep
  split
  · exact h.kept _ _
  · exact h.refl _

theorem countDrop (d : Dev) (r : Nat) : R d (Machine.countDrop d r).1 := h.trans (h.lost _ _) (h.setPen (h.pen _ _))

/-- A report does what its delivery does. -/
theorem reportVia {f : Dev → Nat → Window → Dev} (quiet : ∀ d r w, R d (f d r w)) (d : Dev) (p cls sev code payload : Nat) :
    R d (Machine.reportVia f d p cls sev code payload) := by
  have route (d : Dev) (w : Window) : R d (routeEvent f d w) := by
    unfold routeEvent
    split
    · exact h.keep _ _
    · exact quiet _ _ _
  unfold Machine.reportVia
  split
  · exact h.refl _
  extract_lets _ block multi _ w
  split
  · exact route d w
  split
  · exact h.windows _ _
  split
  · exact h.windows _ _
  · exact h.trans (h.opened d) (route (d.count pageEvq 0x064) w)

theorem ringLost (d : Dev) (r : Nat) : R d (Machine.ringLost d r) := by
  have plain (d : Dev) (r : Nat) (w : Window) : R d (deliverPlain d r w) := by
    unfold deliverPlain
    dsimp only
    split
    · exact h.trans (h.pushEvent _ _ _) (h.countDrop _ _)
    · exact h.pushEvent _ _ _
  unfold Machine.ringLost
  dsimp only
  split
  · exact h.trans (h.countDrop _ _) (h.reportVia plain _ _ _ _ _ _)
  · exact h.countDrop _ _

theorem deliver (d : Dev) (r : Nat) (w : Window) : R d (Machine.deliver d r w) := by
  unfold Machine.deliver
  dsimp only
  split
  · exact h.trans (h.pushEvent _ _ _) (h.ringLost _ _)
  · exact h.pushEvent _ _ _

theorem report (d : Dev) (p cls sev code payload : Nat) : R d (Machine.report d p cls sev code payload) :=
  h.reportVia h.deliver _ _ _ _ _ _

theorem raise {d : Dev} {p b : Nat} (own : R d (d.setFld p 0x010 b 1 1)) (cls sev code payload : Nat) :
    R d (Machine.raise d p b cls sev code payload) := by
  unfold Machine.raise
  dsimp only
  split
  · exact h.trans (h.setPen own) (h.report _ _ _ _ _ _)
  · exact h.setPen own

theorem raiseLimited {d : Dev} {p b : Nat} (own : R d (d.setFld p 0x010 b 1 1)) (once : Bool) (cls sev code payload : Nat) :
    R d (Machine.raiseLimited d once p b cls sev code payload) := by
  unfold Machine.raiseLimited
  split
  · exact h.raise own _ _ _ _
  · exact h.setPen own

theorem emit (d : Dev) (r : Nat) (kind : RecKind) (data : Nat) : R d (Machine.emit d r kind data) := by
  unfold Machine.emit
  dsimp only
  split
  · exact h.trans (h.enqueue _ _ _) (h.ringLost _ _)
  · exact h.enqueue _ _ _

theorem emitShared (d : Dev) (r : Nat) (kind : RecKind) (data : Nat) : R d (Machine.emitShared d r kind data) := by
  unfold Machine.emitShared
  split
  · exact h.emit _ _ _ _
  · exact h.keep _ _

end Reporting

/-- Such a relation that also holds over what the recorder writes down and over the time: it holds over an arrival. -/
structure Passing (R : Dev → Dev → Prop) : Prop extends Reporting R where
  full : ∀ d, R d (d.setFld pageRec 0x010 0 1 1)
  recorder : ∀ (d : Dev) (x : Recorder), R d { d with recorder := x }
  tick : ∀ (d : Dev) (t : Nat), R d { d with tick := t }

namespace Passing
variable {R : Dev → Dev → Prop} (h : Passing R)
include h

theorem missFull (d : Dev) : R d (Machine.missFull d) := h.recorder _ _

theorem writeHoist (d : Dev) (tick source bitNo kind : Nat) (vals : List Nat) : R d (Machine.writeHoist d tick source bitNo kind vals) := by
  unfold Machine.writeHoist
  dsimp only
  split
  · exact h.missFull _
  split
  · exact h.trans (h.recorder _ _) (h.raise (h.full _) _ _ _ _)
  · exact h.recorder _ _

theorem captureTrigger (d : Dev) (t : Trigger) : R d (Machine.captureTrigger d t) := by
  refine h.trans (h.tick d (t.tick + 1)) ?_
  unfold Machine.captureTrigger
  extract_lets d0 x n d1 e1 once d2 _ d3
  split
  · exact h.trans (h.recorder d0 _) (h.writeHoist _ _ _ _ _ _)
  have told : R d0 d2 := h.trans (h.recorder d0 _) (h.raiseLimited (h.pen e1 _) _ _ _ _ _)
  have noted : R d0 d3 := by
    unfold d3
    split
    · exact h.trans told (h.recorder _ _)
    · exact told
  split
  · exact h.trans noted (h.missFull _)
  · exact noted

theorem captureRound (t : Nat) (d : Dev) : R d (Machine.captureRound t d) := by
  unfold Machine.captureRound
  refine h.trans ?_ (h.tick _ _)
  exact List.foldlRecOn (motive := fun e => R d e) _ _ (h.triggers _ _) fun e he x _ => h.trans he (h.captureTrigger e x)

theorem arrive (d : Dev) (t : Nat) : R d (d.arrive t) := by
  unfold Dev.arrive Dev.advance
  split
  · refine h.trans ?_ (h.tick _ _)
    split
    · exact h.refl _
    · exact h.trans (h.captureRound _ _) (h.trans (h.captureRound _ _) (h.captureRound _ _))
  · exact h.refl _

end Passing

/-- A view of the device that does not see what a report may change: register words but for CTL, the rings, the host
interface's open windows and kept records, and the triggers of the recorder. -/
structure Silent {α : Type} (v : Dev → α) : Prop where
  word : ∀ (d : Dev) (p off x : Nat), off % 4096 ≠ 8 → v (d.setReg p off x) = v d
  fld : ∀ (d : Dev) (p off lo w x : Nat), off % 4096 ≠ 8 → v (d.setFld p off lo w x) = v d
  pens : ∀ (d : Dev) (x : Tab Nat), v { d with regs := { d.regs with penAt := x } } = v d
  rings : ∀ (d : Dev) (x : Tab Ring), v { d with rings := x } = v d
  windows : ∀ (d : Dev) (x : List Window), v { d with hif := { d.hif with windows := x } } = v d
  kept : ∀ (d : Dev) (x : List Kept), v { d with hif := { d.hif with kept := x } } = v d
  triggers : ∀ (d : Dev) (x : List Trigger), v { d with recorder := { d.recorder with triggers := x } } = v d

namespace Silent
variable {α : Type} {v : Dev → α} (h : Silent v)
include h

theorem count (d : Dev) (p off : Nat) (apart : off % 4096 ≠ 8) : v (d.count p off) = v d := h.word _ _ _ _ apart

theorem reporting : Reporting fun d e => v e = v d where
  refl _ := rfl
  trans first second := second.trans first
  lost d p := h.count d p _ (by decide)
  opened d := h.count d _ _ (by decide)
  pen d p := h.fld d p _ _ _ _ (by decide)
  stamps := h.pens
  filed d _ _ _ := h.rings d _
  windows := h.windows
  kept := h.kept
  triggers := h.triggers

theorem setPen (d : Dev) (p b : Nat) : v (Machine.setPen d p b) = v d := h.reporting.setPen (h.fld d p _ _ _ _ (by decide))
theorem report (d : Dev) (p cls sev code payload : Nat) : v (Machine.report d p cls sev code payload) = v d :=
  h.reporting.report d p cls sev code payload
theorem raise (d : Dev) (p b cls sev code payload : Nat) : v (Machine.raise d p b cls sev code payload) = v d :=
  h.reporting.raise (h.fld d p _ _ _ _ (by decide)) cls sev code payload
theorem raiseLimited (d : Dev) (once : Bool) (p b cls sev code payload : Nat) :
    v (Machine.raiseLimited d once p b cls sev code payload) = v d :=
  h.reporting.raiseLimited (h.fld d p _ _ _ _ (by decide)) once cls sev code payload
theorem emit (d : Dev) (r : Nat) (kind : RecKind) (data : Nat) : v (Machine.emit d r kind data) = v d := h.reporting.emit d r kind data
theorem emitShared (d : Dev) (r : Nat) (kind : RecKind) (data : Nat) : v (Machine.emitShared d r kind data) = v d :=
  h.reporting.emitShared d r kind data

end Silent

theorem silent_foldl {α β : Type} {v : Dev → α} (f : Dev → β → Dev) (step : ∀ d x, v (f d x) = v d) (l : List β) (d : Dev) :
    v (l.foldl f d) = v d := List.foldlRecOn (motive := fun e => v e = v d) _ _ rfl fun e he x _ => (step e x).trans he

/-- What is seen of a silent view is silent. -/
theorem Silent.map {α β : Type} {v : Dev → α} (h : Silent v) (f : α → β) : Silent fun d => f (v d) where
  word d p off x k := congrArg f (h.word d p off x k)
  fld d p off lo w x k := congrArg f (h.fld d p off lo w x k)
  pens d x := congrArg f (h.pens d x)
  rings d x := congrArg f (h.rings d x)
  windows d x := congrArg f (h.windows d x)
  kept d x := congrArg f (h.kept d x)
  triggers d x := congrArg f (h.triggers d x)

/-! ### Such views -/

/-- The recorder without the triggers that wait for their clock. -/
def logbook (d : Dev) : Recorder := { d.recorder with triggers := [] }

theorem silent_logbook : Silent logbook where
  word _ _ _ _ _ := rfl
  fld _ _ _ _ _ _ _ := rfl
  pens _ _ := rfl
  rings _ _ := rfl
  windows _ _ := rfl
  kept _ _ := rfl
  triggers _ _ := rfl

/-- The device without what reports may change: registers, rings, host interface, recorder. -/
def inner (d : Dev) : Dev := { d with regs := {}, rings := [], hif := {}, recorder := {} }

theorem silent_inner : Silent inner where
  word _ _ _ _ _ := rfl
  fld _ _ _ _ _ _ _ := rfl
  pens _ _ := rfl
  rings _ _ := rfl
  windows _ _ := rfl
  kept _ _ := rfl
  triggers _ _ := rfl

theorem silent_enabled : Silent Dev.enabled where
  word d p off x h := enabled_setReg d p off x h
  fld d p off lo w x h := enabled_setFld d p off lo w x h
  pens _ _ := rfl
  rings _ _ := rfl
  windows _ _ := rfl
  kept _ _ := rfl
  triggers _ _ := rfl

/-- But for reports a device has the inner parts of the other. -/
theorem inner_of_same {d e : Dev} (h : SameButReports d e) : inner e = inner d := by
  unfold inner
  simp only [h.tick, h.tim, h.mon, h.boot, h.par, h.lanes, h.stp, h.mould, h.dram, h.coder, h.heats, h.sched, h.ladle, h.map,
    h.stations, h.fct, h.cal, h.channels, h.emus, h.axes, h.traces, h.ctxs, h.img, h.lhd, h.mirror, h.out, h.free]

section
variable {d e : Dev} (h : inner e = inner d)
include h
theorem tick_of_inner : e.tick = d.tick := (congrArg Dev.tick h :)
theorem tim_of_inner : e.tim = d.tim := (congrArg Dev.tim h :)
theorem boot_of_inner : e.boot = d.boot := (congrArg Dev.boot h :)
theorem par_of_inner : e.par = d.par := (congrArg Dev.par h :)
theorem stp_of_inner : e.stp = d.stp := (congrArg Dev.stp h :)
theorem mould_of_inner : e.mould = d.mould := (congrArg Dev.mould h :)
theorem heats_of_inner : e.heats = d.heats := (congrArg Dev.heats h :)
end

end Sys2Proof.Proofs
end

section
/-! Writes of one named register: what an accepted one stores, and what none of them touches (R33, R55 to R57). -/
namespace Sys2Proof.Proofs
open Sys2Proof.Machine Sys2Proof.Laws

theorem at_boot (s : State) (u : Nat) : (s.at u).boot = s.dev.boot := arrive_boot _ _

theorem kindOf_dev : kindOf pageDev = some .dev := rfl

/-! ### What a write leaves alone -/

theorem onlyRegs_foldl {β : Type} (f : Dev → β → Dev) (step : ∀ d x, OnlyRegs d (f d x)) (l : List β) (d : Dev) :
    OnlyRegs d (l.foldl f d) := List.foldlRecOn (motive := fun e => OnlyRegs d e) _ _ rfl fun _ he x _ => he.trans (step _ x)

theorem onlyRegs_mergeRead (d : Dev) (p off v m : Nat) : OnlyRegs d (d.mergeRead p off v m) := rfl
theorem onlyRegs_mergeInUse (d : Dev) (p off v m : Nat) : OnlyRegs d (d.mergeInUse p off v m) := rfl
theorem onlyRegs_setStaged (d : Dev) (p off lo w v : Nat) : OnlyRegs d (d.setStaged p off lo w v) := rfl

theorem onlyRegs_setReg (d : Dev) (p off v : Nat) : OnlyRegs d (d.setReg p off v) := rfl
theorem onlyRegs_setFld (d : Dev) (p off lo w v : Nat) : OnlyRegs d (d.setFld p off lo w v) := rfl

theorem onlyRegs_mergeWide (f : Dev → Nat → Nat → Nat → Nat → Dev) (step : ∀ d p off v m, OnlyRegs d (f d p off v m)) (d : Dev)
    (p off v m : Nat) (wide : Bool) : OnlyRegs d (Dev.mergeWide f d p off v m wide) := by
  unfold Dev.mergeWide
  dsimp only
  split
  · exact (step _ _ _ _ _).trans (step _ _ _ _ _)
  · exact step _ _ _ _ _

theorem onlyRegs_applyPreset (d : Dev) (k : PageKind) (p off v : Nat) : OnlyRegs d (applyPreset d k p off v) := by
  unfold applyPreset
  split
  · rfl
  split
  · exact onlyRegs_foldl _ (fun _ _ => onlyRegs_setStaged _ _ _ _ _ _) _ _
  split
  · exact onlyRegs_setStaged _ _ _ _ _ _
  · rfl

/-- An accepted write changes nothing but the registers. -/
theorem onlyRegs_storeWrite (d : Dev) (k : PageKind) (p off : Nat) (r : Reg) (v : Nat) : OnlyRegs d (storeWrite d k p off r v) := by
  have read : OnlyRegs d (applyPreset (Dev.mergeWide Dev.mergeRead d p off v (storeMask r) r.wide) k p off v) :=
    (onlyRegs_mergeWide _ onlyRegs_mergeRead _ _ _ _ _ _).trans (onlyRegs_applyPreset _ _ _ _ _)
  unfold storeWrite
  dsimp only
  split
  · split
    · exact read.trans rfl
    · exact read.trans (onlyRegs_mergeWide _ onlyRegs_mergeInUse _ _ _ _ _ _)
  · exact read

/-- A view that sees neither registers nor reports. -/
structure Unregistered {α : Type} (v : Dev → α) : Prop extends Silent v where
  regs : ∀ (d : Dev) (f : RegFile), v { d with regs := f } = v d

theorem unregistered_inner : Unregistered inner := { silent_inner with regs := fun _ _ => rfl }

namespace Unregistered
variable {α : Type} {v : Dev → α} (h : Unregistered v)
include h

theorem ofOnlyRegs {d e : Dev} (k : OnlyRegs d e) : v e = v d := by
  rw [k]
  exact h.regs _ _

theorem refuse (d : Dev) (p off reason : Nat) : v (Machine.refuse d p off reason) = v d := by
  unfold Machine.refuse
  dsimp only
  split <;> exact (h.raise _ _ _ _ _ _ _).trans (h.regs _ _)

/-- A write of a register leaves alone what its effect leaves alone. -/
theorem withWrite (d : Dev) (p off x : Nat) (f : Dev → Dev) (effect : ∀ e, v e = v d → v (f e) = v d) :
    v (Machine.withWrite d p off x f) = v d := by
  unfold Machine.withWrite
  split
  · exact h.refuse _ _ _ _
  split
  · exact h.refuse _ _ _ _
  split
  · exact h.refuse _ _ _ _
  · exact effect _ (h.ofOnlyRegs (onlyRegs_storeWrite _ _ _ _ _ _))

end Unregistered

/-! ### What an accepted write stores -/

/-- An accepted write of a 32-bit register of an unmirrored page stands at once, as read and where it is Live in use. -/
theorem withWrite_stores {d : Dev} {p off : Nat} {v : Word} {k : PageKind} {r : Reg} (f : Dev → Dev)
    (ok : writeAccepted d p off v.toNat = true) (hp : kindOf p = some k) (hr : k.reg? off = some r) (near : k.mirrored = false)
    (preset : presetField k = none) (narrow : r.wide = false) :
    withWrite d p off v.toNat f = f (stored d p off r v.toNat) := by
  obtain ⟨k', r', hp', hr', h⟩ := withWrite_accepted d p off v.toNat f ok
  obtain rfl : k = k' := by simpa [hp] using hp'
  obtain rfl : r = r' := by simpa [hr] using hr'
  rw [h, storeWrite_plain near preset narrow]

end Sys2Proof.Proofs
end

section
/-! A field that the device writes: what it reads as, and what it leaves of its word. -/
namespace Sys2Proof.Proofs
open Sys2Proof.Machine Sys2Proof.Laws

theorem testBit_fieldMask (lo n i : Nat) : ((2 ^ n - 1) <<< lo).testBit i = (decide (lo ≤ i) && decide (i < lo + n)) := by
  rw [Nat.testBit_shiftLeft, Nat.testBit_two_pow_sub_one]
  by_cases h : lo ≤ i
  · simp only [h, decide_true, Bool.true_and, decide_eq_decide]
    omega
  · simp [h]

/-- Writing a field merges its value into the word under the field's mask. -/
theorem setBits_eq_mergeBits (w : Word) (lo n v : Nat) :
    setBits w lo n v = word (mergeBits w.toNat (v <<< lo) ((2 ^ n - 1) <<< lo)) := by
  have old : bits w.toNat lo n <<< lo = w.toNat &&& (2 ^ n - 1) <<< lo := Nat.eq_of_testBit_eq fun i => by
    rw [Nat.testBit_shiftLeft, testBit_bits, Nat.testBit_and, testBit_fieldMask]
    by_cases h : lo ≤ i
    · simp only [h, decide_true, Bool.true_and, Nat.add_sub_of_le h, Bool.and_comm (w.toNat.testBit i)]
      congr 1
      rw [decide_eq_decide]
      omega
    · simp [h]
  have new : (v % 2 ^ n) <<< lo = v <<< lo &&& (2 ^ n - 1) <<< lo := Nat.eq_of_testBit_eq fun i => by
    rw [Nat.testBit_shiftLeft, Nat.testBit_mod_two_pow, Nat.testBit_and, testBit_fieldMask, Nat.testBit_shiftLeft]
    by_cases h : lo ≤ i
    · simp only [h, decide_true, Bool.true_and, Bool.and_comm (v.testBit _)]
      congr 1
      rw [decide_eq_decide]
      omega
    · simp [h]
  rw [setBits, mergeBits, old, new]

/-- A written field reads as written. -/
theorem bits_setBits_own (w : Word) {lo n : Nat} (v : Nat) (fits : lo + n ≤ 32) : bits (setBits w lo n v).toNat lo n = v % 2 ^ n := by
  rw [setBits_eq_mergeBits, bits_mergeBits fits fun i hi => by rw [testBit_fieldMask]; simp [hi]]
  rw [bits, Nat.shiftLeft_shiftRight]

/-- The other bits of the word stay. -/
theorem testBit_setBits_other (w : Word) {lo n v i : Nat} (apart : i < lo ∨ lo + n ≤ i) :
    (setBits w lo n v).toNat.testBit i = w.toNat.testBit i := by
  have outside : (decide (lo ≤ i) && decide (i < lo + n)) = false := by
    rw [Bool.and_eq_false_iff, decide_eq_false_iff_not, decide_eq_false_iff_not]
    omega
  rw [setBits_eq_mergeBits, testBit_word, testBit_mergeBits, testBit_fieldMask, outside, if_neg Bool.false_ne_true]
  by_cases h : i < 32
  · simp [h]
  · simp [h, Nat.testBit_lt_two_pow (lt_of_lt_of_le w.isLt (Nat.pow_le_pow_right (by decide) (Nat.le_of_not_lt h)))]

theorem bits_setBits_other (w : Word) {lo n l m : Nat} (v : Nat) (apart : l + m ≤ lo ∨ lo + n ≤ l) :
    bits (setBits w lo n v).toNat l m = bits w.toNat l m := Nat.eq_of_testBit_eq fun i => by
  rw [testBit_bits, testBit_bits]
  by_cases h : i < m
  · rw [testBit_setBits_other w (by omega)]
  · simp [h]

theorem setFld_rfld_own (d : Dev) (p off : Nat) {lo n : Nat} (v : Nat) (fits : lo + n ≤ 32) :
    (d.setFld p off lo n v).rfld p off lo n = v % 2 ^ n := by
  rw [Dev.rfld, setFld_read, if_pos rfl, bits_setBits_own _ _ fits]

theorem setFld_fld_own (d : Dev) (p off : Nat) {lo n : Nat} (v : Nat) (fits : lo + n ≤ 32) :
    (d.setFld p off lo n v).fld p off lo n = v % 2 ^ n := by
  rw [Dev.fld, setFld_inUse, if_pos rfl, bits_setBits_own _ _ fits]

/-- The low bits of a word that the device writes. -/
theorem setReg_rfld_low (d : Dev) (p off n : Nat) {v : Nat} (hv : v < 2 ^ 32) : (d.setReg p off v).rfld p off 0 n = v % 2 ^ n := by
  rw [Dev.rfld, setReg_read, if_pos rfl, toNat_word hv]
  rfl

theorem setReg_rfld_other (d : Dev) {p off : Nat} (v : Nat) {q o : Nat} (lo w : Nat) (h : wordAddr q o ≠ wordAddr p off) :
    (d.setReg p off v).rfld q o lo w = d.rfld q o lo w := by
  rw [Dev.rfld, setReg_read, if_neg h]
  rfl

end Sys2Proof.Proofs
end

section
/-! The block as a whole, and the flash: O1, O2, O8, O9, O10. -/
namespace Sys2Proof.Proofs
open Sys2Proof.Machine Sys2Proof.Laws

/-- Settles O1: the reset state is closed, and each part of it is evaluated. -/
theorem resetState : Obligations.ResetState := by
  unfold Obligations.ResetState
  refine ⟨by decide, by decide, rfl, rfl, rfl, fun x i => ?_⟩
  unfold Dev.gatePin
  rfl

/-- Every command answers a next state and leaves the commands that wait. -/
theorem answers_any (i : Instr) (s : State) : Answers s i fun _ => True := by
  cases i <;> exact ⟨_, rfl, rfl, trivial⟩

/-- Settles O2: by the definition of a step; that no command ends the run is seen command by command. -/
theorem stepRunsFront : Obligations.StepRunsFront :=
  ⟨⟨fun _ _ _ => rfl, fun s empty => by unfold Machine.step; rw [empty]⟩, answers_any⟩

/-! ### Loss of power (R650, R656) -/

/-- An operation writes its span byte by byte: the bytes of the flash, and nothing else of the stores. -/
theorem flashByte_setFlashByte (nv : NonVolatile) (a b : Nat) (v : Byte) :
    flashByte (setFlashByte nv a v) b = if b = a then v else flashByte nv b := get_set _ _ _ _ _

theorem writeSpan (nv : NonVolatile) (p n : Nat) (f : Nat → Byte) :
    let m := (List.range n).foldl (fun x i => setFlashByte x (p + i) (f i)) nv
    m.sealStore = nv.sealStore ∧ ∀ a, flashByte m a = if p ≤ a ∧ a < p + n then f (a - p) else flashByte nv a := by
  induction n with
  | zero => exact ⟨rfl, fun a => (if_neg (by omega)).symm⟩
  | succ n ih =>
    obtain ⟨store, bytes⟩ := ih
    rw [List.range_succ, List.foldl_concat]
    refine ⟨store, fun a => ?_⟩
    rw [flashByte_setFlashByte, bytes a]
    by_cases last : a = p + n
    · subst last
      rw [if_pos rfl, if_pos (by omega), Nat.add_sub_cancel_left]
    · rw [if_neg last]
      by_cases within : p ≤ a ∧ a < p + n
      · rw [if_pos within, if_pos (by omega)]
      · rw [if_neg within, if_neg (by omega)]

/-- What the operation under way leaves in the stores when it ends: it is over, the seal store stands, and no byte outside its
span has changed (R641). -/
theorem endFlash_stores {nv : NonVolatile} {op : FlashOp} (h : nv.op = some op) (d : Dev) (ok : Bool) :
    (endFlash nv d ok).1.op = none ∧ (endFlash nv d ok).1.sealStore = nv.sealStore ∧
      ∀ a, flashByte (endFlash nv d ok).1 a = if op.span.1 ≤ a ∧ a < op.span.1 + op.span.2 then
        (if ok then op.result nv (a - op.span.1) else BitVec.ofNat 8 (Config.freeValue (d.free + (a - op.span.1))).toNat)
        else flashByte nv a := by
  unfold endFlash
  rw [h]
  obtain ⟨store, bytes⟩ := writeSpan nv op.span.1 op.span.2
    fun i => if ok then op.result nv i else BitVec.ofNat 8 (Config.freeValue (d.free + i)).toNat
  exact ⟨rfl, store, bytes⟩

/-- Settles O8: the device halts; and the operation under way, if any, leaves what is outside its span. -/
theorem powerLoss : Obligations.PowerLoss := by
  unfold Obligations.PowerLoss
  refine ⟨fun s up running => ?_, fun s idle => ?_, fun s op a busy outside => ?_⟩
  · have h := answers_rootPllLockLoss s
    rw [if_neg (by rw [show s.now.boot.poreset = false from up]; decide)] at h
    refine answers_mono h fun t ⟨nv, same⟩ => ?_
    obtain ⟨role, health, moves, waiting, -, heats, -, mould, dram⟩ := halt_effect s.now running
    exact ⟨nv, same.par ▸ role, same.boot ▸ health, same.stp ▸ moves, same.stp ▸ waiting, same.heats.trans heats,
      same.mould.trans mould, same.dram.trans dram⟩
  · refine answers_mono (answers_poresetNLow s) fun t ⟨nv, same⟩ => ?_
    have rest : powerDown s.nv s.now = (s.nv, { free := s.dev.free }) := by
      unfold powerDown endFlash
      rw [idle]
      rfl
    rw [rest] at nv same
    exact ⟨nv, same⟩
  · refine answers_mono (answers_poresetNLow s) fun t ⟨nv, same⟩ => ?_
    obtain ⟨ended, store, bytes⟩ := endFlash_stores busy s.now false
    have stores : t.nv = (endFlash s.nv s.now false).1 := nv
    rw [stores]
    exact ⟨ended, (bytes a).trans (if_neg (by omega)), store, same.boot ▸ rfl⟩

/-! ### The end of a flash operation (R641) -/

theorem showFlash_busy (nv : NonVolatile) (d : Dev) : (showFlash nv d false).rfld pageDev 0x110 0 1 = boolNat nv.op.isSome := by
  unfold showFlash
  cases nv.op.isSome <;> exact setReg_rfld_low _ _ _ _ (by decide)

theorem busy_silent : reportWord (wordAddr pageDev 0x110) = false := by decide

/-- Settles O10: the bytes of the span are the operation's result, the others stand. -/
theorem flashDone : Obligations.FlashDone := by
  unfold Obligations.FlashDone
  intro s u op busy
  refine answers_mono (answers_flashOperationDone s u true) fun t ⟨nv, same⟩ => ?_
  obtain ⟨ended, store, bytes⟩ := endFlash_stores busy (s.at u) true
  have dev : (endFlash s.nv (s.at u) true).2 = showFlash (endFlash s.nv (s.at u) true).1 (s.at u) false := by
    unfold endFlash
    rw [busy]
    rfl
  rw [dev] at same
  rw [nv]
  refine ⟨ended, store, ?_, fun a => ?_, ?_, ?_⟩
  · rw [rfld_of_same same _ _ busy_silent, showFlash_busy, ended]
    rfl
  · rw [bytes a]
    cases op with
    | erase k => exact if_congr (by simp only [FlashOp.span]; omega) rfl rfl
    | program b v =>
      by_cases within : b ≤ a ∧ a < b + 4
      · simp [FlashOp.span, FlashOp.result, within, Nat.add_sub_of_le within.1]
      · simp [FlashOp.span, within]
  · exact same.boot.trans (arrive_boot _ _)
  · exact same.heats.trans (arrive_heats _ _)

end Sys2Proof.Proofs
end

section
/-! The flash registers: O9. -/
namespace Sys2Proof.Proofs
open Sys2Proof.Machine Sys2Proof.Laws

/-! ### Refusals -/

theorem pageRefused_small {d : Dev} {k : PageKind} {p off c : Nat} (h : pageRefused d k p off = some c) : c < 128 := by
  unfold pageRefused at h
  split at h
  · cases h; decide
  split at h
  · cases h; decide
  split at h
  · cases h; decide
  · cases h

theorem blockRefused_small {d : Dev} {k : PageKind} {p off c : Nat} {r : Reg} {v : Nat} (h : blockRefused d k p off r v = some c) :
    c < 128 := by
  unfold blockRefused at h
  split at h
  · cases h; decide
  split at h
  next passed =>
    cases h
    exact pageRefused_small passed
  split at h
  · cases h; decide
  split at h
  · cases h; decide
  · cases h

/-- VALID of the word that a refusal leaves in ERRW (R55). -/
theorem refusal_valid {d : Dev} {q p off reason : Nat} (hp : p < 1024) (ho : off < 4096) (hr : reason < 128) :
    bits (word (refusalWord d q p off reason)).toNat 31 1 = 1 := by
  have more : d.rfld q 0x024 31 1 < 2 := Nat.mod_lt _ (by decide)
  unfold refusalWord
  simp only [bits, word, BitVec.toNat_ofNat, Nat.shiftRight_eq_div_pow, Nat.shiftLeft_eq]
  omega

theorem refuse_valid {d e : Dev} {p off reason : Nat} {k : PageKind} (hp : kindOf p = some k) (ho : off < 4096) (hr : reason < 128)
    (h : SameButReports (refuse d p off reason) e) : e.rfld p 0x024 31 1 = 1 := by
  rw [rfld_of_same (same_trans (same_refuse hp ho) h) _ _ (reportWord_of_offset (by decide) (by decide)), Dev.rfld, setReg_read,
    if_pos rfl]
  exact refusal_valid (Nat.lt_trans (kindOf_lt hp) (by decide)) ho hr

/-! ### Writes of the flash registers -/

/-- While an operation is under way a write is refused, whatever else is said against it. -/
theorem flashWrite_busy {nv : NonVolatile} (busy : nv.op.isSome = true) (d : Dev) (off v : Nat) :
    ∃ c, c < 128 ∧ flashWrite nv d off v = (nv, refuse d pageDev off c) := by
  unfold flashWrite
  split
  · exact ⟨_, by decide, rfl⟩
  split
  next passed => exact ⟨_, blockRefused_small passed, rfl⟩
  · rw [if_pos busy]
    exact ⟨_, by decide, rfl⟩

/-- An accepted write, nothing under way, starts its operation. -/
theorem flashWrite_accepted {nv : NonVolatile} {d : Dev} {off v : Nat} (ok : writeAccepted d pageDev off v = true) (idle : nv.op = none) :
    ∃ r, PageKind.dev.reg? off = some r ∧ flashWrite nv d off v =
      if off = 0x108 then
        ({ nv with op := some (.program (flashAddr d) (word v)) },
          showFlash { nv with op := some (.program (flashAddr d) (word v)) } (flashAdvance (storeWrite d .dev pageDev off r v)) false)
      else if bit v 0 then
        ({ nv with op := some (.erase (flashAddr d / 65536)) }, showFlash { nv with op := some (.erase (flashAddr d / 65536)) } d false)
      else (nv, d) := by
  unfold writeAccepted at ok
  rw [kindOf_dev] at ok
  dsimp only at ok
  cases hr : PageKind.dev.reg? off with
  | none => rw [hr] at ok; cases ok
  | some r =>
    rw [hr] at ok
    refine ⟨r, rfl, ?_⟩
    unfold flashWrite
    rw [hr]
    dsimp only
    rw [Option.isNone_iff_eq_none.mp ok, idle]
    rfl

/-- The flash's own words stand on page DEV, and no report writes them. -/
theorem flashAddr_of_same {d e : Dev} (h : SameButReports d e) : flashAddr e = flashAddr d :=
  rfld_of_same h _ _ (by decide)

theorem at_flashAddr (s : State) (u : Nat) : flashAddr (s.at u) = flashAddr s.dev := at_rfld s u _ _ (by decide)

theorem flashAddr_showFlash (nv : NonVolatile) (d : Dev) (error : Bool) : flashAddr (showFlash nv d error) = flashAddr d :=
  setReg_rfld_other d _ _ _ (by decide)

theorem flashAddr_flashAdvance (d : Dev) : flashAddr (flashAdvance d) = (flashAddr d + 4) % 2 ^ 28 :=
  setFld_rfld_own d _ _ _ (by decide)

/-- DEV_FLASH_DATA. -/
def dataReg : Reg := ⟨0x108, 0, 1, [rw 0 32 .live 0 []]⟩

theorem dataReg_found : PageKind.dev.reg? 0x108 = some dataReg := by decide

theorem flashAddr_storeData (d : Dev) (v : Word) : flashAddr (storeWrite d .dev pageDev 0x108 dataReg v.toNat) = flashAddr d := by
  rw [storeWrite_plain rfl rfl rfl, flashAddr, Dev.rfld, stored_read, if_neg (by decide)]
  rfl

/-- Settles O9: a read by the word at the address; a write accepted with nothing under way starts its operation; one while an
operation is under way is refused. -/
theorem flashCommands : Obligations.FlashCommands := by
  unfold Obligations.FlashCommands
  refine ⟨fun s u on idle => ?_, fun s u v ok idle => ?_, fun s u v ok idle erase => ?_, fun s u v busy => ?_⟩
  · have h := answers_devFlashDataRead s u
    have take : flashRead s.nv (s.at u) =
        ((s.at u).setFld pageDev 0x104 0 28 (flashAddr s.dev + 4)).send (.read (word (flashField s.nv (flashAddr s.dev) 4))) := by
      unfold flashRead
      rw [at_boot, if_neg (by omega), flashTake, idle]
      simp only [Option.isSome_none, Bool.false_eq_true, if_false, flashAdvance, at_flashAddr]
    rwa [take] at h
  · obtain ⟨r, hr, write⟩ := flashWrite_accepted ok idle
    obtain rfl : dataReg = r := Option.some.inj (dataReg_found.symm.trans hr)
    refine answers_mono (answers_devFlashDataWrite s u v) fun t ⟨nv, same⟩ => ?_
    rw [write, if_pos rfl] at nv same
    rw [at_flashAddr, word_toNat] at nv
    have inner : inner t.dev = inner (s.at u) :=
      (inner_of_same same).trans (unregistered_inner.ofOnlyRegs (((onlyRegs_storeWrite _ _ _ _ _ _).trans
        (onlyRegs_setFld _ _ _ _ _ _)).trans (onlyRegs_setReg _ _ _ _)))
    refine ⟨nv, ?_, ?_, (boot_of_inner inner).trans (at_boot s u), (mould_of_inner inner).trans (at_mould s u)⟩
    · rw [rfld_of_same same _ _ busy_silent, showFlash_busy]
      rfl
    · rw [flashAddr_of_same same, flashAddr_showFlash, flashAddr_flashAdvance, flashAddr_storeData, at_flashAddr]
  · obtain ⟨r, -, write⟩ := flashWrite_accepted ok idle
    refine answers_mono (answers_devFlashErase s u v) fun t ⟨nv, same⟩ => ?_
    rw [write, if_neg (by decide), if_pos (show bit v.toNat 0 = true from erase)] at nv same
    rw [at_flashAddr] at nv
    refine ⟨nv, ?_, ?_, same.boot.trans (arrive_boot _ _), same.mould.trans (arrive_mould _ _)⟩
    · rw [rfld_of_same same _ _ busy_silent, showFlash_busy]
      rfl
    · rw [flashAddr_of_same same, flashAddr_showFlash, at_flashAddr]
  · have refused {i : Instr} {off : Nat} (ho : off < 4096) (h : AnswersBoth s i (flashWrite s.nv (s.at u) off v.toNat)) :
        Answers s i fun t => t.nv = s.nv ∧ t.dev.boot = s.dev.boot ∧ t.dev.rfld pageDev 0x024 31 1 = 1 := by
      obtain ⟨c, small, write⟩ := flashWrite_busy busy (s.at u) off v.toNat
      refine answers_mono h fun t ⟨nv, same⟩ => ?_
      rw [write] at nv same
      have boot : (refuse (s.at u) pageDev off c).boot = (s.at u).boot := boot_of_inner (unregistered_inner.refuse _ _ _ _)
      exact ⟨nv, (same.boot.trans boot).trans (at_boot s u), refuse_valid kindOf_dev ho small same⟩
    exact ⟨refused (by decide) (answers_devFlashDataWrite s u v), refused (by decide) (answers_devFlashErase s u v)⟩

end Sys2Proof.Proofs
end

section
/-! Power-on and warm reset: O5 and O7. -/
namespace Sys2Proof.Proofs
open Sys2Proof.Machine Sys2Proof.Laws

/-! ### What a reset is told by -/

/-- The parts of the device that say what a reset has kept and what it has loaded. -/
def resetView (d : Dev) : Dev :=
  { tick := d.tick, boot := d.boot, par := d.par, heats := d.heats, stp := d.stp, stations := d.stations, lanes := d.lanes
    mould := { latched := d.mould.latched, locked := d.mould.locked, key := d.mould.key }
    hif := { d.hif with windows := [], kept := [] }
    recorder := { hist := d.recorder.hist, clears := d.recorder.clears, missedBurst := d.recorder.missedBurst, key := d.recorder.key } }

theorem silent_resetView : Silent resetView where
  word _ _ _ _ _ := rfl
  fld _ _ _ _ _ _ _ := rfl
  pens _ _ := rfl
  rings _ _ := rfl
  windows _ _ := rfl
  kept _ _ := rfl
  triggers _ _ := rfl

theorem resetView_writeHoist (d : Dev) (tick source bitNo kind : Nat) (vals : List Nat) :
    resetView (writeHoist d tick source bitNo kind vals) = resetView d := by
  unfold writeHoist
  dsimp only
  split
  · rfl
  split
  · exact silent_resetView.raise _ _ _ _ _ _ _
  · rfl

/-! ### Boot step 2 -/

theorem onlyRegs_upto (n : Nat) (f : Dev → Nat → Dev) (step : ∀ d k, OnlyRegs d (f d k)) (d : Dev) : OnlyRegs d (upto n f d) :=
  onlyRegs_foldl f step _ d

/-- The same after the seal store, where it can be read, has given its seal and its keys. -/
def withSeal (ok : Bool) (x : SealStore) (d : Dev) : Dev :=
  { d with
    mould := { d.mould with
      locked := if ok then x.sealed else d.mould.locked, key := if ok then x.key else d.mould.key }
    recorder := { d.recorder with key := if ok then x.clearKey else d.recorder.key }
    boot := { d.boot with sealLoaded := ok || d.boot.sealLoaded } }

theorem resetView_loadSealStore (d : Dev) (x : SealStore) : resetView (loadSealStore d x) = withSeal true x (resetView d) := by
  have limits := onlyRegs_foldl (fun d (e : Nat × Word) => d.setReg pageMld e.1 e.2.toNat) (fun _ _ => onlyRegs_setReg _ _ _ _) x.limits d
  have key := limits.trans (onlyRegs_upto 8 (fun d i => d.setReg pageMld (0x100 + 4 * i) (bits x.key.toNat (32 * i) 32))
    (fun _ _ => onlyRegs_setReg _ _ _ _) _)
  unfold loadSealStore
  dsimp only
  rw [key]
  rfl

theorem resetView_newChallenge {d : Dev} (seeking : d.par.role = roleSeeking) : resetView (newChallenge d) = resetView d := by
  unfold newChallenge
  rw [if_neg (by rw [seeking]; decide)]
  dsimp only
  rw [if_neg (by rw [seeking]; decide)]
  simp only [resetView, Dev.fresh]

theorem resetView_recorderChallenge (d : Dev) : resetView (recorderChallenge d) = resetView d := by
  simp only [resetView, recorderChallenge, Dev.fresh]

theorem resetView_takeSelection (d : Dev) : resetView (takeSelection d) = resetView d := by
  unfold takeSelection
  extract_lets cols v dead fresh _ selected
  have line (x : LineHead) : resetView { d with lhd := x } = resetView d := rfl
  exact (silent_foldl (v := resetView) _ (fun _ _ => silent_resetView.raise _ _ _ _ _ _ _) fresh _).trans
    ((silent_resetView.fld _ _ _ _ _ _ (by decide)).trans (line _))

/-- Step 2 has begun: the boot's result is that of the seal store so far. -/
def begunBoot (b : Boot) (sealOk : Bool) : Boot := { b with stage := 2, result := if sealOk then 0 else 4 }

theorem resetView_bootLoad (nv : NonVolatile) {d : Dev} (sealOk : Bool) (seeking : d.par.role = roleSeeking) :
    resetView (bootLoad nv d sealOk) =
      withSeal sealOk nv.sealStore { resetView d with boot := begunBoot d.boot sealOk } := by
  have start : resetView (showFlash nv { d with boot := begunBoot d.boot sealOk } false) =
      { resetView d with boot := begunBoot d.boot sealOk } := rfl
  have role : (showFlash nv { d with boot := begunBoot d.boot sealOk } false).par.role = roleSeeking := seeking
  show resetView (takeSelection (recorderChallenge (newChallenge (if sealOk = true
    then loadSealStore (showFlash nv { d with boot := begunBoot d.boot sealOk } false) nv.sealStore
    else showFlash nv { d with boot := begunBoot d.boot sealOk } false)))) = _
  generalize showFlash nv { d with boot := begunBoot d.boot sealOk } false = e at start role
  rw [resetView_takeSelection, resetView_recorderChallenge]
  cases sealOk
  · exact (resetView_newChallenge role).trans start
  · have sealRole : (loadSealStore e nv.sealStore).par.role = roleSeeking := by
      have h := congrArg (fun x : Dev => x.par.role) (resetView_loadSealStore e nv.sealStore)
      exact Eq.trans h role
    rw [if_pos rfl, resetView_newChallenge sealRole, resetView_loadSealStore, start]

/-- A reset, its hoist written. -/
theorem resetView_reset (nv : NonVolatile) {d : Dev} (sealOk : Bool) (kind : Nat) (seeking : d.par.role = roleSeeking) :
    resetView (resetHoist (bootLoad nv d sealOk) kind) =
      withSeal sealOk nv.sealStore { resetView d with boot := begunBoot d.boot sealOk } :=
  (resetView_writeHoist _ _ _ _ _ _).trans (resetView_bootLoad nv sealOk seeking)

/-! ### Power-on reset (R629) -/

/-- The device as PORESET_N leaves it when it rises. -/
def risen (d : Dev) (strapB testEn : Bool) : Dev :=
  { free := d.free, boot := { poreset := false, held := testEn }, par := { sideB := strapB } }

theorem powerOn_held {s : State} (down : s.dev.boot.poreset = true) (strapB sealOk : Bool) :
    powerOn s.nv s.now strapB sealOk true = risen s.dev strapB true := by
  unfold powerOn
  rw [if_pos (show s.now.boot.poreset = true from down)]
  rfl

theorem powerOn_rises {s : State} (down : s.dev.boot.poreset = true) (strapB sealOk : Bool) :
    resetView (powerOn s.nv s.now strapB sealOk false) =
      withSeal sealOk s.nv.sealStore { resetView (risen s.dev strapB false) with boot := begunBoot { poreset := false } sealOk } := by
  have rises : powerOn s.nv s.now strapB sealOk false = resetHoist (bootLoad s.nv (risen s.dev strapB false) sealOk) 4 := by
    unfold powerOn
    rw [if_pos (show s.now.boot.poreset = true from down)]
    dsimp only
    rw [if_neg Bool.false_ne_true]
    rfl
  rw [rises, resetView_reset _ _ _ rfl]
  rfl

/-- The command takes the device exactly to what the power-on reset makes of it. -/
theorem exactly_powerOnReset (s : State) (strapB sealOk testEn : Bool) :
    AnswersExactly s (.powerOnReset strapB sealOk testEn) (powerOn s.nv s.now strapB sealOk testEn) := ⟨_, rfl, rfl, rfl, rfl⟩

/-- Settles O5: the device is new but for the strap and its free values, and step 2 loads the seal store. -/
theorem powerOnReset : Obligations.PowerOnReset := by
  unfold Obligations.PowerOnReset
  refine ⟨fun s strapB sealOk down => ⟨?_, ?_⟩, fun s strapB sealOk testEn up => ?_⟩
  · refine answers_of_exactly (exactly_powerOnReset s strapB sealOk false) fun t nv dev => ?_
    have v := powerOn_rises down strapB sealOk
    rw [← dev] at v
    refine ⟨nv, congrArg (·.boot.poreset) v, congrArg (·.boot.stage) v, congrArg (·.boot.result) v, congrArg (·.boot.engine) v,
      congrArg (·.par.sideB) v, congrArg (·.par.role) v, congrArg (·.tick) v, congrArg (·.heats) v, congrArg (·.stp) v,
      congrArg (·.stations) v, congrArg (·.mould.latched) v, fun ok => ?_⟩
    subst ok
    exact ⟨congrArg (·.mould.locked) v, congrArg (·.mould.key) v, congrArg (·.recorder.key) v, congrArg (·.boot.sealLoaded) v⟩
  · refine answers_of_exactly (exactly_powerOnReset s strapB sealOk true) fun t nv dev => ?_
    rw [dev, powerOn_held down]
    exact ⟨nv, rfl, rfl, rfl, rfl⟩
  · have h := answers_powerOnReset s strapB sealOk testEn
    rwa [powerOn, if_neg (by rw [show s.now.boot.poreset = false from up]; decide)] at h

/-! ### Requests of a warm reset (R635) -/

theorem requestWarm_first {d : Dev} (c cause : Nat) (stage : 2 ≤ d.boot.stage) (free : d.boot.held = false) (none : d.boot.warm = none) :
    requestWarm d c cause = { d with boot := { d.boot with warm := some (c, cause) } } := by
  unfold requestWarm
  rw [if_neg (by rw [free]; rintro (h | h); omega; cases h), none]

theorem requestWarm_later {d : Dev} (c cause : Nat) (waits : d.boot.warm.isSome = true) : requestWarm d c cause = d := by
  unfold requestWarm
  obtain ⟨x, waits⟩ := Option.isSome_iff_exists.mp waits
  split
  · rfl
  · rw [waits]

theorem requestWarm_held {d : Dev} (c cause : Nat) (kept : d.boot.stage < 2 ∨ d.boot.held = true) : requestWarm d c cause = d :=
  if_pos kept

/-- A write of DEV_RESET that requests nothing leaves the boot as it is. -/
theorem devResetWarm_idle {s : State} (u : Nat) (v : Word) (idle : ∀ d : Dev, d.boot = s.dev.boot → ∀ c, requestWarm d c 2 = d) :
    Answers s (.devResetWarm u v) fun t => t.nv = s.nv ∧ t.dev.boot = s.dev.boot := by
  refine answers_mono (answers_devResetWarm s u v) fun t ⟨nv, same⟩ => ⟨nv, same.boot.trans ?_⟩
  refine (boot_of_inner (unregistered_inner.withWrite _ _ _ _ _ fun e he => ?_)).trans (at_boot s u)
  unfold resetWrite
  split
  · rw [idle e ((boot_of_inner he).trans (at_boot s u))]
    exact he
  · exact he

/-- DEV_RESET. -/
def resetReg : Reg := ⟨0x100, 0, 1, [wo 0 1 .live 0 []]⟩

theorem resetReg_found : PageKind.dev.reg? 0x100 = some resetReg := by decide

theorem resetPin_engine {nv : NonVolatile} {d : Dev} (stage : 2 ≤ d.boot.stage) (free : d.boot.held = false)
    (engine : d.boot.engine = true) :
    resetPin nv d = (nv, requestWarm d d.cycle 1) := by
  unfold resetPin
  rw [if_neg (by rw [free]; rintro (h | h); omega; cases h), if_pos engine]

/-! ### The warm reset (R636) -/

/-- Of what a warm reset keeps, the watchdog's outputs change nothing but the steppers and HEALTH_OUT. -/
theorem resetView_warmKept (d : Dev) (cause : Nat) : resetView (warmKept (watchdogOutputs d) cause) = resetView (warmKept d cause) := by
  unfold watchdogOutputs
  rw [stopSteppers_frame]
  rfl

theorem warmNow_due {s : State} {c cause : Nat} (due : s.dev.boot.warm = some (c, cause)) (ripe : c ≤ s.dev.cycle)
    (free : s.dev.boot.held = false) : warmNow s.nv s.now = restartBoot s.nv (s.at 1125) cause := by
  unfold warmNow
  rw [show s.now.boot.warm = some (c, cause) from due]
  exact if_pos ⟨ripe, free⟩

theorem warmNow_held {s : State} (held : s.dev.boot.held = true) : warmNow s.nv s.now = (s.nv, s.now) := by
  unfold warmNow
  split
  · exact if_neg fun h => by cases held.symm.trans h.2
  · rfl

theorem resetView_restartBoot (nv : NonVolatile) (d : Dev) (cause : Nat) :
    resetView (restartBoot nv d cause).2 =
      withSeal (d.boot.result != 4) (storedSeal nv d).sealStore
        { resetView (warmKept d cause) with boot := begunBoot (warmKept d cause).boot (d.boot.result != 4) } := by
  refine (resetView_reset _ _ _ rfl).trans ?_
  rw [resetView_warmKept, show (warmKept (watchdogOutputs d) cause).boot = (warmKept d cause).boot by
    unfold watchdogOutputs; rw [stopSteppers_frame]; rfl]

/-- The command takes the stores and the device exactly to what the warm reset makes of them. -/
theorem exactly_warmReset (s : State) :
    Answers s .warmReset fun t => t.nv = (warmNow s.nv s.now).1 ∧ t.dev = (warmNow s.nv s.now).2 := ⟨_, rfl, rfl, rfl, rfl⟩

theorem warmReset_due {s : State} {c cause : Nat} (due : s.dev.boot.warm = some (c, cause)) (ripe : c ≤ s.dev.cycle)
    (free : s.dev.boot.held = false) :
    Answers s .warmReset fun t => t.nv = storedSeal s.nv (s.at 1125) ∧
      resetView t.dev =
        withSeal (s.dev.boot.result != 4) t.nv.sealStore { resetView (warmKept (s.at 1125) cause) with
          boot := begunBoot (warmKept (s.at 1125) cause).boot (s.dev.boot.result != 4) } := by
  refine answers_mono (exactly_warmReset s) fun t ⟨nv, dev⟩ => ?_
  rw [warmNow_due due ripe free] at nv dev
  have v := resetView_restartBoot s.nv (s.at 1125) cause
  rw [← dev, at_boot] at v
  have stores : t.nv = storedSeal s.nv (s.at 1125) := nv
  rw [← stores] at v
  exact ⟨stores, v⟩

/-- Settles O7: the requests, those that are later or that TEST_EN holds back, and the reset by what it keeps and loads. -/
theorem warmReset : Obligations.WarmReset := by
  unfold Obligations.WarmReset
  refine ⟨⟨fun s stage free engine none => ⟨?_, ?_⟩, fun s u v ok none stage free set => ?_, fun s stage engine waits => ?_,
    fun s u v waits => ?_⟩, fun s kept engine => ⟨?_, fun held => ?_, fun u v => ?_⟩, fun s c cause due ripe free => ?_⟩
  · have h := answers_resetNSample s true
    rw [if_pos rfl, if_pos engine, resetPin_engine (by rwa [at_boot]) (by rwa [at_boot]) (by rwa [at_boot]),
      requestWarm_first _ _ (by rwa [at_boot]) (by rwa [at_boot]) (by rwa [at_boot]), at_boot, at_cycle] at h
    exact h
  · have h := answers_resetNSample s false
    rw [if_neg Bool.false_ne_true, if_pos engine] at h
    exact h
  · have h := answers_devResetWarm s u v
    rw [withWrite_stores _ ok kindOf_dev resetReg_found rfl rfl rfl, resetWrite, if_pos (show bit v.toNat 0 = true from set)] at h
    have only := onlyRegs_stored (s.at u) pageDev 0x100 resetReg v.toNat
    generalize stored (s.at u) pageDev 0x100 resetReg v.toNat = d at h only
    have inner : inner d = inner (s.at u) := unregistered_inner.ofOnlyRegs only
    have boot := (boot_of_inner inner).trans (at_boot s u)
    have tick := tick_of_inner inner
    rw [requestWarm_first _ _ (by rwa [boot]) (by rwa [boot]) (by rwa [boot]), boot, tick,
      show d.cycle = s.dev.cycle from (congrArg (· / 1250) tick).trans (at_cycle s u)] at h
    exact answers_mono h fun t ⟨nv, same⟩ => ⟨nv, same.boot, same.par.trans ((par_of_inner inner).trans (at_par s u)),
      same.heats.trans ((heats_of_inner inner).trans (at_heats s u)), same.stp.trans ((stp_of_inner inner).trans (arrive_stp _ _))⟩
  · have h := answers_resetNSample s true
    rw [if_pos rfl, if_pos engine] at h
    have pin : resetPin s.nv (s.at 1100) = (s.nv, s.at 1100) := by
      unfold resetPin
      split
      · rfl
      · rw [at_boot, if_pos engine, requestWarm_later _ _ (by rwa [at_boot])]
    rw [pin] at h
    exact h
  · exact devResetWarm_idle u v fun d boot c => requestWarm_later c 2 (by rwa [boot])
  · have h := answers_resetNSample s true
    rw [if_pos rfl, if_neg (by rw [engine]; decide), resetPin, if_pos (show s.now.boot.stage < 2 ∨ s.now.boot.held = true from kept)] at h
    exact h
  · have h := answers_warmReset s
    rw [warmNow_held held] at h
    exact h
  · exact devResetWarm_idle u v fun d boot c => requestWarm_held c 2 (by rwa [boot])
  · refine answers_mono (warmReset_due due ripe free) fun t ⟨stores, v⟩ => ?_
    have arrived := same_arrive s.now 1125
    have hif : (s.at 1125).hif = { s.dev.hif with windows := (s.at 1125).hif.windows, kept := (s.at 1125).hif.kept } := arrived.hif
    refine ⟨stores, congrArg (·.tick) v, congrArg (·.boot.stage) v, congrArg (·.boot.cause) v, congrArg (·.boot.engine) v,
      congrArg (·.boot.warm) v, (congrArg (·.boot.wasHalted) v).trans ?_, congrArg (·.par.role) v,
      (congrArg (·.par.sideB) v).trans ?_, congrArg (·.heats) v, congrArg (·.stp) v, congrArg (·.stations) v, congrArg (·.lanes) v,
      congrArg (·.mould.latched) v, (congrArg (·.recorder.hist) v).trans arrived.hist,
      (congrArg (·.recorder.clears) v).trans arrived.clears, congrArg (·.recorder.missedBurst) v,
      (congrArg (·.hif.msix) v).trans (congrArg (·.msix) hif), (congrArg (·.hif.linkUp) v).trans (congrArg (·.linkUp) hif),
      (congrArg (·.hif.speed) v).trans (congrArg (·.speed) hif), (congrArg (·.hif.width) v).trans (congrArg (·.width) hif),
      fun reads => ?_⟩
    · exact congrArg (·.role == roleHalted) (at_par s 1125)
    · exact congrArg (·.sideB) (at_par s 1125)
    · rw [show (s.dev.boot.result != 4) = true from bne_iff_ne.mpr reads] at v
      exact ⟨congrArg (·.mould.locked) v, congrArg (·.mould.key) v, congrArg (·.recorder.key) v, congrArg (·.boot.sealLoaded) v⟩

end Sys2Proof.Proofs
end

section
/-! The boot steps: O6. -/
namespace Sys2Proof.Proofs
open Sys2Proof.Machine Sys2Proof.Laws

/-! ### What a change of the role leaves alone -/

theorem Silent.statusReport {α : Type} {v : Dev → α} (h : Silent v) (d : Dev) (st heat index : Nat) :
    v (Machine.statusReport d st heat index) = v d := by
  unfold Machine.statusReport
  split
  · rfl
  extract_lets p
  split
  · exact h.raise _ _ _ _ _ _ _
  split
  · exact h.raise _ _ _ _ _ _ _
  · exact h.report _ _ _ _ _ _

theorem Silent.entryDone {α : Type} {v : Dev → α} (h : Silent v) (d : Dev) (r index status code heat detail dropped : Nat) :
    v (Machine.entryDone d r index status code heat detail dropped) = v d :=
  (h.statusReport _ _ _ _).trans (h.emitShared _ _ _ _)

theorem silent_par : Silent Dev.par where
  word _ _ _ _ _ := rfl
  fld _ _ _ _ _ _ _ := rfl
  pens _ _ := rfl
  rings _ _ := rfl
  windows _ _ := rfl
  kept _ _ := rfl
  triggers _ _ := rfl

theorem confirmAll_par (d : Dev) : (confirmAll d).par = d.par := by
  have one (d : Dev) (x : Nat × Entry × Nat × Option Nat) : (loadDone d x.1 x.2.1 x.2.2.1 x.2.2.2).par = d.par :=
    (silent_par.emitShared _ _ _ _).trans (by cases x.2.2.2 <;> rfl)
  exact silent_foldl (v := Dev.par) _ one _ _

theorem standbyConfirm_par (d : Dev) (r : Nat) : (standbyConfirm d r).par = d.par := by
  unfold standbyConfirm
  split
  · split
    · exact silent_par.entryDone _ _ _ _ _ _ _ _
    · rfl
  · rfl

theorem setRole_role (d : Dev) (role : Nat) (cause : Option Nat) : (setRole d role cause).par.role = role := by
  by_cases h : d.par.role = role
  · rw [setRole, if_pos h]
    exact h
  · rw [(setRole_frame d role cause h).1]

/-- A view that sees neither reports nor what the end of a calibration run, of a join or of a role changes. -/
structure Calm {α : Type} (v : Dev → α) : Prop extends Silent v where
  cal : ∀ (d : Dev) (x : Cal), v { d with cal := x } = v d
  stations : ∀ (d : Dev) (x : Tab Station), v { d with stations := x } = v d
  out : ∀ (d : Dev) (x : List Out), v { d with out := x } = v d
  free : ∀ (d : Dev) (x : Nat), v { d with free := x } = v d
  par : ∀ (d : Dev) (x : Par), v { d with par := x } = v d
  mirror : ∀ (d : Dev) (x : Option Mirror), v { d with mirror := x } = v d
  loads : ∀ (d : Dev) (x : List (Nat × Entry × Nat × Option Nat)), v { d with hif := { d.hif with loads := x } } = v d

namespace Calm
variable {α : Type} {v : Dev → α} (h : Calm v)
include h

theorem setStation (d : Dev) (s : Nat) (x : Station) : v (Machine.setStation d s x) = v d := h.stations _ _

theorem orFree (d : Dev) (w : Nat) (o : Option Nat) : v (Machine.orFree d w o).2 = v d := by
  cases o
  · exact h.free _ _
  · rfl

theorem pairRecord (d : Dev) (kind : Nat) (cause partner : Option Nat) : v (Machine.pairRecord d kind cause partner) = v d := by
  unfold Machine.pairRecord
  dsimp only
  exact (h.emit _ _ _ _).trans ((h.orFree _ _ _).trans (h.orFree _ _ _))

theorem setRole (d : Dev) (role : Nat) (cause : Option Nat) : v (Machine.setRole d role cause) = v d := by
  unfold Machine.setRole
  split
  · rfl
  · exact (h.pairRecord _ _ _ _).trans ((h.word _ _ _ _ (by decide)).trans ((h.word _ _ _ _ (by decide)).trans (h.par d _)))

theorem endJoin (d : Dev) : v (Machine.endJoin d) = v d := by
  unfold Machine.endJoin
  split
  · rfl
  · exact (h.pairRecord _ _ _ _).trans ((h.mirror { d with par := { d.par with joinStage := 0 } } _).trans (h.par d _))

theorem putRun (d : Dev) (o : Option Nat) (r : Option CalRun) : v (Machine.putRun d o r) = v d := by
  cases o <;> exact h.cal _ _

theorem endRaw (d : Dev) (s : Nat) (r : CalRun) : v (Machine.endRaw d s r) = v d := by
  unfold Machine.endRaw
  extract_lets p0 st
  split
  · rfl
  split
  · exact h.setStation _ _ _
  · exact (h.setStation _ _ _).trans (h.setStation _ _ _)
  · rfl

theorem releaseStation (d : Dev) (s : Nat) (r : CalRun) : v (Machine.releaseStation d s r) = v d :=
  (h.setStation _ _ _).trans (h.endRaw _ _ _)

theorem endRun (d : Dev) (o : Option Nat) (r : CalRun) (status cause : Nat) : v (Machine.endRun d o r status cause) = v d := by
  unfold Machine.endRun
  extract_lets d1 d2 back d3 d4
  have released : v d2 = v d := by
    have one : v d1 = v d := h.putRun _ _ _
    show v (match r.station with | some s => if r.started then _ else d1 | none => d1) = v d
    split
    · split
      · exact (h.releaseStation _ _ _).trans one
      · exact one
    · exact one
  have sent : v d3 = v d := by
    show v (if back then _ else d2) = v d
    split
    · exact (h.out _ _).trans released
    · exact released
  have recorded : v d4 = v d := (h.emitShared _ _ _ _).trans sent
  split
  · exact (h.raise _ _ _ _ _ _ _).trans recorded
  split
  · exact (h.raise _ _ _ _ _ _ _).trans recorded
  · exact (h.raise _ _ _ _ _ _ _).trans recorded

theorem abortAll (d : Dev) (cause : Nat) : v (Machine.abortAll d cause) = v d := by
  have one (d : Dev) (s : Nat) :
      v (match getRun d (some s) with | some r => calAbort d (some s) r cause | none => d) = v d := by
    split
    · exact h.endRun _ _ _ _ _
    · rfl
  unfold Machine.abortAll
  refine (upto_keeps v one).trans ?_
  split
  · exact h.endRun _ _ _ _ _
  · rfl

theorem loadDone (d : Dev) (r : Nat) (e : Entry) (status : Nat) (detail : Option Nat) : v (Machine.loadDone d r e status detail) = v d :=
  (h.emitShared _ _ _ _).trans ((h.orFree _ _ _).trans (h.free _ _))

theorem confirmAll (d : Dev) : v (Machine.confirmAll d) = v d :=
  (silent_foldl _ (fun _ _ => h.loadDone _ _ _ _ _) _ _).trans (h.loads _ _)

end Calm

/-- The parts of the device that READY does not change. -/
def readyView (d : Dev) : Dev × (Nat → Bool) :=
  ({ boot := d.boot, mould := d.mould, dram := d.dram, lanes := d.lanes }, d.enabled)

theorem calm_readyView : Calm readyView where
  word d p off x k := by rw [readyView, enabled_setReg d p off x k]; rfl
  fld d p off lo w x k := by rw [readyView, enabled_setFld d p off lo w x k]; rfl
  pens _ _ := rfl
  rings _ _ := rfl
  windows _ _ := rfl
  kept _ _ := rfl
  triggers _ _ := rfl
  cal _ _ := rfl
  stations _ _ := rfl
  out _ _ := rfl
  free _ _ := rfl
  par _ _ := rfl
  mirror _ _ := rfl
  loads _ _ := rfl

theorem calm_heats : Calm Dev.heats where
  word _ _ _ _ _ := rfl
  fld _ _ _ _ _ _ _ := rfl
  pens _ _ := rfl
  rings _ _ := rfl
  windows _ _ := rfl
  kept _ _ := rfl
  triggers _ _ := rfl
  cal _ _ := rfl
  stations _ _ := rfl
  out _ _ := rfl
  free _ _ := rfl
  par _ _ := rfl
  mirror _ _ := rfl
  loads _ _ := rfl

/-! ### READY (R631) -/

/-- CTL.ENABLE that the device writes itself. -/
theorem enabled_setFld_own (d : Dev) (p v : Nat) : (d.setFld p 0x008 0 1 v).enabled p = decide (v % 2 = 1) := by
  have own := setFld_fld_own d p 0x008 (lo := 0) (n := 1) v (by decide)
  rw [Dev.enabled, Dev.flag, bit_eq_bits]
  exact decide_eq_decide.mpr (by rw [show bits _ 0 1 = v % 2 from own])

/-- A heat that waits for its standby is staged, and nothing else of the device changes but for a record (R93). -/
theorem readyView_standbyConfirm (d : Dev) (r : Nat) : readyView (standbyConfirm d r) = readyView d := by
  unfold standbyConfirm
  split
  · split
    · exact calm_readyView.entryDone _ _ _ _ _ _ _ _
    · rfl
  · rfl

theorem standbyConfirm_rests {d : Dev} {r : Nat} (other : (subOf d r).mode ≠ 4) : standbyConfirm d r = d := by
  unfold standbyConfirm
  split
  · exact if_neg fun h => other h.1
  · rfl

theorem upto_rests {α : Type} {n : Nat} {f : α → Nat → α} {x : α} (rests : ∀ k, k < n → f x k = x) : upto n f x = x :=
  upto_induct (fun _ y => y = x) rfl fun k y hk hy => by rw [hy, rests k hk]

theorem readyView_forgetAges (d : Dev) : readyView (forgetAges d) = readyView d := rfl

theorem forgetAges_heats {d : Dev} (rests : d.heats.running = none) : (forgetAges d).heats = d.heats := by
  unfold forgetAges updRun
  dsimp only
  rw [rests, Option.map_none, ← rests]

/-- What PAR's CTL.ENABLE at 0 makes of the device before it takes the role ALONE. -/
def leftPair (d : Dev) : Dev :=
  let e := if d.holds then endJoin d else abortAll (forgetAges (endJoin d)) 5
  { e with par := { e.par with ensignFrom := e.tick, withStandby := false, solo := false } }

theorem parEnable_off {d : Dev} (up : d.par.role ≠ roleHalted) :
    parEnable d false = upto 4 standbyConfirm (confirmAll (setRole (leftPair d) roleAlone none)) := by
  unfold parEnable
  rw [if_neg up]
  rfl

theorem readyView_leftPair (d : Dev) : readyView (leftPair d) = readyView d := by
  unfold leftPair
  refine (calm_readyView.par _ _).trans ?_
  split
  · exact calm_readyView.endJoin _
  · exact (calm_readyView.abortAll _ _).trans ((readyView_forgetAges _).trans (calm_readyView.endJoin _))

theorem leftPair_heats {d : Dev} (rests : d.heats.running = none) : (leftPair d).heats = d.heats := by
  have joined : (endJoin d).heats = d.heats := calm_heats.endJoin d
  unfold leftPair
  refine (calm_heats.par _ _).trans ?_
  split
  · exact joined
  · exact (calm_heats.abortAll _ _).trans ((forgetAges_heats (by rwa [joined])).trans joined)

/-- A device whose pair operation is turned off is ALONE; of what READY does not change all stays, and of the heats while
none runs and none waits for a standby. -/
theorem parEnable_alone {d : Dev} (up : d.par.role ≠ roleHalted) :
    readyView (parEnable d false) = readyView d ∧ (parEnable d false).par.role = roleAlone ∧
      (d.heats.running = none ∧ (∀ r, r < 4 → (subOf d r).mode ≠ 4) → (parEnable d false).heats = d.heats) := by
  rw [parEnable_off up]
  have view : readyView (confirmAll (setRole (leftPair d) roleAlone none)) = readyView d :=
    (calm_readyView.confirmAll _).trans ((calm_readyView.setRole _ _ _).trans (readyView_leftPair d))
  have role : (confirmAll (setRole (leftPair d) roleAlone none)).par.role = roleAlone := by
    rw [confirmAll_par, setRole_role]
  have heats (rests : d.heats.running = none) : (confirmAll (setRole (leftPair d) roleAlone none)).heats = d.heats :=
    (calm_heats.confirmAll _).trans ((calm_heats.setRole _ _ _).trans (leftPair_heats rests))
  generalize confirmAll (setRole (leftPair d) roleAlone none) = e at view role heats
  refine ⟨(upto_keeps _ readyView_standbyConfirm).trans view, ?_, fun ⟨rests, modes⟩ => ?_⟩
  · rw [upto_keeps Dev.par standbyConfirm_par]
    exact role
  · rw [upto_rests fun k hk => standbyConfirm_rests (by rw [subOf, heats rests]; exact modes k hk)]
    exact heats rests

/-! ### Step 3 (R626, R627) -/

theorem laneOf_setLane (d : Dev) (l k : Nat) (x : Lane) : laneOf (setLane d l x) k = if k = l then x else laneOf d k :=
  get_set _ _ _ _ _

theorem memEnable_frame (d : Dev) : (memEnable d).boot = d.boot ∧ (memEnable d).lanes = d.lanes ∧ (memEnable d).dram.training = true :=
  ⟨rfl, rfl, rfl⟩

/-- The cycle engine's start enables the lanes from 48 on one by one. -/
theorem firmwareLanes (n : Nat) (d : Dev) :
    let e := upto n (fun d q => firmwareLane d (48 + q)) d
    e.boot = d.boot ∧ ∀ q, q < n → (laneOf e (48 + q)).stage = 1 := by
  refine upto_induct (fun k (e : Dev) => e.boot = d.boot ∧ ∀ q, q < k → (laneOf e (48 + q)).stage = 1) ⟨rfl, fun q hq => by omega⟩
    fun k e hk ⟨boot, up⟩ => ⟨boot, fun q hq => ?_⟩
  have lane : laneOf (firmwareLane e (48 + k)) (48 + q) =
      if 48 + q = 48 + k then freshLane (laneOf e (48 + k)) 1 e.tick else laneOf e (48 + q) := by
    unfold firmwareLane laneEnable
    exact laneOf_setLane _ _ _ _
  rw [lane]
  split
  · rfl
  · exact up q (by omega)

/-- The device that firmware starts: the boot's step 4 and the trained memory's start. -/
theorem startFirmware_effect {nv : NonVolatile} {d f : Dev} {slot : Nat} (started : startFirmware nv d slot = f) :
    (f.boot.stage = 4 ∧ f.boot.engine = true ∧ f.boot.slot = (slot == 1) ∧ f.boot.result = d.boot.result ∧
      f.boot.fwVersion = word (flashField nv (slotBase slot) 4)) ∧ f.dram.training = true ∧
      ∀ q, q < 8 → (laneOf f (48 + q)).stage = 1 := by
  unfold startFirmware at started
  extract_lets a bin geom _ d1 d2 d3 at started
  have loads : d3.boot = d1.boot :=
    silent_foldl (v := Dev.boot) (fun d (f : Nat × Nat × Nat × Nat) => d.setFld pageMem f.1 f.2.1 f.2.2.1 f.2.2.2) (fun _ _ => rfl) _ _
  obtain ⟨boot, lanes⟩ := firmwareLanes 8 (d3.setFld pageMem 0x008 0 1 1)
  generalize upto 8 (fun d q => firmwareLane d (48 + q)) (d3.setFld pageMem 0x008 0 1 1) = e at boot lanes started
  obtain ⟨kept, up, training⟩ := memEnable_frame e
  rw [started] at kept up training
  have first : f.boot = d1.boot := kept.trans (boot.trans loads)
  refine ⟨?_, training, fun q hq => ?_⟩
  · rw [first]
    exact ⟨rfl, rfl, rfl, rfl, rfl⟩
  · rw [laneOf, up]
    exact lanes q hq

section
variable {s : State}

/-- The boot stops in step 3 with a result. -/
def stopped (s : State) (result : Nat) : Dev := { s.now with boot := { s.dev.boot with stage := 3, result := result } }

theorem verifyImages_checks (stage : s.dev.boot.stage = 2) (clear : s.dev.boot.result = 0) (up : s.dev.par.role ≠ roleHalted)
    (sfdpOk : Bool) : verifyImages s.nv s.now sfdpOk =
    if !sfdpOk then stopped s 1
    else if !recordOk s.nv then stopped s 2
    else match bootSlot s.nv with | some slot => startFirmware s.nv s.now slot | none => stopped s 3 :=
  if_pos ⟨stage, clear, up⟩

theorem bootRomVerify_stops {sfdpOk : Bool} {result : Nat} (stops : verifyImages s.nv s.now sfdpOk = stopped s result) :
    Answers s (.bootRomVerify sfdpOk) fun t =>
      t.nv = s.nv ∧ SameButReports { s.now with boot := { s.dev.boot with stage := 3, result := result } } t.dev := by
  have h := answers_bootRomVerify s sfdpOk
  rwa [stops] at h

end

/-- The device in boot step 5. -/
def readyNow (s : State) : Dev := { s.now with boot := { s.dev.boot with stage := 5 } }

/-- Settles O6: the checks of the ROM in their order, the start of firmware; READY by the role that pair operation leaves. -/
theorem bootSteps : Obligations.BootSteps := by
  unfold Obligations.BootSteps
  refine ⟨fun s stage clear up => ⟨?_, fun bad => ?_, fun good => ?_⟩, fun s stage clear trained up => ?_, fun s early => ?_⟩
  · exact bootRomVerify_stops ((verifyImages_checks stage clear up false).trans rfl)
  · refine bootRomVerify_stops ((verifyImages_checks stage clear up true).trans ?_)
    rw [bad]
    rfl
  · have checks := verifyImages_checks stage clear up true
    rw [good] at checks
    cases slot : bootSlot s.nv with
    | none =>
      rw [slot] at checks
      exact bootRomVerify_stops checks
    | some k =>
      rw [slot] at checks
      refine answers_mono (answers_bootRomVerify s true) fun t ⟨nv, same⟩ => ⟨nv, ?_⟩
      rw [checks] at same
      obtain ⟨⟨step, engine, which, result, version⟩, training, lanes⟩ := startFirmware_effect (rfl : startFirmware s.nv s.now k = _)
      dsimp only
      rw [same.boot, same.dram]
      exact ⟨step, engine, which, result.trans clear, version, training, fun q hq => by
        rw [laneOf, same.lanes]
        exact lanes q hq⟩
  · have now : reachReady s.now = if s.dev.boot.pair then (readyNow s).setFld pagePar 0x008 0 1 1
        else parEnable ((readyNow s).setFld pagePar 0x008 0 1 0) false := if_pos ⟨stage, clear, trained⟩
    refine answers_mono (answers_bootReady s) fun t ⟨nv, same⟩ => ⟨nv, ?_⟩
    rw [now] at same
    rw [enabled_of_same same]
    cases pair : s.dev.boot.pair
    · rw [pair] at same
      simp only [Bool.false_eq_true, if_false] at same ⊢
      obtain ⟨view, role, heats⟩ := parEnable_alone (d := (readyNow s).setFld pagePar 0x008 0 1 0) up
      generalize parEnable ((readyNow s).setFld pagePar 0x008 0 1 0) false = e at same view role heats ⊢
      obtain ⟨parts, enabled⟩ := Prod.mk.inj view
      refine ⟨same.boot.trans (congrArg (·.boot) parts), (congrFun enabled pagePar).trans (enabled_setFld_own _ _ _),
        (congrArg (·.role) same.par).trans role, fun rests => same.heats.trans (heats (rests.resolve_left id)),
        same.mould.trans (congrArg (·.mould) parts), same.dram.trans (congrArg (·.dram) parts),
        same.lanes.trans (congrArg (·.lanes) parts)⟩
    · rw [pair] at same
      simp only [if_true] at same ⊢
      exact ⟨same.boot, enabled_setFld_own _ _ _, congrArg (·.role) same.par, fun _ => same.heats, same.mould, same.dram,
        same.lanes⟩
  · have h := answers_bootReady s
    have rests : reachReady s.now = s.now := if_neg fun ⟨stage, clear, trained⟩ => by
      rcases early with early | early | early
      · exact early stage
      · exact early clear
      · cases early.symm.trans trained
    rwa [rests] at h

end Sys2Proof.Proofs
end

section
/-! The host link and the doorbells: O19 and O22. -/
namespace Sys2Proof.Proofs
open Sys2Proof.Machine Sys2Proof.Laws

/-! ### The host link (R566, R568) -/

theorem at_hif (s : State) (u : Nat) :
    (s.at u).hif = { s.dev.hif with windows := (s.at u).hif.windows, kept := (s.at u).hif.kept } := (same_arrive s.now u).hif

/-- The link's own words of the host interface may change under reports. -/
theorem same_setLink (s : State) (u : Nat) (up : Bool) (speed : BitVec 3) (width : BitVec 4) :
    SameButReports { s.at u with hif := { s.dev.hif with linkUp := up, speed := speed, width := width } }
      (setLink (s.at u) up speed width) :=
  { same_refl (s.at u) with hif := by unfold setLink; rw [at_hif] }

theorem at_link_kept {s : State} {u : Nat} {v : Bool} (link : s.dev.hif.linkUp = v) : (s.at u).hif.linkUp = v :=
  (at_link s u).trans link

/-- Settles O22: by the link as it stands. -/
theorem linkEvents : Obligations.LinkEvents := by
  unfold Obligations.LinkEvents
  refine fun s u speed width => ⟨fun stage => ?_, fun up => ⟨?_, ?_⟩, fun down => ⟨?_, ?_⟩, fun c => ?_⟩
  · have h := answers_pcieLinkUp s u speed width
    rw [linkTrained, if_pos (by rwa [at_boot])] at h
    exact answers_same h (same_setLink s u true speed width)
  · refine answers_mono (answers_linkDegraded s u speed width) fun t ⟨nv, same⟩ => ?_
    have base : SameButReports { s.at u with hif := { s.dev.hif with speed := speed, width := width } }
        (setLink (s.at u) true speed width) := by
      have hif : { s.dev.hif with speed := speed, width := width } =
          { s.dev.hif with linkUp := true, speed := speed, width := width } := by rw [← up]
      rw [hif]
      exact same_setLink s u true speed width
    rw [linkRetrained, if_pos (at_link_kept up)] at same
    dsimp only at same
    split at same
    next lower =>
      refine ⟨nv, same_trans (same_trans base (same_raise _ _ _ _ _ _ _ (by decide))) same, fun _ => ?_⟩
      exact pennant_of_same same (pennant_raised _ (by decide) (by decide))
    next kept =>
      refine ⟨nv, same_trans base same, fun lower => absurd (decide_eq_true ?_) kept⟩
      rw [at_hif]
      exact lower
  · refine answers_mono (answers_linkDown s u) fun t ⟨nv, same⟩ => ?_
    rw [linkWentDown, if_pos (at_link_kept up)] at same
    exact ⟨nv, pennant_of_same same (pennant_raised _ (by decide) (by decide)),
      same_trans (same_trans (same_setLink s u false 0 0) (same_raise _ _ _ _ _ _ _ (by decide))) same⟩
  · have h := answers_linkDegraded s u speed width
    rwa [linkRetrained, if_neg (by rw [at_link_kept down]; decide)] at h
  · have h := answers_linkDown s u
    rwa [linkWentDown, if_neg (by rw [at_link_kept down]; decide)] at h
  · have h := answers_pcieErrorLogged s u c
    have silent : reportWord (wordAddr pageHif (if c then 0x064 else 0x068)) = false := by cases c <;> decide
    rwa [Dev.count, Dev.addCount, at_rfld s u _ _ silent] at h

/-! ### The registers of a ring -/

theorem kindOf_pageRng : ∀ r : Fin 64, kindOf (pageRng r.val) = some .rng := by decide

/-- Of a ring's page, reports write the pennants and RNG_LOST. -/
theorem reportWord_rng {r off : Nat} (ho : off < 4096) (pen : off ≠ 0x010) (lost : off ≠ 0x074) :
    reportWord (wordAddr (pageRng r) off) = false := by
  have other : wordAddr (pageRng r) off ≠ wordAddr pageEvq 0x064 := by
    unfold wordAddr pageRng pageEvq
    omega
  simp [reportWord, wordAddr_offset ho, pen, lost, other]

section
variable (s : State) (u r : Nat)

theorem at_rngFld {off : Nat} (lo w : Nat) (ho : off < 4096) (pen : off ≠ 0x010) (lost : off ≠ 0x074) :
    (s.at u).fld (pageRng r) off lo w = s.dev.fld (pageRng r) off lo w := at_fld s u lo w (reportWord_rng ho pen lost)

theorem at_ringLog2 : ringLog2 (s.at u) r = ringLog2 s.dev r := at_rngFld s u r _ _ (by decide) (by decide) (by decide)
theorem at_auxLog2 : auxLog2 (s.at u) r = auxLog2 s.dev r := at_rngFld s u r _ _ (by decide) (by decide) (by decide)
theorem at_auxProd : (s.at u).rfld (pageRng r) 0x070 0 31 = s.dev.rfld (pageRng r) 0x070 0 31 :=
  at_rfld s u _ _ (reportWord_rng (by decide) (by decide) (by decide))
theorem at_ringUsed : ringUsed (s.at u) r = ringUsed s.dev r := by
  rw [ringUsed, at_ringLog2, at_ringCons, at_ringProd]
  rfl
theorem at_auxUsed : auxUsed (s.at u) r = auxUsed s.dev r := by
  rw [auxUsed, at_auxLog2, at_auxProd, at_rfld s u _ _ (reportWord_rng (by decide) (by decide) (by decide))]
  rfl
theorem at_holds : (s.at u).holds = s.dev.holds := by rw [Dev.holds, at_par]; rfl
theorem at_checksDoorbell : checksDoorbell (s.at u) r = checksDoorbell s.dev r := by rw [checksDoorbell, at_holds]; rfl

end

/-! ### Doorbells (R575, R578) -/

theorem bits_bits_low (v : Nat) {n m : Nat} (h : m ≤ n) : bits (bits v 0 n) 0 m = bits v 0 m := Nat.eq_of_testBit_eq fun i => by
  simp only [testBit_bits, Nat.zero_add]
  by_cases hi : i < m
  · simp [hi, lt_of_lt_of_le hi h]
  · simp [hi]

/-- A position register of a ring: one Live field of so many bits. -/
def posReg (off width : Nat) : Reg := ⟨off, 0, 1, [rw 0 width .live 0 []]⟩

theorem posReg_wide (off : Nat) {width : Nat} (fits : width ≤ 32) : (posReg off width).wide = false := by
  simp [posReg, Reg.wide, rw]
  omega

theorem posReg_storeMask (off width : Nat) : storeMask (posReg off width) = (2 ^ width - 1) <<< 0 := Nat.zero_or _

/-- An accepted write of a position register, which the device takes at once (R575). -/
theorem position_taken {s : State} {u : Nat} {i : Instr} (r : Fin 64) {off width : Nat} {v : Word}
    (h : AnswersButReports s i (withWrite (s.at u) (pageRng r.val) off v.toNat id))
    (ok : writeAccepted (s.at u) (pageRng r.val) off v.toNat = true) (found : PageKind.rng.reg? off = some (posReg off width))
    (fits : width ≤ 32) (ho : off < 0x074) (pen : off ≠ 0x010) :
    Answers s i fun t =>
      t.nv = s.nv ∧ t.dev.rfld (pageRng r.val) off 0 width = bits v.toNat 0 width ∧
      (∀ a, a ≠ wordAddr (pageRng r.val) off → reportWord a = false → t.dev.regs.read a = s.dev.regs.read a) ∧
      SameButReports { s.at u with regs := t.dev.regs } t.dev := by
  rw [withWrite_stores id ok (kindOf_pageRng r) found rfl rfl (posReg_wide off fits)] at h
  refine answers_mono h fun t ⟨nv, same⟩ => ⟨nv, ?_, fun a apart silent => ?_, ?_⟩
  · rw [rfld_of_same same _ _ (reportWord_rng (by omega) pen (by omega)), id, Dev.rfld, stored_read, if_pos rfl]
    refine bits_mergeBits (by omega) fun i hi => ?_
    rw [posReg_storeMask, Nat.testBit_mod_two_pow, testBit_fieldMask]
    simp [hi, lt_of_lt_of_le hi fits]
  · rw [same.regs.read a silent, id, stored_read, if_neg apart]
    exact at_read s u silent
  · have only := onlyRegs_stored (s.at u) (pageRng r.val) off (posReg off width) v.toNat
    rw [id, only] at same
    exact { same with regs := sameRegs_refl _ }

theorem doorbell_refused {s : State} {u : Nat} {i : Instr} (r : Fin 64) {off : Nat}
    (h : AnswersButReports s i (refuse (s.at u) (pageRng r.val) off refusedRange)) (ho : off < 4096) :
    doorbellRefused s u i (pageRng r.val) off := by
  have word := at_refusalWord s u (pageRng r.val) (pageRng r.val) off refusedRange
  unfold doorbellRefused
  unfold refusalWord at word
  rw [← word]
  exact answers_same h (same_refuse (kindOf_pageRng r) ho)

theorem at_prodMoveOk (s : State) (u r v : Nat) : prodMoveOk (s.at u) r (bits v 0 17) =
    (decide (bits v 0 16 < 2 ^ ringLog2 s.dev r) && (!checksDoorbell s.dev r ||
      (decide (ringUsed s.dev r ≤ posDist (ringLog2 s.dev r) (ringCons s.dev r) (bits v 0 17)) &&
        decide (posDist (ringLog2 s.dev r) (ringCons s.dev r) (bits v 0 17) ≤ 2 ^ ringLog2 s.dev r)))) := by
  unfold prodMoveOk
  rw [at_ringLog2, at_ringCons, at_ringUsed, at_checksDoorbell, bits_bits_low v (by decide)]

theorem at_consMoveOk (s : State) (u r v : Nat) : consMoveOk (s.at u) r (bits v 0 17) =
    (decide (bits v 0 16 < 2 ^ ringLog2 s.dev r) && (!checksDoorbell s.dev r ||
      decide (posDist (ringLog2 s.dev r) (bits v 0 17) (ringProd s.dev r) ≤ ringUsed s.dev r))) := by
  unfold consMoveOk
  rw [at_ringLog2, at_ringProd, at_ringUsed, at_checksDoorbell, bits_bits_low v (by decide)]

/-- What a write of RNG_AUX_CONS must pass. -/
def auxMoveOk (d : Dev) (r v : Nat) : Bool :=
  decide (bits v 0 30 < 2 ^ auxLog2 d r) && (!checksDoorbell d r ||
    decide (auxDist (auxLog2 d r) (bits v 0 31) (d.rfld (pageRng r) 0x070 0 31) ≤ auxUsed d r))

theorem auxDoorbell_eq (d : Dev) (r v : Nat) : auxDoorbell d r v =
    if !auxMoveOk d r v then refuse d (pageRng r) 0x06C refusedRange else withWrite d (pageRng r) 0x06C v id := rfl

theorem at_auxMoveOk (s : State) (u r v : Nat) : auxMoveOk (s.at u) r v = auxMoveOk s.dev r v := by
  unfold auxMoveOk
  rw [at_auxLog2, at_auxUsed, at_auxProd, at_checksDoorbell]

/-- Settles O19: each doorbell by its checks. -/
theorem doorbells : Obligations.Doorbells := by
  unfold Obligations.Doorbells
  refine fun s u r v => ⟨fun ok host index moves => ?_, fun ok dev index moves => ?_, fun ok index moves => ?_, fun bad => ?_,
    fun bad => ?_, fun bad => ?_⟩
  · have h := answers_rngProdDoorbell s u r v
    rw [prodDoorbell, if_neg] at h
    · exact position_taken r h ok (by decide) (by decide) (by decide) (by decide)
    · rw [host, at_prodMoveOk]
      cases checks : checksDoorbell s.dev r.val
      · simp [index]
      · simp [index, moves checks]
  · have h := answers_rngConsDoorbell s u r v
    rw [consDoorbell, if_neg] at h
    · exact position_taken r h ok (by decide) (by decide) (by decide) (by decide)
    · rw [dev, at_consMoveOk]
      cases checks : checksDoorbell s.dev r.val
      · simp [index]
      · simp [index, moves checks]
  · have h := answers_rngAuxCons s u r v
    rw [auxDoorbell_eq, at_auxMoveOk, if_neg] at h
    · exact position_taken r h ok (by decide) (by decide) (by decide) (by decide)
    · rw [auxMoveOk]
      cases checks : checksDoorbell s.dev r.val
      · simp [index]
      · simp [index, moves checks]
  · have h := answers_rngProdDoorbell s u r v
    rw [prodDoorbell, if_pos] at h
    · exact doorbell_refused r h (by decide)
    · rw [at_prodMoveOk]
      rcases bad with bad | bad | ⟨checks, bad | bad⟩
      · simp [bad]
      · simp [bad]
      · simp [checks, bad]
      · simp [checks, bad]
  · have h := answers_rngConsDoorbell s u r v
    rw [consDoorbell, if_pos] at h
    · exact doorbell_refused r h (by decide)
    · rw [at_consMoveOk]
      rcases bad with bad | bad | ⟨checks, bad⟩
      · simp [bad]
      · simp [bad]
      · simp [checks, bad]
  · have h := answers_rngAuxCons s u r v
    rw [auxDoorbell_eq, at_auxMoveOk, if_pos] at h
    · exact doorbell_refused r h (by decide)
    · rw [auxMoveOk]
      rcases bad with bad | ⟨checks, bad⟩
      · simp [bad]
      · simp [checks, bad]

end Sys2Proof.Proofs
end

section
/-! A queued record is written to its ring: O20. -/
namespace Sys2Proof.Proofs
open Sys2Proof.Machine Sys2Proof.Laws

/-! ### Messages (R586) -/

/-- A ring's message changes the host interface, and at most it goes out. -/
theorem sendMsix_frame (d : Dev) (vector : Nat) {ring : Nat} (real : ring ≠ 64) : ∃ m x,
    sendMsix d vector ring = { d with hif := x, out := d.out ++ m } ∧ (m = [] ∨ m = [.msix vector]) := by
  unfold sendMsix
  split
  · exact ⟨[], _, by rw [List.append_nil], .inl rfl⟩
  dsimp only
  split
  · exact ⟨[], d.hif, by rw [List.append_nil], .inl rfl⟩
  · exact ⟨[.msix vector], _, rfl, .inr rfl⟩

/-- A ring that has signalled keeps no record without a message. -/
theorem signalRing_frame (d : Dev) {r : Nat} (real : r < 64) : ∃ m x,
    signalRing d r = { setRing d r { ringOf d r with unsignalled := 0 } with hif := x, out := d.out ++ m } ∧
      (m = [] ∨ m = [.msix (d.fld (pageRng r) 0x054 0 6)]) :=
  sendMsix_frame (setRing d r { ringOf d r with unsignalled := 0 }) (d.fld (pageRng r) 0x054 0 6) (by omega)

/-! ### The record -/

/-- The oldest record of ring `r` with the phase of its lap. -/
def phased (d : Dev) (r : Nat) (q : QRec) : Entry := BitVec.ofNat 256 (q.data.toNat + atByte 31 (phaseAt (ringProd d r)))

/-- What goes out with the oldest record of ring `r`: its bitmap, if it has one, and the record. -/
def recordOuts (d : Dev) (r : Nat) (q : QRec) : List Out :=
  let i := bits (ringProd d r) 0 16
  (if q.withMap then [.bitmap r i (bitmapAt d r i) q.bitmap] else []) ++ [.record r i (entryAt d r i) (phased d r q)]

/-- The ring without its oldest record, which still waits for a message. -/
def shifted (d : Dev) (r : Nat) (rest : List QRec) : Ring :=
  let x := ringOf d r
  { x with queue := rest, unsignalled := x.unsignalled + 1, oldest := if x.unsignalled = 0 then d.tick else x.oldest }

/-- The device after the oldest record of ring `r` is written. -/
def recordWritten (d : Dev) (r : Nat) (q : QRec) (rest : List QRec) : Dev :=
  { (setRing d r (shifted d r rest)).setReg (pageRng r) 0x04C (posNext (ringLog2 d r) (ringProd d r)) with
    out := d.out ++ recordOuts d r q }

/-- PROD is written after the bitmap and before the record; no base moves with it. -/
theorem writeRecord_writes {d : Dev} {r : Nat} {q : QRec} {rest : List QRec} (queue : (ringOf d r).queue = q :: rest)
    (may : mayWriteRing d r = true) (room : ringFull d r = false) :
    writeRecord d r = if msixDue (recordWritten d r q rest) r then signalRing (recordWritten d r q rest) r
      else recordWritten d r q rest := by
  unfold writeRecord
  rw [queue]
  have written : ((if q.withMap then (setRing d r (shifted d r rest)).send (.bitmap r (bits (ringProd d r) 0 16)
        (bitmapAt d r (bits (ringProd d r) 0 16)) q.bitmap) else setRing d r (shifted d r rest)).setReg (pageRng r) 0x04C
          (posNext (ringLog2 d r) (ringProd d r))).send (.record r (bits (ringProd d r) 0 16)
            (entryAt d r (bits (ringProd d r) 0 16)) (phased d r q)) = recordWritten d r q rest := by
    unfold recordWritten recordOuts
    cases q.withMap
    · rfl
    · unfold Dev.send
      dsimp only [if_true, Dev.setReg]
      rw [if_pos rfl, if_pos rfl, List.append_assoc]
      rfl
  dsimp only
  rw [may, room, if_pos (by decide)]
  exact congrArg (fun x => if msixDue x r then signalRing x r else x) written

theorem writeRecord_rests {d : Dev} {r : Nat} (idle : (ringOf d r).queue = [] ∨ mayWriteRing d r = false ∨ ringFull d r = true) :
    writeRecord d r = d := by
  unfold writeRecord
  split
  · rfl
  · rename_i q rest queue
    refine if_neg fun h => ?_
    rw [Bool.and_eq_true, Bool.not_eq_true'] at h
    rcases idle with idle | idle | idle
    · cases queue.symm.trans idle
    · cases idle.symm.trans h.1
    · cases idle.symm.trans h.2

/-- What is left when the oldest record of ring `r` has been written, whether its message goes out or not. -/
theorem writeRecord_effect {d : Dev} {r : Nat} {q : QRec} {rest : List QRec} (real : r < 64) (queue : (ringOf d r).queue = q :: rest)
    (may : mayWriteRing d r = true) (room : ringFull d r = false) : ∃ m x y,
      writeRecord d r = { d.setReg (pageRng r) 0x04C (posNext (ringLog2 d r) (ringProd d r)) with
        rings := x, hif := y, out := d.out ++ recordOuts d r q ++ m } ∧
      (x.get (same {}) r).queue = rest ∧ (∀ k, k ≠ r → x.get (same {}) k = ringOf d k) ∧
      (m = [] ∨ m = [.msix (d.fld (pageRng r) 0x054 0 6)]) := by
  have ring (k : Nat) : ringOf (recordWritten d r q rest) k = if k = r then shifted d r rest else ringOf d k :=
    ringOf_setRing _ _ _ _
  rw [writeRecord_writes queue may room]
  split
  · obtain ⟨m, y, signalled, either⟩ := signalRing_frame (recordWritten d r q rest) real
    have vector : (recordWritten d r q rest).fld (pageRng r) 0x054 0 6 = d.fld (pageRng r) 0x054 0 6 := by
      rw [Dev.fld, show (recordWritten d r q rest).regs.inUse (wordAddr (pageRng r) 0x054) = _ from
        (setReg_inUse (setRing d r (shifted d r rest)) _ _ _ _).trans (if_neg (by unfold wordAddr; omega))]
      rfl
    rw [vector] at either
    rw [signalled]
    refine ⟨m, _, y, rfl, ?_, fun k other => ?_, either⟩
    · refine (congrArg Ring.queue ((ringOf_setRing _ _ _ _).trans (if_pos rfl))).trans ?_
      exact congrArg Ring.queue ((ring r).trans (if_pos rfl))
    · exact ((ringOf_setRing _ _ _ _).trans (if_neg other)).trans ((ring k).trans (if_neg other))
  · exact ⟨[], _, d.hif, by rw [List.append_nil]; rfl, congrArg Ring.queue ((ring r).trans (if_pos rfl)),
      fun k other => (ring k).trans (if_neg other), .inl rfl⟩

/-! ### The command -/

theorem exactly_ringRecordWrite (s : State) (u : Nat) (r : Fin 64) :
    AnswersExactly s (.ringRecordWrite u r) (writeRecord (s.at u) r.val) := ⟨_, rfl, rfl, rfl, rfl⟩

section
variable (s : State) (u r : Nat)

theorem at_mayWriteRing : mayWriteRing (s.at u) r = mayWriteRing s.dev r := by
  rw [mayWriteRing, at_enabled, at_link, at_holds]
  rfl

theorem at_ringFull : ringFull (s.at u) r = ringFull s.dev r := by
  rw [ringFull, at_ringUsed, at_ringLog2]
  rfl

theorem at_entryAt (i : Nat) : entryAt (s.at u) r i = entryAt s.dev r i := by
  unfold entryAt
  rw [at_rngFld s u r _ _ (by decide) (by decide) (by decide), at_rngFld s u r _ _ (by decide) (by decide) (by decide)]

theorem at_bitmapAt (i : Nat) : bitmapAt (s.at u) r i = bitmapAt s.dev r i := by
  unfold bitmapAt auxBase
  rw [at_rngFld s u r _ _ (by decide) (by decide) (by decide), at_rngFld s u r _ _ (by decide) (by decide) (by decide)]

theorem at_phased (q : QRec) : phased (s.at u) r q = phased s.dev r q := by
  rw [phased, at_ringProd]
  rfl

theorem at_recordOuts (q : QRec) : recordOuts (s.at u) r q = recordOuts s.dev r q := by
  unfold recordOuts
  dsimp only
  rw [at_ringProd, at_bitmapAt, at_entryAt, at_phased]

end

/-- The phase goes into bit 0 of byte 31, above all that the record holds. -/
theorem phased_eq (d : Dev) (r : Nat) (q : QRec) :
    phased d r q = q.data + BitVec.ofNat 256 ((1 - bits (ringProd d r) 16 1) * 2 ^ 248) := by
  rw [phased, atByte, phaseAt, Nat.shiftLeft_eq, BitVec.ofNat_add, BitVec.ofNat_toNat, BitVec.setWidth_eq]

/-- Settles O20: by what the write of the record leaves, and by what keeps a ring from writing. -/
theorem ringRecordWrite : Obligations.RingRecordWrite := by
  unfold Obligations.RingRecordWrite
  refine fun s u r => ⟨fun q rest queue may room => ?_, fun idle => ?_⟩
  · obtain ⟨m, x, y, written, shift, others, either⟩ := writeRecord_effect r.isLt queue ((at_mayWriteRing s u r).trans may)
      ((at_ringFull s u r).trans room)
    rw [at_ringLog2, at_ringProd, at_recordOuts, at_out] at written
    rw [at_rngFld s u r _ _ (by decide) (by decide) (by decide)] at either
    refine answers_of_exactly (exactly_ringRecordWrite s u r) fun t nv dev => ?_
    rw [written] at dev
    rw [dev]
    refine ⟨nv, shift, others, rfl, ⟨m, ?_, either⟩, at_heats s u, rfl, at_mould s u⟩
    show [] ++ recordOuts s.dev r.val q ++ m = _
    unfold recordOuts
    rw [List.nil_append, phased_eq, List.append_assoc]
    rfl
  · have rests := exactly_ringRecordWrite s u r
    rwa [writeRecord_rests (by rwa [at_mayWriteRing, at_ringFull])] at rests

end Sys2Proof.Proofs
end

section
/-! The timers of the rings, and the mailbox: O21 and O23. -/
namespace Sys2Proof.Proofs
open Sys2Proof.Machine Sys2Proof.Laws

/-! ### MSI-X moderation (R586) -/

theorem exactly_msixModerationTimer (s : State) (u : Nat) (r : Fin 64) :
    AnswersExactly s (.msixModerationTimer u r) (moderationTimer (s.at u) r.val) := ⟨_, rfl, rfl, rfl, rfl⟩

/-- The device whose ring `r` keeps no record without a message. -/
def signalled (d : Dev) (r : Nat) : Dev := setRing d r { ringOf d r with unsignalled := 0 }

theorem signalRing_eq (d : Dev) (r : Nat) : signalRing d r = sendMsix (signalled d r) (d.fld (pageRng r) 0x054 0 6) r := rfl

/-- MOD_TIME has passed since the oldest record of ring `r` without a message. -/
def moderationDue (d : Dev) (r : Nat) : Prop :=
  d.flag (pageRng r) 0x054 8 = true ∧ 0 < (ringOf d r).unsignalled ∧ d.fld (pageRng r) 0x058 0 16 ≠ 0 ∧
    (ringOf d r).oldest + 250 * d.fld (pageRng r) 0x058 0 16 ≤ d.tick ∧ (sharedRing r = false ∨ d.holds = true)

theorem moderationDue_iff (d : Dev) (r : Nat) : moderationDue d r ↔
    (d.flag (pageRng r) 0x054 8 && decide (0 < (ringOf d r).unsignalled) && d.fld (pageRng r) 0x058 0 16 != 0 &&
      decide ((ringOf d r).oldest + 250 * d.fld (pageRng r) 0x058 0 16 ≤ d.tick) && (!sharedRing r || d.holds)) = true := by
  simp only [moderationDue, Bool.and_eq_true, Bool.or_eq_true, Bool.not_eq_true', decide_eq_true_eq, bne_iff_ne, and_assoc]

theorem moderationTimer_due {d : Dev} {r : Nat} (due : moderationDue d r) : moderationTimer d r = signalRing d r :=
  if_pos ((moderationDue_iff d r).mp due)

theorem moderationTimer_early {d : Dev} {r : Nat} (early : ¬ moderationDue d r) : moderationTimer d r = d :=
  if_neg fun h => early ((moderationDue_iff d r).mpr h)

section
variable (d : Dev) {v ring : Nat} (real : ring ≠ 64)

/-- Another ring sent on the vector within the last microsecond. -/
def vectorSilent (d : Dev) (v ring : Nat) : Prop :=
  d.hif.lastMsg.get (same 0) v ≠ 0 ∧ d.tick < d.hif.lastMsg.get (same 0) v - 1 + 250 ∧
    d.hif.lastRing.get (same 0) v ≠ ring + 1

theorem sendMsix_masked (masked : bit (d.hif.msix.get msixReset (4 * v + 3)).toNat 0 = true) :
    sendMsix d v ring = { d with hif := { d.hif with pba := d.hif.pba ||| BitVec.ofNat 64 (2 ^ v) } } := if_pos masked

variable (clear : bit (d.hif.msix.get msixReset (4 * v + 3)).toNat 0 = false)
include real clear

theorem sendMsix_silent (silent : vectorSilent d v ring) : sendMsix d v ring = d := by
  unfold sendMsix
  rw [clear, if_neg Bool.false_ne_true, if_neg real]
  exact if_pos silent

theorem sendMsix_sends (free : ¬ vectorSilent d v ring) :
    sendMsix d v ring = { d with
      hif := { d.hif with
        lastMsg := d.hif.lastMsg.set (same 0) v (d.tick + 1), lastRing := d.hif.lastRing.set (same 0) v (ring + 1) }
      out := d.out ++ [.msix v] } := by
  unfold sendMsix
  rw [clear, if_neg Bool.false_ne_true, if_neg real]
  exact if_neg free

end

/-! ### The end of a window (R583) -/

theorem exactly_coalesceWindowEnd (s : State) : AnswersExactly s .coalesceWindowEnd (closeWindow s.now) := ⟨_, rfl, rfl, rfl, rfl⟩

theorem closeWindow_early {d : Dev} (early : ∀ x ∈ d.hif.windows, d.cycle < x.upTo) : closeWindow d = d := by
  have none : d.hif.windows.find? (fun w => decide (w.upTo ≤ d.cycle)) = none :=
    List.find?_eq_none.mpr fun x hx => by
      have := early x hx
      simp only [decide_eq_true_eq]
      omega
  unfold closeWindow
  rw [none]

/-- The device with those windows open. -/
def withWindows (d : Dev) (ws : List Window) : Dev := { d with hif := { d.hif with windows := ws } }

/-- The window of an event that is reported with its bitmap only where it counts several. -/
def closed (w : Window) : Window := { w with bitmap := if 2 ≤ w.count then w.bitmap else 0 }

theorem closeWindow_first {d : Dev} {w : Window} {rest : List Window} (first : d.hif.windows = w :: rest) (past : w.upTo ≤ d.cycle) :
    closeWindow d = routeEvent (if w.code = 0x0A24 then deliverPlain else deliver)
      (withWindows d rest) (closed w) := by
  unfold closeWindow
  rw [first, List.find?_cons_of_pos (by exact decide_eq_true past)]
  dsimp only
  rw [List.erase_cons_head]
  rfl

/-- An event that finds room joins the queue with the ring's next sequence number. -/
theorem pushEvent_joins {d : Dev} {k : Nat} (w : Window) (room : queueRoomFor d k = true) (on : d.enabled (pageRng k) = true) :
    (pushEvent d k w).2 = false ∧ (pushEvent d k w).1.regs = d.regs ∧ (pushEvent d k w).1.hif = d.hif ∧
      (ringOf (pushEvent d k w).1 k).seq = (ringOf d k).seq + 1 ∧
      (ringOf (pushEvent d k w).1 k).queue = (ringOf d k).queue ++
        [⟨BitVec.ofNat 256 (eventRecord d w + atByte 16 (ringOf d k).seq.toNat), w.bitmap, decide (2 ≤ w.count), .event⟩] := by
  have own : ringOf (setRing d k { ringOf d k with seq := (ringOf d k).seq + 1 }) k =
      { ringOf d k with seq := (ringOf d k).seq + 1 } := (ringOf_setRing _ _ _ _).trans (if_pos rfl)
  have still : queueRoomFor (setRing d k { ringOf d k with seq := (ringOf d k).seq + 1 }) k = true := by
    unfold queueRoomFor
    rw [own]
    exact room
  unfold pushEvent pushBody
  dsimp only
  rw [on, if_pos rfl, if_pos rfl, enqueue, if_pos still]
  dsimp only
  rw [own]
  have last (x : Ring) : ringOf (setRing (setRing d k { ringOf d k with seq := (ringOf d k).seq + 1 }) k x) k = x :=
    (ringOf_setRing _ _ _ _).trans (if_pos rfl)
  rw [last]
  exact ⟨rfl, rfl, rfl, rfl, rfl⟩

/-- A delivery that finds room is that push, whichever way it counts drops. -/
theorem delivers_joined {d : Dev} {k : Nat} {w : Window} (plain : Prop) [Decidable plain] (joined : (pushEvent d k w).2 = false) :
    (if plain then deliverPlain else deliver) d k w = (pushEvent d k w).1 := by
  split
  · unfold deliverPlain
    dsimp only
    rw [joined]
    rfl
  · unfold deliver
    dsimp only
    rw [joined]
    rfl

theorem routeEvent_to {f : Dev → Nat → Window → Dev} {d : Dev} {w : Window} {k : Nat} (ring : eventRing d w.page w.cls = some k) :
    routeEvent f d w = f d k w := by
  unfold routeEvent
  rw [ring]

theorem routeEvent_kept {f : Dev → Nat → Window → Dev} {d : Dev} {w : Window} (ring : eventRing d w.page w.cls = none) :
    routeEvent f d w = keep d (.event (24 + w.cls) (eventBody w) w.bitmap (decide (2 ≤ w.count)) 0) := by
  unfold routeEvent
  rw [ring]

/-- The first open window has lasted its span, and this ring takes its event. -/
theorem coalesceWindowEnd_writes {s : State} {w : Window} {rest : List Window} (first : s.dev.hif.windows = w :: rest)
    (past : w.upTo ≤ s.dev.cycle) {k : Nat} (ring : eventRing s.dev w.page w.cls = some k)
    (room : queueRoomFor s.dev k = true) (on : s.dev.enabled (pageRng k) = true) {e : Dev} (dev : e = closeWindow s.now) :
    e.hif.windows = rest ∧
      (ringOf e k).queue = (ringOf s.dev k).queue ++
        [⟨BitVec.ofNat 256 (eventRecord s.dev w + atByte 16 (ringOf s.dev k).seq.toNat),
          if 2 ≤ w.count then w.bitmap else 0, decide (2 ≤ w.count), .event⟩] ∧
      (ringOf e k).seq = (ringOf s.dev k).seq + 1 ∧ e.regs = s.dev.regs ∧ SameButReports s.now e := by
  have pushed := pushEvent_joins (d := withWindows s.now rest) (closed w) room on
  obtain ⟨taken, regs, hif, seq, queue⟩ := pushed
  have delivered : closeWindow s.now = (pushEvent (withWindows s.now rest) k (closed w)).1 :=
    (closeWindow_first (d := s.now) first past).trans ((routeEvent_to (d := withWindows s.now rest) (w := closed w) ring).trans (delivers_joined _ taken))
  rw [delivered] at dev
  rw [dev]
  exact ⟨congrArg Hif.windows hif, queue, seq, regs, same_trans (same_windows s.now rest) (same_pushEvent _ _ _)⟩

/-- The device does not report the event itself: a standby keeps it. -/
theorem coalesceWindowEnd_keeps {s : State} {w : Window} {rest : List Window} (first : s.dev.hif.windows = w :: rest)
    (past : w.upTo ≤ s.dev.cycle) (ring : eventRing s.dev w.page w.cls = none) :
    closeWindow s.now = { s.now with hif := { s.dev.hif with
      windows := rest
      kept := s.dev.hif.kept ++ (if s.dev.par.role = roleStandby then [.event (24 + w.cls) (eventBody w)
        (if 2 ≤ w.count then w.bitmap else 0) (decide (2 ≤ w.count)) 0] else []) } } := by
  refine (closeWindow_first (d := s.now) first past).trans ((routeEvent_kept (d := withWindows s.now rest) (w := closed w) ring).trans ?_)
  unfold keep
  by_cases standby : s.dev.par.role = roleStandby
  · rw [if_pos standby]
    exact if_pos standby
  · rw [if_neg standby, List.append_nil]
    exact if_neg standby

/-- Settles O21: the timer by its due time, the vector's mask and its silence; the window by whether its span has passed and who
reports its event. -/
theorem ringTimers : Obligations.RingTimers := by
  unfold Obligations.RingTimers
  refine ⟨fun s u r => ?_, fun s w rest first => ⟨fun past => ?_, fun early => ?_⟩⟩
  · have real : r.val ≠ 64 := by omega
    extract_lets d v last due masked silent
    have run := exactly_msixModerationTimer s u r
    have out : d.out = [] := at_out s u
    have ring : ringOf (signalled d r.val) r.val = { ringOf d r.val with unsignalled := 0 } :=
      (ringOf_setRing _ _ _ _).trans (if_pos rfl)
    have unsignalled : (ringOf (signalled d r.val) r.val).unsignalled = 0 := by rw [ring]
    have queue : (ringOf (signalled d r.val) r.val).queue = (ringOf d r.val).queue := by rw [ring]
    have sent : (signalled d r.val).out ++ [.msix v] = [.msix v] := by
      show d.out ++ [.msix v] = [.msix v]
      rw [out]
      rfl
    refine ⟨fun on clear free => ?_, fun on clear still => ?_, fun on set => ?_, fun early => ?_⟩
    · rw [moderationTimer_due on, signalRing_eq, sendMsix_sends (signalled d r.val) real clear free] at run
      refine answers_of_exactly run fun t nv dev => ?_
      rw [dev]
      exact ⟨nv, sent, unsignalled, queue, rfl, rfl⟩
    · rw [moderationTimer_due on, signalRing_eq, sendMsix_silent (signalled d r.val) real clear still] at run
      refine answers_of_exactly run fun t nv dev => ?_
      rw [dev]
      exact ⟨nv, out, unsignalled, rfl, rfl⟩
    · rw [moderationTimer_due on, signalRing_eq, sendMsix_masked (signalled d r.val) set] at run
      refine answers_of_exactly run fun t nv dev => ?_
      rw [dev]
      exact ⟨nv, out, unsignalled, rfl, rfl⟩
    · rwa [moderationTimer_early early] at run
  · refine answers_of_exactly (exactly_coalesceWindowEnd s) fun t nv dev =>
      ⟨nv, fun k ring _ room on => coalesceWindowEnd_writes first past ring room on dev,
        fun ring => dev.trans (coalesceWindowEnd_keeps first past ring)⟩
  · have rests := exactly_coalesceWindowEnd s
    rwa [closeWindow_early (d := s.now) (by rw [show s.now.hif.windows = _ from first]; exact early)] at rests

end Sys2Proof.Proofs
end

section
/-! The mailbox: O23. -/
namespace Sys2Proof.Proofs
open Sys2Proof.Machine Sys2Proof.Laws

/-- A record that finds room joins its ring's queue. -/
theorem emit_queued {d : Dev} {r : Nat} (kind : RecKind) (data : Nat) (room : queueRoomFor d r = true) :
    emit d r kind data = queued d r kind data := by
  unfold emit enqueue
  rw [room]
  rfl

theorem ringOf_consumed_other (d : Dev) {r k : Nat} (other : k ≠ r) : ringOf (consumed d r) k = ringOf d k := by
  unfold consumed
  dsimp only
  split <;> exact get_set_other _ _ _ other

section
variable {d : Dev} {k : Nat} {e : Entry}

/-- Firmware runs, and takes the entry at the head of the mailbox ring. -/
theorem mailboxEntry_taken (firmware : 4 ≤ d.boot.stage) (ready : entryReady d (20 + k) e = true) :
    mailboxEntry d k e = mailboxAnswer (consumed d (20 + k)) k e := by
  unfold mailboxEntry
  rw [if_pos firmware, takeEntry_ready _ ready]

/-- The entry that is taken leaves the answer's ring as it is. -/
theorem consumed_room (room : queueRoomFor d (60 + k) = true) : queueRoomFor (consumed d (20 + k)) (60 + k) = true := by
  rw [queueRoomFor_congr (ringOf_consumed_other d (by omega))
    (congrArg Hif.linkUp (congrArg Dev.hif (consumed_frame d (20 + k)).1 :)) (consumed_par d (20 + k))
    fun off low _ => consumed_word d (r := 20 + k) (a := wordAddr (pageRng (60 + k)) off) (by
      unfold wordAddr pageRng
      omega)]
  exact room

theorem mailboxAnswer_none (last : ¬ k < 3) : mailboxAnswer d k e = d := if_neg last

theorem mailboxAnswer_identify (early : k < 3) (op : byteField e 0 2 = 1) (room : queueRoomFor d (60 + k) = true) :
    mailboxAnswer d k e = queued d (60 + k) .plain
      (1 + atByte 4 (byteField e 4 4) + (atByte 8 d.boot.fwVersion.toNat + atByte 12 d.boot.schema.toNat +
        atByte 13 (d.boot.schema - 1).toNat + atByte 16 Config.serial.toNat)) := by
  unfold mailboxAnswer mailboxData
  rw [if_pos early, op]
  exact emit_queued _ _ room

theorem mailboxAnswer_echo (early : k < 3) (op : byteField e 0 2 = 2) (room : queueRoomFor d (60 + k) = true) :
    mailboxAnswer d k e = queued d (60 + k) .plain (2 + atByte 4 (byteField e 4 4) + atByte 8 (byteField e 8 22)) := by
  unfold mailboxAnswer mailboxData
  rw [if_pos early, op]
  exact emit_queued _ _ room

/-- The 22 free bytes of an answer to an opcode that the spec does not know. -/
def freeBytes (a b c : Long) : BitVec 176 := BitVec.ofNat 176 (a.toNat + atByte 8 b.toNat + atByte 16 (c.toNat % 2 ^ 48))

theorem atByte_freeBytes (a b c : Long) :
    atByte 8 (freeBytes a b c).toNat = atByte 8 a.toNat + atByte 16 b.toNat + atByte 24 (c.toNat % 2 ^ 48) := by
  have ha := a.isLt
  have hb := b.isLt
  have hc : c.toNat % 2 ^ 48 < 2 ^ 48 := Nat.mod_lt _ (by decide)
  simp only [freeBytes, atByte, BitVec.toNat_ofNat, Nat.shiftLeft_eq]
  omega

theorem mailboxAnswer_unsupported (early : k < 3) (one : byteField e 0 2 ≠ 1) (two : byteField e 0 2 ≠ 2)
    (room : queueRoomFor d (60 + k) = true) : ∃ data : BitVec 176,
    mailboxAnswer d k e = { queued d (60 + k) .plain
      (byteField e 0 2 + atByte 2 0xFFFF + atByte 4 (byteField e 4 4) + atByte 8 data.toNat) with free := d.free + 3 } := by
  refine ⟨freeBytes (Config.freeValue d.free) (Config.freeValue (d.free + 1)) (Config.freeValue (d.free + 2)), ?_⟩
  rw [atByte_freeBytes]
  unfold mailboxAnswer mailboxData
  rw [if_pos early]
  dsimp only
  rw [if_neg one, if_neg two, if_neg (by omega)]
  exact emit_queued (d := { d with free := d.free + 3 }) _ _ room

end

/-- Settles O23: the entry is taken, and the answer is that of its opcode. -/
theorem mailbox : Obligations.Mailbox := by
  unfold Obligations.Mailbox
  intro s u k e firmware ready room
  have taken := mailboxEntry_taken (d := s.at u) (by rwa [at_boot]) ready
  have free := consumed_room room
  have boot : (consumed (s.at u) (20 + k.val)).boot = s.dev.boot :=
    (congrArg Dev.boot (consumed_frame (s.at u) (20 + k.val)).1 :).trans (at_boot s u)
  have count : (consumed (s.at u) (20 + k.val)).free = s.dev.free :=
    (congrArg Dev.free (consumed_frame (s.at u) (20 + k.val)).1 :).trans (arrive_free _ _)
  have identify : AnswersExactly s (.identify u k e) (mailboxEntry (s.at u) k.val e) := ⟨_, rfl, rfl, rfl, rfl⟩
  have echo : AnswersExactly s (.echo u k e) (mailboxEntry (s.at u) k.val e) := ⟨_, rfl, rfl, rfl, rfl⟩
  have other : AnswersExactly s (.mailboxUnsupported u k e) (mailboxEntry (s.at u) k.val e) := ⟨_, rfl, rfl, rfl, rfl⟩
  rw [taken] at identify echo other
  refine ⟨fun early => ⟨fun op => ?_, fun op => ?_, fun one two => ?_⟩, fun last => ?_⟩
  · rwa [mailboxAnswer_identify early op free, boot] at identify
  · rwa [mailboxAnswer_echo early op free] at echo
  · obtain ⟨data, answer⟩ := mailboxAnswer_unsupported early one two free
    rw [answer, count] at other
    exact answers_of_exactly other fun t nv dev => ⟨nv, data, dev⟩
  · rw [mailboxAnswer_none (by omega), last] at identify echo other
    exact ⟨identify, echo, other⟩

end Sys2Proof.Proofs
end

section
/-! Reads of BAR0: O14. -/
namespace Sys2Proof.Proofs
open Sys2Proof.Machine Sys2Proof.Laws

/-- A device in boot step 2 with no flash operation under way. -/
def servingFlash : State := { State.reset with dev := { State.reset.dev with boot := { State.reset.dev.boot with stage := 2 } } }

theorem flashAddr_send (d : Dev) (o : Out) : flashAddr (d.send o) = flashAddr d := rfl

/-- A read of the 8 bytes from DEV_FLASH_DATA on takes in the flash's data word. -/
theorem hostRead_dataBytes (nv : NonVolatile) (d : Dev) :
    hostRead nv d false (wordAddr pageDev 0x108) 8 = flashReadWide nv d (wordAddr pageDev 0x108) 8 := by
  unfold hostRead
  rw [if_neg (by decide), if_neg (by decide), if_pos (by decide)]

/-- A read of the flash's data word of another width moves the address on too. -/
theorem flashAddr_flashReadWide {nv : NonVolatile} {d : Dev} (on : 2 ≤ d.boot.stage) (idle : nv.op = none) (a n : Nat) :
    flashAddr (flashReadWide nv d a n) = (flashAddr d + 4) % 2 ^ 28 := by
  unfold flashReadWide
  rw [if_neg (by omega), flashTake, idle]
  exact flashAddr_flashAdvance d

/-- Such a read of 8 bytes from DEV_FLASH_DATA on, from boot step 2 on, is none that only sends its completion. -/
theorem dataBytes_advance {s : State} (on : 2 ≤ s.dev.boot.stage) (idle : s.nv.op = none) (u : Nat) (o : Out) :
    ¬ AnswersButReports s (.lowWordRead u ⟨false, BitVec.ofNat 28 (wordAddr pageDev 0x108), 8⟩) ((s.at u).send o) := by
  rintro ⟨x, run, -, -, claimed⟩
  obtain ⟨y, run', -, -, done⟩ := answers_lowWordRead s u ⟨false, BitVec.ofNat 28 (wordAddr pageDev 0x108), 8⟩
  obtain rfl : x = y := Host.Outcome.next.inj (run.symm.trans run')
  have stays : flashAddr x.dev = flashAddr (s.at u) := (flashAddr_of_same claimed).trans (flashAddr_send _ _)
  have addr : (BitVec.ofNat 28 (wordAddr pageDev 0x108)).toNat = wordAddr pageDev 0x108 := by decide
  dsimp only at done
  rw [addr, hostRead_dataBytes] at done
  have moves := (flashAddr_of_same done).trans (flashAddr_flashReadWide (by rwa [← at_boot s u] at on) idle _ _)
  have aligned : flashAddr x.dev = (flashAddr x.dev + 4) % 2 ^ 28 := moves.trans (by rw [stays]; rfl)
  omega

/-- Refutes O14: its clause on reads of another width takes in the 8 bytes from DEV_FLASH_DATA on, and from boot step 2 on
such a read, too, moves DEV_FLASH_ADDR on by 4. -/
theorem not_reads : ¬ Obligations.Reads := by
  unfold Obligations.Reads
  rintro ⟨-, -, bytes, -⟩
  exact dataBytes_advance (s := servingFlash) (by decide) rfl 0 _
    (bytes servingFlash 0 8 (BitVec.ofNat 28 (wordAddr pageDev 0x108)) (by decide) (.inl (by decide)) (by decide) (by decide))

end Sys2Proof.Proofs
end

section
/-! PPS and the time of day: O59. -/
namespace Sys2Proof.Proofs
open Sys2Proof.Machine Sys2Proof.Laws

/-! ### Changes of the timebase alone -/

theorem at_tim (s : State) (u : Nat) : (s.at u).tim = s.dev.tim := arrive_tim _ _

theorem silent_tim : Silent Dev.tim := silent_inner.map Dev.tim

/-- Equal but for reports, two devices stay so with the registers of the second. -/
theorem same_ownRegs {d e : Dev} (h : SameButReports d e) : SameButReports { d with regs := e.regs } e := by
  obtain ⟨_, _, _, _, _, _, _, _, _, _, _, _⟩ := h
  constructor <;> first | exact sameRegs_refl _ | assumption

theorem same_withTim {d e : Dev} (h : SameButReports d e) (x : Timebase) :
    SameButReports { d with tim := x } { e with tim := x } := by
  obtain ⟨_, _, _, _, _, _, _, _, _, _, _, _⟩ := h
  constructor <;> first | rfl | assumption

/-- But for reports the second device differs from the first in its timebase alone. -/
def OnlyTim (d e : Dev) : Prop := SameButReports { d with tim := e.tim } e

theorem OnlyTim.trans {a b c : Dev} (h : OnlyTim a b) (k : OnlyTim b c) : OnlyTim a c := same_trans (same_withTim h c.tim) k

theorem onlyTim_of_same {d e : Dev} (h : SameButReports d e) : OnlyTim d e := by
  have := same_withTim h e.tim
  exact this

theorem onlyTim_setTim (d : Dev) (x : Timebase) : OnlyTim d { d with tim := x } := same_refl _

theorem onlyTim_wholeSecond (d : Dev) : OnlyTim d (wholeSecond d) := by
  unfold wholeSecond
  dsimp only
  repeat' split
  all_goals exact same_refl _

theorem onlyTim_rebase (d : Dev) : OnlyTim d (rebase d) := by
  unfold rebase
  dsimp only
  split
  · exact onlyTim_wholeSecond d
  · exact (onlyTim_wholeSecond d).trans (onlyTim_setTim _ _)

theorem same_limitSlew (d : Dev) (v : Int) :
    SameButReports { d with tim := { d.tim with slew := clampInt (-slewLimit) slewLimit v } } (limitSlew d v) := by
  unfold limitSlew
  dsimp only
  split
  · exact same_refl _
  · exact same_setPen _ _ _

theorem limitSlew_tim (d : Dev) (v : Int) : (limitSlew d v).tim = { d.tim with slew := clampInt (-slewLimit) slewLimit v } :=
  (same_limitSlew d v).tim

theorem onlyTim_limitSlew (d : Dev) (v : Int) : OnlyTim d (limitSlew d v) :=
  (onlyTim_setTim d _).trans (onlyTim_of_same (same_limitSlew d v))

theorem onlyTim_setSlew (d : Dev) (v : Int) : OnlyTim d (setSlew d v) := (onlyTim_rebase d).trans (onlyTim_limitSlew _ _)

theorem onlyTim_fromNextTick (d : Dev) (step slew : Int) : OnlyTim d (fromNextTick d step slew) :=
  ((onlyTim_rebase d).trans (onlyTim_setTim _ _)).trans (onlyTim_limitSlew _ _)

theorem onlyTim_ppsServo (d : Dev) (e : Int) : OnlyTim d (ppsServo d e) := by
  unfold ppsServo
  dsimp only
  repeat' split
  · exact same_refl _
  · exact onlyTim_fromNextTick _ _ _
  · exact (onlyTim_fromNextTick _ _ _).trans (onlyTim_of_same (same_raise _ _ _ _ _ _ _ (by decide)))
  · exact onlyTim_fromNextTick _ _ _

/-! ### What the servo leaves of the timebase -/

/-- What a new base does not change. -/
def servoState (m : Timebase) : Int × Option Int × Bool × Bool := (m.freq, m.lastEdge, m.holdover, m.lost)

theorem servoState_rebase (d : Dev) : servoState (rebase d).tim = servoState d.tim := by
  have crossed : servoState (wholeSecond d).tim = servoState d.tim := by
    unfold wholeSecond
    dsimp only
    repeat' split
    all_goals rfl
  unfold rebase
  dsimp only
  split
  · exact crossed
  · exact crossed

theorem rebase_within {d : Dev} (begun : d.tim.base ≤ d.tick) (ahead : d.tick < nextCrossing d.tim) :
    (rebase d).tim = { d.tim with base := d.tick, frac := fracAt d.tim d.tick } := by
  have stays : wholeSecond d = d := if_pos ahead
  unfold rebase
  dsimp only
  rw [stays, if_neg (by omega)]

/-- The timebase as the tick after the present one finds it, with `step` ns taken off. -/
def fromNext (d : Dev) (step slew : Int) : Timebase :=
  { (rebase d).tim with
    base := d.tick + 1, frac := ((rebase d).tim.frac + todInc (rebase d).tim.slew - step * 4294967296 : Int).toNat
    prior := ((rebase d).tim.sec, (rebase d).tim.frac, (rebase d).tim.slew)
    slew := clampInt (-slewLimit) slewLimit slew }

theorem fromNextTick_tim (d : Dev) (step slew : Int) : (fromNextTick d step slew).tim = fromNext d step slew := limitSlew_tim _ _

/-- A device that runs the servo takes its correction from the next tick on; in STEP mode SLEW is FREQ's. -/
theorem ppsServo_tim (d : Dev) (e : Int) :
    if d.par.role = roleStandby then (ppsServo d e).tim = d.tim
    else ∃ step slew, (ppsServo d e).tim = fromNext d step slew ∧ (d.flag pageTim 0x040 0 = true → slew = d.tim.freq) := by
  unfold ppsServo
  dsimp only
  split
  · rfl
  split
  · refine ⟨e, d.tim.freq, ?_, fun _ => rfl⟩
    split
    · exact fromNextTick_tim _ _ _
    · exact (silent_tim.raise _ _ _ _ _ _ _).trans (fromNextTick_tim _ _ _)
  next tracks => exact ⟨0, _, fromNextTick_tim _ _ _, fun step => absurd step tracks⟩

theorem servoState_ppsServo (d : Dev) (e : Int) : servoState (ppsServo d e).tim = servoState d.tim := by
  have h := ppsServo_tim d e
  split at h
  · rw [h]
  · obtain ⟨step, slew, h, -⟩ := h
    rw [h]
    exact servoState_rebase d

/-- The present tick keeps its time of day when a correction holds from the next one on. -/
theorem todAt_fromNext {d : Dev} (begun : d.tim.base ≤ d.tick) (ahead : d.tick < nextCrossing d.tim) (step slew : Int) :
    todAt (fromNext d step slew) d.tick = todAt d.tim d.tick := by
  unfold todAt fromNext
  rw [rebase_within begun ahead]
  dsimp only
  rw [if_pos (Nat.lt_succ_self _), if_neg (by omega)]

/-! ### An edge of PPS_IN (R614 to R616) -/

theorem ppsIn_soon {d : Dev} {l : Int} (last : d.tim.lastEdge = some l) (soon : (d.tick : Int) < l + 125000000) :
    ppsIn d = setPen (d.count pageTim 0x090) pageTim 2 := by
  unfold ppsIn
  rw [last]
  exact if_pos soon

theorem ppsIn_later {d : Dev} {l : Int} (last : d.tim.lastEdge = some l) (later : l + 125000000 ≤ (d.tick : Int)) :
    ppsIn d = ppsIn.edge (ppsError d).2 (ppsError d).1
      (if d.tim.lost = false ∧ 248000000 ≤ ((d.tick : Int) - l).toNat ∧ ((d.tick : Int) - l).toNat ≤ 252000000 ∧ d.par.role ≠ roleStandby
        then ppsFreq ((d.tick : Int) - l).toNat else d.tim.freq) ((d.tick : Int) - l).toNat := by
  unfold ppsIn
  rw [last]
  dsimp only
  rw [if_neg (by omega)]
  congr 1
  refine if_congr ?_ rfl rfl
  simp only [ppsValid, Bool.and_eq_true, Bool.not_eq_true', decide_eq_true_eq, bne_iff_ne, ne_eq, and_assoc]

theorem ppsError_free (d : Dev) : (ppsError d).2 = { d with free := (ppsError d).2.free } := by
  unfold ppsError
  dsimp only
  repeat' split
  all_goals rfl

/-- The timebase and the words that an edge leaves before the servo acts. -/
def edgeTaken (d : Dev) (e f : Int) (n : Nat) : Dev :=
  ((({ d with tim := { d.tim with freq := f, lastEdge := some (d.tick : Int), holdover := false, lost := false } }
    ).setReg64 pageTim 0x080 d.tick).setReg pageTim 0x088 (unsigned 32 e)).setReg pageTim 0x08C n

/-- What an accepted edge leaves: its words, and but for reports the servo's timebase. -/
theorem edge_taken (d : Dev) (e f : Int) (n : Nat) :
    ∃ x, SameButReports (edgeTaken d e f n) x ∧ ppsIn.edge d e f n = ppsServo x e ∧
      (d.tim.holdover = true → x.pennant pageTim 1 = true) := by
  unfold ppsIn.edge
  dsimp only
  split
  · exact ⟨_, same_raise _ _ _ _ _ _ _ (by decide), rfl, fun _ => pennant_raised _ (by decide) (by decide)⟩
  next off => exact ⟨_, same_refl _, rfl, fun on => absurd on off⟩

/-- A word reads as the device wrote it, whole. -/
theorem setReg_rfld_whole (d : Dev) (p off v : Nat) : (d.setReg p off v).rfld p off 0 32 = v % 2 ^ 32 := by
  rw [Dev.rfld, setReg_read, if_pos rfl, bits_whole]
  exact BitVec.toNat_ofNat v 32

theorem edgeTaken_tick (d : Dev) (e f : Int) (n : Nat) : (edgeTaken d e f n).rfld pageTim 0x080 0 32 = d.tick % 2 ^ 32 := by
  unfold edgeTaken Dev.setReg64
  rw [setReg_rfld_other _ _ _ _ (by decide), setReg_rfld_other _ _ _ _ (by decide), setReg_rfld_other _ _ _ _ (by decide),
    setReg_rfld_whole, Nat.mod_mod]

theorem edgeTaken_period (d : Dev) (e f : Int) (n : Nat) : (edgeTaken d e f n).rfld pageTim 0x08C 0 32 = n % 2 ^ 32 :=
  setReg_rfld_whole _ _ _ _

theorem flag_of_same {d e : Dev} (h : SameButReports d e) {p off : Nat} (b : Nat) (silent : reportWord (wordAddr p off) = false) :
    e.flag p off b = d.flag p off b := by
  rw [Dev.flag, h.regs.inUse _ silent, Dev.flag]

theorem at_flag (s : State) (u b : Nat) {p off : Nat} (silent : reportWord (wordAddr p off) = false) :
    (s.at u).flag p off b = s.dev.flag p off b := by
  rw [Dev.flag, at_inUse s u silent, Dev.flag]

theorem edgeTaken_mode (d : Dev) (e f : Int) (n : Nat) : (edgeTaken d e f n).flag pageTim 0x040 0 = d.flag pageTim 0x040 0 := by
  unfold edgeTaken Dev.setReg64 Dev.flag
  rw [setReg_inUse, if_neg (by decide), setReg_inUse, if_neg (by decide), setReg_inUse, if_neg (by decide), setReg_inUse,
    if_neg (by decide)]

/-- An edge that is taken ends holdover, leaves its words and gives the servo its frequency; where the servo runs, the time of day
of this tick stands, and a correction holds from the next one on. -/
theorem edge_effect (d : Dev) (e f : Int) (n : Nat) :
    let x := ppsIn.edge d e f n
    servoState x.tim = (f, some (d.tick : Int), false, false) ∧
    x.rfld pageTim 0x080 0 32 = d.tick % 2 ^ 32 ∧ x.rfld pageTim 0x08C 0 32 = n % 2 ^ 32 ∧
    (d.tim.holdover = true → x.pennant pageTim 1 = true) ∧
    (d.par.role ≠ roleStandby → d.tim.base ≤ d.tick → d.tick < nextCrossing d.tim →
      x.tim.base = d.tick + 1 ∧ todAt x.tim d.tick = todAt d.tim d.tick ∧
      (d.flag pageTim 0x040 0 = true → x.tim.slew = clampInt (-slewLimit) slewLimit x.tim.freq)) ∧
    SameButReports { d with regs := x.regs, tim := x.tim } x := by
  obtain ⟨y, same, edge, told⟩ := edge_taken d e f n
  dsimp only
  rw [edge]
  have tim : y.tim = { d.tim with freq := f, lastEdge := some (d.tick : Int), holdover := false, lost := false } := same.tim
  have served : OnlyTim y (ppsServo y e) := onlyTim_ppsServo y e
  have state : servoState (ppsServo y e).tim = (f, some (d.tick : Int), false, false) := (servoState_ppsServo y e).trans (by rw [tim]; rfl)
  refine ⟨state, ?_, ?_, fun on => pennant_of_same served (told on), fun runs begun ahead => ?_,
    same_ownRegs (same_trans (same_withTim same _) served)⟩
  · exact (rfld_of_same served _ _ (by decide)).trans ((rfld_of_same same _ _ (by decide)).trans (edgeTaken_tick d e f n))
  · exact (rfld_of_same served _ _ (by decide)).trans ((rfld_of_same same _ _ (by decide)).trans (edgeTaken_period d e f n))
  · have role : y.par.role ≠ roleStandby := by rw [same.par]; exact runs
    have tick : y.tick = d.tick := same.tick
    have h := ppsServo_tim y e
    rw [if_neg role] at h
    obtain ⟨step, slew, h, mode⟩ := h
    have begun' : y.tim.base ≤ y.tick := by rw [tim, tick]; exact begun
    have ahead' : y.tick < nextCrossing y.tim := by rw [tim, tick]; exact ahead
    refine ⟨?_, ?_, fun on => ?_⟩
    · rw [h, ← tick]
      rfl
    · rw [h, ← tick, todAt_fromNext begun' ahead', tim]
      rfl
    · have freq : (ppsServo y e).tim.freq = y.tim.freq := congrArg Prod.fst (servoState_ppsServo y e)
      rw [freq, h, ← mode (by rw [flag_of_same same _ (by decide), edgeTaken_mode]; exact on)]
      rfl

/-! ### Loss of PPS, and the time of day's own moments -/

theorem ppsLost_early {d : Dev} (h : d.tim.lost = true ∨ ∃ l, d.tim.lastEdge = some l ∧ (d.tick : Int) < l + 375000000) :
    ppsLost d = d := by
  unfold ppsLost
  rcases h with lost | ⟨l, last, soon⟩
  · rw [lost]
    rfl
  · rw [last]
    dsimp only
    rw [decide_eq_false (by omega), Bool.not_false, Bool.or_true]
    rfl

/-- PPS that is lost leaves holdover; but on a standby SLEW takes FREQ. -/
theorem ppsLost_effect {d : Dev} (seen : d.tim.lost = false) (late : ∀ l, d.tim.lastEdge = some l → l + 375000000 ≤ (d.tick : Int)) :
    (ppsLost d).tim.lost = true ∧ (ppsLost d).tim.holdover = true ∧ (ppsLost d).pennant pageTim 0 = true ∧
      (d.par.role ≠ roleStandby → (ppsLost d).tim.slew = clampInt (-slewLimit) slewLimit d.tim.freq) ∧ OnlyTim d (ppsLost d) := by
  have due : (match d.tim.lastEdge with | some l => decide (l + 375000000 ≤ (d.tick : Int)) | none => true) = true := by
    split
    next l last => exact decide_eq_true (late l last)
    · rfl
  unfold ppsLost
  extract_lets due' _ d1 d2
  have due' : due' = true := due
  rw [seen, due']
  rw [if_neg (by decide)]
  have served : OnlyTim d1 d2 := by
    dsimp only [d2]
    split
    · exact same_refl _
    · exact onlyTim_setSlew _ _
  have moved : OnlyTim d d2 := (onlyTim_setTim d d1.tim).trans served
  have state : servoState d2.tim = (d.tim.freq, d.tim.lastEdge, true, true) := by
    dsimp only [d2]
    split
    · rfl
    · rw [setSlew, limitSlew_tim]
      exact servoState_rebase d1
  have told : (raise d2 pageTim 0 clsHousekeeping sevWarning 0x0F01 (pay 0 0 0 (unsigned 32 d2.tim.slew))).tim = d2.tim :=
    silent_tim.raise _ _ _ _ _ _ _
  rw [told]
  refine ⟨congrArg (fun m => m.2.2.2) state, congrArg (fun m => m.2.2.1) state, pennant_raised _ (by decide) (by decide),
    fun runs => ?_, moved.trans (onlyTim_of_same (same_raise _ _ _ _ _ _ _ (by decide)))⟩
  dsimp only [d2]
  rw [if_neg (by exact runs), setSlew, limitSlew_tim]

theorem wholeSecond_early {d : Dev} (early : d.tick < nextCrossing d.tim) : wholeSecond d = d := if_pos early

theorem wholeSecond_reached {d : Dev} (reached : nextCrossing d.tim ≤ d.tick) :
    let m := (wholeSecond d).tim
    m.base = nextCrossing d.tim ∧ m.setSeconds = none ∧
    (∀ v, d.tim.setSeconds = some v → m.sec = v ∧ m.secondsValid = true) ∧
    (d.tim.setSeconds = none → m.sec = (d.tim.sec + 1) % 2 ^ 48 ∧ m.secondsValid = d.tim.secondsValid) ∧
    (m.secondsValid = true → d.flag pageTim 0x040 1 = true →
      m.ppsOut = true ∧ m.ppsFall = nextCrossing d.tim + d.fld pageTim 0x044 0 28) ∧
    m.slew = d.tim.slew ∧ m.freq = d.tim.freq := by
  unfold wholeSecond
  dsimp only
  rw [if_neg (by omega)]
  split
  next pulses =>
    refine ⟨rfl, rfl, fun v set => ?_, fun unset => ?_, fun _ _ => ⟨rfl, rfl⟩, rfl, rfl⟩
    · simp [set]
    · simp [unset]
  next quiet =>
    refine ⟨rfl, rfl, fun v set => ?_, fun unset => ?_, fun valid out => absurd (by rw [out, Bool.and_true]; exact valid) quiet, rfl, rfl⟩
    · simp [set]
    · simp [unset]

theorem ppsFall_due {d : Dev} (out : d.tim.ppsOut = true) (due : d.tim.ppsFall ≤ d.tick) :
    ppsFall d = { d with tim := { d.tim with ppsOut := false } } := by
  unfold ppsFall
  rw [out, decide_eq_true due]
  rfl

theorem ppsFall_early {d : Dev} (early : d.tick < d.tim.ppsFall) : ppsFall d = d := by
  unfold ppsFall
  rw [decide_eq_false (by omega), Bool.and_false]
  rfl

/-! ### TIM_SET_SECONDS (R611) -/

theorem mergeWide_elsewhere {f : Dev → Nat → Nat → Nat → Nat → Dev}
    (step : ∀ d p off v m a, a ≠ wordAddr p off → (f d p off v m).regs.read a = d.regs.read a) (d : Dev) {p off : Nat} (v m : Nat)
    (wide : Bool) (ho : off + 4 < 4096) {a : Nat} (other : a / 4096 ≠ p) :
    (Dev.mergeWide f d p off v m wide).regs.read a = d.regs.read a := by
  have apart {o : Nat} (h : o < 4096) : a ≠ wordAddr p o := fun same => other (by rw [same, wordAddr_page h])
  unfold Dev.mergeWide
  dsimp only
  split
  · rw [step _ _ _ _ _ _ (apart ho), step _ _ _ _ _ _ (apart (by omega))]
  · exact step _ _ _ _ _ _ (apart (by omega))

/-- A write of a register of the time page stays on that page. -/
theorem storeWrite_tim_elsewhere (d : Dev) {off : Nat} (r : Reg) (v : Nat) (ho : off + 4 < 4096) {a : Nat} (other : a / 4096 ≠ pageTim) :
    (storeWrite d .tim pageTim off r v).regs.read a = d.regs.read a := by
  have stored := mergeWide_elsewhere (f := Dev.mergeRead) (fun d p off v m a h => (mergeRead_read d p off v m a).trans (if_neg h)) d v
    (storeMask r) r.wide ho other
  have used (d : Dev) := mergeWide_elsewhere (f := Dev.mergeInUse) (fun _ _ _ _ _ _ _ => rfl) d v (liveMask r) r.wide ho other
  unfold storeWrite
  dsimp only
  split
  · exact (used _).trans stored
  · exact stored

theorem timSetSeconds_taken {s : State} {u : Nat} {v : Long} (ok : writeAccepted (s.at u) pageTim 0x048 v.toNat = true) :
    Answers s (.timSetSeconds u v) fun t =>
      t.nv = s.nv ∧ t.dev.tim = { s.dev.tim with setSeconds := some (v.toNat % 2 ^ 48) } ∧
      (∀ a, a / 4096 ≠ pageTim → reportWord a = false → t.dev.regs.read a = s.dev.regs.read a) ∧
      SameButReports { s.at u with regs := t.dev.regs, tim := t.dev.tim } t.dev := by
  obtain ⟨k, r, page, -, write⟩ := withWrite_accepted _ _ _ _ (fun d => setSeconds d v.toNat) ok
  obtain rfl : PageKind.tim = k := Option.some.inj page
  refine answers_mono (answers_timSetSeconds s u v) fun t ⟨nv, same⟩ => ?_
  rw [write] at same
  have only := onlyRegs_storeWrite (s.at u) .tim pageTim 0x048 r v.toNat
  have tim : (storeWrite (s.at u) .tim pageTim 0x048 r v.toNat).tim = s.dev.tim :=
    (tim_of_inner (unregistered_inner.ofOnlyRegs only)).trans (at_tim s u)
  refine ⟨nv, same.tim.trans (by rw [setSeconds, tim]), fun a other silent => ?_, ?_⟩
  · exact (same.regs.read a silent).trans ((storeWrite_tim_elsewhere _ r _ (by decide) other).trans (at_read s u silent))
  · have h := same_ownRegs (onlyTim_of_same same)
    rw [show storeWrite (s.at u) .tim pageTim 0x048 r v.toNat = _ from only] at h
    exact h

/-- Settles O59: an edge too soon is counted, another is taken; PPS is lost without edges; the time of day's moments each
change the timebase alone. -/
theorem timeOfDay : Obligations.TimeOfDay := by
  unfold Obligations.TimeOfDay
  intro s u
  have tim : (s.at u).tim = s.dev.tim := at_tim s u
  have par : (s.at u).par = s.dev.par := at_par s u
  refine ⟨fun on => ⟨fun l last soon => ?_, fun l last later => ?_, fun seen late => ?_, fun h => ?_⟩, fun off => ⟨?_, ?_⟩,
    fun reached => ?_, fun early => ?_, fun out due => ?_, fun early => ?_, fun v ok => timSetSeconds_taken ok⟩
  · refine answers_mono (answers_ppsEdge s u) fun t ⟨nv, same⟩ => ?_
    rw [at_enabled, if_pos on, ppsIn_soon (by rw [tim, last]) soon] at same
    refine ⟨nv, pennant_of_same same (pennant_setPen _ _ (by decide)), ?_⟩
    have counted := same_trans (same_setPen _ _ _) same
    rwa [Dev.count, Dev.addCount, at_rfld s u _ _ (by decide)] at counted
  · refine answers_mono (answers_ppsEdge s u) fun t ⟨nv, same⟩ => ?_
    rw [at_enabled, if_pos on, ppsIn_later (by rw [tim, last]) later, tim, par] at same
    have effect := edge_effect (ppsError (s.at u)).2 (ppsError (s.at u)).1
      (if s.dev.tim.lost = false ∧ 248000000 ≤ (((s.at u).tick : Int) - l).toNat ∧ (((s.at u).tick : Int) - l).toNat ≤ 252000000 ∧
        s.dev.par.role ≠ roleStandby then ppsFreq (((s.at u).tick : Int) - l).toNat else s.dev.tim.freq)
      (((s.at u).tick : Int) - l).toNat
    dsimp only at effect
    generalize ppsIn.edge _ _ _ _ = x at same effect
    rw [ppsError_free] at effect
    dsimp only at effect
    rw [tim, par, ← same.tim] at effect
    obtain ⟨state, tick, period, told, correction, only⟩ := effect
    refine ⟨nv, congrArg (fun m => m.2.1) state, congrArg (fun m => m.2.2.1) state, congrArg (fun m => m.2.2.2) state,
      congrArg (fun m => m.1) state, (rfld_of_same same _ _ (by decide)).trans tick, (rfld_of_same same _ _ (by decide)).trans period,
      fun on => pennant_of_same same (told on), fun runs begun ahead => ?_, ?_⟩
    · obtain ⟨base, tod, slew⟩ := correction runs begun ahead
      exact ⟨base, tod, fun step => slew ((at_flag s u _ (by decide)).trans step)⟩
    · have h := same_ownRegs (same_trans only same)
      rw [← par] at h
      rw [h.free]
      exact h
  · refine answers_mono (answers_ppsLoss s u) fun t ⟨nv, same⟩ => ?_
    rw [at_enabled, if_pos on] at same
    obtain ⟨lost, holdover, told, slew, only⟩ := ppsLost_effect (d := s.at u) (by rw [tim, seen]) (by rwa [tim])
    rw [← same.tim] at lost holdover slew
    rw [par, tim] at slew
    exact ⟨nv, lost, holdover, pennant_of_same same told, slew, same_ownRegs (only.trans (onlyTim_of_same same))⟩
  · have h' := answers_ppsLoss s u
    rwa [at_enabled, if_pos on, ppsLost_early (by rwa [tim])] at h'
  · have h := answers_ppsEdge s u
    rwa [at_enabled, off] at h
  · have h := answers_ppsLoss s u
    rwa [at_enabled, off] at h
  · refine answers_mono (answers_wholeSecondCrossing s u) fun t ⟨nv, same⟩ => ?_
    have effect := wholeSecond_reached (d := s.at u) (by rwa [tim])
    dsimp only at effect
    rw [← same.tim, tim, at_flag s u _ (by decide), at_fld s u _ _ (by decide)] at effect
    obtain ⟨base, set, chosen, next, pulse, slew, freq⟩ := effect
    exact ⟨nv, base, set, chosen, next, pulse, slew, freq, (onlyTim_wholeSecond _).trans (onlyTim_of_same same)⟩
  · have h := answers_wholeSecondCrossing s u
    rwa [wholeSecond_early (by rwa [tim])] at h
  · have h := answers_ppsOutFall s u
    rwa [ppsFall_due (by rwa [tim]) (by rwa [tim]), tim] at h
  · have h := answers_ppsOutFall s u
    rwa [ppsFall_early (by rwa [tim])] at h

end Sys2Proof.Proofs
end

section
/-! Monitors: O60. -/
namespace Sys2Proof.Proofs
open Sys2Proof.Machine Sys2Proof.Laws

/-! ### The largest reading -/

/-- Where the scan of the readings stands: the largest so far, the first sensor that has it, and the number seen. -/
def scan (l : List (BitVec 16)) : (Int × Nat) × Nat :=
  l.foldl (fun (b : (Int × Nat) × Nat) v => (if b.1.1 < v.toInt then (v.toInt, b.2) else b.1, b.2 + 1)) (((-32769 : Int), 0), 0)

theorem scan_snoc (l : List (BitVec 16)) (v : BitVec 16) :
    scan (l ++ [v]) = (if (scan l).1.1 < v.toInt then (v.toInt, (scan l).2) else (scan l).1, (scan l).2 + 1) := by
  unfold scan
  rw [List.foldl_append]
  rfl

theorem scan_seen (l : List (BitVec 16)) : (scan l).2 = l.length := by
  induction l using List.reverseRecOn with
  | nil => rfl
  | append_singleton l v ih => rw [scan_snoc, List.length_append, ← ih]; rfl

theorem le_scan (l : List (BitVec 16)) : ∀ v ∈ l, v.toInt ≤ (scan l).1.1 := by
  induction l using List.reverseRecOn with
  | nil => exact fun _ h => absurd h (List.not_mem_nil)
  | append_singleton l w ih =>
    intro v hv
    rw [scan_snoc]
    rcases List.mem_append.mp hv with old | new
    · have := ih v old
      dsimp only
      split
      · exact Int.le_of_lt (Int.lt_of_le_of_lt this (by assumption))
      · exact this
    · obtain rfl := List.mem_singleton.mp new
      dsimp only
      split
      · exact Int.le_refl _
      · exact Int.not_lt.mp (by assumption)

/-- The scan's largest is a reading, that of the sensor it names, unless there is none. -/
theorem scan_found (l : List (BitVec 16)) :
    l = [] ∧ (scan l).1.1 = -32769 ∨ ∃ v, l[(scan l).1.2]? = some v ∧ v.toInt = (scan l).1.1 := by
  induction l using List.reverseRecOn with
  | nil => exact .inl ⟨rfl, rfl⟩
  | append_singleton l w ih =>
    refine .inr ?_
    rw [scan_snoc]
    dsimp only
    split
    · exact ⟨w, by rw [scan_seen, List.getElem?_concat_length], rfl⟩
    next smaller =>
      rcases ih with ⟨-, low⟩ | ⟨v, found, value⟩
      · have := BitVec.le_toInt w
        omega
      · exact ⟨v, (List.getElem?_append_left (List.getElem?_eq_some_iff.mp found).1).trans found, value⟩

/-- The largest of the readings, as MON_TEMP_MAX takes it. -/
theorem largest_spec (r : Vector (BitVec 16) 24) :
    (∀ i : Fin 24, (r.get i).toInt ≤ (largest r.toList).1) ∧
      ∃ i : Fin 24, (r.get i).toInt = (largest r.toList).1 ∧ (largest r.toList).2 = i.val := by
  refine ⟨fun i => le_scan r.toList _ (List.getElem_mem (l := r.toList) (n := i.val) (by simp)), ?_⟩
  rcases scan_found r.toList with ⟨none, -⟩ | ⟨v, found, value⟩
  · exact absurd (congrArg List.length none) (by simp)
  · obtain ⟨small, rfl⟩ := List.getElem?_eq_some_iff.mp found
    exact ⟨⟨_, by simpa using small⟩, value, rfl⟩

/-! ### A sensor's reading (R621) -/

theorem same_withMon {d e : Dev} (h : SameButReports d e) (x : Monitors) :
    SameButReports { d with mon := x } { e with mon := x } := by
  obtain ⟨_, _, _, _, _, _, _, _, _, _, _, _⟩ := h
  constructor <;> first | rfl | assumption

theorem same_withPar {d e : Dev} (h : SameButReports d e) (x : Par) : SameButReports { d with par := x } { e with par := x } := by
  obtain ⟨_, _, _, _, _, _, _, _, _, _, _, _⟩ := h
  constructor <;> first | rfl | assumption

theorem same_withBoot {d e : Dev} (h : SameButReports d e) (x : Boot) : SameButReports { d with boot := x } { e with boot := x } := by
  obtain ⟨_, _, _, _, _, _, _, _, _, _, _, _⟩ := h
  constructor <;> first | rfl | assumption

theorem same_withRegs {d e : Dev} (h : SameButReports d e) (x : RegFile) : SameButReports { d with regs := x } { e with regs := x } := by
  obtain ⟨_, _, _, _, _, _, _, _, _, _, _, _⟩ := h
  constructor <;> first | exact sameRegs_refl _ | assumption

theorem oneBit_other {i j : Nat} (w : Nat) (other : j ≠ i) : (BitVec.ofNat w (2 ^ i)).getLsbD j = false := by
  rw [BitVec.getLsbD_ofNat, Nat.testBit_two_pow_of_ne (Ne.symm other), Bool.and_false]

theorem setReg_fld_other (d : Dev) {p off : Nat} (v : Nat) {q o : Nat} (lo w : Nat) (h : wordAddr q o ≠ wordAddr p off) :
    (d.setReg p off v).fld q o lo w = d.fld q o lo w := by
  rw [Dev.fld, setReg_inUse, if_neg h]
  rfl

theorem same_ownMon {d e : Dev} (h : SameButReports d e) : SameButReports { d with mon := e.mon } e := by
  have := same_withMon h e.mon
  exact this

/-- But for reports the second device differs from the first in one word and in the monitors. -/
def Shows (off v : Nat) (d e : Dev) : Prop := SameButReports { d.setReg pageMon off v with mon := e.mon } e

theorem shows_raise {d e : Dev} {off v p b cls sev code payload : Nat} (h : e = { d.setReg pageMon off v with mon := e.mon })
    (hc : cls < 8) : Shows off v d (raise e p b cls sev code payload) := by
  have told := same_raise e p b cls sev code payload hc
  rw [Shows, told.mon, ← h]
  exact told

theorem silent_mon : Silent Dev.mon := silent_inner.map Dev.mon

theorem at_mon (s : State) (u : Nat) : (s.at u).mon = s.dev.mon := arrive_mon _ _

/-- A sensor's reading stands in its word; the warning that it may set is its own. -/
theorem sampleSensor_effect (d : Dev) {i : Nat} (v : BitVec 16) :
    Shows (0x060 + 4 * i) v.toNat d (sampleSensor d i v) ∧
    (∀ j, j < 24 → j ≠ i → (sampleSensor d i v).mon.warned.getLsbD j = d.mon.warned.getLsbD j) ∧
    (d.sfld pageMon 0x040 0 16 ≤ v.toInt → d.mon.warned.getLsbD i = false → (sampleSensor d i v).pennant pageMon 0 = true) := by
  unfold sampleSensor
  dsimp only
  split
  · refine ⟨shows_raise rfl (by decide), fun j hj other => ?_, fun _ _ => pennant_raised _ (by decide) (by decide)⟩
    · rw [silent_mon.raise]
      exact (BitVec.getLsbD_or).trans (by rw [oneBit_other 24 other, Bool.or_false]; rfl)
  next calm =>
    have quiet : d.sfld pageMon 0x040 0 16 ≤ v.toInt → d.mon.warned.getLsbD i = false → False :=
      fun warm armed => calm ⟨warm, by rw [armed]; rfl⟩
    split
    · refine ⟨same_refl _, fun j hj other => (BitVec.getLsbD_and).trans ?_, fun warm armed => (quiet warm armed).elim⟩
      rw [BitVec.getLsbD_not, oneBit_other 24 other, decide_eq_true hj]
      exact Bool.and_true _
    · exact ⟨same_refl _, fun _ _ _ => rfl, fun warm armed => (quiet warm armed).elim⟩

/-- What the first `n` sensors have left. -/
structure Scanned (d : Dev) (v : Nat → BitVec 16) (n : Nat) (e : Dev) : Prop where
  only : SameButReports { d with regs := e.regs, mon := e.mon } e
  limits : e.fld pageMon 0x040 0 16 = d.fld pageMon 0x040 0 16
  shown : ∀ i, i < n → e.rfld pageMon (0x060 + 4 * i) 0 32 = (v i).toNat
  ahead : ∀ i, n ≤ i → i < 24 → e.mon.warned.getLsbD i = d.mon.warned.getLsbD i
  told : ∀ i, i < n → d.sfld pageMon 0x040 0 16 ≤ (v i).toInt → d.mon.warned.getLsbD i = false → e.pennant pageMon 0 = true

theorem monWord_silent {off : Nat} (ho : off < 4096) (pen : off ≠ 0x010) : reportWord (wordAddr pageMon off) = false := by
  have page : wordAddr pageMon off / 4096 = pageMon := wordAddr_page ho
  have place : wordAddr pageMon off % 4096 = off := wordAddr_offset ho
  simp only [reportWord, page, place, Bool.or_eq_false_iff, Bool.and_eq_false_iff, beq_eq_false_iff_ne, decide_eq_false_iff_not]
  simp only [wordAddr, pageEvq, pageMon]
  omega

theorem pennant_setReg (d : Dev) {p off v q b : Nat} (pen : off ≠ 0x010) (ho : off < 4096) :
    (d.setReg p off v).pennant q b = d.pennant q b := by
  rw [Dev.pennant, setReg_read, if_neg]
  · rfl
  · unfold wordAddr
    omega

theorem Scanned.next {d e : Dev} {v : Nat → BitVec 16} {n : Nat} (h : Scanned d v n e) (hn : n < 24) :
    Scanned d v (n + 1) (sampleSensor e n (v n)) := by
  obtain ⟨shows, others, warns⟩ := sampleSensor_effect e (i := n) (v n)
  have apart {i : Nat} (hi : i < n) : wordAddr pageMon (0x060 + 4 * i) ≠ wordAddr pageMon (0x060 + 4 * n) := by
    unfold wordAddr
    omega
  refine ⟨same_trans (same_withMon (same_withRegs h.only _) _) (same_ownRegs shows), ?_, fun i hi => ?_, fun i hi small => ?_,
      fun i hi warm armed => ?_⟩
  · rw [fld_of_same shows _ _ (by decide), ← h.limits]
    exact setReg_fld_other e _ _ _ (by unfold wordAddr; omega)
  · rcases Nat.lt_succ_iff_lt_or_eq.mp hi with old | rfl
    · rw [rfld_of_same shows _ _ (monWord_silent (by omega) (by omega))]
      exact (setReg_rfld_other _ _ _ _ (apart old)).trans (h.shown i old)
    · rw [rfld_of_same shows _ _ (monWord_silent (by omega) (by omega))]
      exact setReg_rfld_own _ _ _ (by omega)
  · exact (others i small (by omega)).trans (h.ahead i (by omega) small)
  · rcases Nat.lt_succ_iff_lt_or_eq.mp hi with old | rfl
    · refine pennant_of_same shows ?_
      exact (pennant_setReg e (by omega) (by omega)).trans (h.told i old warm armed)
    · refine warns ?_ ((h.ahead i (Nat.le_refl _) hn).trans armed)
      rw [Dev.sfld, h.limits]
      exact warm

theorem scanned (d : Dev) (v : Nat → BitVec 16) : Scanned d v 24 (upto 24 (fun d i => sampleSensor d i (v i)) d) :=
  upto_induct (fun n e => Scanned d v n e)
    ⟨same_refl _, rfl, fun i hi => absurd hi (Nat.not_lt_zero i), fun _ _ _ => rfl, fun i hi => absurd hi (Nat.not_lt_zero i)⟩
    fun _ _ hn h => h.next hn

/-! ### Critical temperature (R622) -/

/-- The device as a critical temperature leaves it by its role, reports aside. -/
def criticalState (d : Dev) : Dev :=
  if d.pairHolder then { d with par := { d.par with yieldAfter := true } }
  else if d.par.role = roleStandby then { d with boot := { d.boot with haltAt := some (d.cycle + 1) } }
  else d

theorem criticalState_effect (d : Dev) :
    (criticalState d).tick = d.tick ∧ (criticalState d).heats = d.heats ∧ (criticalState d).mould = d.mould ∧
    (criticalState d).regs = d.regs ∧ (criticalState d).stp = d.stp ∧
    (d.pairHolder = true → (criticalState d).par = { d.par with yieldAfter := true } ∧ (criticalState d).boot = d.boot) ∧
    (d.par.role = roleStandby → (criticalState d).par = d.par ∧
      (criticalState d).boot = { d.boot with haltAt := some (d.cycle + 1) }) := by
  unfold criticalState
  split
  next holds =>
    refine ⟨rfl, rfl, rfl, rfl, rfl, fun _ => ⟨rfl, rfl⟩, fun standby => ?_⟩
    rw [Dev.pairHolder, Dev.holds, standby] at holds
    cases holds
  next other =>
    split
    · exact ⟨rfl, rfl, rfl, rfl, rfl, fun holds => absurd holds other, fun _ => ⟨rfl, rfl⟩⟩
    next apart => exact ⟨rfl, rfl, rfl, rfl, rfl, fun holds => absurd holds other, fun standby => absurd standby apart⟩

theorem tempCritical_effect (d : Dev) (sensor : Nat) (t : Int) :
    SameButReports (criticalState d) (tempCritical d sensor t) ∧ (tempCritical d sensor t).pennant pageMon 1 = true := by
  have same (action : Nat) : SameButReports d (raise d pageMon 1 clsSafety sevCritical 0x0F05 (pay sensor action (unsigned 16 t) 0)) :=
    same_raise _ _ _ _ _ _ _ (by decide)
  have told (action : Nat) : (raise d pageMon 1 clsSafety sevCritical 0x0F05 (pay sensor action (unsigned 16 t) 0)).pennant pageMon 1 = true :=
    pennant_raised _ (by decide) (by decide)
  unfold tempCritical criticalState
  dsimp only
  split
  · rw [if_pos rfl, (same 0).par]
    exact ⟨same_withPar (same 0) _, told 0⟩
  split
  · rw [if_neg (by decide), if_pos rfl, (same 1).boot]
    exact ⟨same_withBoot (same 1) _, told 1⟩
  · rw [if_neg (by decide), if_neg (by decide)]
    exact ⟨same 2, told 2⟩

/-! ### HALTED (R476, R623) -/

/-- What the way into HALTED leaves of time, heats and mould, and of the words of other pages than PAR. -/
structure Spared (d e : Dev) : Prop where
  tick : e.tick = d.tick
  heats : e.heats = d.heats
  mould : e.mould = d.mould
  words : ∀ a, a / 4096 ≠ pagePar → reportWord a = false → e.regs.read a = d.regs.read a
  pens : ∀ p b, p ≠ pagePar → d.pennant p b = true → e.pennant p b = true

theorem Spared.trans {a b c : Dev} (h : Spared a b) (k : Spared b c) : Spared a c :=
  ⟨k.tick.trans h.tick, k.heats.trans h.heats, k.mould.trans h.mould,
    fun x page silent => (k.words x page silent).trans (h.words x page silent), fun p b page pen => k.pens p b page (h.pens p b page pen)⟩

theorem sparedHalt_of_same {d e : Dev} (h : SameButReports d e) : Spared d e :=
  ⟨h.tick, h.heats, h.mould, fun a _ silent => h.regs.read a silent, fun _ _ _ pen => pennant_of_same h pen⟩

theorem spared_setRole (d : Dev) (role : Nat) (cause : Option Nat) : Spared d (setRole d role cause) := by
  have parReg (d : Dev) (off v : Nat) (ho : off < 4096) (pen : off ≠ 0x010) : Spared d (d.setReg pagePar off v) :=
    ⟨rfl, rfl, rfl, fun a page _ => setReg_read_page d ho page, fun p b _ h => (pennant_setReg d pen ho).trans h⟩
  have stamp (d : Dev) (v : Nat) : Spared d (d.setReg64 pagePar 0x090 v) :=
    (parReg d 0x090 _ (by decide) (by decide)).trans (parReg _ 0x094 _ (by decide) (by decide))
  have record (d : Dev) : Spared d (pairRecord d 0 cause none) :=
    Spared.trans (b := { d with free := (pairRecord d 0 cause none).free }) ⟨rfl, rfl, rfl, fun _ _ _ => rfl, fun _ _ _ h => h⟩
      (sparedHalt_of_same (same_pairRecord d 0 cause none (by decide)))
  have entered : Spared d { d with par := { d.par with role := role } } := ⟨rfl, rfl, rfl, fun _ _ _ => rfl, fun _ _ _ h => h⟩
  unfold setRole
  split
  · exact sparedHalt_of_same (same_refl d)
  · exact (entered.trans (stamp _ _)).trans (record _)

theorem spared_halt (d : Dev) : Spared d (halt d) := by
  unfold halt watchdogOutputs
  dsimp only
  refine Spared.trans ?_ (spared_setRole _ _ _)
  rw [stopSteppers_frame]
  exact ⟨rfl, rfl, rfl, fun _ _ _ => rfl, fun _ _ _ h => h⟩

theorem halt_stops (d : Dev) : (halt d).par.role = roleHalted ∧ (halt d).boot.healthOut = false ∧ (halt d).stp.moves = [] := by
  by_cases role : d.par.role = roleHalted
  · have stays : (watchdogOutputs d).par.role = roleHalted := by
      unfold watchdogOutputs
      rw [stopSteppers_frame]
      exact role
    unfold halt setRole
    dsimp only
    rw [if_pos stays]
    exact ⟨stays, rfl, rfl⟩
  · obtain ⟨halted, health, moves, -⟩ := halt_effect d role
    exact ⟨halted, health, moves⟩

/-! ### The sample -/

/-- The device with the readings and the largest of them in their words. -/
def readingsShown (d : Dev) (r : Vector (BitVec 16) 24) : Dev :=
  (upto 24 (fun d i => sampleSensor d i (r.toList.getD i 0)) d).setReg pageMon 0x0C0
    (unsigned 16 (largest r.toList).1 + (largest r.toList).2 <<< 16)

/-- The device after the critical limit is checked. -/
def criticalChecked (d : Dev) (r : Vector (BitVec 16) 24) : Dev :=
  let e := readingsShown d r
  let crit := decide (d.sfld pageMon 0x040 16 16 ≤ (largest r.toList).1)
  let e := { e with mon := { e.mon with crit := crit } }
  if crit && !d.mon.crit then tempCritical e (largest r.toList).2 (largest r.toList).1 else e

theorem sampleTemperatures_due {d : Dev} (r : Vector (BitVec 16) 24) (on : d.enabled pageMon = true) (cycle : d.cycle % 20 = 0)
    (start : d.tick % 1250 = 0) :
    sampleTemperatures d r = if d.sfld pageMon 0x044 0 16 ≤ (largest r.toList).1 then halt (criticalChecked d r) else criticalChecked d r := by
  unfold sampleTemperatures
  rw [on, cycle, start]
  rfl

theorem sampleTemperatures_idle {d : Dev} (r : Vector (BitVec 16) 24)
    (h : d.enabled pageMon = false ∨ d.cycle % 20 ≠ 0 ∨ d.tick % 1250 ≠ 0) : sampleTemperatures d r = d := by
  unfold sampleTemperatures
  rw [if_neg]
  rintro due
  simp only [Bool.and_eq_true, beq_iff_eq] at due
  obtain ⟨⟨on, cycle⟩, start⟩ := due
  rcases h with off | h | h
  · rw [on] at off
    cases off
  · exact h cycle
  · exact h start

theorem reading_getD (r : Vector (BitVec 16) 24) (i : Fin 24) : r.toList.getD i.val 0 = r.get i := by
  have small : i.val < r.toList.length := by simp
  rw [List.getD_eq_getElem?_getD, List.getElem?_eq_getElem small]
  rfl

theorem signed_unsigned_16 {x : Int} (lo : -32768 ≤ x) (hi : x < 32768) : signed 16 (unsigned 16 x) = x := by
  unfold signed unsigned
  norm_num
  split <;> omega

/-- MON_TEMP_MAX as a read takes it apart. -/
theorem maxWord_fields {x : Int} {n : Nat} (small : n < 2 ^ 16) :
    bits (word (unsigned 16 x + n <<< 16)).toNat 0 16 = unsigned 16 x ∧ bits (word (unsigned 16 x + n <<< 16)).toNat 16 16 = n := by
  have low : unsigned 16 x < 65536 := by
    unfold unsigned
    norm_num
    omega
  simp only [bits, word, BitVec.toNat_ofNat, Nat.shiftRight_eq_div_pow, Nat.shiftLeft_eq]
  omega

theorem readingsShown_reading (d : Dev) (r : Vector (BitVec 16) 24) (i : Fin 24) :
    (readingsShown d r).rfld pageMon (0x060 + 4 * i.val) 0 32 = (r.get i).toNat := by
  unfold readingsShown
  rw [setReg_rfld_other _ _ _ _ (by unfold wordAddr; omega), (scanned d _).shown i.val i.isLt, reading_getD]

theorem readingsShown_max (d : Dev) (r : Vector (BitVec 16) 24) :
    signed 16 ((readingsShown d r).rfld pageMon 0x0C0 0 16) = (largest r.toList).1 ∧
      (readingsShown d r).rfld pageMon 0x0C0 16 16 = (largest r.toList).2 := by
  obtain ⟨-, i, value, index⟩ := largest_spec r
  obtain ⟨low, high⟩ := maxWord_fields (x := (largest r.toList).1) (n := (largest r.toList).2) (by omega)
  have := BitVec.le_toInt (r.get i)
  have := BitVec.toInt_lt (x := r.get i)
  unfold readingsShown
  rw [Dev.rfld, Dev.rfld, setReg_read, if_pos rfl, low, high, signed_unsigned_16 (by omega) (by omega)]
  exact ⟨rfl, rfl⟩

theorem Scanned.rest {d e : Dev} {v : Nat → BitVec 16} {n : Nat} (h : Scanned d v n e) (off x : Nat) :
    let y := e.setReg pageMon off x
    y.par = d.par ∧ y.boot = d.boot ∧ y.stp = d.stp ∧ y.tick = d.tick ∧ y.heats = d.heats ∧ y.mould = d.mould :=
  ⟨h.only.par, h.only.boot, h.only.stp, h.only.tick, h.only.heats, h.only.mould⟩

theorem readingsShown_rest (d : Dev) (r : Vector (BitVec 16) 24) :
    (readingsShown d r).par = d.par ∧ (readingsShown d r).boot = d.boot ∧ (readingsShown d r).stp = d.stp ∧
      (readingsShown d r).tick = d.tick ∧ (readingsShown d r).heats = d.heats ∧ (readingsShown d r).mould = d.mould := by
  unfold readingsShown
  exact (scanned d _).rest _ _

theorem readingsShown_warns {d : Dev} {r : Vector (BitVec 16) 24} {i : Fin 24} (warm : d.sfld pageMon 0x040 0 16 ≤ (r.get i).toInt)
    (armed : d.mon.warned.getLsbD i.val = false) : (readingsShown d r).pennant pageMon 0 = true := by
  unfold readingsShown
  refine (pennant_setReg _ (by decide) (by decide)).trans ((scanned d _).told i.val i.isLt ?_ armed)
  rw [reading_getD]
  exact warm

/-- The critical limit checked leaves the readings' words; the actions stand where it was passed anew. -/
theorem criticalChecked_effect (d : Dev) (r : Vector (BitVec 16) 24) :
    Spared (readingsShown d r) (criticalChecked d r) ∧ (criticalChecked d r).stp = d.stp ∧
    (d.sfld pageMon 0x040 16 16 ≤ (largest r.toList).1 → d.mon.crit = false →
      (criticalChecked d r).pennant pageMon 1 = true ∧
      (d.pairHolder = true → (criticalChecked d r).par = { d.par with yieldAfter := true } ∧ (criticalChecked d r).boot = d.boot) ∧
      (d.par.role = roleStandby → (criticalChecked d r).par = d.par ∧
        (criticalChecked d r).boot = { d.boot with haltAt := some (d.cycle + 1) })) ∧
    ((largest r.toList).1 < d.sfld pageMon 0x040 16 16 → (criticalChecked d r).par = d.par ∧ (criticalChecked d r).boot = d.boot) := by
  obtain ⟨par, boot, stp, tick, -⟩ := readingsShown_rest d r
  unfold criticalChecked
  generalize readingsShown d r = e at *
  dsimp only
  split
  next passed =>
    rw [Bool.and_eq_true, decide_eq_true_eq] at passed
    obtain ⟨same, told⟩ := tempCritical_effect
      { e with mon := { e.mon with crit := decide (d.sfld pageMon 0x040 16 16 ≤ (largest r.toList).1) } } (largest r.toList).2
      (largest r.toList).1
    generalize tempCritical _ _ _ = y at same told ⊢
    obtain ⟨sTick, sHeats, sMould, sRegs, sStp, holds, standby⟩ := criticalState_effect
      { e with mon := { e.mon with crit := decide (d.sfld pageMon 0x040 16 16 ≤ (largest r.toList).1) } }
    have kept : Spared e y :=
      Spared.trans ⟨sTick, sHeats, sMould, fun a _ _ => congrArg (fun f => f.read a) sRegs,
        fun p b _ pen => by rw [Dev.pennant, sRegs]; exact pen⟩ (sparedHalt_of_same same)
    refine ⟨kept, (same.stp.trans sStp).trans stp, fun _ _ => ⟨told, fun holder => ?_, fun role => ?_⟩, fun cool => ?_⟩
    · obtain ⟨p, b⟩ := holds (by rw [Dev.pairHolder, Dev.holds, par]; exact holder)
      exact ⟨(same.par.trans p).trans (by rw [par]), (same.boot.trans b).trans boot⟩
    · obtain ⟨p, b⟩ := standby (by rw [par]; exact role)
      exact ⟨(same.par.trans p).trans par, (same.boot.trans b).trans (by rw [boot, Dev.cycle, tick]; rfl)⟩
    · omega
  next calm =>
    refine ⟨⟨rfl, rfl, rfl, fun _ _ _ => rfl, fun _ _ _ h => h⟩, stp, fun hot new => absurd ?_ calm, fun _ => ⟨par, boot⟩⟩
    rw [new, decide_eq_true hot]
    rfl

theorem sampled_spared {d : Dev} (r : Vector (BitVec 16) 24) (on : d.enabled pageMon = true) (cycle : d.cycle % 20 = 0)
    (start : d.tick % 1250 = 0) : Spared (criticalChecked d r) (sampleTemperatures d r) := by
  rw [sampleTemperatures_due r on cycle start]
  split
  · exact spared_halt _
  · exact sparedHalt_of_same (same_refl _)

/-! ### Ring oscillators (R621) -/

theorem oscillatorCount_early {d : Dev} {k : Nat} (freq : Nat)
    (h : d.enabled pageMon = false ∨ d.cycle < d.mon.oscDue.get (same 0) k) : oscillatorCount d k freq = d := by
  unfold oscillatorCount oscillatorDue
  rw [if_neg]
  rw [Bool.and_eq_true, decide_eq_true_eq]
  rintro ⟨on, due⟩
  rcases h with off | early
  · rw [on] at off
    cases off
  · omega

theorem oscillatorCount_due {d : Dev} {k : Nat} (freq : Nat) (on : d.enabled pageMon = true)
    (due : d.mon.oscDue.get (same 0) k ≤ d.cycle) :
    Shows (0x180 + 4 * k) (freq % 2 ^ 24) d (oscillatorCount d k freq) ∧
      (oscillatorCount d k freq).mon.oscDue = d.mon.oscDue.set (same 0) k (d.cycle + 200000) ∧
      (freq % 2 ^ 24 < d.fld pageMon 0x1A0 0 24 → d.mon.slow.getLsbD k = false → (oscillatorCount d k freq).pennant pageMon 4 = true) := by
  have counts : oscillatorDue d k = true := by
    rw [oscillatorDue, on, decide_eq_true due]
    rfl
  unfold oscillatorCount
  rw [if_pos counts]
  dsimp only
  split
  · refine ⟨shows_raise rfl (by decide), ?_, fun _ _ => pennant_raised _ (by decide) (by decide)⟩
    rw [silent_mon.raise]
    rfl
  next quick =>
    have slow : (freq % 2 ^ 24 < d.fld pageMon 0x1A0 0 24 → d.mon.slow.getLsbD k = false → False) :=
      fun low new => quick ⟨by omega, low, new⟩
    exact ⟨same_refl _, rfl, fun low new => (slow low new).elim⟩

/-- Settles O60: the readings and the largest stand in their words, and each limit has its action by the role; an oscillator's
count stands in its own. -/
theorem monitors : Obligations.Monitors := by
  unfold Obligations.Monitors
  refine ⟨fun s r => ⟨fun on cycle start => ?_, fun h => ?_⟩, fun s u k count => ⟨fun on due => ?_, fun h => ?_⟩⟩
  · refine answers_mono (answers_temperatureSample s r) fun t ⟨nv, same⟩ => ?_
    obtain ⟨most, top, value, index⟩ := largest_spec r
    obtain ⟨checked, stp, acts, rests⟩ := criticalChecked_effect s.now r
    obtain ⟨-, -, -, tick, heats, mould⟩ := readingsShown_rest s.now r
    have below : (∀ i : Fin 24, (r.get i).toInt < s.dev.sfld pageMon 0x044 0 16) → SameButReports (criticalChecked s.now r) t.dev := by
      intro cool
      rw [sampleTemperatures_due (d := s.now) r on cycle start,
          if_neg (by have := cool top; rw [value] at this; exact Int.not_le.mpr this)] at same
      exact same
    have last := (sampled_spared (d := s.now) r on cycle start).trans (sparedHalt_of_same same)
    have all := checked.trans last
    have word {off : Nat} (lo w : Nat) (ho : off < 4096) (pen : off ≠ 0x010) :
        t.dev.rfld pageMon off lo w = (readingsShown s.now r).rfld pageMon off lo w := by
      rw [Dev.rfld, all.words _ (by rw [wordAddr_page ho]; decide) (monWord_silent ho pen), Dev.rfld]
    obtain ⟨shownMax, shownIndex⟩ := readingsShown_max s.now r
    rw [← word 0 16 (by decide) (by decide)] at shownMax
    rw [← word 16 16 (by decide) (by decide)] at shownIndex
    refine ⟨nv, fun i => (word _ _ (by omega) (by omega)).trans (readingsShown_reading s.now r i), fun i => by rw [shownMax]; exact most i,
      ⟨top, by rw [shownMax]; exact value, shownIndex.trans index⟩, ?_, ?_, ?_, fun cool => ?_, all.tick.trans tick, all.heats.trans heats,
      all.mould.trans mould⟩
    · rintro ⟨i, warm, armed⟩
      exact all.pens _ _ (by decide) (readingsShown_warns (d := s.now) warm armed)
    · rintro ⟨i, hot⟩
      rw [sampleTemperatures_due (d := s.now) r on cycle start, if_pos (by exact Int.le_trans hot (most i))] at same
      rw [same.par, same.boot, same.stp]
      exact halt_stops _
    · rintro ⟨i, hot⟩ new
      obtain ⟨told, holds, standby⟩ := acts (Int.le_trans hot (most i)) new
      refine ⟨last.pens _ _ (by decide) told, fun cool => ?_⟩
      have same := below cool
      rw [same.par, same.boot]
      exact ⟨holds, standby⟩
    · have same := below fun i => (cool i).1
      rw [same.par, same.boot, same.stp]
      obtain ⟨par, boot⟩ := rests (by rw [← value]; exact (cool top).2)
      exact ⟨par, boot, stp⟩
  · have run := answers_temperatureSample s r
    rwa [sampleTemperatures_idle r (d := s.now) h] at run
  · obtain ⟨shows, next, slow⟩ := oscillatorCount_due (d := s.at u) count.toNat (by rw [at_enabled, on])
      (by rwa [at_mon])
    refine answers_mono (answers_ringOscCount s u k count) fun t ⟨nv, same⟩ => ⟨nv, ?_, ?_, fun low new => ?_, ?_⟩
    · rw [same.mon, next, get_set, if_pos rfl]
    · rw [rfld_of_same same _ _ (monWord_silent (by omega) (by omega)), rfld_of_same shows _ _ (monWord_silent (by omega) (by omega))]
      exact setReg_rfld_own _ _ _ (by omega)
    · exact pennant_of_same same (slow (by rwa [at_fld s u _ _ (by decide)]) (by rwa [at_mon]))
    · exact same_ownRegs (same_trans (same_withMon shows t.dev.mon) (same_ownMon same))
  · have run := answers_ringOscCount s u k count
    rwa [oscillatorCount_early _ (by rwa [at_enabled, at_mon])] at run

end Sys2Proof.Proofs
end

section
/-! The recorder's own commands: O58. -/
namespace Sys2Proof.Proofs
open Sys2Proof.Machine Sys2Proof.Laws

/-! ### Hoists (R594 to R599) -/

/-- With no trigger waiting the recorder is as it was when a command arrives. -/
theorem at_recorder {s : State} (u : Nat) (quiet : s.dev.recorder.triggers = []) : (s.at u).recorder = s.dev.recorder := by
  have none : s.now.recorder.triggers.isEmpty = true := List.isEmpty_iff.mpr quiet
  unfold State.at Dev.arrive Dev.advance
  rw [none]
  split <;> rfl

theorem toNat_ofNat_mod (v : Nat) {k n : Nat} (h : n ≤ k) : (BitVec.ofNat k v).toNat % 2 ^ n = v % 2 ^ n := by
  rw [BitVec.toNat_ofNat, Nat.mod_mod_of_dvd _ (pow_dvd_pow 2 h)]

/-- The first 16 bytes of a hoist hold its tick, serial number, source, bit and kind (R597). -/
theorem hoistRecord_head (d : Dev) {source bitNo kind : Nat} (tick : Nat) (vals : List Nat) :
    (hoistRecord d tick source bitNo kind vals).toNat % 2 ^ 128 = (tick % 2 ^ 64 + d.recorder.serial.toNat * 2 ^ 64 + source * 2 ^ 96 +
      bitNo * 2 ^ 112 + kind * 2 ^ 120) % 2 ^ 128 := by
  have body (a : Nat × Nat) :
      (vals.foldl (fun (a : Nat × Nat) v => (a.1 + atByte (32 + 4 * a.2) v, a.2 + 1)) a).1 % 2 ^ 128 = a.1 % 2 ^ 128 := by
    induction vals generalizing a with
    | nil => rfl
    | cons v vals ih =>
      rw [List.foldl_cons, ih]
      have far : atByte (32 + 4 * a.2) v = 2 ^ 128 * (2 ^ (128 + 32 * a.2) * v) := by
        rw [atByte, Nat.shiftLeft_eq, ← Nat.mul_assoc, ← pow_add, Nat.mul_comm]
        congr 2
        omega
      dsimp only
      rw [far, Nat.add_mul_mod_self_left]
  unfold hoistRecord
  dsimp only
  rw [toNat_ofNat_mod _ (show 128 ≤ 768 by decide), body]
  simp only [atByte, Nat.shiftLeft_eq]
  omega

/-- A field among the low `k` bits is one of the number's remainder. -/
theorem bits_mod {v lo w k : Nat} (inside : lo + w ≤ k) : bits (v % 2 ^ k) lo w = bits v lo w := by
  refine Nat.eq_of_testBit_eq fun i => ?_
  rw [testBit_bits, testBit_bits, Nat.testBit_mod_two_pow]
  by_cases hi : i < w
  · rw [decide_eq_true (show lo + i < k by omega), Bool.true_and]
  · rw [decide_eq_false hi, Bool.false_and, Bool.false_and]

theorem hoistRecord_fields (d : Dev) {source bitNo kind : Nat} (tick : Nat) (vals : List Nat) (hs : source < 2 ^ 16) (hb : bitNo < 2 ^ 8)
    (hk : kind < 2 ^ 8) :
    let h := hoistRecord d tick source bitNo kind vals
    byteField h 0 8 = tick % 2 ^ 64 ∧ byteField h 8 4 = d.recorder.serial.toNat ∧ byteField h 12 2 = source ∧
      byteField h 14 1 = bitNo ∧ byteField h 15 1 = kind := by
  have head := hoistRecord_head d (source := source) (bitNo := bitNo) (kind := kind) tick vals
  have serial := d.recorder.serial.isLt
  have field {o n : Nat} (inside : 8 * o + 8 * n ≤ 128) : byteField (hoistRecord d tick source bitNo kind vals) o n =
      bits ((tick % 2 ^ 64 + d.recorder.serial.toNat * 2 ^ 64 + source * 2 ^ 96 + bitNo * 2 ^ 112 + kind * 2 ^ 120) % 2 ^ 128) (8 * o) (8 * n) := by
    rw [← head, bits_mod inside]
    rfl
  dsimp only
  rw [field (by decide), field (by decide), field (by decide), field (by decide), field (by decide)]
  simp only [bits, Nat.shiftRight_eq_div_pow]
  omega

/-- A log with room for more than one hoist takes it, and no trigger follows. -/
theorem writeHoist_room {d : Dev} (room : d.recorder.log.length + 1 < log2Cap d) (tick source bitNo kind : Nat) (vals : List Nat) :
    writeHoist d tick source bitNo kind vals = { d with recorder := { d.recorder with
      log := hoistRecord d tick source bitNo kind vals :: d.recorder.log, serial := d.recorder.serial + 1 } } := by
  unfold writeHoist
  dsimp only
  rw [if_neg (by omega), if_neg (by omega)]

theorem writeHoist_full {d : Dev} (full : log2Cap d ≤ d.recorder.log.length) (tick source bitNo kind : Nat) (vals : List Nat) :
    writeHoist d tick source bitNo kind vals = missFull d := if_pos full

/-- The hoist of a trigger that opens its clock. -/
theorem captureTrigger_opens {d : Dev} {t : Trigger} (opens : d.recorder.clock ≠ t.tick) : ∃ vals,
    captureTrigger d t = writeHoist { d with
      tick := t.tick + 1
      recorder := { d.recorder with clock := t.tick, captured := 1 } } t.tick t.page t.bit t.kind vals := by
  unfold captureTrigger
  dsimp only
  rw [if_neg opens, if_pos (by decide)]
  exact ⟨_, rfl⟩

theorem captureRound_idle {d : Dev} (none : d.recorder.triggers = []) (k : Nat) : captureRound k d = d := by
  unfold captureRound
  rw [none]
  obtain ⟨_, _, _, _, recorder⟩ := d
  cases recorder
  cases none
  rfl

/-- One trigger that waits is captured in the first round, and where no other rises the next rounds rest. -/
theorem advance_one {d : Dev} {t : Trigger} {k : Nat} (one : d.recorder.triggers = [t]) (due : t.tick < k) (later : d.tick < k)
    (quiet : (captureTrigger { d with recorder := { d.recorder with triggers := [] } } t).recorder.triggers = []) :
    (d.advance k).recorder = (captureTrigger { d with recorder := { d.recorder with triggers := [] } } t).recorder := by
  have first : captureRound k d =
      { captureTrigger { d with recorder := { d.recorder with triggers := [] } } t with tick := d.tick } := by
    unfold captureRound
    rw [one]
    simp only [List.filter_cons, decide_eq_true due, Bool.not_true, List.filter_nil, if_true, Bool.false_eq_true, if_false]
    rfl
  generalize captureTrigger _ t = e at quiet first ⊢
  have rest : captureRound k { e with tick := d.tick } = { e with tick := d.tick } :=
    captureRound_idle (d := { e with tick := d.tick }) quiet k
  unfold Dev.advance
  rw [if_pos later, one, first, rest, rest]
  rfl

/-! ### Writes of the recorder's command registers -/

/-- REC_MANUAL. -/
def manualReg : Reg := ⟨0x044, 0, 1, [wo 0 1 .live 0 [], wo 1 1 .live 0 []]⟩
/-- REC_AUTH_CMD. -/
def authReg : Reg := ⟨0x054, 0, 1, [wo 0 2 .live 0 [(1, 2)]]⟩

theorem manualReg_found : PageKind.recd.reg? 0x044 = some manualReg := by decide
theorem authReg_found : PageKind.recd.reg? 0x054 = some authReg := by decide

/-- A device whose registers alone differ, and those in one word of the recorder's page at `off`. -/
structure Beside (off : Nat) (d e : Dev) : Prop where
  only : OnlyRegs d e
  read : ∀ a, a ≠ wordAddr pageRec off → e.regs.read a = d.regs.read a
  inUse : ∀ a, a ≠ wordAddr pageRec off → e.regs.inUse a = d.regs.inUse a

theorem beside_stored (d : Dev) (off : Nat) (r : Reg) (v : Nat) : Beside off d (stored d pageRec off r v) :=
  ⟨onlyRegs_stored _ _ _ _ _, fun a h => (stored_read _ _ _ _ _ a).trans (if_neg h), fun a h => (stored_inUse _ _ _ _ _ a).trans (if_neg h)⟩

/-- An accepted write of 1 or 2 to a command register of the recorder has its effect beside that word. -/
theorem withWrite_recorder {d : Dev} {off v : Nat} {r : Reg} (f : Dev → Dev) (small : v < 2 ^ 32)
    (ok : writeAccepted d pageRec off v = true)
    (hr : PageKind.recd.reg? off = some r) (narrow : r.wide = false) : ∃ e, Beside off d e ∧ withWrite d pageRec off v f = f e := by
  have value : (word v).toNat = v := toNat_word small
  refine ⟨_, beside_stored d off r v, ?_⟩
  have h := withWrite_stores (v := word v) (k := .recd) f (by rwa [value]) rfl hr rfl rfl narrow
  rwa [value] at h

section
variable {off : Nat} {d e : Dev} (h : Beside off d e)
include h

theorem Beside.fld {q o : Nat} (lo w : Nat) (other : wordAddr q o ≠ wordAddr pageRec off) : e.fld q o lo w = d.fld q o lo w := by
  rw [Dev.fld, h.inUse _ other, Dev.fld]

theorem Beside.rfld {q o : Nat} (lo w : Nat) (other : wordAddr q o ≠ wordAddr pageRec off) : e.rfld q o lo w = d.rfld q o lo w := by
  rw [Dev.rfld, h.read _ other, Dev.rfld]

theorem Beside.flag {q o : Nat} (b : Nat) (other : wordAddr q o ≠ wordAddr pageRec off) : e.flag q o b = d.flag q o b := by
  rw [Dev.flag, h.inUse _ other, Dev.flag]

theorem Beside.recorder : e.recorder = d.recorder := by have k := congrArg Dev.recorder h.only; exact k
theorem Beside.tick : e.tick = d.tick := by have k := congrArg Dev.tick h.only; exact k
theorem Beside.mould : e.mould = d.mould := by have k := congrArg Dev.mould h.only; exact k
theorem Beside.same : SameButReports { d with regs := e.regs } e := h.only.same

end

theorem log2Cap_of_flag {d e : Dev} (h : e.flag pageRec 0x040 0 = d.flag pageRec 0x040 0) : log2Cap e = log2Cap d := by
  unfold log2Cap
  rw [h]

/-! ### Manual hoists and the histograms' reset -/

theorem same_setRecorder {d e : Dev} (h : SameButReports d e) (x : Recorder) :
    SameButReports { d with recorder := x } { e with recorder := x } := by
  obtain ⟨_, _, _, _, _, _, _, _, _, _, _, _⟩ := h
  constructor <;> first | rfl | assumption

theorem same_withRecorder {d e : Dev} (h : SameButReports d e) (x : Recorder) (hist : x.hist = e.recorder.hist)
    (at0 : x.sampledAt = e.recorder.sampledAt)
    (key : x.key = e.recorder.key) (challenge : x.challenge = e.recorder.challenge) (response : x.response = e.recorder.response)
    (result : x.result = e.recorder.result) (clears : x.clears = e.recorder.clears) : SameButReports d { e with recorder := x } :=
  same_trans h (same_recorder _ _ hist key challenge response result clears at0)

/-- A manual hoist, on a recorder that is enabled and has none waiting, waits for its clock (R592). -/
theorem manualHoist_waits {d e : Dev} (h : Beside 0x044 d e) (quiet : d.recorder.triggers = []) (on : d.enabled pageRec = true) :
    manualHoist e = { e with recorder := { d.recorder with triggers := [⟨pageRec, 255, 2, d.tick⟩] } } := by
  have enabled : e.enabled pageRec = true := (h.flag _ (by decide)).trans on
  unfold manualHoist
  rw [if_pos enabled, h.recorder, h.tick, quiet]
  rfl

theorem manualHoist_off {d e : Dev} (h : Beside 0x044 d e) (off : d.enabled pageRec = false) : manualHoist e = e := by
  have disabled : e.enabled pageRec = false := (h.flag _ (by decide)).trans off
  unfold manualHoist
  rw [disabled]
  rfl

theorem histReset_get (d : Dev) (k : Nat) :
    (histReset d).recorder.hist.get (same {}) k = if k < 16 then emptyHist d k else {} := by
  have cleared (n : Nat) :
      Tab.get (same {}) ((List.range n).foldl (fun (t : Tab Hist) i => t.set (same {}) i (emptyHist d i)) []) k =
      if k < n then emptyHist d k else {} := by
    induction n with
    | zero => rfl
    | succ n ih =>
      rw [List.range_succ, List.foldl_append, List.foldl_cons, List.foldl_nil, get_set, ih]
      by_cases last : k = n
      · rw [if_pos last, if_pos (by omega), last]
      · rw [if_neg last]
        exact if_congr (by omega) rfl rfl
  exact cleared 16

theorem sel_silent {k : Nat} (hk : k < 16) : reportWord (wordAddr pageRec (0x100 + 8 * k)) = false := by
  simp only [reportWord, wordAddr, pageRec, pageEvq, Bool.or_eq_false_iff, Bool.and_eq_false_iff, beq_eq_false_iff_ne]
  omega

theorem keyWord_silent {j : Nat} (hj : j < 8) : reportWord (wordAddr pageRec (0x1A0 + 4 * j)) = false := by
  simp only [reportWord, wordAddr, pageRec, pageEvq, Bool.or_eq_false_iff, Bool.and_eq_false_iff, beq_eq_false_iff_ne]
  omega

/-! ### Histogram samples (R604) -/

/-- A sample of quantity `i` changes its block alone. -/
theorem histSample_effect (d : Dev) (i : Nat) :
    histSample d i = { d with recorder := { d.recorder with hist := (histSample d i).recorder.hist } } ∧
    (∀ k, k ≠ i → (histSample d i).recorder.hist.get (same {}) k = d.recorder.hist.get (same {}) k) ∧
    (let before := d.recorder.hist.get (same {}) i
     let after := (histSample d i).recorder.hist.get (same {}) i
     if bit (d.regs.inUse (wordAddr pageRec (0x100 + 8 * i))).toNat 31 = true then
       after.used = true ∧ after.samples = (if before.samples = 0xFFFFFFFF then before.samples else before.samples + 1)
     else after = before) := by
  unfold histSample
  dsimp only
  split
  · refine ⟨rfl, fun k other => ?_, ?_⟩
    · dsimp only
      rw [get_set, if_neg other]
    · dsimp only
      rw [get_set, if_pos rfl]
      exact ⟨rfl, rfl⟩
  · exact ⟨rfl, fun _ _ => rfl, rfl⟩

/-- What a sample of the first `n` quantities leaves. -/
structure Sampled (d : Dev) (n : Nat) (e : Dev) : Prop where
  only : e = { d with recorder := { d.recorder with hist := e.recorder.hist } }
  ahead : ∀ i, n ≤ i → e.recorder.hist.get (same {}) i = d.recorder.hist.get (same {}) i
  done : ∀ i, i < n →
    if bit (d.regs.inUse (wordAddr pageRec (0x100 + 8 * i))).toNat 31 = true then
      (e.recorder.hist.get (same {}) i).used = true ∧
      (e.recorder.hist.get (same {}) i).samples = (if (d.recorder.hist.get (same {}) i).samples = 0xFFFFFFFF then
        (d.recorder.hist.get (same {}) i).samples else (d.recorder.hist.get (same {}) i).samples + 1)
    else e.recorder.hist.get (same {}) i = d.recorder.hist.get (same {}) i

theorem Sampled.next {d e : Dev} {n : Nat} (h : Sampled d n e) : Sampled d (n + 1) (histSample e n) := by
  obtain ⟨own, others, effect⟩ := histSample_effect e n
  have regs : e.regs = d.regs := by have k := congrArg Dev.regs h.only; exact k
  rw [regs, h.ahead n (Nat.le_refl n)] at effect
  refine ⟨?_, fun i hi => (others i (by omega)).trans (h.ahead i (by omega)), fun i hi => ?_⟩
  · rw [h.only] at own ⊢
    exact own
  · rcases Nat.lt_succ_iff_lt_or_eq.mp hi with old | rfl
    · rw [others i (by omega)]
      exact h.done i old
    · exact effect

theorem histograms_sampled (d : Dev) : Sampled d 16 (upto 16 histSample d) :=
  upto_induct (fun n e => Sampled d n e) ⟨rfl, fun _ _ => rfl, fun i hi => absurd hi (Nat.not_lt_zero i)⟩ fun _ _ _ h => h.next

theorem histDue_true {d : Dev} (on : d.enabled pageRec = true) (mode : d.flag pageRec 0x040 0 = true) (start : d.tick % 1250 = 0)
    (due : ∀ c, d.recorder.sampledAt = some c → c + max 1 (d.fld pageRec 0x180 0 16) ≤ d.cycle) : histDue d = true := by
  unfold histDue
  rw [on, mode, start]
  split
  next c last => exact decide_eq_true (due c last)
  · rfl

theorem histDue_false {d : Dev} (h : d.enabled pageRec = false ∨ d.flag pageRec 0x040 0 = false ∨ d.tick % 1250 ≠ 0 ∨
    ∃ c, d.recorder.sampledAt = some c ∧ d.cycle < c + max 1 (d.fld pageRec 0x180 0 16)) : histDue d = false := by
  unfold histDue
  rcases h with off | mode | start | ⟨c, last, early⟩
  · rw [off]
    rfl
  · rw [mode, Bool.and_false]
    rfl
  · rw [beq_false_of_ne start, Bool.and_false]
    rfl
  · rw [last]
    dsimp only
    rw [decide_eq_false (by omega), Bool.and_false]

/-! ### The clear key (R601) -/

/-- REC_KEYi. -/
def keyReg : Reg := ⟨0x1A0, 4, 8, [wo 0 32 .live 0 []]⟩

theorem keyReg_found : ∀ i : Fin 8, PageKind.recd.reg? (0x1A0 + 4 * i.val) = some keyReg := by decide

/-- The first `n` words side by side. -/
def wordsJoined (w : Nat → Nat) (n : Nat) : Nat := (List.range n).foldl (fun k j => k + w j <<< (32 * j)) 0

theorem wordsJoined_succ (w : Nat → Nat) (n : Nat) : wordsJoined w (n + 1) = wordsJoined w n + 2 ^ (32 * n) * w n := by
  unfold wordsJoined
  rw [List.range_succ, List.foldl_append, List.foldl_cons, List.foldl_nil, Nat.shiftLeft_eq, Nat.mul_comm (w n)]

theorem wordsJoined_lt {w : Nat → Nat} (small : ∀ j, w j < 2 ^ 32) (n : Nat) : wordsJoined w n < 2 ^ (32 * n) := by
  induction n with
  | zero => exact Nat.one_pos
  | succ n ih =>
    have step : 2 ^ (32 * (n + 1)) = 2 ^ (32 * n) * 2 ^ 32 := pow_add 2 (32 * n) 32
    have fits : 2 ^ (32 * n) * (w n + 1) ≤ 2 ^ (32 * n) * 2 ^ 32 := Nat.mul_le_mul_left _ (small n)
    rw [wordsJoined_succ, step]
    rw [Nat.mul_add, Nat.mul_one] at fits
    omega

theorem bits_wordsJoined {w : Nat → Nat} (small : ∀ j, w j < 2 ^ 32) {n j : Nat} (hj : j < n) :
    bits (wordsJoined w n) (32 * j) 32 = w j := by
  induction n with
  | zero => exact absurd hj (Nat.not_lt_zero j)
  | succ n ih =>
    rw [wordsJoined_succ]
    rcases Nat.lt_succ_iff_lt_or_eq.mp hj with old | rfl
    · rw [← bits_mod (k := 32 * n) (by omega), Nat.add_mul_mod_self_left, Nat.mod_eq_of_lt (wordsJoined_lt small n), ih old]
    · rw [bits, Nat.shiftRight_eq_div_pow, Nat.add_mul_div_left _ _ (Nat.two_pow_pos _), Nat.div_eq_of_lt (wordsJoined_lt small j),
        Nat.zero_add, Nat.mod_eq_of_lt (small j)]

theorem rfld_lt (d : Dev) (p off lo w : Nat) : d.rfld p off lo w < 2 ^ w := Nat.mod_lt _ (Nat.two_pow_pos w)

/-- The last word of the key, accepted, takes the eight words that stand in the registers. -/
theorem recKeyTaken_last (d : Dev) : ∃ key : BitVec 256, recKeyTaken d 7 = { d with
      recorder := { d.recorder with key := key }
      mould := { d.mould with storeDirty := true } } ∧
    ∀ j, j < 8 → bits key.toNat (32 * j) 32 = d.rfld pageRec (0x1A0 + 4 * j) 0 32 := by
  have small (j : Nat) : d.rfld pageRec (0x1A0 + 4 * j) 0 32 < 2 ^ 32 := rfld_lt _ _ _ _ _
  refine ⟨BitVec.ofNat 256 (wordsJoined (fun j => d.rfld pageRec (0x1A0 + 4 * j) 0 32) 8), rfl, fun j hj => ?_⟩
  rw [BitVec.toNat_ofNat, Nat.mod_eq_of_lt (wordsJoined_lt small 8)]
  exact bits_wordsJoined small hj

/-- A word of the key that is accepted while there is none is stored, and the last one takes the key. -/
theorem recKeyWrite_accepted {d : Dev} {i : Fin 8} {v : Word} (ok : writeAccepted d pageRec (0x1A0 + 4 * i.val) v.toNat = true)
    (none : d.recorder.key = 0) :
    recKeyWrite d i.val v.toNat = recKeyTaken (stored d pageRec (0x1A0 + 4 * i.val) keyReg v.toNat) i.val := by
  have page : kindOf pageRec = some .recd := rfl
  unfold writeAccepted at ok
  rw [page] at ok
  dsimp only at ok
  rw [keyReg_found i] at ok
  unfold recKeyWrite
  rw [keyReg_found i]
  dsimp only at ok ⊢
  rw [Option.isNone_iff_eq_none.mp ok]
  dsimp only
  rw [if_neg (by rw [none]; exact fun h => h rfl), storeWrite_plain rfl rfl rfl]

theorem keyWord_stored (d : Dev) (i : Nat) (v : Word) :
    (stored d pageRec (0x1A0 + 4 * i) keyReg v.toNat).rfld pageRec (0x1A0 + 4 * i) 0 32 = v.toNat := by
  have whole : storeMask keyReg % 2 ^ 32 = 2 ^ 32 - 1 := by decide
  rw [Dev.rfld, stored_read, if_pos rfl, whole, word_mergeBits_whole, bits_whole]

/-! ### Clears (R602, R603) -/

/-- The device without its clear key. -/
def unkeyed (d : Dev) : Dev :=
  let e := upto 8 (fun d i => d.setReg pageRec (0x1A0 + 4 * i) 0) d
  { e with recorder := { e.recorder with key := 0 }, mould := { e.mould with storeDirty := true } }

theorem unkeyed_effect (d : Dev) : (unkeyed d).recorder = { d.recorder with key := 0 } ∧
    (unkeyed d).mould = { d.mould with storeDirty := true } ∧ (unkeyed d).pennant pageRec 2 = d.pennant pageRec 2 := by
  have recorder : (upto 8 (fun d i => d.setReg pageRec (0x1A0 + 4 * i) 0) d).recorder = d.recorder :=
    upto_keeps (f := fun d i => d.setReg pageRec (0x1A0 + 4 * i) 0) Dev.recorder fun _ _ => rfl
  have mould : (upto 8 (fun d i => d.setReg pageRec (0x1A0 + 4 * i) 0) d).mould = d.mould :=
    upto_keeps (f := fun d i => d.setReg pageRec (0x1A0 + 4 * i) 0) Dev.mould fun _ _ => rfl
  have pen : (upto 8 (fun d i => d.setReg pageRec (0x1A0 + 4 * i) 0) d).pennant pageRec 2 = d.pennant pageRec 2 :=
    upto_induct (fun _ e => e.pennant pageRec 2 = d.pennant pageRec 2) rfl fun i e hi he =>
      (pennant_setReg e (by omega) (by omega)).trans he
  unfold unkeyed
  generalize upto 8 (fun d i => d.setReg pageRec (0x1A0 + 4 * i) 0) d = e at recorder mould pen ⊢
  dsimp only
  rw [recorder, mould]
  exact ⟨rfl, rfl, pen⟩

/-- What an authorised clear leaves before it is reported: the log with its own hoist alone. -/
structure LogCleared (d e : Dev) : Prop where
  clears : e.recorder.clears = d.recorder.clears + 1
  key : e.recorder.key = d.recorder.key
  log : ∃ h, e.recorder.log = [h] ∧ byteField h 15 1 = 3
  mould : e.mould = d.mould

/-- The recorder with an empty log and its counts begun anew. -/
def countsCleared (d : Dev) : Dev := { d with recorder :=
  { d.recorder with log := [], missedBurst := 0, missedFull := 0, clears := d.recorder.clears + 1 } }

/-- The device after the log is emptied: the counts and the pennant FULL gone, and the histograms where their mode is on. -/
def logEmptied (d : Dev) : Dev :=
  let d2 := (countsCleared d).setReg pageRec 0x010 (d.rfld pageRec 0x010 0 32 - d.rfld pageRec 0x010 0 32 % 2)
  if d2.fld pageRec 0x040 0 1 = 1 then histReset d2 else d2

/-- What the hoist of a clear shows. -/
def clearValues (d : Dev) : List Nat :=
  [requester d % 2 ^ 32, requester d >>> 32, d.recorder.log.length, d.recorder.missedBurst.toNat, d.recorder.missedFull.toNat,
    d.recorder.clears + 1]

theorem clearLog_eq (d : Dev) (cmd : Nat) : clearLog d cmd =
    let e := raise (writeHoist (logEmptied d) (logEmptied d).tick pageRec 0xFF 3 (clearValues d)) pageRec 2 clsHousekeeping sevNotice 0x0E02
      (requester d)
    if cmd = 2 then unkeyed e else e := rfl

theorem logEmptied_effect (d : Dev) : (logEmptied d).recorder.log = [] ∧ (logEmptied d).recorder.clears = d.recorder.clears + 1 ∧
    (logEmptied d).recorder.key = d.recorder.key ∧ (logEmptied d).mould = d.mould := by
  unfold logEmptied
  dsimp only
  split
  · exact ⟨rfl, rfl, rfl, rfl⟩
  · exact ⟨rfl, rfl, rfl, rfl⟩

theorem logCleared (d : Dev) (tick : Nat) (vals : List Nat) : LogCleared d (writeHoist (logEmptied d) tick pageRec 0xFF 3 vals) := by
  obtain ⟨emptied, clears, key, mould⟩ := logEmptied_effect d
  generalize logEmptied d = e at *
  have room : e.recorder.log.length + 1 < log2Cap e := by
    rw [emptied, log2Cap]
    split <;> decide
  rw [writeHoist_room room]
  obtain ⟨-, -, -, -, kind⟩ := hoistRecord_fields e tick vals (source := pageRec) (bitNo := 0xFF) (kind := 3) (by decide) (by decide) (by decide)
  exact ⟨clears, key, ⟨_, congrArg _ emptied, kind⟩, mould⟩

/-- A new challenge changes nothing else of the recorder, and no pennant. -/
theorem recorderChallenge_frame (d : Dev) : ∃ c n, recorderChallenge d = { d with
    recorder := { d.recorder with challenge := c }
    free := n } := by
  unfold recorderChallenge
  simp only [Dev.fresh]
  exact ⟨_, _, rfl⟩

theorem clearLog_effect (d : Dev) (cmd : Nat) :
    (clearLog d cmd).recorder.clears = d.recorder.clears + 1 ∧
      (clearLog d cmd).recorder.key = (if cmd = 2 then 0 else d.recorder.key) ∧ (clearLog d cmd).pennant pageRec 2 = true ∧
      (∃ h, (clearLog d cmd).recorder.log = [h] ∧ byteField h 15 1 = 3) ∧
      (clearLog d cmd).mould = (if cmd = 2 then { d.mould with storeDirty := true } else d.mould) := by
  have cleared := logCleared d (logEmptied d).tick (clearValues d)
  rw [clearLog_eq]
  generalize writeHoist _ _ _ _ _ _ = e at cleared ⊢
  have told := pennant_raised e (p := pageRec) (b := 2) (cls := clsHousekeeping) (sev := sevNotice) (code := 0x0E02) (payload := requester d)
    (by decide) (by decide)
  have same := same_raise e pageRec 2 clsHousekeeping sevNotice 0x0E02 (requester d) (by decide)
  have log := silent_logbook.raise e pageRec 2 clsHousekeeping sevNotice 0x0E02 (requester d)
  generalize raise e pageRec 2 clsHousekeeping sevNotice 0x0E02 (requester d) = x at *
  dsimp only
  have log : x.recorder.log = e.recorder.log := (congrArg Recorder.log log :)
  by_cases unkey : cmd = 2
  · obtain ⟨recorder, mould, pen⟩ := unkeyed_effect x
    simp only [if_pos unkey]
    rw [recorder, mould, pen, same.mould, cleared.mould]
    dsimp only
    rw [log, same.clears, cleared.clears]
    exact ⟨rfl, rfl, told, cleared.log, rfl⟩
  · simp only [if_neg unkey]
    rw [log, same.clears, cleared.clears, same.clearKey, cleared.key, same.mould, cleared.mould]
    exact ⟨rfl, rfl, told, cleared.log, rfl⟩

theorem requester_congr {d e : Dev} (low : e.rfld pageRec 0x090 0 32 = d.rfld pageRec 0x090 0 32)
    (high : e.rfld pageRec 0x094 0 32 = d.rfld pageRec 0x094 0 32) : requester e = requester d := by
  unfold requester
  rw [low, high]

theorem clearMac_congr {d e : Dev} (key : e.recorder.key = d.recorder.key) (challenge : e.recorder.challenge = d.recorder.challenge)
    (low : e.rfld pageRec 0x090 0 32 = d.rfld pageRec 0x090 0 32) (high : e.rfld pageRec 0x094 0 32 = d.rfld pageRec 0x094 0 32)
    (cmd : Nat) : clearMac e cmd = clearMac d cmd := by
  unfold clearMac
  rw [key, challenge, requester_congr low high]

/-- A clear without the right response leaves its result alone, and says so. -/
theorem clearResult_failed (d : Dev) (cmd : Nat) {result : Nat} (small : result < 4) (failed : result ≠ 1) :
    let x := clearResult d cmd result
    x.recorder.result.toNat = result ∧ x.recorder.key = d.recorder.key ∧ x.recorder.clears = d.recorder.clears ∧
      x.recorder.hist = d.recorder.hist ∧ x.pennant pageRec 3 = true ∧ x.mould = d.mould := by
  unfold clearResult
  dsimp only
  rw [if_neg failed]
  have told := pennant_raised { d with recorder := { d.recorder with result := BitVec.ofNat 2 result } } (p := pageRec) (b := 3)
    (cls := clsHousekeeping) (sev := sevWarning) (code := 0x0E03) (payload := pay cmd result 0 0) (by decide) (by decide)
  have same := same_raise { d with recorder := { d.recorder with result := BitVec.ofNat 2 result } } pageRec 3 clsHousekeeping sevWarning 0x0E03
    (pay cmd result 0 0) (by decide)
  generalize raise _ _ _ _ _ _ _ = x at *
  obtain ⟨c, n, challenged⟩ := recorderChallenge_frame x
  rw [challenged]
  refine ⟨(congrArg BitVec.toNat same.result).trans ?_, same.clearKey, same.clears, same.hist, told, same.mould⟩
  rw [BitVec.toNat_ofNat]
  exact Nat.mod_eq_of_lt small

theorem clearResult_done (d : Dev) (cmd : Nat) :
    let x := clearResult d cmd 1
    x.recorder.result.toNat = 1 ∧ x.recorder.key = d.recorder.key ∧ x.recorder.clears = d.recorder.clears ∧
      x.recorder.log = d.recorder.log ∧ x.pennant pageRec 2 = d.pennant pageRec 2 ∧ x.mould = d.mould := by
  unfold clearResult
  dsimp only
  rw [if_pos rfl]
  obtain ⟨c, n, challenged⟩ := recorderChallenge_frame { d with recorder := { d.recorder with result := BitVec.ofNat 2 1 } }
  rw [challenged]
  exact ⟨rfl, rfl, rfl, rfl, rfl, rfl⟩

/-- The three answers to a command, on the device as it stands beside the command's own word. -/
theorem recorderCommand_cases {d e : Dev} (h : Beside 0x054 d e) (cmd : Nat) :
    (d.recorder.key = 0 → recorderCommand e cmd = clearResult e cmd 3) ∧
    (d.recorder.key ≠ 0 → clearMac d cmd ≠ d.recorder.response.toNat → recorderCommand e cmd = clearResult e cmd 2) ∧
    (d.recorder.key ≠ 0 → clearMac d cmd = d.recorder.response.toNat → recorderCommand e cmd = clearResult (clearLog e cmd) cmd 1) := by
  have mac : clearMac e cmd = clearMac d cmd := clearMac_congr (by rw [h.recorder]) (by rw [h.recorder]) (h.rfld _ _ (by decide))
    (h.rfld _ _ (by decide)) cmd
  unfold recorderCommand
  rw [mac, h.recorder]
  exact ⟨fun none => if_pos none, fun key other => by rw [if_neg key, if_pos other], fun key right => by
    rw [if_neg key, if_neg (fun other => other right)]⟩

section
variable {s : State} {u : Nat} {e : Dev}

/-- What follows a manual hoist when time goes on: it is the one hoist of its clock (R594, R599). -/
theorem manualHoist_advances (h : Beside 0x044 (s.at u) e) {k : Nat} (later : (s.at u).tick < k)
    (opens : s.dev.recorder.clock ≠ (s.at u).tick) :
    let d : Dev := { e with recorder := { s.dev.recorder with triggers := [⟨pageRec, 255, 2, (s.at u).tick⟩] } }
    (s.dev.recorder.log.length + 1 < log2Cap s.dev →
      (∃ h : BitVec 768, (d.advance k).recorder.log = h :: s.dev.recorder.log ∧
        byteField h 0 8 = (s.at u).tick % 2 ^ 64 ∧ byteField h 8 4 = s.dev.recorder.serial.toNat ∧
        byteField h 12 2 = pageRec ∧ byteField h 14 1 = 255 ∧ byteField h 15 1 = 2) ∧
      (d.advance k).recorder.serial = s.dev.recorder.serial + 1) ∧
    (log2Cap s.dev ≤ s.dev.recorder.log.length → s.dev.recorder.missedFull ≠ 0xFFFFFFFF →
      (d.advance k).recorder.log = s.dev.recorder.log ∧
      (d.advance k).recorder.missedFull = s.dev.recorder.missedFull + 1) := by
  intro d
  have cap : e.flag pageRec 0x040 0 = s.dev.flag pageRec 0x040 0 := (h.flag _ (by decide)).trans (at_flag s u _ (by decide))
  obtain ⟨vals, capture⟩ := captureTrigger_opens (d := { d with recorder := { d.recorder with triggers := [] } })
    (t := ⟨pageRec, 255, 2, (s.at u).tick⟩) opens
  have tick : d.tick < k := (congrArg (· < k) h.tick).mpr later
  have advanced := advance_one (d := d) rfl later tick
  rw [capture] at advanced
  have cap' := log2Cap_of_flag cap
  refine ⟨fun room => ?_, fun full counts => ?_⟩
  · rw [writeHoist_room (by exact cap' ▸ room)] at advanced
    rw [advanced rfl]
    exact ⟨⟨_, rfl, hoistRecord_fields (source := pageRec) (bitNo := 255) (kind := 2) _ _ _ (by decide) (by decide) (by decide)⟩, rfl⟩
  · rw [writeHoist_full (by exact cap' ▸ full)] at advanced
    rw [advanced rfl]
    exact ⟨rfl, if_neg counts⟩

end

/-- A clear without the right response keeps everything but its result and FAILED (R603). -/
def ClearFailed (s t : State) (result : Nat) : Prop :=
  t.nv = s.nv ∧ t.dev.recorder.result.toNat = result ∧ t.dev.recorder.key = s.dev.recorder.key ∧
    t.dev.recorder.clears = s.dev.recorder.clears ∧ t.dev.recorder.hist = s.dev.recorder.hist ∧
    t.dev.pennant pageRec 3 = true ∧ t.dev.mould = s.dev.mould

section
variable {s : State} {u : Nat}

section
variable (quiet : s.dev.recorder.triggers = [])
include quiet

/-- A manual hoist waits for its clock, and is the next of the log or counted by a full one. -/
theorem recManualHoist_waits (ok : writeAccepted (s.at u) pageRec 0x044 1 = true) (on : s.dev.enabled pageRec = true) :
    Answers s (.recManualHoist u) fun t =>
      t.nv = s.nv ∧ t.dev.recorder.triggers = [⟨pageRec, 255, 2, (s.at u).tick⟩] ∧ t.dev.recorder.log = s.dev.recorder.log ∧
      SameButReports { s.at u with regs := t.dev.regs } t.dev ∧
      ∀ k, (s.at u).tick < k → s.dev.recorder.clock ≠ (s.at u).tick →
        (s.dev.recorder.log.length + 1 < log2Cap s.dev →
          (∃ h : BitVec 768, (t.dev.advance k).recorder.log = h :: s.dev.recorder.log ∧
            byteField h 0 8 = (s.at u).tick % 2 ^ 64 ∧ byteField h 8 4 = s.dev.recorder.serial.toNat ∧
            byteField h 12 2 = pageRec ∧ byteField h 14 1 = 255 ∧ byteField h 15 1 = 2) ∧
          (t.dev.advance k).recorder.serial = s.dev.recorder.serial + 1) ∧
        (log2Cap s.dev ≤ s.dev.recorder.log.length → s.dev.recorder.missedFull ≠ 0xFFFFFFFF →
          (t.dev.advance k).recorder.log = s.dev.recorder.log ∧
          (t.dev.advance k).recorder.missedFull = s.dev.recorder.missedFull + 1) := by
  obtain ⟨e, beside, write⟩ := withWrite_recorder manualHoist (by decide) ok manualReg_found rfl
  refine answers_of_exactly (exactly_of_onDev (f := fun d => withWrite (d.arrive u) pageRec 0x044 1 manualHoist) rfl) fun t nv dev => ?_
  replace dev : t.dev = manualHoist e := dev.trans write
  rw [manualHoist_waits beside (by rw [at_recorder u quiet, quiet]) (by rw [at_enabled, on]), at_recorder u quiet] at dev
  rw [dev]
  refine ⟨nv, rfl, rfl, ?_, fun k later opens => manualHoist_advances beside later opens⟩
  exact same_withRecorder beside.same _ (by rw [beside.recorder, at_recorder u quiet]) (by rw [beside.recorder, at_recorder u quiet])
    (by rw [beside.recorder, at_recorder u quiet]) (by rw [beside.recorder, at_recorder u quiet])
    (by rw [beside.recorder, at_recorder u quiet]) (by rw [beside.recorder, at_recorder u quiet])
    (by rw [beside.recorder, at_recorder u quiet])

theorem recManualHoist_disabled (off : s.dev.enabled pageRec = false) (ok : writeAccepted (s.at u) pageRec 0x044 1 = true) :
    Answers s (.recManualHoist u) fun t =>
      t.nv = s.nv ∧ t.dev.recorder.triggers = [] ∧ SameButReports { s.at u with regs := t.dev.regs } t.dev := by
  obtain ⟨e, beside, write⟩ := withWrite_recorder manualHoist (by decide) ok manualReg_found rfl
  refine answers_of_exactly (exactly_of_onDev (f := fun d => withWrite (d.arrive u) pageRec 0x044 1 manualHoist) rfl) fun t nv dev => ?_
  replace dev : t.dev = manualHoist e := dev.trans write
  rw [manualHoist_off beside (by rw [at_enabled, off])] at dev
  rw [dev, beside.recorder, at_recorder u quiet]
  exact ⟨nv, quiet, beside.same⟩

/-- HIST_RESET empties the histograms and no log. -/
theorem recHistReset_empties (ok : writeAccepted (s.at u) pageRec 0x044 2 = true) : Answers s (.recHistReset u) fun t =>
    t.nv = s.nv ∧ (∀ k, t.dev.recorder.hist.get (same {}) k = if k < 16 then emptyHist s.dev k else {}) ∧
    t.dev.recorder.log = s.dev.recorder.log ∧
    SameButReports { s.at u with
      regs := t.dev.regs, recorder := { s.dev.recorder with hist := t.dev.recorder.hist } } t.dev := by
  obtain ⟨e, beside, write⟩ := withWrite_recorder histReset (by decide) ok manualReg_found rfl
  refine answers_of_exactly (exactly_of_onDev (f := fun d => withWrite (d.arrive u) pageRec 0x044 2 histReset) rfl) fun t nv dev => ?_
  replace dev : t.dev = histReset e := dev.trans write
  rw [dev]
  refine ⟨nv, fun k => ?_, ?_, ?_⟩
  · rw [histReset_get]
    split
    next small => rw [emptyHist, emptyHist, beside.inUse _ (by unfold wordAddr; omega), at_inUse s u (sel_silent small)]
    · rfl
  · exact (congrArg Recorder.log (beside.recorder.trans (at_recorder u quiet)) :)
  · have reset : histReset e = { e with recorder := { s.dev.recorder with hist := (histReset e).recorder.hist } } := by
      rw [← at_recorder u quiet, ← beside.recorder]
      rfl
    exact (congrArg (SameButReports _) reset).mpr (same_setRecorder beside.same _)

/-- A clear needs the key and its response. -/
theorem recClear_answers {cmd : Nat} {i : Instr} (which : cmd = 1 ∧ i = .recClear u ∨ cmd = 2 ∧ i = .recClearAndUnkey u)
    (ok : writeAccepted (s.at u) pageRec 0x054 cmd = true) :
    (s.dev.recorder.key = 0 → Answers s i fun t => ClearFailed s t 3) ∧
    (s.dev.recorder.key ≠ 0 → clearMac s.dev cmd ≠ s.dev.recorder.response.toNat → Answers s i fun t => ClearFailed s t 2) ∧
    (s.dev.recorder.key ≠ 0 → clearMac s.dev cmd = s.dev.recorder.response.toNat → Answers s i fun t =>
      t.nv = s.nv ∧ t.dev.recorder.result.toNat = 1 ∧ t.dev.recorder.clears = s.dev.recorder.clears + 1 ∧
      t.dev.recorder.key = (if cmd = 2 then 0 else s.dev.recorder.key) ∧ t.dev.pennant pageRec 2 = true ∧
      (∃ h, t.dev.recorder.log = [h] ∧ byteField h 15 1 = 3) ∧
      t.dev.mould = (if cmd = 2 then { s.dev.mould with storeDirty := true } else s.dev.mould)) := by
  have exactly : AnswersExactly s i (withWrite (s.at u) pageRec 0x054 cmd fun d => recorderCommand d cmd) := by
    rcases which with ⟨rfl, rfl⟩ | ⟨rfl, rfl⟩
    · exact exactly_of_onDev (f := fun d => withWrite (d.arrive u) pageRec 0x054 1 fun d => recorderCommand d 1) rfl
    · exact exactly_of_onDev (f := fun d => withWrite (d.arrive u) pageRec 0x054 2 fun d => recorderCommand d 2) rfl
  obtain ⟨e, beside, write⟩ := withWrite_recorder (fun d => recorderCommand d cmd) (by rcases which with ⟨rfl, -⟩ | ⟨rfl, -⟩ <;> decide) ok
    authReg_found rfl
  rw [write] at exactly
  obtain ⟨unset, wrong, right⟩ := recorderCommand_cases beside cmd
  have response : (s.at u).recorder = s.dev.recorder := at_recorder u quiet
  have mac : clearMac (s.at u) cmd = clearMac s.dev cmd := clearMac_congr (by rw [response]) (by rw [response])
    (at_rfld s u _ _ (by decide)) (at_rfld s u _ _ (by decide)) cmd
  have own : e.recorder = s.dev.recorder := beside.recorder.trans response
  have mould : e.mould = s.dev.mould := beside.mould.trans (at_mould s u)
  rw [mac, response] at wrong right
  rw [response] at unset
  have fails {result : Nat} (small : result < 4) (other : result ≠ 1) (answer : recorderCommand e cmd = clearResult e cmd result) :
      Answers s i fun t => ClearFailed s t result := by
    refine answers_of_exactly exactly fun t nv dev => ?_
    obtain ⟨shown, key, clears, hist, told, kept⟩ := clearResult_failed e cmd small other
    rw [answer] at dev
    rw [own] at key clears hist
    rw [mould] at kept
    rw [← dev] at shown key clears hist told kept
    exact ⟨nv, shown, key, clears, hist, told, kept⟩
  refine ⟨fun none => fails (by decide) (by decide) (unset none), fun key other => fails (by decide) (by decide) (wrong key other),
    fun key same => answers_of_exactly exactly fun t nv dev => ?_⟩
  rw [right key same] at dev
  obtain ⟨shown, key', clears', log', pen', mould'⟩ := clearResult_done (clearLog e cmd) cmd
  obtain ⟨clears, key, told, log, kept⟩ := clearLog_effect e cmd
  rw [dev, key', clears', log', pen', mould', clears, key, kept, own, mould]
  exact ⟨nv, shown, rfl, rfl, told, log, rfl⟩

end

/-- The last word of the clear key takes the key. -/
theorem recKeyWrite_takes {i : Fin 8} {v : Word} (ok : writeAccepted (s.at u) pageRec (0x1A0 + 4 * i.val) v.toNat = true)
    (none : s.dev.recorder.key = 0) : Answers s (.recKeyWrite u i v) fun t =>
      t.nv = s.nv ∧ (i.val ≠ 7 → t.dev.recorder.key = 0 ∧ t.dev.mould = s.dev.mould) ∧
      (i.val = 7 → t.dev.mould = { s.dev.mould with storeDirty := true } ∧ bits t.dev.recorder.key.toNat 224 32 = v.toNat ∧
        ∀ j, j < 7 → bits t.dev.recorder.key.toNat (32 * j) 32 = s.dev.rfld pageRec (0x1A0 + 4 * j) 0 32) ∧
      t.dev.recorder.challenge = s.dev.recorder.challenge := by
  have answer := answers_recKeyWrite s u i v
  rw [recKeyWrite_accepted ok ((same_arrive s.now u).clearKey.trans none)] at answer
  have beside := beside_stored (s.at u) (0x1A0 + 4 * i.val) keyReg v.toNat
  have own : (stored (s.at u) pageRec (0x1A0 + 4 * i.val) keyReg v.toNat).mould = s.dev.mould := beside.mould.trans (at_mould s u)
  have last := keyWord_stored (s.at u) i.val v
  generalize stored (s.at u) pageRec (0x1A0 + 4 * i.val) keyReg v.toNat = e at answer beside own last
  have key : e.recorder.key = 0 := (congrArg Recorder.key beside.recorder).trans ((same_arrive s.now u).clearKey.trans none)
  have challenge : e.recorder.challenge = s.dev.recorder.challenge :=
    (congrArg Recorder.challenge beside.recorder).trans (same_arrive s.now u).challenge
  refine answers_mono answer fun t ⟨nv, same⟩ => ?_
  by_cases seven : i.val = 7
  · obtain ⟨taken, eq, words⟩ := recKeyTaken_last e
    rw [seven, eq] at same
    rw [seven] at last
    refine ⟨nv, fun other => absurd seven other, fun _ => ⟨same.mould.trans (by rw [← own]), ?_, fun j hj => ?_⟩,
      same.challenge.trans challenge⟩
    · exact (congrArg (fun k : BitVec 256 => bits k.toNat 224 32) same.clearKey).trans ((words 7 (by decide)).trans last)
    · refine (congrArg (fun k : BitVec 256 => bits k.toNat (32 * j) 32) same.clearKey).trans ((words j (by omega)).trans ?_)
      rw [beside.rfld _ _ (by rw [seven]; unfold wordAddr; omega), at_rfld s u _ _ (keyWord_silent (by omega))]
  · have stays : recKeyTaken e i.val = e := if_neg seven
    rw [stays] at same
    exact ⟨nv, fun _ => ⟨same.clearKey.trans key, same.mould.trans own⟩, fun last => absurd last seven, same.challenge.trans challenge⟩

/-- A sample that is due counts every selected quantity. -/
theorem histogramSample_counts (on : s.dev.enabled pageRec = true) (mode : s.dev.flag pageRec 0x040 0 = true)
    (start : s.dev.tick % 1250 = 0)
    (due : ∀ c, s.dev.recorder.sampledAt = some c → c + max 1 (s.dev.fld pageRec 0x180 0 16) ≤ s.dev.cycle) :
    Answers s .histogramSample fun t =>
      t.nv = s.nv ∧ t.dev.recorder.sampledAt = some s.dev.cycle ∧ (∀ i, i < 16 →
        let before := s.dev.recorder.hist.get (same {}) i
        let after := t.dev.recorder.hist.get (same {}) i
        if bit (s.dev.regs.inUse (wordAddr pageRec (0x100 + 8 * i))).toNat 31 = true then
          after.used = true ∧ after.samples = (if before.samples = 0xFFFFFFFF then before.samples else before.samples + 1)
        else after = before) ∧
      SameButReports { s.now with recorder := { s.dev.recorder with
        hist := t.dev.recorder.hist, sampledAt := t.dev.recorder.sampledAt } } t.dev := by
  refine answers_of_exactly (exactly_of_onDev (f := histogramSample) rfl) fun t nv dev => ?_
  have all := histograms_sampled s.now
  unfold histogramSample at dev
  rw [histDue_true (d := s.now) on mode start due, if_pos rfl] at dev
  generalize upto 16 histSample s.now = e at all dev
  dsimp only at dev
  rw [dev]
  refine ⟨nv, rfl, all.done, ?_⟩
  rw [all.only]
  exact same_refl _

theorem histogramSample_rests (h : s.dev.enabled pageRec = false ∨ s.dev.flag pageRec 0x040 0 = false ∨ s.dev.tick % 1250 ≠ 0 ∨
    (∃ c, s.dev.recorder.sampledAt = some c ∧ s.dev.cycle < c + max 1 (s.dev.fld pageRec 0x180 0 16))) :
    AnswersButReports s .histogramSample s.now := by
  have run : AnswersButReports s .histogramSample (histogramSample s.now) := answers_of_onDev (f := histogramSample) rfl
  rwa [histogramSample, histDue_false (d := s.now) h] at run

end

/-- Settles O58: a manual hoist waits for its clock and is the next of the log; clears, the key and the samples have their own
effects. -/
theorem recorder : Obligations.Recorder := by
  unfold Obligations.Recorder
  exact ⟨fun s u quiet => ⟨recManualHoist_waits quiet, recManualHoist_disabled quiet, recHistReset_empties quiet⟩,
    fun s u cmd i quiet which ok => recClear_answers quiet which ok, fun s u i v => recKeyWrite_takes,
    fun s => ⟨histogramSample_counts, histogramSample_rests⟩⟩

end Sys2Proof.Proofs
end

section
/-! The bring-up of a lane: O40. -/
namespace Sys2Proof.Proofs
open Sys2Proof.Machine Sys2Proof.Laws

/-! ### Changes of the lanes alone -/

theorem laneOf_set (d : Dev) (l k : Nat) (x : Lane) : laneOf (setLane d l x) k = if k = l then x else laneOf d k := get_set _ _ _ _ _

theorem same_withLanes {d e : Dev} (h : SameButReports d e) (x : Tab Lane) :
    SameButReports { d with lanes := x } { e with lanes := x } := by
  obtain ⟨_, _, _, _, _, _, _, _, _, _, _, _⟩ := h
  constructor <;> first | rfl | assumption

/-- But for reports the second device differs from the first in its lanes alone. -/
def OnlyLanes (d e : Dev) : Prop := SameButReports { d with lanes := e.lanes } e

theorem onlyLanes_of_same {d e : Dev} (h : SameButReports d e) : OnlyLanes d e := by
  have := same_withLanes h e.lanes
  exact this

theorem onlyLanes_setLane (d : Dev) (l : Nat) (x : Lane) : OnlyLanes d (setLane d l x) := same_refl _

theorem OnlyLanes.trans {a b c : Dev} (h : OnlyLanes a b) (k : OnlyLanes b c) : OnlyLanes a c := same_trans (same_withLanes h c.lanes) k

/-! ### A lane that comes up (R524, R529) -/

/-- What a lane that comes up leaves alone, and its lanes. -/
def bringUpView (d : Dev) : Tab Lane × Heats × Tab Station × Stp := (d.lanes, d.heats, d.stations, d.stp)

theorem silent_bringUpView : Silent bringUpView := silent_inner.map bringUpView

theorem mkPartner_lt {v p : Nat} (h : mkPartner v = some p) : p < 48 := by
  unfold mkPartner at h
  split at h
  · cases h
    omega
  split at h
  · cases h
    omega
  · cases h

theorem bringUpView_setMap (d : Dev) {p : Nat} (l : Nat) (hp : p < 48) : bringUpView (setMap d p l) = bringUpView d :=
  silent_bringUpView.fld _ _ _ _ _ _ (by omega)

theorem bringUpView_autoMap (d : Dev) {p : Nat} (l : Nat) (hp : p < 48) : bringUpView (autoMap d p l) = bringUpView d := by
  unfold autoMap
  dsimp only
  split
  · rfl
  · refine (silent_bringUpView.setPen _ _ _).trans ((bringUpView_setMap _ _ hp).trans ?_)
    refine upto_induct (fun _ e => bringUpView e = bringUpView d) rfl fun q e hq he => ?_
    split
    · exact (bringUpView_setMap e _ hq).trans he
    · exact he

theorem laneReturns_effect (d : Dev) (s : Nat) : bringUpView (laneReturns d s) = bringUpView d ∧ (laneReturns d s).regs = d.regs := by
  unfold laneReturns
  dsimp only
  split
  · rw [(enterRecovery_frame _ _).1]
    exact ⟨rfl, rfl⟩
  · exact ⟨rfl, rfl⟩

theorem readBaseTables_effect (d : Dev) (m : Nat) (bad : BitVec 16) : bringUpView (readBaseTables d m bad) = bringUpView d ∧
    ∀ p b, d.pennant p b = true → (readBaseTables d m bad).pennant p b = true := by
  unfold readBaseTables
  dsimp only
  refine upto_induct (fun _ e => bringUpView e = bringUpView d ∧ ∀ p b, d.pennant p b = true → e.pennant p b = true)
    ⟨rfl, fun _ _ h => h⟩ fun i e _ ⟨view, pens⟩ => ?_
  split
  · exact ⟨(silent_bringUpView.raise _ _ _ _ _ _ _).trans view,
      fun p b h => pennant_of_same (same_raise _ _ _ _ _ _ _ (by decide)) (pens p b h)⟩
  · exact ⟨view, pens⟩

/-- The blocks that use a partner take up its lane again. -/
theorem partnerBack_effect (d : Dev) (p : Nat) (bad : BitVec 16) :
    bringUpView (if p < 32 then laneReturns d p else readBaseTables d (p - 32) bad) = bringUpView d ∧
    ∀ q b, d.pennant q b = true → (if p < 32 then laneReturns d p else readBaseTables d (p - 32) bad).pennant q b = true := by
  split
  · obtain ⟨view, regs⟩ := laneReturns_effect d p
    exact ⟨view, fun q b h => by rw [Dev.pennant, regs]; exact h⟩
  · exact readBaseTables_effect _ _ _

/-- A partner's lane that comes up is in stage 5 with its partner, and says so. -/
theorem laneUp_partner {d : Dev} {l v p : Nat} (bad : BitVec 16) (near : l < 48) (partner : mkPartner v = some p) : ∃ y : Lane,
    y.stage = 5 ∧ y.logical = p ∧ bringUpView (laneUp d l v bad) = bringUpView (setLane d l y) ∧
      (laneUp d l v bad).pennant (pageLan l) 0 = true := by
  unfold laneUp
  dsimp only
  rw [if_pos near, partner]
  dsimp only [Option.getD]
  obtain ⟨view, pens⟩ := partnerBack_effect (raise (autoMap (setLane d l _) p l) (pageLan l) 0 clsLink sevInfo 0x0A01 _) p bad
  exact ⟨_, rfl, rfl, view.trans ((silent_bringUpView.raise _ _ _ _ _ _ _).trans (bringUpView_autoMap _ l (mkPartner_lt partner))),
    pens _ _ (pennant_raised _ (by decide) (by decide))⟩

theorem laneUp_halyard {d : Dev} {l : Nat} (v : Nat) (bad : BitVec 16) (far : 48 ≤ l) : ∃ y : Lane,
    y.stage = 5 ∧ SameButReports (setLane d l y) (laneUp d l v bad) ∧ (laneUp d l v bad).pennant (pageLan l) 0 = true := by
  unfold laneUp
  dsimp only
  rw [if_neg (by omega)]
  exact ⟨_, rfl, same_raise _ _ _ _ _ _ _ (by decide), pennant_raised _ (by decide) (by decide)⟩

/-! ### The stages (R524 to R526) -/

section
variable {d : Dev} {l : Nat} {bad : BitVec 16}

theorem stagePass_early (h : (laneOf d l).stage = 1 ∨ (laneOf d l).stage = 2) :
    stagePass d l bad = setLane d l { laneOf d l with stage := (laneOf d l).stage + 1, since := d.tick } := if_pos h

theorem stagePass_third {m : Long} (stage : (laneOf d l).stage = 3) (last : (laneOf d l).lastMarker = some m) :
    stagePass d l bad = setLane d l { laneOf d l with
      stage := 4, since := d.tick, polInv := mkInverted m.toNat, lastMarker := none, agree := 0 } := by
  unfold stagePass
  dsimp only
  rw [if_neg (by omega), if_pos stage, last]

theorem stagePass_refuses {m : Long} {c : Nat} (stage : (laneOf d l).stage = 4) (waits : (laneOf d l).retryAt = none)
    (last : (laneOf d l).lastMarker = some m) (agrees : 2 ≤ (laneOf d l).agree) (cause : identityCause d l m.toNat = some c) :
    stagePass d l bad = refuseLane d l m.toNat c := by
  unfold stagePass
  dsimp only
  rw [if_neg (by omega), if_neg (by omega), if_pos ⟨stage, waits⟩, last]
  dsimp only
  rw [if_neg (by omega), cause]

theorem stagePass_ups {m : Long} (stage : (laneOf d l).stage = 4) (waits : (laneOf d l).retryAt = none)
    (last : (laneOf d l).lastMarker = some m) (agrees : 2 ≤ (laneOf d l).agree) (fits : identityCause d l m.toNat = none) :
    stagePass d l bad = laneUp d l m.toNat bad := by
  unfold stagePass
  dsimp only
  rw [if_neg (by omega), if_neg (by omega), if_pos ⟨stage, waits⟩, last]
  dsimp only
  rw [if_neg (by omega), fits]

theorem restartLane_on (on : (laneOf d l).stage ≠ 0) : restartLane d l = setLane d l (freshLane (laneOf d l) 1 d.tick) := if_neg on

theorem retryLane_due {k : Nat} (refused : (laneOf d l).retryAt = some k) (due : k ≤ d.tick) : retryLane d l = restartLane d l := by
  unfold retryLane
  rw [refused]
  exact if_pos due

theorem retryLane_early {k : Nat} (refused : (laneOf d l).retryAt = some k) (early : d.tick < k) : retryLane d l = d := by
  unfold retryLane
  rw [refused]
  exact if_neg (by omega)

theorem stageTimeout_late (h : 1 ≤ (laneOf d l).stage ∧ (laneOf d l).stage ≤ 4 ∧ (laneOf d l).retryAt = none ∧
    (laneOf d l).since + 2500000 < d.tick) : stageTimeout d l =
      raise (restartLane d l) (pageLan l) 6 clsLink sevWarning 0x0A05 (pay l (laneOf d l).stage 0 0) := if_pos h

theorem stageTimeout_early (early : d.tick ≤ (laneOf d l).since + 2500000) : stageTimeout d l = d := if_neg (by omega)

end

/-- Settles O40: each stage's pass, a refused identity and its retry, and the time-out of a stage. -/
theorem laneBringUp : Obligations.LaneBringUp := by
  unfold Obligations.LaneBringUp
  intro s u l bad x again
  have lane (k : Nat) : laneOf (s.at u) k = laneOf s.dev k := at_laneOf s u k
  have pass := answers_laneStagePass s u l bad
  have retry := answers_laneIdRetry s u l
  have timeout := answers_laneStageTimeout s u l
  refine ⟨fun stage => ?_, fun m stage last => ?_, fun m c stage waits last agrees cause => ?_,
    fun m p near stage waits last agrees fits partner => ?_, fun m far stage waits last agrees fits => ?_,
    fun k refused on => ⟨fun due => ?_, fun early => ?_⟩, fun low high waits late => ?_, fun early => ?_⟩
  · rwa [stagePass_early (by rwa [lane]), lane] at pass
  · rwa [stagePass_third (by rwa [lane]) (by rwa [lane]), lane] at pass
  · rw [stagePass_refuses (by rwa [lane]) (by rwa [lane]) (by rwa [lane]) (by rwa [lane]) cause] at pass
    refine answers_mono pass fun t ⟨nv, same⟩ => ⟨nv, pennant_of_same same (pennant_raised _ (by decide) (by decide)), ?_⟩
    have told := same_trans (same_raise _ _ _ _ _ _ _ (by decide)) same
    rwa [lane] at told
  · rw [stagePass_ups (by rwa [lane]) (by rwa [lane]) (by rwa [lane]) (by rwa [lane]) fits] at pass
    obtain ⟨y, stage, logical, view, pen⟩ := laneUp_partner (d := s.at u) bad near partner
    refine answers_mono pass fun t ⟨nv, same⟩ => ?_
    have final : bringUpView t.dev = bringUpView (setLane (s.at u) l.val y) := by
      rw [← view, bringUpView, same.lanes, same.heats, same.stations, same.stp]
      rfl
    have own : t.dev.lanes = (setLane (s.at u) l.val y).lanes := congrArg Prod.fst final
    have lanes (k : Nat) : laneOf t.dev k = if k = l.val then y else laneOf s.dev k := by
      rw [← lane, ← laneOf_set, laneOf, own]
      rfl
    refine ⟨nv, ?_, ?_, fun k other => (lanes k).trans (if_neg other), pennant_of_same same pen,
      (congrArg (fun v => v.2.1) final).trans (at_heats s u), (congrArg (fun v => v.2.2.1) final).trans (arrive_stations _ _),
      (congrArg (fun v => v.2.2.2) final).trans (arrive_stp _ _)⟩
    · rw [lanes, if_pos rfl, stage]
    · rw [lanes, if_pos rfl, logical]
  · rw [stagePass_ups (by rwa [lane]) (by rwa [lane]) (by rwa [lane]) (by rwa [lane]) fits] at pass
    obtain ⟨y, stage, up, pen⟩ := laneUp_halyard (d := s.at u) m.toNat bad far
    refine answers_mono pass fun t ⟨nv, same⟩ => ?_
    have lanes (k : Nat) : laneOf t.dev k = if k = l.val then y else laneOf s.dev k := by
      rw [← lane, ← laneOf_set, laneOf, (same_trans up same).lanes]
      rfl
    exact ⟨nv, by rw [lanes, if_pos rfl, stage], fun k other => (lanes k).trans (if_neg other), pennant_of_same same pen,
      onlyLanes_of_same (same_refl _) |>.trans (onlyLanes_setLane _ _ _) |>.trans (onlyLanes_of_same (same_trans up same))⟩
  · rwa [retryLane_due (by rwa [lane]) due, restartLane_on (by rwa [lane]), lane] at retry
  · rwa [retryLane_early (by rwa [lane]) early] at retry
  · rw [stageTimeout_late (by rw [lane]; exact ⟨low, high, waits, late⟩), restartLane_on (by rw [lane]; exact Nat.ne_of_gt low),
        lane] at timeout
    exact answers_mono timeout fun t ⟨nv, same⟩ => ⟨nv, pennant_of_same same (pennant_raised _ (by decide) (by decide)),
      same_trans (same_raise _ _ _ _ _ _ _ (by decide)) same⟩
  · rwa [stageTimeout_early (by rwa [lane])] at timeout

end Sys2Proof.Proofs
end

section
/-! Blocks, loss and eye scan of a lane: O41. -/
namespace Sys2Proof.Proofs
open Sys2Proof.Machine Sys2Proof.Laws

/-! ### A station that faults (R230) -/

/-- What the fault of a station leaves of lanes and contexts, and of the faults and pennants that stand. -/
structure Faulting (d e : Dev) : Prop where
  lanes : e.lanes = d.lanes
  ctxs : e.ctxs = d.ctxs
  faults : ∀ s, (stationOf d s).fault = true → (stationOf e s).fault = true
  pens : ∀ p b, d.pennant p b = true → e.pennant p b = true

theorem Faulting.refl (d : Dev) : Faulting d d := ⟨rfl, rfl, fun _ h => h, fun _ _ h => h⟩

theorem Faulting.trans {a b c : Dev} (h : Faulting a b) (k : Faulting b c) : Faulting a c :=
  ⟨k.lanes.trans h.lanes, k.ctxs.trans h.ctxs, fun s f => k.faults s (h.faults s f), fun p q f => k.pens p q (h.pens p q f)⟩

theorem faulting_of_same {d e : Dev} (h : SameButReports d e) : Faulting d e :=
  ⟨h.lanes, h.ctxs, fun s f => by rw [stationOf, h.stations]; exact f, fun _ _ f => pennant_of_same h f⟩

theorem stationOf_set (d : Dev) (s k : Nat) (x : Station) : stationOf (setStation d s x) k = if k = s then x else stationOf d k :=
  get_set _ _ _ _ _

theorem faulting_setStation (d : Dev) (s : Nat) {x : Station} (h : (stationOf d s).fault = true → x.fault = true) :
    Faulting d (setStation d s x) := by
  refine ⟨rfl, rfl, fun k f => ?_, fun _ _ f => f⟩
  rw [stationOf_set]
  split
  next same => rw [same] at f; exact h f
  · exact f

theorem faulting_islandDone (d : Dev) (x : Run) (key final status : Nat) (station : Option Nat) :
    Faulting d (islandDone d x key final status station) := by
  have beside := islandDone_besideWords d x key final status station
  have stations : (islandDone d x key final status station).stations = d.stations := beside.stations
  exact ⟨beside.lanes, beside.ctxs, fun s f => by rw [stationOf, stations]; exact f, (onward_islandDone d x key final status station).pens⟩

theorem faulting_leaveIsland (d : Dev) (s : Nat) : Faulting d (leaveIsland d s) :=
  (faulting_setStation d s (x := { stationOf d s with
    island := none, active := false, begun := false, ended := false, completeNow := false, armed := false, gateEnd := false
    fireNext := false, hold := none, resumeAt := none }) fun f => f).trans ⟨rfl, rfl, fun _ f => f, fun _ _ f => f⟩

theorem faulting_interruptIsland (d : Dev) (s : Nat) : Faulting d (interruptIsland d s) := by
  unfold interruptIsland
  split
  · exact (faulting_islandDone d _ _ 7 stInterrupted (some s)).trans (faulting_leaveIsland _ s)
  · exact .refl d

theorem faulting_decelerate (d : Dev) (s : Nat) : Faulting d (decelerate d s) := faulting_setStation d s fun f => f

theorem faulting_stationFault (d : Dev) (s cause : Nat) :
    Faulting d (stationFault d s cause) ∧ (d.enabled (pageStn s) = true → (stationOf (stationFault d s cause) s).fault = true) := by
  unfold stationFault
  dsimp only
  split
  · have set : Faulting d (setStation d s { stationOf d s with fault := true }) := faulting_setStation d s fun _ => rfl
    have rest := ((faulting_interruptIsland (setStation d s { stationOf d s with fault := true }) s).trans
      (faulting_decelerate _ s)).trans (faulting_of_same (same_raise _ (pageStn s) 9 clsMotion sevFault 0x0539 (pay s cause 0 0) (by decide)))
    exact ⟨set.trans rest, fun _ => rest.faults s (by rw [stationOf_set, if_pos rfl])⟩
  next stands =>
    refine ⟨.refl d, fun on => ?_⟩
    rw [on, Bool.true_and, Bool.not_eq_true'] at stands
    exact Bool.eq_true_of_not_eq_false stands

/-- A lost station lane faults its station where that is enabled, and its context waits for the return (R230, R342). -/
theorem loseStation_effect (d : Dev) (s : Nat) :
    (loseStation d s).lanes = d.lanes ∧ (ctxOf (loseStation d s) s).laneLost = true ∧
      (d.enabled (pageStn s) = true → (stationOf (loseStation d s) s).fault = true) ∧
      ∀ p b, d.pennant p b = true → (loseStation d s).pennant p b = true := by
  unfold loseStation
  dsimp only
  generalize hf : upto 3 _ (setCtx d s { ctxOf d s with laneLost := true }) = f
  have servos : f = { setCtx d s { ctxOf d s with laneLost := true } with axes := f.axes } := by
    rw [← hf]
    refine upto_induct (fun _ (e : Dev) => e = { setCtx d s { ctxOf d s with laneLost := true } with axes := e.axes }) rfl fun k e _ he => ?_
    split
    · conv_lhs => rw [he]
      rfl
    · exact he
  obtain ⟨after, faults⟩ := faulting_stationFault f s 2
  have lanes : f.lanes = d.lanes := by rw [servos]; rfl
  have regs : f.regs = d.regs := by rw [servos]; rfl
  have ctxs : ctxOf f s = { ctxOf d s with laneLost := true } := by
    rw [servos]
    exact (get_set (same {}) d.ctxs s s { ctxOf d s with laneLost := true }).trans (if_pos rfl)
  refine ⟨after.lanes.trans lanes, ?_, fun on => faults (by rw [Dev.enabled, Dev.flag, regs]; exact on),
    fun p b h => after.pens p b (by rw [Dev.pennant, regs]; exact h)⟩
  rw [ctxOf, after.ctxs]
  exact congrArg Ctx.laneLost ctxs

/-! ### A lane that is lost (R528) -/

theorem same_withRegsLanes {d e : Dev} (h : SameButReports d e) (f : RegFile) (x : Tab Lane) :
    SameButReports { d with regs := f, lanes := x } { e with regs := f, lanes := x } := same_withLanes (same_withRegs h f) x

/-- But for reports the second device differs from the first in registers and lanes alone. -/
def LanesAndWords (d e : Dev) : Prop := SameButReports { d with regs := e.regs, lanes := e.lanes } e

theorem LanesAndWords.trans {a b c : Dev} (h : LanesAndWords a b) (k : LanesAndWords b c) : LanesAndWords a c :=
  same_trans (same_withRegsLanes h c.regs c.lanes) k

theorem lanesAndWords_of_same {d e : Dev} (h : SameButReports d e) : LanesAndWords d e := by
  have := same_withLanes (same_ownRegs h) e.lanes
  exact this

theorem lanesAndWords_of_onlyRegs {d e : Dev} (h : OnlyRegs d e) : LanesAndWords d e := by
  have k := same_withLanes h.same e.lanes
  exact k

/-- A lane that is lost starts again, with LANE_LOST of its page and of LNK. -/
def lossNoted (d : Dev) (l : Nat) (cause : LossCause) : Dev :=
  raise (setPen (restartLane (if cause = .lockLost then setPen (d.count (pageLan l) 0x068) (pageLan l) 1 else d) l) pageLnk 0) (pageLan l) 2
    clsLink sevFault 0x0A02 (pay l (lossCode cause) 0 0)

theorem laneLoss_due {d : Dev} {l : Nat} {cause : LossCause} (due : lossDue d l cause = true) : laneLoss d l cause =
    if 48 ≤ l ∧ halyardUp d = true then raise (lossNoted d l cause) pageLnk 1 clsLink sevFault 0x0A06 (pay l 0 0 0)
    else if l < 48 ∧ (laneOf d l).stage = 5 ∧ (laneOf d l).logical < 32 then loseStation (lossNoted d l cause) (laneOf d l).logical
    else lossNoted d l cause := if_pos due

theorem lossDue_stage {d : Dev} {l : Nat} {cause : LossCause} (due : lossDue d l cause = true) : (laneOf d l).stage ≠ 0 := by
  unfold lossDue at due
  cases cause with
  | lockLost =>
    have := of_decide_eq_true due
    omega
  | markers =>
    have := beq_iff_eq.mp (Bool.and_elim_left due)
    omega
  | cycleStarts =>
    have := beq_iff_eq.mp (Bool.and_elim_left (Bool.and_elim_left due))
    omega

/-- What a loss notes: the lane begun anew, the pennants, and no CTL. -/
theorem lossNoted_effect (d : Dev) {l : Nat} (cause : LossCause) (on : (laneOf d l).stage ≠ 0) :
    (∀ k, laneOf (lossNoted d l cause) k = if k = l then freshLane (laneOf d l) 1 d.tick else laneOf d k) ∧
    (lossNoted d l cause).pennant (pageLan l) 2 = true ∧ (lossNoted d l cause).pennant pageLnk 0 = true ∧
    (lossNoted d l cause).enabled = d.enabled ∧ LanesAndWords d (lossNoted d l cause) := by
  have counted : ∃ e, (if cause = .lockLost then setPen (d.count (pageLan l) 0x068) (pageLan l) 1 else d) = e ∧ e.lanes = d.lanes ∧
      e.tick = d.tick ∧ e.enabled = d.enabled ∧ LanesAndWords d e := by
    split
    · exact ⟨_, rfl, (same_setPen _ _ _).lanes, (same_setPen _ _ _).tick,
          (silent_enabled.setPen _ _ _).trans (silent_enabled.count _ _ _ (by decide)),
        LanesAndWords.trans (b := d.count (pageLan l) 0x068) (same_refl _) (lanesAndWords_of_same (same_setPen _ _ _))⟩
    · exact ⟨_, rfl, rfl, rfl, rfl, same_refl _⟩
  obtain ⟨e, counted, lanes, tick, enabled, beside⟩ := counted
  have lane (k : Nat) : laneOf e k = laneOf d k := by rw [laneOf, lanes, laneOf]
  unfold lossNoted
  rw [counted, restartLane_on (by rwa [lane]), lane, tick]
  have pen := same_setPen (setLane e l (freshLane (laneOf d l) 1 d.tick)) pageLnk 0
  have told := same_raise (setPen (setLane e l (freshLane (laneOf d l) 1 d.tick)) pageLnk 0) (pageLan l) 2 clsLink sevFault 0x0A02
    (pay l (lossCode cause) 0 0) (by decide)
  have same := same_trans pen told
  refine ⟨fun k => ?_, pennant_raised _ (by decide) (by decide), pennant_of_same told (pennant_setPen _ _ (by decide)), ?_, ?_⟩
  · rw [laneOf, same.lanes, ← lane k, ← laneOf_set]
    rfl
  · exact ((silent_enabled.raise _ _ _ _ _ _ _).trans (silent_enabled.setPen _ _ _)).trans enabled
  · exact (beside.trans (b := e) (c := setLane e l (freshLane (laneOf d l) 1 d.tick)) (same_refl _)).trans (lanesAndWords_of_same same)

/-! ### Blocks (R512 to R514) -/

section
variable {d : Dev} {l : Nat}

theorem takeMarker_third {v : Nat} (stage : (laneOf d l).stage = 3) (valid : mkValid (v % 2 ^ 56) = true) :
    takeMarker d l v = setLane d l { laneOf d l with lastMarker := some (BitVec.ofNat 64 v), markerSeen := true } := by
  unfold takeMarker
  dsimp only
  rw [if_neg, if_pos stage]
  rintro (early | bad | ⟨-, other⟩)
  · omega
  · rw [valid] at bad
    cases bad
  · exact other stage

theorem takeMarker_none {v : Nat} (h : (laneOf d l).stage < 3 ∨ mkValid (v % 2 ^ 56) = false) : takeMarker d l v = d :=
  if_pos (h.imp_right .inl)

theorem takeMarker_halyard {v : Nat} {m : Long} (far : 48 ≤ l) (stage : 4 ≤ (laneOf d l).stage) (valid : mkValid v = true)
    (plain : v < 2 ^ 56)
    (last : (laneOf d l).lastMarker = some m) (again : mkSame m.toNat v = true) :
    takeMarker d l v = setLane d l { laneOf d l with
      lastMarker := some (BitVec.ofNat 64 v), agree := (laneOf d l).agree + 1
      superframe := BitVec.ofNat 16 (mkSuper v), markerSeen := true } := by
  have own : v % 2 ^ 56 = v := Nat.mod_eq_of_lt plain
  have upright : mkInverted v = false := Nat.testBit_lt_two_pow plain
  unfold takeMarker
  dsimp only
  rw [own, if_neg, if_neg (by omega), last]
  · dsimp only
    rw [if_neg (by omega), if_pos again]
  · rintro (early | bad | ⟨inverted, -⟩)
    · omega
    · rw [valid] at bad
      cases bad
    · rw [upright] at inverted
      cases inverted

theorem takeCycleStart_taken {v n : Nat} (near : l < 48) (stage : 3 ≤ (laneOf d l).stage) (now : v % 2 ^ 56 = d.cycle % 2 ^ 32)
    (small : n < 131072) :
    takeCycleStart d l v n = setLane d l { laneOf d l with startSeen := true, startsMissed := 0, latency := n / 2 } := by
  unfold takeCycleStart
  dsimp only
  rw [if_pos ⟨near, stage, now⟩, Nat.mod_eq_of_lt (by omega)]

theorem takeCycleStart_other {v : Nat} (n : Nat) (h : (laneOf d l).stage < 3 ∨ v % 2 ^ 56 ≠ d.cycle % 2 ^ 32) :
    takeCycleStart d l v n = d := by
  refine if_neg ?_
  rintro ⟨-, stage, now⟩
  rcases h with early | other
  · omega
  · exact other now

theorem takeUnknown_type {t : BitVec 8} (stage : 3 ≤ (laneOf d l).stage) (unknown : knownBlock t.toNat = false) :
    takeUnknown d l (.reserved t) = d.count (pageLan l) 0x074 := by
  unfold takeUnknown
  rw [if_pos stage]
  dsimp only
  rw [unknown]
  rfl

theorem takeUnknown_known {t : BitVec 8} (known : knownBlock t.toNat = true) : takeUnknown d l (.reserved t) = d := by
  unfold takeUnknown
  split
  · exact if_pos known
  · rfl

theorem takeUnknown_header (stage : 3 ≤ (laneOf d l).stage) : takeUnknown d l .syncHeader = d.count (pageLan l) 0x064 := if_pos stage

theorem takeUnknown_early (b : BadBlock) (early : (laneOf d l).stage < 3) : takeUnknown d l b = d := if_neg (by omega)

end

/-! ### Eye scans (R530) -/

/-- The table of a scan from a list of its counts. -/
theorem eyeTable_get (table : List Word) : ∀ (n : Nat) (a : Tab Word), (∀ k, n ≤ k → a.get (same 0) k = 0) →
    ∀ k, (table.foldl (fun (a : Tab Word × Nat) w => (a.1.set (same 0) a.2 w, a.2 + 1)) (a, n)).1.get (same 0) k =
      if k < n then a.get (same 0) k else table.getD (k - n) 0 := by
  induction table with
  | nil =>
    intro n a rest k
    simp only [List.foldl_nil, List.getD_nil]
    split
    · rfl
    · exact rest k (by omega)
  | cons w table ih =>
    intro n a rest k
    rw [List.foldl_cons, ih (n + 1) _ (fun j hj => by rw [get_set, if_neg (by omega)]; exact rest j (by omega))]
    rcases Nat.lt_trichotomy k n with before | rfl | after
    · rw [if_pos (by omega), if_pos before, get_set, if_neg (by omega)]
    · rw [if_pos (Nat.lt_succ_self k), if_neg (Nat.lt_irrefl k), get_set, if_pos rfl, Nat.sub_self, List.getD_cons_zero]
    · rw [if_neg (by omega), if_neg (by omega), show k - n = (k - (n + 1)) + 1 by omega, List.getD_cons_succ]

theorem eyeDone_effect {d : Dev} {l : Nat} (table : List Word) (runs : (laneOf d l).eyeDwell.isSome = true) (up : (laneOf d l).stage = 5) :
    ∃ y : Lane, y.eyeDwell = none ∧
      y.eye = ((table.take 4032).foldl (fun (a : Tab Word × Nat) w => (a.1.set (same 0) a.2 w, a.2 + 1)) ([], 0)).1 ∧
      (eyeDone d l table).lanes = (setLane d l y).lanes ∧ (eyeDone d l table).pennant (pageLan l) 5 = true ∧
      LanesAndWords d (eyeDone d l table) := by
  unfold eyeDone
  dsimp only
  rw [if_pos ⟨runs, up⟩]
  have told (e : Dev) (payload : Nat) := same_raise e (pageLan l) 5 clsLink sevInfo 0x0A07 payload (by decide)
  exact ⟨_, rfl, rfl, (told _ _).lanes, pennant_raised _ (by decide) (by decide),
    LanesAndWords.trans (b := Dev.setReg (setLane d l _) (pageLan l) 0x04C _) (same_refl _) (lanesAndWords_of_same (told _ _))⟩

/-- LAN_EYE_CMD. -/
def eyeReg : Reg := ⟨0x040, 0, 1, [wo 0 1 .live 0 [], rw 8 8 .live 16 [(1, 255)]]⟩

theorem eyeReg_found : PageKind.lan.reg? 0x040 = some eyeReg := by decide

theorem kindOf_pageLan : ∀ l : Fin 56, kindOf (pageLan l.val) = some .lan := by decide

theorem stored_dwell (d : Dev) (p : Nat) (w : Word) : (stored d p 0x040 eyeReg w.toNat).rfld p 0x040 8 8 = bits w.toNat 8 8 := by
  have mask : storeMask eyeReg % 2 ^ 32 = 0xFF01 := by decide
  rw [Dev.rfld, stored_read, if_pos rfl, mask]
  exact bits_mergeBits (by decide) (by decide)

theorem lanWord_silent (l : Fin 56) {off : Nat} (ho : off < 4096) (pen : off ≠ 0x010) : reportWord (wordAddr (pageLan l.val) off) = false :=
  reportWord_far (by unfold pageLan; omega) ho pen

theorem lossDue_at (s : State) (u l : Nat) (c : LossCause) : lossDue (s.at u) l c = lossDue s.dev l c := by
  unfold lossDue
  rw [at_laneOf, at_fld s u 8 8 (p := pageLnk) (off := 0x040) (by decide)]

section
variable {s : State} {u : Nat} {l : Fin 56}

/-- The loss of an UP lane of a logical station frees it, and latches the loss in its context and its station. -/
theorem laneLost_station {c : LossCause} (due : lossDue s.dev l.val c = true) (near : l.val < 48) (up : (laneOf s.dev l.val).stage = 5)
    (logical : (laneOf s.dev l.val).logical < 32) : Answers s (.laneLost u l c) fun t =>
      t.nv = s.nv ∧ t.dev.pennant (pageLan l.val) 2 = true ∧ t.dev.pennant pageLnk 0 = true ∧
      laneOf t.dev l.val = freshLane (laneOf s.dev l.val) 1 (s.at u).tick ∧ (∀ k, k ≠ l.val → laneOf t.dev k = laneOf s.dev k) ∧
      (ctxOf t.dev (laneOf s.dev l.val).logical).laneLost = true ∧
      (s.dev.enabled (pageStn (laneOf s.dev l.val).logical) = true → (stationOf t.dev (laneOf s.dev l.val).logical).fault = true) := by
  have lane (k : Nat) : laneOf (s.at u) k = laneOf s.dev k := at_laneOf s u k
  have lost := answers_laneLost s u l c
  have due' : lossDue (s.at u) l.val c = true := (lossDue_at s u l.val c).trans due
  obtain ⟨lanes, told, linked, enabled, -⟩ := lossNoted_effect (s.at u) c (lossDue_stage due')
  rw [laneLoss_due due', if_neg (by omega), lane, if_pos ⟨near, up, logical⟩] at lost
  obtain ⟨after, ctx, fault, pens⟩ := loseStation_effect (lossNoted (s.at u) l.val c) (laneOf s.dev l.val).logical
  refine answers_mono lost fun t ⟨nv, same⟩ => ?_
  have lanes (k : Nat) : laneOf t.dev k = if k = l.val then freshLane (laneOf s.dev l.val) 1 (s.at u).tick else laneOf s.dev k := by
    rw [laneOf, same.lanes, after, ← laneOf, lanes, lane, lane]
  refine ⟨nv, pennant_of_same same (pens _ _ told), pennant_of_same same (pens _ _ linked), (lanes _).trans (if_pos rfl),
    fun k other => (lanes k).trans (if_neg other), ?_, fun on => ?_⟩
  · rw [ctxOf, same.ctxs]
    exact ctx
  · rw [stationOf, same.stations]
    exact fault (by rw [enabled, at_enabled]; exact on)

/-- The loss of another lane frees it and is told. -/
theorem laneLost_plain {c : LossCause} (due : lossDue s.dev l.val c = true)
    (other : 48 ≤ l.val ∨ (laneOf s.dev l.val).stage ≠ 5 ∨ 32 ≤ (laneOf s.dev l.val).logical) : Answers s (.laneLost u l c) fun t =>
      t.nv = s.nv ∧ t.dev.pennant (pageLan l.val) 2 = true ∧ t.dev.pennant pageLnk 0 = true ∧
      laneOf t.dev l.val = freshLane (laneOf s.dev l.val) 1 (s.at u).tick ∧ (∀ k, k ≠ l.val → laneOf t.dev k = laneOf s.dev k) ∧
      SameButReports { s.at u with regs := t.dev.regs, lanes := t.dev.lanes } t.dev := by
  have lane (k : Nat) : laneOf (s.at u) k = laneOf s.dev k := at_laneOf s u k
  have lost := answers_laneLost s u l c
  have due' : lossDue (s.at u) l.val c = true := (lossDue_at s u l.val c).trans due
  obtain ⟨lanes, told, linked, -, only⟩ := lossNoted_effect (s.at u) c (lossDue_stage due')
  have apart : ¬(l.val < 48 ∧ (laneOf (s.at u) l.val).stage = 5 ∧ (laneOf (s.at u) l.val).logical < 32) := by
    rw [lane]
    rintro ⟨near, up, logical⟩
    rcases other with far | down | far
    · omega
    · exact down up
    · exact absurd logical (Nat.not_lt.mpr far)
  rw [laneLoss_due due', if_neg apart] at lost
  have rest : SameButReports (lossNoted (s.at u) l.val c) (if 48 ≤ l.val ∧ halyardUp (s.at u) = true then
      raise (lossNoted (s.at u) l.val c) pageLnk 1 clsLink sevFault 0x0A06 (pay l.val 0 0 0) else lossNoted (s.at u) l.val c) := by
    split
    · exact same_raise _ _ _ _ _ _ _ (by decide)
    · exact same_refl _
  refine answers_mono lost fun t ⟨nv, same⟩ => ?_
  have same := same_trans rest same
  have lanes (k : Nat) : laneOf t.dev k = if k = l.val then freshLane (laneOf s.dev l.val) 1 (s.at u).tick else laneOf s.dev k := by
    rw [laneOf, same.lanes, ← laneOf, lanes, lane, lane]
  exact ⟨nv, pennant_of_same same told, pennant_of_same same linked, (lanes _).trans (if_pos rfl),
    fun k other => (lanes k).trans (if_neg other), only.trans (lanesAndWords_of_same same)⟩

theorem laneLost_idle {c : LossCause} (idle : lossDue s.dev l.val c = false) : AnswersButReports s (.laneLost u l c) (s.at u) := by
  have lost := answers_laneLost s u l c
  have out : laneLoss (s.at u) l.val c = s.at u := if_neg (by rw [lossDue_at, idle]; decide)
  rwa [out] at lost

/-- START of an UP lane's scan sets its dwell. -/
theorem eyeScan_begins {w : Word} (ok : writeAccepted (s.at u) (pageLan l.val) 0x040 w.toNat = true) (start : w.getLsbD 0 = true)
    (up : (laneOf s.dev l.val).stage = 5) : Answers s (.lanEyeStart u l w) fun t =>
      t.nv = s.nv ∧ (laneOf t.dev l.val).eyeDwell = some (bits w.toNat 8 8) ∧ (laneOf t.dev l.val).stage = 5 ∧
      SameButReports { s.at u with regs := t.dev.regs, lanes := t.dev.lanes } t.dev := by
  have begun := answers_lanEyeStart s u l w
  rw [withWrite_stores _ ok (kindOf_pageLan l) eyeReg_found rfl rfl rfl] at begun
  have beside := onlyRegs_stored (s.at u) (pageLan l.val) 0x040 eyeReg w.toNat
  have dwell := stored_dwell (s.at u) (pageLan l.val) w
  generalize stored (s.at u) (pageLan l.val) 0x040 eyeReg w.toNat = e at begun beside dwell
  have own : laneOf e l.val = laneOf s.dev l.val := (congrArg (fun d : Dev => laneOf d l.val) beside).trans (at_laneOf s u l.val)
  generalize laneOf s.dev l.val = x at own up
  have starts : eyeCommand e l.val w.toNat = setLane e l.val { x with eyeDwell := some (bits w.toNat 8 8) } := by
    unfold eyeCommand eyeStart
    rw [if_pos (show bit w.toNat 0 = true from start), own, dwell]
    exact if_pos up
  rw [starts] at begun
  refine answers_mono begun fun t ⟨nv, same⟩ => ?_
  have now : laneOf t.dev l.val = { x with eyeDwell := some (bits w.toNat 8 8) } := by
    rw [laneOf, same.lanes]
    exact (laneOf_set e l.val l.val _).trans (if_pos rfl)
  refine ⟨nv, by rw [now], by rw [now]; exact up, ?_⟩
  exact LanesAndWords.trans (b := e) (lanesAndWords_of_onlyRegs beside)
    (LanesAndWords.trans (b := setLane e l.val { x with eyeDwell := some (bits w.toNat 8 8) }) (same_refl _) (lanesAndWords_of_same same))

/-- The end of a scan brings its counts. -/
theorem eyeScan_ends {table : List Word} (runs : (laneOf s.dev l.val).eyeDwell.isSome = true) (up : (laneOf s.dev l.val).stage = 5)
    (whole : table.length = 4032) : Answers s (.eyeScanDone u l table) fun t =>
      t.nv = s.nv ∧ (laneOf t.dev l.val).eyeDwell = none ∧ t.dev.pennant (pageLan l.val) 5 = true ∧
      (∀ k, k < 4032 → (laneOf t.dev l.val).eye.get (same 0) k = table.getD k 0) ∧
      SameButReports { s.at u with regs := t.dev.regs, lanes := t.dev.lanes } t.dev := by
  have lane := at_laneOf s u l.val
  have done := answers_eyeScanDone s u l table
  obtain ⟨y, stopped, eye, lanes, told, only⟩ := eyeDone_effect table (by rwa [lane]) (by rwa [lane] : (laneOf (s.at u) l.val).stage = 5)
  refine answers_mono done fun t ⟨nv, same⟩ => ?_
  have now : laneOf t.dev l.val = y := by
    rw [laneOf, same.lanes, lanes]
    exact (laneOf_set (s.at u) l.val l.val y).trans (if_pos rfl)
  refine ⟨nv, by rw [now, stopped], pennant_of_same same told, fun k hk => ?_, only.trans (lanesAndWords_of_same same)⟩
  rw [now, eye, List.take_of_length_le (Nat.le_of_eq whole), eyeTable_get table 0 [] (fun _ _ => rfl), if_neg (Nat.not_lt_zero k)]
  rfl

end

/-- Settles O41: what each block leaves on its lane, a lane that is lost, and an eye scan. -/
theorem laneBlocks : Obligations.LaneBlocks := by
  unfold Obligations.LaneBlocks
  intro s u l v x
  have lane (k : Nat) : laneOf (s.at u) k = laneOf s.dev k := at_laneOf s u k
  have cycle : (s.at u).cycle = s.dev.cycle := at_cycle s u
  have own : BitVec.ofNat 64 v.toNat = v := BitVec.ofNat_toNat 64 v |>.trans (BitVec.setWidth_eq v)
  have marker := answers_marker s u l v
  have rfld {off : Nat} (ho : off < 4096) (pen : off ≠ 0x010) : (s.at u).rfld (pageLan l.val) off 0 32 = s.dev.rfld (pageLan l.val) off 0 32 :=
    at_rfld s u 0 32 (lanWord_silent l ho pen)
  refine ⟨fun stage valid => ?_, fun h => ?_, fun m far stage valid plain last again => ?_, fun n near stage now small => ?_, fun n h => ?_,
    fun ty => ⟨fun stage unknown => ?_, fun known => ?_⟩, fun stage => ?_, fun early => ?_,
    fun c => ⟨laneLost_station, laneLost_plain, laneLost_idle⟩, fun w => eyeScan_begins, fun table => eyeScan_ends⟩
  · rwa [takeMarker_third (by rwa [lane]) valid, lane, own] at marker
  · rwa [takeMarker_none (by rwa [lane])] at marker
  · rwa [takeMarker_halyard far (by rwa [lane]) valid plain (by rwa [lane]) again, lane, own] at marker
  · have block := answers_cycleStartBlock s u l v n
    rwa [takeCycleStart_taken near (by rwa [lane]) (by rwa [cycle]) small, lane] at block
  · have block := answers_cycleStartBlock s u l v n
    rwa [takeCycleStart_other n (by rwa [lane, cycle])] at block
  · have block := answers_unknownBlock s u l (.reserved ty)
    rwa [takeUnknown_type (by rwa [lane]) unknown, Dev.count, Dev.addCount, rfld (by decide) (by decide)] at block
  · have block := answers_unknownBlock s u l (.reserved ty)
    rwa [takeUnknown_known known] at block
  · have block := answers_unknownBlock s u l .syncHeader
    rwa [takeUnknown_header (by rwa [lane]), Dev.count, Dev.addCount, rfld (by decide) (by decide)] at block
  · have block := answers_unknownBlock s u l .syncHeader
    rwa [takeUnknown_early _ (by rwa [lane])] at block

end Sys2Proof.Proofs
end

section
/-! Requests and column commands of the DRAM controller: O50. -/
namespace Sys2Proof.Proofs
open Sys2Proof.Machine Sys2Proof.Laws

theorem same_withDram {d e : Dev} (h : SameButReports d e) (x : Dram) : SameButReports { d with dram := x } { e with dram := x } := by
  obtain ⟨_, _, _, _, _, _, _, _, _, _, _, _⟩ := h
  constructor <;> first | rfl | assumption

theorem memWord_silent {off : Nat} (ho : off < 4096) (pen : off ≠ 0x010) : reportWord (wordAddr pageMem off) = false := by
  have page : wordAddr pageMem off / 4096 = pageMem := wordAddr_page ho
  have place : wordAddr pageMem off % 4096 = off := wordAddr_offset ho
  simp only [reportWord, page, place, Bool.or_eq_false_iff, Bool.and_eq_false_iff, beq_eq_false_iff_ne, decide_eq_false_iff_not]
  simp only [wordAddr, pageEvq, pageMem]
  omega

/-! ### The targets of the ports

A port is any number, so that its words may be any page's; a target is a pennant word of a page at most, and only rises. -/

/-- No port's target has fallen. -/
def TargetsRise (d e : Dev) : Prop := ∀ p, portTarget d p ≤ portTarget e p

theorem bits_le_setBits_one (w : Word) (b n : Nat) : bits w.toNat 0 n ≤ bits (setBits w b 1 1).toNat 0 n := by
  have own : b < 32 → (setBits w b 1 1).toNat.testBit b = true := by
    intro hb
    have k := congrArg (Nat.testBit · 0) (bits_setBits_own w (lo := b) (n := 1) 1 (by omega))
    rwa [testBit_bits] at k
  have kept : bits w.toNat 0 n &&& bits (setBits w b 1 1).toNat 0 n = bits w.toNat 0 n := Nat.eq_of_testBit_eq fun i => by
    rw [Nat.testBit_and, testBit_bits, testBit_bits, Nat.zero_add]
    by_cases h : i = b
    · subst h
      by_cases hi : i < 32
      · rw [own hi, Bool.and_true, Bool.and_comm (decide _), Bool.and_assoc, Bool.and_self]
      · simp [Nat.testBit_lt_two_pow (lt_of_lt_of_le w.isLt (Nat.pow_le_pow_right (by decide) (Nat.le_of_not_lt hi)))]
    · rw [testBit_setBits_other w (by omega), Bool.and_self]
  exact kept ▸ Nat.and_le_right

theorem targetsRise_of_fld {d e : Dev} (h : ∀ p, e.fld pageMem (0x100 + 16 * p) 0 16 = d.fld pageMem (0x100 + 16 * p) 0 16) :
    TargetsRise d e :=
  fun p => Nat.le_of_eq (h p).symm

theorem targetsRise_setReg (d : Dev) {p off : Nat} (v : Nat) (apart : ∀ q, wordAddr pageMem (0x100 + 16 * q) ≠ wordAddr p off) :
    TargetsRise d (d.setReg p off v) := targetsRise_of_fld fun q => setReg_fld_other d v 0 16 (apart q)

theorem targetsRise_pen (d : Dev) (p b : Nat) : TargetsRise d (d.setFld p 0x010 b 1 1) := by
  intro q
  rw [portTarget, portTarget, Dev.fld, Dev.fld, setFld_inUse]
  split
  · exact bits_le_setBits_one _ b 16
  · exact Nat.le_refl _

theorem targetsRise_passing : Passing TargetsRise where
  refl _ _ := Nat.le_refl _
  trans first second p := Nat.le_trans (first p) (second p)
  lost d p := targetsRise_setReg d _ fun q => by unfold wordAddr; omega
  opened d := targetsRise_setReg d _ fun q => by unfold wordAddr; omega
  pen d p := targetsRise_pen d p 1
  full d := targetsRise_pen d pageRec 0
  stamps _ _ _ := Nat.le_refl _
  filed _ _ _ _ _ := Nat.le_refl _
  windows _ _ _ := Nat.le_refl _
  kept _ _ _ := Nat.le_refl _
  triggers _ _ _ := Nat.le_refl _
  recorder _ _ _ := Nat.le_refl _
  tick _ _ _ := Nat.le_refl _

/-- AGE of the ports, as it stands in the upper half of their words. -/
def agesOf (d : Dev) (p : Nat) : Nat := d.fld pageMem (0x100 + 16 * p) 16 16

theorem agesOf_setReg (d : Dev) {p off : Nat} (v : Nat) (apart : ∀ q, wordAddr pageMem (0x100 + 16 * q) ≠ wordAddr p off) :
    agesOf (d.setReg p off v) = agesOf d := funext fun q => setReg_fld_other d v 16 16 (apart q)

theorem agesOf_pen (d : Dev) (p : Nat) {b : Nat} (low : b < 16) : agesOf (d.setFld p 0x010 b 1 1) = agesOf d := by
  funext q
  rw [agesOf, agesOf, Dev.fld, Dev.fld, setFld_inUse]
  split
  · exact bits_setBits_other _ 1 (.inr (by omega))
  · rfl

theorem agesOf_passing : Passing fun d e => agesOf e = agesOf d where
  refl _ := rfl
  trans first second := second.trans first
  lost d p := agesOf_setReg d _ fun q => by unfold wordAddr; omega
  opened d := agesOf_setReg d _ fun q => by unfold wordAddr; omega
  pen d p := agesOf_pen d p (by decide)
  full d := agesOf_pen d pageRec (by decide)
  stamps _ _ := rfl
  filed _ _ _ _ := rfl
  windows _ _ := rfl
  kept _ _ := rfl
  triggers _ _ := rfl
  recorder _ _ := rfl
  tick _ _ := rfl

/-! ### The memory's setup -/

/-- The words that set the memory up and its queue stand. -/
structure SetUp (d e : Dev) : Prop where
  words : ∀ off, off = 0x008 ∨ off = 0x040 ∨ 0x1B0 ≤ off ∧ off < 0x1C4 →
      e.regs.inUse (wordAddr pageMem off) = d.regs.inUse (wordAddr pageMem off)
  queue : e.dram.queue = d.dram.queue
  trained : e.dram.trained = d.dram.trained

theorem setUp_of_same {d e : Dev} (h : SameButReports d e) : SetUp d e :=
  ⟨fun off which => h.regs.inUse _ (memWord_silent (by omega) (by omega)), by rw [h.dram], by rw [h.dram]⟩

theorem memBytes_of_word {d e : Dev} (h : e.regs.inUse (wordAddr pageMem 0x040) = d.regs.inUse (wordAddr pageMem 0x040)) :
    memBytes e = memBytes d := by
  unfold memBytes memGiB memBoth memTwoRanks Dev.flag
  rw [h]

section
variable {d e : Dev} (h : SetUp d e)
include h

theorem SetUp.capacity : e.regs.inUse (wordAddr pageMem 0x040) = d.regs.inUse (wordAddr pageMem 0x040) := h.words _ (.inr (.inl rfl))
theorem SetUp.memReady : memReady e = memReady d := by
  rw [Machine.memReady, Dev.enabled, Dev.flag, h.words _ (.inl rfl), h.trained]
  rfl
theorem SetUp.memBoth : memBoth e = memBoth d := by rw [Machine.memBoth, Dev.flag, h.capacity]; rfl
theorem SetUp.memTwoRanks : memTwoRanks e = memTwoRanks d := by rw [Machine.memTwoRanks, Dev.flag, h.capacity]; rfl
theorem SetUp.memBytes : memBytes e = memBytes d := memBytes_of_word h.capacity
theorem SetUp.memPlace (a : Nat) : memPlace e a = memPlace d a := by
  unfold Machine.memPlace
  have mask (k : Nat) (hk : k ∈ List.range 5) : e.fld pageMem (0x1B0 + 4 * k) 0 18 = d.fld pageMem (0x1B0 + 4 * k) 0 18 := by
    rw [List.mem_range] at hk
    rw [Dev.fld, h.words _ (.inr (.inr (by omega))), Dev.fld]
  dsimp only
  rw [h.memBoth, h.memTwoRanks]
  rw [List.foldl_ext _ _ _ fun x k hk => by rw [mask k hk]]
theorem SetUp.inSub (sc : Nat) : inSub e sc = inSub d sc := funext fun q => by rw [Machine.inSub, h.memPlace]; rfl
theorem SetUp.queueRoom (q : DramReq) : queueRoom e q = queueRoom d q := by
  unfold Machine.queueRoom
  simp only [h.memPlace, h.inSub, h.queue]

end

/-! ### Readings that an arrival keeps -/

section
variable (s : State) (u : Nat)

theorem at_dram : (s.at u).dram = s.dev.dram := arrive_dram _ _
theorem at_memFlag {off : Nat} (b : Nat) (ho : off < 4096) (pen : off ≠ 0x010) : (s.at u).flag pageMem off b = s.dev.flag pageMem off b :=
  at_flag s u b (memWord_silent ho pen)
theorem at_memFld {off : Nat} (lo w : Nat) (ho : off < 4096) (pen : off ≠ 0x010) :
    (s.at u).fld pageMem off lo w = s.dev.fld pageMem off lo w :=
  at_fld s u lo w (memWord_silent ho pen)
theorem at_portTarget (p : Nat) : portTarget s.dev p ≤ portTarget (s.at u) p := targetsRise_passing.arrive s.now u p
theorem at_agesOf (p : Nat) : agesOf (s.at u) p = agesOf s.dev p := congrFun (agesOf_passing.arrive s.now u) p
theorem at_setUp : SetUp s.dev (s.at u) :=
  ⟨fun off which => at_inUse s u (memWord_silent (by omega) (by omega)), by rw [at_dram], by rw [at_dram]⟩
theorem at_memReady : memReady (s.at u) = memReady s.dev := (at_setUp s u).memReady
theorem at_memBoth : memBoth (s.at u) = memBoth s.dev := (at_setUp s u).memBoth
theorem at_memTwoRanks : memTwoRanks (s.at u) = memTwoRanks s.dev := (at_setUp s u).memTwoRanks
theorem at_memBytes : memBytes (s.at u) = memBytes s.dev := (at_setUp s u).memBytes
theorem at_memPlace (a : Nat) : memPlace (s.at u) a = memPlace s.dev a := (at_setUp s u).memPlace a
theorem at_inSub (sc : Nat) : inSub (s.at u) sc = inSub s.dev sc := (at_setUp s u).inSub sc
theorem at_queueRoom (q : DramReq) : queueRoom (s.at u) q = queueRoom s.dev q := (at_setUp s u).queueRoom q
theorem at_writeWaits (q : DramReq) : writeWaits (s.at u) q = writeWaits s.dev q := by rw [writeWaits, at_dram]; rfl
theorem at_burstAt (b : Nat) : burstAt (s.at u) b = burstAt s.dev b := by
  have slot (k : Nat) : slotHeat (s.at u) k = slotHeat s.dev k := by unfold slotHeat; rw [at_heats]
  unfold burstAt
  rw [at_dram]
  simp only [slot]

end

/-! ### Requests (R537, R543, R544) -/

theorem without_held {d : Dev} (empty : d.dram.held = []) : ({ d with dram := { d.dram with held := [] } } : Dev) = d := by
  have own : ({ d.dram with held := [] } : Dram) = d.dram := by rw [← empty]
  rw [own]

theorem acceptHeld_none {d : Dev} (empty : d.dram.held = []) : acceptHeld d = d := by
  unfold acceptHeld
  split
  · rw [empty]
    exact without_held empty
  · rfl

theorem acceptHeld_unready {d : Dev} (unready : memReady d = false) : acceptHeld d = d := if_neg (by rw [unready]; decide)

theorem requestBursts_unready {d : Dev} (unready : memReady d = false) (qs : List DramReq) :
    requestBursts d qs = { d with dram := { d.dram with held := d.dram.held ++ qs } } := acceptHeld_unready unready

/-- What an accepted request leaves besides the queue: a port's bucket. -/
theorem acceptReq_queued {d : Dev} {q : DramReq} (inside : q.addr < memBytes d) (now : q.at0 = d.tick) : ∃ b,
    acceptReq d q = { d with dram := { d.dram with queue := d.dram.queue ++ [q], buckets := b } } ∧
        (q.client = .writeBack → b = d.dram.buckets) := by
  have own : { q with at0 := d.tick } = q := by rw [← now]
  unfold acceptReq spend
  rw [if_neg (Nat.not_le.mpr inside), own]
  dsimp only
  repeat' split
  next => exact ⟨_, rfl, fun _ => rfl⟩
  next => exact ⟨_, rfl, fun _ => rfl⟩
  next other _ => exact ⟨_, rfl, fun back => absurd back other⟩

theorem acceptReq_held (d : Dev) (q : DramReq) : (acceptReq d q).dram.held = d.dram.held := by
  unfold acceptReq spend
  dsimp only
  repeat' split
  all_goals rfl

/-- A held request enters, or joins those that stay held. -/
def takeHeld (x : Dev × List DramReq) (q : DramReq) : Dev × List DramReq :=
  if !heldBack x.2 q && (decide (memBytes x.1 ≤ q.addr) ||
      ((q.client == .writeBack || rateAdmits x.1 q.port) && queueRoom x.1 q)) then
    (acceptReq x.1 q, x.2)
  else (x.1, x.2 ++ [q])

theorem acceptHeld_ready {d : Dev} (ready : memReady d = true) {r : Dev × List DramReq}
    (taken : d.dram.held.foldl takeHeld ({ d with dram := { d.dram with held := [] } }, []) = r) :
    acceptHeld d = { r.1 with dram := { r.1.dram with held := r.2 } } := by
  subst taken
  exact if_pos ready

/-- The request goes on at once where none is held: beyond the capacity, or with the port's budget and room in the queue. -/
def entersNow (d : Dev) (q : DramReq) : Prop :=
  memBytes d ≤ q.addr ∨ (q.client = .writeBack ∨ rateAdmits d q.port = true) ∧ queueRoom d q = true

theorem takeHeld_enters {d : Dev} {q : DramReq} (now : entersNow d q) : takeHeld (d, []) q = (acceptReq d q, []) :=
  if_pos (by simpa [heldBack, entersNow] using now)

theorem takeHeld_waits {d : Dev} {q : DramReq} (wait : ¬entersNow d q) : takeHeld (d, []) q = (d, [q]) :=
  if_neg fun h => wait (by simpa [heldBack, entersNow] using h)

section
variable {d : Dev} {q : DramReq} (ready : memReady d = true) (empty : d.dram.held = [])
include ready empty

theorem single_taken {r : Dev × List DramReq} (taken : takeHeld (d, []) q = r) :
    requestBursts d [q] = { r.1 with dram := { r.1.dram with held := r.2 } } := by
  refine acceptHeld_ready (d := { d with dram := { d.dram with held := d.dram.held ++ [q] } }) ready ?_
  have back : ({ d with dram := { d.dram with held := [] } } : Dev) = d := without_held empty
  have one : d.dram.held ++ [q] = [q] := by rw [empty]; rfl
  dsimp only
  rw [one, back, List.foldl_cons, List.foldl_nil]
  exact taken

theorem single_enters (now : entersNow d q) : requestBursts d [q] = acceptReq d q :=
  (single_taken ready empty (takeHeld_enters now)).trans (without_held ((acceptReq_held d q).trans empty))

theorem single_waits (wait : ¬entersNow d q) : requestBursts d [q] = { d with dram := { d.dram with held := [q] } } :=
  single_taken ready empty (takeHeld_waits wait)

end

/-- What a request beyond the capacity leaves (R537). -/
theorem acceptReq_beyond {d : Dev} {q : DramReq} (beyond : memBytes d ≤ q.addr) :
    acceptReq d q = if q.write then d.count pageMem 0x07C else (d.count pageMem 0x07C).send (.dram q.port q.addr 0 false) := if_pos beyond

/-! ### The order of R542 -/

/-- What R542 compares of a request. -/
def reqKey (d : Dev) (q : DramReq) : List Nat :=
  [q.cls, boolNat q.promoted, 3 - urgency d q, boolNat (!rowOpen d q), q.at0, q.port]

theorem reqBefore_iff {d : Dev} {a b : DramReq} : reqBefore d a b = true ↔ List.Lex (· < ·) (reqKey d a) (reqKey d b) := decide_eq_true_iff

theorem reqBefore_asymm {d : Dev} {a b : DramReq} (h : reqBefore d a b = true) : ¬reqBefore d b a = true := by
  rw [reqBefore_iff] at h ⊢
  exact fun k => List.lt_asymm h k

theorem reqBefore_class (d : Dev) {a b : DramReq} (lower : a.cls < b.cls) : reqBefore d a b = true := reqBefore_iff.mpr (.rel lower)

theorem chooseReq_mem {d : Dev} {l : List DramReq} : ∀ {b : DramReq}, chooseReq d l = some b → b ∈ l := by
  induction l with
  | nil => exact fun h => nomatch h
  | cons q t ih =>
    intro b h
    unfold chooseReq at h
    split at h
    · exact Option.some.inj h ▸ List.mem_cons_self
    next c found =>
      split at h
      · exact Option.some.inj h ▸ List.mem_cons_of_mem q (ih found)
      · exact Option.some.inj h ▸ List.mem_cons_self

/-- The request that goes before every other one is the one that is chosen. -/
theorem chooseReq_least {d : Dev} {q : DramReq} {l : List DramReq} (mem : q ∈ l) (least : ∀ x, x ∈ l → x ≠ q → reqBefore d q x = true) :
    chooseReq d l = some q := by
  induction l with
  | nil => exact absurd mem List.not_mem_nil
  | cons a t ih =>
    have rest := fun (later : q ∈ t) => ih later fun x hx => least x (List.mem_cons_of_mem a hx)
    unfold chooseReq
    by_cases same : a = q
    · subst same
      split
      · rfl
      next b found =>
        by_cases later : a ∈ t
        · rw [Option.some.inj (found.symm.trans (rest later)), ite_self]
        · have hb := chooseReq_mem found
          rw [if_neg (reqBefore_asymm (least b (List.mem_cons_of_mem a hb) fun e => later (e ▸ hb)))]
    · have later : q ∈ t := (List.mem_cons.mp mem).resolve_left fun e => same e.symm
      rw [rest later]
      exact if_pos (least a List.mem_cons_self same)

/-! ### Column commands (R542, R544) -/

/-- A column command takes the request of its kind that goes before the others. -/
theorem columnCommand_takes {d : Dev} {sc : Nat} {q : DramReq} (ready : memReady d = true) (empty : d.dram.held = [])
    (kind : q.write = drainNow d sc) (queued : q ∈ d.dram.queue) (mine : inSub d sc q = true) (free : writeWaits d q = false)
    (least : ∀ x, x ∈ d.dram.queue → x ≠ q → inSub d sc x = true → x.write = q.write → writeWaits d x = false → reqBefore d q x = true) :
    ∃ m, columnCommand d sc = issueColumn { d with dram := { d.dram with drain := m } } q := by
  unfold columnCommand
  rw [acceptHeld_none empty]
  dsimp only
  rw [if_pos ready, ← kind]
  generalize hm : (if q.write = true then d.dram.drain ||| BitVec.ofNat 2 (2 ^ sc) else d.dram.drain &&& ~~~(BitVec.ofNat 2 (2 ^ sc))) = m
  refine ⟨m, ?_⟩
  have chosen : chooseReq { d with dram := { d.dram with drain := m } }
      ((d.dram.queue.filter fun x => inSub { d with dram := { d.dram with drain := m } } sc x &&
        !writeWaits { d with dram := { d.dram with drain := m } } x).filter fun x => x.write == q.write) = some q := by
    refine chooseReq_least ?_ fun x hx other => ?_
    · rw [List.mem_filter, List.mem_filter]
      exact ⟨⟨queued, by rw [Bool.and_eq_true, Bool.not_eq_true']; exact ⟨mine, free⟩⟩, beq_self_eq_true _⟩
    · rw [List.mem_filter, List.mem_filter, Bool.and_eq_true, Bool.not_eq_true'] at hx
      obtain ⟨⟨there, own, goes⟩, like⟩ := hx
      exact least x there other own (beq_iff_eq.mp like) goes
  rw [chosen]
  rfl

/-- What the column command of a read leaves. -/
theorem issueColumn_read {d : Dev} {q : DramReq} (read : q.write = false) : issueColumn d q = { d with dram := { d.dram with
    queue := d.dram.queue.erase q, inflight := d.dram.inflight ++ [{ q with data := readNow d q }]
    rows := d.dram.rows.set (same none) (memPlace d q.addr).key (some (memPlace d q.addr).row) } } := by
  unfold issueColumn
  dsimp only
  rw [read]
  split <;> rfl

/-- The peak of the port is noted, or nothing, where a completed request has not missed its target. -/
def PeakNoted (q : DramReq) (d e : Dev) : Prop := e = d ∨ ∃ v, e = d.setReg pageMem (0x10C + 16 * q.port) v

theorem latencyDone_met {d : Dev} {q : DramReq} (met : 4 * (d.tick - q.at0) ≤ portTarget d q.port) : PeakNoted q d (latencyDone d q) := by
  unfold latencyDone
  dsimp only
  rw [if_neg (show ¬portTarget d q.port < reqAge d q from Nat.not_lt.mpr met)]
  split
  · exact .inr ⟨_, rfl⟩
  · exact .inl rfl

theorem onlyRegs_of_noted {q : DramReq} {d e : Dev} (h : PeakNoted q d e) : OnlyRegs d e := by
  obtain rfl | ⟨v, rfl⟩ := h
  · rfl
  · rfl

/-- A burst above the staging slots is written in the DRAM alone. -/
theorem setBurst_above {d : Dev} {a : Nat} (v : BitVec 512) (above : 2 * slotBytes ≤ a) : setBurst d (a / 64) v =
    { d with dram := { d.dram with mem := d.dram.mem.set (same none) (a / 64) (some v) } } := by
  unfold setBurst
  dsimp only
  exact if_neg (by unfold slotBytes mib at *; omega)

theorem burstAt_above {d e : Dev} {a : Nat} (above : 2 * slotBytes ≤ a) (mem : e.dram.mem = d.dram.mem)
    (start : e.dram.start = d.dram.start) :
    burstAt e (a / 64) = burstAt d (a / 64) := by
  unfold burstAt
  dsimp only
  rw [if_neg (by unfold slotBytes mib at *; omega), if_neg (by unfold slotBytes mib at *; omega), mem, start]

/-- What the column command of a write leaves whose port keeps its target. -/
theorem issueColumn_write {d : Dev} {q : DramReq} (write : q.write = true) (client : q.client ≠ .writeBack) (above : 2 * slotBytes ≤ q.addr)
    (met : 4 * (d.tick - q.at0) ≤ portTarget d q.port) : OnlyRegs { d with dram := { d.dram with
      queue := d.dram.queue.erase q
      rows := d.dram.rows.set (same none) (memPlace d q.addr).key (some (memPlace d q.addr).row)
      mem := d.dram.mem.set (same none) (q.addr / 64) (some (maskedBurst (burstAt d (q.addr / 64)) q.data q.mask)) } } (issueColumn d q) := by
  unfold issueColumn
  dsimp only
  rw [if_neg client, if_pos write, if_pos write, setBurst_above _ above, burstAt_above above (d := d) rfl rfl]
  exact onlyRegs_of_noted (latencyDone_met met)

theorem same_ownDram {d e : Dev} {x : Dram} (h : SameButReports { d with dram := x } e) :
    e.dram = x ∧ SameButReports { d with dram := e.dram } e := by
  have own : e.dram = x := h.dram
  exact ⟨own, own ▸ h⟩

theorem sameDramRegs_of_onlyRegs {d e t : Dev} {x : Dram} (only : OnlyRegs { d with dram := x } e) (kept : SameButReports e t) :
    t.dram = x ∧ SameButReports { d with dram := t.dram, regs := t.regs } t := by
  rw [only] at kept
  obtain rfl : t.dram = x := kept.dram
  exact ⟨rfl, by simpa using same_withRegs kept t.regs⟩

section
variable (s : State) (u : Nat)

theorem at_entersNow {q : DramReq} (inside : q.addr < memBytes s.dev) (client : q.client ≠ .writeBack) :
    entersNow (s.at u) q ↔ rateAdmits (s.at u) q.port = true ∧ queueRoom s.dev q = true := by
  unfold entersNow
  rw [at_memBytes, at_queueRoom, or_iff_right (Nat.not_le.mpr inside), or_iff_right client]

theorem at_columnCommand {s : State} {u : Nat} {sc : Fin 2} {q : DramReq} (ready : memReady s.dev = true) (empty : s.dev.dram.held = [])
    (kind : q.write = drainNow (s.at u) sc.val) (queued : q ∈ s.dev.dram.queue) (mine : inSub s.dev sc.val q = true) (free : writeWaits s.dev q = false)
    (least : ∀ x, x ∈ s.dev.dram.queue → x ≠ q → inSub s.dev sc.val x = true → x.write = q.write → writeWaits s.dev x = false →
      reqBefore (s.at u) q x = true) :
    ∃ m, columnCommand (s.at u) sc.val = issueColumn { s.at u with dram := { (s.at u).dram with drain := m } } q := by
  have queue : (s.at u).dram.queue = s.dev.dram.queue := by rw [at_dram]
  refine columnCommand_takes ((at_memReady s u).trans ready) (by rw [at_dram]; exact empty) kind (queue ▸ queued)
    (by rw [at_inSub]; exact mine) (by rw [at_writeWaits]; exact free) fun x hx other own like goes => ?_
  rw [queue] at hx
  rw [at_inSub] at own
  rw [at_writeWaits] at goes
  exact least x hx other own like goes

variable {s u} in
/-- Promotion by age takes the limit as it stands on arrival. -/
theorem promote_at : promote (s.at u) = { s.at u with dram := { s.dev.dram with
    queue := s.dev.dram.queue.map fun q =>
      if portClass q.port ≠ 0 ∧ q.cls ≠ 0 ∧ 100 * s.dev.fld pageMem (0x100 + 16 * q.port) 16 16 ≤ 4 * ((s.at u).tick - q.at0) then
        { q with cls := 0, promoted := true }
      else q } } := by
  unfold promote portAgeLimit reqAge
  rw [at_dram]
  simp only [show ∀ p, (s.at u).fld pageMem (0x100 + 16 * p) 16 16 = s.dev.fld pageMem (0x100 + 16 * p) 16 16 from at_agesOf s u]

end

section
variable (s : State) (u : Nat) (port : Fin 10) (addr : BitVec 36) (write : Bool) (data : BitVec 512)

/-- The request of a port for the burst that holds an address. -/
def portRequest : DramReq :=
  { port := port.val, addr := addr.toNat / 64 * 64, write := write, data := data
    cls := portClass port.val, promoted := false, at0 := (s.at u).tick }

theorem answers_portRequest : AnswersButReports s (.dramRequest u port addr write data)
    (requestBursts (s.at u) [portRequest s u port addr write data]) := answers_dramRequest s u port addr write data

theorem noneHeld_at (empty : s.dev.dram.held = []) : (s.at u).dram.held = [] := by
  rw [at_dram]
  exact empty

end

section
variable {s : State} {u : Nat} {port : Fin 10} {addr : BitVec 36} {write : Bool} {data : BitVec 512}

/-- A request is held while the memory is not ready. -/
theorem dramRequest_unready (unready : memReady s.dev = false) : AnswersButReports s (.dramRequest u port addr write data)
    { s.at u with dram := { s.dev.dram with held := s.dev.dram.held ++ [portRequest s u port addr write data] } } := by
  have asked := answers_portRequest s u port addr write data
  rw [requestBursts_unready ((at_memReady s u).trans unready), at_dram] at asked
  exact asked

section
variable (ready : memReady s.dev = true) (empty : s.dev.dram.held = [])
include ready empty

/-- A request that the queue and the port's rate admit joins the queue. -/
theorem dramRequest_enters (inside : addr.toNat / 64 * 64 < memBytes s.dev)
    (room : queueRoom s.dev (portRequest s u port addr write data) = true)
    (admits : rateAdmits (s.at u) port.val = true) : Answers s (.dramRequest u port addr write data) fun t =>
      t.nv = s.nv ∧ t.dev.dram = { s.dev.dram with
        queue := s.dev.dram.queue ++ [portRequest s u port addr write data], buckets := t.dev.dram.buckets } ∧
      SameButReports { s.at u with dram := t.dev.dram } t.dev := by
  have asked := answers_portRequest s u port addr write data
  rw [single_enters ((at_memReady s u).trans ready) (noneHeld_at s u empty)
    ((at_entersNow s u inside (show DramClient.outside ≠ .writeBack by decide)).mpr ⟨admits, room⟩)] at asked
  obtain ⟨b, taken, -⟩ := acceptReq_queued (d := s.at u) (q := portRequest s u port addr write data) (by rw [at_memBytes]; exact inside) rfl
  rw [taken, at_dram] at asked
  refine answers_mono asked fun t ⟨nv, same⟩ => ?_
  obtain ⟨own, rest⟩ := same_ownDram same
  exact ⟨nv, by rw [own], rest⟩

/-- Another is held. -/
theorem dramRequest_waits (inside : addr.toNat / 64 * 64 < memBytes s.dev)
    (wait : queueRoom s.dev (portRequest s u port addr write data) = false ∨ rateAdmits (s.at u) port.val = false) :
    AnswersButReports s (.dramRequest u port addr write data)
      { s.at u with dram := { s.dev.dram with held := [portRequest s u port addr write data] } } := by
  have asked := answers_portRequest s u port addr write data
  rw [single_waits ((at_memReady s u).trans ready) (noneHeld_at s u empty) fun now => ?_, at_dram] at asked
  · exact asked
  · obtain ⟨admits, room⟩ := (at_entersNow s u inside (show DramClient.outside ≠ .writeBack by decide)).mp now
    rcases wait with full | spent
    · exact Bool.noConfusion (full.symm.trans room)
    · exact Bool.noConfusion (spent.symm.trans admits)

/-- One beyond the capacity is counted, and a read answers 0. -/
theorem dramRequest_beyond (beyond : memBytes s.dev ≤ addr.toNat / 64 * 64) : Answers s (.dramRequest u port addr write data) fun t =>
    t.nv = s.nv ∧ t.dev.dram = s.dev.dram ∧
    t.dev.rfld pageMem 0x07C 0 32 = min (s.dev.rfld pageMem 0x07C 0 32 + 1) 0xFFFFFFFF ∧
    t.dev.out = (if write then [] else [.dram port.val (addr.toNat / 64 * 64) 0 false]) := by
  have asked := answers_portRequest s u port addr write data
  have beyond' : memBytes (s.at u) ≤ (portRequest s u port addr write data).addr := by rw [at_memBytes]; exact beyond
  rw [single_enters ((at_memReady s u).trans ready) (noneHeld_at s u empty) (.inl beyond'), acceptReq_beyond beyond'] at asked
  refine answers_mono asked fun t ⟨nv, same⟩ => ?_
  have silent : reportWord (wordAddr pageMem 0x07C) = false := memWord_silent (by decide) (by decide)
  have counted : ((s.at u).count pageMem 0x07C).rfld pageMem 0x07C 0 32 = min (s.dev.rfld pageMem 0x07C 0 32 + 1) 0xFFFFFFFF := by
    rw [count_rfld, at_rfld s u 0 32 silent]
  have out : ((s.at u).count pageMem 0x07C).out = [] := at_out s u
  have dram : ((s.at u).count pageMem 0x07C).dram = s.dev.dram := at_dram s u
  refine ⟨nv, ?_⟩
  rw [same.dram, rfld_of_same same 0 32 silent, same.out, ← counted]
  show _ ∧ _ ∧ (if write then _ else _ : Dev).out = _
  cases write
  · exact ⟨dram, rfl, congrArg (· ++ [_]) out⟩
  · exact ⟨dram, rfl, out⟩

end

end

section
variable {s : State} {u : Nat}

/-- A request of class ST or BE at its age limit becomes RT. -/
theorem dramAgePromotion_promotes (empty : s.dev.dram.held = []) : AnswersButReports s (.dramAgePromotion u)
    { s.at u with dram := { s.dev.dram with
        queue := s.dev.dram.queue.map fun q =>
          if portClass q.port ≠ 0 ∧ q.cls ≠ 0 ∧
              100 * s.dev.fld pageMem (0x100 + 16 * q.port) 16 16 ≤ 4 * ((s.at u).tick - q.at0) then
            { q with cls := 0, promoted := true }
          else q } } := by
  have aged := answers_dramAgePromotion s u
  rw [acceptHeld_none (noneHeld_at s u empty), promote_at] at aged
  exact aged

variable {sc : Fin 2} {q : DramReq}

/-- Outside a drain the first read goes, and its row is open then. -/
theorem dramColumnCommand_reads (ready : memReady s.dev = true) (empty : s.dev.dram.held = [])
    (reads : drainNow (s.at u) sc.val = false) (queued : q ∈ s.dev.dram.queue) (mine : inSub s.dev sc.val q = true)
    (read : q.write = false)
    (least : ∀ x, x ∈ s.dev.dram.queue → x ≠ q → inSub s.dev sc.val x = true → x.write = false → reqBefore (s.at u) q x = true) :
    Answers s (.dramColumnCommand u sc) fun t =>
      t.nv = s.nv ∧ t.dev.dram = { s.dev.dram with
        queue := s.dev.dram.queue.erase q, inflight := s.dev.dram.inflight ++ [{ q with data := readNow (s.at u) q }]
        rows := s.dev.dram.rows.set (same none) (memPlace s.dev q.addr).key (some (memPlace s.dev q.addr).row)
        drain := t.dev.dram.drain } ∧
      SameButReports { s.at u with dram := t.dev.dram } t.dev := by
  have issued := answers_dramColumnCommand s u sc
  obtain ⟨m, takes⟩ := at_columnCommand ready empty (by rw [read, reads]) queued mine (by rw [writeWaits, read]; rfl)
    fun x hx other own like _ => least x hx other own (by rw [like, read])
  rw [takes, issueColumn_read read] at issued
  refine answers_mono issued fun t ⟨nv, kept⟩ => ?_
  obtain ⟨own, rest⟩ := same_ownDram kept
  refine ⟨nv, ?_, rest⟩
  rw [own, ← at_memPlace s u, ← at_dram s u]
  rfl

/-- In a drain the first write goes, and its bytes land. -/
theorem dramColumnCommand_writes (ready : memReady s.dev = true) (empty : s.dev.dram.held = [])
    (drains : drainNow (s.at u) sc.val = true) (queued : q ∈ s.dev.dram.queue) (mine : inSub s.dev sc.val q = true)
    (write : q.write = true) (free : writeWaits s.dev q = false) (client : q.client ≠ .writeBack) (above : 2 * slotBytes ≤ q.addr)
    (met : 4 * ((s.at u).tick - q.at0) ≤ portTarget s.dev q.port)
    (least : ∀ x, x ∈ s.dev.dram.queue → x ≠ q → inSub s.dev sc.val x = true → x.write = true → writeWaits s.dev x = false →
      reqBefore (s.at u) q x = true) :
    Answers s (.dramColumnCommand u sc) fun t =>
      t.nv = s.nv ∧ t.dev.dram = { s.dev.dram with
        queue := s.dev.dram.queue.erase q
        mem := s.dev.dram.mem.set (same none) (q.addr / 64) (some (maskedBurst (burstAt s.dev (q.addr / 64)) q.data q.mask))
        rows := s.dev.dram.rows.set (same none) (memPlace s.dev q.addr).key (some (memPlace s.dev q.addr).row)
        drain := t.dev.dram.drain } ∧
      SameButReports { s.at u with dram := t.dev.dram, regs := t.dev.regs } t.dev := by
  have issued := answers_dramColumnCommand s u sc
  obtain ⟨m, takes⟩ := at_columnCommand ready empty (by rw [write, drains]) queued mine free
    fun x hx other own like goes => least x hx other own (by rw [like, write]) goes
  rw [takes] at issued
  have late : 4 * ((s.at u).tick - q.at0) ≤ portTarget (s.at u) q.port := Nat.le_trans met (at_portTarget s u q.port)
  have written := issueColumn_write (d := { s.at u with dram := { (s.at u).dram with drain := m } }) write client above late
  refine answers_mono issued fun t ⟨nv, kept⟩ => ?_
  obtain ⟨dram, rest⟩ := sameDramRegs_of_onlyRegs written kept
  refine ⟨nv, ?_, rest⟩
  rw [dram, ← at_memPlace s u, ← at_burstAt s u, ← at_dram s u]
  rfl

theorem dramColumnCommand_unready (unready : memReady s.dev = false) : AnswersButReports s (.dramColumnCommand u sc) (s.at u) := by
  have issued := answers_dramColumnCommand s u sc
  have unready' : memReady (s.at u) = false := (at_memReady s u).trans unready
  unfold columnCommand at issued
  rw [acceptHeld_unready unready'] at issued
  dsimp only at issued
  rw [if_neg (by rw [unready']; decide)] at issued
  exact issued

end

/-- Settles O50: a request by what its port and the queue admit, the age limit, and the column commands of a read and of a write. -/
theorem dramTraffic : Obligations.DramTraffic := by
  unfold Obligations.DramTraffic
  exact ⟨fun s u port addr write data => ⟨dramRequest_unready, dramRequest_enters, dramRequest_waits, dramRequest_beyond⟩,
    fun s u => dramAgePromotion_promotes, fun s u sc q => dramColumnCommand_reads, fun s u sc q => dramColumnCommand_writes,
    fun s u sc => dramColumnCommand_unready, fun d a b => reqBefore_class d⟩

end Sys2Proof.Proofs
end

section
/-! Refresh, MR4, retraining, patrol scrub and training of the DRAM: O52. -/
namespace Sys2Proof.Proofs
open Sys2Proof.Machine Sys2Proof.Laws

/-! ### What refreshing touches (R538) -/

/-- The ranks and the open rows of the DRAM alone differ. -/
def OnlyRanks (d e : Dev) : Prop := e = { d with dram := { d.dram with ranks := e.dram.ranks, rows := e.dram.rows } }

theorem OnlyRanks.trans {a b c : Dev} (h : OnlyRanks a b) (k : OnlyRanks b c) : OnlyRanks a c := by
  unfold OnlyRanks at *
  rw [k, h]

theorem onlyRanks_refl (d : Dev) : OnlyRanks d d := rfl
theorem onlyRanks_setRank (d : Dev) (sc k : Nat) (x : RankRefresh) : OnlyRanks d (setRank d sc k x) := rfl

theorem onlyRanks_upto {d : Dev} {n : Nat} {f : Dev → Nat → Dev} (step : ∀ e k, OnlyRanks e (f e k)) : OnlyRanks d (upto n f d) :=
  upto_induct (fun _ (e : Dev) => OnlyRanks d e) (onlyRanks_refl d) fun _ e _ h => h.trans (step e _)

theorem onlyRanks_closeBank (d : Dev) (sc k ba : Nat) : OnlyRanks d (closeBank d sc k ba) := onlyRanks_upto fun _ _ => rfl
theorem onlyRanks_closeRank (d : Dev) (sc k : Nat) : OnlyRanks d (closeRank d sc k) :=
    onlyRanks_upto fun e ba => onlyRanks_closeBank e sc k ba

@[simp] theorem rankOf_setRank (d : Dev) (sc k : Nat) (x : RankRefresh) : rankOf (setRank d sc k x) sc k = x := get_set_same _ _ _ _

theorem setRank_rows (d : Dev) (sc k : Nat) (x : RankRefresh) : (setRank d sc k x).dram.rows = d.dram.rows := rfl

theorem closeBank_ranks (d : Dev) (sc k ba : Nat) : (closeBank d sc k ba).dram.ranks = d.dram.ranks :=
  upto_keeps (fun e : Dev => e.dram.ranks) fun _ _ => rfl
@[simp] theorem rankOf_closeBank (d : Dev) (sc k ba q j : Nat) : rankOf (closeBank d sc k ba) q j = rankOf d q j := by
  rw [rankOf, closeBank_ranks, rankOf]

theorem bankWanted_of_only {d e : Dev} (h : OnlyRanks d e) (sc k b : Nat) : bankWanted e sc k b = bankWanted d sc k b := by
  rw [h]
  rfl

/-- A rank whose indices no request wants is refreshed to its end. -/
theorem refreshFree_idle {d : Dev} {sc k : Nat} (idle : ∀ b, bankWanted d sc k b = false) :
    OnlyRanks d (refreshFree d sc k) ∧ rankOf (refreshFree d sc k) sc k = { rankOf d sc k with left := 0 } := by
  have rounds : OnlyRanks d (refreshFree d sc k) ∧ ∃ l : BitVec 4, (∀ i, i < 4 → l.getLsbD i = false) ∧
      rankOf (refreshFree d sc k) sc k = { rankOf d sc k with left := l } := by
    refine upto_induct (fun n (e : Dev) => OnlyRanks d e ∧ ∃ l : BitVec 4, (∀ i, i < n → l.getLsbD i = false) ∧
      rankOf e sc k = { rankOf d sc k with left := l }) ⟨onlyRanks_refl d, _, fun i hi => absurd hi (Nat.not_lt_zero i), rfl⟩
      fun n e hn ⟨only, l, done, rank⟩ => ?_
    dsimp only
    rw [bankWanted_of_only only, idle, rank]
    by_cases open' : l.getLsbD n = true
    · rw [if_pos (by rw [open']; rfl)]
      refine ⟨only.trans ((onlyRanks_setRank e sc k _).trans (onlyRanks_closeBank _ sc k n)), l &&& ~~~(BitVec.ofNat 4 (2 ^ n)),
          fun i hi => ?_,
        by rw [rankOf_closeBank, rankOf_setRank]⟩
      rw [BitVec.getLsbD_and, BitVec.getLsbD_not]
      rcases Nat.lt_succ_iff_lt_or_eq.mp hi with before | rfl
      · rw [done i before, Bool.false_and]
      · have own : (BitVec.ofNat 4 (2 ^ i)).getLsbD i = true := by
          rw [BitVec.getLsbD_ofNat, Nat.testBit_two_pow_self, decide_eq_true hn]
          rfl
        rw [own, Bool.not_true, Bool.and_false, Bool.and_false]
    · rw [if_neg (by rw [Bool.and_eq_true]; exact fun h => open' h.1)]
      refine ⟨only, l, fun i hi => ?_, rank⟩
      rcases Nat.lt_succ_iff_lt_or_eq.mp hi with before | rfl
      · exact done i before
      · exact Bool.eq_false_iff.mpr open'
  obtain ⟨only, l, done, rank⟩ := rounds
  have all : l = 0 := BitVec.eq_of_getLsbD_eq fun i hi => (done i hi).trans BitVec.getLsbD_zero.symm
  exact ⟨only, by rw [rank, all]⟩

/-- A rank that every index's requests hold up is left as it is. -/
theorem refreshFree_held {d : Dev} {sc k : Nat} (held : ∀ b, b < 4 → bankWanted d sc k b = true) : refreshFree d sc k = d :=
  upto_rests fun b hb => by
    dsimp only
    rw [held b hb, Bool.not_true, Bool.and_false]
    rfl

theorem refreshUnits_idle {sc k : Nat} : ∀ {n : Nat} {d : Dev}, (∀ b, bankWanted d sc k b = false) → (rankOf d sc k).debt = n →
    (rankOf d sc k).left = 15 ∨ 0 < n → OnlyRanks d (refreshUnits sc k n d) ∧
      rankOf (refreshUnits sc k n d) sc k = { rankOf d sc k with debt := 0, left := 15 } := by
  intro n
  induction n with
  | zero =>
    intro d _ debt left
    refine ⟨onlyRanks_refl d, ?_⟩
    show rankOf d sc k = _
    rw [← debt, ← left.resolve_right (Nat.lt_irrefl 0)]
  | succ n ih =>
    intro d idle debt _
    unfold refreshUnits
    obtain ⟨only, rank⟩ := refreshFree_idle idle
    rw [if_neg (by omega)]
    dsimp only
    rw [rank]
    rw [if_pos rfl]
    have set := onlyRanks_setRank (refreshFree d sc k) sc k { rankOf d sc k with debt := (rankOf d sc k).debt - 1, left := 15 }
    obtain ⟨rest, last⟩ := ih (d := setRank (refreshFree d sc k) sc k { rankOf d sc k with debt := (rankOf d sc k).debt - 1, left := 15 })
      (fun b => (bankWanted_of_only (only.trans set) sc k b).trans (idle b))
      (by rw [rankOf_setRank, debt]; rfl) (.inl (by rw [rankOf_setRank]))
    exact ⟨only.trans (set.trans rest), by rw [last, rankOf_setRank]⟩

theorem refreshUnits_held {sc k n : Nat} {d : Dev} (held : ∀ b, b < 4 → bankWanted d sc k b = true) (left : (rankOf d sc k).left ≠ 0) :
    refreshUnits sc k n d = d := by
  cases n with
  | zero => rfl
  | succ n =>
    unfold refreshUnits
    split
    · rfl
    · dsimp only
      rw [refreshFree_held held, if_neg left]

theorem forceRefresh_none {d : Dev} {sc k : Nat} (paid : (rankOf d sc k).debt = 0) : forceRefresh d sc k = d :=
  if_neg (by rw [paid]; omega)


section
variable {d : Dev} {sc k : Nat} (on : (memReady d && rankThere d sc k) = true)
include on

theorem refreshTick_idle (idle : ∀ b, bankWanted d sc k b = false) : OnlyRanks d (refreshTick d sc k) ∧
    rankOf (refreshTick d sc k) sc k = { rankOf d sc k with debt := 0, left := 15 } := by
  unfold refreshTick
  rw [if_pos on]
  dsimp only
  have grown := onlyRanks_setRank d sc k { rankOf d sc k with debt := (rankOf d sc k).debt + 1 }
  obtain ⟨only, rank⟩ := refreshUnits_idle (d := setRank d sc k { rankOf d sc k with debt := (rankOf d sc k).debt + 1 })
    (sc := sc) (k := k) (n := (rankOf d sc k).debt + 1) (fun b => (bankWanted_of_only grown sc k b).trans (idle b)) (by rw [rankOf_setRank])
    (.inr (Nat.succ_pos _))
  rw [rankOf_setRank] at rank
  rw [forceRefresh_none (by rw [rank])]
  exact ⟨grown.trans only, rank⟩

end

theorem pennant_raisedLimited (d : Dev) (once : Bool) {p b cls sev code payload : Nat} (hb : b < 32) (hc : cls < 8) :
    (raiseLimited d once p b cls sev code payload).pennant p b = true := by
  unfold raiseLimited
  split
  · exact pennant_raised d hb hc
  · exact pennant_setPen d p hb

/-- What a forced refresh is told by. -/
def forceTold (e : Dev) (sc k : Nat) : Dev :=
  raiseLimited (e.count pageMem 0x070) (!(e.count pageMem 0x070).dram.forcedTold) pageMem 4 clsMemory sevInfo 0x0B05 (pay sc k 0 0)

theorem forceTold_effect (e : Dev) (sc k : Nat) :
    SameButReports (e.count pageMem 0x070) (forceTold e sc k) ∧ (forceTold e sc k).pennant pageMem 4 = true :=
  ⟨same_raiseLimited _ _ _ _ _ _ _ _ (by decide), pennant_raisedLimited _ _ (by decide) (by decide)⟩

theorem forceRefresh_due {d : Dev} {sc k : Nat} (due : d.fld pageMem 0x050 0 3 ≤ (rankOf d sc k).debt) (owes : 0 < (rankOf d sc k).debt) :
    ∃ e, OnlyRanks d e ∧ rankOf e sc k = { rankOf d sc k with debt := (rankOf d sc k).debt - 1, left := 15 } ∧
      forceRefresh d sc k = { forceTold e sc k with dram := { (forceTold e sc k).dram with forcedTold := true } } := by
  unfold forceRefresh
  dsimp only
  rw [if_pos ⟨due, owes⟩]
  refine ⟨_, ?_, ?_, rfl⟩
  · exact (onlyRanks_upto (d := d) fun e b => by split; exact onlyRanks_closeBank e sc k b; exact onlyRanks_refl e).trans
      (onlyRanks_setRank _ sc k _)
  · exact rankOf_setRank _ sc k _

/-- A rank that requests hold up until its debt forces it. -/
theorem refreshTick_forced {d : Dev} {sc k : Nat} (on : (memReady d && rankThere d sc k) = true)
    (held : ∀ b, b < 4 → bankWanted d sc k b = true) (full : (rankOf d sc k).left = 15)
    (due : d.fld pageMem 0x050 0 3 ≤ (rankOf d sc k).debt + 1) :
    let f := refreshTick d sc k
    rankOf f sc k = rankOf d sc k ∧ f.pennant pageMem 4 = true ∧
      f.rfld pageMem 0x070 0 32 = min (d.rfld pageMem 0x070 0 32 + 1) 0xFFFFFFFF ∧ f.dram.queue = d.dram.queue ∧
          f.dram.mem = d.dram.mem := by
  dsimp only
  have grown := onlyRanks_setRank d sc k { rankOf d sc k with debt := (rankOf d sc k).debt + 1 }
  have wants : ∀ b, b < 4 → bankWanted (setRank d sc k { rankOf d sc k with debt := (rankOf d sc k).debt + 1 }) sc k b = true :=
    fun b hb => (bankWanted_of_only grown sc k b).trans (held b hb)
  unfold refreshTick
  rw [if_pos on]
  dsimp only
  rw [refreshUnits_held wants (by rw [rankOf_setRank, full]; decide)]
  obtain ⟨e, only, rank, forced⟩ := forceRefresh_due (d := setRank d sc k { rankOf d sc k with debt := (rankOf d sc k).debt + 1 })
    (sc := sc) (k := k) (by rw [rankOf_setRank]; exact due) (by rw [rankOf_setRank]; exact Nat.succ_pos _)
  rw [forced]
  obtain ⟨kept, told⟩ := forceTold_effect e sc k
  rw [rankOf_setRank] at rank
  have dram : (forceTold e sc k).dram = e.dram := kept.dram
  have only := grown.trans only
  have words : e.rfld pageMem 0x070 0 32 = d.rfld pageMem 0x070 0 32 := by rw [only]; rfl
  have counted : (forceTold e sc k).rfld pageMem 0x070 0 32 = min (d.rfld pageMem 0x070 0 32 + 1) 0xFFFFFFFF := by
    rw [rfld_of_same kept 0 32 (memWord_silent (by decide) (by decide)), count_rfld, words]
  refine ⟨?_, told, counted, ?_, ?_⟩
  · refine Eq.trans (b := rankOf e sc k) (by rw [rankOf, dram]; rfl) ?_
    rw [rank, ← full]
    rfl
  · show (forceTold e sc k).dram.queue = _
    rw [dram, only]
  · show (forceTold e sc k).dram.mem = _
    rw [dram, only]

/-- The rank of a retraining window has no open row (R549). -/
theorem closeBank_closes {d : Dev} {sc k ba a : Nat}
    (h : d.dram.rows.get (same none) a = none ∨ ∃ bg, bg < 8 ∧ a = 32 * rankKey sc k + 4 * bg + ba) :
    (closeBank d sc k ba).dram.rows.get (same none) a = none := by
  refine upto_induct (fun n (e : Dev) => (d.dram.rows.get (same none) a = none ∨ ∃ bg, bg < n ∧ a = 32 * rankKey sc k + 4 * bg + ba) →
    e.dram.rows.get (same none) a = none)
    (fun h => h.resolve_right fun ⟨bg, hb, _⟩ => absurd hb (Nat.not_lt_zero bg)) (fun n e _ ih h => ?_) h
  dsimp only
  rw [get_set]
  split
  · rfl
  next other =>
    refine ih (h.imp_right fun ⟨bg, hb, own⟩ => ⟨bg, ?_, own⟩)
    rcases Nat.lt_succ_iff_lt_or_eq.mp hb with before | rfl
    · exact before
    · exact absurd own other

theorem closeRank_rows (d : Dev) (sc k : Nat) {b : Nat} (hb : b < 32) :
    (closeRank d sc k).dram.rows.get (same none) (32 * rankKey sc k + b) = none := by
  have closed : ∀ ba, ba < 4 → b % 4 = ba → (closeRank d sc k).dram.rows.get (same none) (32 * rankKey sc k + b) = none := by
    unfold closeRank
    refine upto_induct (fun n (e : Dev) => ∀ ba, ba < n → b % 4 = ba → e.dram.rows.get (same none) (32 * rankKey sc k + b) = none)
      (fun ba hba => absurd hba (Nat.not_lt_zero ba)) fun n e _ h ba hba own => ?_
    refine closeBank_closes ?_
    rcases Nat.lt_succ_iff_lt_or_eq.mp hba with before | rfl
    · exact .inl (h ba before own)
    · exact .inr ⟨b / 4, by omega, by omega⟩
  exact closed (b % 4) (Nat.mod_lt b (by decide)) rfl

section
variable {d : Dev} {sc k : Nat} (on : (memReady d && rankThere d sc k) = true)
include on

theorem mr4_effect (r : Mr4Report) :
    SameButReports (setRank d sc k { rankOf d sc k with hot := r.fast || r.above, above := r.above }) (mr4 d sc k r) ∧
      (r.above = true → (mr4 d sc k r).pennant pageMem 5 = true) := by
  unfold mr4
  rw [if_pos on]
  dsimp only
  split
  · exact ⟨same_raiseLimited _ _ _ _ _ _ _ _ (by decide), fun _ => pennant_raisedLimited _ _ (by decide) (by decide)⟩
  next below => exact ⟨same_refl _, fun above => absurd above below⟩

theorem retrain_effect : OnlyRanks d (retrain d sc k) ∧ (rankOf (retrain d sc k) sc k).debt = (rankOf d sc k).debt - 1 ∧
    ∀ b, b < 32 → (retrain d sc k).dram.rows.get (same none) (32 * rankKey sc k + b) = none := by
  unfold retrain
  rw [if_pos on]
  dsimp only
  refine ⟨(onlyRanks_closeRank d sc k).trans (onlyRanks_setRank _ sc k _), by rw [rankOf_setRank], fun b hb => ?_⟩
  rw [setRank_rows]
  exact closeRank_rows d sc k hb

end

/-! ### Patrol scrub (R548) -/

/-- A read of the patrol scrub. -/
def fromScrub (q : DramReq) : Bool := match q.client with | .scrub _ => true | _ => false

theorem fromScrub_iff {q : DramReq} : fromScrub q = true ↔ ∃ e, q.client = .scrub e := by
  unfold fromScrub
  cases q.client <;> simp

/-- The scrub's read of burst `n`, asked for at tick `t`. -/
def scrubRead (n t ecc : Nat) : DramReq :=
  { port := 9, addr := 64 * n, write := false, data := 0, cls := 2, promoted := false, at0 := t, client := .scrub ecc }

/-- The scrub may ask for its next burst. -/
def scrubDue (d : Dev) : Prop :=
  memReady d = true ∧ d.flag pageMem 0x048 16 = true ∧ ∀ x, x ∈ d.dram.queue ++ d.dram.inflight ++ d.dram.repairs → fromScrub x = false

theorem patrolScrub_due {d : Dev} (empty : d.dram.held = []) (due : scrubDue d) (ecc : Nat) :
    patrolScrub d ecc = requestBursts d [scrubRead (d.rfld pageMem 0x078 0 29) d.tick ecc] := by
  obtain ⟨ready, on, free⟩ := due
  refine if_pos ?_
  rw [empty, ready, on, List.nil_append, Bool.and_eq_true, Bool.not_eq_true', List.any_eq_false]
  exact ⟨rfl, fun x hx => by rw [Bool.not_eq_true]; exact free x hx⟩

theorem patrolScrub_rests {d : Dev} (rests : ¬scrubDue d) (ecc : Nat) : patrolScrub d ecc = d := by
  refine if_neg fun h => rests ?_
  rw [Bool.and_eq_true, Bool.and_eq_true, Bool.not_eq_true', List.any_eq_false] at h
  obtain ⟨⟨ready, on⟩, free⟩ := h
  refine ⟨ready, on, fun x hx => Bool.eq_false_iff.mpr (free x ?_)⟩
  rw [List.append_assoc] at hx
  rw [List.append_assoc, List.append_assoc]
  exact List.mem_append_right _ hx

/-! ### Training (R549, R634) -/

/-- Lane `n` is turned off, and nothing below the lanes' pages is written. -/
theorem laneOff_effect (e : Dev) (n : Nat) :
    let f := laneEnable (e.setFld (pageLan n) 0x008 0 1 0) n false
    f.boot = e.boot ∧ ((laneOf f n).stage = 0 ∧ f.enabled (pageLan n) = false) ∧
      (∀ l, l ≠ n → laneOf f l = laneOf e l ∧ f.enabled (pageLan l) = e.enabled (pageLan l)) ∧
      ∀ a, a < 4096 * pageLan 0 → f.regs.read a = e.regs.read a := by
  have lane (l : Nat) : laneOf (laneEnable (e.setFld (pageLan n) 0x008 0 1 0) n false) l =
      if l = n then freshLane (laneOf e n) 0 0 else laneOf e l := laneOf_setLane _ _ _ _
  dsimp only
  refine ⟨rfl, ⟨by rw [lane, if_pos rfl]; rfl, (enabled_setFld_own e (pageLan n) 0).trans (by decide)⟩,
    fun l other => ⟨by rw [lane, if_neg other], ?_⟩, fun a ha => ?_⟩
  · show bit ((e.setFld (pageLan n) 0x008 0 1 0).regs.inUse (wordAddr (pageLan l) 0x008)).toNat 0 = _
    rw [setFld_inUse, if_neg (by unfold wordAddr pageLan; omega)]
    rfl
  · show (e.setFld (pageLan n) 0x008 0 1 0).regs.read a = _
    rw [setFld_read, if_neg (by unfold wordAddr pageLan at *; omega)]

/-- The first `n` lanes turned off. -/
def lanesOff (n : Nat) (d : Dev) : Dev := upto n (fun d l => laneEnable (d.setFld (pageLan l) 0x008 0 1 0) l false) d

theorem stopAtDram_eq (d : Dev) :
    stopAtDram d = { lanesOff 56 d with boot := { (lanesOff 56 d).boot with result := 5, lanesAt := none } } := rfl

theorem lanesOff_effect (n : Nat) (d : Dev) : (lanesOff n d).boot = d.boot ∧
    (∀ l, l < n → (laneOf (lanesOff n d) l).stage = 0 ∧ (lanesOff n d).enabled (pageLan l) = false) ∧
    ∀ a, a < 4096 * pageLan 0 → (lanesOff n d).regs.read a = d.regs.read a := by
  unfold lanesOff
  refine upto_induct (fun n (e : Dev) => e.boot = d.boot ∧ (∀ l, l < n → (laneOf e l).stage = 0 ∧ e.enabled (pageLan l) = false) ∧
    ∀ a, a < 4096 * pageLan 0 → e.regs.read a = d.regs.read a) ⟨rfl, fun l hl => absurd hl (Nat.not_lt_zero l), fun _ _ => rfl⟩
    fun n e _ ⟨boot, off, words⟩ => ?_
  obtain ⟨own, this, others, low⟩ := laneOff_effect e n
  refine ⟨own.trans boot, fun l hl => ?_, fun a ha => (low a ha).trans (words a ha)⟩
  rcases Nat.lt_succ_iff_lt_or_eq.mp hl with before | rfl
  · rw [(others l (Nat.ne_of_lt before)).1, (others l (Nat.ne_of_lt before)).2]
    exact off l before
  · exact this

/-- What a stopped boot has done with the lanes does not show in the boot's own state. -/
theorem withBoot_effect {d e : Dev} (b : Boot) (off : ∀ l, l < 56 → (laneOf e l).stage = 0 ∧ e.enabled (pageLan l) = false)
    (words : ∀ a, a < 4096 * pageLan 0 → e.regs.read a = d.regs.read a) :
    (∀ l, l < 56 → (laneOf { e with boot := b } l).stage = 0 ∧ ({ e with boot := b } : Dev).enabled (pageLan l) = false) ∧
    ∀ a, a < 4096 * pageLan 0 → ({ e with boot := b } : Dev).regs.read a = d.regs.read a := ⟨off, words⟩

theorem stopAtDram_effect (d : Dev) : (stopAtDram d).boot = { d.boot with result := 5, lanesAt := none } ∧
    (∀ l, l < 56 → (laneOf (stopAtDram d) l).stage = 0 ∧ (stopAtDram d).enabled (pageLan l) = false) ∧
    ∀ a, a < 4096 * pageLan 0 → (stopAtDram d).regs.read a = d.regs.read a := by
  obtain ⟨boot, off, words⟩ := lanesOff_effect 56 d
  exact ⟨by rw [stopAtDram_eq, boot], stopAtDram_eq d ▸ withBoot_effect _ off words⟩

theorem trainingDone_good {d : Dev} (trains : d.dram.training = true) (empty : d.dram.held = []) : trainingDone d { step := 0 } =
    { d with dram := { d.dram with training := false, trained := true, attempts := 0 } }.setReg pageMem 0x074 0 := by
  unfold trainingDone
  rw [if_neg (by rw [trains]; decide), if_pos rfl]
  exact acceptHeld_none empty

/-- An attempt that has failed, before the boot acts on it. -/
def trainingFailed (d : Dev) (x : TrainingEnd) : Dev :=
  raise ({ d with dram := { d.dram with
      training := false, fault := true, attempts := d.dram.attempts + 1 } }.setReg pageMem 0x074 x.step.toNat)
    pageMem 6 clsMemory sevCritical 0x0B07 (pay x.step.toNat x.sc.val x.rank.val 0)

theorem trainingDone_bad {d : Dev} {x : TrainingEnd} (trains : d.dram.training = true) (fails : x.step ≠ 0) : trainingDone d x =
    if (trainingFailed d x).boot.stage = 4 ∧ (trainingFailed d x).boot.result = 0 then
      if 3 ≤ (trainingFailed d x).dram.attempts then stopAtDram (trainingFailed d x) else memEnable (trainingFailed d x)
    else trainingFailed d x := by
  unfold trainingDone
  rw [if_neg (by rw [trains]; decide), if_neg fails]
  rfl

theorem trainingFailed_effect (d : Dev) (x : TrainingEnd) : (trainingFailed d x).pennant pageMem 6 = true ∧
    (trainingFailed d x).rfld pageMem 0x074 0 32 = x.step.toNat ∧ (trainingFailed d x).boot = d.boot ∧
    (trainingFailed d x).dram = { d.dram with training := false, fault := true, attempts := d.dram.attempts + 1 } := by
  have kept := same_raise ({ d with dram := { d.dram with
      training := false, fault := true, attempts := d.dram.attempts + 1 } }.setReg pageMem 0x074
    x.step.toNat) pageMem 6 clsMemory sevCritical 0x0B07 (pay x.step.toNat x.sc.val x.rank.val 0) (by decide)
  have small := x.step.isLt
  refine ⟨pennant_raised _ (by decide) (by decide), ?_, kept.boot, kept.dram⟩
  rw [trainingFailed, rfld_of_same kept 0 32 (memWord_silent (by decide) (by decide)), setReg_rfld_own _ _ _ (by omega)]

/-- The words below the lanes' pages that a failed attempt leaves. -/
theorem trainingDone_words {d : Dev} {x : TrainingEnd} (trains : d.dram.training = true) (fails : x.step ≠ 0) {a : Nat}
    (low : a < 4096 * pageLan 0) :
    (trainingDone d x).regs.read a = (trainingFailed d x).regs.read a := by
  rw [trainingDone_bad trains fails]
  repeat' split
  · exact (stopAtDram_effect _).2.2 a low
  · rfl
  · rfl

theorem trainingDone_failed {d : Dev} {x : TrainingEnd} (trains : d.dram.training = true) (fails : x.step ≠ 0) :
    let o := trainingDone d x
    o.pennant pageMem 6 = true ∧ o.rfld pageMem 0x074 0 32 = x.step.toNat ∧
    (d.boot.stage ≠ 4 → o.dram = { d.dram with training := false, fault := true, attempts := d.dram.attempts + 1 } ∧ o.boot = d.boot) ∧
    (d.boot.stage = 4 → d.boot.result = 0 →
      (2 ≤ d.dram.attempts → o.boot = { d.boot with result := 5, lanesAt := none } ∧
        ∀ l, l < 56 → (laneOf o l).stage = 0 ∧ o.enabled (pageLan l) = false) ∧
      (d.dram.attempts < 2 → o.boot = d.boot ∧ o.dram.training = true)) := by
  dsimp only
  obtain ⟨told, step, boot, dram⟩ := trainingFailed_effect d x
  have words {a : Nat} (low : a < 4096 * pageLan 0) := trainingDone_words (a := a) trains fails low
  have done := trainingDone_bad trains fails
  rw [boot, dram] at done
  refine ⟨?_, ?_, fun other => ?_, fun stage result => ⟨fun third => ?_, fun early => ?_⟩⟩
  · rw [Dev.pennant, words (by decide)]
    exact told
  · rw [Dev.rfld, words (by decide)]
    exact step
  · rw [done, if_neg fun h => other h.1]
    exact ⟨dram, boot⟩
  · rw [done, if_pos ⟨stage, result⟩, if_pos (Nat.succ_le_succ third)]
    obtain ⟨stopped, off, -⟩ := stopAtDram_effect (trainingFailed d x)
    exact ⟨by rw [stopped, boot], off⟩
  · rw [done, if_pos ⟨stage, result⟩, if_neg (by show ¬3 ≤ d.dram.attempts + 1; omega)]
    obtain ⟨same, -, again⟩ := memEnable_frame (trainingFailed d x)
    exact ⟨same.trans boot, again⟩

section
variable (s : State) (u : Nat)

theorem at_rankThere (sc k : Nat) : rankThere (s.at u) sc k = rankThere s.dev sc k := by
  rw [rankThere, at_memBoth, at_memTwoRanks, rankThere]
theorem at_rankOf (sc k : Nat) : rankOf (s.at u) sc k = rankOf s.dev sc k := by rw [rankOf, at_dram, rankOf]
theorem at_bankWanted (sc k b : Nat) : bankWanted (s.at u) sc k b = bankWanted s.dev sc k b := by
  unfold bankWanted
  simp only [at_dram, at_memPlace]

end

theorem at_scrubDue (s : State) (u : Nat) : scrubDue (s.at u) ↔ scrubDue s.dev := by
  unfold scrubDue
  rw [at_memReady, at_memFlag s u 16 (by decide) (by decide), at_dram]

/-- What is left of a device whose ranks and rows alone differ, reports aside. -/
theorem ranks_of_only {s : State} {u : Nat} {e t : Dev} (only : OnlyRanks (s.at u) e) (kept : SameButReports e t) :
    t.dram = { s.dev.dram with ranks := t.dram.ranks, rows := t.dram.rows } ∧ SameButReports { s.at u with dram := t.dram } t := by
  rw [only] at kept
  obtain ⟨own, rest⟩ := same_ownDram kept
  exact ⟨by rw [own, at_dram], rest⟩

theorem rankOf_of_same {d e : Dev} (h : SameButReports d e) (sc k : Nat) : rankOf e sc k = rankOf d sc k := by rw [rankOf, h.dram, rankOf]

section
variable {s : State} {u : Nat} {sc k : Fin 2}

section
variable (ready : memReady s.dev = true) (there : rankThere s.dev sc.val k.val = true)
include ready there

theorem at_rankOn : (memReady (s.at u) && rankThere (s.at u) sc.val k.val) = true := by
  rw [at_memReady, at_rankThere, ready, there]
  rfl

/-- A refresh of a rank that no request wants is repaid at once. -/
theorem refreshDebtTick_repaid (idle : s.dev.dram.queue = []) : Answers s (.refreshDebtTick u sc k) fun t =>
    t.nv = s.nv ∧ rankOf t.dev sc.val k.val = { rankOf s.dev sc.val k.val with debt := 0, left := 15 } ∧
    t.dev.dram = { s.dev.dram with ranks := t.dev.dram.ranks, rows := t.dev.dram.rows } ∧
    SameButReports { s.at u with dram := t.dev.dram } t.dev := by
  have on := at_rankOn (u := u) ready there
  refine answers_mono (answers_refreshDebtTick s u sc k) fun t ⟨nv, kept⟩ => ?_
  obtain ⟨only, rank⟩ := refreshTick_idle on fun b => by rw [at_bankWanted, bankWanted, idle]; rfl
  exact ⟨nv, by rw [rankOf_of_same kept, rank, at_rankOf], ranks_of_only only kept⟩

/-- A refresh that the requests of every bank hold up is forced once the debt reaches POSTPONE. -/
theorem refreshDebtTick_forced (held : ∀ b, b < 4 → bankWanted s.dev sc.val k.val b = true)
    (full : (rankOf s.dev sc.val k.val).left = 15)
    (due : s.dev.fld pageMem 0x050 0 3 ≤ (rankOf s.dev sc.val k.val).debt + 1) : Answers s (.refreshDebtTick u sc k) fun t =>
      t.nv = s.nv ∧ rankOf t.dev sc.val k.val = rankOf s.dev sc.val k.val ∧ t.dev.pennant pageMem 4 = true ∧
      t.dev.rfld pageMem 0x070 0 32 = min (s.dev.rfld pageMem 0x070 0 32 + 1) 0xFFFFFFFF ∧
      t.dev.dram.queue = s.dev.dram.queue ∧ t.dev.dram.mem = s.dev.dram.mem := by
  have on := at_rankOn (u := u) ready there
  refine answers_mono (answers_refreshDebtTick s u sc k) fun t ⟨nv, kept⟩ => ?_
  obtain ⟨rank, told, counted, queue, mem⟩ := refreshTick_forced on (fun b hb => (at_bankWanted s u _ _ b).trans (held b hb))
    (by rw [at_rankOf]; exact full) (by rw [at_rankOf, at_memFld s u 0 3 (by decide) (by decide)]; exact due)
  have silent : reportWord (wordAddr pageMem 0x070) = false := memWord_silent (by decide) (by decide)
  exact ⟨nv, by rw [rankOf_of_same kept, rank, at_rankOf], pennant_of_same kept told,
    by rw [rfld_of_same kept 0 32 silent, counted, at_rfld s u 0 32 silent], by rw [kept.dram, queue, at_dram],
        by rw [kept.dram, mem, at_dram]⟩

/-- A rank above its range is told. -/
theorem mr4Read_tells (r : Mr4Report) : Answers s (.mr4Read u sc k r) fun t =>
    t.nv = s.nv ∧
    rankOf t.dev sc.val k.val = { rankOf s.dev sc.val k.val with hot := r.fast || r.above, above := r.above } ∧
    (r.above = true → t.dev.pennant pageMem 5 = true) ∧
    SameButReports { s.at u with dram := { s.dev.dram with ranks := t.dev.dram.ranks } } t.dev := by
  have on := at_rankOn (u := u) ready there
  refine answers_mono (answers_mr4Read s u sc k r) fun t ⟨nv, kept⟩ => ?_
  obtain ⟨effect, told⟩ := mr4_effect on r
  have all := same_trans effect kept
  have own : t.dev.dram = { s.dev.dram with ranks := t.dev.dram.ranks } := by
    rw [all.dram, setRank, at_dram]
  refine ⟨nv, ?_, fun above => pennant_of_same kept (told above), ?_⟩
  · rw [rankOf_of_same all, rankOf_setRank, at_rankOf]
  · rw [← own]
    exact (same_ownDram all).2

/-- A retraining window closes the rank's rows and counts as a refresh. -/
theorem retrainWindow_closes : Answers s (.retrainWindow u sc k) fun t =>
    t.nv = s.nv ∧ (rankOf t.dev sc.val k.val).debt = (rankOf s.dev sc.val k.val).debt - 1 ∧
    (∀ b, b < 32 → t.dev.dram.rows.get (same none) (32 * rankKey sc.val k.val + b) = none) ∧
    t.dev.dram = { s.dev.dram with ranks := t.dev.dram.ranks, rows := t.dev.dram.rows } ∧
    SameButReports { s.at u with dram := t.dev.dram } t.dev := by
  have on := at_rankOn (u := u) ready there
  refine answers_mono (answers_retrainWindow s u sc k) fun t ⟨nv, kept⟩ => ?_
  obtain ⟨only, debt, rows⟩ := retrain_effect on
  exact ⟨nv, by rw [rankOf_of_same kept, debt, at_rankOf], fun b hb => by rw [kept.dram]; exact rows b hb, ranks_of_only only kept⟩

end

/-- A rank that is not there, and a memory that is not ready, has no upkeep. -/
theorem rank_idle (r : Mr4Report) (off : memReady s.dev = false ∨ rankThere s.dev sc.val k.val = false) :
    AnswersButReports s (.refreshDebtTick u sc k) (s.at u) ∧ AnswersButReports s (.mr4Read u sc k r) (s.at u) ∧
      AnswersButReports s (.retrainWindow u sc k) (s.at u) := by
  have on : (memReady (s.at u) && rankThere (s.at u) sc.val k.val) = false := by
    rw [at_memReady, at_rankThere, Bool.and_eq_false_iff]
    exact off
  have refresh := answers_refreshDebtTick s u sc k
  have read := answers_mr4Read s u sc k r
  have window := answers_retrainWindow s u sc k
  unfold refreshTick at refresh
  unfold mr4 at read
  unfold retrain at window
  rw [if_neg (by rw [on]; decide)] at refresh read window
  exact ⟨refresh, read, window⟩

end

/-- The patrol scrub's next request. -/
def nextScrub (s : State) (u : Nat) (ecc : BitVec 2) : DramReq :=
  { port := 9, addr := 64 * s.dev.rfld pageMem 0x078 0 29, write := false, data := 0, cls := 2
    promoted := false, at0 := (s.at u).tick, client := .scrub ecc.toNat }

section
variable {s : State} {u : Nat} (empty : s.dev.dram.held = [])
include empty

theorem answers_scrub (ecc : BitVec 2) : AnswersButReports s (.patrolScrubRead u ecc) (patrolScrub (s.at u) ecc.toNat) := by
  have asked := answers_patrolScrubRead s u ecc
  rwa [acceptHeld_none (noneHeld_at s u empty)] at asked

/-- Patrol scrub asks for its burst where none of its requests is under way. -/
theorem patrolScrubRead_asks (ecc : BitVec 2) (ready : memReady s.dev = true) (on : s.dev.flag pageMem 0x048 16 = true)
    (none : ∀ x, x ∈ s.dev.dram.queue ++ s.dev.dram.inflight ++ s.dev.dram.repairs → ∀ e, x.client ≠ .scrub e)
    (inside : (nextScrub s u ecc).addr < memBytes s.dev) :
    (rateAdmits (s.at u) 9 = true → queueRoom s.dev (nextScrub s u ecc) = true → Answers s (.patrolScrubRead u ecc) fun t =>
      t.nv = s.nv ∧ SameButReports { s.at u with
        dram := { s.dev.dram with queue := s.dev.dram.queue ++ [nextScrub s u ecc], buckets := t.dev.dram.buckets } } t.dev) ∧
    (rateAdmits (s.at u) 9 = false ∨ queueRoom s.dev (nextScrub s u ecc) = false →
      AnswersButReports s (.patrolScrubRead u ecc) { s.at u with dram := { s.dev.dram with held := [nextScrub s u ecc] } }) := by
  have noneHeld := noneHeld_at s u empty
  have asked := answers_scrub (u := u) empty ecc
  have due : scrubDue (s.at u) :=
    (at_scrubDue s u).mpr ⟨ready, on, fun x hx => Bool.eq_false_iff.mpr fun f => (fromScrub_iff.mp f).elim (none x hx)⟩
  have ready' := (at_memReady s u).trans ready
  have enters := at_entersNow s u (q := nextScrub s u ecc) inside (show DramClient.scrub ecc.toNat ≠ .writeBack from fun h => nomatch h)
  rw [patrolScrub_due noneHeld due, at_rfld s u 0 29 (memWord_silent (by decide) (by decide))] at asked
  change AnswersButReports s _ (requestBursts (s.at u) [nextScrub s u ecc]) at asked
  refine ⟨fun admits room => ?_, fun wait => ?_⟩
  · rw [single_enters ready' noneHeld (enters.mpr ⟨admits, room⟩)] at asked
    obtain ⟨b, taken, -⟩ := acceptReq_queued (d := s.at u) (q := nextScrub s u ecc) (by rw [at_memBytes]; exact inside) rfl
    rw [taken, at_dram] at asked
    refine answers_mono asked fun t ⟨nv, kept⟩ => ⟨nv, ?_⟩
    rw [show t.dev.dram.buckets = b by rw [kept.dram]]
    exact kept
  · rw [single_waits ready' noneHeld fun now => ?_, at_dram] at asked
    · exact asked
    · obtain ⟨admits, room⟩ := enters.mp now
      rcases wait with spent | full
      · exact Bool.noConfusion (spent.symm.trans admits)
      · exact Bool.noConfusion (full.symm.trans room)

theorem patrolScrubRead_underWay (ecc : BitVec 2)
    (under : ∃ x e, x ∈ s.dev.dram.queue ++ s.dev.dram.inflight ++ s.dev.dram.repairs ∧ x.client = .scrub e) :
    AnswersButReports s (.patrolScrubRead u ecc) (s.at u) := by
  obtain ⟨x, e, there, mine⟩ := under
  have asked := answers_scrub (u := u) empty ecc
  have rests : ¬scrubDue (s.at u) := fun due => by
    have free := ((at_scrubDue s u).mp due).2.2 x there
    rw [fromScrub_iff.mpr ⟨e, mine⟩] at free
    exact Bool.noConfusion free
  rwa [patrolScrub_rests rests] at asked

theorem patrolScrubRead_off (off : memReady s.dev = false ∨ s.dev.flag pageMem 0x048 16 = false) (ecc : BitVec 2) :
    AnswersButReports s (.patrolScrubRead u ecc) (s.at u) := by
  have asked := answers_scrub (u := u) empty ecc
  have rests : ¬scrubDue (s.at u) := fun due => by
    obtain ⟨ready, on, -⟩ := (at_scrubDue s u).mp due
    rcases off with unready | disabled
    · exact Bool.noConfusion (unready.symm.trans ready)
    · exact Bool.noConfusion (disabled.symm.trans on)
  rwa [patrolScrub_rests rests] at asked

end

section
variable {s : State} {u : Nat}

/-- A training that ends well makes the memory ready. -/
theorem memTrainingDone_ready (trains : s.dev.dram.training = true) (empty : s.dev.dram.held = []) :
    Answers s (.memTrainingDone u { step := 0 }) fun t =>
      t.nv = s.nv ∧ t.dev.dram = { s.dev.dram with training := false, trained := true, attempts := 0 } ∧
      t.dev.rfld pageMem 0x074 0 32 = 0 ∧ SameButReports { s.at u with regs := t.dev.regs, dram := t.dev.dram } t.dev := by
  have trained := answers_memTrainingDone s u { step := 0 }
  rw [trainingDone_good (by rw [at_dram]; exact trains) (by rw [at_dram]; exact empty), at_dram] at trained
  refine answers_mono trained fun t ⟨nv, kept⟩ => ⟨nv, kept.dram, ?_, ?_⟩
  · rw [rfld_of_same kept 0 32 (memWord_silent (by decide) (by decide))]
    exact setReg_rfld_whole _ _ _ _
  · rw [kept.dram]
    exact same_withRegs kept t.dev.regs

/-- A training that fails makes the memory faulty; in a boot it is tried again, and the third failure turns every lane off. -/
theorem memTrainingDone_fails {x : TrainingEnd} (trains : s.dev.dram.training = true) (fails : x.step ≠ 0) :
    Answers s (.memTrainingDone u x) fun t =>
      t.nv = s.nv ∧ t.dev.pennant pageMem 6 = true ∧ t.dev.rfld pageMem 0x074 0 32 = x.step.toNat ∧
      (s.dev.boot.stage ≠ 4 → t.dev.dram = { s.dev.dram with
        training := false, fault := true, attempts := s.dev.dram.attempts + 1 } ∧ t.dev.boot = s.dev.boot) ∧
      (s.dev.boot.stage = 4 → s.dev.boot.result = 0 →
        (2 ≤ s.dev.dram.attempts → t.dev.boot = { s.dev.boot with result := 5, lanesAt := none } ∧
          ∀ l, l < 56 → (laneOf t.dev l).stage = 0 ∧ t.dev.enabled (pageLan l) = false) ∧
        (s.dev.dram.attempts < 2 → t.dev.boot = s.dev.boot ∧ t.dev.dram.training = true)) := by
  have trains' : (s.at u).dram.training = true := by rw [at_dram]; exact trains
  have failed := answers_memTrainingDone s u x
  obtain ⟨told, step, later, first⟩ := trainingDone_failed trains' fails
  rw [at_boot, at_dram] at later first
  refine answers_mono failed fun t ⟨nv, kept⟩ => ⟨nv, pennant_of_same kept told, ?_, ?_, fun stage result => ?_⟩
  · rw [rfld_of_same kept 0 32 (memWord_silent (by decide) (by decide)), step]
  · rw [kept.dram, kept.boot]
    exact later
  · obtain ⟨third, early⟩ := first stage result
    refine ⟨fun h => ⟨kept.boot.trans (third h).1, fun l hl => ?_⟩, fun h => ?_⟩
    · rw [laneOf, kept.lanes, ← laneOf, Dev.enabled, flag_of_same kept 0 (reportWord_of_offset (by decide) (by decide))]
      exact (third h).2 l hl
    · rw [kept.dram, kept.boot]
      exact early h

theorem memTrainingDone_rests (rests : s.dev.dram.training = false) (x : TrainingEnd) :
    AnswersButReports s (.memTrainingDone u x) (s.at u) := by
  have done := answers_memTrainingDone s u x
  have idle : trainingDone (s.at u) x = s.at u := if_pos (by rw [at_dram, rests]; rfl)
  rwa [idle] at done

end

/-- Settles O52: each rank's refreshing, MR4 and retraining, the patrol scrub's next burst, and how a training ends. -/
theorem dramUpkeep : Obligations.DramUpkeep := by
  unfold Obligations.DramUpkeep
  exact ⟨fun s u sc k ready there => ⟨refreshDebtTick_repaid ready there, refreshDebtTick_forced ready there,
      mr4Read_tells ready there, retrainWindow_closes ready there⟩,
    fun s u sc k r off => rank_idle r off,
    fun s u empty => ⟨fun ecc => ⟨patrolScrubRead_asks empty ecc, patrolScrubRead_underWay empty ecc⟩, patrolScrubRead_off empty⟩,
    fun s u => ⟨memTrainingDone_ready, fun x => memTrainingDone_fails, memTrainingDone_rests⟩⟩

end Sys2Proof.Proofs
end

section
/-! Read completions of the DRAM, and the peer's repairs: O51. -/
namespace Sys2Proof.Proofs
open Sys2Proof.Machine Sys2Proof.Laws

/-! ### What the noting of a peak leaves (R541) -/

section
variable {q : DramReq} {d e : Dev} (h : PeakNoted q d e)
include h

theorem PeakNoted.read {p off : Nat} (apart : off % 16 ≠ 12) : e.regs.read (wordAddr p off) = d.regs.read (wordAddr p off) := by
  obtain rfl | ⟨v, rfl⟩ := h
  · rfl
  · rw [setReg_read, if_neg (by unfold wordAddr; omega)]

theorem PeakNoted.inUse {p off : Nat} (apart : off % 16 ≠ 12) : e.regs.inUse (wordAddr p off) = d.regs.inUse (wordAddr p off) := by
  obtain rfl | ⟨v, rfl⟩ := h
  · rfl
  · rw [setReg_inUse, if_neg (by unfold wordAddr; omega)]

end

/-! ### The words of the memory's page that tell of errors -/

/-- The error words of the memory's page stand, and so do the pennants. -/
structure MemWords (d e : Dev) : Prop where
  word : ∀ off, off < 0x070 → off ≠ 0x010 → e.regs.read (wordAddr pageMem off) = d.regs.read (wordAddr pageMem off)
  pens : ∀ p b, d.pennant p b = true → e.pennant p b = true

theorem MemWords.trans {a b c : Dev} (h : MemWords a b) (k : MemWords b c) : MemWords a c :=
  ⟨fun off low pen => (k.word off low pen).trans (h.word off low pen), fun p b f => k.pens p b (h.pens p b f)⟩

theorem MemWords.rfld {d e : Dev} (h : MemWords d e) {off : Nat} (lo w : Nat) (low : off < 0x070) (pen : off ≠ 0x010) :
    e.rfld pageMem off lo w = d.rfld pageMem off lo w := by rw [Dev.rfld, h.word off low pen, Dev.rfld]

theorem memWords_of_same {d e : Dev} (h : SameButReports d e) : MemWords d e :=
  ⟨fun _ low pen => h.regs.read _ (memWord_silent (by omega) pen), fun _ _ f => pennant_of_same h f⟩

theorem memWords_of_regs {d e : Dev} (h : e.regs = d.regs) : MemWords d e :=
  ⟨fun _ _ _ => by rw [h], fun _ _ f => by rw [Dev.pennant, h]; exact f⟩

theorem memWords_of_peak {q : DramReq} {d e : Dev} (h : PeakNoted q d e) : MemWords d e := by
  obtain rfl | ⟨v, rfl⟩ := h
  · exact memWords_of_regs rfl
  · refine ⟨fun off low _ => ?_, fun p b f => ?_⟩
    · rw [setReg_read, if_neg (by unfold wordAddr; omega)]
    · rw [Dev.pennant, setReg_read, if_neg (by unfold wordAddr; omega)]
      exact f

theorem memWords_setReg (d : Dev) {p off : Nat} (v : Nat) (pen : off % 4096 ≠ 0x010)
    (apart : ∀ o, o < 0x070 → wordAddr pageMem o ≠ wordAddr p off) : MemWords d (d.setReg p off v) := by
  refine ⟨fun o low _ => ?_, fun q b f => ?_⟩
  · rw [setReg_read, if_neg (apart o low)]
  · rw [Dev.pennant, setReg_read, if_neg (by unfold wordAddr; omega)]
    exact f

theorem memWords_reporting : Reporting MemWords where
  refl _ := memWords_of_regs rfl
  trans := MemWords.trans
  lost d p := memWords_setReg d _ (by decide) fun o low => by unfold wordAddr; omega
  opened d := memWords_setReg d _ (by decide) fun o low => by unfold wordAddr pageMem pageEvq; omega
  pen d p := memWords_of_same (same_penFld d p 1)
  stamps _ _ := ⟨fun _ _ _ => rfl, fun _ _ f => f⟩
  filed _ _ _ _ := memWords_of_regs rfl
  windows _ _ := memWords_of_regs rfl
  kept _ _ := memWords_of_regs rfl
  triggers _ _ := memWords_of_regs rfl

theorem memWords_islandDone (d : Dev) (x : Run) (key final status : Nat) (station : Option Nat) :
    MemWords d (islandDone d x key final status station) := by
  unfold islandDone
  dsimp only
  refine MemWords.trans ?_ (memWords_of_same (same_statusReport _ _ _ _))
  have ended : MemWords d (setRun d (endedRun final x key)) := memWords_of_regs rfl
  split
  · exact ended.trans (memWords_reporting.emitShared _ _ _ _)
  · exact ended

theorem leaveIsland_regs (d : Dev) (s : Nat) : (finishMotion (leaveIsland d s) s).regs = d.regs := rfl

/-- Whatever a failed read ends of the heat, the error words stand (R547). -/
theorem memWords_eccPour (d : Dev) (a : Nat) : MemWords d (eccPour d a) := by
  unfold eccPour eccIsland
  split
  · split
    · exact memWords_of_regs rfl
    · split
      · exact memWords_of_regs rfl
      · split
        · exact (memWords_islandDone d _ _ 7 stEcc _).trans (memWords_of_regs (leaveIsland_regs _ _))
        · exact memWords_islandDone d _ _ 7 stEcc none
  · exact memWords_of_regs rfl

theorem memWords_eccLine (d : Dev) (a : Nat) : MemWords d (eccLine d a) := by
  unfold eccLine
  split
  · dsimp only
    split <;> exact memWords_of_regs rfl
  · exact memWords_of_regs rfl

theorem memWords_failRead {d : Dev} {q : DramReq} (client : q.client = .outside) : MemWords d (failRead d q) := by
  unfold failRead
  rw [client]
  dsimp only
  have sent : MemWords d (d.send (.dram q.port q.addr 0 true)) := memWords_of_regs rfl
  repeat' split
  · exact sent.trans (memWords_eccLine _ _)
  · exact sent.trans (memWords_eccPour _ _)
  · exact sent

/-! ### The read that completes (R546, R547) -/

/-- The device with these reads left in flight. -/
def withFlight (d : Dev) (rest : List DramReq) : Dev := { d with dram := { d.dram with inflight := rest } }

section
variable {d : Dev} {sc : Nat} {q : DramReq} {rest : List DramReq} (flight : d.dram.inflight = q :: rest) (mine : inSub d sc q = true)
include flight mine

theorem flight_first : d.dram.inflight.find? (inSub d sc) = some q := by
  rw [flight]
  exact List.find?_cons_of_pos mine

theorem readComplete_outside (client : q.client = .outside) (ecc : Nat) : readComplete d sc ecc =
    if ecc = 0 then completeRead (withFlight d rest) q
    else if ecc = 1 then completeRead (eccCorrected (withFlight d rest) q) q
    else if peerRepairs (eccUncorrectable (withFlight d rest) q) then
      { eccUncorrectable (withFlight d rest) q with dram := { (eccUncorrectable (withFlight d rest) q).dram with
          repairs := (eccUncorrectable (withFlight d rest) q).dram.repairs ++ [q] } }
    else failRead (latencyDone (eccUncorrectable (withFlight d rest) q) q) q := by
  have left : d.dram.inflight.erase q = rest := by rw [flight, List.erase_cons_head]
  unfold readComplete
  rw [flight_first flight mine]
  dsimp only
  rw [client, left]
  rfl

theorem readComplete_scrub (client : q.client = .scrub 0) (ecc : Nat) : readComplete d sc ecc = completeRead (withFlight d rest) q := by
  have left : d.dram.inflight.erase q = rest := by rw [flight, List.erase_cons_head]
  unfold readComplete
  rw [flight_first flight mine]
  dsimp only
  rw [client, left]
  rfl

end

theorem readComplete_none {d : Dev} (flight : d.dram.inflight = []) (sc ecc : Nat) : readComplete d sc ecc = d := by
  unfold readComplete
  rw [flight]
  rfl

theorem completeRead_outside {d : Dev} {q : DramReq} (client : q.client = .outside) (met : 4 * (d.tick - q.at0) ≤ portTarget d q.port) :
    ∃ e, PeakNoted q d e ∧ completeRead d q = e.send (.dram q.port q.addr q.data false) := by
  refine ⟨_, latencyDone_met met, ?_⟩
  unfold completeRead deliverRead
  rw [client]

theorem failRead_plain {d : Dev} {q : DramReq} (client : q.client = .outside) (line : q.port ≠ 0) (heat : q.port ≠ 1) (slow : q.port ≠ 3) :
    failRead d q = d.send (.dram q.port q.addr 0 true) := by
  unfold failRead
  rw [client]
  dsimp only
  rw [if_neg line, if_neg (not_or.mpr ⟨heat, slow⟩)]

theorem failRead_pour {d : Dev} {q : DramReq} (client : q.client = .outside) (pour : q.port = 1 ∨ q.port = 3) :
    failRead d q = eccPour (d.send (.dram q.port q.addr 0 true)) q.addr := by
  unfold failRead
  rw [client]
  dsimp only
  rw [if_neg (by omega), if_pos pour]

/-- The island of a failed read that no station has. -/
theorem eccPour_waiting {d : Dev} {x : Run} {a key : Nat} (running : d.heats.running = some x) (covers : islandAt d a = some key)
    (open' : (x.island key).state < 4) (free : ∀ k, k < 32 → (stationOf d k).island ≠ some key) :
    eccPour d a = islandDone d x key 7 stEcc none := by
  unfold eccPour
  rw [covers]
  unfold eccIsland
  rw [running]
  dsimp only
  rw [if_neg (Nat.not_le.mpr open'), List.find?_eq_none.mpr fun k hk => by
    rw [List.mem_range] at hk
    rw [beq_iff_eq]
    exact free k hk]

theorem islandAt_of_heats {d e : Dev} (h : e.heats = d.heats) (a : Nat) : islandAt e a = islandAt d a := by
  unfold islandAt
  rw [h]

/-! ### Corrected and uncorrectable errors -/

theorem targetsRise_raise (d : Dev) (p b cls sev code payload : Nat) : TargetsRise d (raise d p b cls sev code payload) :=
  targetsRise_passing.toReporting.raise (targetsRise_pen d p b) cls sev code payload

theorem targetsRise_memReg (d : Dev) {off : Nat} (v : Nat) (low : off < 0x100) : TargetsRise d (d.setReg pageMem off v) :=
  targetsRise_setReg d v fun q => by unfold wordAddr; omega

/-- The write-back of a corrected burst. -/
def writeBackOf (q : DramReq) (t : Nat) : DramReq :=
  { port := q.port, addr := q.addr, write := true, data := q.data, cls := 1, promoted := false, at0 := t, client := .writeBack }

/-- The memory with the write-back of a corrected burst. -/
def correctedDram (d : Dev) (wb : DramReq) : Dram :=
  if memReady d ∧ queueRoom d wb = true then { d.dram with queue := d.dram.queue ++ [wb] } else { d.dram with held := [wb] }

theorem writeBack_effect {e : Dev} {wb : DramReq} (empty : e.dram.held = []) (inside : wb.addr < memBytes e)
    (client : wb.client = .writeBack)
    (now : wb.at0 = e.tick) : requestBursts e [wb] = { e with dram := correctedDram e wb } := by
  unfold correctedDram
  by_cases ready : memReady e = true
  · by_cases room : queueRoom e wb = true
    · obtain ⟨b, taken, kept⟩ := acceptReq_queued inside now
      rw [single_enters ready empty (.inr ⟨.inl client, room⟩), taken, kept client, if_pos ⟨ready, room⟩]
    · rw [single_waits ready empty fun enters => room (enters.resolve_left (Nat.not_le.mpr inside)).2, if_neg fun h => room h.2]
  · rw [requestBursts_unready (Bool.eq_false_iff.mpr ready), empty, if_neg fun h => ready h.1, List.nil_append]

/-- A corrected error is counted and told, and its burst asks to be written back. -/
theorem eccCorrected_effect {d : Dev} {q : DramReq} (empty : d.dram.held = []) (inside : q.addr < memBytes d) : ∃ e,
    SameButReports (d.count pageMem 0x060) e ∧ e.pennant pageMem 0 = true ∧ TargetsRise d e ∧
    eccCorrected d q = { e with dram := correctedDram d (writeBackOf q d.tick) } := by
  have kept := same_raise (d.count pageMem 0x060) pageMem 0 clsMemory sevNotice 0x0B01 (eccPay q) (by decide)
  have told : (raise (d.count pageMem 0x060) pageMem 0 clsMemory sevNotice 0x0B01 (eccPay q)).pennant pageMem 0 = true :=
    pennant_raised _ (by decide) (by decide)
  have rise : TargetsRise d (raise (d.count pageMem 0x060) pageMem 0 clsMemory sevNotice 0x0B01 (eccPay q)) :=
    targetsRise_passing.trans (targetsRise_memReg d _ (by decide)) (targetsRise_raise _ _ _ _ _ _ _)
  refine ⟨_, kept, told, rise, ?_⟩
  unfold eccCorrected
  generalize raise (d.count pageMem 0x060) pageMem 0 clsMemory sevNotice 0x0B01 (eccPay q) = e at kept ⊢
  have counted : SetUp d (d.count pageMem 0x060) :=
    ⟨fun off which => (setReg_inUse d _ _ _ _).trans (if_neg (by unfold wordAddr; omega)), rfl, rfl⟩
  have reported := setUp_of_same kept
  have dram : e.dram = d.dram := kept.dram
  have corrected : correctedDram e (writeBackOf q d.tick) = correctedDram d (writeBackOf q d.tick) := by
    rw [correctedDram, reported.memReady, counted.memReady, reported.queueRoom, counted.queueRoom, dram, correctedDram]
  rw [← corrected]
  exact writeBack_effect (by rw [dram]; exact empty) (by rw [reported.memBytes, counted.memBytes]; exact inside) rfl kept.tick.symm

/-- An uncorrectable error is counted and told with its address. -/
theorem eccUncorrectable_effect (d : Dev) (q : DramReq) :
    SameButReports { d with regs := (eccUncorrectable d q).regs } (eccUncorrectable d q) ∧
    (eccUncorrectable d q).pennant pageMem 1 = true ∧ TargetsRise d (eccUncorrectable d q) ∧
    (eccUncorrectable d q).rfld pageMem 0x064 0 32 = min (d.rfld pageMem 0x064 0 32 + 1) 0xFFFFFFFF ∧
    (eccUncorrectable d q).rfld pageMem 0x068 0 32 = q.addr % 2 ^ 32 := by
  unfold eccUncorrectable
  have noted : OnlyRegs d ((d.count pageMem 0x064).setReg64 pageMem 0x068 (q.addr % 2 ^ 35)) := rfl
  have address : ((d.count pageMem 0x064).setReg64 pageMem 0x068 (q.addr % 2 ^ 35)).rfld pageMem 0x068 0 32 = q.addr % 2 ^ 32 := by
    rw [Dev.setReg64, setReg_rfld_other _ _ 0 32 (by decide), setReg_rfld_own _ _ _ (Nat.mod_lt _ (by decide))]
    exact Nat.mod_mod_of_dvd q.addr (by decide)
  have counted : ((d.count pageMem 0x064).setReg64 pageMem 0x068 (q.addr % 2 ^ 35)).rfld pageMem 0x064 0 32 =
      min (d.rfld pageMem 0x064 0 32 + 1) 0xFFFFFFFF := by
    rw [Dev.setReg64, setReg_rfld_other _ _ 0 32 (by decide), setReg_rfld_other _ _ 0 32 (by decide), count_rfld]
  have rise : TargetsRise d ((d.count pageMem 0x064).setReg64 pageMem 0x068 (q.addr % 2 ^ 35)) :=
    targetsRise_passing.trans (targetsRise_memReg d _ (by decide))
      (targetsRise_passing.trans (targetsRise_memReg _ _ (by decide)) (targetsRise_memReg _ _ (by decide)))
  generalize (d.count pageMem 0x064).setReg64 pageMem 0x068 (q.addr % 2 ^ 35) = e at noted address counted rise ⊢
  have kept := same_raise e pageMem 1 clsMemory sevFault 0x0B02 (eccPay q) (by decide)
  refine ⟨?_, pennant_raised _ (by decide) (by decide), targetsRise_passing.trans rise (targetsRise_raise _ _ _ _ _ _ _), ?_, ?_⟩
  · rw [noted] at kept ⊢
    exact same_withRegs kept _
  · rw [rfld_of_same kept 0 32 (memWord_silent (by decide) (by decide)), counted]
  · rw [rfld_of_same kept 0 32 (memWord_silent (by decide) (by decide)), address]

/-! ### The scrub's next burst (R548) -/

theorem scrubOn_next {d : Dev} (more : 64 * (d.rfld pageMem 0x078 0 29 + 1) < memBytes d) :
    scrubOn d = d.setReg pageMem 0x078 (d.rfld pageMem 0x078 0 29 + 1) := if_neg (Nat.not_le.mpr more)

theorem scrubOn_ends {d : Dev} (ends : memBytes d ≤ 64 * (d.rfld pageMem 0x078 0 29 + 1)) :
    scrubOn d = setPen (d.setReg pageMem 0x078 0) pageMem 7 := if_pos ends

/-- The end of a sweep: the scrub starts again, and is told. -/
theorem sweepEnds_effect (d : Dev) : SameButReports (d.setReg pageMem 0x078 0) (setPen (d.setReg pageMem 0x078 0) pageMem 7) ∧
    (setPen (d.setReg pageMem 0x078 0) pageMem 7).rfld pageMem 0x078 0 32 = 0 ∧
    (setPen (d.setReg pageMem 0x078 0) pageMem 7).pennant pageMem 7 = true := by
  have kept := same_setPen (d.setReg pageMem 0x078 0) pageMem 7
  refine ⟨kept, ?_, pennant_setPen _ _ (by decide)⟩
  rw [rfld_of_same kept 0 32 (memWord_silent (by decide) (by decide)), setReg_rfld_own _ _ _ (by decide)]

/-! ### The peer's burst (R547) -/

theorem peerRepair_good {d : Dev} {q : DramReq} {rest : List DramReq} {data : BitVec 512} (waits : d.dram.repairs = q :: rest)
    (peer : peerRepairs d = true) : peerRepair d data true =
    raise (markRepaired (completeRead (setBurst { d with dram := { d.dram with repairs := rest } } (q.addr / 64) data) { q with data := data })
      { q with data := data }) pageMem 2 clsMemory sevWarning 0x0B03 (eccPay { q with data := data }) := by
  unfold peerRepair
  rw [waits]
  exact if_pos peer

theorem peerRepair_bad {d : Dev} {q : DramReq} {rest : List DramReq} {data : BitVec 512} (waits : d.dram.repairs = q :: rest)
    (peer : peerRepairs d = true) : peerRepair d data false =
    let e := eccUncorrectable (setBurst { d with dram := { d.dram with repairs := rest } } (q.addr / 64) data) { q with data := data }
    failRead (latencyDone e { q with data := data }) { q with data := data } := by
  unfold peerRepair
  rw [waits]
  exact if_pos peer

theorem peerRepair_none {d : Dev} (rests : d.dram.repairs = []) (data : BitVec 512) (ok : Bool) : peerRepair d data ok = d := by
  unfold peerRepair
  rw [rests]

theorem same_withOut {d e : Dev} (h : SameButReports d e) (x : List Out) : SameButReports { d with out := x } { e with out := x } := by
  obtain ⟨_, _, _, _, _, _, _, _, _, _, _, _⟩ := h
  constructor <;> first | rfl | assumption

/-- A read that is answered: what goes out, and that words alone differ besides. -/
theorem sent_beside {d e t : Dev} {o : Out} (quiet : d.out = []) (beside : SameButReports { d with regs := e.regs } e)
    (kept : SameButReports (e.send o) t) : t.out = [o] ∧ SameButReports { d with regs := t.regs, out := t.out } t := by
  have none : e.out = [] := beside.out.trans quiet
  have out : t.out = [o] := by
    rw [kept.out, Dev.send, none]
    rfl
  have sent : SameButReports { d with regs := e.regs, out := e.out ++ [o] } (e.send o) := same_withOut beside _
  refine ⟨out, ?_⟩
  have all := same_withRegs (same_trans sent kept) t.regs
  rw [none, List.nil_append, ← out] at all
  exact all

theorem beside_of_peak {q : DramReq} {d e : Dev} (h : PeakNoted q d e) : SameButReports { d with regs := e.regs } e := by
  have only := onlyRegs_of_noted h
  rw [only]
  exact same_refl _

theorem peerRepairs_of_par {d e : Dev} (h : e.par = d.par) : peerRepairs e = peerRepairs d := by
  unfold peerRepairs Dev.pairHolder Dev.holds
  rw [h]

/-- A read in flight that its port's target has not passed. -/
theorem met_withFlight {s : State} {u : Nat} {q : DramReq} (rest : List DramReq)
    (met : 4 * ((s.at u).tick - q.at0) ≤ portTarget s.dev q.port) {e : Dev}
    (rise : TargetsRise (withFlight (s.at u) rest) e) (tick : e.tick = (s.at u).tick) : 4 * (e.tick - q.at0) ≤ portTarget e q.port := by
  rw [tick]
  exact Nat.le_trans met (Nat.le_trans (at_portTarget s u q.port) (rise q.port))

theorem withFlight_at (s : State) (u : Nat) (rest : List DramReq) :
    withFlight (s.at u) rest = { s.at u with dram := { s.dev.dram with inflight := rest } } := by rw [withFlight, at_dram]

theorem correctedDram_at (s : State) (u : Nat) (rest : List DramReq) (wb : DramReq) : correctedDram (withFlight (s.at u) rest) wb =
    if memReady s.dev ∧ queueRoom s.dev wb = true then { s.dev.dram with inflight := rest, queue := s.dev.dram.queue ++ [wb] }
    else { s.dev.dram with inflight := rest, held := [wb] } := by
  have ready : memReady (withFlight (s.at u) rest) = memReady s.dev := at_memReady s u
  have room : queueRoom (withFlight (s.at u) rest) wb = queueRoom s.dev wb := at_queueRoom s u wb
  rw [correctedDram, ready, room, withFlight_at]

section
variable {s t : State} {u : Nat} {q : DramReq} {rest : List DramReq}

section
variable (client : q.client = .outside) (met : 4 * ((s.at u).tick - q.at0) ≤ portTarget s.dev q.port)
include client met

theorem read_clean (kept : SameButReports (completeRead (withFlight (s.at u) rest) q) t.dev) :
    t.dev.out = [.dram q.port q.addr q.data false] ∧
    SameButReports { s.at u with regs := t.dev.regs, dram := { s.dev.dram with inflight := rest }, out := t.dev.out } t.dev := by
  obtain ⟨e, peak, done⟩ := completeRead_outside client (met_withFlight rest met (fun _ => Nat.le_refl _) rfl)
  rw [done] at kept
  have beside := beside_of_peak peak
  rw [withFlight_at] at beside
  exact sent_beside (d := { s.at u with dram := { s.dev.dram with inflight := rest } }) (at_out s u) beside kept

theorem read_corrected (empty : s.dev.dram.held = []) (inside : q.addr < memBytes s.dev)
    (kept : SameButReports (completeRead (eccCorrected (withFlight (s.at u) rest) q) q) t.dev) : t.dev.out = [.dram q.port q.addr q.data false] ∧
    t.dev.pennant pageMem 0 = true ∧ t.dev.rfld pageMem 0x060 0 32 = min (s.dev.rfld pageMem 0x060 0 32 + 1) 0xFFFFFFFF ∧
    SameButReports { s.at u with
      regs := t.dev.regs, dram := correctedDram (withFlight (s.at u) rest) (writeBackOf q (s.at u).tick), out := t.dev.out } t.dev := by
  obtain ⟨e, counted, told, rise, corrected⟩ := eccCorrected_effect (d := withFlight (s.at u) rest) (q := q)
    ((congrArg Dram.held (at_dram s u)).trans empty) (inside.trans_eq (at_memBytes s u).symm)
  change eccCorrected _ q = { e with dram := correctedDram _ (writeBackOf q (s.at u).tick) } at corrected
  rw [corrected] at kept
  generalize correctedDram (withFlight (s.at u) rest) (writeBackOf q (s.at u).tick) = m at kept ⊢
  obtain ⟨f, peak, done⟩ := completeRead_outside (d := { e with dram := m }) client (met_withFlight rest met rise counted.tick)
  rw [done] at kept
  have queued : MemWords e { e with dram := m } := memWords_of_regs rfl
  have sent : MemWords f (f.send (.dram q.port q.addr q.data false)) := memWords_of_regs rfl
  have noted : MemWords e t.dev := queued.trans ((memWords_of_peak peak).trans (sent.trans (memWords_of_same kept)))
  have words : e.rfld pageMem 0x060 0 32 = min ((s.at u).rfld pageMem 0x060 0 32 + 1) 0xFFFFFFFF :=
    (rfld_of_same counted 0 32 (memWord_silent (by decide) (by decide))).trans (count_rfld _ _ _)
  have only : SameButReports { s.at u with regs := ((s.at u).count pageMem 0x060).regs, dram := m } { e with dram := m } :=
      same_withDram counted m
  have beside : SameButReports { s.at u with regs := f.regs, dram := m } f := same_trans (same_withRegs only f.regs) (beside_of_peak peak)
  obtain ⟨out, same⟩ := sent_beside (d := { s.at u with dram := m }) (at_out s u) beside kept
  exact ⟨out, noted.pens _ _ told, by rw [noted.rfld 0 32 (by decide) (by decide), words,
      at_rfld s u 0 32 (memWord_silent (by decide) (by decide))], same⟩

end

/-- What an uncorrectable read of the model leaves, before its consequence. -/
theorem uncorrectable_at : TargetsRise (withFlight (s.at u) rest) (eccUncorrectable (withFlight (s.at u) rest) q) ∧
    peerRepairs (eccUncorrectable (withFlight (s.at u) rest) q) = peerRepairs s.dev ∧
    SameButReports { s.at u with
      regs := (eccUncorrectable (withFlight (s.at u) rest) q).regs, dram := { s.dev.dram with inflight := rest } }
      (eccUncorrectable (withFlight (s.at u) rest) q) := by
  obtain ⟨kept, -, rise, -, -⟩ := eccUncorrectable_effect (withFlight (s.at u) rest) q
  refine ⟨rise, peerRepairs_of_par (kept.par.trans (at_par s u)), ?_⟩
  rw [← at_dram s u]
  exact kept

theorem uncorrectable_words {e : Dev} (noted : MemWords (eccUncorrectable (withFlight (s.at u) rest) q) e) :
    e.pennant pageMem 1 = true ∧ e.rfld pageMem 0x064 0 32 = min (s.dev.rfld pageMem 0x064 0 32 + 1) 0xFFFFFFFF ∧
    e.rfld pageMem 0x068 0 32 = q.addr % 2 ^ 32 := by
  obtain ⟨-, told, -, counted, address⟩ := eccUncorrectable_effect (withFlight (s.at u) rest) q
  refine ⟨noted.pens _ _ told, ?_, by rw [noted.rfld 0 32 (by decide) (by decide), address]⟩
  rw [noted.rfld 0 32 (by decide) (by decide), counted]
  exact congrArg (fun n => min (n + 1) 0xFFFFFFFF) (at_rfld s u 0 32 (memWord_silent (by decide) (by decide)))

theorem read_failed_plain {d : Dev} (client : q.client = .outside)
    (beside : SameButReports { s.at u with regs := d.regs, dram := { s.dev.dram with inflight := rest } } d)
    (peak : PeakNoted q d (latencyDone d q)) (line : q.port ≠ 0) (heat : q.port ≠ 1) (slow : q.port ≠ 3)
    (kept : SameButReports (failRead (latencyDone d q) q) t.dev) :
    t.dev.out = [.dram q.port q.addr 0 true] ∧ t.dev.dram = { s.dev.dram with inflight := rest } := by
  rw [failRead_plain client line heat slow] at kept
  have all : SameButReports { s.at u with
      regs := (latencyDone d q).regs, dram := { s.dev.dram with inflight := rest } } (latencyDone d q) :=
    same_trans (same_withRegs beside _) (beside_of_peak peak)
  obtain ⟨out, same⟩ := sent_beside (d := { s.at u with dram := { s.dev.dram with inflight := rest } }) (at_out s u) all kept
  exact ⟨out, same.dram⟩

theorem read_failed_pour {d : Dev} (client : q.client = .outside)
    (beside : SameButReports { s.at u with regs := d.regs, dram := { s.dev.dram with inflight := rest } } d)
    (peak : PeakNoted q d (latencyDone d q)) (pour : q.port = 1 ∨ q.port = 3) (kept : SameButReports (failRead (latencyDone d q) q) t.dev)
    {x : Run} {key : Nat} (running : s.dev.heats.running = some x) (covers : islandAt s.dev q.addr = some key) (open' : (x.island key).state < 4)
    (free : ∀ k, k < 32 → (stationOf s.dev k).island ≠ some key) :
    t.dev.stations = s.dev.stations ∧ ∃ y, t.dev.heats.running = some y ∧ (y.island key).state = 7 ∧ y.completed = x.completed + 1 := by
  have all : SameButReports { s.at u with
      regs := (latencyDone d q).regs, dram := { s.dev.dram with inflight := rest } } (latencyDone d q) :=
    same_trans (same_withRegs beside _) (beside_of_peak peak)
  have heats : (latencyDone d q).heats = s.dev.heats := all.heats.trans (at_heats s u)
  have stations : (latencyDone d q).stations = s.dev.stations := all.stations.trans (arrive_stations _ _)
  generalize latencyDone d q = e at kept heats stations
  have waits := eccPour_waiting (d := e.send (.dram q.port q.addr 0 true)) (x := x) (key := key) (a := q.addr)
    ((congrArg Heats.running heats).trans running) ((islandAt_of_heats (e := e.send (.dram q.port q.addr 0 true)) heats q.addr).trans covers) open'
    fun k hk => (congrArg (fun l : Tab Station => (l.get (same {}) k).island ≠ some key) stations).mpr (free k hk)
  rw [failRead_pour client pour, waits] at kept
  have ended := islandDone_besideWords (e.send (.dram q.port q.addr 0 true)) x key 7 stEcc none
  have now : t.dev.heats.running = some (endedRun 7 x key) := by rw [kept.heats, ended.heats]; rfl
  exact ⟨by rw [kept.stations, ended.stations]; exact stations, _, now, (endedRun_island 7 x key key).trans (if_pos rfl), rfl⟩

end

/-- A read of the patrol scrub moves it on. -/
theorem read_scrub {s t : State} {u : Nat} {q : DramReq} {rest : List DramReq} (client : q.client = .scrub 0)
    (met : 4 * ((s.at u).tick - q.at0) ≤ portTarget s.dev q.port) (kept : SameButReports (completeRead (withFlight (s.at u) rest) q) t.dev) :
    (64 * (s.dev.rfld pageMem 0x078 0 29 + 1) < memBytes s.dev →
      t.dev.rfld pageMem 0x078 0 32 = s.dev.rfld pageMem 0x078 0 29 + 1) ∧
    (memBytes s.dev ≤ 64 * (s.dev.rfld pageMem 0x078 0 29 + 1) → t.dev.rfld pageMem 0x078 0 32 = 0 ∧ t.dev.pennant pageMem 7 = true) ∧
    SameButReports { s.at u with regs := t.dev.regs, dram := { s.dev.dram with inflight := rest } } t.dev := by
  have peak := latencyDone_met (d := withFlight (s.at u) rest) (q := q) (met_withFlight rest met (fun _ => Nat.le_refl _) rfl)
  have done : completeRead (withFlight (s.at u) rest) q = scrubOn (latencyDone (withFlight (s.at u) rest) q) := by
    unfold completeRead deliverRead
    rw [client]
  rw [done] at kept
  have bytes : memBytes (latencyDone (withFlight (s.at u) rest) q) = memBytes s.dev :=
    (memBytes_of_word (peak.inUse (by decide))).trans (at_memBytes s u)
  have pos : (latencyDone (withFlight (s.at u) rest) q).rfld pageMem 0x078 0 29 = s.dev.rfld pageMem 0x078 0 29 := by
    rw [Dev.rfld, peak.read (by decide)]
    exact at_rfld s u 0 29 (memWord_silent (by decide) (by decide))
  have beside := beside_of_peak peak
  rw [withFlight_at] at beside
  rw [withFlight_at] at kept bytes pos
  generalize latencyDone _ q = e at kept bytes pos beside
  have small : e.rfld pageMem 0x078 0 29 < 2 ^ 29 := rfld_lt _ _ _ _ _
  have silent : reportWord (wordAddr pageMem 0x078) = false := memWord_silent (by decide) (by decide)
  rw [← bytes, ← pos]
  by_cases more : 64 * (e.rfld pageMem 0x078 0 29 + 1) < memBytes e
  · rw [scrubOn_next more] at kept
    refine ⟨fun _ => ?_, fun ends => absurd more (Nat.not_lt.mpr ends), same_withRegs (same_trans (same_withRegs beside _) kept) _⟩
    rw [rfld_of_same kept 0 32 silent, setReg_rfld_own _ _ _ (by omega)]
  · rw [scrubOn_ends (Nat.not_lt.mp more)] at kept
    obtain ⟨same, start, told⟩ := sweepEnds_effect e
    refine ⟨fun more' => absurd more' more, fun _ => ⟨?_, pennant_of_same kept told⟩,
        same_withRegs (same_trans (same_withRegs beside _) (same_trans same kept)) _⟩
    rw [rfld_of_same kept 0 32 silent, start]

/-! ### What a peer's repair leaves -/

/-- A burst that is written changes the memory's contents and the heats of the staging slots. -/
theorem setBurst_frame (d : Dev) (b : Nat) (v : BitVec 512) : setBurst d b v =
    { d with heats := (setBurst d b v).heats, dram := { d.dram with mem := d.dram.mem.set (same none) b (some v) } } := by
  unfold setBurst updSlot
  dsimp only
  split <;> rfl

theorem markRepaired_only (d : Dev) (q : DramReq) : OnlyRegs d (markRepaired d q) := by
  unfold markRepaired
  dsimp only
  split <;> rfl

/-- What a burst reads where the contents of one burst have been replaced. -/
theorem burstAt_set {d e : Dev} {b : Nat} {v : BitVec 512} (heats : e.heats = d.heats)
    (mem : e.dram.mem = d.dram.mem.set (same none) b (some v))
    (start : e.dram.start = d.dram.start) {c : Nat} (other : c ≠ b) : burstAt e c = burstAt d c := by
  have slot (k : Nat) : slotHeat e k = slotHeat d k := by unfold slotHeat; rw [heats]
  unfold burstAt
  rw [mem, start, get_set_other _ _ _ other]
  simp only [slot]

theorem burstAt_written {e : Dev} {a : Nat} {m : Tab (Option (BitVec 512))} {v : BitVec 512} (above : 2 * slotBytes ≤ a)
    (mem : e.dram.mem = m.set (same none) (a / 64) (some v)) : burstAt e (a / 64) = v := by
  unfold burstAt
  dsimp only
  rw [if_neg (by unfold slotBytes mib at *; omega), mem, get_set_same]

/-- The device that has written the peer's burst. -/
def repaired (d : Dev) (q : DramReq) (rest : List DramReq) (v : BitVec 512) : Dev :=
  setBurst { d with dram := { d.dram with repairs := rest } } (q.addr / 64) v

theorem repaired_eq (s : State) (u : Nat) (q : DramReq) (rest : List DramReq) (v : BitVec 512) : repaired (s.at u) q rest v =
    { s.at u with
      heats := (repaired (s.at u) q rest v).heats
      dram := { s.dev.dram with repairs := rest, mem := s.dev.dram.mem.set (same none) (q.addr / 64) (some v) } } := by
  rw [← at_dram s u]
  exact setBurst_frame _ _ _

theorem repaired_heats (s : State) (u : Nat) {q : DramReq} (rest : List DramReq) (v : BitVec 512) (above : 2 * slotBytes ≤ q.addr) :
    (repaired (s.at u) q rest v).heats = s.dev.heats := by
  rw [repaired, setBurst_above v above]
  exact at_heats s u

section
variable {s t : State} {u : Nat} {q : DramReq} {rest : List DramReq} {v : BitVec 512} (client : q.client = .outside)
  (met : 4 * ((s.at u).tick - q.at0) ≤ portTarget s.dev q.port)
include client met

theorem repair_good (kept : SameButReports (raise (markRepaired (completeRead (repaired (s.at u) q rest v) { q with data := v }) { q with data := v })
      pageMem 2 clsMemory sevWarning 0x0B03 (eccPay { q with data := v })) t.dev) :
    t.dev.out = [.dram q.port q.addr v false] ∧ t.dev.pennant pageMem 2 = true ∧ t.dev.heats = (repaired (s.at u) q rest v).heats ∧
    SameButReports { s.at u with
      regs := t.dev.regs, out := t.dev.out, heats := t.dev.heats
      dram := { s.dev.dram with repairs := rest, mem := s.dev.dram.mem.set (same none) (q.addr / 64) (some v) } } t.dev := by
  have frame := repaired_eq s u q rest v
  generalize repaired (s.at u) q rest v = d at kept frame ⊢
  have target : portTarget d q.port = portTarget (s.at u) q.port := by rw [frame]; rfl
  have tick : d.tick = (s.at u).tick := by rw [frame]
  obtain ⟨e, peak, done⟩ := completeRead_outside (d := d) (q := { q with data := v }) client
    (by rw [tick, target]; exact Nat.le_trans met (at_portTarget s u q.port))
  rw [done] at kept
  generalize hf : markRepaired (e.send (.dram q.port q.addr v false)) { q with data := v } = f at kept
  have only : OnlyRegs (e.send (.dram q.port q.addr v false)) f := hf ▸ markRepaired_only _ _
  have told : (raise f pageMem 2 clsMemory sevWarning 0x0B03 (eccPay { q with data := v })).pennant pageMem 2 = true :=
    pennant_raised _ (by decide) (by decide)
  have all := same_trans (same_raise f pageMem 2 clsMemory sevWarning 0x0B03 (eccPay { q with data := v }) (by decide)) kept
  rw [only] at all
  obtain ⟨out, same⟩ := sent_beside (e := { e with regs := f.regs }) (by rw [frame]; exact at_out s u)
    (same_withRegs (beside_of_peak peak) f.regs) all
  refine ⟨out, pennant_of_same kept told, same.heats, ?_⟩
  rw [show t.dev.heats = d.heats from same.heats]
  rw [frame] at same
  exact same

theorem repair_bad (line : q.port ≠ 0) (heat : q.port ≠ 1) (slow : q.port ≠ 3)
    (kept : SameButReports (failRead (latencyDone (eccUncorrectable (repaired (s.at u) q rest v) { q with data := v }) { q with data := v })
      { q with data := v }) t.dev) :
    t.dev.out = [.dram q.port q.addr 0 true] ∧ t.dev.pennant pageMem 1 = true ∧
    t.dev.rfld pageMem 0x064 0 32 = min (s.dev.rfld pageMem 0x064 0 32 + 1) 0xFFFFFFFF := by
  have frame := repaired_eq s u q rest v
  generalize repaired (s.at u) q rest v = d at kept frame
  have target : portTarget d q.port = portTarget (s.at u) q.port := by rw [frame]; rfl
  have tick : d.tick = (s.at u).tick := by rw [frame]
  have words : d.rfld pageMem 0x064 0 32 = (s.at u).rfld pageMem 0x064 0 32 := by rw [frame]; rfl
  obtain ⟨beside, told, rise, counted, -⟩ := eccUncorrectable_effect d { q with data := v }
  generalize eccUncorrectable d { q with data := v } = e at kept beside told rise counted
  have peak : PeakNoted { q with data := v } e (latencyDone e { q with data := v }) := latencyDone_met (by
    rw [beside.tick, tick]
    exact Nat.le_trans met (Nat.le_trans (at_portTarget s u q.port) (target ▸ rise q.port)))
  generalize latencyDone e { q with data := v } = f at kept peak
  rw [failRead_plain (q := { q with data := v }) client line heat slow] at kept
  obtain ⟨out, -⟩ := sent_beside (d := d) (by rw [frame]; exact at_out s u) (same_trans (same_withRegs beside f.regs) (beside_of_peak peak)) kept
  have sent : MemWords f (f.send (.dram q.port q.addr 0 true)) := memWords_of_regs rfl
  have noted := (memWords_of_peak peak).trans (sent.trans (memWords_of_same kept))
  refine ⟨out, noted.pens _ _ told, ?_⟩
  rw [noted.rfld 0 32 (by decide) (by decide), counted, words, at_rfld s u 0 32 (memWord_silent (by decide) (by decide))]

end

/-- Settles O51: what each end of a read leaves, of a client and of the scrub, and what the peer's burst repairs. -/
theorem dramReads : Obligations.DramReads := by
  unfold Obligations.DramReads
  refine ⟨fun s u sc q rest ecc empty flight mine met => ?_, fun s u sc ecc empty flight => ?_,
      fun s u data => ⟨fun q rest waits client peer met => ⟨?_, fun line heat slow => ?_⟩, fun rests ok => ?_⟩⟩
  · intro wb
    have D : acceptHeld (s.at u) = s.at u := acceptHeld_none (by rw [at_dram]; exact empty)
    have flight' : (s.at u).dram.inflight = q :: rest := by rw [at_dram]; exact flight
    have mine' : inSub (s.at u) sc.val q = true := by rw [at_inSub]; exact mine
    have done := answers_dramReadComplete s u sc ecc
    rw [D] at done
    refine ⟨fun client => ?_, fun client => ?_⟩
    · rw [readComplete_outside flight' mine' client] at done
      refine answers_mono done fun t ⟨nv, kept⟩ => ⟨nv, fun clean => ?_, fun one inside => ?_, fun two => ?_⟩
      · rw [if_pos clean] at kept
        exact read_clean client met kept
      · rw [if_neg (by omega), if_pos one] at kept
        obtain ⟨out, told, counted, rest'⟩ := read_corrected client met empty inside kept
        rw [correctedDram_at] at rest'
        exact ⟨out, told, counted, rest'⟩
      · rw [if_neg (by omega), if_neg (by omega)] at kept
        obtain ⟨rise, peers, beside⟩ := uncorrectable_at (s := s) (u := u) (q := q) (rest := rest)
        rw [peers] at kept
        have peak := latencyDone_met (d := eccUncorrectable (withFlight (s.at u) rest) q) (q := q) (met_withFlight rest met rise beside.tick)
        have words : MemWords (eccUncorrectable (withFlight (s.at u) rest) q) t.dev := by
          refine MemWords.trans ?_ (memWords_of_same kept)
          split
          · exact memWords_of_regs rfl
          · exact (memWords_of_peak peak).trans (memWords_failRead client)
        obtain ⟨told, counted, address⟩ := uncorrectable_words words
        refine ⟨told, counted, address, fun peer => ?_, fun alone line heat slow => ?_,
            fun x key alone pour running covers open' free => ?_⟩
        · rw [if_pos peer] at kept
          refine ⟨kept.out.trans (beside.out.trans (at_out s u)), ?_⟩
          rw [kept.dram, beside.dram]
        · rw [if_neg (by rw [alone]; decide)] at kept
          exact read_failed_plain client beside peak line heat slow kept
        · rw [if_neg (by rw [alone]; decide)] at kept
          exact read_failed_pour client beside peak pour kept running covers open' free
    · rw [readComplete_scrub flight' mine' client] at done
      refine answers_mono done fun t ⟨nv, kept⟩ => ⟨nv, ?_⟩
      exact read_scrub client met kept
  · have done := answers_dramReadComplete s u sc ecc
    rwa [acceptHeld_none (by rw [at_dram]; exact empty), readComplete_none (by rw [at_dram]; exact flight)] at done
  · have waits' : (s.at u).dram.repairs = q :: rest := by rw [at_dram]; exact waits
    have done := answers_eccPeerRepair s u data true
    rw [peerRepair_good waits' ((peerRepairs_of_par (at_par s u)).trans peer)] at done
    refine answers_mono done fun t ⟨nv, kept⟩ => ?_
    obtain ⟨out, told, heats, same⟩ := repair_good client met kept
    refine ⟨nv, out, told, fun above => ?_, same⟩
    have own : t.dev.heats = s.dev.heats := heats.trans (repaired_heats s u rest data above)
    exact ⟨burstAt_written above (by rw [same.dram]), fun b other => burstAt_set own (by rw [same.dram]) (by rw [same.dram]) other, own⟩
  · have waits' : (s.at u).dram.repairs = q :: rest := by rw [at_dram]; exact waits
    have done := answers_eccPeerRepair s u data false
    rw [peerRepair_bad waits' ((peerRepairs_of_par (at_par s u)).trans peer)] at done
    exact answers_mono done fun t ⟨nv, kept⟩ => ⟨nv, repair_bad client met line heat slow kept⟩
  · have done := answers_eccPeerRepair s u data ok
    rwa [peerRepair_none (by rw [at_dram]; exact rests)] at done

end Sys2Proof.Proofs
end

section
/-! Jobs of the ingot coder: O54. -/
namespace Sys2Proof.Proofs
open Sys2Proof.Machine Sys2Proof.Laws

theorem same_withCoder {d e : Dev} (h : SameButReports d e) (x : Coder) : SameButReports { d with coder := x } { e with coder := x } := by
  obtain ⟨_, _, _, _, _, _, _, _, _, _, _, _⟩ := h
  constructor <;> first | rfl | assumption

theorem icdWord_silent {off : Nat} (ho : off < 4096) (pen : off ≠ 0x010) : reportWord (wordAddr pageIcd off) = false := by
  have page : wordAddr pageIcd off / 4096 = pageIcd := wordAddr_page ho
  have place : wordAddr pageIcd off % 4096 = off := wordAddr_offset ho
  simp only [reportWord, page, place, Bool.or_eq_false_iff, Bool.and_eq_false_iff, beq_eq_false_iff_ne, decide_eq_false_iff_not]
  simp only [wordAddr, pageEvq, pageIcd]
  omega

/-! ### Jobs -/

theorem jobOf_setJob (d : Dev) (r k : Nat) (j : Option CoderJob) : jobOf (setJob d r j) k = if k = r then j else jobOf d k := by
  cases j with
  | none => exact get_set (d := same none) d.coder.jobs r k none
  | some j => exact get_set (d := same none) d.coder.jobs r k (some j)

theorem jobOf_of_coder {d e : Dev} (h : e.coder = d.coder) (k : Nat) : jobOf e k = jobOf d k := by rw [jobOf, h, jobOf]

/-- The device without a job of ring `r`. -/
def withoutJob (d : Dev) (r : Nat) : Dev := setJob d r none

theorem jobOf_withoutJob (d : Dev) (r k : Nat) : jobOf (withoutJob d r) k = if k = r then none else jobOf d k := jobOf_setJob d r k none

theorem same_jobRecord (d : Dev) {r : Nat} (kind status code : Nat) (j : CoderJob) (ingot : Nat) (hr : r < 2) :
    SameButReports d (jobRecord d r kind status code j ingot) := same_emit _ _ _ _ (by omega)

theorem leaveBuffer_frame (d : Dev) (j : CoderJob) : (leaveBuffer d j).1 = { d with out := (leaveBuffer d j).1.out } := by
  unfold leaveBuffer
  split <;> rfl

theorem same_withoutJob {d e : Dev} (h : SameButReports d e) (r : Nat) : SameButReports (withoutJob d r) (withoutJob e r) := by
  unfold withoutJob setJob
  rw [h.coder]
  exact same_withCoder h _

theorem leaveBuffer_none {d : Dev} {j : CoderJob} (none : j.buffer = none) : leaveBuffer d j = (d, j) := by
  unfold leaveBuffer
  rw [none]

/-- A job that ends leaves its ring without one; besides go out what its buffer has, and its record. -/
theorem endJob_effect (d : Dev) {r : Nat} (hr : r < 2) (status code : Nat) (j : CoderJob) : ∃ o,
    SameButReports (withoutJob { d with out := o } r) (endJob d r status code j) ∧ (j.buffer = none → o = d.out) ∧
    (status = statusAbandoned → (endJob d r status code j).pennant pageIcd 3 = true) := by
  have quiet : j.buffer = none → (leaveBuffer d j).1.out = d.out := fun none => by rw [leaveBuffer_none none]
  have frame := leaveBuffer_frame d j
  unfold endJob
  dsimp only
  generalize leaveBuffer d j = l at frame quiet ⊢
  have told := same_withoutJob (same_jobRecord l.1 0x20 status code l.2 (jobCount j.entry) hr) r
  rw [frame] at told
  refine ⟨l.1.out, ?_, quiet, fun abandoned => ?_⟩
  · split
    · rw [frame]
      exact same_trans told (same_setPen _ _ _)
    · rw [frame]
      exact told
  · rw [if_pos abandoned]
    exact pennant_setPen _ _ (by decide)

theorem dmaFault_effect (d : Dev) (r a : Nat) :
    SameButReports (d.count pageHif 0x060) (dmaFault d r a) ∧ (dmaFault d r a).pennant pageHif 0 = true :=
  ⟨same_raise _ _ _ _ _ _ _ (by decide), pennant_raised _ (by decide) (by decide)⟩

/-! ### An entry's first descriptor (R558, R559, R561) -/

/-- The job with the buffer of a descriptor in use. -/
def inBuffer (j : CoderJob) (bs : List Byte) : CoderJob :=
  { j with taken := j.taken + 1, moved := j.moved + 1, buffer := some (leNat (bs.take 8), leNat ((bs.drop 8).take 4), 0) }

theorem takeDescriptor_good {d : Dev} {r : Nat} {j : CoderJob} {bs : List Byte} (f : Dev → CoderJob → Dev)
    (room : 4 ≤ leNat ((bs.drop 8).take 4))
    (whole : leNat ((bs.drop 8).take 4) % 4 = 0) : takeDescriptor d r j (some bs) f = f d (inBuffer j bs) :=
  if_neg (by omega)

theorem descriptorBytes_ok {bs : List Byte} (whole : 16 ≤ bs.length) : descriptorBytes (.ok bs) = some bs := if_pos whole

section
variable {d : Dev} {r : Nat} {e : Entry} (free : jobOf d r = none)
include free

theorem takeJob_starts {bs : List Byte} (type : byteField e 0 1 ≠ 0x33) (ok : jobFormatOk e = true) (room : 4 ≤ leNat ((bs.drop 8).take 4))
    (whole : leNat ((bs.drop 8).take 4) % 4 = 0) (quiet : groupRipe d pageIcd d.cycle 0 = false) :
    takeJob d r e (some bs) = setJob (firstTurn d) r (some (inBuffer (newJob e) bs)) := by
  unfold takeJob takeJob.start
  rw [free]
  dsimp only
  rw [if_neg type, ok, if_neg (by decide), takeDescriptor_good _ room whole, quiet]
  rfl

theorem takeJob_unread (type : byteField e 0 1 ≠ 0x33) (ok : jobFormatOk e = true) : ∃ a,
    takeJob d r e none = endJob (dmaFault d (12 + r) a) r statusFetch 0 (newJob e) := by
  unfold takeJob takeJob.start
  rw [free]
  dsimp only
  rw [if_neg type, ok, if_neg (by decide)]
  exact ⟨_, rfl⟩

theorem takeJob_noResume (type : byteField e 0 1 = 0x33) (first : Option (List Byte)) :
    takeJob d r e first = endJob d r statusFormat 0 (newJob e) := by
  unfold takeJob
  rw [free]
  exact if_pos type

end

/-- A paused job as RESUME finds it. -/
def resumed (j : CoderJob) (e : Entry) : CoderJob :=
  { j with starved := false, chainAddr := byteField e 20 8, chainCount := chainCount e, taken := 0, outDev := bit (byteField e 1 1) 1 }

theorem takeJob_resumes {d : Dev} {r : Nat} {e : Entry} {j : CoderJob} {bs : List Byte} (job : jobOf d r = some j)
    (type : byteField e 0 1 = 0x33)
    (ok : jobFormatOk e = true) (room : 4 ≤ leNat ((bs.drop 8).take 4)) (whole : leNat ((bs.drop 8).take 4) % 4 = 0) :
    takeJob d r e (some bs) = placeHeld (firstTurn d) r (inBuffer (resumed j e) bs) j.held := by
  unfold takeJob
  rw [job]
  dsimp only
  rw [if_pos type, ok, if_neg (by decide), takeDescriptor_good _ room whole]
  rfl

section
variable {d : Dev} {r : Nat} {e : Entry} (ready : entryReady d (12 + r) e = true) (on : d.enabled pageIcd = true)
  (free : ∀ j, jobOf d r = some j → j.starved = true)
include ready on free

theorem jobRingFree_enabled : (canRead d (12 + r) && jobRingFree d r) = true := by
  obtain ⟨can, -⟩ := entryReady_canRead ready
  unfold jobRingFree
  rw [can, on, Bool.true_and, Bool.or_eq_true]
  refine .inr ?_
  cases job : jobOf d r with
  | none => rfl
  | some j => exact free j job

theorem jobEntry_takes {rd : HostRead} (self : Instr) (read : rd ≠ .waiting) :
    jobEntry d r e rd self = takeJob (consumed d (12 + r)) r e (descriptorBytes rd) := by
  unfold jobEntry
  rw [if_pos (jobRingFree_enabled ready on free), if_neg fun h => read h.1]
  dsimp only
  rw [takeEntry_ready _ ready, on]
  rfl

theorem jobEntry_waits (self : Instr) (reads : jobReads d r e = true) (fresh : (ringOf d (12 + r)).begun = false) :
    jobEntry d r e .waiting self = park d (12 + r) self true := by
  obtain ⟨-, phase⟩ := entryReady_canRead ready
  rw [entryPos, if_neg (by rw [fresh]; exact Bool.false_ne_true)] at phase
  unfold jobEntry
  rw [if_pos (jobRingFree_enabled ready on free), if_pos ⟨rfl, reads⟩, if_pos phase]

end

/-! ### An ingot that has room (R560, R561) -/

/-- The job with an ingot of these bytes placed and finished. -/
def placedJob (j : CoderJob) (a left used n : Nat) : CoderJob :=
  { j with
    buffer := some (a + n, left - n, used + n), bytes := j.bytes + n, next := j.next + 1, coded := j.coded + 1
    held := [], reading := false }

theorem placeHeld_fits {d : Dev} {r : Nat} {j : CoderJob} {bs : List Byte} {a left used : Nat} (buffer : j.buffer = some (a, left, used))
    (some' : bs ≠ []) (fits : bs.length ≤ left) (host : j.outDev = false) (more : j.next + 1 < jobCount j.entry) (goes : j.ending = false) :
    placeHeld d r j bs = setJob (({ d with out := d.out ++ [.host a bs] } : Dev).count pageIcd (if j.decode then 0x070 else 0x068)) r
      (some (placedJob j a left used bs.length)) := by
  have all : (if j.decode then min left bs.length else if bs.length ≤ left then bs.length else 0) = bs.length := by
    rw [if_pos fits, Nat.min_eq_right fits, ite_self]
  have written (x : Dev) : jobWrite x j a bs = x.send (.host a bs) := by
    unfold jobWrite
    rw [if_neg (by rw [List.isEmpty_iff]; exact some'), host]
    rfl
  unfold placeHeld
  rw [buffer]
  dsimp only
  rw [all, List.take_length, List.drop_length, written]
  refine (if_pos rfl).trans ?_
  unfold ingotDone ingotBoundary
  dsimp only
  rw [if_neg (Nat.not_le.mpr more)]
  exact if_neg (by rw [goes]; decide)

section
variable {s : State} {u : Nat} {r : Fin 2} {e : Entry}

theorem at_coder (s : State) (u : Nat) : (s.at u).coder = s.dev.coder := arrive_coder _ _
theorem at_jobOf (s : State) (u k : Nat) : jobOf (s.at u) k = jobOf s.dev k := jobOf_of_coder (at_coder s u) k
theorem consumed_coder (d : Dev) (r : Nat) : (consumed d r).coder = d.coder := (congrArg Dev.coder (consumed_frame d r).1 :)
theorem jobOf_consumed (s : State) (u r k : Nat) : jobOf (consumed (s.at u) r) k = jobOf s.dev k :=
  jobOf_of_coder ((consumed_coder _ _).trans (at_coder s u)) k

/-- A group is as ripe as its page's and the hold's words say. -/
theorem groupRipe_of_regs {d e : Dev} (hold : e.regs.inUse (wordAddr pageDev 0x040) = d.regs.inUse (wordAddr pageDev 0x040))
    (pend : e.regs.pend = d.regs.pend) (released : e.regs.released = d.regs.released) (ever : e.regs.everHeld = d.regs.everHeld) (p k g : Nat) :
    groupRipe e p k g = groupRipe d p k g := by
  unfold groupRipe holdAllows Dev.flag
  rw [hold, pend, released, ever]

theorem consumed_regs (d : Dev) (r : Nat) : (consumed d r).regs.released = d.regs.released ∧
    (consumed d r).regs.everHeld = d.regs.everHeld := by
  unfold consumed
  dsimp only
  split <;> exact ⟨rfl, rfl⟩

theorem groupRipe_consumed (s : State) (u r p k g : Nat) : groupRipe (consumed (s.at u) r) p k g = groupRipe s.dev p k g := by
  obtain ⟨released, ever⟩ := consumed_regs (s.at u) r
  have reported := at_regs s u
  refine (groupRipe_of_regs (consumed_word (s.at u) ?_).2 (consumed_frame (s.at u) r).2 released ever p k g).trans
    (groupRipe_of_regs (reported.inUse _ (by decide)) reported.pend reported.released reported.everHeld p k g)
  unfold wordAddr pageRng pageDev
  omega

end

section
variable {s t : State} {u : Nat} {r : Fin 2} {e : Entry} {bs : List Byte} {self : Instr} (ready : entryReady (s.at u) (12 + r.val) e = true)
  (on : s.dev.enabled pageIcd = true) (ok : jobFormatOk e = true)
include ready on

theorem at_jobEntry_takes {rd : HostRead} (free : ∀ j, jobOf s.dev r.val = some j → j.starved = true) (read : rd ≠ .waiting) :
    jobEntry (s.at u) r.val e rd self = takeJob (consumed (s.at u) (12 + r.val)) r.val e (descriptorBytes rd) :=
  jobEntry_takes ready ((at_enabled s u pageIcd).trans on) (fun j job => free j ((at_jobOf s u r.val).symm.trans job)) self read

section
variable (free : jobOf s.dev r.val = none)
include free

theorem at_jobEntry_free {rd : HostRead} (read : rd ≠ .waiting) :
    jobEntry (s.at u) r.val e rd self = takeJob (consumed (s.at u) (12 + r.val)) r.val e (descriptorBytes rd) :=
  at_jobEntry_takes ready on (fun _ job => nomatch free.symm.trans job) read

theorem entry_noResume (type : byteField e 0 1 = 0x33) (kept : SameButReports (jobEntry (s.at u) r.val e (.ok bs) self) t.dev) :
    (∀ k, jobOf t.dev k = jobOf s.dev k) ∧ SameButReports { consumed (s.at u) (12 + r.val) with coder := t.dev.coder } t.dev := by
  have none := (jobOf_consumed s u (12 + r.val) r.val).trans free
  rw [at_jobEntry_free (rd := .ok bs) ready on free (fun h => nomatch h), takeJob_noResume none type] at kept
  obtain ⟨o, ended, out, -⟩ := endJob_effect (consumed (s.at u) (12 + r.val)) r.isLt statusFormat 0 (newJob e)
  rw [out rfl] at ended
  have all := same_trans ended kept
  refine ⟨fun k => ?_, ?_⟩
  · rw [jobOf_of_coder all.coder, jobOf_withoutJob]
    split
    next own => rw [own, free]
    · exact jobOf_consumed s u _ k
  · rw [all.coder]
    exact all

include ok

theorem entry_starts (type : byteField e 0 1 ≠ 0x33) (quiet : groupRipe s.dev pageIcd s.dev.cycle 0 = false) (whole : 16 ≤ bs.length)
    (room : 4 ≤ leNat ((bs.drop 8).take 4)) (words : leNat ((bs.drop 8).take 4) % 4 = 0)
    (kept : SameButReports (jobEntry (s.at u) r.val e (.ok bs) self) t.dev) :
    jobOf t.dev r.val = some (jobOfEntry e (byteField e 0 1 == 0x32) bs) ∧ (∀ k, k ≠ r.val → jobOf t.dev k = jobOf s.dev k) ∧
    SameButReports { (consumed (s.at u) (12 + r.val)).setReg pageIcd (0x060 + 4 * r.val) 0 with coder := t.dev.coder } t.dev := by
  have none := (jobOf_consumed s u (12 + r.val) r.val).trans free
  have quiet' : groupRipe (consumed (s.at u) (12 + r.val)) pageIcd (consumed (s.at u) (12 + r.val)).cycle 0 = false := by
    rw [groupRipe_consumed, consumed_cycle, at_cycle]
    exact quiet
  rw [at_jobEntry_free (rd := .ok bs) ready on free (fun h => nomatch h), descriptorBytes_ok whole,
      takeJob_starts none type ok room words quiet'] at kept
  have job (k : Nat) : jobOf t.dev k = if k = r.val then some (inBuffer (newJob e) bs) else jobOf s.dev k := by
    rw [jobOf_of_coder kept.coder, jobOf_setJob]
    split
    · rfl
    · exact jobOf_consumed s u _ k
  refine ⟨(job r.val).trans (if_pos rfl), fun k other => (job k).trans (if_neg other), ?_⟩
  rw [kept.coder]
  exact kept

theorem entry_unread (type : byteField e 0 1 ≠ 0x33) (kept : SameButReports (jobEntry (s.at u) r.val e .failed self) t.dev) :
    (∀ k, jobOf t.dev k = jobOf s.dev k) ∧ t.dev.pennant pageHif 0 = true ∧
    t.dev.rfld pageHif 0x060 0 32 = min (s.dev.rfld pageHif 0x060 0 32 + 1) 0xFFFFFFFF ∧
    ringCons t.dev (12 + r.val) = ringCons (consumed (s.at u) (12 + r.val)) (12 + r.val) := by
  have none := (jobOf_consumed s u (12 + r.val) r.val).trans free
  obtain ⟨a, unread⟩ := takeJob_unread none type ok
  rw [at_jobEntry_free (rd := .failed) ready on free (fun h => nomatch h), show descriptorBytes .failed = Option.none from rfl,
      unread] at kept
  obtain ⟨fault, told⟩ := dmaFault_effect (consumed (s.at u) (12 + r.val)) (12 + r.val) a
  obtain ⟨o, ended, -, -⟩ := endJob_effect (dmaFault (consumed (s.at u) (12 + r.val)) (12 + r.val) a) r.isLt statusFetch 0 (newJob e)
  have all := same_trans ended kept
  have silent : reportWord (wordAddr pageHif 0x060) = false := reportWord_of_offset (by decide) (by decide)
  have cons : reportWord (wordAddr (pageRng (12 + r.val)) 0x050) = false := reportWord_of_offset (by decide) (by decide)
  refine ⟨fun k => ?_, pennant_of_same all told, ?_, ?_⟩
  · rw [jobOf_of_coder all.coder, jobOf_withoutJob]
    split
    next own => rw [own, free]
    · exact (jobOf_of_coder (d := consumed (s.at u) (12 + r.val)) fault.coder k).trans (jobOf_consumed s u _ k)
  · refine (rfld_of_same all 0 32 silent).trans ((rfld_of_same fault 0 32 silent).trans ?_)
    rw [count_rfld, Dev.rfld, (consumed_word (s.at u) (by unfold wordAddr pageRng pageHif; omega)).1]
    exact congrArg (fun n => min (n + 1) 0xFFFFFFFF) (at_rfld s u 0 32 silent)
  · refine (rfld_of_same all 0 17 cons).trans ((rfld_of_same fault 0 17 cons).trans ?_)
    exact setReg_rfld_other _ _ 0 17 (by unfold wordAddr pageRng pageHif; omega)

theorem entry_waits (type : byteField e 0 1 ≠ 0x33) (fresh : (ringOf s.dev (12 + r.val)).begun = false) :
    jobEntry (s.at u) r.val e .waiting self = park (s.at u) (12 + r.val) self true := by
  refine jobEntry_waits ready ((at_enabled s u pageIcd).trans on) (fun _ job => nomatch free.symm.trans ((at_jobOf s u r.val).symm.trans job)) self ?_
    ((at_ringBegun s u _).trans fresh)
  rw [jobReads, ok, Bool.true_and, Bool.or_eq_true]
  exact .inl (bne_iff_ne.mpr type)

end

include ok

/-- A paused job goes on in its new buffer with the ingot that waited. -/
theorem entry_resumes {j : CoderJob} (job : jobOf s.dev r.val = some j) (paused : j.starved = true) (waits : j.held ≠ [])
    (goes : j.ending = false) (more : j.next + 1 < byteField j.entry 16 4) (type : byteField e 0 1 = 0x33) (host : bit (byteField e 1 1) 1 = false)
    (whole : 16 ≤ bs.length) (words : leNat ((bs.drop 8).take 4) % 4 = 0) (room : 4 ≤ leNat ((bs.drop 8).take 4))
    (fits : j.held.length ≤ leNat ((bs.drop 8).take 4)) (kept : SameButReports (jobEntry (s.at u) r.val e (.ok bs) self) t.dev) :
    t.dev.out = [.host (leNat (bs.take 8)) j.held] ∧ (∀ k, k ≠ r.val → jobOf t.dev k = jobOf s.dev k) ∧
    ∃ j', jobOf t.dev r.val = some j' ∧ j'.starved = false ∧ j'.entry = j.entry ∧ j'.next = j.next + 1 ∧
      j'.coded = j.coded + 1 ∧ j'.bytes = j.bytes + j.held.length ∧ j'.moved = j.moved + 1 ∧ j'.held = [] := by
  have there := (jobOf_consumed s u (12 + r.val) r.val).trans job
  have placed := placeHeld_fits (d := firstTurn (consumed (s.at u) (12 + r.val))) (r := r.val) (j := inBuffer (resumed j e) bs) rfl waits fits host more goes
  rw [at_jobEntry_takes (rd := .ok bs) ready on (fun k same => Option.some.inj (job.symm.trans same) ▸ paused) (fun h => nomatch h),
    descriptorBytes_ok whole, takeJob_resumes there type ok room words, placed] at kept
  have out : (consumed (s.at u) (12 + r.val)).out = [] := (consumed_out _ _).trans (at_out s u)
  have now (k : Nat) : jobOf t.dev k = if k = r.val then some (placedJob (inBuffer (resumed j e) bs) (leNat (bs.take 8))
      (leNat ((bs.drop 8).take 4)) 0 j.held.length) else jobOf s.dev k := by
    rw [jobOf_of_coder kept.coder, jobOf_setJob]
    split
    · rfl
    · exact jobOf_consumed s u _ k
  refine ⟨kept.out.trans ?_, fun k other => (now k).trans (if_neg other), _, (now r.val).trans (if_pos rfl), rfl, rfl, rfl, rfl,
      rfl, rfl, rfl⟩
  show (consumed (s.at u) (12 + r.val)).out ++ [.host (leNat (bs.take 8)) j.held] = _
  rw [out]
  rfl

end

/-! ### ABANDON (R561) -/

/-- What an abandon leaves of a job. -/
def abandoned (o : Option CoderJob) : Option CoderJob := o.bind fun j => if j.reading then some { j with ending := true } else none

/-- What the abandons of the rings for which `m` holds leave. -/
structure Abandoned (m : Nat → Prop) [DecidablePred m] (d e : Dev) : Prop where
  jobs : ∀ k, jobOf e k = if m k then abandoned (jobOf d k) else jobOf d k
  told : (∃ k j, m k ∧ jobOf d k = some j ∧ j.reading = false) → e.pennant pageIcd 3 = true
  pens : ∀ p b, d.pennant p b = true → e.pennant p b = true
  heats : e.heats = d.heats
  dram : e.dram = d.dram

theorem abandonJob_effect (d : Dev) {r : Nat} (hr : r < 2) : Abandoned (· = r) d (abandonJob d r) := by
  unfold abandonJob
  cases job : jobOf d r with
  | none =>
    dsimp only
    refine ⟨fun k => ?_, fun ⟨k, j, own, there, _⟩ => ?_, fun _ _ f => f, rfl, rfl⟩
    · split
      next own => rw [own, job]; rfl
      · rfl
    · rw [own, job] at there
      exact nomatch there
  | some j =>
    dsimp only
    by_cases reads : j.reading = true
    · rw [if_pos reads]
      refine ⟨fun k => ?_, fun ⟨k, j', own, there, idle⟩ => ?_, fun p b f => ?_, rfl, rfl⟩
      · rw [jobOf_setJob]
        split
        next own => rw [own, job, abandoned, Option.bind_some, if_pos reads]
        · rfl
      · rw [own, job] at there
        rw [← Option.some.inj there, reads] at idle
        exact nomatch idle
      · exact (pennant_setReg _ (by omega) (by omega)).trans f
    · rw [if_neg reads]
      generalize hx : (if (ringOf d (12 + r)).parked.isSome = true then unpark d (12 + r) else d) = x
      have own : x = { d with rings := x.rings } := by
        subst hx
        split <;> rfl
      obtain ⟨o, ended, -, told⟩ := endJob_effect x hr statusAbandoned 0 j
      have jobs (k : Nat) : jobOf x k = jobOf d k := by rw [own]; rfl
      refine ⟨fun k => ?_, fun _ => told rfl, fun p b f => pennant_of_same ended ?_, ?_, ?_⟩
      · rw [jobOf_of_coder ended.coder, jobOf_withoutJob]
        split
        next own => rw [own, job, abandoned, Option.bind_some, if_neg reads]
        · exact jobs k
      · show x.pennant p b = true
        rw [own]
        exact f
      · refine ended.heats.trans ?_
        show x.heats = _
        rw [own]
      · refine ended.dram.trans ?_
        show x.dram = _
        rw [own]

theorem Abandoned.of_iff {m n : Nat → Prop} [DecidablePred m] [DecidablePred n] {d e : Dev} (h : Abandoned m d e) (same : ∀ k, n k ↔ m k) :
    Abandoned n d e :=
  ⟨fun k => (h.jobs k).trans (if_congr (same k).symm rfl rfl), fun ⟨k, j, own, rest⟩ => h.told ⟨k, j, (same k).mp own, rest⟩,
      h.pens, h.heats, h.dram⟩

/-- Ring `r` is abandoned where `b` says so. -/
theorem abandonIf_effect (d : Dev) {r : Nat} (hr : r < 2) (b : Bool) :
    Abandoned (fun k => k = r ∧ b = true) d (if b then abandonJob d r else d) := by
  cases b
  · exact ⟨fun k => (if_neg fun h => nomatch h.2).symm, fun ⟨k, j, own, _⟩ => (nomatch own.2), fun _ _ f => f, rfl, rfl⟩
  · exact (abandonJob_effect d hr).of_iff fun k => and_iff_left rfl

theorem Abandoned.trans {m n : Nat → Prop} [DecidablePred m] [DecidablePred n] {d e f : Dev} (h : Abandoned m d e) (k : Abandoned n e f)
    (apart : ∀ i, m i → ¬n i) : Abandoned (fun i => m i ∨ n i) d f := by
  refine ⟨fun i => ?_, fun ⟨i, j, own, there, idle⟩ => ?_, fun p b g => k.pens p b (h.pens p b g), k.heats.trans h.heats,
      k.dram.trans h.dram⟩
  · rw [k.jobs, h.jobs]
    by_cases first : m i
    · rw [if_neg (apart i first), if_pos first, if_pos (.inl first)]
    · by_cases second : n i
      · rw [if_pos second, if_neg first, if_pos (.inr second)]
      · rw [if_neg second, if_neg first, if_neg (not_or.mpr ⟨first, second⟩)]
  · by_cases first : m i
    · exact k.pens _ _ (h.told ⟨i, j, first, there, idle⟩)
    · exact k.told ⟨i, j, own.resolve_left first, by rw [h.jobs, if_neg first, there], idle⟩

theorem jobAbandonWrite_effect (d : Dev) (v : Nat) : Abandoned (fun k => k < 2 ∧ bit v k = true) d (jobAbandonWrite d v) := by
  have both := (abandonIf_effect d (r := 0) (by decide) (bit v 0)).trans (abandonIf_effect _ (r := 1) (by decide) (bit v 1))
    fun i first second => by omega
  refine both.of_iff fun k => ⟨fun ⟨small, own⟩ => ?_, fun h => ?_⟩
  · obtain rfl | rfl : k = 0 ∨ k = 1 := by omega
    · exact .inl ⟨rfl, own⟩
    · exact .inr ⟨rfl, own⟩
  · obtain ⟨rfl, own⟩ | ⟨rfl, own⟩ := h
    · exact ⟨by decide, own⟩
    · exact ⟨by decide, own⟩

/-- ICD_JOB. -/
def jobReg : Reg := ⟨0x040, 0, 1, [wo 0 1 .live 0 [], wo 1 1 .live 0 []]⟩

theorem jobReg_found : PageKind.icd.reg? 0x040 = some jobReg := by decide

/-- Settles O54: what ENCODE, DECODE and RESUME do by the read of their first descriptor and the job in hand, and which jobs ABANDON ends. -/
theorem coderJobs : Obligations.CoderJobs := by
  unfold Obligations.CoderJobs
  refine ⟨fun s u r e bs ready on ok => ?_, fun s u v ok => ?_⟩
  · intro len
    refine ⟨fun free quiet => ?_, fun j free paused _ waits goes more type host whole words room fits => ?_⟩
    · intro started waits unread
      have parks (i : Instr) := same_park s u (12 + r.val) i true
      refine ⟨fun type => ⟨fun whole room words => ?_, fun fresh => ?_, ?_⟩,
          fun type => ⟨fun whole room words => ?_, fun fresh => ?_, ?_⟩, fun type => ?_⟩
      · refine answers_mono (answers_encode s u r e (.ok bs)) fun t ⟨nv, kept⟩ => ⟨nv, ?_⟩
        have start := entry_starts ready on ok free (by rw [type]; decide) quiet whole room words kept
        rwa [type] at start
      · refine answers_mono (answers_encode s u r e .waiting) fun t ⟨nv, kept⟩ => ⟨nv, ?_⟩
        rw [entry_waits ready on ok free (by rw [type]; decide) fresh] at kept
        exact same_trans (parks _) kept
      · exact answers_mono (answers_encode s u r e .failed) fun t ⟨nv, kept⟩ =>
            ⟨nv, entry_unread ready on ok free (by rw [type]; decide) kept⟩
      · refine answers_mono (answers_decode s u r e (.ok bs)) fun t ⟨nv, kept⟩ => ⟨nv, ?_⟩
        have start := entry_starts ready on ok free (by rw [type]; decide) quiet whole room words kept
        rwa [type] at start
      · refine answers_mono (answers_decode s u r e .waiting) fun t ⟨nv, kept⟩ => ⟨nv, ?_⟩
        rw [entry_waits ready on ok free (by rw [type]; decide) fresh] at kept
        exact same_trans (parks _) kept
      · exact answers_mono (answers_decode s u r e .failed) fun t ⟨nv, kept⟩ =>
            ⟨nv, entry_unread ready on ok free (by rw [type]; decide) kept⟩
      · exact answers_mono (answers_resume s u r e (.ok bs)) fun t ⟨nv, kept⟩ => ⟨nv, entry_noResume ready on free type kept⟩
    · exact answers_mono (answers_resume s u r e (.ok bs)) fun t ⟨nv, kept⟩ =>
        ⟨nv, entry_resumes ready on ok free paused waits goes more type host whole words room fits kept⟩
  · have written := answers_icdJobAbandon s u v
    rw [withWrite_stores _ ok (k := .icd) rfl jobReg_found rfl rfl rfl] at written
    have only := onlyRegs_stored (s.at u) pageIcd 0x040 jobReg v.toNat
    generalize stored (s.at u) pageIcd 0x040 jobReg v.toNat = d at written only
    have jobs (k : Nat) : jobOf d k = jobOf s.dev k := (jobOf_of_coder (by rw [only]) k).trans (at_jobOf s u k)
    have ended := jobAbandonWrite_effect d v.toNat
    refine answers_mono written fun t ⟨nv, kept⟩ => ⟨nv, fun k => ?_, fun ⟨k, j, small, own, there, idle⟩ => ?_, ?_, ?_⟩
    · rw [jobOf_of_coder kept.coder, ended.jobs, jobs]
      rfl
    · exact pennant_of_same kept (ended.told ⟨k, j, ⟨small, own⟩, (jobs k).trans there, idle⟩)
    · rw [kept.heats, ended.heats, only]
      exact at_heats s u
    · rw [kept.dram, ended.dram, only]
      exact at_dram s u

end Sys2Proof.Proofs
end

section
/-! The next ingot of a coder job: O55. -/
namespace Sys2Proof.Proofs
open Sys2Proof.Machine Sys2Proof.Laws

/-! ### A read of the device's DRAM (R558) -/

theorem acceptReq_transfers (d : Dev) (q : DramReq) : (acceptReq d q).dram.transferCount = d.dram.transferCount := by
  unfold acceptReq spend
  dsimp only
  repeat' split
  all_goals rfl

theorem acceptHeld_transfers (d : Dev) : (acceptHeld d).dram.transferCount = d.dram.transferCount := by
  by_cases ready : memReady d = true
  · rw [acceptHeld_ready ready rfl]
    refine List.foldlRecOn (motive := fun x : Dev × List DramReq => x.1.dram.transferCount = d.dram.transferCount) _ _ rfl fun x h q _ => ?_
    unfold takeHeld
    split
    · exact (acceptReq_transfers x.1 q).trans h
    · exact h
  · rw [acceptHeld_unready (Bool.eq_false_iff.mpr ready)]

/-- A read that reaches the DRAM is a transfer of its own. -/
theorem dramRead_begins {d : Dev} {port a n : Nat} (use : TransferUse) (reaches : burstsOf d a n ≠ []) : ∃ e, OnlyDram d e ∧
    e.dram.transferCount = d.dram.transferCount + 1 ∧ dramRead d port a n use = (some d.dram.transferCount, e) := by
  have count : (countBeyond d a n).dram = d.dram := by
    unfold countBeyond
    split <;> rfl
  refine ⟨(dramRead d port a n use).2, dramRead_onlyDram d port a n use, ?_, ?_⟩
  · unfold dramRead requestBursts
    dsimp only
    rw [if_neg (by rw [List.isEmpty_iff]; exact reaches)]
    dsimp only
    rw [acceptHeld_transfers, count]
  · unfold dramRead
    dsimp only
    rw [if_neg (by rw [List.isEmpty_iff]; exact reaches), count]

/-! ### A running job's turn (R551) -/

/-- The device whose next turn is the other ring's. -/
def turned (d : Dev) (r : Nat) : Dev := { d with coder := { d.coder with turn := 1 - r } }

/-- The job of ring `r` runs, and its next ingot may come. -/
structure Runs (d : Dev) (r : Nat) (j : CoderJob) : Prop where
  job : jobOf d r = some j
  paused : j.starved = false
  turn : jobTurn d r = true
  parked : (ringOf d (12 + r)).parked = none
  reading : j.reading = false
  input : j.input = none

section
variable {d : Dev} {r : Nat} {j : CoderJob} (runs : Runs d r j)
include runs

theorem Runs.goes : (j.starved || j.reading || j.input.isSome || j.decode != j.decode || !jobTurn d r || !(ringOf d (12 + r)).parked.isNone) = false := by
  obtain ⟨-, paused, turn, parked, reading, input⟩ := runs
  rw [paused, turn, parked, reading, input]
  simp

theorem ingotStep_host {bs : List Byte} (self : Instr) (host : bit (byteField j.entry 1 1) 0 = false) (whole : inputLength j ≤ bs.length) :
    ingotStep d r j.decode (.ok bs) self = ingotInput (turned d r) r j (some (bs.take (inputLength j))) := by
  unfold ingotStep
  rw [runs.job]
  dsimp only
  rw [runs.goes, if_neg Bool.false_ne_true, host, if_neg Bool.false_ne_true, if_pos whole]
  rfl

theorem ingotStep_dram (rd : HostRead) (self : Instr) (dram : bit (byteField j.entry 1 1) 0 = true)
    (reaches : burstsOf d (byteField j.entry 8 8 + inputLength j * j.next) (inputLength j) ≠ []) : ∃ e, OnlyDram (turned d r) e ∧
    e.dram.transferCount = d.dram.transferCount + 1 ∧
    ingotStep d r j.decode rd self = setJob e r (some { j with input := some d.dram.transferCount }) := by
  obtain ⟨e, only, count, read⟩ := dramRead_begins (d := turned d r) (port := 7) (.ingot r) reaches
  refine ⟨e, only, count, ?_⟩
  have read' : dramRead { d with coder := { d.coder with turn := 1 - r } } 7 (byteField j.entry 8 8 + inputLength j * j.next) (inputLength j) (.ingot r) =
    (some d.dram.transferCount, e) := read
  unfold ingotStep
  rw [runs.job]
  dsimp only
  rw [runs.goes, if_neg Bool.false_ne_true, dram, if_pos rfl, read']

end

theorem ingotStep_none {d : Dev} {r : Nat} (free : jobOf d r = none) (decode : Bool) (rd : HostRead) (self : Instr) :
    ingotStep d r decode rd self = d := by
  unfold ingotStep
  rw [free]

/-! ### The ingot's end (R556, R557, R560, R562) -/

section
variable {d : Dev} {r : Nat} {j : CoderJob} {input : List Byte}

theorem ingotInput_encodes {b : List Byte} (encodes : j.decode = false)
    (coded : encodeIngot (d.fld pageIcd 0x044 0 3) (byteField j.entry 2 1) j.history (wordsOf 64 input) = some b) :
    ingotInput d r j (some input) = placeHeld d r { j with history := pushHistory j.history (wordsOf 64 input) } b := by
  unfold ingotInput encodeStep
  dsimp only
  rw [encodes, if_neg Bool.false_ne_true, coded]

/-- The record and the event of an ingot that does not shrink. -/
def notShrunk (d : Dev) (r : Nat) (j : CoderJob) : Dev :=
  jobRecord (raise (d.count pageIcd 0x06C) pageIcd 0 clsHousekeeping sevInfo 0x0201 (pay 5 0 0 j.next)) r 0x21 statusOk 0x0201 j j.next

theorem ingotInput_notShrunk (encodes : j.decode = false)
    (none : encodeIngot (d.fld pageIcd 0x044 0 3) (byteField j.entry 2 1) j.history (wordsOf 64 input) = none)
    (more : j.next + 1 < jobCount j.entry) (goes : j.ending = false) :
    ingotInput d r j (some input) = setJob (notShrunk d r j) r (some { j with next := j.next + 1, history := [] }) := by
  unfold ingotInput encodeStep
  dsimp only
  rw [encodes, if_neg Bool.false_ne_true, none]
  unfold ingotBoundary
  dsimp only
  rw [if_neg (Nat.not_le.mpr more)]
  exact if_neg (by rw [goes]; decide)

theorem ingotInput_decodes {xs : List Word} (decodes : j.decode = true) (read : decodeIngot j.history input = .ok xs) :
    ingotInput d r j (some input) = placeHeld d r { j with history := pushHistory j.history xs } (bytesOf xs) := by
  unfold ingotInput decodeStep
  dsimp only
  rw [decodes, if_pos rfl, read]

theorem ingotInput_fault {c : Nat} (decodes : j.decode = true) (fault : decodeIngot j.history input = .error c) :
    ingotInput d r j (some input) = endJob (decodeFault d 5 c j.next) r statusIngot c j := by
  unfold ingotInput decodeStep
  dsimp only
  rw [decodes, if_pos rfl, fault]

end

theorem notShrunk_effect (d : Dev) {r : Nat} (hr : r < 2) (j : CoderJob) : SameButReports (d.count pageIcd 0x06C) (notShrunk d r j) ∧
    (notShrunk d r j).pennant pageIcd 0 = true := by
  have told := same_raise (d.count pageIcd 0x06C) pageIcd 0 clsHousekeeping sevInfo 0x0201 (pay 5 0 0 j.next) (by decide)
  have recorded := same_jobRecord (raise (d.count pageIcd 0x06C) pageIcd 0 clsHousekeeping sevInfo 0x0201 (pay 5 0 0 j.next)) 0x21 statusOk 0x0201
    j j.next hr
  exact ⟨same_trans told recorded, pennant_of_same recorded (pennant_raised _ (by decide) (by decide))⟩

theorem setJob_words (d : Dev) {r : Nat} (hr : r < 2) (j : CoderJob) {off : Nat} (high : 0x068 ≤ off) :
    (setJob d r (some j)).rfld pageIcd off 0 32 = d.rfld pageIcd off 0 32 := by
  refine (setReg_rfld_other _ _ 0 32 ?_).trans rfl
  unfold wordAddr
  omega

/-- An ingot that has been placed and finished, as a statement says it. -/
theorem placedJob_runs {j : CoderJob} (reading : j.reading = false) (h : List Word) (a left used n : Nat) :
    placedJob { j with history := h } a left used n = { j with
      buffer := some (a + n, left - n, used + n), bytes := j.bytes + n, next := j.next + 1, coded := j.coded + 1
      history := h, held := [] } := by
  unfold placedJob
  rw [← reading]

/-- An ingot with room, where more of the job follow. -/
theorem placeHeld_goes {d : Dev} {r : Nat} {j : CoderJob} {bs : List Byte} {a left used : Nat} (buffer : j.buffer = some (a, left, used))
    (some' : bs ≠ []) (fits : bs.length ≤ left) (host : j.outDev = false) (more : j.next + 1 < jobCount j.entry) (goes : j.ending = false)
    (reading : j.reading = false) (h : List Word) : placeHeld d r { j with history := h } bs =
      setJob (({ d with out := d.out ++ [.host a bs] } : Dev).count pageIcd (if j.decode then 0x070 else 0x068)) r (some { j with
        buffer := some (a + bs.length, left - bs.length, used + bs.length), bytes := j.bytes + bs.length, next := j.next + 1
        coded := j.coded + 1, history := h, held := [] }) := by
  rw [← placedJob_runs reading]
  exact placeHeld_fits (j := { j with history := h }) buffer some' fits host more goes

theorem Runs.at {s : State} {r : Nat} {j : CoderJob} (runs : Runs s.dev r j) (u : Nat) : Runs (s.at u) r j := by
  obtain ⟨job, paused, turn, parked, reading, input⟩ := runs
  refine ⟨(at_jobOf s u r).trans job, paused, ?_, (at_parked s u _).trans parked, reading, input⟩
  unfold jobTurn
  rw [at_jobOf, at_coder]
  exact turn

/-- A device whose words, jobs and output alone differ. -/
theorem same_besideJobs {d f t : Dev} (frame : f = { d with regs := f.regs, coder := f.coder, out := f.out }) (kept : SameButReports f t) :
    SameButReports { d with regs := t.regs, coder := t.coder, out := t.out } t := by
  have all := same_withRegs kept t.regs
  rw [kept.coder, kept.out]
  rw [frame] at all
  exact all

theorem setJob_frame (d : Dev) (r c : Nat) (o : List Out) (j : CoderJob) :
    setJob (({ turned d r with out := o } : Dev).count pageIcd c) r (some j) = { d with
      regs := (setJob (({ turned d r with out := o } : Dev).count pageIcd c) r (some j)).regs
      coder := (setJob (({ turned d r with out := o } : Dev).count pageIcd c) r (some j)).coder
      out := (setJob (({ turned d r with out := o } : Dev).count pageIcd c) r (some j)).out } := rfl

section
variable {s t : State} {u : Nat} {r : Fin 2} {j : CoderJob}

theorem jobOf_turned (k : Nat) : jobOf (turned (s.at u) r.val) k = jobOf s.dev k := at_jobOf s u k

theorem placed_effect {j' : CoderJob} {o : Out} {counter : Nat} (high : 0x068 ≤ counter) (page : counter < 4096)
    (kept : SameButReports (setJob (({ turned (s.at u) r.val with out := (turned (s.at u) r.val).out ++ [o] } : Dev).count pageIcd counter) r.val
      (some j')) t.dev) :
    t.dev.out = [o] ∧ jobOf t.dev r.val = some j' ∧
    t.dev.rfld pageIcd counter 0 32 = min (s.dev.rfld pageIcd counter 0 32 + 1) 0xFFFFFFFF ∧
    (∀ k, k ≠ r.val → jobOf t.dev k = jobOf s.dev k) ∧
    SameButReports { s.at u with regs := t.dev.regs, coder := t.dev.coder, out := t.dev.out } t.dev := by
  have silent : reportWord (wordAddr pageIcd counter) = false := icdWord_silent page (by omega)
  have job (k : Nat) : jobOf t.dev k = if k = r.val then some j' else jobOf s.dev k := by
    rw [jobOf_of_coder kept.coder, jobOf_setJob]
    split
    · rfl
    · exact jobOf_turned k
  have out : t.dev.out = [o] := by
    refine kept.out.trans ?_
    show (s.at u).out ++ [o] = _
    rw [at_out]
    rfl
  refine ⟨out, (job r.val).trans (if_pos rfl), ?_, fun k other => (job k).trans (if_neg other), ?_⟩
  · rw [rfld_of_same kept 0 32 silent, setJob_words _ r.isLt _ high, count_rfld]
    exact congrArg (fun n => min (n + 1) 0xFFFFFFFF) (at_rfld s u 0 32 silent)
  · exact same_besideJobs (setJob_frame _ _ _ _ _) kept

theorem notShrunk_answer (kept : SameButReports (setJob (notShrunk (turned (s.at u) r.val) r.val j) r.val
      (some { j with next := j.next + 1, history := [] })) t.dev) :
    t.dev.out = [] ∧ t.dev.pennant pageIcd 0 = true ∧ jobOf t.dev r.val = some { j with next := j.next + 1, history := [] } ∧
    t.dev.rfld pageIcd 0x06C 0 32 = min (s.dev.rfld pageIcd 0x06C 0 32 + 1) 0xFFFFFFFF := by
  have silent : reportWord (wordAddr pageIcd 0x06C) = false := icdWord_silent (by decide) (by decide)
  obtain ⟨same, told⟩ := notShrunk_effect (turned (s.at u) r.val) r.isLt j
  refine ⟨(kept.out.trans same.out).trans (at_out s u), pennant_of_same kept ?_, ?_, ?_⟩
  · exact (pennant_setReg _ (by omega) (by omega)).trans told
  · rw [jobOf_of_coder kept.coder, jobOf_setJob, if_pos rfl]
  · rw [rfld_of_same kept 0 32 silent, setJob_words _ r.isLt _ (by decide), rfld_of_same same 0 32 silent, count_rfld]
    exact congrArg (fun n => min (n + 1) 0xFFFFFFFF) (at_rfld s u 0 32 silent)

theorem fault_answer {c : Nat} (kept : SameButReports (endJob (decodeFault (turned (s.at u) r.val) 5 c j.next) r.val statusIngot c j) t.dev) :
    jobOf t.dev r.val = none ∧ t.dev.pennant pageIcd 1 = true ∧
    t.dev.rfld pageIcd 0x074 0 32 = min (s.dev.rfld pageIcd 0x074 0 32 + 1) 0xFFFFFFFF := by
  have silent : reportWord (wordAddr pageIcd 0x074) = false := icdWord_silent (by decide) (by decide)
  have same := same_raise ((turned (s.at u) r.val).count pageIcd 0x074) pageIcd 1 clsHousekeeping sevWarning c (pay 5 0 0 j.next) (by decide)
  have told : (decodeFault (turned (s.at u) r.val) 5 c j.next).pennant pageIcd 1 = true := pennant_raised _ (by decide) (by decide)
  obtain ⟨o, ended, -, -⟩ := endJob_effect (decodeFault (turned (s.at u) r.val) 5 c j.next) r.isLt statusIngot c j
  have all := same_trans ended kept
  refine ⟨?_, pennant_of_same all told, ?_⟩
  · rw [jobOf_of_coder all.coder, jobOf_withoutJob, if_pos rfl]
  · refine (rfld_of_same all 0 32 silent).trans ((rfld_of_same same 0 32 silent).trans ?_)
    rw [count_rfld]
    exact congrArg (fun n => min (n + 1) 0xFFFFFFFF) (at_rfld s u 0 32 silent)

end

theorem bytesOf_ne_nil {xs : List Word} (some' : xs ≠ []) : bytesOf xs ≠ [] := by
  cases xs with
  | nil => exact absurd rfl some'
  | cons x xs => simp [bytesOf, leBytes]

/-- Settles O55: the next ingot of a job by where its input stands and how it is coded or decoded, and a ring without a job. -/
theorem coderIngots : Obligations.CoderIngots := by
  unfold Obligations.CoderIngots
  refine fun s u r bs => ⟨fun j rd job paused turn parked reading input dram reaches => ?_,
    fun j a left used job paused turn parked reading input goes near host buffer more => ?_, fun free rd => ⟨?_, ?_⟩⟩
  · have runs : Runs (s.at u) r.val j := Runs.at ⟨job, paused, turn, parked, reading, input⟩ u
    have bytes : burstsOf (s.at u) = burstsOf s.dev := by
      funext x n
      unfold burstsOf
      rw [at_memBytes]
    obtain ⟨e, only, count, step⟩ := ingotStep_dram runs rd
      (if j.decode then .ingotDecode 0 r rd else .ingotEncode 0 r rd) dram (by rw [bytes]; exact reaches)
    rw [at_dram] at count step
    have ran : AnswersButReports s (if j.decode then .ingotDecode u r rd else .ingotEncode u r rd)
        (setJob e r.val (some { j with input := some s.dev.dram.transferCount })) := by
      rw [← step]
      cases j.decode
      · exact answers_ingotEncode s u r rd
      · exact answers_ingotDecode s u r rd
    refine answers_mono ran fun t ⟨nv, kept⟩ => ?_
    have others (k : Nat) : jobOf e k = jobOf s.dev k := (jobOf_of_coder (by rw [only]) k).trans (jobOf_turned (r := r) k)
    have jobs (k : Nat) : jobOf t.dev k = if k = r.val then some { j with input := some s.dev.dram.transferCount } else jobOf s.dev k := by
      rw [jobOf_of_coder kept.coder, jobOf_setJob, others]
    refine ⟨nv, (jobs r.val).trans (if_pos rfl), fun k other => (jobs k).trans (if_neg other), ?_, ?_⟩
    · rw [kept.dram]
      exact count
    · refine kept.heats.trans ?_
      show e.heats = _
      rw [only]
      exact at_heats s u
  · have runs : Runs (s.at u) r.val j := Runs.at ⟨job, paused, turn, parked, reading, input⟩ u
    have pred : (turned (s.at u) r.val).fld pageIcd 0x044 0 3 = s.dev.fld pageIcd 0x044 0 3 :=
        at_fld s u 0 3 (icdWord_silent (by decide) (by decide))
    intro ratio placed
    refine ⟨fun encodes whole => ?_, fun decodes whole => ?_⟩
    · have length : inputLength j = 256 := by rw [inputLength, encodes]; rfl
      have step := answers_ingotEncode s u r (.ok bs)
      rw [show ingotStep (s.at u) r.val false (.ok bs) _ = _ from encodes ▸ ingotStep_host runs _ near (by rw [length]; exact whole), length] at step
      refine ⟨fun b coded fits some' => ?_, fun none => ?_⟩
      · rw [ingotInput_encodes encodes (by rw [pred]; exact coded), placeHeld_goes buffer some' fits host more goes reading,
          if_neg (show ¬j.decode = true by rw [encodes]; decide)] at step
        exact answers_mono step fun t ⟨nv, kept⟩ => ⟨nv, placed_effect (by decide) (by decide) kept⟩
      · rw [ingotInput_notShrunk encodes (by rw [pred]; exact none) more goes] at step
        exact answers_mono step fun t ⟨nv, kept⟩ => ⟨nv, notShrunk_answer kept⟩
    · have length : inputLength j = ingotLength ratio := by rw [inputLength, decodes]; rfl
      have step := answers_ingotDecode s u r (.ok bs)
      rw [show ingotStep (s.at u) r.val true (.ok bs) _ = _ from decodes ▸ ingotStep_host runs _ near (by rw [length]; exact whole), length] at step
      refine ⟨fun xs read some' fits => ?_, fun c fault => ?_⟩
      · have some'' : bytesOf xs ≠ [] := bytesOf_ne_nil some'
        rw [ingotInput_decodes decodes read, placeHeld_goes buffer some'' fits host more goes reading,
          if_pos decodes] at step
        exact answers_mono step fun t ⟨nv, kept⟩ => ⟨nv, placed_effect (by decide) (by decide) kept⟩
      · rw [ingotInput_fault decodes fault] at step
        exact answers_mono step fun t ⟨nv, kept⟩ => ⟨nv, fault_answer kept⟩
  · have step := answers_ingotEncode s u r rd
    rwa [ingotStep_none ((at_jobOf s u _).trans free)] at step
  · have step := answers_ingotDecode s u r rd
    rwa [ingotStep_none ((at_jobOf s u _).trans free)] at step

end Sys2Proof.Proofs
end

section
/-! The pair: O47. -/
namespace Sys2Proof.Proofs
open Sys2Proof.Machine Sys2Proof.Laws

/-! ### What only the pair's state, its page and what goes to the peer tell apart -/

theorem same_withPair {d e : Dev} (h : SameButReports d e) (g : RegFile) (p : Par) (o : List Out) (n : Nat) (m : Option Mirror) :
    SameButReports { d with regs := g, par := p, out := o, free := n, mirror := m }
      { e with regs := g, par := p, out := o, free := n, mirror := m } := by
  obtain ⟨_, _, _, _, _, _, _, _, _, _, _, _⟩ := h
  constructor <;> first | exact sameRegs_refl _ | rfl | assumption

/-- The words of `g` outside the pair's page are those of `f`, but for reports. -/
def BesidePair (f g : RegFile) : Prop :=
  ∀ a, a / 4096 ≠ pagePar → reportWord a = false → g.read a = f.read a ∧ g.inUse a = f.inUse a

theorem BesidePair.trans {f g k : RegFile} (first : BesidePair f g) (second : BesidePair g k) : BesidePair f k :=
  fun a far silent => ⟨((second a far silent).1).trans (first a far silent).1, ((second a far silent).2).trans (first a far silent).2⟩

theorem besidePair_of_same {f g : RegFile} (h : SameRegs f g) : BesidePair f g := fun a _ silent => ⟨h.read a silent, h.inUse a silent⟩

theorem besidePair_setReg (d : Dev) {off : Nat} (v : Nat) (ho : off < 4096) : BesidePair d.regs (d.setReg pagePar off v).regs := by
  intro a far _
  have apart : a ≠ wordAddr pagePar off := fun h => far (by rw [h]; unfold wordAddr; omega)
  exact ⟨by rw [setReg_read, if_neg apart], by rw [setReg_inUse, if_neg apart]⟩

/-- `e` is `d` but for reports, the pair's state and page, the free values taken and what goes to the peer. -/
structure PairOnly (d e : Dev) : Prop where
  words : BesidePair d.regs e.regs
  rest : SameButReports { d with regs := e.regs, par := e.par, out := e.out, free := e.free, mirror := e.mirror } e

theorem PairOnly.trans {a b c : Dev} (first : PairOnly a b) (second : PairOnly b c) : PairOnly a c :=
  ⟨first.words.trans second.words, same_trans (same_withPair first.rest c.regs c.par c.out c.free c.mirror) second.rest⟩

theorem pairOnly_of_same {d e : Dev} (h : SameButReports d e) : PairOnly d e := by
  refine ⟨besidePair_of_same h.regs, ?_⟩
  have k := same_withPair h e.regs e.par e.out e.free e.mirror
  exact k

theorem pairOnly_own (d : Dev) (p : Par) (o : List Out) (n : Nat) (m : Option Mirror) :
    PairOnly d { d with par := p, out := o, free := n, mirror := m } :=
  ⟨fun _ _ _ => ⟨rfl, rfl⟩, same_refl _⟩

theorem pairOnly_setReg (d : Dev) {off : Nat} (v : Nat) (ho : off < 4096) : PairOnly d (d.setReg pagePar off v) :=
  ⟨besidePair_setReg d v ho, same_refl _⟩

theorem pairOnly_setReg64 (d : Dev) {off : Nat} (v : Nat) (ho : off + 4 < 4096) : PairOnly d (d.setReg64 pagePar off v) :=
  (pairOnly_setReg d _ (by omega)).trans (pairOnly_setReg _ _ ho)

/-- What is left of a device in the sense of the pair's statements. -/
theorem samePair_of {s t : State} {d : Dev} (nv : t.nv = s.nv) (from0 : BesidePair s.dev.regs d.regs) (h : PairOnly d t.dev) :
    samePair s d t := ⟨nv, from0.trans h.words, h.rest⟩

/-! ### Roles and the stages of a join -/

theorem same_setJoinStage (d : Dev) (stage : Nat) :
    SameButReports { d with
      par := { d.par with joinStage := stage }, mirror := if stage = 2 ∨ stage = 3 then d.mirror else none
      free := (setJoinStage d stage).free } (setJoinStage d stage) :=
  same_pairRecord { d with
    par := { d.par with joinStage := stage }, mirror := if stage = 2 ∨ stage = 3 then d.mirror else none } 3 (some stage) none (by decide)

theorem pairOnly_setJoinStage (d : Dev) (stage : Nat) : PairOnly d (setJoinStage d stage) :=
  (pairOnly_own d _ d.out _ _).trans (pairOnly_of_same (same_setJoinStage d stage))

theorem same_setRole {d : Dev} {role : Nat} (other : d.par.role ≠ role) (cause : Option Nat) :
    SameButReports { ({ d with par := { d.par with role := role } } : Dev).setReg64 pagePar 0x090 d.cycle with
      free := (setRole d role cause).free } (setRole d role cause) := by
  unfold setRole
  rw [if_neg other]
  exact same_pairRecord _ 0 cause none (by decide)

theorem pairOnly_setRole (d : Dev) (role : Nat) (cause : Option Nat) : PairOnly d (setRole d role cause) := by
  by_cases h : d.par.role = role
  · rw [setRole, if_pos h]
    exact pairOnly_of_same (same_refl d)
  · exact ((pairOnly_own d { d.par with role := role } d.out d.free d.mirror).trans
      ((pairOnly_setReg64 _ d.cycle (by decide)).trans (pairOnly_own _ _ _ _ _))).trans (pairOnly_of_same (same_setRole h cause))

theorem setRole_par (d : Dev) (role : Nat) (cause : Option Nat) : (setRole d role cause).par = { d.par with role := role } := by
  by_cases h : d.par.role = role
  · rw [setRole, if_pos h, ← h]
  · exact (setRole_frame d role cause h).1

/-- PAR_LAST_TAKEOVER is the cycle of the new role (R507). -/
theorem setRole_cycle {d : Dev} {role : Nat} (other : d.par.role ≠ role) (cause : Option Nat) :
    (setRole d role cause).rfld pagePar 0x090 0 32 = d.cycle % 2 ^ 32 ∧
      (setRole d role cause).rfld pagePar 0x094 0 32 = d.cycle / 2 ^ 32 % 2 ^ 32 := by
  have entered := same_setRole other cause
  refine ⟨(rfld_of_same entered 0 32 (by decide)).trans ?_, (rfld_of_same entered 0 32 (by decide)).trans ?_⟩
  · exact (setReg_rfld_other _ _ _ _ (by decide)).trans ((setReg_rfld_whole _ _ _ _).trans (Nat.mod_mod _ _))
  · exact (setReg_rfld_whole _ _ _ _).trans (by rw [Nat.shiftRight_eq_div_pow])

theorem pairOnly_sendHalyard (d : Dev) (type : Nat) (body : List Byte) : PairOnly d (sendHalyard d type body) := by
  rw [sendHalyard_out]
  exact pairOnly_own _ _ _ _ _

/-! ### Taking the ensign (R477) -/

theorem mayTake_iff (d : Dev) : mayTake d = true ↔
    atCycleStart d = true ∧ d.par.role = roleSeeking ∧ d.boot.stage = 5 ∧ 2000 ≤ d.par.ensignLow ∧
      (d.par.sideB = false ∨ 2000 ≤ d.par.unhealthy ∨ 4000 ≤ d.par.ensignLow) := by
  simp only [mayTake, Bool.and_eq_true, Bool.or_eq_true, beq_iff_eq, decide_eq_true_eq, Bool.not_eq_true', and_assoc, or_assoc]

/-- A seeking device that takes the ensign, before its role says so. -/
def taking (d : Dev) : Dev :=
  { forgetAges d with par := { d.par with ensignFrom := d.tick, withStandby := false, solo := false } }

theorem seekerTakes_takes {d : Dev} (may : mayTake d = true) : seekerTakes d = setRole (taking d) roleHolder none := by
  unfold seekerTakes
  rw [if_pos may]
  rfl

theorem seekerTakes_waits {d : Dev} (waits : mayTake d ≠ true) : seekerTakes d = d := if_neg waits

theorem ensignTake_takes {s : State} (on : s.dev.running = true) (may : mayTake s.now = true) :
    Answers s .ensignTake fun t =>
      samePair s (forgetAges s.now) t ∧ t.dev.holds = true ∧ t.dev.ensignOut = true ∧
      t.dev.par = { s.dev.par with role := roleHolder, ensignFrom := s.dev.tick, withStandby := false, solo := false } ∧
      t.dev.rfld pagePar 0x090 0 32 = s.dev.cycle % 2 ^ 32 ∧ t.dev.rfld pagePar 0x094 0 32 = s.dev.cycle / 2 ^ 32 % 2 ^ 32 := by
  have other : (taking s.now).par.role ≠ roleHolder := by
    rw [show (taking s.now).par.role = s.now.par.role from rfl, ((mayTake_iff s.now).mp may).2.1]
    decide
  have h := answers_ensignTake s
  rw [if_pos (show s.now.running = true from on), seekerTakes_takes may] at h
  refine answers_mono h fun t ⟨nv, same⟩ => ?_
  have only : PairOnly (forgetAges s.now) t.dev :=
    ((pairOnly_own _ _ _ _ _).trans (pairOnly_setRole (taking s.now) roleHolder none)).trans (pairOnly_of_same same)
  have par : t.dev.par = { s.dev.par with role := roleHolder, ensignFrom := s.dev.tick, withStandby := false, solo := false } :=
    same.par.trans (setRole_par _ _ _)
  have tick : t.dev.tick = s.dev.tick := only.rest.tick
  obtain ⟨low, high⟩ := setRole_cycle other none
  have holds : t.dev.holds = true := by
    rw [Dev.holds, par]
    rfl
  refine ⟨samePair_of nv (fun _ _ _ => ⟨rfl, rfl⟩) only, holds, ?_, par, (rfld_of_same same 0 32 (by decide)).trans low,
    (rfld_of_same same 0 32 (by decide)).trans high⟩
  rw [Dev.ensignOut, holds, par, tick]
  exact decide_eq_true (Nat.le_refl _)

/-! ### The stages of a join (R488, R501, R503) -/

theorem copyDone_goesOn {d : Dev} (copying : d.par.joinStage = 2) :
    copyDone d = setJoinStage { d with par := { d.par with mirrorClean := 0, dirty := 0, dirtyNow := 0 } } 3 := if_pos copying

theorem copyDone_waits {d : Dev} (other : d.par.joinStage ≠ 2) : copyDone d = d := if_neg other

/-- A clean MIRROR ends the join at this cycle start. -/
def joinClean (d : Dev) : Prop := atCycleStart d = true ∧ d.par.joinStage = 3 ∧ d.par.dirty = 0 ∧ 64 ≤ d.par.mirrorClean

/-- The device in stage 4 of its join. -/
def lastStage (d : Dev) : Dev := setJoinStage { d with par := { d.par with matched := false } } 4

theorem same_lastStage (d : Dev) : SameButReports { d with
    par := { d.par with matched := false, joinStage := 4 }, mirror := none, free := (lastStage d).free } (lastStage d) :=
  same_setJoinStage { d with par := { d.par with matched := false } } 4

theorem pairOnly_lastStage (d : Dev) : PairOnly d (lastStage d) := (pairOnly_own d _ d.out _ _).trans (pairOnly_of_same (same_lastStage d))

theorem joinDone_standby {d : Dev} (clean : joinClean d) (joining : d.par.role = roleJoining) :
    joinDone d = raise (setRole { lastStage d with hif := { (lastStage d).hif with kept := [] } } roleStandby none) pagePar 8 clsPair sevInfo 0x0C08
      (pay (lastStage d).par.schemaInUse.toNat 0 0 (lastStage d).par.joinRound) := by
  unfold joinDone
  exact (if_pos clean).trans (if_pos joining)

theorem joinDone_holder {d : Dev} (clean : joinClean d) (holds : d.holds = true) :
    joinDone d = { lastStage d with par := { (lastStage d).par with withStandby := true, solo := false } } := by
  have other : d.par.role ≠ roleJoining := fun h => by
    rw [Dev.holds, h] at holds
    exact absurd holds (by decide)
  unfold joinDone
  exact (if_pos clean).trans ((if_neg other).trans (if_pos holds))

theorem joinDone_waits {d : Dev} (unclean : ¬ joinClean d) : joinDone d = d := if_neg unclean

theorem joinLockstep_standby {s : State} (on : s.dev.running = true) (clean : joinClean s.now) (joining : s.dev.par.role = roleJoining) :
    Answers s .joinLockstep fun t =>
      samePair s s.now t ∧ t.dev.pennant pagePar 8 = true ∧
      t.dev.par = { s.dev.par with role := roleStandby, joinStage := 4, matched := false } := by
  have h := answers_joinLockstep s
  rw [if_pos (show s.now.running = true from on), joinDone_standby clean joining] at h
  have stage := same_lastStage s.now
  have only := pairOnly_lastStage s.now
  generalize lastStage s.now = e at h stage only
  have kept : SameButReports e { e with hif := { e.hif with kept := [] } } := same_kept _ _
  refine answers_mono h fun t ⟨nv, same⟩ => ⟨samePair_of nv (fun _ _ _ => ⟨rfl, rfl⟩) ?_, ?_, ?_⟩
  · exact (only.trans (pairOnly_of_same kept)).trans ((pairOnly_setRole _ _ _).trans
      ((pairOnly_of_same (same_raise _ _ _ _ _ _ _ (by decide))).trans (pairOnly_of_same same)))
  · exact pennant_of_same same (pennant_raised _ (by decide) (by decide))
  · refine same.par.trans (((same_raise _ _ _ _ _ _ _ (by decide)).par).trans ((setRole_par _ _ _).trans ?_))
    rw [kept.par, stage.par]
    rfl

theorem joinLockstep_holder {s : State} (on : s.dev.running = true) (clean : joinClean s.now) (holds : s.dev.holds = true) :
    Answers s .joinLockstep fun t =>
      samePair s s.now t ∧ t.dev.pairHolder = true ∧
      t.dev.par = { s.dev.par with joinStage := 4, matched := false, withStandby := true, solo := false } := by
  have h := answers_joinLockstep s
  rw [if_pos (show s.now.running = true from on), joinDone_holder clean holds] at h
  have stage := same_lastStage s.now
  have only := pairOnly_lastStage s.now
  generalize lastStage s.now = e at h stage only
  refine answers_mono h fun t ⟨nv, same⟩ => ?_
  have par : t.dev.par = { s.dev.par with joinStage := 4, matched := false, withStandby := true, solo := false } := by
    rw [same.par, stage.par]
    rfl
  refine ⟨samePair_of nv (fun _ _ _ => ⟨rfl, rfl⟩) ?_, ?_, par⟩
  · exact only.trans ((pairOnly_own _ _ e.out e.free e.mirror).trans (pairOnly_of_same same))
  · rw [Dev.pairHolder, Dev.holds, par, Bool.and_true]
    exact holds

/-! ### A join starts (R488, R501) -/

/-- The device that begins a join. -/
def joining (d : Dev) : Dev :=
  setJoinStage (setRole { d with par := { d.par with joinFrom := d.par.role, joinRound := 0, refuseCause := 0 } } roleJoining none) 1

theorem startJoin_starts {d : Dev} (out : d.par.role = roleSeeking ∨ d.par.role = roleOut) (up : halyardUp d = true) :
    startJoin d = sendHalyard (joining d) 6 (helloBody (joining d)) := if_pos ⟨out, up⟩

theorem startJoin_waits {d : Dev} (down : halyardUp d = false) : startJoin d = d :=
  if_neg fun ⟨_, up⟩ => by cases down.symm.trans up

theorem pairOnly_joining (d : Dev) : PairOnly d (joining d) :=
  (pairOnly_own d _ d.out d.free d.mirror).trans ((pairOnly_setRole _ _ _).trans (pairOnly_setJoinStage _ _))

theorem joining_par (d : Dev) : (joining d).par = { d.par with
    role := roleJoining, joinFrom := d.par.role, joinRound := 0, refuseCause := 0, joinStage := 1 } := by
  refine (same_setJoinStage _ 1).par.trans ?_
  rw [setRole_par]

theorem sendHalyard_par (d : Dev) (type : Nat) (body : List Byte) : (sendHalyard d type body).par = d.par := by rw [sendHalyard_out]

theorem pairOnly_startJoin {d : Dev} (out : d.par.role = roleSeeking ∨ d.par.role = roleOut) (up : halyardUp d = true) :
    PairOnly d (startJoin d) ∧ (startJoin d).par = { d.par with
      role := roleJoining, joinFrom := d.par.role, joinRound := 0, refuseCause := 0, joinStage := 1 } := by
  rw [startJoin_starts out up, sendHalyard_par]
  exact ⟨(pairOnly_joining d).trans (pairOnly_sendHalyard _ _ _), joining_par d⟩

/-- Settles O47: the ensign's taking and the stages of a join, each with the pair's state that it leaves. -/
theorem pairJoin : Obligations.PairJoin := by
  unfold Obligations.PairJoin
  refine ⟨fun s => ?_, fun s on => ⟨fun copying => ?_, fun other => ?_, fun start stage clean long => ⟨fun role => ?_, fun holds => ?_⟩,
    fun unclean => ?_, fun role auto up late few => ?_, fun stays => ?_⟩⟩
  · intro may
    refine ⟨fun on ready => ensignTake_takes on ((mayTake_iff s.now).mpr ready), fun rests => ?_⟩
    have h := answers_ensignTake s
    rcases rests with off | never
    · rwa [if_neg (by rw [show s.now.running = false from off]; decide)] at h
    · rw [seekerTakes_waits fun ready => never ((mayTake_iff s.now).mp ready), ite_self] at h
      exact h
  · have h := answers_joinCopyDone s
    rw [if_pos (show s.now.running = true from on), copyDone_goesOn (show s.now.par.joinStage = 2 from copying)] at h
    refine answers_mono h fun t ⟨nv, same⟩ => ⟨samePair_of nv (fun _ _ _ => ⟨rfl, rfl⟩) ?_, same.par.trans (same_setJoinStage _ 3).par⟩
    exact (pairOnly_own s.now _ _ _ _).trans ((pairOnly_setJoinStage _ _).trans (pairOnly_of_same same))
  · have h := answers_joinCopyDone s
    rwa [copyDone_waits (show s.now.par.joinStage ≠ 2 from other), ite_self] at h
  · exact joinLockstep_standby on ⟨start, stage, clean, long⟩ role
  · exact joinLockstep_holder on ⟨start, stage, clean, long⟩ holds
  · have h := answers_joinLockstep s
    have waits : ¬ joinClean s.now := fun ⟨start, stage, clean, long⟩ => by
      rcases unclean with early | other | dirty | short
      · cases early.symm.trans start
      · exact other stage
      · exact dirty clean
      · exact absurd long (Nat.not_le.mpr short)
    rwa [joinDone_waits waits, ite_self] at h
  · have h := answers_autoRejoin s
    have goes : rejoin s.now = startJoin s.now := if_pos ⟨role, auto, late, few⟩
    rw [if_pos (show s.now.running = true from on), goes] at h
    obtain ⟨only, par⟩ := pairOnly_startJoin (d := s.now) (.inr role) up
    refine answers_mono h fun t ⟨nv, same⟩ => ⟨samePair_of nv (fun _ _ _ => ⟨rfl, rfl⟩) (only.trans (pairOnly_of_same same)), ?_⟩
    rw [same.par, par]
    exact ⟨rfl, rfl, role⟩
  · have h := answers_autoRejoin s
    have waits : rejoin s.now = s.now := by
      unfold rejoin
      split
      · rename_i goes
        obtain ⟨role, auto, late, few⟩ := goes
        rcases stays with other | early | off | down | often
        · exact absurd role other
        · exact absurd late (Nat.not_le.mpr early)
        · cases off.symm.trans auto
        · exact startJoin_waits down
        · exact absurd few (Nat.not_lt.mpr often)
      · rfl
    rwa [waits, ite_self] at h

end Sys2Proof.Proofs
end

section
/-! Commands of the pair: O48. -/
namespace Sys2Proof.Proofs
open Sys2Proof.Machine Sys2Proof.Laws

/-- A holder with a standby that waits for the confirmation of a table load of a ring 60; ring 70, which would get its result,
is full of ISLAND_DONE records. -/
def strayLoad : State := { State.reset with dev := { State.reset.dev with
  boot := { State.reset.dev.boot with stage := 5 }
  par := { State.reset.dev.par with role := roleHolder, withStandby := true }
  hif := { State.reset.dev.hif with loads := [(60, 0, 0, none)] }
  rings := [(70, { queue := List.replicate 257 ⟨0, 0, false, .islandDone⟩ })] } }

/-- The holder drops its standby, the load's result displaces a record of ring 70, and RNG_LOST of that ring, on page 0x066,
counts it. -/
theorem strayLoad_counts : (withWrite (strayLoad.at 0) pagePar 0x040 2 parLeave).regs.read (wordAddr 0x066 0x074) = 1 := by
  decide +kernel

/-- Refutes O48: a write of LEAVE that drops the standby gives the loads in progress their results, and one of a ring beyond the
device's 64 counts outside the pair's page and outside the words of reporting. -/
theorem not_pairCommands : ¬ Obligations.PairCommands := by
  unfold Obligations.PairCommands
  rintro ⟨commands, -⟩
  obtain ⟨-, -, leave, -⟩ := commands strayLoad 0
  obtain ⟨x, run, -, ⟨-, words, -⟩, -⟩ := leave (by decide) (by decide)
  obtain ⟨y, run', -, -, left⟩ := answers_parCmdLeave strayLoad 0
  obtain rfl : x = y := Host.Outcome.next.inj (run.symm.trans run')
  have counted := (left.regs.read (wordAddr 0x066 0x074) (by decide)).trans strayLoad_counts
  have stays := (words (wordAddr 0x066 0x074) (by decide) (by decide)).1
  exact absurd (counted.symm.trans stays) (by decide)

end Sys2Proof.Proofs
end

section
/-! Records of the peer: bad ones, and CYCLE records. -/
namespace Sys2Proof.Proofs
open Sys2Proof.Machine Sys2Proof.Laws

/-! ### The arrival of a record (R527) -/

section
variable {s : State} {u : Arrival}

theorem at_halyardUp (s : State) (u : Nat) : halyardUp (s.at u) = halyardUp s.dev := by
  unfold halyardUp
  simp only [at_laneOf]

theorem receive_intact (intact : u.intact = true) (f : Dev → Dev) : receive s.now u f = f (s.at u.tick) := if_pos intact

theorem receive_broken (broken : u.intact = false) (up : halyardUp s.dev = true) (f : Dev → Dev) :
    receive s.now u f = badFrame (s.at u.tick) (48 + u.lane.val) :=
  (if_neg (by rw [broken]; decide)).trans (if_pos ((at_halyardUp s u.tick).trans up))

/-- Every record of the link is received, whatever it does then. -/
theorem answers_halyard {i : Instr} (arrives : halyardAt u i) : ∃ f, AnswersButReports s i (receive s.now u f) := by
  cases i <;> first
    | exact arrives.elim
    | (obtain rfl := arrives; exact ⟨_, answers_cycleRecord s _ _ _⟩)
    | (obtain rfl := arrives; exact ⟨_, answers_writeRecord s _ _ _ _ _⟩)
    | (obtain rfl := arrives; exact ⟨_, answers_sampleRecord s _ _ _ _ _⟩)
    | (obtain rfl := arrives; exact ⟨_, answers_bulkRecord s _ _ _ _⟩)
    | (obtain rfl := arrives; exact ⟨_, answers_mirrorRecord s _ _ _⟩)
    | (obtain rfl := arrives; exact ⟨_, answers_hello s _ _ _ _⟩)

end

/-- A bad frame changes the registers and its lane. -/
theorem same_badFrame (d : Dev) (l : Nat) :
    SameButReports { d with regs := (badFrame d l).regs, lanes := (badFrame d l).lanes } (badFrame d l) := by
  have pen := same_setPen (setLane (d.count (pageLan l) 0x06C) l { laneOf d l with badInSuper := (laneOf d l).badInSuper + 1 }) (pageLan l) 4
  have own := same_ownRegs pen
  have lanes : (badFrame d l).lanes = _ := pen.lanes
  rw [lanes]
  exact own

theorem badFrame_counts (d : Dev) {l : Nat} :
    (badFrame d l).rfld (pageLan l) 0x06C 0 32 = min (d.rfld (pageLan l) 0x06C 0 32 + 1) 0xFFFFFFFF := by
  unfold badFrame
  exact (rfld_of_same (same_setPen _ _ _) 0 32 (reportWord_far (by unfold pageLan; omega) (by decide) (by decide))).trans (count_rfld d _ _)

/-- What a record with a wrong CRC or of an unknown TYPE leaves. -/
theorem brokenRecord_counts {s : State} {u : Arrival} (up : halyardUp s.dev = true) (broken : u.intact = false) {i : Instr}
    (arrives : halyardAt u i) : Answers s i fun t =>
      t.nv = s.nv ∧ t.dev.rfld (pageLan (48 + u.lane.val)) 0x06C 0 32 =
        min (s.dev.rfld (pageLan (48 + u.lane.val)) 0x06C 0 32 + 1) 0xFFFFFFFF ∧
      t.dev.pennant (pageLan (48 + u.lane.val)) 4 = true ∧
      SameButReports { s.at u.tick with regs := t.dev.regs, lanes := t.dev.lanes } t.dev := by
  have silent : reportWord (wordAddr (pageLan (48 + u.lane.val)) 0x06C) = false :=
    reportWord_far (by unfold pageLan; omega) (by decide) (by decide)
  obtain ⟨f, h⟩ := answers_halyard (s := s) arrives
  rw [receive_broken broken up] at h
  refine answers_mono h fun t ⟨nv, same⟩ => ⟨nv, ?_, ?_, ?_⟩
  · rw [rfld_of_same same 0 32 silent, badFrame_counts, at_rfld s _ _ _ silent]
  · exact pennant_of_same same (pennant_setPen _ _ (by decide))
  · have frame := same_badFrame (s.at u.tick) (48 + u.lane.val)
    generalize badFrame (s.at u.tick) (48 + u.lane.val) = e at same frame
    have k := same_ownRegs (same_trans frame same)
    rw [same.lanes]
    exact k

/-! ### The positions of the shared rings (R572) -/

/-- The holder's position in one ring. -/
def followRing (r : BitVec 4800) (d : Dev) (k : Nat) : Dev :=
  if !sharedRing k then d
  else if deviceWrites k then
    ({ d with hif := { d.hif with
      kept := dropKept k (posDist (ringLog2 d k) (ringProd d k) (crRing r k)) d.hif.kept } } : Dev).setReg (pageRng k) 0x04C (crRing r k)
  else d.setReg (pageRng k) 0x050 (crRing r k)

theorem followRings_eq (d : Dev) (r : BitVec 4800) : followRings d r = upto 64 (followRing r) (limitKept d r) := rfl

/-- `e` is `d` but for registers and what a standby keeps. -/
def RegsAndKept (d e : Dev) : Prop := e = { d with regs := e.regs, hif := { d.hif with kept := e.hif.kept } }

theorem RegsAndKept.trans {a b c : Dev} (first : RegsAndKept a b) (second : RegsAndKept b c) : RegsAndKept a c := by
  unfold RegsAndKept at *
  rw [second, first]

theorem regsAndKept_limitKept (d : Dev) (r : BitVec 4800) :
    RegsAndKept d (limitKept d r) ∧ (limitKept d r).regs = d.regs := by
  refine upto_induct (n := 8) (fun _ (e : Dev) => RegsAndKept d e ∧ e.regs = d.regs) ⟨rfl, rfl⟩ fun k e _ ⟨only, regs⟩ => ?_
  exact ⟨only.trans rfl, regs⟩

theorem regsAndKept_followRing (r : BitVec 4800) (d : Dev) (k : Nat) : RegsAndKept d (followRing r d k) := by
  unfold followRing
  split
  · rfl
  split <;> rfl

theorem followRing_read (r : BitVec 4800) (d : Dev) (k : Nat) {a : Nat} (far : a / 4096 ≠ pageRng k) :
    (followRing r d k).regs.read a = d.regs.read a ∧ (followRing r d k).regs.inUse a = d.regs.inUse a := by
  have apart {off : Nat} (ho : off < 4096) : a ≠ wordAddr (pageRng k) off := fun h => far (by rw [h, wordAddr_page ho])
  unfold followRing
  split
  · exact ⟨rfl, rfl⟩
  split
  all_goals rw [setReg_read, setReg_inUse, if_neg (apart (by decide)), if_neg (apart (by decide))]; exact ⟨rfl, rfl⟩

/-- The position that this device and the holder's record have in common, of ring `k`. -/
def sharedPos (d : Dev) (k : Nat) : Nat := if deviceWrites k then ringProd d k else ringCons d k

theorem followRing_pos (r : BitVec 4800) (d : Dev) {k : Nat} (shared : sharedRing k = true) :
    sharedPos (followRing r d k) k = crRing r k := by
  have small : crRing r k < 2 ^ 17 := Nat.mod_lt _ (by decide)
  have fits : crRing r k < 2 ^ 32 := Nat.lt_trans small (by decide)
  have moves : followRing r d k = if deviceWrites k = true then _ else _ := if_neg (by rw [shared]; decide)
  unfold sharedPos
  rw [moves]
  split
  · exact (setReg_rfld_low _ _ _ _ fits).trans (Nat.mod_eq_of_lt small)
  · exact (setReg_rfld_low _ _ _ _ fits).trans (Nat.mod_eq_of_lt small)

theorem sharedPos_of_read {d e : Dev} {k : Nat} (words : ∀ a, a / 4096 = pageRng k → e.regs.read a = d.regs.read a) :
    sharedPos e k = sharedPos d k := by
  unfold sharedPos ringProd ringCons Dev.rfld
  rw [words _ (wordAddr_page (by decide)), words _ (wordAddr_page (by decide))]

/-- The rings follow the record in every position, and of the device only their words and what it keeps change. -/
theorem followRings_effect (d : Dev) (r : BitVec 4800) :
    RegsAndKept d (followRings d r) ∧
      (∀ k, k < 64 → sharedRing k = true → sharedPos (followRings d r) k = crRing r k) ∧
      ∀ a, a / 4096 < pageRng 0 ∨ pageRng 63 < a / 4096 →
        (followRings d r).regs.read a = d.regs.read a ∧ (followRings d r).regs.inUse a = d.regs.inUse a := by
  obtain ⟨limited, regs⟩ := regsAndKept_limitKept d r
  rw [followRings_eq]
  refine upto_induct (n := 64) (f := followRing r) (fun n (e : Dev) => RegsAndKept d e ∧
    (∀ k, k < n → sharedRing k = true → sharedPos e k = crRing r k) ∧
    ∀ a, a / 4096 < pageRng 0 ∨ pageRng 63 < a / 4096 → e.regs.read a = d.regs.read a ∧ e.regs.inUse a = d.regs.inUse a)
    ⟨limited, fun k hk => absurd hk (Nat.not_lt_zero k), fun a _ => by rw [regs]; exact ⟨rfl, rfl⟩⟩ fun n e hn ⟨only, pos, words⟩ => ?_
  refine ⟨only.trans (regsAndKept_followRing r e n), fun k hk shared => ?_, fun a far => ?_⟩
  · by_cases own : k = n
    · rw [own] at shared ⊢
      exact followRing_pos r e shared
    · have other (a : Nat) (page : a / 4096 = pageRng k) : a / 4096 ≠ pageRng n := by
        unfold pageRng at page ⊢
        omega
      rw [sharedPos_of_read fun a page => (followRing_read r e n (other a page)).1]
      exact pos k (by omega) shared
  · obtain ⟨read, inUse⟩ := followRing_read r e n (a := a) (by unfold pageRng at far ⊢; omega)
    obtain ⟨read', inUse'⟩ := words a far
    exact ⟨read.trans read', inUse.trans inUse'⟩

/-! ### CYCLE records (R479, R480) -/

section
variable {s : State} {u : Arrival} {rec : BitVec 4800} {skew : BitVec 16}

theorem takeCycleRecord_other {d : Dev} (other : crCycle rec ≠ d.cycle) : takeCycleRecord d rec skew.toNat = d :=
  if_neg fun ⟨_, h⟩ => other h

theorem takeCycleRecord_kept {d : Dev} (up : halyardUp d = true) (now : crCycle rec = d.cycle) (role : d.par.role ≠ roleStandby) :
    takeCycleRecord d rec skew.toNat = { d with par := { d.par with peer := some rec } } := by
  unfold takeCycleRecord
  exact (if_pos ⟨up, now⟩).trans (if_neg role)

/-- A standby with the holder's record of this cycle, before it takes the record's positions. -/
def following (d : Dev) (rec : BitVec 4800) (skew : BitVec 16) : Dev :=
  { d.setReg pagePar 0x078 skew.toNat with par := { d.par with
    peer := some rec, lastHolder := some rec, epoch := BitVec.ofNat 16 (byteField rec 12 2) } }

theorem takeCommit_none {d : Dev} {x : Nat} (plain : bit (bits x 88 8) 0 = false) : takeCommit d x = d := by
  unfold takeCommit
  exact if_neg fun h => by cases plain.symm.trans h

theorem commit_flags (rec : BitVec 4800) : bits (crCommit rec) 88 8 = byteField rec 27 1 := by
  unfold crCommit crField byteField
  exact Nat.eq_of_testBit_eq fun i => by
    simp only [testBit_bits]
    by_cases h : i < 8
    · have inside : 88 + i < 8 * 16 := by omega
      simp only [h, inside, decide_true, Bool.true_and]
      congr 1
      omega
    · simp [h]

theorem takeCycleRecord_follows {d : Dev} (up : halyardUp d = true) (now : crCycle rec = d.cycle) (role : d.par.role = roleStandby)
    (holder : byteField rec 10 1 = roleHolder) (plain : bit (byteField rec 27 1) 0 = false) :
    takeCycleRecord d rec skew.toNat = followRings (following d rec skew) rec := by
  unfold takeCycleRecord
  refine (if_pos ⟨up, now⟩).trans ((if_pos role).trans ((if_pos (.inl holder)).trans ?_))
  rw [takeCommit_none (by rw [commit_flags]; exact plain), Nat.mod_eq_of_lt skew.isLt]
  rfl

/-- Such a change of registers, pair and what is kept, seen with the host interface of an earlier device. -/
theorem same_besideFollowed {a e t : Dev} {x : Hif}
    (only : e = { a with regs := e.regs, par := e.par, hif := { a.hif with kept := e.hif.kept } })
    (earlier : a.hif = { x with windows := a.hif.windows, kept := a.hif.kept }) (h : SameButReports e t) :
    SameButReports { a with regs := t.regs, par := t.par, hif := { x with kept := t.hif.kept } } t := by
  have hif : t.hif = { x with windows := t.hif.windows, kept := t.hif.kept } := by
    have own : e.hif = { a.hif with kept := e.hif.kept } := congrArg Dev.hif only
    have sent := h.hif
    rw [own, earlier] at sent
    exact sent
  rw [only] at h
  obtain ⟨_, _, _, _, _, _, _, _, _, _, _, _⟩ := h
  constructor <;> first | exact sameRegs_refl _ | exact hif | rfl | assumption

/-- What a standby makes of the holder's record. -/
theorem cycleRecord_follows (up : halyardUp s.dev = true) (intact : u.intact = true) (now : byteField rec 0 8 = s.dev.cycle)
    (role : s.dev.par.role = roleStandby) (holder : byteField rec 10 1 = roleHolder) (plain : bit (byteField rec 27 1) 0 = false) :
    Answers s (.cycleRecord u rec skew) fun t =>
      t.nv = s.nv ∧ t.dev.rfld pagePar 0x078 0 16 = skew.toNat ∧ t.dev.par = { s.dev.par with
        peer := some rec, lastHolder := some rec, epoch := BitVec.ofNat 16 (byteField rec 12 2) } ∧
      (∀ k, k < 64 → sharedRing k = true →
        (if deviceWrites k then ringProd t.dev k else ringCons t.dev k) = byteField rec (300 + 4 * k) 4 % 2 ^ 17) ∧
      (∀ a, a / 4096 ≠ pagePar → (a / 4096 < pageRng 0 ∨ pageRng 63 < a / 4096) → reportWord a = false →
        t.dev.regs.read a = s.dev.regs.read a ∧ t.dev.regs.inUse a = s.dev.regs.inUse a) ∧
      SameButReports { s.at u.tick with regs := t.dev.regs, par := t.dev.par, hif := { s.dev.hif with kept := t.dev.hif.kept } } t.dev := by
  have h := answers_cycleRecord s u rec skew
  rw [receive_intact intact, takeCycleRecord_follows ((at_halyardUp s _).trans up) (now.trans (at_cycle s _).symm)
    (by rwa [at_par]) holder plain] at h
  obtain ⟨only, pos, words⟩ := followRings_effect (following (s.at u.tick) rec skew) rec
  generalize followRings (following (s.at u.tick) rec skew) rec = e at h only pos words
  have par : e.par = { s.dev.par with
      peer := some rec, lastHolder := some rec, epoch := BitVec.ofNat 16 (byteField rec 12 2) } := by
    rw [only, ← at_par s u.tick]
    rfl
  refine answers_mono h fun t ⟨nv, same⟩ => ⟨nv, ?_, same.par.trans par, fun k hk shared => ?_, fun a far1 far2 silent => ?_, ?_⟩
  · have small : skew.toNat < 2 ^ 32 := Nat.lt_trans skew.isLt (by decide)
    rw [rfld_of_same same 0 16 (by decide), Dev.rfld, (words (wordAddr pagePar 0x078) (.inl (by decide))).1]
    exact (setReg_rfld_low _ _ _ _ small).trans (Nat.mod_eq_of_lt skew.isLt)
  · have place : sharedPos t.dev k = sharedPos e k := by
      have low (off : Nat) (ho : off = 0x04C ∨ off = 0x050) :=
          same.regs.read (wordAddr (pageRng k) off) (reportWord_of_offset (by omega) (by omega))
      unfold sharedPos ringProd ringCons Dev.rfld
      rw [low _ (.inl rfl), low _ (.inr rfl)]
    exact place.trans (pos k hk shared)
  · obtain ⟨read, inUse⟩ := words a far2
    obtain ⟨read', inUse'⟩ := besidePair_setReg (s.at u.tick) skew.toNat (off := 0x078) (by decide) a far1 silent
    exact ⟨(same.regs.read a silent).trans (read.trans (read'.trans (at_read s _ silent))),
      (same.regs.inUse a silent).trans (inUse.trans (inUse'.trans (at_inUse s _ silent)))⟩
  · have hif : (s.at u.tick).hif = { s.dev.hif with windows := (s.at u.tick).hif.windows, kept := (s.at u.tick).hif.kept } :=
      (same_arrive s.now u.tick).hif
    have beside : e = { s.at u.tick with regs := e.regs, par := e.par, hif := { (s.at u.tick).hif with kept := e.hif.kept } } := by
      rw [only]
      rfl
    exact same_besideFollowed beside hif same

end

end Sys2Proof.Proofs
end

section
/-! Records of the peer: WRITE, SAMPLE and MIRROR records. -/
namespace Sys2Proof.Proofs
open Sys2Proof.Machine Sys2Proof.Laws

/-! ### WRITE records (R481) -/

theorem receives_standby {d : Dev} (role : d.par.role = roleStandby) : receives d = true := by
  rw [receives, role]
  rfl

theorem receives_of_par {d e : Dev} (h : e.par = d.par) : receives e = receives d := by rw [receives, receives, h]

theorem forwards_standby {d : Dev} (role : d.par.role = roleStandby) : d.forwards = false := by
  rw [Dev.forwards, Dev.holds, role]
  rfl

/-- The device with one WRITE record more of this cycle. -/
def written (d : Dev) : Dev := { d with par := { d.par with writes := d.par.writes + 1 } }

theorem takeWriteRecord_takes {d : Dev} (up : halyardUp d = true) (open0 : receives d = true) (bar2 : Bool) (a : Nat) (v : Word) :
    takeWriteRecord d d.cycle bar2 a v = forwardedWrite (written d) bar2 a v :=
  if_pos (by rw [open0, up, beq_self_eq_true]; rfl)

theorem takeWriteRecord_closed {d : Dev} {c : Nat} (closed : receives d = false ∨ c ≠ d.cycle) (bar2 : Bool) (a : Nat) (v : Word) :
    takeWriteRecord d c bar2 a v = d := by
  refine if_neg fun h => ?_
  simp only [Bool.and_eq_true, beq_iff_eq] at h
  obtain ⟨⟨open0, -⟩, now⟩ := h
  rcases closed with closed | other
  · cases closed.symm.trans open0
  · exact other now

/-- What the forwarded write of a correction leaves. -/
theorem writeRecord_fct {s : State} {u : Arrival} (up : halyardUp s.dev = true) (intact : u.intact = true)
    (role : s.dev.par.role = roleStandby)
    (i : Fin 32) (k : Fin 16384) (v : Word) (free : groupPending s.dev (pageStn i.val) 3 = false) :
    Answers s (.writeRecord u s.dev.cycle true (BitVec.ofNat 28 (baseFct + i.val * 0x20000 + 4 * k.val)) v) fun t =>
      t.nv = s.nv ∧ (∀ j, t.dev.fct.get (same 0) j =
        if j = 16384 * (2 * i.val + boolNat (!(stationOf s.dev i.val).bank)) + k.val then v else s.dev.fct.get (same 0) j) ∧
      SameButReports { s.at u.tick with par := { s.dev.par with writes := s.dev.par.writes + 1 }, fct := t.dev.fct } t.dev := by
  have addr : (BitVec.ofNat 28 (baseFct + i.val * 0x20000 + 4 * k.val)).toNat = baseFct + i.val * 0x20000 + 4 * k.val := by
    rw [BitVec.toNat_ofNat]
    unfold baseFct
    omega
  have pending : groupPending (written (s.at u.tick)) (pageStn i.val) 3 = false := by
    rw [groupPending, show (written (s.at u.tick)).regs.pend = s.dev.regs.pend from (at_regs s u.tick).pend]
    exact free
  have h := answers_writeRecord s u s.dev.cycle true (BitVec.ofNat 28 (baseFct + i.val * 0x20000 + 4 * k.val)) v
  rw [receive_intact intact, ← at_cycle s u.tick, takeWriteRecord_takes ((at_halyardUp s _).trans up)
    ((receives_of_par (at_par s _)).trans (receives_standby role)), addr, forwardedWrite, if_pos rfl,
        show baseFct + i.val * 0x20000 + 4 * k.val = fctAddr i k from rfl,
    (tableWrite_fct _ i k v).1 pending] at h
  rw [at_cycle] at h
  refine answers_mono h fun t ⟨nv, same⟩ => ⟨nv, fun j => ?_, ?_⟩
  · rw [same.fct, fctWritten_get, fctSlot_of_stations (d := s.dev) (e := written (s.at u.tick)) (arrive_stations s.now u.tick), fctSlot]
    split
    · rfl
    · rw [show (written (s.at u.tick)).fct = s.dev.fct from arrive_fct s.now u.tick]
  · have fct := same.fct
    unfold fctWritten at same fct
    dsimp only at fct
    rw [← fct] at same
    rw [← at_par s u.tick]
    exact same

/-- The 32-bit registers of TMP from 0x044 to 0x050. -/
theorem tmpReg_narrow {j : Fin 4} {r : Reg} (found : PageKind.tmp.reg? (0x044 + 4 * j.val) = some r) : r.wide = false := by
  have all : ∀ j : Fin 4, ((PageKind.tmp.reg? (0x044 + 4 * j.val)).all fun r => !r.wide) = true := by decide
  have one := all j
  rw [found] at one
  simpa using one

/-- A forwarded write of a 32-bit register of TMP is stored without the checks. -/
theorem forwardedWrite_tmp {d : Dev} {off : Nat} {r : Reg} (role : d.par.role = roleStandby) (low : 0x040 ≤ off) (ho : off < 4096)
    (found : PageKind.tmp.reg? off = some r) (v : Word) :
    forwardedWrite d false (wordAddr pageTmp off) v = storeWrite d .tmp pageTmp off r v.toNat := by
  have stored : forwardWrite (storeWrite d .tmp pageTmp off r v.toNat) false (wordAddr pageTmp off) v.toNat =
      storeWrite d .tmp pageTmp off r v.toNat :=
    forwardWrite_alone ((onlyRegs_storeWrite d .tmp pageTmp off r v.toNat).forwards.trans (forwards_standby role)) _ _ _
  unfold forwardedWrite
  rw [if_neg Bool.false_ne_true]
  dsimp only
  rw [wordAddr_page ho, wordAddr_offset ho, kindOf_pageTmp]
  dsimp only
  rw [if_neg (by decide), if_neg (by omega), if_neg (by omega), found]
  exact stored

/-- A write of a 32-bit register of a mirrored page is stored as read; in use it is later (R46). -/
theorem storeWrite_mirrored (d : Dev) {k : PageKind} {p off : Nat} {r : Reg} (mirrored : k.mirrored = true) (preset : presetField k = none)
    (narrow : r.wide = false) (v : Word) :
    (storeWrite d k p off r v.toNat).regs.read = (d.mergeRead p off v.toNat (storeMask r % 2 ^ 32)).regs.read ∧
      (storeWrite d k p off r v.toNat).regs.inUse = d.regs.inUse := by
  have stores : applyPreset (Dev.mergeWide Dev.mergeRead d p off v.toNat (storeMask r) r.wide) k p off v.toNat =
      d.mergeRead p off v.toNat (storeMask r % 2 ^ 32) := by
    unfold applyPreset Dev.mergeWide
    rw [preset, narrow, Nat.mod_eq_of_lt v.isLt]
    rfl
  unfold storeWrite
  extract_lets d1 d2
  replace stores : d2 = d.mergeRead p off v.toNat (storeMask r % 2 ^ 32) := stores
  clear_value d2
  subst stores
  rw [if_pos mirrored]
  split <;> exact ⟨rfl, rfl⟩

/-- What the forwarded write of a register of TMP leaves. -/
theorem writeRecord_tmp {s : State} {u : Arrival} (up : halyardUp s.dev = true) (intact : u.intact = true)
    (role : s.dev.par.role = roleStandby)
    (j : Fin 4) {r : Reg} (found : PageKind.tmp.reg? (0x044 + 4 * j.val) = some r) (v : Word) :
    Answers s (.writeRecord u s.dev.cycle false (BitVec.ofNat 28 (wordAddr pageTmp (0x044 + 4 * j.val))) v) fun t =>
      t.nv = s.nv ∧ t.dev.regs.read (wordAddr pageTmp (0x044 + 4 * j.val)) =
        word (mergeBits (s.dev.regs.read (wordAddr pageTmp (0x044 + 4 * j.val))).toNat v.toNat (storeMask r % 2 ^ 32)) ∧
      (∀ b, reportWord b = false → t.dev.regs.inUse b = s.dev.regs.inUse b) ∧
      (∀ b, b ≠ wordAddr pageTmp (0x044 + 4 * j.val) → reportWord b = false → t.dev.regs.read b = s.dev.regs.read b) ∧
      SameButReports { s.at u.tick with par := { s.dev.par with writes := s.dev.par.writes + 1 }, regs := t.dev.regs } t.dev := by
  have small : 0x044 + 4 * j.val < 4096 := by omega
  have silent : reportWord (wordAddr pageTmp (0x044 + 4 * j.val)) = false := reportWord_of_offset (by omega) (by omega)
  have addr : (BitVec.ofNat 28 (wordAddr pageTmp (0x044 + 4 * j.val))).toNat = wordAddr pageTmp (0x044 + 4 * j.val) := by
    rw [BitVec.toNat_ofNat]
    unfold wordAddr pageTmp
    omega
  have h := answers_writeRecord s u s.dev.cycle false (BitVec.ofNat 28 (wordAddr pageTmp (0x044 + 4 * j.val))) v
  rw [receive_intact intact, ← at_cycle s u.tick, takeWriteRecord_takes ((at_halyardUp s _).trans up)
    ((receives_of_par (at_par s _)).trans (receives_standby role)), addr,
    forwardedWrite_tmp (d := written (s.at u.tick)) (show (s.at u.tick).par.role = roleStandby by rw [at_par,
        role]) (by omega) small found] at h
  obtain ⟨read, inUse⟩ := storeWrite_mirrored (written (s.at u.tick)) (k := .tmp) (p := pageTmp) (off := 0x044 + 4 * j.val) rfl rfl
    (tmpReg_narrow found) v
  have only := onlyRegs_storeWrite (written (s.at u.tick)) .tmp pageTmp (0x044 + 4 * j.val) r v.toNat
  generalize storeWrite (written (s.at u.tick)) .tmp pageTmp (0x044 + 4 * j.val) r v.toNat = e at h read inUse only
  have merged (b : Nat) : e.regs.read b = if b = wordAddr pageTmp (0x044 + 4 * j.val) then
      word (mergeBits ((s.at u.tick).regs.read (wordAddr pageTmp (0x044 + 4 * j.val))).toNat v.toNat (storeMask r % 2 ^ 32))
      else (s.at u.tick).regs.read b := by
    rw [read, mergeRead_read]
    rfl
  rw [at_cycle] at h
  refine answers_mono h fun t ⟨nv, same⟩ => ⟨nv, ?_, fun b quiet => ?_, fun b other quiet => ?_, ?_⟩
  · rw [same.regs.read _ silent, merged, if_pos rfl, at_read s _ silent]
  · rw [same.regs.inUse b quiet, inUse]
    exact at_inUse s u.tick quiet
  · rw [same.regs.read b quiet, merged, if_neg other, at_read s _ quiet]
  · have k := same_withRegs same t.dev.regs
    rw [only] at k
    rw [← at_par s u.tick]
    exact k

/-! ### SAMPLE records (R283, R427, R470) -/

/-- A view that sees neither reports nor channels and emulated outputs. -/
structure Unsampled {α : Type} (v : Dev → α) : Prop extends Silent v where
  channels : ∀ (d : Dev) (x : Tab Channel), v { d with channels := x } = v d
  emus : ∀ (d : Dev) (x : Tab Emu), v { d with emus := x } = v d

namespace Unsampled
variable {α : Type} {v : Dev → α} (h : Unsampled v)
include h

theorem setChannel (d : Dev) (c : Nat) (x : Channel) : v (Machine.setChannel d c x) = v d := h.channels _ _

theorem setEmu (d : Dev) (e : Nat) (x : Emu) : v (Machine.setEmu d e x) = v d := h.emus _ _

theorem channelFault (d : Dev) (c cause : Nat) : v (Machine.channelFault d c cause) = v d :=
  (h.raise _ _ _ _ _ _ _).trans (h.setChannel _ _ _)

theorem takeIndex (d : Dev) (c : Nat) (level : Bool) : v (Machine.takeIndex d c level) = v d := by
  have rising (y : Channel) (p : Nat) : v (Machine.raise (Machine.setChannel (Machine.setChannel d c { channelOf d c with index := level }) c y)
      (pageFch c) 3 clsMotion sevInfo 0x0603 p) = v d :=
    (h.raise _ _ _ _ _ _ _).trans ((h.setChannel _ _ _).trans (h.setChannel _ _ _))
  unfold Machine.takeIndex
  extract_lets x d1 d2 shift y mv d3
  split
  · split
    · exact (h.raise _ _ _ _ _ _ _).trans ((h.fld _ _ _ _ _ _ (by decide)).trans ((h.setChannel _ _ _).trans (rising _ _)))
    · exact rising _ _
  · exact h.setChannel _ _ _

theorem emulateStep (d : Dev) (c : Nat) (step : Int) (from0 : Nat) : v (Machine.emulateStep d c step from0) = v d := by
  refine upto_keeps v fun d e => ?_
  extract_lets p x den acc q backlog lag d1
  split
  · split
    · exact (h.raise _ _ _ _ _ _ _).trans (h.setEmu _ _ _)
    · exact h.setEmu _ _ _
  · rfl

theorem checkAmplitude (d : Dev) (c m : Nat) : v (Machine.checkAmplitude d c m) = v d := by
  have counted (x : Channel) : v (Machine.setChannel (d.count (pageFch c) 0x07C) c x) = v d :=
    (h.setChannel _ _ _).trans (h.count _ _ _ (by decide))
  unfold Machine.checkAmplitude
  extract_lets p low high _ x run d1 d2
  have told : v d2 = v d := by
    unfold d2
    split <;> exact (h.raise _ _ _ _ _ _ _).trans (counted _)
  split
  · split
    · exact (h.channelFault _ _ _).trans told
    · exact told
  · exact h.setChannel _ _ _

theorem useSample (d : Dev) (c : Nat) (smp : RawSample) (now sub : Nat) : v (Machine.useSample d c smp now sub) = v d := by
  unfold Machine.useSample
  extract_lets x sc phi m pos d1 gap pred diff pos' x1 x2 x3 from0 d1' d2 y limit
  split
  · rfl
  split
  · exact h.setChannel _ _ _
  split
  · exact (h.checkAmplitude _ _ _).trans ((h.takeIndex _ _ _).trans (h.setChannel _ _ _))
  have used : v d2 = v d := (h.checkAmplitude _ _ _).trans ((h.takeIndex _ _ _).trans ((h.emulateStep _ _ _ _).trans (h.setChannel _ _ _)))
  split
  · exact used
  split
  · exact (h.channelFault _ _ _).trans used
  · exact used

theorem localSample (d : Dev) (c : Nat) (smp : RawSample) (now : Nat) : v (Machine.localSample d c smp now) = v d := by
  unfold Machine.localSample
  extract_lets _ d0 x d1
  have used : v d1 = v d := (h.setChannel _ _ _).trans ((h.useSample _ _ _ _ _).trans (h.setChannel _ _ _))
  split
  · exact (h.setChannel _ _ _).trans used
  · exact used

theorem peerDiff (d : Dev) (c : Nat) : v (Machine.peerDiff d c) = v d := by
  unfold Machine.peerDiff
  dsimp only
  split
  · exact h.raise _ _ _ _ _ _ _
  · rfl

end Unsampled

/-- What no sample of a channel changes: calibration, mould, pair and the groups that are pending. -/
def benchAndPair (d : Dev) : Cal × Mould × Par × List PendGroup := (d.cal, d.mould, d.par, d.regs.pend)

theorem unsampled_benchAndPair : Unsampled benchAndPair where
  word _ _ _ _ _ := rfl
  fld _ _ _ _ _ _ _ := rfl
  pens _ _ := rfl
  rings _ _ := rfl
  windows _ _ := rfl
  kept _ _ := rfl
  triggers _ _ := rfl
  channels _ _ := rfl
  emus _ _ := rfl

/-- The device with its sample late, if it is. -/
def lateMarked (d : Dev) (late : Bool) : Dev := if late then { d with par := { d.par with sampleLate := true } } else d

theorem forwardedSample_eq (d : Dev) (c : Nat) (smp : RawSample) (now : Nat) : ∃ late,
    forwardedSample d c smp now = peerDiff (localSample (lateMarked d late) c smp now) c := ⟨_, rfl⟩

theorem besideChannel_lateMarked (c : Nat) (d : Dev) (late : Bool) : besideChannel c (lateMarked d late) = besideChannel c d := by
  cases late <;> rfl

/-- A forwarded sample stands at the head of its channel's trail; the other channels, heats, stations, steppers, calibration and
mould stay. -/
theorem forwardedSample_effect (d : Dev) (c : Nat) (smp : RawSample) (now : Nat) :
    (channelOf (forwardedSample d c smp now) c).trail.head? = some (now, (channelOf (forwardedSample d c smp now) c).pos) ∧
      besideChannel c (forwardedSample d c smp now) = besideChannel c d ∧ (forwardedSample d c smp now).cal = d.cal ∧
      (forwardedSample d c smp now).mould = d.mould := by
  obtain ⟨late, eq⟩ := forwardedSample_eq d c smp now
  obtain ⟨p, v0, v1, trailed⟩ := channelOf_localSample (lateMarked d late) c smp now
  have beside := (beside_of_same c (same_peerDiff (localSample (lateMarked d late) c smp now) c)).trans
    ((beside_localSample c (lateMarked d late) smp now).trans (besideChannel_lateMarked c d late))
  have bench := (unsampled_benchAndPair.peerDiff (localSample (lateMarked d late) c smp now) c).trans
    (unsampled_benchAndPair.localSample (lateMarked d late) c smp now)
  have own := channelOf_of_same (same_peerDiff (localSample (lateMarked d late) c smp now) c) c
  rw [← eq] at beside bench own
  rw [own, trailed]
  refine ⟨rfl, beside, (congrArg (·.1) bench).trans ?_, (congrArg (·.2.1) bench).trans ?_⟩ <;> cases late <;> rfl

section
variable {d : Dev} {kind i k : Nat} {x : BitVec 128}

theorem takeSampleRecord_taken (role : d.par.role = roleStandby) (up : halyardUp d = true) :
    takeSampleRecord d kind i k x =
      (let d1 := lateMarked d (decide (k + 250 < d.tick))
       if kind = 0 then (if i < 8 then forwardedSample d1 (96 + i) (sampleOfData x.toNat) k else d1)
       else if kind = 1 then
         (if i < 16 then
           noteSample { d1 with cal := { d1.cal with edgesNext := d1.cal.edgesNext ++ [(i, k, x.getLsbD 0)] } }
             { kind := 1, index := i, rising := x.getLsbD 0, tick := k, own := false }
         else d1)
       else if kind = 2 then { d1 with cal := { d1.cal with codeNext := some (signed 24 (x.toNat % 2 ^ 24)) } }
       else if kind = 3 then noteSample { d1 with mould := { d1.mould with challenge := x } } { kind := 3, tick := k, own := false }
       else d1) := by
  unfold takeSampleRecord lateMarked
  simp only [role, up, and_self, if_true, decide_eq_true_eq]

theorem takeSampleRecord_other (other : d.par.role ≠ roleStandby) : takeSampleRecord d kind i k x = d := if_neg fun h => other h.1

/-- A late record marks the cycle, and what it brings changes neither the rest of the pair's state but the notes nor what is pending. -/
theorem takeSampleRecord_late (role : d.par.role = roleStandby) (up : halyardUp d = true) (late : k + 250 < d.tick) :
    (takeSampleRecord d kind i k x).par = { d.par with sampleLate := true, notes := (takeSampleRecord d kind i k x).par.notes } ∧
      (takeSampleRecord d kind i k x).regs.pend = d.regs.pend := by
  rw [takeSampleRecord_taken role up, decide_eq_true late]
  dsimp only
  have sampled (c : Nat) (smp : RawSample) : (forwardedSample (lateMarked d true) c smp k).par = (lateMarked d true).par ∧
      (forwardedSample (lateMarked d true) c smp k).regs.pend = d.regs.pend := by
    obtain ⟨skipped, eq⟩ := forwardedSample_eq (lateMarked d true) c smp k
    have bench := (unsampled_benchAndPair.peerDiff (localSample (lateMarked (lateMarked d true) skipped) c smp k) c).trans
      (unsampled_benchAndPair.localSample (lateMarked (lateMarked d true) skipped) c smp k)
    rw [← eq] at bench
    exact ⟨(congrArg (·.2.2.1) bench).trans (by cases skipped <;> rfl), (congrArg (·.2.2.2) bench).trans (by cases skipped <;> rfl)⟩
  split
  · split
    · obtain ⟨par, pend⟩ := sampled (96 + i) (sampleOfData x.toNat)
      rw [par]
      exact ⟨rfl, pend⟩
    · exact ⟨rfl, rfl⟩
  split
  · split <;> exact ⟨rfl, rfl⟩
  split
  · exact ⟨rfl, rfl⟩
  split <;> exact ⟨rfl, rfl⟩

end

theorem noteSample_frame (d : Dev) (n : SampleNote) : ∃ l, noteSample d n = { d with par := { d.par with notes := l } } ∧
    (d.par.notes = [] → l = [n]) := by
  refine ⟨_, rfl, fun first => ?_⟩
  rw [first]
  rfl

theorem lateMarked_inTime {d : Dev} {k : Nat} (time : d.tick ≤ k + 250) : lateMarked d (decide (k + 250 < d.tick)) = d := by
  rw [decide_eq_false (Nat.not_lt.mpr time)]
  rfl

section
variable {s : State} {u : Arrival} (intact : u.intact = true) (kind i : BitVec 8) (k : Long) (x : BitVec 128)
include intact

theorem sampleRecord_taken {d : Dev} (taken : takeSampleRecord (s.at u.tick) kind.toNat i.toNat k.toNat x = d) :
    AnswersButReports s (.sampleRecord u kind i k x) d := by
  have h := answers_sampleRecord s u kind i k x
  rwa [receive_intact intact, taken] at h

theorem sampleRecord_channel (up : halyardUp s.dev = true) (role : s.dev.par.role = roleStandby) (now : kind.toNat = 0)
    (few : i.toNat < 8) :
    Answers s (.sampleRecord u kind i k x) fun t =>
      t.nv = s.nv ∧ (channelOf t.dev (96 + i.toNat)).trail.head? = some (k.toNat, (channelOf t.dev (96 + i.toNat)).pos) ∧
      (∀ c, c ≠ 96 + i.toNat → channelOf t.dev c = channelOf s.dev c) ∧ t.dev.heats = s.dev.heats ∧
      t.dev.stations = s.dev.stations ∧ t.dev.stp = s.dev.stp ∧ t.dev.cal = s.dev.cal ∧ t.dev.mould = s.dev.mould := by
  have taken := takeSampleRecord_taken (d := s.at u.tick) (kind := kind.toNat) (i := i.toNat) (k := k.toNat) (x := x)
    (by rwa [at_par]) ((at_halyardUp s _).trans up)
  dsimp only at taken
  rw [if_pos now, if_pos few] at taken
  have h := sampleRecord_taken intact kind i k x taken
  generalize hd : lateMarked (s.at u.tick) (decide (k.toNat + 250 < (s.at u.tick).tick)) = d at h
  obtain ⟨trail, beside, cal, mould⟩ := forwardedSample_effect d (96 + i.toNat) (sampleOfData x.toNat) k.toNat
  have before : besideChannel (96 + i.toNat) d = besideChannel (96 + i.toNat) s.dev := by
    rw [← hd, besideChannel_lateMarked, at_beside]
  have marked (late : Bool) : (lateMarked (s.at u.tick) late).cal = s.dev.cal ∧ (lateMarked (s.at u.tick) late).mould = s.dev.mould := by
    rw [← at_cal s u.tick, ← at_mould s u.tick]
    cases late <;> exact ⟨rfl, rfl⟩
  generalize forwardedSample d (96 + i.toNat) (sampleOfData x.toNat) k.toNat = e at h trail beside cal mould
  refine answers_mono h fun t ⟨nv, same⟩ => ?_
  have view := (beside_of_same (96 + i.toNat) same).trans (beside.trans before)
  refine ⟨nv, by rw [channelOf_of_same same]; exact trail, fun c other => ?_, congrArg (·.2.1) view, congrArg (·.2.2.1) view,
    congrArg (·.2.2.2) view, same.cal.trans (cal.trans ?_), same.mould.trans (mould.trans ?_)⟩
  · have one := congrFun (congrArg (·.1) view) c
    dsimp only [besideChannel] at one
    rwa [if_neg other, if_neg other] at one
  · rw [← hd]
    exact (marked _).1
  · rw [← hd]
    exact (marked _).2

theorem sampleRecord_edge (up : halyardUp s.dev = true) (role : s.dev.par.role = roleStandby) (time : (s.at u.tick).tick ≤ k.toNat + 250)
    (now : kind.toNat = 1) (few : i.toNat < 16) :
    Answers s (.sampleRecord u kind i k x) fun t =>
      t.nv = s.nv ∧ (s.dev.par.notes = [] → t.dev.par.notes = [⟨1, i.toNat, x.getLsbD 0, k.toNat, false⟩]) ∧
      SameButReports { s.at u.tick with
        cal := { s.dev.cal with edgesNext := s.dev.cal.edgesNext ++ [(i.toNat, k.toNat, x.getLsbD 0)] }
        par := { s.dev.par with notes := t.dev.par.notes } } t.dev := by
  have taken := takeSampleRecord_taken (d := s.at u.tick) (kind := kind.toNat) (i := i.toNat) (k := k.toNat) (x := x)
    (by rwa [at_par]) ((at_halyardUp s _).trans up)
  dsimp only at taken
  rw [if_neg (by omega), if_pos now, if_pos few, lateMarked_inTime time] at taken
  obtain ⟨l, noted, first⟩ := noteSample_frame { s.at u.tick with
    cal := { (s.at u.tick).cal with edgesNext := (s.at u.tick).cal.edgesNext ++ [(i.toNat, k.toNat, x.getLsbD 0)] } }
    { kind := 1, index := i.toNat, rising := x.getLsbD 0, tick := k.toNat, own := false }
  have h := sampleRecord_taken intact kind i k x (taken.trans noted)
  dsimp only at h first
  rw [at_cal, at_par] at h
  rw [at_par] at first
  refine answers_mono h fun t ⟨nv, same⟩ => ?_
  have notes : t.dev.par.notes = l := (congrArg Par.notes same.par :)
  rw [notes]
  exact ⟨nv, first, same⟩

theorem sampleRecord_challenge (up : halyardUp s.dev = true) (role : s.dev.par.role = roleStandby)
    (time : (s.at u.tick).tick ≤ k.toNat + 250)
    (now : kind.toNat = 3) :
    Answers s (.sampleRecord u kind i k x) fun t =>
      t.nv = s.nv ∧ SameButReports { s.at u.tick with
        mould := { s.dev.mould with challenge := x }, par := { s.dev.par with notes := t.dev.par.notes } } t.dev := by
  have taken := takeSampleRecord_taken (d := s.at u.tick) (kind := kind.toNat) (i := i.toNat) (k := k.toNat) (x := x)
    (by rwa [at_par]) ((at_halyardUp s _).trans up)
  dsimp only at taken
  rw [if_neg (by omega), if_neg (by omega), if_neg (by omega), if_pos now, lateMarked_inTime time] at taken
  obtain ⟨l, noted, -⟩ := noteSample_frame { s.at u.tick with mould := { (s.at u.tick).mould with challenge := x } }
    { kind := 3, tick := k.toNat, own := false }
  have h := sampleRecord_taken intact kind i k x (taken.trans noted)
  dsimp only at h
  rw [at_mould, at_par] at h
  refine answers_mono h fun t ⟨nv, same⟩ => ⟨nv, ?_⟩
  have notes : t.dev.par.notes = l := (congrArg Par.notes same.par :)
  rw [notes]
  exact same

theorem sampleRecord_code (up : halyardUp s.dev = true) (role : s.dev.par.role = roleStandby) (time : (s.at u.tick).tick ≤ k.toNat + 250)
    (now : kind.toNat = 2) : AnswersButReports s (.sampleRecord u kind i k x)
      { s.at u.tick with cal := { s.dev.cal with codeNext := some (signed 24 (x.toNat % 2 ^ 24)) } } := by
  have taken := takeSampleRecord_taken (d := s.at u.tick) (kind := kind.toNat) (i := i.toNat) (k := k.toNat) (x := x)
    (by rwa [at_par]) ((at_halyardUp s _).trans up)
  dsimp only at taken
  rw [if_neg (by omega), if_neg (by omega), if_pos now, lateMarked_inTime time, at_cal] at taken
  exact sampleRecord_taken intact kind i k x taken

theorem sampleRecord_unknown (up : halyardUp s.dev = true) (role : s.dev.par.role = roleStandby) (time : (s.at u.tick).tick ≤ k.toNat + 250)
    (more : 3 < kind.toNat) : AnswersButReports s (.sampleRecord u kind i k x) (s.at u.tick) := by
  have taken := takeSampleRecord_taken (d := s.at u.tick) (kind := kind.toNat) (i := i.toNat) (k := k.toNat) (x := x)
    (by rwa [at_par]) ((at_halyardUp s _).trans up)
  dsimp only at taken
  rw [if_neg (by omega), if_neg (by omega), if_neg (by omega), if_neg (by omega), lateMarked_inTime time] at taken
  exact sampleRecord_taken intact kind i k x taken

theorem sampleRecord_late (up : halyardUp s.dev = true) (role : s.dev.par.role = roleStandby) (late : k.toNat + 250 < (s.at u.tick).tick) :
    Answers s (.sampleRecord u kind i k x) fun t =>
      t.nv = s.nv ∧ t.dev.par = { s.dev.par with sampleLate := true, notes := t.dev.par.notes } ∧ t.dev.regs.pend = s.dev.regs.pend := by
  obtain ⟨par, pend⟩ := takeSampleRecord_late (d := s.at u.tick) (kind := kind.toNat) (i := i.toNat) (x := x) (by rwa [at_par])
    ((at_halyardUp s _).trans up) late
  refine answers_mono (sampleRecord_taken intact kind i k x rfl) fun t ⟨nv, same⟩ => ⟨nv, ?_, ?_⟩
  · rw [at_par, ← same.par] at par
    exact par
  · exact same.regs.pend.trans (pend.trans (at_regs s u.tick).pend)

theorem sampleRecord_other (other : s.dev.par.role ≠ roleStandby) : AnswersButReports s (.sampleRecord u kind i k x) (s.at u.tick) :=
  sampleRecord_taken intact kind i k x (takeSampleRecord_other (by rwa [at_par]))

end

end Sys2Proof.Proofs
end

section
/-! Records of the peer: BULK and MIRROR records and HELLO: O49. -/
namespace Sys2Proof.Proofs
open Sys2Proof.Machine Sys2Proof.Laws

/-! ### BULK records (R478, R587) -/

/-- The bursts that bytes of a BULK record ask for. -/
def bulkBursts (d : Dev) (a : Nat) (bs : List Byte) (k : Nat) : List DramReq :=
  (burstsOf d a bs.length).map fun b =>
    { port := 6, addr := b, write := true, data := (burstPart a bs b).1, mask := (burstPart a bs b).2
      cls := 1, promoted := false, at0 := k, client := .posted }

theorem dramWrite_bulk (d : Dev) (a : Nat) (bs : List Byte) :
    dramWrite d 6 a bs = requestBursts (countBeyond d a bs.length) (bulkBursts d a bs d.tick) := rfl

theorem countBeyond_frame (d : Dev) (a n : Nat) : SetUp d (countBeyond d a n) ∧ (countBeyond d a n).dram = d.dram ∧
    (countBeyond d a n).tick = d.tick ∧ rateAdmits (countBeyond d a n) 6 = rateAdmits d 6 := by
  unfold countBeyond
  split
  · exact ⟨setUp_of_same (same_refl d), rfl, rfl, rfl⟩
  · have word (off : Nat) (apart : off ≠ 0x07C) : (d.count pageMem 0x07C).regs.inUse (wordAddr pageMem off) = d.regs.inUse (wordAddr pageMem off) := by
      unfold Dev.count Dev.addCount
      rw [setReg_inUse, if_neg (by unfold wordAddr; omega)]
    refine ⟨⟨fun off which => word off (by omega), rfl, rfl⟩, rfl, rfl, ?_⟩
    unfold rateAdmits bucketLack portRate Dev.fld
    rw [word _ (by decide)]
    rfl

theorem burstsOf_of_bytes {d e : Dev} (h : memBytes e = memBytes d) (a n : Nat) : burstsOf e a n = burstsOf d a n := by
  unfold burstsOf
  rw [h]

theorem receives_holder {d : Dev} (pair : d.pairHolder = true) : receives d = false := by
  have role : d.par.role = roleAlone ∨ d.par.role = roleHolder := by
    simp only [Dev.pairHolder, Dev.holds, Bool.and_eq_true, Bool.or_eq_true, beq_iff_eq] at pair
    exact pair.1
  rcases role with role | role <;> (rw [receives, role]; rfl)

section
variable {s : State} {u : Arrival} (up : halyardUp s.dev = true) (intact : u.intact = true)
include up intact

theorem bulkRecord_bytes (open0 : receives s.dev = true) (a : Long) (bs : List Byte) :
    AnswersButReports s (.bulkRecord u none a bs)
      (requestBursts (countBeyond (s.at u.tick) a.toNat bs.length) (bulkBursts s.dev a.toNat bs (s.at u.tick).tick)) := by
  have h := answers_bulkRecord s u none a bs
  have goes : takeBulk (s.at u.tick) none a.toNat bs = dramWrite (s.at u.tick) 6 a.toNat bs :=
    if_pos (by rw [receives_of_par (at_par s _), open0, at_halyardUp, up]; rfl)
  rw [receive_intact intact, goes, dramWrite_bulk, bulkBursts, burstsOf_of_bytes (at_memBytes s _)] at h
  exact h

theorem bulkRecord_unready (open0 : receives s.dev = true) (unready : memReady s.dev = false) (a : Long) (bs : List Byte) :
    AnswersButReports s (.bulkRecord u none a bs) { countBeyond (s.at u.tick) a.toNat bs.length with
      dram := { s.dev.dram with held := s.dev.dram.held ++ bulkBursts s.dev a.toNat bs (s.at u.tick).tick } } := by
  have h := bulkRecord_bytes up intact open0 a bs
  obtain ⟨setUp, dram, -, -⟩ := countBeyond_frame (s.at u.tick) a.toNat bs.length
  rw [requestBursts_unready (setUp.memReady.trans ((at_memReady s _).trans unready)), dram, at_dram] at h
  exact h

theorem bulkRecord_enters (open0 : receives s.dev = true) (ready : memReady s.dev = true) (empty : s.dev.dram.held = []) {a : Long}
    {bs : List Byte} {q : DramReq} (one : bulkBursts s.dev a.toNat bs (s.at u.tick).tick = [q]) (inside : q.addr < memBytes s.dev)
    (room : queueRoom s.dev q = true) (rate : rateAdmits (s.at u.tick) 6 = true) :
    Answers s (.bulkRecord u none a bs) fun t => t.nv = s.nv ∧ SameButReports { countBeyond (s.at u.tick) a.toNat bs.length with
      dram := { s.dev.dram with queue := s.dev.dram.queue ++ [q], buckets := t.dev.dram.buckets } } t.dev := by
  have shape : q.port = 6 ∧ q.client = .posted ∧ q.at0 = (s.at u.tick).tick := by
    have mem : q ∈ bulkBursts s.dev a.toNat bs (s.at u.tick).tick := by rw [one]; exact List.mem_singleton_self q
    obtain ⟨b, -, rfl⟩ := List.mem_map.mp mem
    exact ⟨rfl, rfl, rfl⟩
  obtain ⟨port, client, at0⟩ := shape
  have h := bulkRecord_bytes up intact open0 a bs
  obtain ⟨setUp, dram, tick, rates⟩ := countBeyond_frame (s.at u.tick) a.toNat bs.length
  rw [one] at h
  have bytes : memBytes (countBeyond (s.at u.tick) a.toNat bs.length) = memBytes s.dev := setUp.memBytes.trans (at_memBytes s _)
  have now : entersNow (countBeyond (s.at u.tick) a.toNat bs.length) q :=
    .inr ⟨.inr (by rw [port, rates]; exact rate), (setUp.queueRoom q).trans ((at_queueRoom s _ q).trans room)⟩
  have held : (countBeyond (s.at u.tick) a.toNat bs.length).dram = s.dev.dram := dram.trans (at_dram s _)
  generalize countBeyond (s.at u.tick) a.toNat bs.length = d at *
  obtain ⟨b, queued, -⟩ := acceptReq_queued (d := d) (q := q) (by rwa [bytes]) (by rw [at0, tick])
  rw [single_enters (setUp.memReady.trans ((at_memReady s _).trans ready)) (by rw [held]; exact empty) now, queued, held] at h
  refine answers_mono h fun t ⟨nv, same⟩ => ⟨nv, ?_⟩
  have buckets : t.dev.dram.buckets = b := congrArg Dram.buckets same.dram
  rw [buckets]
  exact same

/-- The standby's confirmation gives the holder's oldest load of the ring its result. -/
theorem bulkRecord_confirms (pair : s.dev.pairHolder = true) (r : Fin 2) {e' : Entry} {rest : List (Nat × Entry × Nat × Option Nat)}
    (loads : s.dev.hif.loads = (r.val, e', 0, none) :: rest) {a : Long} (ring : a.toNat = 8 + r.val) (e : Entry) (bs : List Byte) :
    Answers s (.bulkRecord u (some e) a bs) fun t => t.nv = s.nv ∧ SameButReports
      { s.at u.tick with hif := { s.dev.hif with loads := rest }, free := t.dev.free } t.dev := by
  have h := answers_bulkRecord s u (some e) a bs
  have hif : (s.at u.tick).hif = { s.dev.hif with windows := (s.at u.tick).hif.windows, kept := (s.at u.tick).hif.kept } :=
    (same_arrive s.now u.tick).hif
  have waiting : (s.at u.tick).hif.loads = (r.val, e', 0, none) :: rest := by rw [hif]; exact loads
  have holder : (s.at u.tick).pairHolder = true := by rw [← pair, Dev.pairHolder, Dev.holds, at_par]; rfl
  have confirms : takeBulk (s.at u.tick) (some e) a.toNat bs =
      loadDone { s.at u.tick with hif := { (s.at u.tick).hif with loads := rest } } r.val e' 0 none := by
    unfold takeBulk
    rw [if_neg (by rw [receives_holder holder, Bool.false_and]; decide),
      if_pos (by rw [holder, at_halyardUp, up, ring]; fin_cases r <;> rfl), ring, Nat.add_sub_cancel_left, confirmLoad, waiting,
      List.find?_cons_of_pos (by simp)]
    dsimp only
    rw [List.erase_cons_head]
  rw [receive_intact intact, confirms] at h
  have done := same_loadDone { s.at u.tick with hif := { (s.at u.tick).hif with loads := rest } } r.isLt e' 0 none
  refine answers_mono h fun t ⟨nv, same⟩ => ⟨nv, ?_⟩
  have result := same_trans done same
  rw [← same.free] at result
  have seen : SameButReports { s.at u.tick with hif := { s.dev.hif with loads := rest }, free := t.dev.free }
      { s.at u.tick with hif := { (s.at u.tick).hif with loads := rest }, free := t.dev.free } := by
    constructor <;> first | exact sameRegs_refl _ | exact congrArg (fun x : Hif => { x with loads := rest }) hif | (intros; rfl)
  exact same_trans seen result

end

theorem bulkRecord_passed {s : State} {u : Arrival} (intact : u.intact = true) (closed : receives s.dev = false)
    {e : Option Entry} {a : Long}
    (nothing : s.dev.pairHolder = false ∨ a.toNat ≠ 8 ∧ a.toNat ≠ 9 ∨ e = none) (bs : List Byte) :
    AnswersButReports s (.bulkRecord u e a bs) (s.at u.tick) := by
  have h := answers_bulkRecord s u e a bs
  have holder : (s.at u.tick).pairHolder = s.dev.pairHolder := by rw [Dev.pairHolder, Dev.holds, at_par]; rfl
  have rests : takeBulk (s.at u.tick) e a.toNat bs = s.at u.tick := by
    unfold takeBulk
    rw [if_neg (by rw [receives_of_par (at_par s _), closed, Bool.false_and]; decide), if_neg fun goes => ?_]
    simp only [Bool.and_eq_true, Bool.or_eq_true, beq_iff_eq, holder] at goes
    obtain ⟨⟨⟨pair, -⟩, some⟩, place⟩ := goes
    rcases nothing with alone | ⟨other, other'⟩ | absent
    · cases alone.symm.trans pair
    · exact place.elim other other'
    · rw [absent] at some
      cases some
  rwa [receive_intact intact, rests] at h

/-! ### MIRROR records (R501) -/

theorem takeMirror_taken {d : Dev} (role : d.par.role = roleJoining) (stage : d.par.joinStage = 2) (up : halyardUp d = true) (a : Nat) :
    (∀ v, takeMirror d a (.word v) = mirrorWord d a v) ∧ ∀ n p, takeMirror d a (.part n p) = mirrorPart d p := by
  have copies (n : Nat) : mirrorWords d n = d := if_neg (by rw [stage]; decide)
  have goes : d.par.role = roleJoining ∧ 2 ≤ d.par.joinStage ∧ halyardUp d = true := ⟨role, by rw [stage], up⟩
  refine ⟨fun v => (if_pos goes).trans ?_, fun n p => (if_pos goes).trans ?_⟩
  · show mirrorWord (mirrorWords d 1) a v = _
    rw [copies]
  · show mirrorPart (mirrorWords d n) p = _
    rw [copies]

theorem takeMirror_closed {d : Dev} (closed : d.par.role ≠ roleJoining ∨ d.par.joinStage < 2) (a : Nat) (data : MirrorData) :
    takeMirror d a data = d :=
  if_neg fun ⟨role, stage, _⟩ => closed.elim (fun other => other role) fun early => absurd stage (Nat.not_le.mpr early)

/-- A mirrored word from the holder stands as read and in use. -/
theorem mirrorRecord_word {s : State} {u : Arrival} (up : halyardUp s.dev = true) (intact : u.intact = true)
    (role : s.dev.par.role = roleJoining)
    (stage : s.dev.par.joinStage = 2) {a : Nat} (low : a < 2 ^ 22) (mirrored : mirroredWord a = true) (silent : reportWord a = false) (v : Word) :
    Answers s (.mirrorRecord u a (.word v)) fun t =>
      t.nv = s.nv ∧ t.dev.regs.read a = v ∧ t.dev.regs.inUse a = v ∧
      (∀ b, b ≠ a → reportWord b = false →
        t.dev.regs.read b = s.dev.regs.read b ∧ t.dev.regs.inUse b = s.dev.regs.inUse b) ∧
      SameButReports { s.at u.tick with regs := t.dev.regs } t.dev := by
  have h := answers_mirrorRecord s u a (.word v)
  have stored : mirrorWord (s.at u.tick) a v = { s.at u.tick with regs := ((s.at u.tick).regs.setRead a v).setInUse a v } :=
    (if_pos low).trans (if_pos mirrored)
  rw [receive_intact intact, (takeMirror_taken (by rwa [at_par]) (by rwa [at_par]) ((at_halyardUp s _).trans up) a).1, stored] at h
  refine answers_mono h fun t ⟨nv, same⟩ => ⟨nv, ?_, ?_, fun b other quiet => ⟨?_, ?_⟩, ?_⟩
  · rw [same.regs.read a silent, read_setInUse, read_setRead, if_pos rfl]
  · rw [same.regs.inUse a silent, inUse_setInUse, if_pos rfl]
  · rw [same.regs.read b quiet, read_setInUse, read_setRead, if_neg other, at_read s _ quiet]
  · rw [same.regs.inUse b quiet, inUse_setInUse, if_neg other, inUse_setRead, at_inUse s _ quiet]
  · have k := same_ownRegs same
    exact k

/-! ### HELLO (R501, R502) -/

theorem helloCause_of {d e : Dev} (par : e.par = d.par) (boot : e.boot = d.boot) (rec : BitVec 216) (sealSame revOk : Bool) :
    helloCause e rec sealSame revOk = helloCause d rec sealSame revOk := by
  unfold helloCause
  rw [par, boot]

/-- The device that has read the peer's serial number and schema. -/
def greeted (d : Dev) (rec : BitVec 216) : Dev :=
  { d.setReg64 pagePar 0x068 (byteField rec 0 8) with par := { d.par with peerSchema := BitVec.ofNat 8 (byteField rec 10 1) } }

theorem pairOnly_greeted (d : Dev) (rec : BitVec 216) : PairOnly d (greeted d rec) :=
  (pairOnly_setReg64 d _ (by decide)).trans (pairOnly_own _ _ _ _ _)

section
variable {d : Dev} {rec : BitVec 216} {sealSame revOk : Bool} (up : halyardUp d = true)
include up

theorem takeHello_refused (joining : d.par.role = roleJoining) (stage : d.par.joinStage = 1) {c : Nat}
    (cause : helloCause d rec sealSame revOk = some c) : takeHello d rec sealSame revOk = refuseJoin (greeted d rec) c := by
  have alone : d.holds = false := by rw [Dev.holds, joining]; rfl
  unfold takeHello
  refine (if_pos ⟨up, .inl ⟨joining, stage⟩⟩).trans ?_
  rw [cause, alone]
  rfl

/-- The schema in use once both have greeted. -/
def agreed (d : Dev) (rec : BitVec 216) (e : Dev) : Dev :=
  { e with par := { e.par with
    schemaInUse := BitVec.ofNat 8 ((commonSchema d.boot.schema.toNat (byteField rec 10 1)).getD 0) } }

theorem takeHello_joins (joining : d.par.role = roleJoining) (stage : d.par.joinStage = 1) (fits : helloCause d rec sealSame revOk = none) :
    takeHello d rec sealSame revOk = setJoinStage (takeClock (agreed d rec (greeted d rec))
      (byteField rec 12 8 * 1250 + byteField rec 20 2 % 1250) (signed 32 (byteField rec 22 4))) 2 := by
  have alone : d.holds = false := by rw [Dev.holds, joining]; rfl
  unfold takeHello
  refine (if_pos ⟨up, .inl ⟨joining, stage⟩⟩).trans ?_
  rw [fits, alone]
  simp only [Bool.false_eq_true, if_false]
  rfl

/-- The holder that has answered a HELLO with its own. -/
def answered (d : Dev) (rec : BitVec 216) : Dev :=
  sendHalyard (setJoinStage (greeted d rec) 1) 6 (helloBody (setJoinStage (greeted d rec) 1))

theorem takeHello_accepts (holds : d.holds = true) (fits : helloCause d rec sealSame revOk = none) :
    takeHello d rec sealSame revOk = sendState (setJoinStage (agreed d rec (answered d rec)) 2) := by
  unfold takeHello
  refine (if_pos ⟨up, .inr holds⟩).trans ?_
  rw [fits, holds]
  rfl

theorem takeHello_outside (alone : d.holds = false) (other : d.par.role ≠ roleJoining) :
    takeHello d rec sealSame revOk = if byteField rec 26 1 = roleJoining then sendHalyard d 6 (helloBody d) else d := by
  have not : ¬(halyardUp d = true ∧ ((d.par.role = roleJoining ∧ d.par.joinStage = 1) ∨ d.holds = true)) := fun ⟨_, h⟩ =>
    h.elim (fun h => other h.1) fun h => by cases alone.symm.trans h
  unfold takeHello
  refine (if_neg not).trans ?_
  split
  · next goes => exact (if_pos goes.2.2).symm
  · next stays => exact (if_neg fun joins => stays ⟨up, other, joins⟩).symm

end

/-- A refused HELLO ends the join with its cause, in the role that the device had before it. -/
theorem refuseJoin_effect {d : Dev} (joining : d.par.role = roleJoining) (c : Nat) :
    PairOnly d (refuseJoin d c) ∧ (refuseJoin d c).par = { d.par with role := d.par.joinFrom, joinStage := 0, refuseCause := c } ∧
      (refuseJoin d c).pennant pagePar 9 = true := by
  have ended := same_setJoinStage { d with par := { d.par with refuseCause := c } } 0
  have only : PairOnly d (setJoinStage { d with par := { d.par with refuseCause := c } } 0) :=
    (pairOnly_own d _ d.out d.free d.mirror).trans (pairOnly_setJoinStage _ _)
  unfold refuseJoin
  dsimp only
  rw [if_pos joining]
  generalize setJoinStage { d with par := { d.par with refuseCause := c } } 0 = e at ended only ⊢
  have told : SameButReports e (raise e pagePar 9 clsPair sevWarning 0x0C09 (pay c 0 0 0)) := same_raise _ _ _ _ _ _ _ (by decide)
  have pen : (raise e pagePar 9 clsPair sevWarning 0x0C09 (pay c 0 0 0)).pennant pagePar 9 = true :=
      pennant_raised _ (by decide) (by decide)
  generalize raise e pagePar 9 clsPair sevWarning 0x0C09 (pay c 0 0 0) = f at told pen ⊢
  refine ⟨only.trans ((pairOnly_of_same told).trans (pairOnly_setRole _ _ _)), ?_, ?_⟩
  · rw [setRole_par, told.par, ended.par]
  · by_cases role : f.par.role = d.par.joinFrom
    · rw [setRole, if_pos role]
      exact pen
    · refine pennant_of_same (same_setRole role none) ?_
      rw [Dev.pennant] at pen ⊢
      rwa [show (({ f with par := { f.par with role := d.par.joinFrom } } : Dev).setReg64 pagePar 0x090 f.cycle).regs.read (wordAddr pagePar 0x010) =
        f.regs.read (wordAddr pagePar 0x010) from (setReg_read _ _ _ _ _).trans ((if_neg (by decide)).trans
          ((setReg_read _ _ _ _ _).trans (if_neg (by decide))))]

/-! ### The holder's time (R502, R609) -/

/-- The parts of the device that a joining device's clock does not move. -/
def clockless (d : Dev) : Heats × Mould × Stp × Par := (d.heats, d.mould, d.stp, d.par)

theorem silent_clockless : Silent clockless where
  word _ _ _ _ _ := rfl
  fld _ _ _ _ _ _ _ := rfl
  pens _ _ := rfl
  rings _ _ := rfl
  windows _ _ := rfl
  kept _ _ := rfl
  triggers _ _ := rfl

theorem passing_clockless : Passing fun d e => clockless e = clockless d :=
  { silent_clockless.reporting with
    full := fun d => silent_clockless.fld d _ _ _ _ _ (by decide)
    recorder := fun _ _ => rfl
    tick := fun _ _ => rfl }

theorem clockless_advance (d : Dev) (t : Nat) : clockless (d.advance t) = clockless d := by
  have rounds := passing_clockless.trans (passing_clockless.captureRound t d)
    (passing_clockless.trans (passing_clockless.captureRound t (captureRound t d)) (passing_clockless.captureRound t _))
  unfold Dev.advance
  split
  · split
    · rfl
    · exact rounds
  · rfl

theorem clockless_rebase (d : Dev) : clockless (rebase d) = clockless d := by
  have crossed : clockless (wholeSecond d) = clockless d := by
    unfold wholeSecond
    dsimp only
    repeat' split
    all_goals rfl
  unfold rebase
  dsimp only
  split
  · exact crossed
  · exact crossed

theorem setSlew_effect (d : Dev) (v : Int) : clockless (setSlew d v) = clockless d ∧ (setSlew d v).tick = d.tick := by
  have tick : (rebase d).tick = d.tick := by
    unfold rebase wholeSecond
    dsimp only
    repeat' split
    all_goals rfl
  have limits (d : Dev) : clockless (limitSlew d v) = clockless d ∧ (limitSlew d v).tick = d.tick := by
    unfold limitSlew
    dsimp only
    split
    · exact ⟨rfl, rfl⟩
    · exact ⟨silent_clockless.setPen _ _ _, (same_setPen _ _ _).tick⟩
  obtain ⟨rest, same⟩ := limits (rebase d)
  exact ⟨rest.trans (clockless_rebase d), same.trans tick⟩

theorem setSlew_counted (d : Dev) (tick : Nat) (tim : Timebase) (mon : Monitors) (v : Int) :
    clockless (setSlew { d with tick := tick, tim := tim, mon := mon } v) = clockless d ∧
      (setSlew { d with tick := tick, tim := tim, mon := mon } v).tick = tick := setSlew_effect _ v

/-- The device takes the holder's count of ticks, and keeps heats, mould, steppers and what it knows of the pair. -/
theorem takeClock_effect (d : Dev) (tick : Nat) (slew : Int) :
    clockless (takeClock d tick slew) = clockless d ∧ (takeClock d tick slew).tick = tick := by
  unfold takeClock
  extract_lets _ e d1 move lanes shift due m
  have before : clockless d1 = clockless d := (clockless_rebase e).trans (clockless_advance d _)
  have moved : clockless lanes = clockless d1 :=
    silent_foldl _ (fun d l => by dsimp only; split <;> rfl) _ _
  obtain ⟨rest, same⟩ := setSlew_counted lanes tick _ _ slew
  exact ⟨rest.trans (moved.trans before), same⟩

/-! ### The copy that a holder sends (R501) -/

/-- What stage 2 sends: the device's parts, each in a record. -/
theorem sendState_effect (d : Dev) : ∃ ms, (sendState d).out = d.out ++ ms ∧ (∀ m, m ∈ ms → ∃ n p, m = .mirror true 0 (.part n p)) ∧
    sendState d = { d with mirror := some (mirrorOf d), out := d.out ++ ms } := by
  have sends (l : List MirrorPart) (d : Dev) : l.foldl (fun d p => d.send (.mirror true 0 (.part (Config.partWords p.kind) p))) d =
      { d with out := d.out ++ l.map fun p => .mirror true 0 (.part (Config.partWords p.kind) p) } := by
    induction l generalizing d with
    | nil => simp
    | cons p l ih =>
      rw [List.foldl_cons, ih]
      simp [Dev.send]
  refine ⟨_, ?_, ?_, sends _ _⟩
  · exact congrArg Dev.out (sends _ _)
  · intro m hm
    obtain ⟨p, -, rfl⟩ := List.mem_map.mp hm
    exact ⟨_, p, rfl⟩

theorem mirrorOf_beside (d : Dev) (m : Option Mirror) (o : List Out) : mirrorOf { d with mirror := m, out := o } = mirrorOf d := rfl

theorem at_helloCause (s : State) (u : Nat) (rec : BitVec 216) (sealSame revOk : Bool) :
    helloCause (s.at u) rec sealSame revOk = helloCause s.dev rec sealSame revOk :=
        helloCause_of (at_par s _) (at_boot s _) rec sealSame revOk

section
variable {s : State} {u : Arrival} {rec : BitVec 216} {sealSame revOk : Bool} (intact : u.intact = true) (on : s.dev.running = true)
include intact on

/-- A HELLO of a device that runs. -/
theorem hello_taken {d : Dev} (taken : takeHello (s.at u.tick) rec sealSame revOk = d) :
    AnswersButReports s (.hello u rec sealSame revOk) d := by
  have h := answers_hello s u rec sealSame revOk
  rwa [receive_intact intact, if_pos ((at_running s _).trans on), taken] at h

theorem hello_refused (up : halyardUp s.dev = true) (joining : s.dev.par.role = roleJoining) (stage : s.dev.par.joinStage = 1) {c : Nat}
    (cause : helloCause s.dev rec sealSame revOk = some c) : Answers s (.hello u rec sealSame revOk) fun t =>
      samePair s (s.at u.tick) t ∧ t.dev.par.role = s.dev.par.joinFrom ∧ t.dev.par.joinStage = 0 ∧ t.dev.par.refuseCause = c ∧
      t.dev.pennant pagePar 9 = true := by
  have par := at_par s u.tick
  have h := hello_taken intact on (takeHello_refused ((at_halyardUp s _).trans up) (by rwa [par]) (by rwa [par])
    ((at_helloCause s _ _ _ _).trans cause))
  obtain ⟨only, ended, pen⟩ := refuseJoin_effect (d := greeted (s.at u.tick) rec) (show (s.at u.tick).par.role = roleJoining by rwa [par]) c
  refine answers_mono h fun t ⟨nv, same⟩ => ⟨samePair_of nv (besidePair_of_same (at_regs s u.tick))
    (((pairOnly_greeted _ rec).trans only).trans (pairOnly_of_same same)), ?_⟩
  rw [same.par, ended]
  exact ⟨(congrArg Par.joinFrom par :), rfl, rfl, pennant_of_same same pen⟩

theorem hello_joins (up : halyardUp s.dev = true) (joining : s.dev.par.role = roleJoining) (stage : s.dev.par.joinStage = 1)
    (fits : helloCause s.dev rec sealSame revOk = none) : Answers s (.hello u rec sealSame revOk) fun t =>
      t.nv = s.nv ∧ t.dev.par.role = roleJoining ∧ t.dev.par.joinStage = 2 ∧
      t.dev.tick = byteField rec 12 8 * 1250 + byteField rec 20 2 % 1250 ∧
      t.dev.heats = s.dev.heats ∧ t.dev.mould = s.dev.mould ∧ t.dev.stp = s.dev.stp := by
  have par := at_par s u.tick
  have h := hello_taken intact on (takeHello_joins ((at_halyardUp s _).trans up) (by rwa [par]) (by rwa [par])
    ((at_helloCause s _ _ _ _).trans fits))
  obtain ⟨rest, tick⟩ := takeClock_effect (agreed (s.at u.tick) rec (greeted (s.at u.tick) rec))
    (byteField rec 12 8 * 1250 + byteField rec 20 2 % 1250) (signed 32 (byteField rec 22 4))
  generalize takeClock (agreed (s.at u.tick) rec (greeted (s.at u.tick) rec)) (byteField rec 12 8 * 1250 + byteField rec 20 2 % 1250)
    (signed 32 (byteField rec 22 4)) = e at h rest tick
  have stage2 := same_setJoinStage e 2
  refine answers_mono h fun t ⟨nv, same⟩ => ?_
  have own : t.dev.par = { e.par with joinStage := 2 } := same.par.trans stage2.par
  have role : e.par.role = (s.at u.tick).par.role := congrArg (fun x => x.2.2.2.role) rest
  rw [own]
  refine ⟨nv, ?_, rfl, same.tick.trans (stage2.tick.trans tick), ?_, ?_, ?_⟩
  · exact role.trans (by rwa [par])
  · exact (same.heats.trans stage2.heats).trans ((congrArg (·.1) rest).trans (at_heats s _))
  · exact (same.mould.trans stage2.mould).trans ((congrArg (·.2.1) rest).trans (at_mould s _))
  · exact (same.stp.trans stage2.stp).trans ((congrArg (·.2.2.1) rest).trans (arrive_stp s.now _))

/-- The command takes the device exactly to what the HELLO makes of it. -/
theorem hello_exactly : AnswersExactly s (.hello u rec sealSame revOk) (takeHello (s.at u.tick) rec sealSame revOk) := by
  have h : AnswersExactly s (.hello u rec sealSame revOk) (receive s.now u fun d => if d.running then takeHello d rec sealSame revOk else d) :=
    exactly_of_onDev (f := fun d => receive d u fun d => if d.running then takeHello d rec sealSame revOk else d) rfl
  rwa [receive_intact intact, if_pos ((at_running s _).trans on)] at h

end

/-- What a HELLO says of the device does not turn on its own stage of the join. -/
theorem helloBody_of {d e : Dev} (side : e.par.sideB = d.par.sideB) (role : e.par.role = d.par.role) (boot : e.boot = d.boot)
    (tick : e.tick = d.tick)
    (tim : e.tim = d.tim) : helloBody e = helloBody d := by
  unfold helloBody Dev.cycle
  rw [side, role, boot, tick, tim]

/-- What the holder has sent of a HELLO and become by it, the copy still to come. -/
theorem answered_effect {d : Dev} (up : halyardUp d = true) (quiet : d.out = []) (rec : BitVec 216) :
    PairOnly d (answered d rec) ∧ (answered d rec).out = [.halyard 6 (halyardRecord 6 (helloBody d))] ∧
      (answered d rec).par.role = d.par.role := by
  have stage := same_setJoinStage (greeted d rec) 1
  have only := (pairOnly_greeted d rec).trans (pairOnly_setJoinStage (greeted d rec) 1)
  unfold answered
  generalize setJoinStage (greeted d rec) 1 = e at stage only ⊢
  have role : e.par.role = d.par.role := (congrArg Par.role stage.par :)
  have body : helloBody e = helloBody d :=
    helloBody_of (congrArg Par.sideB stage.par :) role only.rest.boot only.rest.tick only.rest.tim
  have link : halyardUp e = true := by
    unfold halyardUp laneOf at up ⊢
    rw [only.rest.lanes]
    exact up
  have out : e.out = [] := stage.out.trans quiet
  refine ⟨only.trans (pairOnly_sendHalyard _ _ _), ?_, ?_⟩
  · unfold sendHalyard
    rw [if_pos link, Dev.send, out, body]
    rfl
  · rw [sendHalyard_par]
    exact role

theorem hello_holds {s : State} {u : Arrival} {rec : BitVec 216} {sealSame revOk : Bool} (up : halyardUp s.dev = true)
    (intact : u.intact = true)
    (on : s.dev.running = true) (holds : s.dev.holds = true) (fits : helloCause s.dev rec sealSame revOk = none) :
    Answers s (.hello u rec sealSame revOk) fun t =>
      samePair s (s.at u.tick) t ∧ t.dev.par.role = s.dev.par.role ∧ t.dev.par.joinStage = 2 ∧
      t.dev.mirror = some (mirrorOf t.dev) ∧
      ∃ ms, t.dev.out = .halyard 6 (halyardRecord 6 (helloBody (s.at u.tick))) :: ms ∧
        ∀ m, m ∈ ms → ∃ n p, m = .mirror true 0 (.part n p) := by
  have link := (at_halyardUp s u.tick).trans up
  have holder : (s.at u.tick).holds = true := by
    rw [Dev.holds, at_par]
    exact holds
  obtain ⟨first, out, role⟩ := answered_effect link (at_out s u.tick) rec
  have run := hello_exactly (rec := rec) (sealSame := sealSame) (revOk := revOk) intact on
  rw [takeHello_accepts link holder ((at_helloCause s _ _ _ _).trans fits)] at run
  generalize answered (s.at u.tick) rec = e at first out role run
  have stage := same_setJoinStage (agreed (s.at u.tick) rec e) 2
  have only : PairOnly e (setJoinStage (agreed (s.at u.tick) rec e) 2) :=
    (pairOnly_own e _ e.out e.free e.mirror).trans (pairOnly_setJoinStage _ _)
  generalize setJoinStage (agreed (s.at u.tick) rec e) 2 = f at stage only run
  obtain ⟨ms, outs, parts, copy⟩ := sendState_effect f
  refine answers_of_exactly run fun t nv dev => ?_
  rw [copy] at dev
  have sent : PairOnly f t.dev := by
    rw [dev]
    exact pairOnly_own f f.par _ f.free _
  have par : t.dev.par = { (agreed (s.at u.tick) rec e).par with joinStage := 2 } := by
    rw [dev]
    exact stage.par
  refine ⟨samePair_of nv (besidePair_of_same (at_regs s u.tick)) (first.trans (only.trans sent)), ?_, ?_, ?_, ms, ?_, parts⟩
  · rw [par]
    exact role.trans (congrArg Par.role (at_par s u.tick))
  · rw [par]
  · rw [dev]
    exact congrArg some (mirrorOf_beside f _ _).symm
  · rw [dev]
    show f.out ++ ms = _
    rw [stage.out]
    exact congrArg (· ++ ms) out

/-- Settles O49: each kind of record with what it leaves, and the records that the rules do not let in. -/
theorem pairRecords : Obligations.PairRecords := by
  unfold Obligations.PairRecords
  intro s u up
  refine ⟨fun broken i arrives => brokenRecord_counts up broken arrives, fun intact => ⟨fun rec skew => ⟨fun now role => ?_,
    fun now role holder plain => cycleRecord_follows up intact now role holder plain, fun other => ?_⟩,
    fun c b a v i k => ⟨fun role free => writeRecord_fct up intact role i k v free,
      fun j r role found => writeRecord_tmp up intact role j found v, fun closed => ?_⟩,
    fun kind i k x => ⟨fun role time => ⟨fun now few => sampleRecord_channel intact kind i k x up role now few,
        fun now few => sampleRecord_edge intact kind i k x up role time now few, sampleRecord_code intact kind i k x up role time,
        sampleRecord_challenge intact kind i k x up role time, sampleRecord_unknown intact kind i k x up role time⟩,
      sampleRecord_late intact kind i k x up, sampleRecord_other intact kind i k x⟩,
    fun a bs => ⟨fun open0 => ⟨fun unready => bulkRecord_unready up intact open0 unready a bs,
        fun q ready empty one inside room rate => bulkRecord_enters up intact open0 ready empty one inside room rate⟩,
      fun closed e nothing => bulkRecord_passed intact closed nothing bs,
      fun e e' rest r pair loads ring => bulkRecord_confirms up intact pair r loads ring e bs⟩,
    fun a v => ⟨fun role stage low mirrored silent => mirrorRecord_word up intact role stage low mirrored silent v,
      fun n k x role stage => ?_, fun closed data => ?_⟩, fun rec sealSame revOk on => ⟨fun joining stage =>
        ⟨fun c cause => hello_refused intact on up joining stage cause, fun fits => hello_joins intact on up joining stage fits⟩,
      fun holds fits => hello_holds up intact on holds fits, fun alone other asks => ?_, fun alone other quiet => ?_,
          fun side => if_pos side⟩⟩⟩
  · have h := answers_cycleRecord s u rec skew
    rw [receive_intact intact, takeCycleRecord_kept ((at_halyardUp s _).trans up) (now.trans (at_cycle s _).symm) (by rwa [at_par]), at_par] at h
    exact h
  · have h := answers_cycleRecord s u rec skew
    rwa [receive_intact intact, takeCycleRecord_other (by rw [at_cycle]; exact other)] at h
  · have h := answers_writeRecord s u c b a v
    rwa [receive_intact intact, takeWriteRecord_closed (closed.imp (receives_of_par (at_par s _)).trans fun other => by rwa [at_cycle])] at h
  · have h := answers_mirrorRecord s u a (.part n (.station k x))
    rw [receive_intact intact, (takeMirror_taken (by rwa [at_par]) (by rwa [at_par]) ((at_halyardUp s _).trans up) a).2] at h
    exact h
  · have h := answers_mirrorRecord s u a data
    rwa [receive_intact intact, takeMirror_closed (by rwa [at_par])] at h
  · have taken := takeHello_outside (d := s.at u.tick) (rec := rec) (sealSame := sealSame) (revOk := revOk) ((at_halyardUp s _).trans up)
      (by rw [Dev.holds, at_par]; exact alone) (by rwa [at_par])
    rw [if_pos asks, sendHalyard, if_pos ((at_halyardUp s _).trans up), Dev.send, at_out] at taken
    exact hello_taken intact on taken
  · have taken := takeHello_outside (d := s.at u.tick) (rec := rec) (sealSame := sealSame) (revOk := revOk) ((at_halyardUp s _).trans up)
      (by rw [Dev.holds, at_par]; exact alone) (by rwa [at_par])
    rw [if_neg quiet] at taken
    exact hello_taken intact on taken

end Sys2Proof.Proofs
end

section
/-! What an entry's work leaves of the ring that it stood on: the lemmas for O24. -/
namespace Sys2Proof.Proofs
open Sys2Proof.Machine Sys2Proof.Laws

/-! ### A table that lists a key where it belongs -/

/-- Key `r` is listed after lower keys alone and with a value that is not the default, or not at all. -/
def Placed : Tab Ring → Nat → Prop
  | [], _ => True
  | (j, x) :: t, r => if j = r then x ≠ {} else if j < r then Placed t r else r ∉ t.map Prod.fst

theorem placed_of_absent {t : Tab Ring} {r : Nat} (absent : r ∉ t.map Prod.fst) : Placed t r := by
  induction t with
  | nil => trivial
  | cons e t ih =>
    simp only [List.map_cons, List.mem_cons, not_or] at absent
    rw [Placed, if_neg (Ne.symm absent.1)]
    split
    · exact ih absent.2
    · exact absent.2

theorem absent_without {t : Tab Ring} {r : Nat} (k : Nat) (absent : r ∉ t.map Prod.fst) : r ∉ (t.without k).map Prod.fst := by
  induction t with
  | nil => exact absent
  | cons e t ih =>
    simp only [List.map_cons, List.mem_cons, not_or] at absent
    unfold Tab.without
    split
    · exact ih absent.2
    · simp only [List.map_cons, List.mem_cons, not_or]
      exact ⟨absent.1, ih absent.2⟩

theorem absent_without_own (t : Tab Ring) (r : Nat) : r ∉ (t.without r).map Prod.fst := by
  induction t with
  | nil => simp [Tab.without]
  | cons e t ih =>
    unfold Tab.without
    split
    · exact ih
    · next other =>
      simp only [List.map_cons, List.mem_cons, not_or]
      exact ⟨other, ih⟩

theorem absent_list {t : Tab Ring} {r k : Nat} (x : Ring) (absent : r ∉ t.map Prod.fst) (other : k ≠ r) :
    r ∉ (t.list k x).map Prod.fst := by
  induction t with
  | nil => simpa [Tab.list] using Ne.symm other
  | cons e t ih =>
    simp only [List.map_cons, List.mem_cons, not_or] at absent
    unfold Tab.list
    repeat' split
    all_goals simp only [List.map_cons, List.mem_cons, not_or]
    · exact ⟨Ne.symm other, absent.2⟩
    · exact ⟨Ne.symm other, absent⟩
    · exact ⟨absent.1, ih absent.2⟩

theorem placed_list_own {x : Ring} (given : x ≠ {}) (t : Tab Ring) (r : Nat) : Placed (t.list r x) r := by
  induction t with
  | nil => simpa [Tab.list, Placed] using given
  | cons e t ih =>
    unfold Tab.list
    split
    · simpa [Placed] using given
    split
    · simpa [Placed] using given
    · next other low =>
      rw [Placed, if_neg (Ne.symm other), if_pos (by omega)]
      exact ih

/-- A value stored at a key is listed where it belongs. -/
theorem placed_set_own (t : Tab Ring) (r : Nat) (x : Ring) : Placed (t.set (same {}) r x) r := by
  unfold Tab.set
  split
  · exact placed_of_absent (absent_without_own t r)
  · next given => exact placed_list_own given t r

theorem placed_without {t : Tab Ring} {r k : Nat} (h : Placed t r) (other : k ≠ r) : Placed (t.without k) r := by
  induction t with
  | nil => exact h
  | cons e t ih =>
    rw [Placed] at h
    unfold Tab.without
    split
    · next own =>
      rw [if_neg (by omega)] at h
      split at h
      · exact ih h
      · exact placed_of_absent (absent_without k h)
    · rw [Placed]
      split at h
      · next own => rwa [if_pos own]
      · next away =>
        rw [if_neg away]
        split at h
        · next low => rw [if_pos low]; exact ih h
        · next high => rw [if_neg high]; exact absent_without k h

theorem placed_list {t : Tab Ring} {r k : Nat} (x : Ring) (h : Placed t r) (other : k ≠ r) : Placed (t.list k x) r := by
  induction t with
  | nil =>
    rw [Tab.list, Placed, if_neg other]
    split
    · trivial
    · simp
  | cons e t ih =>
    obtain ⟨j, y⟩ := e
    have whole := h
    rw [Placed] at h
    unfold Tab.list
    split
    · next own =>
      rw [if_neg (by omega)] at h
      rw [Placed, if_neg other, own]
      exact h
    split
    · next low =>
      rw [Placed, if_neg other]
      split
      · exact whole
      · rw [if_neg (by omega), if_neg (by omega)] at h
        simp only [List.map_cons, List.mem_cons, not_or]
        exact ⟨by omega, h⟩
    · rw [Placed]
      split at h
      · next own => rwa [if_pos own]
      · next away =>
        rw [if_neg away]
        split at h
        · next low => rw [if_pos low]; exact ih h
        · next high => rw [if_neg high]; exact absent_list x h other

/-- Storing at another key leaves it there. -/
theorem placed_set {t : Tab Ring} {r : Nat} (k : Nat) (x : Ring) (h : Placed t r) : Placed (t.set (same {}) k x) r := by
  by_cases own : k = r
  · rw [own]
    exact placed_set_own t r x
  · unfold Tab.set
    split
    · exact placed_without h own
    · exact placed_list x h own

theorem get_of_absent {t : Tab Ring} {r : Nat} (absent : r ∉ t.map Prod.fst) : t.get (same {}) r = {} ∧ t.without r = t := by
  induction t with
  | nil => exact ⟨rfl, rfl⟩
  | cons e t ih =>
    simp only [List.map_cons, List.mem_cons, not_or] at absent
    obtain ⟨default, rest⟩ := ih absent.2
    rw [Tab.get, Tab.without, if_neg absent.1, if_neg absent.1, rest]
    exact ⟨default, rfl⟩

/-- Storing what is listed where it belongs changes nothing. -/
theorem set_get_of_placed {t : Tab Ring} {r : Nat} (h : Placed t r) : t.set (same {}) r (t.get (same {}) r) = t := by
  induction t with
  | nil => rfl
  | cons e t ih =>
    obtain ⟨j, y⟩ := e
    rw [Placed] at h
    by_cases own : j = r
    · rw [if_pos own] at h
      rw [Tab.get, if_pos own.symm, Tab.set, if_neg (show ¬y = same {} r from h), Tab.list, if_pos own.symm, own]
    rw [if_neg own] at h
    rw [Tab.get, if_neg (Ne.symm own)]
    by_cases low : j < r
    · rw [if_pos low] at h
      have rest := ih h
      unfold Tab.set at rest ⊢
      split
      · next default => rw [if_pos default] at rest; rw [Tab.without, if_neg (Ne.symm own), rest]
      · next given => rw [if_neg given] at rest; rw [Tab.list, if_neg (Ne.symm own), if_neg (by omega), rest]
    · rw [if_neg low] at h
      obtain ⟨default, rest⟩ := get_of_absent h
      rw [default, Tab.set, if_pos (show ({} : Ring) = same {} r from rfl), Tab.without, if_neg (Ne.symm own), rest]

/-! ### The entry under way on a ring -/

/-- `e` has the entry under way on ring `r` that `d` has, and lists the ring where it belongs if `d` does. -/
def Still (r : Nat) (d e : Dev) : Prop := SameEntry (ringOf e r) (ringOf d r) ∧ (Placed d.rings r → Placed e.rings r)

theorem Still.refl (r : Nat) (d : Dev) : Still r d d := ⟨⟨rfl, rfl, rfl⟩, id⟩

theorem Still.trans {r : Nat} {a b c : Dev} (first : Still r a b) (second : Still r b c) : Still r a c := by
  obtain ⟨⟨p, b, s⟩, listed⟩ := first
  obtain ⟨⟨p', b', s'⟩, listed'⟩ := second
  exact ⟨⟨p'.trans p, b'.trans b, s'.trans s⟩, listed' ∘ listed⟩

theorem still_of_rings {r : Nat} {d e : Dev} (h : e.rings = d.rings) : Still r d e := by
  unfold Still ringOf
  rw [h]
  exact ⟨⟨rfl, rfl, rfl⟩, id⟩

theorem still_setRing (r : Nat) (d : Dev) (k : Nat) (x : Ring) (h : SameEntry x (ringOf d k)) : Still r d (setRing d k x) := by
  refine ⟨?_, placed_set k x⟩
  by_cases own : r = k
  · subst own
    have read : ringOf (setRing d r x) r = x := get_set_same _ _ _ _
    rwa [read]
  · have read : ringOf (setRing d k x) r = ringOf d r := get_set_other _ _ _ own
    rw [read]
    exact ⟨rfl, rfl, rfl⟩

theorem still_reporting (r : Nat) : Reporting (Still r) where
  refl := Still.refl r
  trans := Still.trans
  lost _ _ := still_of_rings rfl
  opened _ := still_of_rings rfl
  pen _ _ := still_of_rings rfl
  stamps _ _ := still_of_rings rfl
  filed := still_setRing r
  windows _ _ := still_of_rings rfl
  kept _ _ := still_of_rings rfl
  triggers _ _ := still_of_rings rfl

theorem still_ite {r : Nat} {d a b : Dev} {c : Prop} [Decidable c] (yes : Still r d a) (no : Still r d b) :
    Still r d (if c then a else b) := by
  split
  · exact yes
  · exact no

/-- The device of a write's answer is as `Still` says. -/
def StillTable (r : Nat) (d : Dev) (x : Dev × TableResult) : Prop := Still r d x.1

theorem stillTable_ite {r : Nat} {d : Dev} {a b : Dev × TableResult} {c : Prop} [Decidable c] (yes : StillTable r d a)
    (no : StillTable r d b) : StillTable r d (if c then a else b) := by
  split
  · exact yes
  · exact no

namespace Still
variable {r : Nat} {d e : Dev} (h : Still r d e)
include h

theorem beside {f : Dev} (rings : f.rings = e.rings) : Still r d f := h.trans (still_of_rings rings)
theorem onlyRegs {f : Dev} (k : OnlyRegs e f) : Still r d f := h.beside (by rw [k])

theorem setPen (p b : Nat) : Still r d (setPen e p b) := h.trans ((still_reporting r).setPen (still_of_rings rfl))
theorem report (p cls sev code payload : Nat) : Still r d (report e p cls sev code payload) :=
    h.trans ((still_reporting r).report _ _ _ _ _ _)
theorem raise (p b cls sev code payload : Nat) : Still r d (raise e p b cls sev code payload) :=
  h.trans ((still_reporting r).raise (still_of_rings rfl) _ _ _ _)
theorem emit (k : Nat) (kind : RecKind) (data : Nat) : Still r d (emit e k kind data) := h.trans ((still_reporting r).emit _ _ _ _)
theorem emitShared (k : Nat) (kind : RecKind) (data : Nat) : Still r d (emitShared e k kind data) :=
  h.trans ((still_reporting r).emitShared _ _ _ _)

theorem dmaFault (k a : Nat) : Still r d (dmaFault e k a) := (h.beside (count_rings _ _ _)).raise _ _ _ _ _ _
theorem decodeFault (engine code index : Nat) : Still r d (decodeFault e engine code index) :=
    (h.beside (count_rings _ _ _)).raise _ _ _ _ _ _
theorem refuse (p off reason : Nat) : Still r d (refuse e p off reason) := by
  unfold Machine.refuse
  dsimp only
  exact Still.raise (h.beside (setReg_rings _ _ _ _)) _ _ _ _ _ _

theorem orFree (w : Nat) (o : Option Nat) : Still r d (orFree e w o).2 := h.beside (by rw [orFree_frame])
theorem sendCopy (type n a : Nat) (bs : List Byte) : Still r d (sendCopy type n e a bs) := h.beside (by rw [sendCopy_out])
theorem forwardEntry (ring index : Nat) (x : Entry) (rd : HostRead) : Still r d (forwardEntry e ring index x rd) :=
  h.beside (by rw [forwardEntry_out])

/-! ### Heat submission -/

theorem withHeats (x : Heats) : Still r d { e with heats := x } := h.beside rfl
theorem setOpening (heat : Heat) : Still r d (setOpening e heat) := h.beside rfl

theorem statusReport (st heat index : Nat) : Still r d (statusReport e st heat index) := by
  unfold Machine.statusReport
  split
  · exact h
  extract_lets p
  split
  · exact h.raise _ _ _ _ _ _
  split
  · exact h.raise _ _ _ _ _ _
  · exact h.report _ _ _ _ _

theorem entryDone (k index status code heat detail dropped : Nat) : Still r d (entryDone e k index status code heat detail dropped) :=
  (h.emitShared _ _ _).statusReport _ _ _

theorem heatDone (at0 k status heat duration patches completed stranded fired : Nat) :
    Still r d (heatDone e at0 k status heat duration patches completed stranded fired) := (h.emitShared _ _ _).statusReport _ _ _

theorem rejectHeat (k index : Nat) (x : Entry) (status code detail : Nat) : Still r d (rejectHeat e k index x status code detail) := by
  unfold Machine.rejectHeat
  extract_lets d1 number _ d2
  have told : Still r d d1 := h.entryDone _ _ _ _ _ _ _
  have rejected : Still r d d2 := by
    unfold d2
    split
    · exact told.beside rfl
    · exact told
  split
  · exact (rejected.heatDone _ _ _ _ _ _ _ _ _).beside (setSub_rings _ _ _)
  · exact rejected.beside (setSub_rings _ _ _)

theorem openHeat (k index : Nat) (x : Entry) : Still r d (openHeat e k index x) := by
  unfold Machine.openHeat
  extract_lets n shape heat _ d1
  refine still_ite (h.rejectHeat _ _ _ _ _ _) ?_
  split
  · exact h.rejectHeat _ _ _ _ _ _
  split
  · exact h.rejectHeat _ _ _ _ _ _
  · exact ((h.beside (f := d1) rfl).entryDone _ _ _ _ _ _ _).beside (setSub_rings _ _ _)

theorem discardEntry (k index : Nat) (x : Entry) : Still r d (discardEntry e k index x) := by
  unfold Machine.discardEntry
  extract_lets sub st d1
  have told : Still r d d1 := h.entryDone _ _ _ _ _ _ _
  split
  · exact ((h.heatDone _ _ _ _ _ _ _ _ _).beside (setSub_rings _ _ _)).openHeat _ _ _
  split
  · exact (told.heatDone _ _ _ _ _ _ _ _ _).beside (setSub_rings _ _ _)
  · exact told

theorem fetchFault (k : Nat) (x : Entry) (rd : HostRead) : Still r d (fetchFault e k x rd) := by
  unfold Machine.fetchFault
  split
  · exact h.dmaFault _ _
  · exact h

theorem ingressCount (x : Entry) (count per : Nat) (data : EntryData) : Still r d (ingressCount e x count per data) := by
  unfold Machine.ingressCount
  split
  · exact h
  split
  · exact h.beside (addCount_rings _ _ _ _)
  split
  · exact Still.decodeFault (h.beside (addCount_rings _ _ _ _)) _ _ _
  · exact h

theorem islandsEntry (k index : Nat) (x : Entry) (heat : Heat) (rd : HostRead) : Still r d (islandsEntry e k index x heat rd) := by
  unfold Machine.islandsEntry
  extract_lets first count data d1
  have counted : Still r d d1 := (h.fetchFault _ _ _).ingressCount _ _ _ _
  clear_value d1 data
  split
  · exact h.rejectHeat _ _ _ _ _ _
  split
  · exact h.rejectHeat _ _ _ _ _ _
  split
  · exact counted.rejectHeat _ _ _ _ _ _
  split
  · exact counted.rejectHeat _ _ _ _ _ _
  · exact (counted.setOpening _).entryDone _ _ _ _ _ _ _

theorem poursEntry (k index : Nat) (x : Entry) (heat : Heat) (rd : HostRead) : Still r d (poursEntry e k index x heat rd) := by
  unfold Machine.poursEntry
  extract_lets first count data d1
  have counted : Still r d d1 := (h.fetchFault _ _ _).ingressCount _ _ _ _
  clear_value d1 data
  split
  · exact h.rejectHeat _ _ _ _ _ _
  split
  · exact h.rejectHeat _ _ _ _ _ _
  split
  · exact counted.rejectHeat _ _ _ _ _ _
  split
  · exact counted.rejectHeat _ _ _ _ _ _
  · exact (counted.setOpening _).entryDone _ _ _ _ _ _ _

theorem recoatEntry (k index : Nat) (x : Entry) (heat : Heat) (rd : HostRead) : Still r d (recoatEntry e k index x heat rd) := by
  unfold Machine.recoatEntry
  split
  · exact h.rejectHeat _ _ _ _ _ _
  split
  · split
    · exact h.rejectHeat _ _ _ _ _ _
    extract_lets rc
    split
    · exact (h.setOpening _).entryDone _ _ _ _ _ _ _
    · exact h.rejectHeat _ _ _ _ _ _
  · exact (h.fetchFault _ _ _).rejectHeat _ _ _ _ _ _

theorem passEntry (k index : Nat) (x : Entry) (heat : Heat) : Still r d (passEntry e k index x heat) := by
  unfold Machine.passEntry
  refine still_ite (h.rejectHeat _ _ _ _ _ _) (still_ite (h.rejectHeat _ _ _ _ _ _) ?_)
  exact (h.setOpening _).entryDone _ _ _ _ _ _ _

theorem closeEntry (k index : Nat) (x : Entry) (heat : Heat) : Still r d (closeEntry e k index x heat) := by
  unfold Machine.closeEntry
  split
  · exact h.rejectHeat _ _ _ _ _ _
  split
  · exact h.rejectHeat _ _ _ _ _ _
  split
  · exact h.beside (setSub_rings _ _ _)
  · exact ((h.withHeats _).entryDone k index stOk 0 heat.number.toNat 0 0).beside (setSub_rings _ _ _)

theorem cancelEntry (k index : Nat) (x : Entry) : Still r d (cancelEntry e k index x) := by
  unfold Machine.cancelEntry
  split
  · exact h.rejectHeat _ _ _ _ _ _
  · exact ((h.withHeats _).entryDone k index stOk 0 (enHeat x) 0 0).beside (setSub_rings _ _ _)

theorem submissionEntry (k index : Nat) (x : Entry) (rd : HostRead) : Still r d (submissionEntry e k index x rd) := by
  unfold Machine.submissionEntry
  extract_lets sub
  split
  · exact h.discardEntry _ _ _
  split
  · split
    · exact h.openHeat _ _ _
    · exact h.entryDone _ _ _ _ _ _ _
  split
  · exact h.rejectHeat _ _ _ _ _ _
  split
  · exact h.entryDone _ _ _ _ _ _ _
  split
  · exact h.rejectHeat _ _ _ _ _ _
  split
  · exact h.islandsEntry _ _ _ _ _
  split
  · exact h.poursEntry _ _ _ _ _
  split
  · exact h.recoatEntry _ _ _ _ _
  split
  · exact h.passEntry _ _ _ _
  split
  · exact h.closeEntry _ _ _ _
  split
  · exact h.cancelEntry _ _ _
  · exact h.rejectHeat _ _ _ _ _ _

/-! ### Lines -/

theorem updHeat (n : BitVec 32) (f : Heat → Heat) : Still r d (updHeat e n f) := h.beside rfl

theorem addCount (p off n : Nat) : Still r d (e.addCount p off n) := h.beside (addCount_rings _ _ _ _)

theorem linesData (k index : Nat) (x : Entry) (heat : Heat) (p : Entry) (next : Nat) (rd : HostRead) :
    Still r d (linesData e k index x heat p next rd) := by
  unfold Machine.linesData
  extract_lets first count n need dropped from0 left bad
  clear_value bad
  refine still_ite (h.entryDone _ _ _ _ _ _ _) (still_ite (h.entryDone _ _ _ _ _ _ _) ?_)
  split
  · exact h.entryDone _ _ _ _ _ _ _
  split
  · refine still_ite (h.entryDone _ _ _ _ _ _ _) ?_
    extract_lets raw
    clear_value raw
    split
    · exact ((h.addCount _ _ _).decodeFault _ _ _).entryDone _ _ _ _ _ _ _
    · extract_lets d1
      have stored : Still r d d1 := Still.updHeat (still_ite (h.addCount _ _ _) h) _ _
      exact still_ite (stored.entryDone _ _ _ _ _ _ _) (stored.entryDone _ _ _ _ _ _ _)
  · exact (h.fetchFault _ _ _).entryDone _ _ _ _ _ _ _

/-! ### Table loads -/

theorem loadDone (k : Nat) (x : Entry) (status : Nat) (detail : Option Nat) : Still r d (loadDone e k x status detail) :=
  Still.emitShared ((h.beside (fresh_rings e)).orFree _ _) _ _ _

theorem loadResult (k : Nat) (x : Entry) (status : Nat) (detail : Option Nat) : Still r d (loadResult e k x status detail) :=
  still_ite (h.beside rfl) (h.loadDone _ _ _ _)

theorem onlyDram {f : Dev} (k : OnlyDram e f) : Still r d f := h.beside (by rw [k])

theorem dramWrite (port a : Nat) (bs : List Byte) (client : DramClient) : Still r d (dramWrite e port a bs client) :=
  h.onlyDram (dramWrite_onlyDram _ _ _ _ _)

theorem refuseTable (p reason : Nat) : Still r d (Machine.refuseTable e p reason) := h.refuse _ _ _

theorem stageWord (p g : Nat) (f : Dev → Dev) (stored : Still r d (f e)) : Still r d (Machine.stageWord e p g f).1 := by
  unfold Machine.stageWord
  split
  · exact h.refuseTable _ _
  · exact stored

theorem readOnlyWord (p : Nat) : Still r d (Machine.readOnlyWord e p).1 := h.refuseTable _ _

theorem withFct (x : Tab Word) : Still r d { e with fct := x } := h.beside rfl
theorem withLhd (x : LineHead) : Still r d { e with lhd := x } := h.beside rfl
theorem setServo (j : Nat) (x : Axis) : Still r d (setServo e j x) := h.beside rfl
theorem setCtx (c : Nat) (x : Ctx) : Still r d (setCtx e c x) := h.beside rfl

theorem tableWrite (a : Nat) (v : Word) : StillTable r d (tableWrite e a v) := by
  have readOnly (p : Nat) : StillTable r d (Machine.readOnlyWord e p) := h.readOnlyWord p
  have staged (p g : Nat) (f : Dev → Dev) (stored : Still r d (f e)) : StillTable r d (Machine.stageWord e p g f) :=
    h.stageWord p g f stored
  have absent : StillTable r d (e, .unassigned) := h
  unfold Machine.tableWrite
  refine stillTable_ite (readOnly _) (stillTable_ite (staged _ _ _ (h.withFct _)) ?_)
  refine stillTable_ite (stillTable_ite (staged _ _ _ (h.setServo _ _)) absent) ?_
  refine stillTable_ite (stillTable_ite absent (stillTable_ite (readOnly _) (staged _ _ _ (h.setServo _ _)))) ?_
  refine stillTable_ite (stillTable_ite absent (stillTable_ite (readOnly _) (staged _ _ _ (h.setCtx _ _)))) ?_
  refine stillTable_ite (stillTable_ite absent (stillTable_ite (readOnly _) (staged _ _ _ (h.withLhd _)))) ?_
  exact stillTable_ite (readOnly _) (stillTable_ite (h.dramWrite _ _ _ _) absent)

theorem loadWords (a : Nat) (vs : List Word) : Still r d (loadWords a e vs).1 := by
  induction vs generalizing a e with
  | nil => exact h
  | cons v vs ih =>
    unfold Machine.loadWords
    dsimp only
    split
    · exact ih (h.tableWrite a v) (a + 4)
    · exact h.tableWrite a v

theorem loadTable (k : Nat) (x : Entry) (bs : List Byte) : Still r d (loadTable e k x bs) := by
  have words := h.loadWords (loadOffset x) (wordsOf (loadLength x / 4) bs)
  unfold Machine.loadTable
  split
  · exact (h.dramWrite _ _ _ _).loadResult _ _ _ _
  split <;> (next eq => rw [eq] at words; exact words.loadResult _ _ _ _)

theorem loadAct (k : Nat) (x : Entry) (rd : HostRead) : Still r d (loadAct e k x rd) := by
  unfold Machine.loadAct
  refine still_ite (h.loadDone _ _ _ _) (still_ite (h.loadDone _ _ _ _) ?_)
  split
  · exact (still_ite (h.sendCopy _ _ _ _) h).loadTable _ _ _
  · exact (h.dmaFault _ _).loadDone _ _ _ _

/-! ### Calibration runs -/

theorem calRecord (ring status type target tag number cause step detail : Nat) :
    Still r d (calRecord e ring status type target tag number cause step detail) := h.emitShared _ _ _

theorem calEntryFault (ring index : Nat) (x : Entry) (status : Nat) : Still r d (calEntryFault e ring index x status) :=
  ((h.orFree _ _).calRecord _ _ _ _ _ _ _ _ _).report _ _ _ _ _

theorem putRun (o : Option Nat) (run : Option CalRun) : Still r d (putRun e o run) := by
  cases o <;> exact h.beside rfl

theorem setStation (n : Nat) (x : Station) : Still r d (setStation e n x) := h.beside (setStation_rings _ _ _)

theorem endRaw (n : Nat) (run : CalRun) : Still r d (endRaw e n run) := by
  unfold Machine.endRaw
  extract_lets p0 st
  split
  · exact h
  split
  · exact h.setStation _ _
  · exact (h.setStation _ _).setStation _ _
  · exact h

theorem endRun (o : Option Nat) (run : CalRun) (status cause : Nat) : Still r d (endRun e o run status cause) := by
  unfold Machine.endRun
  extract_lets d1 d2 back d3 d4
  have ended : Still r d d1 := h.putRun _ _
  have released : Still r d d2 := by
    unfold d2
    split
    · exact still_ite ((ended.endRaw _ _).setStation _ _) ended
    · exact ended
  have sent : Still r d d3 := still_ite (released.beside (send_rings _ _)) released
  have recorded : Still r d d4 := sent.calRecord _ _ _ _ _ _ _ _ _
  exact still_ite (recorded.raise _ _ _ _ _ _) (still_ite (recorded.raise _ _ _ _ _ _) (recorded.raise _ _ _ _ _ _))

theorem abortAll (cause : Nat) : Still r d (abortAll e cause) := by
  unfold Machine.abortAll
  extract_lets d1
  have first : Still r d d1 := by
    unfold d1
    split
    · exact h.endRun _ _ _ _
    · exact h
  refine upto_induct (n := 32) (fun _ f => Still r d f) first fun n f _ hf => ?_
  split
  · exact hf.endRun _ _ _ _
  · exact hf

theorem takeRun (ring : Nat) (x : Entry) (b : List Byte) : Still r d (takeRun e ring x b) := by
  unfold Machine.takeRun
  extract_lets d1
  have sent : Still r d d1 := still_ite (h.sendCopy _ _ _ _) h
  exact still_ite (sent.beside (setCalStation_rings _ _ _)) (sent.putRun _ _)

theorem calAct (ring index : Nat) (x : Entry) (rd : HostRead) : Still r d (calAct e ring index x rd) := by
  unfold Machine.calAct
  extract_lets least
  refine still_ite (h.calEntryFault _ _ _ _) (still_ite (still_ite (h.calEntryFault _ _ _ _) ?_) (h.takeRun _ _ _))
  split
  · exact still_ite (h.takeRun _ _ _) (h.calEntryFault _ _ _ _)
  · exact (h.dmaFault _ _).calEntryFault _ _ _ _

/-! ### Coder jobs -/

theorem setJob (k : Nat) (j : Option CoderJob) : Still r d (setJob e k j) := by
  cases j <;> exact h.beside rfl

theorem jobRecord (k kind status code : Nat) (j : CoderJob) (ingot : Nat) : Still r d (jobRecord e k kind status code j ingot) :=
    h.emit _ _ _

theorem leaveBuffer (j : CoderJob) : Still r d (leaveBuffer e j).1 := by
  unfold Machine.leaveBuffer
  split
  · exact h.beside (send_rings _ _)
  · exact h

theorem jobWrite (j : CoderJob) (a : Nat) (bs : List Byte) : Still r d (jobWrite e j a bs) :=
  still_ite h (still_ite (h.dramWrite _ _ _ _) (h.beside (send_rings _ _)))

theorem endJob (k status code : Nat) (j : CoderJob) : Still r d (endJob e k status code j) := by
  have ended := ((h.leaveBuffer j).jobRecord k 0x20 status code (Machine.leaveBuffer e j).2 (jobCount j.entry)).setJob k none
  exact still_ite (ended.setPen _ _) ended

theorem starveJob (k : Nat) (j : CoderJob) : Still r d (starveJob e k j) := by
  have told := (((h.jobRecord k 0x22 statusStarved 0x0205 { j with starved := true, reading := false } j.next).setJob k
    (some { j with starved := true, reading := false })).raise pageIcd 2 clsHousekeeping sevNotice 0x0205 (pay (12 + k) 0 0 j.next))
  exact still_ite (told.endJob _ _ _ _) told

theorem ingotBoundary (k : Nat) (j : CoderJob) : Still r d (ingotBoundary e k j) :=
  still_ite (h.endJob _ _ _ _) (still_ite (h.endJob _ _ _ _) (h.setJob _ _))

theorem placeHeld (k : Nat) (j : CoderJob) (bs : List Byte) : Still r d (placeHeld e k j bs) := by
  unfold Machine.placeHeld
  extract_lets room take d1 j1 rest l
  have written : Still r d d1 := by
    unfold d1
    split
    · exact h.jobWrite _ _ _
    · exact h
  have left : Still r d l.1 := written.leaveBuffer _
  clear_value d1 l
  exact still_ite (Still.ingotBoundary (written.beside (count_rings _ _ _)) _ _) (still_ite (left.starveJob _ _) (left.setJob _ _))

theorem takeDescriptor (k : Nat) (j : CoderJob) (raw : Option (List Byte)) {f : Dev → CoderJob → Dev} (hf : ∀ j, Still r d (f e j)) :
    Still r d (takeDescriptor e k j raw f) := by
  unfold Machine.takeDescriptor
  split
  · exact (h.dmaFault _ _).endJob _ _ _ _
  · exact still_ite (h.endJob _ _ _ _) (hf _)

theorem firstTurn : Still r d (firstTurn e) := h.beside rfl

theorem startJob (k : Nat) (x : Entry) (first : Option (List Byte)) : Still r d (takeJob.start k x first e) := by
  refine still_ite (h.endJob _ _ _ _) (h.takeDescriptor _ _ _ fun j => ?_)
  exact ((still_ite (h.onlyRegs (onlyRegs_takeGroup e 0 (by decide : kindOf pageIcd = some .icd))) h).firstTurn).setJob _ _

theorem takeJob (k : Nat) (x : Entry) (first : Option (List Byte)) : Still r d (takeJob e k x first) := by
  unfold Machine.takeJob
  split
  · exact still_ite (still_ite (h.endJob _ _ _ _) (h.takeDescriptor _ _ _ fun j => h.firstTurn.placeHeld _ _ _))
      ((h.endJob _ _ _ _).startJob _ _ _)
  · exact still_ite (h.endJob _ _ _ _) (h.startJob _ _ _)

theorem ingotInput (k : Nat) (j : CoderJob) (bytes : Option (List Byte)) : Still r d (ingotInput e k j bytes) := by
  unfold Machine.ingotInput decodeStep encodeStep
  split
  · refine still_ite ?_ ?_
    · split
      · exact h.placeHeld _ _ _
      · exact (h.decodeFault _ _ _).endJob _ _ _ _
    · extract_lets xs d1 d2
      split
      · exact h.placeHeld _ _ _
      · exact ((Still.raise (h.beside (count_rings e pageIcd 0x06C)) _ _ _ _ _ _).jobRecord _ _ _ _ _ _).ingotBoundary _ _
  · exact h.endJob _ _ _ _

theorem dramRead (port a n : Nat) (use : TransferUse) : Still r d (dramRead e port a n use).2 :=
  h.onlyDram (dramRead_onlyDram _ _ _ _ _)

end Still

/-- ICD that is disabled ends the ring's job; where no entry of the ring is parked, the ring stays as it is. -/
theorem still_abandonJob {d : Dev} {k : Nat} (free : (ringOf d (12 + k)).parked = none) : Still (12 + k) d (abandonJob d k) := by
  unfold abandonJob
  split
  · refine still_ite ((Still.refl _ d).setJob _ _) ?_
    rw [if_neg (by rw [free]; decide)]
    exact (Still.refl _ d).endJob _ _ _ _
  · exact Still.refl _ d

end Sys2Proof.Proofs
end

section
/-! An entry taken by the end of its read, as its own command takes it: O24. -/
namespace Sys2Proof.Proofs
open Sys2Proof.Machine Sys2Proof.Laws

/-- `d` with nothing parked on ring `r`. -/
def freed (d : Dev) (r : Nat) : Dev := setRing d r { ringOf d r with parked := none }

/-- `s` with nothing parked on ring `r`. -/
def freedState (s : State) (r : Nat) : State := { s with dev := freed s.dev r }

/-- Where no trigger waits to be hoisted, a command only moves the time on. -/
theorem arrive_untriggered {d : Dev} (quiet : d.recorder.triggers = []) (t : Nat) :
    d.arrive t = { d with tick := max d.tick (d.cycle * 1250 + min t 1249) } := by
  unfold Dev.arrive Dev.advance
  rw [quiet]
  split
  · next later => rw [Nat.max_eq_right (by omega)]; rfl
  · next now => rw [Nat.max_eq_left (by omega)]

theorem at_freedState {s : State} (quiet : s.dev.recorder.triggers = []) (u r : Nat) : (freedState s r).at u = freed (s.at u) r := by
  have now : s.now.recorder.triggers = [] := quiet
  rw [State.at, State.at, arrive_untriggered (d := s.now) now, arrive_untriggered (d := (freedState s r).now) quiet]
  rfl

theorem ringOf_freed (d : Dev) (r : Nat) : ringOf (freed d r) r = { ringOf d r with parked := none } := get_set_same _ _ _ _

theorem consumed_placed (d : Dev) (r : Nat) : Placed (consumed d r).rings r := by
  unfold consumed
  dsimp only
  split <;> exact placed_set_own _ _ _

/-- What works on a consumed entry leaves nothing of its ring under way. -/
theorem unpark_worked {d e : Dev} {r : Nat} (free : (ringOf d r).parked = none) (h : Still r (consumed d r) e) :
    (ringOf e r).parked = none ∧ unpark e r = e := by
  obtain ⟨⟨parked, begun, stale⟩, listed⟩ := h
  rw [ringOf_consumed] at parked begun stale
  have none1 : (ringOf e r).parked = none := parked.trans free
  have idle : ∀ x : Ring, x.parked = none → x.begun = false → x.stale = false →
      { x with parked := none, begun := false, stale := false } = x := by
    rintro ⟨⟩ ⟨⟩ ⟨⟩ ⟨⟩
    rfl
  refine ⟨none1, ?_⟩
  rw [unpark, idle _ none1 begun stale, setRing, ringOf, set_get_of_placed (listed (consumed_placed d r))]

/-- A read that has ended lets go on what waited for it. -/
theorem hostReadDone_resumes {d : Dev} {r : Nat} {i : Instr} {rd : HostRead} (read : rd ≠ .waiting) (parked : (ringOf d r).parked = some i)
    (mine : (sharedRing r && !d.holds) = false) {e : Dev} (resumed : resumeParked (freed d r) r i rd = e) :
    hostReadDone d r rd = if (ringOf e r).parked.isNone then unpark e r else e := by
  unfold hostReadDone
  rw [if_neg read, parked]
  dsimp only
  rw [mine, if_neg (by decide)]
  unfold freed at resumed
  rw [resumed]

/-! ### The commands -/

/-- The command `f` of ring `r` takes the consumed entry to one device, whatever would wait, and leaves nothing of the ring under way. -/
def TakesAlike (d : Dev) (r : Nat) (f : Dev → Instr → Dev) : Prop := ∃ e, Still r (consumed d r) e ∧ ∀ self, f d self = e

section
variable {d : Dev} {k : Nat} {e : Entry} {rd : HostRead} (read : rd ≠ .waiting)
include read

theorem submission_takesAlike (ready : entryReady d k e = true) (mode : (subOf d k).mode ≠ 4) (type : enType e ≠ 1) :
    TakesAlike d k fun d self => submissionCommand d k e rd self :=
  ⟨_, ((Still.refl _ _).forwardEntry _ _ _ _).submissionEntry _ _ _ _, fun self => submissionCommand_acts self ready mode
    (submissionWaits_other type) read⟩

theorem lines_takesAlike (ready : entryReady d (4 + k) e = true) {h : Heat} {p : Entry}
    (heat : findHeat d (BitVec.ofNat 32 (enHeat e)) = some h)
    (pass : (h.passes.find? fun p => psIndex p == byteField e 26 1) = some p) :
    TakesAlike d (4 + k) fun d self => linesCommand d k e rd self := by
  by_cases shape : linesShape e = true
  · exact ⟨_, ((Still.refl _ _).forwardEntry _ _ _ _).linesData _ _ _ _ _ _ _,
      fun _ => linesCommand_takes ready shape heat pass read⟩
  · obtain ⟨can, phase⟩ := entryReady_canRead ready
    refine ⟨_, (Still.refl _ (consumed d (4 + k))).entryDone (4 + k) (entryIndex d (4 + k)) stFormat 0 (enHeat e) 0 0, fun self => ?_⟩
    unfold linesCommand
    dsimp only
    rw [can, if_neg (by decide), if_neg (not_not_intro phase), Bool.eq_false_iff.mpr shape, if_pos (by decide),
      takeEntry_ready _ ready]
    rfl

theorem job_takesAlike (ready : entryReady d (12 + k) e = true) (begun : (ringOf d (12 + k)).begun = true)
    (free : (ringOf d (12 + k)).parked = none) : TakesAlike d (12 + k) fun d self => jobEntry d k e rd self := by
  obtain ⟨can, -⟩ := entryReady_canRead ready
  have taken := (Still.refl (12 + k) (consumed d (12 + k))).takeJob k e (descriptorBytes rd)
  have none1 : (ringOf (takeJob (consumed d (12 + k)) k e (descriptorBytes rd)) (12 + k)).parked = none :=
    (unpark_worked free taken).1
  refine ⟨_, still_ite (c := (!d.enabled pageIcd) = true) (taken.trans (still_abandonJob none1)) taken, fun self => ?_⟩
  dsimp only [jobEntry]
  rw [can, jobRingFree, begun, Bool.true_or, if_pos (by decide), if_neg fun h => read h.1, takeEntry_ready _ ready]

theorem load_takesAlike (ready : entryReady d (8 + k) e = true) : TakesAlike d (8 + k) fun d self => loadEntry d k e rd self := by
  have come : (rd == HostRead.waiting) = false := beq_eq_false_iff_ne.mpr read
  refine ⟨_, (Still.refl _ (consumed d (8 + k))).loadAct k e rd, fun self => ?_⟩
  dsimp only [loadEntry]
  rw [come, Bool.and_false, Bool.false_and, Bool.false_and, if_neg (by decide), takeEntry_ready _ ready]

end

theorem cal_takesAlike {d : Dev} {k : Nat} {e : Entry} (rd : HostRead) (ready : entryReady d (16 + k) e = true)
    (begun : (ringOf d (16 + k)).begun = true) :
    TakesAlike d (16 + k) fun d self => calEntry d k e rd self := by
  have acted := (Still.refl (16 + k) (consumed d (16 + k))).calAct k (entryIndex d (16 + k)) e rd
  refine ⟨_, still_ite (c := (!d.enabled pageCal) = true) (acted.abortAll 1) acted, fun self => ?_⟩
  dsimp only [calEntry]
  rw [begun, if_pos rfl, takeEntry_ready _ ready]
  rfl

/-- An ingot whose input has come leaves its ring as it is. -/
theorem still_ingotStep {d : Dev} {r : Nat} {decode : Bool} {rd : HostRead} {self : Instr} (read : rd ≠ .waiting) :
    Still (12 + r) d (ingotStep d r decode rd self) := by
  unfold ingotStep
  split
  · exact Still.refl _ d
  · next j _ =>
    dsimp only
    refine still_ite (Still.refl _ d) ?_
    have turn : Still (12 + r) d { d with coder := { d.coder with turn := 1 - r } } := (Still.refl _ d).beside rfl
    generalize { d with coder := { d.coder with turn := 1 - r } } = d0 at turn ⊢
    split
    · have got := turn.dramRead 7 (byteField j.entry 8 8 + inputLength j * j.next) (inputLength j) (.ingot r)
      split
      · next eq =>
        rw [eq] at got
        exact Still.ingotInput got _ _ _
      · next eq =>
        rw [eq] at got
        exact Still.setJob got _ _
    · split
      · exact absurd rfl read
      · exact (turn.dmaFault _ _).ingotInput _ _ _
      · exact still_ite (turn.ingotInput _ _ _) ((turn.dmaFault _ _).ingotInput _ _ _)

theorem ingotStep_self {d : Dev} {r : Nat} {decode : Bool} {rd : HostRead} (read : rd ≠ .waiting) (self self' : Instr) :
    ingotStep d r decode rd self = ingotStep d r decode rd self' := by
  cases rd with
  | waiting => exact absurd rfl read
  | failed => rfl
  | ok bs => rfl

/-! ### The end of the read -/

section
variable {s : State} {u : Nat} {r : Fin 64} {rd : HostRead} {i : Instr} (quiet : s.dev.recorder.triggers = [])
  (read : rd ≠ .waiting) (parked : (ringOf s.dev r.val).parked = some i)
include quiet read parked

/-- The end of its read takes the entry as the entry's own command does, on a ring where nothing is parked. -/
theorem completion_takes {e : Entry} {c : Instr} (f : Dev → Instr → Dev) {self self' : Instr}
    (ready : entryReady (freed (s.at u) r.val) r.val e = true)
    (alike : TakesAlike (freed (s.at u) r.val) r.val f)
    (resumed : ∀ d, resumeParked d r.val i rd = f d self)
    (own : exec c (freedState s r.val) = onDev (freedState s r.val) fun d => f (d.arrive u) self') :
    ∃ t, exec (.hostReadCompletion u r rd) s = .next t ∧ exec c (freedState s r.val) = .next t := by
  obtain ⟨e, still, same⟩ := alike
  obtain ⟨can, -⟩ := entryReady_canRead ready
  have mine : (sharedRing r.val && !(s.at u).holds) = false := by
    unfold canRead at can
    simp only [Bool.and_eq_true] at can
    have holds : (!sharedRing r.val || (s.at u).holds) = true := can.1.1
    cases shared : sharedRing r.val
    · rfl
    · rw [shared] at holds
      simpa using holds
  obtain ⟨left, idle⟩ := unpark_worked (by rw [ringOf_freed]) still
  have done : hostReadDone (s.at u) r.val rd = e := by
    rw [hostReadDone_resumes read ((at_parked s u _).trans parked) mine ((resumed _).trans (same _)), left, Option.isNone_none,
      if_pos rfl, idle]
  refine ⟨{ s with dev := e }, ?_, ?_⟩
  · show Host.Outcome.next { s with dev := hostReadDone (s.at u) r.val rd } = _
    rw [done]
  · rw [own]
    show Host.Outcome.next { s with dev := f ((freedState s r.val).at u) self' } = _
    rw [at_freedState quiet, same]

/-- The end of its read goes on with an ingot as the ingot's own command does, and then nothing of the ring is under way. -/
theorem completion_ingot {k : Fin 2} {c : Instr} {decode : Bool} {self self' : Instr} (ring : r.val = 12 + k.val)
    (resumed : ∀ d, resumeParked d r.val i rd = ingotStep d k.val decode rd self)
    (own : exec c (freedState s r.val) = onDev (freedState s r.val) fun d => ingotStep (d.arrive u) k.val decode rd self') :
    ∃ t, exec (.hostReadCompletion u r rd) s = .next { t with dev := unpark t.dev r.val } ∧ exec c (freedState s r.val) = .next t := by
  have mine : (sharedRing r.val && !(s.at u).holds) = false := by
    have alone : ∀ k : Fin 2, sharedRing (12 + k.val) = false := by decide
    rw [ring, alone, Bool.false_and]
  obtain ⟨⟨left, -, -⟩, -⟩ : Still r.val (freed (s.at u) r.val) (ingotStep (freed (s.at u) r.val) k.val decode rd self') := by
    rw [ring]
    exact still_ingotStep read
  rw [ringOf_freed] at left
  have done : hostReadDone (s.at u) r.val rd = unpark (ingotStep (freed (s.at u) r.val) k.val decode rd self') r.val := by
    rw [hostReadDone_resumes read ((at_parked s u _).trans parked) mine ((resumed _).trans (ingotStep_self read self self')), left,
      Option.isNone_none, if_pos rfl]
  refine ⟨{ s with dev := ingotStep (freed (s.at u) r.val) k.val decode rd self' }, ?_, ?_⟩
  · show Host.Outcome.next { s with dev := hostReadDone (s.at u) r.val rd } = _
    rw [done]
  · rw [own]
    show Host.Outcome.next { s with dev := ingotStep ((freedState s r.val).at u) k.val decode rd self' } = _
    rw [at_freedState quiet]

end

/-! ### The statement -/

/-- POURS whose buffer is still to be read wait for it. -/
theorem pours_wait {s : State} {u : Nat} {k : Fin 4} {e : Entry} {h : Heat} (entry : entryFor (s.at u) k.val 3 e h) :
    AnswersButReports s (.pours u k e .waiting) (setRing (s.at u) k.val { ringOf s.dev k.val with
      parked := some (.pours 0 k e .waiting), begun := true, at0 := ringCons s.dev k.val, stale := false }) := by
  obtain ⟨ready, mode, -, type, -, -⟩ := entry
  obtain ⟨can, phase⟩ := entryReady_canRead ready
  have turn : submissionWaits (s.at u) k.val e = false := submissionWaits_other (by rw [type]; decide)
  have needs : needsData (s.at u) k.val e = true := by rw [needsData, mode, type]; rfl
  have parks := answers_pours s u k e .waiting
  rw [submissionCommand, can, mode, turn, needs, if_pos (by decide), if_pos (by decide), if_pos phase] at parks
  exact answers_same parks (same_park s u k.val _ true)

/-- A completion that brings nothing changes nothing. -/
theorem hostReadDone_waiting (d : Dev) (r : Nat) : hostReadDone d r .waiting = d := if_pos rfl

/-- Settles O24: the end of its read takes an entry as the entry's own command does, and leaves nothing of its ring under way. -/
theorem hostReads : Obligations.HostReads := by
  unfold Obligations.HostReads
  refine ⟨fun s u k e h entry => pours_wait entry, fun s u v rd x e read quiet => ?_, fun s u v k e x _ => ?_⟩
  · intro back ready
    have known {r : Nat} (h : ready r) : entryReady (freed (s.at u) r) r e = true ∧ (ringOf (freed (s.at u) r) r).begun = true := by
      obtain ⟨begun, entry⟩ := h
      have entry : entryReady ((freedState s r).at u) r e = true := entry
      rw [at_freedState quiet] at entry
      rw [ringOf_freed]
      exact ⟨entry, (at_ringBegun s u r).trans begun⟩
    have heats (r : Nat) : (freed (s.at u) r).heats = s.dev.heats := at_heats s u
    refine ⟨fun k type turn mode => ?_, fun k h p turn parked heat pass => ?_, fun k => ?_⟩
    · obtain ⟨entry, -⟩ := known turn
      have alike := submission_takesAlike read entry (by rwa [subOf_of_heats (heats _)]) type
      exact ⟨fun parked => completion_takes quiet read parked _ entry alike (fun _ => rfl) rfl,
        fun parked => completion_takes quiet read parked _ entry alike (fun _ => rfl) rfl,
        fun parked => completion_takes quiet read parked _ entry alike (fun _ => rfl) rfl⟩
    · obtain ⟨entry, -⟩ := known turn
      have alike := lines_takesAlike read entry (by rwa [findHeat_of_heats (heats _)]) pass
      exact completion_takes quiet read parked _ entry alike (fun _ => rfl) rfl
    · have job (turn : ready (12 + k.val)) : TakesAlike (freed (s.at u) (12 + k.val)) (12 + k.val) fun d self => jobEntry d k.val e rd self :=
        job_takesAlike read (known turn).1 (known turn).2 (by rw [ringOf_freed])
      have cal (turn : ready (16 + k.val)) : TakesAlike (freed (s.at u) (16 + k.val)) (16 + k.val) fun d self => calEntry d k.val e rd self :=
        cal_takesAlike rd (known turn).1 (known turn).2
      exact ⟨fun turn parked => completion_takes quiet read parked _ (known turn).1 (job turn) (fun _ => rfl) rfl,
        fun turn parked => completion_takes quiet read parked _ (known turn).1 (job turn) (fun _ => rfl) rfl,
        fun turn parked => completion_takes quiet read parked _ (known turn).1 (job turn) (fun _ => rfl) rfl,
        fun parked => completion_ingot quiet read parked rfl (fun _ => rfl) rfl,
        fun turn parked => completion_takes quiet read parked _ (known turn).1 (cal turn) (fun _ => rfl) rfl,
        fun turn parked => completion_takes quiet read parked _ (known turn).1 (cal turn) (fun _ => rfl) rfl,
        fun parked => completion_ingot quiet read parked rfl (fun _ => rfl) rfl,
        fun turn parked => completion_takes quiet read parked _ (known turn).1 (load_takesAlike read (known turn).1) (fun _ => rfl) rfl⟩
  · have done := answers_hostReadCompletion s u ⟨16 + k.val, by omega⟩ .waiting
    rwa [hostReadDone_waiting] at done

end Sys2Proof.Proofs
end
